-- ==== Sys2Proof/Word.lean ====
section
/-! DEFINITION. The word types of the model and the two container shapes every piece of state is held in:
a fixed number of like things (`Vector`, read and written through `Vec`), and a sparse table in one
canonical form (`Tab`: keys strictly rising, no entry equal to what an unlisted key reads as). -/

namespace Sys2Proof

/-- A byte (R8). -/
abbrev Byte := BitVec 8
/-- A 64-bit register word of CSR space (R11). -/
abbrev Reg := BitVec 64
/-- A 256-bit Zarondend instruction word (R77). -/
abbrev IWord := BitVec 256
/-- An FP32 value, as its bits (R42). -/
abbrev F32 := BitVec 32

namespace Vec

/-- Entry `i`, or `d` when there is no such entry. -/
def get {α : Type} {n : Nat} (v : Vector α n) (i : Nat) (d : α) : α :=
  if h : i < n then v[i] else d

/-- `v` with entry `i` replaced; `v` itself when there is no such entry. -/
def put {α : Type} {n : Nat} (v : Vector α n) (i : Nat) (x : α) : Vector α n :=
  v.setIfInBounds i x

/-- The sum of `f` over the entries. -/
def sumBy {α : Type} {n : Nat} (f : α → Nat) (v : Vector α n) : Nat :=
  v.toList.foldl (fun acc x => acc + f x) 0

end Vec

/-- A sparse table. -/
abbrev Tab (α : Type) := List (Nat × α)

namespace Tab

/-- What key `k` reads as, `d` being what an unlisted key reads as. -/
def get {α : Type} (d : α) : Tab α → Nat → α
  | [], _ => d
  | (j, x) :: t, k => if j = k then x else get d t k

/-- The table with key `k` set to `v`, an entry of its own. -/
def insert {α : Type} : Tab α → Nat → α → Tab α
  | [], k, v => [(k, v)]
  | (j, x) :: t, k, v => if k < j then (k, v) :: (j, x) :: t else if k = j then (k, v) :: t else (j, x) :: insert t k v

/-- The table with key `k` set to `v`, kept in canonical form: no entry where an unlisted key reads as `v`. -/
def put {α : Type} [DecidableEq α] (d : α) (t : Tab α) (k : Nat) (v : α) : Tab α :=
  if v = d then t.filter (fun p => p.1 != k) else insert t k v

/-- Every key of the table is above `k`. -/
def above {α : Type} (k : Nat) : Tab α → Bool
  | [] => true
  | (j, _) :: _ => decide (k < j)

/-- The canonical form, `d j` being what key `j` reads as unlisted. -/
def wf {α : Type} [DecidableEq α] (d : Nat → α) : Tab α → Bool
  | [] => true
  | (j, x) :: t => above j t && decide (x ≠ d j) && wf d t

end Tab

end Sys2Proof
end

