-- ==== Sys2Proof/Syntax.lean ====
section
/-! DEFINITION. The commands of the block: one constructor for each row of spec/opcode_table.json, and the data they carry.
The source table gives no operands; each constructor carries what its rule says the event is about: the unit it
happens in (tray t, core c, port, queue q, QP), the message that arrives, or the quantity that the outside or the clock
decides. -/

namespace Sys2Proof

/-- What an ECC check finds: at the granted read of a line, how many bits of each of its halves are flipped, or that another line's data came (R395, R397); or at a read of on-chip storage in the same cycle (R572 to R578): the structure by its index,
whether the error is uncorrectable, the tray that holds the failing word if one does, and which word of the structure it is: a Bench row (physical
address shifted right 6) for structure 0, a line for structure 1, the core and layer of a counter (2048 * core + selected word) for structure 6, the part hit for
structures 11 (0 a receive buffer, 1 a retained copy, 2 the duplicate table) and 12 (0 a receive buffer, 1 any other state). -/
inductive ReadErr where
  | none
  | line (lo hi : Nat) (other : Bool)
  | storage (index : Nat) (ue : Bool) (tray : Option Nat) (word : Nat)
  deriving DecidableEq, Repr

/-- Cycles that the clock and the bank arbitration decide and an injection reports: cycles without injection for lack of elements (R196), cycles
withheld by R204, and cycles spent emptying for a change of axis or PACK mode (R211, R216). -/
structure InjectHoles where
  bubbles : Nat
  ripple : Nat
  drains : Nat
  deriving DecidableEq, Repr

/-- The sender of a frame, to which the reply goes (R434): MAC, the VLAN of its tag if it has one, DSCP, IP address (IPv6 with `v6`) and UDP port. -/
structure Sender where
  mac : Nat
  vlan : Option Nat
  dscp : Nat
  v6 : Bool
  ip : Nat
  udp : Nat
  deriving DecidableEq, Repr

/-- Where a CCT message came from: a UDP frame on a port with its priority and sender, or a SEND on a QP (R434, R437). -/
inductive CctSrc where
  | udp (port prio : Nat) (sender : Sender)
  | send (qp : Nat)
  deriving DecidableEq, Repr

/-- A received CCT message (R440): the header's fields but OP, which the row gives; `frameLen` is the UDP payload or SEND message length
less 16; `rsvd` says that a reserved header bit is set. The payload is its bytes, at the lengths received. -/
structure CctMsg where
  src : CctSrc
  ver : Nat
  queue : Nat
  ackreq : Bool
  seq : Nat
  qkey : Nat
  len : Nat
  rsvd : Bool
  frameLen : Nat
  payload : List Byte
  deriving DecidableEq, Repr

/-- A RoCEv2 request as it arrives on a queue pair (R436, R437): PSN-ordered and whole. `prio` is the frame's 802.1Q priority and `ce` its
congestion mark (R435, R439). -/
structure RoceReq where
  qp : Nat
  rkey : Nat
  va : Nat
  len : Nat
  data : List Byte
  ce : Bool
  prio : Nat
  deriving DecidableEq, Repr

/-- A received Ethernet frame, as the checks of R433 look at it. `l3ok` stands for the IHL, fragment and checksum checks of IPv4 or the
next-header check of IPv6; `dst` is the destination IP address; `udpSumOk` stands for the UDP checksum. -/
structure Frame where
  length : Nat
  fcsOk : Bool
  vlanTags : Nat
  etherType : Nat
  l3ok : Bool
  dst : Nat
  udpPort : Nat
  udpSumOk : Bool
  pauseFrame : Bool
  prio : Nat
  deriving DecidableEq, Repr

/-- The body of a HELLO (R467). -/
structure HelloBody where
  vmin : Nat
  vmax : Nat
  addr : Nat
  prov : Bool
  leaving : Bool
  peerPort : Nat
  serial : Reg
  credReq : Nat
  credRsp : Nat
  credCol : Nat
  credMgt : Nat
  deriving DecidableEq, Repr

/-- A Staon message (R477), by the fields of its header and its data. For management messages `words` are the register words, `offset` the first register's
offset, `first` the number of registers that a MGT_READ asks for, and `route` and `back` the source route and the return path (R485); for RED `rseq`, `member`, `fmt` and
`first` are TSPEC; for ACK and NACK `ackId` and `status` are; for NOTICE `rseq` is the group. -/
structure StnMsg where
  type : Nat
  rsig : Bool
  rtok : Nat
  retx : Bool
  pair : Bool
  src : Nat
  dst : Nat
  rtray : Nat
  hops : Nat
  ver : Nat
  msgid : Nat
  addr : Nat
  rowBytes : Nat
  stride : Nat
  rseq : Nat
  member : Nat
  fmt : Nat
  first : Nat
  ackId : Nat
  status : Nat
  route : List Nat
  back : List Nat
  offset : Nat
  words : List Reg
  data : List Byte
  deriving DecidableEq, Repr

/-- The fields of a received flit (R470). `crcOk` is the CRC check over bytes 0 to 251 when the body is carried abstractly. -/
structure Flit where
  fseq : Nat
  ackseq : Nat
  nak : Bool
  vc : Nat
  ftype : Nat
  cr : List Nat
  bodyLen : Nat
  crcOk : Bool
  deriving DecidableEq, Repr

/-- What the outside decides in a boot step (R536, R537): whether the step succeeds, and the address straps and the cell voltage
that the Hearth samples at step 1. -/
structure BootEnv where
  stepOk : Bool
  straps : Nat
  cellLow : Bool
  deriving DecidableEq, Repr

/-- A Hearth Management Protocol request (R551): header fields, payload, and the tag of an authenticated request (R553); `peer` is the sender's
address and UDP port as one number. -/
structure HmpReq where
  ver : Nat
  flags : Nat
  status : Nat
  reqId : Nat
  rsvd : Bool
  ctr : Nat
  payload : List Byte
  tag : List Byte
  peer : Nat
  deriving DecidableEq, Repr

/-- Causes of an opening of the hot-swap switch (R592). -/
inductive HscCause where
  | mated | overcurrent | overvoltage | undervoltage
  deriving DecidableEq, Repr

/-- The commands: every row of the table of operations and events. -/
inductive Instr where
  /-- Issue of CTRL.NOP, which does nothing but honour WAIT, SIG and FENCE. (R91) -/
  | ctrlNop (t : Nat)
  /-- Issue of CTRL.LOOP, which repeats its body COUNT times and advances the named descriptors. (R104) -/
  | ctrlLoop (t : Nat)
  /-- Issue of CTRL.END, which waits for every earlier instruction and moves the tray to ENDING. (R80) -/
  | ctrlEnd (t : Nat)
  /-- Issue of CTRL.SETVL, which sets the tray's vector length for later instructions. (R264) -/
  | ctrlSetvl (t : Nat)
  /-- Issue of CTRL.CFG, which writes one Bench region or the descriptor table base of the tray. (R106) -/
  | ctrlCfg (t : Nat)
  /-- Issue of XFER.LD, which copies whole rows on the read channel in transfer descriptors of at most 64 KiB. (R344) -/
  | xferLd (t : Nat)
  /-- Issue of XFER.ST, which copies whole rows on the write channel. (R344) -/
  | xferSt (t : Nat)
  /-- Issue of XFER.GATHER, which checks its index tensor and gathers rows by index, optionally pooling them. (R100) -/
  | xferGather (t : Nat)
  /-- Issue of XFER.SCATTER, which checks its index tensor and writes rows by index in ascending entry order. (R349) -/
  | xferScatter (t : Nat)
  /-- Issue of XFER.REMOTE, which sends each transfer descriptor as one Staon WRITE message to the named module. (R346) -/
  | xferRemote (t : Nat)
  /-- Issue of XFER.PREF, which brings rows into the Larder and drops transfers that fault. (R342) -/
  | xferPref (t : Nat)
  /-- Issue of MXM.MM, whose tiler builds the tile grid and chooses the dense arrays or the Sieve for each tile. (R32) -/
  | mxmMm (t : Nat)
  /-- Issue of MXM.MMS, whose tiles all run on the dense arrays in structured mode. (R217) -/
  | mxmMms (t : Nat)
  /-- Issue of MXM.LDW, which fills one weight tile into the named array's load buffer and launches it. (R207) -/
  | mxmLdw (t : Nat)
  /-- Issue of SPX.INT, a sparse product whose Sieve tiles use the intersect dataflow. (R141) -/
  | spxInt (t : Nat)
  /-- Issue of SPX.SCT, a sparse product whose Sieve tiles use the scatter dataflow. (R143) -/
  | spxSct (t : Nat)
  /-- Issue of SPX.EXP, which expands crumbs or N:M segments to a dense destination with conversion. (R162) -/
  | spxExp (t : Nat)
  /-- Issue of SPX.CMP, which encodes a tensor to crumbs or N:M form at fixed crumb-area places. (R163) -/
  | spxCmp (t : Nat)
  /-- Issue of SPX.CEN, which writes the density census of each 256 x 256 block. (R99) -/
  | spxCen (t : Nat)
  /-- Issue of VXP.LDP, which checks and loads an element program and table entries into a slot. (R282) -/
  | vxpLdp (t : Nat)
  /-- Issue of VXP.RUN, which runs an element program down the Knead line over every element. (R273) -/
  | vxpRun (t : Nat)
  /-- Issue of VXP.CPR, which compresses each row under a mask and writes the count. (R293) -/
  | vxpCpr (t : Nat)
  /-- Issue of VXP.EXD, which expands each row to the columns that a mask selects. (R294) -/
  | vxpExd (t : Nat)
  /-- Issue of VXP.PRM, which permutes lanes within each strip by an index operand. (R292) -/
  | vxpPrm (t : Nat)
  /-- Issue of VXP.RED, which reduces each row under the chosen REDOP. (R295) -/
  | vxpRed (t : Nat)
  /-- Issue of PEEL.CFG, which sets the tray's output format, statistics and scale. (R108) -/
  | peelCfg (t : Nat)
  /-- Issue of PEEL.STAT, which computes per-row statistics of a tensor through Peel port 3. (R257) -/
  | peelStat (t : Nat)
  /-- Issue of PEEL.UPD, which updates weights and moments in place from gradient sums. (R416) -/
  | peelUpd (t : Nat)
  /-- Issue of LEV.PRED, which predicts active neurons, arms the tray and writes the bitmap. (R168) -/
  | levPred (t : Nat)
  /-- Issue of LEV.AUD, which sets audit sampling and STRICT mode and disarms the tray. (R172) -/
  | levAud (t : Nat)
  /-- Issue of SYNC.WAIT, which waits until the named counters reach CNT. (R116) -/
  | syncWait (t : Nat)
  /-- Issue of SYNC.SIG, which signals counters locally and optionally in another tray. (R118) -/
  | syncSig (t : Nat)
  /-- Issue of SYNC.BAR, a barrier among the trays of TRAYMASK. (R120) -/
  | syncBar (t : Nat)
  /-- Issue of FAB.SEND, which sends a tensor to one module as WRITE messages. (R479) -/
  | fabSend (t : Nat)
  /-- Issue of FAB.MCAST, which sends a tensor to a multicast group with retention. (R491) -/
  | fabMcast (t : Nat)
  /-- Issue of FAB.RED, a reduce-scatter that sends slices as RED messages and adds received contributions. (R497) -/
  | fabRed (t : Nat)
  /-- An instruction's last step commits and its SIG counters are incremented. (R26) -/
  | instructionComplete (t k : Nat)
  /-- The dispatcher gives waiting streams, in order of age, to the lowest-numbered idle trays of their sets. (R20) -/
  | dispatch
  /-- A completion record is written to the queue's ring, waiting while the ring is full. (R451) -/
  | recordWrite (q : Nat)
  /-- HQ_NOTIFY_US passes since the first unnotified record, and a NOTIFY is sent. (R454) -/
  | notifyTimerExpire (q : Nat)
  /-- Discarding of a faulted task's steps and transfers completes, and the tray enters IDLE. (R82) -/
  | drainDone (t : Nat)
  /-- The tiler expands the next tile step into an engine queue once the queue has room. (R25) -/
  | tileStepQueue (t : Nat)
  /-- The last crumb header of a block arrives and the Proofer reports its count to the tiler. (R338) -/
  | headerCountReport (t k role bi bj : Nat)
  /-- The Peel generates a zero final pass for an output tile with P = 0. (R232) -/
  | zeroPassGenerate (t : Nat)
  /-- The Proofer fetches instruction words and descriptors ahead until a stopping condition holds. (R340) -/
  | readAheadAdvance (t : Nat)
  /-- A channel issues a free transfer descriptor to the chosen waiting request. (R334) -/
  | transferDescIssue (c ch : Nat)
  /-- A transfer descriptor's last transaction completes. (R333) -/
  | transferDescDone (c ch slot : Nat)
  /-- A stream-buffer slot's last byte is written to the Bench. (R336) -/
  | streamSlotFilled (c stream slot : Nat)
  /-- A table walk ends in a translation, a miss or a memory fault. (R377) -/
  | translationWalkDone (w : Nat)
  /-- The window of streams that block each other expires, and the youngest stream is spilled. (R365) -/
  | prfDeadlockExpire (c : Nat)
  /-- The copy of a spilled slot to the Larder spill area completes and frees the slot. (R365) -/
  | spillCopyDone (c : Nat)
  /-- A spill request waits PRF_DEADLOCK_WIN without room and moves to the next spill area. (R401) -/
  | spillAreaMove (c : Nat)
  /-- A request at the host spill area waits out its window, and the owning task ends. (R402) -/
  | spillExhausted (c : Nat)
  /-- An arbiter grants its free port to the highest-ranked head. (R406) -/
  | arbGrant (site inst : Nat) (err : ReadErr)
  /-- A head's wait counter reaches ARB_WAIT_LIMIT and the head becomes forced. (R409) -/
  | arbHeadForced (site inst requester : Nat)
  /-- A controller's scrub interval elapses and it begins reading every data line. (R398) -/
  | scrubPassStart (ctrl : Nat)
  /-- An array injects its next row group once queues, ripple front and governor allow. (R196) -/
  | arrayGroupInject (c a sub : Nat) (holes : InjectHoles)
  /-- A weight tile has filled the load buffer completely. (R200) -/
  | weightFillDone (c a : Nat)
  /-- The load buffer launches a cube row of a tile into free shadows. (R202) -/
  | weightLaunch (c a : Nat)
  /-- A Sieve plane becomes ready 4 cycles after its last crumbs enter the expanders. (R138) -/
  | planeReady (c : Nat)
  /-- After a step boundary the Sieve makes the oldest ready step current and allocates its slot. (R146) -/
  | sieveStepCurrent (c : Nat)
  /-- A sifter group takes the next segment or item of the current step; `wait` is how many cycles of the Sieve pass before that, beyond those in which the group must go on
  with its work (R30, R146). (R145) -/
  | groupTakeWork (c group wait : Nat)
  /-- A closing step's last product is added and its accumulator slot closes. (R147) -/
  | slotClose (c slot : Nat)
  /-- A closed slot drains to the Peel four rows per cycle once the drain port is free. (R151) -/
  | slotDrain (c : Nat)
  /-- No slot is freed for PRF_DEADLOCK_WIN cycles, and the oldest open slot spills to the Bench. (R153) -/
  | sieveSlotSpill (c : Nat)
  /-- A waiting LEV.PRED takes a freed bitmap from the store and its first step runs. (R185) -/
  | levBitmapTake (c : Nat)
  /-- The vector engine starts the oldest ready row-block step, after loading broadcast operands. (R267) -/
  | vectorStepStart (c : Nat)
  /-- A pass arrives at a Peel port and is added, or goes through the epilogue. (R225) -/
  | peelArrival (c port : Nat)
  /-- A tile waits PRF_DEADLOCK_WIN for Couche space, and its entries go to the Larder spill area. (R253) -/
  | coucheOverflow (c : Nat)
  /-- A waiting group of output tiles receives its open-tile entries. (R237) -/
  | tileGroupAlloc (c : Nat)
  /-- A PEEL.UPD block commits its weights and moments 16 cycles after its last element arrives. (R425) -/
  | updateBlockCommit (t : Nat)
  /-- BAT_WAIT_US passes from a batch's opening arrival and the batch closes. (R326) -/
  | batTimerExpire (q : Nat)
  /-- CCT DOORBELL queues a stream on the queue for dispatch. (R446) -/
  | doorbell (m : CctMsg)
  /-- CCT BATCH_MEMBER joins, opens or closes a batch of the batching queue. (R325) -/
  | batchMember (m : CctMsg)
  /-- CCT RESUME re-issues a PAUSED tray's uncompleted instructions from the stream cursor. (R361) -/
  | resume (m : CctMsg)
  /-- CCT ABORT ends a PAUSED tray's task with TASK_ABORTED. (R88) -/
  | abort (m : CctMsg)
  /-- CCT QUEUE_RESTART restarts dispatch on a stopped queue. (R448) -/
  | queueRestart (m : CctMsg)
  /-- CCT RING_ACK sets the ring's consumer index and frees slots for waiting records. (R453) -/
  | ringAck (m : CctMsg)
  /-- CCT CSR_READ reads 1 to 8 registers and returns them in a RESPONSE. (R449) -/
  | csrRead (m : CctMsg)
  /-- CCT CSR_WRITE writes 1 to 8 registers in ascending order. (R449) -/
  | csrWrite (m : CctMsg)
  /-- CCT QUICK_CALL queues a call whose operands are written to a tray's input area at dispatch. (R455) -/
  | quickCall (m : CctMsg)
  /-- CCT CAPS returns DEV_CAP, ISA_CAP and the highest CCT version. (R450) -/
  | caps (m : CctMsg)
  /-- An incoming RDMA WRITE is checked, translated and written, then acknowledged. (R437) -/
  | rdmaWrite (r : RoceReq)
  /-- An incoming RDMA READ is checked, translated and answered. (R437) -/
  | rdmaReadRequest (r : RoceReq)
  /-- An incoming SEND carries one CCT message that is processed as if received over UDP. (R437) -/
  | send (r : RoceReq) (op : Nat) (m : CctMsg)
  /-- A response to the module's RDMA READ on the host connection delivers hosted-page data. (R438) -/
  | rdmaReadResponse (qp : Nat) (data : List Byte)
  /-- A RoCEv2 acknowledge or NAK for the module's requests completes or errors the QP. (R438) -/
  | acknowledge (qp : Nat) (nak : Bool)
  /-- A received CNP halves the QP's send rate. (R439) -/
  | cnp (qp : Nat)
  /-- 55 us pass without a cut and the QP's rate rises by 8 Gbit/s. (R439) -/
  | rateIncreaseTimer (qp : Nat)
  /-- The transport timeout expires and the request is retried, or the QP enters error. (R438) -/
  | transportTimeout (qp : Nat)
  /-- A received PFC frame stops transmission on named priorities for its quanta. (R435) -/
  | pfcFrame (port : Nat) (quanta : List (Nat × Nat))
  /-- A priority's PFC quanta expire and transmission resumes. (R435) -/
  | pfcPauseExpire (port prio : Nat)
  /-- A host port completes auto-negotiation and training and its link comes up. (R430) -/
  | hostLinkUp (port : Nat)
  /-- A host port link goes down, losing frames in flight and clearing pause state. (R432) -/
  | hostLinkDown (port : Nat)
  /-- A write changing HP_MODE retrains both host links. (R460) -/
  | hpModeWrite (v : Reg)
  /-- A write to a register without its own row acts on each field under its access code. (R11) -/
  | csrRegisterWrite (off : Nat) (v : Reg)
  /-- Writing SYNC_BAR_BREAK breaks open barriers and faults their waiting trays. (R122) -/
  | syncBarBreak (v : Reg)
  /-- Writing LEV_CNT_CLR_ALL sets every Levain layer counter to 0. (R188) -/
  | levCntClrAll (c : Nat) (v : Reg)
  /-- Writing UPD_CLR_ALL returns every monitor slot word to its reset value. (R429) -/
  | updClrAll (c : Nat) (v : Reg)
  /-- A write with PEEL_DBG_SNAP starts a snapshot of an accumulator block into the debug window. (R261) -/
  | peelDbgSnap (c : Nat) (v : Reg)
  /-- The snapshot copy completes and PEEL_DBG_VALID is set. (R261) -/
  | peelDbgSnapDone (c : Nat)
  /-- A write with MMU_INV_GO starts invalidating translation cache entries of its scope. (R380) -/
  | mmuInvGo (v : Reg)
  /-- The entries are removed and dependent transactions complete, and MMU_INV_BUSY clears. (R380) -/
  | mmuInvDone
  /-- An accepted change of LAR_SCRATCH_WAYS starts a Larder repartition. (R390) -/
  | larCfgWrite (v : Reg)
  /-- Writeback and invalidation of the moved ways complete, and LAR_REPART clears. (R390) -/
  | larRepartDone
  /-- A write to LPC_SPLIT takes effect at the next round, or is ignored when its counts do not sum to 16. (R354) -/
  | lpcSplitWrite (ctrl : Nat) (v : Reg)
  /-- Arming ERR_INJ flips bits of the next word written into the selected structure. (R581) -/
  | errInjArm (v : Reg)
  /-- A write to PWR_DOM_ON requests wakes of Auto domains or switch-off of Held domains. (R514) -/
  | pwrDomOnWrite (half : Nat) (v : Reg)
  /-- A write to PWR_PROFILE sets a new power profile and gates its domains. (R526) -/
  | pwrProfileWrite (v : Reg)
  /-- A write to STN_ADDR assigns or restores the fabric address and sends HELLOs. (R484) -/
  | stnAddrWrite (v : Reg)
  /-- Writing STN_MBX_GO sends the management message held in the transmit words. (R504) -/
  | stnMbxGo (v : Reg)
  /-- Setting STN_LEAVE starts the module leaving the fabric. (R499) -/
  | stnLeave (v : Reg)
  /-- Leaving ends when ACKs and copies are done or STN_LEAVE_US expires, and every port goes down. (R499) -/
  | leaveComplete
  /-- A lane not converged at 8 ms, or a link not UP at 100 ms (`whole`), restarts training. (R466) -/
  | linkTrainingTimeout (port : Nat) (whole : Bool)
  /-- After deskew the receiver sees 64 good idle flits and declares flit lock. (R466) -/
  | flitLock (port : Nat)
  /-- A received HELLO sets version, peer data and credits, bringing the port UP. (R467) -/
  | hello (port : Nat) (h : HelloBody)
  /-- A HELLO falls due every 1 us during bring-up or every 100 us once UP. (R469) -/
  | helloSendTimer (port : Nat)
  /-- 300 us pass without a HELLO and the port goes down. (R469) -/
  | helloTimeout (port : Nat)
  /-- 1 ms after going down, a port retrains. (R469) -/
  | portRetrainTimer (port : Nat)
  /-- A flit is received, checked for CRC and sequence, and its ACKSEQ, NAK and credits are applied. (R471) -/
  | flitReceive (port : Nat) (f : Flit)
  /-- ACKSEQ does not advance for 4 us and the transmitter replays. (R472) -/
  | ackseqStallTimer (port : Nat)
  /-- A transit message's first flit leaves on its routed port once credits allow. (R476) -/
  | messageForward (port : Nat) (m : StnMsg)
  /-- A received WRITE message is written to memory, then acknowledged and signalled. (R480) -/
  | write (port : Nat) (m : StnMsg)
  /-- A received MCAST is forwarded to group ports and written locally, then acknowledged. (R490) -/
  | mcast (port : Nat) (m : StnMsg)
  /-- A received RED contribution is added, held, acknowledged or refused by its RSEQ. (R497) -/
  | red (port : Nat) (m : StnMsg)
  /-- A received ACK accepts one message and may complete its instruction or discharge a laggard. (R482) -/
  | ack (port : Nat) (m : StnMsg)
  /-- A received NACK faults the instruction or, for BUSY, schedules a resend. (R482) -/
  | nack (port : Nat) (m : StnMsg)
  /-- A received NOTICE writes a MCAST_LOST event record. (R494) -/
  | notice (port : Nat) (m : StnMsg)
  /-- A delivered MGT_READ reads Staon registers and returns a MGT_REPLY. (R486) -/
  | mgtRead (port : Nat) (m : StnMsg)
  /-- A delivered MGT_WRITE writes Staon registers when permitted and returns a MGT_REPLY. (R486) -/
  | mgtWrite (port : Nat) (m : StnMsg)
  /-- A MGT_REPLY is placed in the mailbox receive words. (R504) -/
  | mgtReply (port : Nat) (m : StnMsg)
  /-- A received LEAVE takes the port out of use as if it had gone down. (R500) -/
  | leave (port : Nat)
  /-- STN_E2E_US passes without ACK and the message is resent, or the instruction faults FAB_NO_ACK. (R482) -/
  | e2eResendTimer (msgid : Nat)
  /-- 10 us after a NACK BUSY, the message is resent. (R482) -/
  | busyRetryTimer (msgid : Nat)
  /-- MCAST_SKEW expires and laggards are detached and sent unicast copies. (R493) -/
  | mcastSkewExpire (msgid : Nat)
  /-- A (SRC, MSGID) pair leaves the duplicate table 1 ms after acceptance. (R481) -/
  | dedupPairExpire (src msgid : Nat)
  /-- Each microsecond the Hearth estimates power and sets the issue fraction for the next window. (R521) -/
  | governorWindow (counts : List Nat)
  /-- An Auto domain idle for PWR_IDLE_US is switched off. (R514) -/
  | domainIdleOff (d : Nat)
  /-- Each Hearth cycle the bucket gains tokens and the head wake request draws them. (R518) -/
  | wakeTokenDraw
  /-- A domain's base wake time passes after its last token and the domain reads on. (R518) -/
  | wakeComplete (d : Nat)
  /-- A domain's 1 us switch-off completes. (R519) -/
  | switchOffComplete (d : Nat)
  /-- Every 10 us the junction sensors are read and the thermal cap is set. (R527) -/
  | thermalSample (temps : List Int)
  /-- Tj stays at or above 110 C for 1 ms and every domain but the Hearth is switched off. (R529) -/
  | thermalShutdown
  /-- Tj has stayed at or below 60 C for 10 s after shutdown and a MODULE reset may follow. (R535) -/
  | thermalRestartTimer
  /-- Each millisecond the estimate is compared with measured input power. (R523) -/
  | estDriftCheck (deciwatts : Nat)
  /-- The root PLL locks, CLK_LOCK sets and the dividers are released. (R510) -/
  | pllLock
  /-- Loss of PLL lock stops dividers, switches off domains and starts a MODULE reset. (R511) -/
  | pllUnlock
  /-- Admission of 48 V, or REF100 returning, starts the Hearth from ROM and a full boot. (R534) -/
  | powerOn
  /-- The Hearth watchdog is not serviced for 1 s and a HEARTH reset follows. (R534) -/
  | hearthWatchdog
  /-- The boot runs ROM checks, image attempts, power-up, training and firmware start. (R536) -/
  | boot (env : BootEnv)
  /-- The backoff after a failed round ends and the next round begins. (R539) -/
  | bootBackoffExpire
  /-- IMAGE_REQUEST is resent every 1 s until the first IMAGE_PUT. (R542) -/
  | imageRequestResend
  /-- HMP_IMAGE_WAIT expires without IMAGE_DONE and the side-band attempt fails. (R542) -/
  | sidebandTimeout
  /-- HMP STATUS returns HRT_STATUS, HRT_BOOT and HRT_SVN. (R551) -/
  | hmpStatus (r : HmpReq)
  /-- HMP TELEMETRY returns input and power readings. (R551) -/
  | telemetry (r : HmpReq)
  /-- HMP OBJ_READ returns bytes of a certificate, report, FRU data or event log. (R551) -/
  | objRead (r : HmpReq)
  /-- HMP ATTEST builds a signed attestation report into object 2. (R548) -/
  | attest (r : HmpReq)
  /-- HMP RESET performs a MODULE or HEARTH reset. (R534) -/
  | hmpReset (r : HmpReq)
  /-- HMP POWER switches the main logic off, or on by a MODULE reset. (R551) -/
  | hmpPower (r : HmpReq)
  /-- HMP IMAGE_PUT programs up to 1,024 bytes into a flash slot. (R542) -/
  | imagePut (r : HmpReq)
  /-- HMP IMAGE_DONE checks the named slot and returns the failure code or 0. (R540) -/
  | imageDone (r : HmpReq)
  /-- HMP TIME_SET writes the calendar and sets CAL_VALID. (R549) -/
  | timeSet (r : HmpReq)
  /-- HMP SVN_COMMIT raises the fused minimum SVN to the running image's SVN. (R551) -/
  | svnCommit (r : HmpReq)
  /-- HMP POLICY_SET writes the policy byte. (R552) -/
  | policySet (r : HmpReq)
  /-- HMP REMOVE_PREP starts the removal sequence. (R558) -/
  | removePrep (r : HmpReq)
  /-- HMP KEY_SET sets the 32-byte HMP key. (R553) -/
  | keySet (r : HmpReq)
  /-- HMP NET_SET sets or clears the side-band IPv4 and IPv6 addresses. (R550) -/
  | netSet (r : HmpReq)
  /-- The side-band port answers ARP for its IPv4 address. (R550) -/
  | arpRequest (ipv4 : Nat)
  /-- The side-band port answers Neighbor Solicitation for its IPv6 addresses. (R550) -/
  | neighborSolicitation (ipv6 : Nat)
  /-- A refused Hearth write of STN_MGT_WR_EN is retried every 1 ms. (R556) -/
  | stnMgtWrEnRetry
  /-- SMBus command 0x00 sets the FRU read offset. (R555) -/
  | smbFruOffsetSet (off : Nat)
  /-- SMBus command 0x01 returns 32 FRU bytes and advances the offset. (R555) -/
  | smbFruBlockRead
  /-- SMBus command 0x10 returns the input voltage. (R555) -/
  | smbReadVoltage
  /-- SMBus command 0x11 returns the input power. (R555) -/
  | smbReadPower
  /-- SMBus command 0x12 returns THM_TJ. (R555) -/
  | smbReadTj
  /-- SMBus command 0x13 returns HRT_STATE. (R555) -/
  | smbReadHrtState
  /-- SMBus command 0x14 returns HRT_LAST_FAIL. (R555) -/
  | smbReadLastFail
  /-- ATTN_N held low for 100 ms after debounce starts removal. (R558) -/
  | attnRemoveHold
  /-- HRT_DRAIN_MS ends, remaining tasks abort and STN_LEAVE is set. (R558) -/
  | drainTimeExpire
  /-- Main domains are off after leaving, and REMOVE_READY is sent with RDY_N asserted. (R558) -/
  | removeReady
  /-- MATED_N opens and the hot-swap controller opens the input within 10 us. (R588) -/
  | matedNOpen
  /-- MATED_N closed and input in range for 100 ms, and the input is admitted. (R590) -/
  | inputAdmit (centivolts : Nat)
  /-- Overcurrent, overvoltage or undervoltage opens the hot-swap switch and records the cause. (R592) -/
  | hotSwapTrip (causes : List HscCause)
  /-- REF100 is absent or off frequency, holding the Hearth and main logic in reset. (R595) -/
  | ref100Loss
  /-- REF100 present for 1 ms starts a POWER_ON reset. (R595) -/
  | ref100Return
  /-- Loss of the host SerDes reference takes both host links down. (R595) -/
  | ref156hLoss
  /-- Loss of the Staon SerDes reference takes every Staon port down. (R595) -/
  | ref156sLoss
  /-- The Levain makes the oldest ready LEV.PRED row step current under R29, taking a free bitmap at the first step and spending 2 cycles on a tray switch. (R186) -/
  | levainStepStart (c : Nat)
  /-- The host SerDes reference returns and both host links retrain. (R595) -/
  | ref156hReturn
  /-- The Staon SerDes reference returns and every Staon port retrains under R466. (R595) -/
  | ref156sReturn
  /-- The calendar oscillator stops, for example when the coin cell is removed or exhausted without input power, and CAL_VALID clears. (R549) -/
  | calOscillatorStop
  /-- The attestation report in object 2 is complete, within 15 ms of ATTEST, and ATTEST stops answering BUSY. (R548) -/
  | attestReportDone
  /-- A received frame that fails the checks of R433, or an 802.3x PAUSE frame, is dropped and counted in HP_RX_DROPS and HP_FCS_ERRS. (R433) -/
  | receivedFrameDrop (port : Nat) (f : Frame)
  /-- An incoming RoCEv2 request with an unsupported opcode, such as an atomic or an opcode with immediate data, is answered with a NAK Invalid Request. (R436) -/
  | invalidRequestOpcode (r : RoceReq)
  deriving DecidableEq, Repr

end Sys2Proof
end

