-- ==== Sys2Proof/Machine/Bits.lean ====
section
/-! DEFINITION. Bit fields, byte order and small arithmetic helpers (R8: bit 0 is the least significant bit,
multi-byte fields are little-endian). -/

namespace Sys2Proof.Machine

/-- Bits `hi` to `lo` of a word, as a number. -/
def bf {n : Nat} (w : BitVec n) (hi lo : Nat) : Nat :=
  (w.toNat >>> lo) % 2 ^ (hi + 1 - lo)

/-- Bit `i` of a word. -/
def bit {n : Nat} (w : BitVec n) (i : Nat) : Bool := w.getLsbD i

/-- The mask with ones in bits `hi` to `lo`. -/
def maskOf (n hi lo : Nat) : BitVec n := BitVec.ofNat n ((2 ^ (hi + 1 - lo) - 1) <<< lo)

/-- A word with bits `hi` to `lo` replaced by `v` (taken modulo the field's size). -/
def setBf {n : Nat} (w : BitVec n) (hi lo v : Nat) : BitVec n :=
  (w &&& ~~~ maskOf n hi lo) ||| (BitVec.ofNat n ((v % 2 ^ (hi + 1 - lo)) <<< lo))

/-- A Bool as the number 0 or 1. -/
def b2n (b : Bool) : Nat := if b then 1 else 0

/-- Bits `hi` to `lo` of a number. -/
def nbf (x hi lo : Nat) : Nat := (x >>> lo) % 2 ^ (hi + 1 - lo)

/-- The `n` bytes of a number, least significant first (R8). -/
def leBytes : Nat → Nat → List Byte
  | 0, _ => []
  | n + 1, v => BitVec.ofNat 8 v :: leBytes n (v / 256)

/-- The number that bytes spell, least significant first (R8). -/
def leNat : List Byte → Nat
  | [] => 0
  | b :: t => b.toNat + 256 * leNat t

/-- A `w`-bit code read as a two's-complement number (R41). -/
def sext (w x : Nat) : Int :=
  if x % 2 ^ w < 2 ^ (w - 1) then (x % 2 ^ w : Nat) else ((x % 2 ^ w : Nat) : Int) - (2 ^ w : Nat)

/-- A number as its `w`-bit two's-complement code. -/
def toCode (w : Nat) (x : Int) : Nat := (x % ((2 ^ w : Nat) : Int)).toNat

/-- Division rounded up. -/
def cdiv (a b : Nat) : Nat := (a + b - 1) / b

/-- `a` rounded up to a multiple of `b`. -/
def roundUp (a b : Nat) : Nat := cdiv a b * b

/-- `x` limited to the range `lo` to `hi`. -/
def clampI (lo hi x : Int) : Int := if x < lo then lo else if hi < x then hi else x

/-- `x` limited to the range `lo` to `hi`. -/
def clampN (lo hi x : Nat) : Nat := if x < lo then lo else if hi < x then hi else x

/-- The XOR of two numbers of at most 64 bits. -/
def xorN (a b : Nat) : Nat := a ^^^ b

/-- The positions of the ones of the low `n` bits of a number, ascending. -/
def onesOf (n x : Nat) : List Nat := (List.range n).filter (fun i => x.testBit i)

/-- How many of the low `n` bits of a number are 1. -/
def popCount (n x : Nat) : Nat := (onesOf n x).length

/-- `w`-bit elements of a packed run: element `i` occupies bits `w*i` to `w*i+w-1` (R53). -/
def unpackElems (w : Nat) (n : Nat) (bs : List Byte) : List Nat :=
  let x := leNat bs
  (List.range n).map (fun i => (x >>> (w * i)) % 2 ^ w)

/-- Elements packed at width `w` into whole bytes (R53). -/
def packElems (w : Nat) (xs : List Nat) : List Byte :=
  leBytes (cdiv (w * xs.length) 8)
    (xs.foldr (fun x acc => (x % 2 ^ w) + 2 ^ w * acc) 0)

/-- Entry `i` of a list replaced by `x`. -/
def setAt {α : Type} (l : List α) (i : Nat) (x : α) : List α := l.set i x

/-- Entry `i` of a list changed by `f`. -/
def modAt {α : Type} (l : List α) (i : Nat) (f : α → α) : List α := l.modify i f

/-- The first entry that satisfies `p` removed. -/
def dropFirst {α : Type} (p : α → Bool) : List α → List α
  | [] => []
  | x :: t => if p x then t else x :: dropFirst p t

/-- The first entry that satisfies `p` changed by `f`. -/
def modFirst {α : Type} (p : α → Bool) (f : α → α) : List α → List α
  | [] => []
  | x :: t => if p x then f x :: t else x :: modFirst p f t

/-- A least entry under `key`, the first of several. -/
def argMin {α : Type} (key : α → Nat) : List α → Option α
  | [] => none
  | x :: t =>
    match argMin key t with
    | none => some x
    | some y => if key x ≤ key y then some x else some y

/-- An entry put into a list sorted by `key`, behind those of equal key. -/
def insertBy {α : Type} (key : α → Nat) (x : α) : List α → List α
  | [] => [x]
  | y :: t => if key x < key y then x :: y :: t else y :: insertBy key x t

/-- A list sorted by `key`, entries of equal key in their order. -/
def sortBy {α : Type} (key : α → Nat) (l : List α) : List α := l.foldl (fun acc x => insertBy key x acc) []

/-- A list with consecutive duplicates removed. -/
def runsOf {α : Type} [DecidableEq α] : List α → List α
  | [] => []
  | a :: t =>
    match t with
    | [] => [a]
    | b :: _ => if a = b then runsOf t else a :: runsOf t

/-- A list cut into pieces of `n`. -/
def chunksFuel {α : Type} (n : Nat) : Nat → List α → List (List α)
  | 0, _ => []
  | _, [] => []
  | f + 1, l => l.take n :: chunksFuel n f (l.drop n)

/-- A list cut into consecutive pieces of `n` entries, the last holding the remainder. -/
def chunks {α : Type} (n : Nat) (l : List α) : List (List α) := chunksFuel n l.length l

end Sys2Proof.Machine
end

