-- ==== Sys2Proof/Machine/Crypto.lean ====
section
/-! DEFINITION. SHA3-256, SHA3-512 (FIPS 202) and HMAC-SHA3-256, which the provisional address, the measurements and the management protocol use (R484, R540, R545
to R547, R553). -/

namespace Sys2Proof.Machine

/-- The bit generator of the round constants, a shift register of eight bits with the polynomial x^8 + x^6 + x^5 + x^4 + 1; its output is bit 0. -/
def rcNext (r : Nat) : Nat := if r < 128 then 2 * r else (2 * r) ^^^ 0x171

/-- The constants of `n` rounds from a state of the generator: seven bits each, at the places 2^j - 1. -/
def roundConsts : Nat → Nat → List Reg
  | 0, _ => []
  | n + 1, r =>
    let (v, r1) := (List.range 7).foldl (fun (p : Nat × Nat) j => (p.1 + p.2 % 2 * 2 ^ (2 ^ j - 1), rcNext p.2)) (0, r)
    BitVec.ofNat 64 v :: roundConsts n r1

/-- How far the lane in column x of plane y turns, plane by plane. -/
def laneTurns : List (List Nat) := [
  [0, 1, 62, 28, 27],
  [36, 44, 6, 55, 20],
  [3, 10, 43, 25, 39],
  [41, 45, 15, 21, 8],
  [18, 2, 61, 56, 14]]

/-- A plane of five lanes moved `k` columns to the left. -/
def planeShift (k : Nat) (p : List Reg) : List Reg := p.drop k ++ p.take k

/-- The exclusive or of two planes. -/
def planeXor (p q : List Reg) : List Reg := List.zipWith (fun x y => x ^^^ y) p q

/-- The column parities enter every plane: those of the column before, and of the column after turned by one. -/
def mixColumns (a : List (List Reg)) : List (List Reg) :=
  let c := a.foldl planeXor (List.replicate 5 0)
  let d := planeXor (planeShift 4 c) ((planeShift 1 c).map (fun w => w.rotateLeft 1))
  a.map (planeXor d)

/-- Every lane turned, and the lane of plane x in column x + 3 y put into column x of plane y. -/
def moveLanes (a : List (List Reg)) : List (List Reg) :=
  let r := List.zipWith (fun p n => List.zipWith (fun (w : Reg) (k : Nat) => w.rotateLeft k) p n) a laneTurns
  (List.range 5).map (fun y => r.zipIdx.map (fun p => p.1.getD ((p.2 + 3 * y) % 5) 0))

/-- Each lane of a plane with the next one's complement and the one after that. -/
def mixPlane (p : List Reg) : List Reg := planeXor p (List.zipWith (fun x y => ~~~ x &&& y) (planeShift 1 p) (planeShift 2 p))

/-- A round's constant enters the first lane. -/
def addConst (rc : Reg) : List (List Reg) → List (List Reg)
  | (w :: p) :: a => ((w ^^^ rc) :: p) :: a
  | a => a

/-- Keccak-f[1600] on five planes of five lanes. -/
def keccakF (a : List (List Reg)) : List (List Reg) :=
  (roundConsts 24 1).foldl (fun b rc => addConst rc ((moveLanes (mixColumns b)).map mixPlane)) a

/-- A block of at most 200 bytes as planes of lanes, eight bytes to a lane. -/
def toPlanes (bs : List Byte) : List (List Reg) :=
  (List.range 5).map (fun y => (List.range 5).map (fun x => BitVec.ofNat 64 (leNat ((bs.drop (40 * y + 8 * x)).take 8))))

/-- A message padded for SHA-3 to a multiple of `rate` bytes. -/
def sha3Pad (rate : Nat) (msg : List Byte) : List Byte :=
  let n := rate - msg.length % rate
  msg ++ (if n = 1 then [0x86#8] else 0x06#8 :: (List.replicate (n - 2) 0#8 ++ [0x80#8]))

/-- SHA-3 with a rate and an output length in bytes. -/
def sha3 (rate out : Nat) (msg : List Byte) : List Byte :=
  let st := (chunks rate (sha3Pad rate msg)).foldl (fun st b => keccakF (List.zipWith planeXor st (toPlanes b))) (List.replicate 5 (List.replicate 5 0))
  (st.flatten.flatMap (fun w => leBytes 8 w.toNat)).take out

/-- SHA3-256. -/
def sha3_256 (msg : List Byte) : List Byte := sha3 136 32 msg
/-- SHA3-512. -/
def sha3_512 (msg : List Byte) : List Byte := sha3 72 64 msg

/-- HMAC-SHA3-256. -/
def hmac (key msg : List Byte) : List Byte :=
  let k0 := if 136 < key.length then sha3_256 key else key
  let k := k0 ++ List.replicate (136 - k0.length) 0#8
  sha3_256 (k.map (fun b => b ^^^ 0x5C#8) ++ sha3_256 (k.map (fun b => b ^^^ 0x36#8) ++ msg))

end Sys2Proof.Machine
end

