-- ==== Sys2Proof/Config.lean ====
section
/-! DEFINITION. What an implementation fixes and the manual leaves open, as constants without a body: nothing in
Lean can evaluate one of them, so a claim that holds of the model holds whatever they are. -/

namespace Sys2Proof.Config

/-- The FP32 result bits of a FUNC operation of the Knead line for a finite or in-domain input. R277 bounds the error
and promises the same bits on every module; it does not give the bits. First argument: the OP code of R275. -/
opaque funcBits : Nat → F32 → F32

/-- FIPS 204 ML-DSA-87 verification (R540, R544): public key, message, signature. -/
opaque mldsaVerify : List Byte → List Byte → List Byte → Bool
/-- FIPS 204 ML-DSA-87 key generation from a 32-byte seed (R547): public key. -/
opaque mldsaPublic : List Byte → List Byte
/-- FIPS 204 ML-DSA-87 signature under the key of a 32-byte seed (R548). -/
opaque mldsaSign : List Byte → List Byte → List Byte
/-- The Uanak root public key held in ROM (R540). -/
opaque rootKey : List Byte
/-- The bytes of the Hearth ROM and of the fuse contents other than the device secret and ARRAY_MASK (R546); the fuses hold the minimum SVN, the first argument, and
the grade. -/
opaque romAndFuses : Nat → Nat → List Byte
/-- The per-block energy coefficients fused at manufacture (R520): milliwatts per activity count of consumer `i`. -/
opaque energyCoeff : Nat → Nat
/-- The leakage factor 2^((Tj − 85) ÷ 25) of R520 at junction temperature `Tj`, in units of 1/1000; the rule gives a real number and
no rounding. -/
opaque leakFactor : Int → Nat
/-- The ECC code word of half a line: the line, which gives bits 47:7 of the address, and the half's 64 bytes (R395 says what the word corrects and detects, not its bits). -/
opaque eccWord : Nat → List Byte → BitVec 16
/-- A free value: what the manual leaves undetermined, the n-th time one is drawn. -/
opaque freeByte : Nat → Byte
/-- A free 64-bit value: what the manual leaves undetermined, the n-th time one is drawn. -/
opaque freeWord : Nat → Reg

end Sys2Proof.Config
end

