-- ==== Sys2Proof/Machine/Flags.lean ====
section
/-! DEFINITION. The flags that numeric work raises and the tile status word that gathers them (R45, R46, R57, R60, R240). -/

namespace Sys2Proof.Machine

/-- The flags of one operation, or of everything merged into a tile so far (R240 bits 6:0). -/
structure Flags where
  /-- SAT: a conversion or an integer add saturated (R60, R227). -/
  sat : Bool := false
  /-- NAN_SEEN (R45). -/
  nan : Bool := false
  /-- INF_SEEN (R46). -/
  inf : Bool := false
  /-- SR_UNDER: stochastic rounding turned a nonzero value into zero (R57). -/
  srUnder : Bool := false
  /-- EMPTY: a reduction covered no element (R259). -/
  empty : Bool := false
  /-- MASKED_ALL: no element of the tile was computed (R240). -/
  maskedAll : Bool := false
  /-- PERM_RANGE: a permutation read a lane at or beyond VL (R280, R292). -/
  permRange : Bool := false
  deriving DecidableEq, Repr

namespace Flags

/-- No flag. -/
def none : Flags := {}

/-- Flags are merged from every pass and every stage (R240). MASKED_ALL is decided per tile, so it is merged by "and" elsewhere. -/
def or (a b : Flags) : Flags :=
  { sat := a.sat || b.sat, nan := a.nan || b.nan, inf := a.inf || b.inf, srUnder := a.srUnder || b.srUnder,
    empty := a.empty || b.empty, maskedAll := a.maskedAll || b.maskedAll, permRange := a.permRange || b.permRange }

/-- The flags of a list of operations together. -/
def orAll (l : List Flags) : Flags := l.foldl or none

/-- What sets the completion record's STAT_ANY bit (R126). -/
def statAny (f : Flags) : Bool := f.sat || f.nan || f.inf || f.srUnder

end Flags

/-- The engines that fed a tile (R240, TSW_SRC). -/
inductive TswSrc where
  | arrays | sieve | both | noEngine
  deriving DecidableEq, Repr

/-- The code of TSW_SRC. -/
def TswSrc.code : TswSrc → Nat
  | .arrays => 0 | .sieve => 1 | .both => 2 | .noEngine => 3

/-- The source seen so far, with one more pass from the arrays or the Sieve. -/
def TswSrc.add (fromSieve : Bool) : TswSrc → TswSrc
  | .noEngine => if fromSieve then .sieve else .arrays
  | .arrays => if fromSieve then .both else .arrays
  | .sieve => if fromSieve then .sieve else .both
  | .both => .both

/-- The tile status word (R240). -/
def tileStatusWord (passes : Nat) (src : TswSrc) (zeroShape : Bool) (f : Flags) : Nat :=
  (min passes 65535) * 65536 + src.code * 256 + b2n zeroShape * 128 + b2n f.permRange * 64
    + b2n f.maskedAll * 32 + b2n f.empty * 16 + b2n f.srUnder * 8 + b2n f.inf * 4 + b2n f.nan * 2 + b2n f.sat

end Sys2Proof.Machine
end

