-- ==== Sys2Proof/Machine/Num.lean ====
section
/-! DEFINITION. Number formats (R39 to R63): exact values, decoding, rounding, conversion, FP32 arithmetic, MX blocks. Values are
converted to exact dyadic numbers, computed exactly, and rounded once at the end. -/

namespace Sys2Proof.Machine

/-- A decoded value: NaN, an infinity, or exactly (−1)^neg × m × 2^e. Zero keeps its sign (R47). -/
inductive Num where
  | nan
  | inf (neg : Bool)
  | fin (neg : Bool) (m : Nat) (e : Int)
  deriving DecidableEq, Repr

/-- Format codes (R39). -/
inductive Fmt where
  | int8 | int4 | int32 | e4m3 | e5m2 | fp16 | bf16 | fp32
  | mxE4m3 | mxE5m2 | mxE2m3 | mxE3m2 | mxE2m1 | mxInt8
  deriving DecidableEq, Repr

namespace Fmt

/-- The format of a code; 0xE and 0xF are reserved (R39, R40). -/
def ofCode : Nat → Option Fmt
  | 0 => some .int8 | 1 => some .int4 | 2 => some .int32 | 3 => some .e4m3 | 4 => some .e5m2
  | 5 => some .fp16 | 6 => some .bf16 | 7 => some .fp32 | 8 => some .mxE4m3 | 9 => some .mxE5m2
  | 10 => some .mxE2m3 | 11 => some .mxE3m2 | 12 => some .mxE2m1 | 13 => some .mxInt8
  | _ => none

/-- The code of a format (R39). -/
def code : Fmt → Nat
  | .int8 => 0 | .int4 => 1 | .int32 => 2 | .e4m3 => 3 | .e5m2 => 4 | .fp16 => 5 | .bf16 => 6 | .fp32 => 7
  | .mxE4m3 => 8 | .mxE5m2 => 9 | .mxE2m3 => 10 | .mxE3m2 => 11 | .mxE2m1 => 12 | .mxInt8 => 13

/-- Element bits (R39). -/
def bits : Fmt → Nat
  | .int8 => 8 | .int4 => 4 | .int32 => 32 | .e4m3 => 8 | .e5m2 => 8 | .fp16 => 16 | .bf16 => 16 | .fp32 => 32
  | .mxE4m3 => 8 | .mxE5m2 => 8 | .mxE2m3 => 6 | .mxE3m2 => 6 | .mxE2m1 => 4 | .mxInt8 => 8

/-- The MX block formats (R48). -/
def isMx : Fmt → Bool
  | .mxE4m3 | .mxE5m2 | .mxE2m3 | .mxE3m2 | .mxE2m1 | .mxInt8 => true
  | _ => false

/-- INT8, INT4 and INT32. -/
def isInt : Fmt → Bool
  | .int8 | .int4 | .int32 => true
  | _ => false

/-- Array inputs and Sieve inputs are the same formats: every one but INT32 and FP32 (R39). -/
def isArrayInput : Fmt → Bool
  | .int32 | .fp32 => false
  | _ => true

end Fmt

/-- The layout of a floating-point format (R42). `maxCode` is the code of the largest finite value; `infCode` and `nanCode`
are the codes of the infinity and of the canonical NaN, where the format has them (R44). -/
structure FloatFmt where
  eb : Nat
  mb : Nat
  bias : Int
  maxCode : Nat
  infCode : Option Nat
  nanCode : Option Nat
  deriving DecidableEq, Repr

namespace FloatFmt
/-- FP32. -/
def fp32 : FloatFmt := ⟨8, 23, 127, 0x7F7FFFFF, some 0x7F800000, some 0x7FC00000⟩
/-- BF16. -/
def bf16 : FloatFmt := ⟨8, 7, 127, 0x7F7F, some 0x7F80, some 0x7FC0⟩
/-- FP16. -/
def fp16 : FloatFmt := ⟨5, 10, 15, 0x7BFF, some 0x7C00, some 0x7E00⟩
/-- E5M2. -/
def e5m2 : FloatFmt := ⟨5, 2, 15, 0x7B, some 0x7C, some 0x7E⟩
/-- E4M3. -/
def e4m3 : FloatFmt := ⟨4, 3, 7, 0x7E, none, some 0x7F⟩
/-- E3M2. -/
def e3m2 : FloatFmt := ⟨3, 2, 3, 0x1F, none, none⟩
/-- E2M3. -/
def e2m3 : FloatFmt := ⟨2, 3, 1, 0x1F, none, none⟩
/-- E2M1. -/
def e2m1 : FloatFmt := ⟨2, 1, 1, 0x7, none, none⟩
end FloatFmt

/-- The floating-point layout of a format's elements; none for the integer elements (R42, R48). -/
def Fmt.float : Fmt → Option FloatFmt
  | .fp32 => some .fp32 | .bf16 => some .bf16 | .fp16 => some .fp16
  | .e5m2 | .mxE5m2 => some .e5m2 | .e4m3 | .mxE4m3 => some .e4m3
  | .mxE3m2 => some .e3m2 | .mxE2m3 => some .e2m3 | .mxE2m1 => some .e2m1
  | .int8 | .int4 | .int32 | .mxInt8 => none

/-- The value of a floating-point code (R42, R43). -/
def decodeFloat (f : FloatFmt) (c : Nat) : Num :=
  let neg := c.testBit (f.eb + f.mb)
  let ex := (c >>> f.mb) % 2 ^ f.eb
  let man := c % 2 ^ f.mb
  if ex = 2 ^ f.eb - 1 ∧ f.infCode.isSome then (if man = 0 then .inf neg else .nan)
  else if f.infCode.isNone ∧ f.nanCode = some (c % 2 ^ (f.eb + f.mb)) then .nan
  else if ex = 0 then .fin neg man (1 - f.bias - f.mb)
  else .fin neg (man + 2 ^ f.mb) (ex - f.bias - f.mb)

/-- The value of an element code before any block scale (R41, R42, R49). -/
def decodeElem (f : Fmt) (c : Nat) : Num :=
  match f.float with
  | some ff => decodeFloat ff c
  | none =>
    let v := sext f.bits c
    .fin (decide (v < 0)) v.natAbs (if f = .mxInt8 then -6 else 0)

/-- The value of an MX element under its E8M0 scale code (R48, R49); other formats ignore the scale. -/
def decodeScaled (f : Fmt) (scale c : Nat) : Num :=
  if f.isMx then
    (if scale = 255 then .nan
     else match decodeElem f c with
      | .fin neg m e => .fin neg m (e + scale - 127)
      | x => x)
  else decodeElem f c

/-- Rounding modes (R54); stochastic rounding carries its random value r (R56). -/
inductive Rnd where
  | rne | rtz | rdn | rup
  | sr (r : Nat)
  deriving DecidableEq, Repr

/-- The mode of an RMODE field; 4 to 7 are reserved (R54). -/
def Rnd.ofCode : Nat → Option Rnd
  | 0 => some .rne | 1 => some .rtz | 2 => some .rdn | 3 => some .rup | _ => none

/-- Whether a truncated magnitude `a` with the remainder `rem` of `2^k` below it rounds up (R54, R56). -/
def roundsUp (rm : Rnd) (neg : Bool) (a rem k : Nat) : Bool :=
  match rm with
  | .rne => decide (2 ^ k < 2 * rem) || (decide (2 * rem = 2 ^ k) && decide (a % 2 = 1))
  | .rtz => false
  | .rdn => neg && decide (rem ≠ 0)
  | .rup => !neg && decide (rem ≠ 0)
  | .sr r => decide (65536 ≤ (rem * 65536) >>> k + r)

/-- `m × 2^e` in units of `2^q`: the truncated magnitude, the remainder and how many bits it was cut by. -/
def truncAt (m : Nat) (e q : Int) : Nat × Nat × Nat :=
  if q ≤ e then (m <<< (e - q).toNat, 0, 0)
  else
    let k := (q - e).toNat
    (m >>> k, m % 2 ^ k, k)

/-- The exponent of the unit in the last place of `f` for a magnitude `m × 2^e` (m > 0), subnormals included (R43). -/
def quantum (f : FloatFmt) (m : Nat) (e : Int) : Int :=
  let top : Int := (Nat.log2 m : Int) + e
  (if top < 1 - f.bias then 1 - f.bias else top) - f.mb

/-- The code, sign aside, of the magnitude `a × 2^q`, `q` being a quantum of `f`. -/
def magCode (f : FloatFmt) (a : Nat) (q : Int) : Nat :=
  if a = 0 then 0 else (q + f.mb + f.bias - 1).toNat * 2 ^ f.mb + a

/-- What a conversion answers: the destination's code and the flags it raises. -/
structure Cvt where
  code : Nat
  flags : Flags
  deriving DecidableEq, Repr

/-- The sign bit of a float format. -/
def signBit (f : FloatFmt) (neg : Bool) : Nat := if neg then 2 ^ (f.eb + f.mb) else 0

/-- A finite value into a floating-point format: rounded under the mode; a value out of range takes the largest finite value
with its sign and sets SAT, but for the directed modes that round it there themselves (R56, R60). -/
def cvtFin (f : FloatFmt) (rm : Rnd) (neg : Bool) (m : Nat) (e : Int) : Cvt :=
  if m = 0 then ⟨signBit f neg, .none⟩
  else
    let q := quantum f m e
    let (a, rem, k) := truncAt m e q
    let a' := if roundsUp rm neg a rem k then a + 1 else a
    let tooBig := decide (f.maxCode < magCode f a q) || decide (f.maxCode < magCode f a' q)
    let exempt := match rm with
      | .rtz => true | .rdn => !neg | .rup => neg | _ => false
    let under := match rm with
      | .sr _ => decide (a' = 0)
      | _ => false
    if tooBig then ⟨signBit f neg + f.maxCode, { sat := !exempt }⟩
    else ⟨signBit f neg + magCode f a' q, { srUnder := under }⟩

/-- A value into a scalar floating-point format (R46, R60). Into FP32 nothing is narrower, so a NaN sets no flag there; an infinity read is seen whatever the format. -/
def cvtFloat (f : FloatFmt) (rm : Rnd) : Num → Cvt
  | .nan => ⟨f.nanCode.getD f.maxCode, { nan := decide (f ≠ .fp32) }⟩
  | .inf neg =>
    match f.infCode with
    | some c => ⟨signBit f neg + c, { inf := true }⟩
    | none => ⟨signBit f neg + f.maxCode, { sat := true, inf := true }⟩
  | .fin neg m e => cvtFin f rm neg m e

/-- A finite value rounded to an integer under the mode. -/
def roundInt (rm : Rnd) (neg : Bool) (m : Nat) (e : Int) : Int :=
  let (a, rem, k) := truncAt m e 0
  let a' := if roundsUp rm neg a rem k then a + 1 else a
  if neg then - (a' : Int) else a'

/-- A value into a `w`-bit integer format: rounded, saturated to the range with SAT; NaN gives 0 (R60). -/
def cvtInt (w : Nat) (rm : Rnd) : Num → Cvt
  | .nan => ⟨0, { nan := true }⟩
  | .inf neg => ⟨if neg then 2 ^ (w - 1) else 2 ^ (w - 1) - 1, { sat := true, inf := true }⟩
  | .fin neg m e =>
    let v := roundInt rm neg m e
    let lo : Int := - (2 ^ (w - 1) : Nat)
    let hi : Int := (2 ^ (w - 1) : Nat) - 1
    let c := clampI lo hi v
    let under := match rm with
      | .sr _ => decide (m ≠ 0) && decide (v = 0)
      | _ => false
    ⟨toCode w c, { sat := decide (c ≠ v), srUnder := under }⟩

/-- A value into a scalar format, integer or float (R60). -/
def cvtScalar (f : Fmt) (rm : Rnd) (x : Num) : Cvt :=
  match f.float with
  | some ff => cvtFloat ff rm x
  | none => cvtInt f.bits rm x

/-- A magnitude `m × 2^e` and whether it exceeds another. -/
def magLt (m1 : Nat) (e1 : Int) (m2 : Nat) (e2 : Int) : Bool :=
  if e1 ≤ e2 then decide (m1 < m2 <<< (e2 - e1).toNat) else decide (m1 <<< (e1 - e2).toNat < m2)

/-- The exact order of two finite values. -/
def finLt (n1 : Bool) (m1 : Nat) (e1 : Int) (n2 : Bool) (m2 : Nat) (e2 : Int) : Bool :=
  if m1 = 0 ∧ m2 = 0 then false
  else if m1 = 0 then !n2
  else if m2 = 0 then n1
  else match n1, n2 with
    | true, false => true
    | false, true => false
    | false, false => magLt m1 e1 m2 e2
    | true, true => magLt m2 e2 m1 e1

/-- a < b; false when either is NaN (R279). Zeros compare equal. -/
def Num.lt : Num → Num → Bool
  | .nan, _ => false
  | _, .nan => false
  | .inf n1, .inf n2 => n1 && !n2
  | .inf n1, .fin _ _ _ => n1
  | .fin _ _ _, .inf n2 => !n2
  | .fin n1 m1 e1, .fin n2 m2 e2 => finLt n1 m1 e1 n2 m2 e2

/-- a = b; false when either is NaN; +0 and −0 are equal (R279). -/
def Num.eq (a b : Num) : Bool :=
  match a, b with
  | .nan, _ => false
  | _, .nan => false
  | _, _ => !(a.lt b) && !(b.lt a)

/-- Whether the value is +0, −0 or integer 0. -/
def Num.isZero : Num → Bool
  | .fin _ 0 _ => true
  | _ => false

/-- Whether the value is a NaN. -/
def Num.isNan : Num → Bool
  | .nan => true
  | _ => false

/-- Whether the value is an infinity. -/
def Num.isInf : Num → Bool
  | .inf _ => true
  | _ => false

/-- An integer as a value. -/
def Num.ofInt (i : Int) : Num := .fin (decide (i < 0)) i.natAbs 0

/-! ### FP32 arithmetic (R45, R46, R191, R276) -/

/-- An FP32 code decoded. -/
def f32dec (x : F32) : Num := decodeFloat .fp32 x.toNat

/-- The canonical quiet NaN in FP32 (R44). -/
def f32nan : F32 := 0x7FC00000#32
/-- An FP32 infinity. -/
def f32inf (neg : Bool) : F32 := if neg then 0xFF800000#32 else 0x7F800000#32
/-- +0 in FP32. -/
def f32zero : F32 := 0#32
/-- 1.0 in FP32. -/
def f32one : F32 := 0x3F800000#32

/-- The result of an arithmetic operation in FP32: one RNE rounding; beyond the range it is an infinity with its sign, which sets
INF_SEEN; a NaN is canonical and sets NAN_SEEN (R44 to R46, R191, R276). -/
def f32round (x : Num) : F32 × Flags :=
  match x with
  | .nan => (f32nan, { nan := true })
  | .inf neg => (f32inf neg, { inf := true })
  | .fin neg m e =>
    let c := cvtFin .fp32 .rne neg m e
    if c.flags.sat then (f32inf neg, { inf := true }) else (BitVec.ofNat 32 c.code, .none)

/-- The flags that reading operands raises (R45, R46). -/
def readFlags (xs : List Num) : Flags :=
  { nan := xs.any Num.isNan, inf := xs.any Num.isInf }

/-- The exact sum of two values. A zero sum of a nonzero pair is +0; −0 + −0 is −0. -/
def Num.add : Num → Num → Num
  | .nan, _ => .nan
  | _, .nan => .nan
  | .inf a, .inf b => if a = b then .inf a else .nan
  | .inf a, .fin _ _ _ => .inf a
  | .fin _ _ _, .inf b => .inf b
  | .fin n1 m1 e1, .fin n2 m2 e2 =>
    let q := if e1 ≤ e2 then e1 else e2
    let a : Int := (m1 <<< (e1 - q).toNat : Nat)
    let b : Int := (m2 <<< (e2 - q).toNat : Nat)
    let s : Int := (if n1 then -a else a) + (if n2 then -b else b)
    if s = 0 then .fin (n1 && n2) 0 q else .fin (decide (s < 0)) s.natAbs q

/-- The value with its sign changed. -/
def Num.neg : Num → Num
  | .nan => .nan
  | .inf a => .inf (!a)
  | .fin n m e => .fin (!n) m e

/-- The exact product; 0 × ∞ is invalid (R45). -/
def Num.mul : Num → Num → Num
  | .nan, _ => .nan
  | _, .nan => .nan
  | .inf a, .inf b => .inf (a != b)
  | .inf a, .fin n m _ => if m = 0 then .nan else .inf (a != n)
  | .fin n m _, .inf b => if m = 0 then .nan else .inf (n != b)
  | .fin n1 m1 e1, .fin n2 m2 e2 => .fin (n1 != n2) (m1 * m2) (e1 + e2)

/-- A quotient close enough to round: 32 bits and more, with a sticky bit below. x ÷ 0 is an infinity, 0 ÷ 0 and ∞ ÷ ∞ are invalid. -/
def Num.div : Num → Num → Num
  | .nan, _ => .nan
  | _, .nan => .nan
  | .inf _, .inf _ => .nan
  | .inf a, .fin n _ _ => .inf (a != n)
  | .fin n _ _, .inf b => .fin (n != b) 0 0
  | .fin n1 m1 e1, .fin n2 m2 e2 =>
    if m2 = 0 then (if m1 = 0 then .nan else .inf (n1 != n2))
    else
      let k := 40 + Nat.log2 m2
      let q := (m1 <<< k) / m2
      let sticky := b2n (decide ((m1 <<< k) % m2 ≠ 0))
      .fin (n1 != n2) (2 * q + sticky) (e1 - e2 - k - 1)

/-- The integer square root, bit by bit from `2^b` down. -/
def isqrtBits (n : Nat) : Nat → Nat → Nat
  | 0, r => r
  | b + 1, r => isqrtBits n b (if (r + 2 ^ b) * (r + 2 ^ b) ≤ n then r + 2 ^ b else r)

/-- A square root close enough to round, with a sticky bit; of −0 it is −0, of a negative number invalid (R45, R277). -/
def Num.sqrt : Num → Num
  | .nan => .nan
  | .inf neg => if neg then .nan else .inf false
  | .fin neg m e =>
    if m = 0 then .fin neg 0 0
    else if neg then .nan
    else
      let par := b2n (decide (e % 2 ≠ 0))
      let n := m <<< (64 + par)
      let r := isqrtBits n (Nat.log2 n / 2 + 1) 0
      .fin false (2 * r + b2n (decide (r * r ≠ n))) ((e - par) / 2 - 32 - 1)

/-- An FP32 operation on decoded operands: its exact result rounded, with the flags of the operands read. -/
def f32op (xs : List Num) (r : Num) : F32 × Flags :=
  let (c, f) := f32round r
  (c, f.or (readFlags xs))

/-- a + b, one RNE rounding. -/
def f32add (a b : F32) : F32 × Flags := f32op [f32dec a, f32dec b] ((f32dec a).add (f32dec b))
/-- a − b, one RNE rounding. -/
def f32sub (a b : F32) : F32 × Flags := f32op [f32dec a, f32dec b] ((f32dec a).add (f32dec b).neg)
/-- a × b, one RNE rounding. -/
def f32mul (a b : F32) : F32 × Flags := f32op [f32dec a, f32dec b] ((f32dec a).mul (f32dec b))
/-- a ÷ b, one RNE rounding. -/
def f32div (a b : F32) : F32 × Flags := f32op [f32dec a, f32dec b] ((f32dec a).div (f32dec b))
/-- a × b + c, one RNE rounding. -/
def f32fma (a b c : F32) : F32 × Flags :=
  f32op [f32dec a, f32dec b, f32dec c] (((f32dec a).mul (f32dec b)).add (f32dec c))
/-- √a, one RNE rounding. -/
def f32sqrt (a : F32) : F32 × Flags := f32op [f32dec a] (f32dec a).sqrt

/-- A value into FP32 RNE as an operand is decoded (R268): the bits only. A decoded magnitude beyond FP32 is an infinity (R137). -/
def toF32 (x : Num) : F32 := (f32round x).1

/-- The negation of an FP32 code; a NaN stays canonical. -/
def f32neg (a : F32) : F32 := if (f32dec a).isNan then f32nan else a ^^^ 0x80000000#32

/-- Maximum of two, order-free: NaN when either is NaN, and +0 above −0 (R258, R276). -/
def f32max (a b : F32) : F32 × Flags :=
  let x := f32dec a
  let y := f32dec b
  if x.isNan || y.isNan then (f32nan, readFlags [x, y])
  else
    let r := if x.lt y then b else if y.lt x then a else (if bit a 31 then b else a)
    (r, readFlags [x, y])

/-- Minimum of two, order-free (R258, R276). -/
def f32min (a b : F32) : F32 × Flags :=
  let x := f32dec a
  let y := f32dec b
  if x.isNan || y.isNan then (f32nan, readFlags [x, y])
  else
    let r := if x.lt y then a else if y.lt x then b else (if bit a 31 then a else b)
    (r, readFlags [x, y])

/-- A compensated pair (s, e) with a value added (R248): each operation in FP32 RNE. -/
def compAdd (s e p : F32) : (F32 × F32) × Flags :=
  let (t, f1) := f32add s p
  let (z, f2) := f32sub t s
  let (tz, f3) := f32sub t z
  let (u, f4) := f32sub s tz
  let (v, f5) := f32sub p z
  let (er, f6) := f32add u v
  let (e', f7) := f32add e er
  ((t, e'), Flags.orAll [f1, f2, f3, f4, f5, f6, f7])

/-- A pairwise tree of FP32 adds, adjacent pairs first (R256). -/
def pairUp : List F32 → List F32 × Flags
  | a :: b :: t =>
    let (s, f) := f32add a b
    let (r, g) := pairUp t
    (s :: r, f.or g)
  | l => (l, .none)

/-- The tree sum of at most 2^fuel values (R256). -/
def treeSum : Nat → List F32 → F32 × Flags
  | _, [] => (f32zero, .none)
  | _, [a] => (a, .none)
  | 0, a :: _ => (a, .none)
  | n + 1, l =>
    let (l', f) := pairUp l
    let (s, g) := treeSum n l'
    (s, f.or g)

/-! ### Stochastic rounding's random value (R58) -/

/-- mix of R58, modulo 2^64. -/
def mix (z : Reg) : Reg :=
  let z1 := (z ^^^ (z >>> 30)) * 0xBF58476D1CE4E5B9#64
  let z2 := (z1 ^^^ (z1 >>> 27)) * 0x94D049BB133111EB#64
  z2 ^^^ (z2 >>> 31)

/-- The random value r of an element: low 16 bits of mix(seed + idx × 0x9E37_79B9_7F4A_7C15 + (cnt << 48)) (R58). -/
def srDraw (seed : Reg) (idx cnt : Nat) : Nat :=
  (mix (seed + BitVec.ofNat 64 idx * 0x9E3779B97F4A7C15#64 + (BitVec.ofNat 64 cnt <<< 48))).toNat % 65536

/-! ### MX blocks (R48 to R51) -/

/-- emax of R50. -/
def Fmt.emax : Fmt → Int
  | .mxE4m3 => 8 | .mxE5m2 => 15 | .mxE3m2 => 4 | .mxE2m3 => 2 | .mxE2m1 => 2 | _ => 0

/-- The larger of two finite magnitudes. -/
def magMax : Option (Nat × Int) → Num → Option (Nat × Int)
  | acc, .fin _ m e =>
    if m = 0 then acc
    else match acc with
      | none => some (m, e)
      | some (m0, e0) => if magLt m0 e0 m e then some (m, e) else some (m0, e0)
  | acc, _ => acc

/-- The scale code of a block and whether the block holds a NaN (R50). -/
def mxScale (f : Fmt) (xs : List Num) : Nat :=
  if xs.any Num.isNan then 255
  else match xs.foldl magMax none with
    | none => 0
    | some (m, e) => (clampI (-127) 127 ((Nat.log2 m : Int) + e - f.emax) + 127).toNat

/-- One element of a block, divided by the block's scale and converted (R51). -/
def mxElem (f : Fmt) (scale : Nat) (rm : Rnd) (x : Num) : Cvt :=
  if scale = 255 then ⟨0, { nan := x.isNan }⟩
  else match f.float, x with
    | _, .nan => ⟨0, { nan := true }⟩
    | some ff, .inf neg =>
      if f = .mxE5m2 then ⟨signBit ff neg + 0x7C, { inf := true }⟩
      else ⟨signBit ff neg + ff.maxCode, { sat := true, inf := true }⟩
    | some ff, .fin neg m e =>
      let c := cvtFin ff rm neg m (e - (scale - 127))
      ⟨c.code, { c.flags with sat := false }⟩
    | none, .inf neg => ⟨if neg then 0x80 else 0x7F, { sat := true, inf := true }⟩
    | none, .fin neg m e =>
      let c := cvtInt 8 rm (.fin neg m (e - (scale - 127) + 6))
      ⟨c.code, { c.flags with sat := false }⟩

/-- A block converted: the scale code, the element codes and the flags (R50, R51). `rms` gives each element its rounding. -/
def mxBlock (f : Fmt) (xs : List (Rnd × Num)) : Nat × List Nat × Flags :=
  let scale := mxScale f (xs.map Prod.snd)
  let cs := xs.map (fun p => mxElem f scale p.1 p.2)
  (scale, cs.map Cvt.code,
    { Flags.orAll (cs.map Cvt.flags) with nan := (xs.any (fun p => p.2.isNan)) || (Flags.orAll (cs.map Cvt.flags)).nan })

/-- The padding value of a descriptor, decoded (R62, R63). -/
def padValue (f : Fmt) (pad : Nat) : Num :=
  decodeScaled f ((pad >>> 8) % 256) (pad % 2 ^ f.bits)

/-- The bits of the padding field that R62 leaves to be zero. -/
def padReserved (f : Fmt) (pad : Nat) : Bool :=
  let used := (2 ^ f.bits - 1) ||| (if f.isMx then 0xFF00 else 0)
  decide (pad &&& used ≠ pad)

/-- Whether an element code encodes +0, −0 or integer 0 in its element format (R71, R75, R76). -/
def codeIsZero (f : Fmt) (c : Nat) : Bool := (decodeElem f c).isZero

end Sys2Proof.Machine
end

