-- ==== Sys2Proof/Machine/Types.lean ====
section
/-! DEFINITION. The pieces of state of the cores: trays and their instructions in flight, descriptors, streams and transfers, the engines'
queues and buffers, the Peel's tiles, spill areas and translation caches (chapters 01 and 03 to 12 of spec/). Plain data only. -/

namespace Sys2Proof.Machine

/-- The mnemonics of the instruction set (R91). -/
inductive Mn where
  | nop | loop | endTask | setvl | cfg
  | ld | st | gather | scatter | remote | pref
  | mm | mms | ldw
  | int | sct | exp | cmp | cen
  | ldp | run | cpr | exd | prm | red
  | pcfg | stat | upd
  | pred | aud
  | wait | sig | bar
  | fsend | fmcast | fred
  deriving DecidableEq, Repr

/-- Tray states (R82). -/
inductive TrayState where
  | idle | run | blocked | paused | ending | drain
  deriving DecidableEq, Repr

/-- The code of a tray state in TRY_STATE (R82). -/
def TrayState.code : TrayState → Nat
  | .idle => 0 | .run => 1 | .blocked => 2 | .paused => 3 | .ending => 4 | .drain => 5

/-- A tensor descriptor (R110), BASE with any loop advance applied exactly (R104, R375). `resv` says that a reserved bit is set. -/
structure Desc where
  base : Int
  fmt : Nat
  comp : Nat
  ndim : Nat
  bench : Bool
  breg : Nat
  loBench : Nat
  loLarder : Nat
  loLpddr : Nat
  pad : Nat
  dims : List Nat
  strides : List Nat
  resv : Bool
  deriving DecidableEq, Repr

/-- Which operand of an instruction a descriptor or a stream serves. -/
inductive Role where
  | dst | srca | srcb | srcc | maskd | statd | idx | srcb1 | w | g | m1 | m2 | adv0 | adv1
  deriving DecidableEq, Repr

/-- The code that the header-count report uses for a role: 0 for A, 1 for B (R338). -/
def Role.code : Role → Nat
  | .srca => 0 | .srcb => 1 | .srcc => 2 | .maskd => 3 | .dst => 4 | .statd => 5 | .idx => 6 | .srcb1 => 7
  | .w => 8 | .g => 9 | .m1 => 10 | .m2 => 11 | .adv0 => 12 | .adv1 => 13

/-- A tray's settings, written by CTRL.SETVL, CTRL.CFG, PEEL.CFG and LEV.AUD (R106 to R108, R264). -/
structure Settings where
  vl : Nat
  dtab : Nat
  bregs : List (Nat × Nat)
  outFmt : Nat
  red : Nat
  statd : Nat
  scale : F32
  audK : Nat
  audEn : Bool
  strict : Bool
  deriving DecidableEq, Repr

/-- A tray's snapshot of its core's RWS fields (R85). -/
structure Snap where
  srSeed : Reg
  selThresh : Nat
  mxmScatter : Bool
  segTarget : Nat
  audSeed : Reg
  reuseDis0 : Bool
  reuseDis1 : Bool
  coucheIvl : Nat
  lookahead : Nat
  deriving DecidableEq, Repr

/-- One active CTRL.LOOP (R104): its body's indices, the iteration running, and the advances. -/
structure Loop where
  first : Nat
  last : Nat
  count : Nat
  iter : Nat
  adv0 : Option (Nat × Int)
  adv1 : Option (Nat × Int)
  deriving DecidableEq, Repr

/-- An element as an engine reads it: its code, the scale code of its block, and whether it is a stored value (R136). -/
structure El where
  code : Nat
  scale : Nat
  stored : Bool
  deriving DecidableEq, Repr

/-- Where an output tile's Couche entries are kept (R251, R253): a physical address and how many bytes. -/
structure CouchePlace where
  addr : Nat
  size : Nat
  spilled : Bool
  deriving DecidableEq, Repr

/-- An output tile of an instruction (R235, R237): its place in the grid, its passes and its commits. `row0` and `col0` are its first row and column in the instruction's own
coordinates; `computed` counts the elements that a mask let a vector instruction write (R240). -/
structure OTile where
  m : Nat
  n : Nat
  row0 : Nat
  col0 : Nat
  rows : Nat
  cols : Nat
  group : Nat
  opened : Bool := false
  slot : Nat := 0
  stepsLeft : Nat
  arrays : Nat := 0
  sieves : Nat := 0
  drains : Nat := 0
  total : Option Nat := none
  counts : List Nat
  finals : List (Nat × List (Nat × Nat)) := []
  resumeAt : Nat := 0
  sent : Nat := 0
  committed : Nat := 0
  computed : Nat := 0
  couche : Option CouchePlace := none
  src : TswSrc := .noEngine
  flags : Flags := {}
  zeroShape : Bool := false
  done : Bool := false
  deriving DecidableEq, Repr

/-- A step of the tiler's sequence that is still to be queued (R308): output tile `tile`, pass `k`. For layout V and LEV.PRED, `k` is the row block or row. -/
structure PStep where
  tile : Nat
  k : Nat
  deriving DecidableEq, Repr

/-- A block of an operand (R318): the tensor rows inside the extent, first column, columns, and the column at which the extent ends. `bi` and `bj` number it. -/
structure Blk where
  bi : Nat
  bj : Nat
  rows : List Nat
  col0 : Nat
  cols : Nat
  lim : Nat
  deriving DecidableEq, Repr

/-- A block to be filled into a slot, with the steps that it serves (R336). -/
structure Fill where
  blk : Blk
  users : List PStep
  deriving DecidableEq, Repr

/-- The state of a stream-buffer slot (R336, R365): `written` holds its last byte and has not posted its credit yet; `leaving` is being copied out by a spill. -/
inductive SlotState where
  | free | filling (left : Nat) | written | full | leaving
  deriving DecidableEq, Repr

/-- Whether a slot holds the last byte of its block. -/
def SlotState.holds : SlotState → Bool
  | .written | .full => true
  | _ => false

/-- Whether a slot waits for bytes of its block. -/
def SlotState.fills : SlotState → Bool
  | .filling _ => true
  | _ => false

/-- A stream-buffer slot: its block with the steps that have not read it yet. -/
structure StreamSlot where
  state : SlotState
  fill : Option Fill
  deriving DecidableEq, Repr

/-- A block that was spilled: what it is, and where its copy lies (R365, R400). -/
structure Spilled where
  fill : Fill
  addr : Nat
  bytes : Nat
  deriving DecidableEq, Repr

/-- A stream: the flow of one operand of one instruction into its slots (R335). `fill` holds the blocks still to fill, in order, and `next` one that goes before them (R366); `held`
says that a read-ahead transfer met a translation miss (R341), and `event` is the cycle in which it last started, posted a credit or freed a slot (R364). -/
structure Stream where
  tray : Nat
  seq : Nat
  role : Role
  base : Nat
  slotBytes : Nat
  fill : List Fill
  next : Option Fill
  slots : List StreamSlot
  started : Nat
  issued : Bool
  held : Bool
  spilled : List Spilled
  event : Nat
  deriving DecidableEq, Repr

/-- A transfer descriptor's worth of an XFER (R344): source rows and destination rows, or segments of one row. -/
structure Xd where
  rows : List (Nat × Nat)
  byte0 : Nat
  bytes : Nat
  done : Bool := false
  deriving DecidableEq, Repr

/-- The working state of a PEEL.UPD (R425): `held` has the operands of blocks that have arrived, as codes of W, G, M1 and M2. -/
structure UpdWork where
  next : Nat := 0
  held : List (List (List Nat)) := []
  x : Int := 0
  xst : Int := 0
  sumQ : F32 := 0
  errQ : F32 := 0
  sumV : F32 := 0
  errV : F32 := 0
  maxM : F32 := 0
  elems : Nat := 0
  lost : Nat := 0
  sat : Nat := 0
  nonfinite : Nat := 0
  deriving DecidableEq, Repr

/-- The working state of a LEV.PRED: the rows done of its rows, and the neurons predicted active so far (R168, R170). `e` belongs to a masked instruction: the neurons of E found not
to be zero (R181). Both are bit sets. -/
structure LevWork where
  row : Nat := 0
  rows : Nat := 0
  pred : Nat := 0
  e : Nat := 0
  deriving DecidableEq, Repr

/-- What a masked instruction takes from the arming in force at its issue (R177): the LEV.PRED's place in its task and the neuron axis. -/
structure MaskBind where
  pred : Nat
  kMasked : Bool
  deriving DecidableEq, Repr

/-- A message of a FAB instruction or of XFER.REMOTE, as the sender tracks it. -/
inductive MsgState where
  | waiting | sent (msgid : Nat) | acked
  deriving DecidableEq, Repr

/-- An outbound fabric message of an instruction: part `part` of its transfer descriptor `xd`, for a group's member `member`, to `dst`. -/
structure FabMsg where
  xd : Nat
  part : Nat
  member : Nat
  dst : Nat
  state : MsgState
  deriving DecidableEq, Repr

/-- The working state of FAB.RED's own slice (R496, R497): the group as it issued, and the contributions added, each as its member, first element and length. -/
structure RedWork where
  group : Nat := 0
  rseq : Nat := 0
  members : List Nat := []
  own : Nat := 0
  slice : Nat := 0
  addedFrom : List (Nat × Nat × Nat) := []
  couche : Option CouchePlace := none
  lost : List (Nat × Nat × Nat) := []
  deriving DecidableEq, Repr

/-- An instruction of a task that has issued and not completed. `seq` counts the task's instructions as issued, each loop iteration apart. `nin` is the NIN of a VXP.RUN's program, as
far as it is known, and `bcast` its broadcast area once loaded; `marks` holds, for each row block of an SPX.CMP, the bytes of its crumbs and the groups it pruned. -/
structure Inst where
  seq : Nat
  index : Nat
  mn : Mn
  word : IWord
  descs : List (Role × Nat × Desc)
  set : Settings
  waitMet : Bool
  released : Bool
  srCnt : Nat
  planned : Bool
  openLimit : Nat
  steps : List PStep
  tiles : List OTile
  running : Nat
  counts : List (Role × Nat × Nat × Nat)
  xds : List Xd
  upd : UpdWork
  lev : LevWork
  mask : Option MaskBind
  msgs : List FabMsg
  red : RedWork
  nin : Nat
  bcast : Option (List (Role × List (F32 × Flags)))
  rowStat : List (Nat × List F32)
  zeroShape : Bool
  flags : Flags
  marks : List (Nat × Nat)
  lastPass : Nat
  idxChecked : Bool
  idxRead : List Nat
  idx : List Int
  done : Bool
  deriving DecidableEq, Repr

/-- An instruction that the read-ahead has fetched and that has not issued (R339). -/
structure Ahead where
  seq : Nat
  index : Nat
  word : IWord
  descs : List (Role × Nat × Desc)
  deriving DecidableEq, Repr

/-- One member of a batch (R324): its rows and its tag. -/
structure Member where
  first : Nat
  rows : Nat
  tag : Nat
  deriving DecidableEq, Repr

/-- What a task was started by: a doorbell, a closed batch, or a quick call with its CALL_ID and the tray's position (R20, R328, R455). -/
inductive TaskKind where
  | doorbell
  | batch (members : List Member)
  | quick (callId : Nat) (via : CctSrc) (operands : List Byte)
  deriving DecidableEq, Repr

/-- A completion record (R126). -/
structure Rec where
  tag : Nat
  code : Nat
  kind : Nat
  tray : Nat
  queue : Nat
  zeroShape : Bool
  statAny : Bool
  index : Nat
  pass : Nat
  rowBlock : Nat
  aux : Nat
  addr : Nat
  last : Bool
  deriving DecidableEq, Repr

/-- What a channel request moves (R332). -/
inductive XferWork where
  | fill (role : Role) (slot part : Nat)
  | xfer (n : Nat)
  | commit (tile block : Nat) (writes : List (Bool × Int × List Byte))
  | fab (n : Nat)
  | spill (role : Role) (slot part : Nat) (addr : Nat)
  | pref (n : Nat)
  | index (part : Nat)
  deriving DecidableEq, Repr

/-- A request waiting for a transfer descriptor, or a descriptor outstanding (R333, R334). `walks` counts the table walks that it waits for; `moved` says that its bytes have
gone out to host memory and their acknowledgement is awaited (R382). -/
structure ChReq where
  id : Nat
  tray : Nat
  seq : Nat
  work : XferWork
  urgent : Bool
  since : Nat
  issued : Bool
  walks : Nat
  moved : Bool := false
  deriving DecidableEq, Repr

/-- A tray (R19, R82, R133). `endSig` is the SIG of the CTRL.END that has completed, which reaches the tray in its boundary cycle (R84). `cancelled` holds the transfers that a fault cancelled and `lost` their streams, until DRAIN ends (R86). `pc` is the index of the next instruction to issue; `raPc` that of the next one to read ahead. -/
structure Tray where
  state : TrayState
  queue : Nat
  stream : Nat
  kind : TaskKind
  pc : Nat
  loops : List Loop
  nextSeq : Nat
  raPc : Nat
  raLoops : List Loop
  raSeq : Nat
  ahead : List Ahead
  tokens : Vector Nat 8
  tokSat : Bool
  snapPend : Bool
  snap : Snap
  set : Settings
  insts : List Inst
  srCount : Nat
  levCalls : Nat
  arming : Option Nat
  endSig : Nat
  ending : Bool
  starting : Bool
  alignFault : Bool
  faulted : Option Rec
  cancelled : List ChReq
  lost : List Stream
  deriving DecidableEq, Repr

/-- A barrier (R121): free while `mask` is none. `waiters` are the waiting SYNC.BARs, by tray and place in its task. -/
structure Barrier where
  mask : Option Nat
  arrived : Nat
  waiters : List (Nat × Nat)
  deriving DecidableEq, Repr

/-! ### Engines -/

/-- The parts that can be ordered (R1, R3): CUT-M8-768, CUT-M7-768 with one array of one core fused off, and CUT-M6-384 with an array of each of two cores fused off, the second core
`skip` + 1 after the first. -/
inductive Part where
  | m8
  | m7 (core : Fin 4) (array : Fin 2)
  | m6 (core : Fin 4) (array : Fin 2) (skip : Fin 3) (other : Fin 2)
  deriving DecidableEq, Repr

/-- GRADE of a part: 0, 1 and 2 in the order of R1. -/
def Part.grade : Part → Nat
  | .m8 => 0
  | .m7 _ _ => 1
  | .m6 _ _ _ _ => 2

/-- ARRAY_MASK of a part: bit 2 * core + array is 1 for an enabled array (R5). -/
def Part.arrayMask : Part → Nat
  | .m8 => 0xFF
  | .m7 c a => 0xFF - 2 ^ (2 * c.val + a.val)
  | .m6 c a k b => 0xFF - 2 ^ (2 * c.val + a.val) - 2 ^ (2 * ((c.val + 1 + k.val) % 4) + b.val)

/-- What a queued step does. -/
inductive StepKind where
  | array | loadWeights | scatter | intersect | expand | compress | census | vector | loadProgram | predict | stat | update
  deriving DecidableEq, Repr

/-- What names the plane of a Sieve step (R139): the tensor, with its address space, and the block of it, with the face positions along the reduction axis and the plane rows. -/
structure PlaneKey where
  space : Nat
  desc : Desc
  blk : Blk
  trans : Bool
  kt : Nat
  cols : Nat
  deriving DecidableEq, Repr

/-- A step in an engine's queue (R25). `cyc` is the cycle in which it was queued, `ord` its order among all steps queued; a product step of the Sieve names its plane. -/
structure Step where
  tray : Nat
  seq : Nat
  kind : StepKind
  tile : Nat
  k : Nat
  plane : Option PlaneKey := none
  cyc : Nat
  ord : Nat
  deriving DecidableEq, Repr

/-- What a resident tag names (R205): the tile by its stored row and its inner position. `structured` tells the form that the face holds it in (R217), `rows` and `inner` how far it
reaches along each axis. -/
structure WKey where
  tray : Nat
  space : Nat
  base : Int
  fmt : Nat
  comp : Nat
  rowBlk : Nat
  innerBlk : Nat
  pack : Nat
  structured : Bool
  rows : Nat
  inner : Nat
  deriving DecidableEq, Repr

/-- Whether a tile of key `w` holds the tile `k` that a step needs: it starts where `k` does, in the same form, and reaches as far (R205, R207). -/
def WKey.serves (w k : WKey) : Bool :=
  { w with rows := k.rows, inner := k.inner } == k && decide (k.rows ≤ w.rows) && decide (k.inner ≤ w.inner)

/-- A weight tile in a load buffer or in a face (R189, R200): stored rows of elements, of which TRANS or the operand's own form decides the axis. `ldw` says that an MXM.LDW brought
it, `sub` its sub-array once it has one, `launched` counts its cube rows launched; `swapped` says that the first group of a pass that uses it was injected. -/
structure WTile where
  key : WKey
  ldw : Bool
  sub : Option Nat
  rows : List (List El)
  bytes : Nat
  launched : Nat
  swapped : Bool
  lastUse : Nat
  deriving DecidableEq, Repr

/-- A row group in the feeder queues (R195): its rows of A, of which element `e` waits in the queue of face position `e` of its sub-array's reduction axis, and the neurons of E seen
not to be zero in it (R181). -/
structure RowGroup where
  rows : List (List El)
  seen : Nat
  deriving DecidableEq, Repr

/-- A pass in progress on a sub-array, with the stored rows that its cubes hold. Of its `groups` groups of `width` rows the feeder queues have taken `fed` and hold `feed`, and `next` is
the next to be injected; it has waited for that since event `since`. -/
structure Pass where
  step : Step
  weights : List (List El)
  next : Nat
  groups : Nat
  width : Nat
  fed : Nat
  feed : List RowGroup
  since : Nat
  deriving DecidableEq, Repr

/-- A matrix array (R189 to R221). Each sub-array has its tag, its pass and the TRANS of its last pass; `lastAxis` is that of the last pass injected. `injected` lists the sub-arrays that
injected a group in cycle `cycle`, with the output elements of each (R215). -/
structure MatArray where
  queue : List Step
  buf : List WTile
  resident : Vector (Option WTile) 16
  pass : Vector (Option Pass) 16
  axis : Vector Bool 16
  lastAxis : Bool
  pack : Nat
  lastTray : Nat
  cycle : Nat
  injected : List (Nat × Nat)
  deriving DecidableEq, Repr

/-- A plane of the Sieve (R138). -/
structure Plane where
  key : PlaneKey
  slots : Nat
  rows : List (List El)
  deriving DecidableEq, Repr

/-- The arithmetic of a product: exact integers, MXINT8 integers in units of 2^-12, or FP32 (R226). -/
inductive Path where
  | integer | mxint | float
  deriving DecidableEq, Repr

/-- An accumulator slot of the Sieve (R147), held at its number in slots of 4-byte entries: one of 8-byte entries takes two of them (R148). Entries are a sum and its error term; `drained`
counts the rows that have left. -/
structure AccSlot where
  tray : Nat
  seq : Nat
  tile : Nat
  path : Path
  comp : Bool
  closed : Bool
  rows : List (List (Nat × Nat))
  drained : Nat
  lastStep : Nat
  flags : Flags
  deriving DecidableEq, Repr

/-- A piece of the current Sieve step's work: an A row (intersect), a run of stored values (scatter), or a row whose crumb fails its check. -/
inductive SItem where
  | row (m : Nat)
  | seg (vals : List (Nat × Nat))
  | bad (m : Nat) (code : Nat)
  deriving DecidableEq, Repr

/-- The Sieve's current step and the work that no group has taken yet (R145). -/
structure SieveCur where
  step : Step
  slot : Nat
  aRows : List (List El)
  items : List SItem
  deriving DecidableEq, Repr

/-- A product on its way to entry (`m`, `n`) of the slot at `slot`, or waiting in the conflict queue of its accumulator lane: from its issue in cycle `cyc` of the Sieve until its add it
holds one credit of the lane (R149, R150). A pair's register is such a product when the pair ends (R142). -/
structure LaneProd where
  lane : Nat
  slot : Nat
  m : Nat
  n : Nat
  val : Nat
  flags : Flags
  cyc : Nat
  deriving DecidableEq, Repr

/-- One cycle of a sifter group's work (R141 to R143): the products that it issues, the matches multiplied, and 1 when a pair or a stored value begins. -/
structure GroupCycle where
  step : Step
  prods : List LaneProd
  products : Nat
  pairs : Nat
  deriving DecidableEq, Repr

/-- A sifter group at work (R145, R150): the cycle in which it starts, for how many consecutive cycles it has been held, and what is left of its work. -/
structure SifterGroup where
  group : Nat
  start : Nat
  held : Nat
  work : List GroupCycle
  deriving DecidableEq, Repr

/-- The Sieve of a core (R134). `lanes` holds the products of each accumulator lane that has any, in order of their issue; `clock` counts the Sieve's cycles. -/
structure Sieve where
  queue : List Step
  planes : List Plane
  slots : Vector (Option AccSlot) 16
  closed : List Nat
  cur : Option SieveCur
  lastTray : Nat
  groups : List SifterGroup
  lanes : List (Nat × List LaneProd)
  clock : Nat
  deriving DecidableEq, Repr

/-- A bitmap of the Levain's store (R185), with what R182 counts. `observer` is the arming's first K-masked instruction, which alone observes (R183); one of a zero shape reads no column
of A and is passed over. -/
structure LevMap where
  id : Nat
  tray : Nat
  seq : Nat
  layer : Nat
  neurons : Nat
  e : Nat
  pred : Nat
  watched : Nat
  audited : Nat
  strict : Bool
  ready : Bool
  armed : Bool
  observer : Option Nat
  users : List Nat
  deriving DecidableEq, Repr

/-- The Levain of a core (R166). -/
structure Levain where
  queue : List Step
  maps : List LevMap
  counters : Tab Reg
  lastTray : Nat
  deriving DecidableEq, Repr

/-- The vector engine of a core (R263, R270, R283). Programs and marks by 16 * tray + slot, tables by 16384 * tray + entry; `poison` the trays whose part of the operand cache holds a
poisoned word (R572). -/
structure VecEngine where
  queue : List Step
  programs : Tab (List Reg)
  marks : Tab Bool
  tables : Tab F32
  lastTray : Nat
  poison : List Nat
  deriving DecidableEq, Repr

/-- An arrival at a Peel port (R222): rows of one pass of one output tile, each element a sum and its error term. -/
structure Arrival where
  tray : Nat
  seq : Nat
  tile : Nat
  row : Nat
  rows : List (List (Nat × Nat))
  fromSieve : Bool
  flags : Flags
  deriving DecidableEq, Repr

/-- The Peel of a core (R222, R237, R251, R260, R429). -/
structure Peel where
  ports : Vector (List Arrival) 4
  stats : List Step
  updates : List Step
  groupWait : List (Nat × Nat × Nat)
  coucheWait : List (Nat × Nat × Nat)
  updSlots : Tab Reg
  window : Tab (BitVec 32)
  snapPending : Option Reg
  lastTray : Nat
  deriving DecidableEq, Repr

/-! ### Proofer, translation, spill -/

/-- A request at an arbiter (R405, R407): its requester, beats left, and what it is for: the channel request that it belongs to plus one, or 0; its tray; the 128-byte line or
64-byte row; whether it writes, whether a miss has to read the line (R388), and its traffic class (R352). -/
structure ArbReq where
  requester : Nat
  beats : Nat
  owner : Nat
  tray : Option Nat
  line : Nat
  write : Bool
  fill : Bool
  cls : Nat
  deriving DecidableEq, Repr

/-- A Proofer channel: waiting requests, its eight transfer descriptors, and transactions of those not yet in flight, by Larder port (R332). -/
structure Channel where
  waiting : List ChReq
  active : Vector (Option ChReq) 8
  txns : List (Nat × ArbReq)
  deriving DecidableEq, Repr

/-- A spill waiting for room in a spill area (R401): what it is for, its bytes, and the area it waits at. -/
structure SpillWait where
  tray : Nat
  seq : Nat
  role : Role
  slot : Nat
  tile : Nat
  couche : Bool
  bytes : Nat
  area : Nat
  deriving DecidableEq, Repr

/-- Allocated spill space (R400, R403): chunks `first` to `first + chunks - 1` of area 0 (Larder), 1 (LPDDR5X) or 2 (host). -/
structure SpillAlloc where
  tray : Nat
  seq : Nat
  role : Role
  order : Nat
  tile : Nat
  couche : Bool
  area : Nat
  first : Nat
  chunks : Nat
  deriving DecidableEq, Repr

/-- The Proofer of a core with its spill areas (R332, R335, R400). -/
structure Proofer where
  channels : Vector Channel 4
  streams : List Stream
  spillWait : List SpillWait
  spillAlloc : List SpillAlloc
  deriving DecidableEq, Repr

/-- An entry of a translation cache (R379). Page size 16 or 21 is the page's low bits. -/
structure TEntry where
  valid : Bool
  space : Nat
  page : Nat
  size : Nat
  frame : Nat
  wr : Bool
  rmt : Bool
  deriving DecidableEq, Repr

/-- An unused translation cache entry. -/
def TEntry.empty : TEntry := ⟨false, 0, 0, 0, 0, false, false⟩

/-- A translation cache: entries by 8 * set + way, and the tree bits of each set. -/
structure TCache where
  entries : Tab TEntry
  plru : Tab Nat
  deriving DecidableEq, Repr

/-- A table walk in flight (R379): its walker (core 0 to 3, or 4 for the module walker), the access, and the channel request that waits for it. -/
structure Walk where
  id : Nat
  walker : Nat
  space : Nat
  va : Nat
  write : Bool
  req : Nat
  deriving DecidableEq, Repr

/-- A core (R19). -/
structure Core where
  arrays : Vector MatArray 2
  sieve : Sieve
  levain : Levain
  vec : VecEngine
  peel : Peel
  proofer : Proofer
  tcache : TCache
  deriving DecidableEq, Repr

/-- A line of the Larder's cache ways (R387, R388). -/
structure LLine where
  valid : Bool
  tag : Nat
  dirty : Bool
  deriving DecidableEq, Repr

/-- The Larder: lines by (slice * 32768 + set) * 16 + way, tree bits by set, and the ways in use by scratch (R387 to R390). `lost` marks
lines whose stored copy is uncorrectable while the Larder holds a good one (R398). -/
structure Larder where
  lines : Tab LLine
  plru : Tab Nat
  ways : Nat
  repart : Option Nat
  lost : Tab Bool
  deriving DecidableEq, Repr

/-- One arbiter (R406 to R411). `heads` holds each requester's stamp and wait counter; `queue` every request in its order of entry; `backlog` the
requests that wait to enter a full pending queue; `holder` the granted burst, the beats it has run and whether it was forced; `split` the slots per class of a controller's running round (R353);
`checks` the ECC groups of a controller's check cache, the least recently used first, with whether each check line is to be written back (R396). -/
structure Arbiter where
  key : Nat
  cyc : Nat
  queue : List ArbReq
  backlog : List ArbReq
  heads : List (Nat × Nat × Nat)
  holder : Option (ArbReq × Nat × Bool)
  split : Reg
  checks : List (Nat × Bool)
  deriving DecidableEq, Repr

/-- The translation units' shared state: walks in flight, the module translation cache, and an invalidation in progress with the requests
in flight that it waits for (R379, R380). -/
structure Mmu where
  walks : List Walk
  nextWalk : Nat
  cache : TCache
  inv : Option (Nat × Nat × Nat)
  invWaits : List Nat
  deriving DecidableEq, Repr

/-! ### Host command queues -/

/-- A waiting stream of a queue (R20): the cycle in which it was queued, its addresses and what started it. -/
structure Waiting where
  cyc : Nat
  stream : Nat
  dtab : Nat
  kind : TaskKind
  deriving DecidableEq, Repr

/-- The open batch of a queue (R325). -/
structure Batch where
  first : Nat
  rows : Nat
  members : List Member
  deriving DecidableEq, Repr

/-- A host command queue beside its registers (R446, R451, R454, R456). -/
structure HQueue where
  waiting : List Waiting
  recs : List Rec
  batch : Option Batch
  unnotified : Nat
  notifyOn : Bool
  copies : List (Nat × List (Nat × List Byte))
  deriving DecidableEq, Repr

/-! ### Power, faults -/

/-- The state of a power domain (R514 to R519, R531). -/
inductive DomState where
  | off | waking | on | switchingOff | fusedOff
  deriving DecidableEq, Repr

/-- Power domains, the wake governor, the issue governor and the thermal monitor (R512 to R529). `wakes` is the wake queue with the tokens drawn; `ramped` the domains
that hold all their tokens; `again` the domains to wake once their switch-off completes; `asked` the domains that each waiting step lacks, with the cycle of its request.
`newWakes` is the Hearth cycle of the last requests and how many of the queue's last were made in it; `refill` counts Hearth cycles toward the next token; `profile` is the one whose
caps are in force, since cycle `winStart`; `est` is in units of 0.1 W. -/
structure Power where
  doms : Vector DomState 125
  wakes : List (Nat × Nat)
  newWakes : Nat × Nat
  ramped : List Nat
  again : List Nat
  asked : List (List Nat × Nat)
  bucket : Nat
  refill : Nat
  theta : Nat
  crit : Bool
  profile : Nat
  winStart : Nat
  thermalCap : Nat
  capEff : Nat
  limiter : Nat
  est : Nat
  tj : Int
  locked : Bool
  deriving DecidableEq, Repr

/-- An entry of the error log (R568, R582). -/
structure ErrEntry where
  seq : Nat
  code : Nat
  scope : Nat
  queue : Nat
  tray : Nat
  index : Nat
  aux : Nat
  addr : Nat
  deriving DecidableEq, Repr

end Sys2Proof.Machine
end

