-- ==== Sys2Proof/Machine/ModTypes.lean ====
section
/-! DEFINITION. The pieces of state of the module outside its cores: the host port, the Staon fabric, power, the Hearth, the module's own hardware, and what the module
sends (chapters 11 and 13 to 18 of spec/). Plain data only. -/

namespace Sys2Proof.Machine

/-! ### Host port -/

/-- What the module sends on its host links (R437, R439, R441, R445, R454, R457). -/
inductive HostTx where
  /-- A CCT RESPONSE, sent back the way its command came: queue, OP answered, status, expected SEQ, data words. -/
  | response (via : CctSrc) (queue op status seqExp : Nat) (words : List Reg)
  /-- A CCT NOTIFY: endpoint, queue and producer index. -/
  | notify (endpoint queue pi : Nat)
  /-- A CCT QUICK_RESULT, sent back the way its call came: queue, CALL_ID, code, result bytes. -/
  | quickResult (via : CctSrc) (queue callId code : Nat) (bytes : List Byte)
  /-- A RoCEv2 acknowledgement of a request on a QP. -/
  | ack (qp : Nat)
  /-- A RoCEv2 NAK Remote Access Error. -/
  | nakAccess (qp : Nat)
  /-- A RoCEv2 NAK Invalid Request. -/
  | nakInvalid (qp : Nat)
  /-- The data of an RDMA READ. -/
  | readData (qp : Nat) (bytes : List Byte)
  /-- The module's own RDMA READ on the host connection: QP, R_Key, host virtual address, length. -/
  | rdmaRead (qp rkey va len : Nat)
  /-- The module's own RDMA WRITE on the host connection. -/
  | rdmaWrite (qp rkey va : Nat) (bytes : List Byte)
  /-- A congestion notification packet. -/
  | cnp (qp : Nat)
  deriving DecidableEq, Repr

/-- An outstanding request of the module on its host connection (R438): a write or a read of `len` bytes at an offset of host memory for the channel
request `req` of core `core`; `tries` counts its retries. -/
structure HostReq where
  core : Nat
  req : Nat
  write : Bool
  off : Nat
  len : Nat
  tries : Nat
  deriving DecidableEq, Repr

/-- What a queue pair holds beside its registers (R438, R439): outstanding requests, oldest first, and the cycles of its last cut and last CNP. -/
structure Qp where
  reqs : List HostReq
  lastCut : Option Nat
  lastCnp : Option Nat
  deriving DecidableEq, Repr

/-- A queue pair with nothing outstanding. -/
def Qp.empty : Qp := ⟨[], none, none⟩

/-- The host port (R430 to R439). `enabled` since step 6 of the boot; `paused` holds a port, a priority and its quanta; `held` what waits for a paused
priority to resume. -/
structure HostPort where
  enabled : Bool
  ref : Bool
  up : Vector Bool 2
  paused : List (Nat × Nat × Nat)
  held : List (Nat × Nat × HostTx)
  qps : Tab Qp
  deriving DecidableEq, Repr

/-! ### Staon fabric -/

/-- A message in a port's transmit queue of one virtual channel: flits not yet sent, of all its flits; for one in transit, the port and virtual channel whose buffer still holds
them, with a number that its copies share (R476). -/
structure TxMsg where
  msg : StnMsg
  left : Nat
  total : Nat
  via : Option (Nat × Nat × Nat)
  deriving DecidableEq, Repr

/-- A flit as a port made it (R470): its sequence number, virtual channel, type and body. -/
structure TxFlit where
  fseq : Nat
  vc : Nat
  ftype : Nat
  body : List Byte
  deriving DecidableEq, Repr

/-- A Staon port (R465 to R476). `state` is STN_P_STATE. `hellos` counts those of this bring-up; `rxNext` and `txNext` are the sequence numbers expected and next
sent; `unacked` the flits in the replay buffer; `rx` counts the flits in the receive buffers by VC; `discarding` says that a flit was discarded since the last good one; `replays` counts those of the oldest
flit; `ignoreNak` is the ACKSEQ whose NAKs a running replay ignores; credits, the peer's counts last seen, and the counts of buffer flits freed are by VC. -/
structure SPort where
  state : Nat
  peerAddr : Nat
  peerPort : Nat
  ver : Nat
  peerProv : Bool
  peerLeaving : Bool
  peerSn : Reg
  hellos : Nat
  rxNext : Nat
  txNext : Nat
  unacked : List TxFlit
  rx : Vector Nat 4
  discarding : Bool
  badRun : Nat
  replays : Nat
  ignoreNak : Option Nat
  credits : Vector Nat 4
  seen : Vector Nat 4
  freed : Vector Nat 4
  queues : Vector (List TxMsg) 4
  collectiveNext : Bool
  deriving DecidableEq, Repr

/-- A message that this module originated and that is not settled (R479, R482): the instruction that waits for it (tray, place in the task, number of the message),
counted resends, the cycle its first flit left, whether a BUSY retry is due, and the laggard for a unicast copy. -/
structure SentMsg where
  msg : StnMsg
  owner : Option (Nat × Nat × Nat)
  tries : Nat
  firstAt : Option Nat
  busy : Bool
  copyOf : Option Nat
  deriving DecidableEq, Repr

/-- A multicast message held in retention (R491 to R495): the instruction that waits for it, group, 64 KiB units, the members that still owe an ACK, the detached
laggards, and whether MCAST_SKEW runs. -/
structure Retained where
  msg : StnMsg
  owner : Option (Nat × Nat × Nat)
  group : Nat
  units : Nat
  owed : List Nat
  laggards : List Nat
  skew : Bool
  deriving DecidableEq, Repr

/-- What a Staon port sends: the 256 bytes of a flit, a message whose last flit has left, or a LEAVE. -/
inductive StnTx where
  | flit (port : Nat) (bytes : List Byte)
  | msg (port : Nat) (m : StnMsg)
  | leave (port : Nat)
  deriving DecidableEq, Repr

/-- The Staon fabric block (R465 to R507). `assigned` is the assigned address; `dedup` the accepted (SRC, MSGID) pairs; `early` the RED messages that wait for their
reduction, with their arrival ports; `mbx` the MSGID of the mailbox message being sent. -/
structure Staon where
  enabled : Bool
  ref : Bool
  assigned : Option Nat
  ports : Vector SPort 12
  msgid : Nat
  dedup : List (Nat × Nat)
  sent : List SentMsg
  kept : List Retained
  early : List (Nat × StnMsg)
  mbx : Option Nat
  leaving : Bool
  left : Bool
  out : List StnTx
  deriving DecidableEq, Repr

/-! ### Hearth -/

/-- An image under check or under start (R540, R546): its source, SVN and measured values. -/
structure Candidate where
  src : Nat
  svn : Nat
  m1 : List Byte
  m2 : List Byte
  deriving DecidableEq, Repr

/-- What the Hearth sends on the side-band (R550 to R554): a response, an EVENT, an IMAGE_REQUEST (to the last authenticated peer, or to all nodes), an ARP reply, a Neighbor
Advertisement. -/
inductive SideTx where
  | response (peer op status reqId : Nat) (payload : List Byte)
  | event (peer : Option Nat) (code seconds : Nat) (valid : Bool) (detail : Nat)
  | imageRequest (peer : Option Nat) (svnMin lastFail : Nat)
  | arpReply (ipv4 mac : Nat)
  | neighborAdvert (ipv6 mac : Nat)
  deriving DecidableEq, Repr

/-- An entry of the event log (R554). -/
structure EventEntry where
  seconds : Nat
  valid : Bool
  code : Nat
  detail : Nat
  deriving DecidableEq, Repr

/-- The stages of a removal (R558). -/
inductive Removal where
  | none | draining | leaving | off | ready
  deriving DecidableEq, Repr

/-- The Hearth (R533 to R561). `stage` is HRT_STATE; `src` the source of the attempt in progress; `sideband` says that a side-band attempt waits, and `gotPut` whether an
IMAGE_PUT came; `thermalStop` says that a thermal shutdown waits for cooling (R535), and `cooled` that it has cooled. Measurement registers are
byte lists. -/
structure Hearth where
  running : Bool
  stage : Nat
  cause : Nat
  calUnchecked : Bool
  bootSrc : Nat
  fabHeld : Bool
  fabPolicy : Bool
  lastFail : Nat
  round : Nat
  tries : Nat
  src : Nat
  candidate : Option Candidate
  sideband : Bool
  gotPut : Bool
  calValid : Bool
  calLost : Bool
  calSeconds : Nat
  svnMin : Nat
  svnRun : Nat
  m : Vector (List Byte) 4
  flash : Tab Byte
  secret : List Byte
  secretLocked : Bool
  atKey : List Byte
  policy : Nat
  hmpKey : Option (List Byte)
  hmpCtr : Nat
  lastTag : List Byte
  lastReply : Option SideTx
  peer : Option Nat
  ipv4 : Nat
  ipv6 : Nat
  events : List EventEntry
  report : List Byte
  attesting : Bool
  removal : Removal
  wrEnRetry : Bool
  fruOff : Nat
  thermalStop : Bool
  cooled : Bool
  side : List SideTx
  smb : List (Nat × List Byte)
  deriving DecidableEq, Repr

/-! ### The module's own hardware -/

/-- Pins, the hot-swap controller and the references (R584 to R601). `cause` and `refLoss` are the controller's non-volatile register; `hscCause`, `cellLow` and `straps` what the
Hearth copied at step 1. Voltage in units of 10 mV, current in mA, power in units of 0.1 W. -/
structure ModHw where
  mated : Bool
  admitted : Bool
  cause : Nat
  refLoss : Bool
  ref100 : Bool
  hscCause : Nat
  cellLow : Bool
  straps : Nat
  attn : Bool
  rdy : Bool
  vin : Nat
  vinRead : Nat
  iin : Nat
  tIn : Int
  tOut : Int
  deriving DecidableEq, Repr

/-! ### Errors -/

/-- A word stored with flipped bits by ERR_INJ (R581): its structure, its place (an 8-byte word for structures 0 and 1, otherwise the tray or unit that
holds it), and whether two bits are flipped. -/
structure Planted where
  index : Nat
  place : Nat
  double : Bool
  deriving DecidableEq, Repr

/-- A module stop in force (R569, R579). -/
structure ModuleStop where
  code : Nat
  index : Nat
  deriving DecidableEq, Repr

end Sys2Proof.Machine
end

