-- ==== Sys2Proof/Machine/RegMap.lean ====
section
/-! DEFINITION. The registers of CSR space: offsets, repetition, fields, access codes and reset values, as the register tables of
spec/ give them (R11, R131 to R133, R165, R188, R221, R262, R298 to R300, R331, R354, R368 to R371, R383, R392, R399, R404, R412, R429, R459 to R465, R503
to R507, R530 to R533, R559 to R561, R579 to R582, R599 to R601). Fields that follow the device's own structures are marked read-only here and are filled in by
the register read of Machine/Regs.lean. -/

namespace Sys2Proof.Machine

/-- Access codes (R11). -/
inductive Acc where
  | rw | ro | w1c | wo | rws | rwl
  deriving DecidableEq, Repr

/-- The block whose busy condition governs a register's RWL fields (R11, R18). -/
inductive Busy where
  | none | tray | peel | upd | bat | spill | mmu | lar | hq | hp | qp | stn | grp | hearth
  deriving DecidableEq, Repr

/-- A field of a register: bits `hi` to `lo`, its access code and its reset value. -/
structure RField where
  hi : Nat
  lo : Nat
  acc : Acc
  reset : Nat
  deriving DecidableEq, Repr

/-- A register, repeated `n1` times at a distance of `s1` bytes and, within each, `n2` times at `s2`. -/
structure RegDef where
  name : String
  base : Nat
  n1 : Nat
  s1 : Nat
  n2 : Nat
  s2 : Nat
  busy : Busy
  fields : List RField
  deriving DecidableEq, Repr

namespace RegMap

/-- Registers from offset 0x0. -/
def part0 : List RegDef := [
  ⟨"DEV_CAP", 0x0, 1, 0, 1, 0, .none, [⟨47, 32, .ro, 0⟩, ⟨31, 24, .ro, 64⟩, ⟨23, 20, .ro, 8⟩, ⟨19, 16, .ro, 4⟩, ⟨15, 12, .ro, 0⟩, ⟨7, 0, .ro, 0⟩]⟩,
  ⟨"ISA_CAP", 0x8, 1, 0, 1, 0, .none, [⟨63, 32, .ro, 511⟩, ⟨7, 4, .ro, 0⟩, ⟨3, 0, .ro, 1⟩]⟩,
  ⟨"TRY_STATUS", 0x10000, 32, 64, 1, 0, .tray, [⟨63, 32, .ro, 0⟩, ⟨23, 18, .ro, 0⟩, ⟨17, 17, .w1c, 0⟩, ⟨16, 16, .ro, 0⟩, ⟨15, 8, .ro, 0⟩, ⟨2, 0, .ro, 0⟩]⟩,
  ⟨"TRY_TOKENS_LO", 0x10008, 32, 64, 1, 0, .tray, [⟨63, 48, .rwl, 0⟩, ⟨47, 32, .rwl, 0⟩, ⟨31, 16, .rwl, 0⟩, ⟨15, 0, .rwl, 0⟩]⟩,
  ⟨"TRY_TOKENS_HI", 0x10010, 32, 64, 1, 0, .tray, [⟨63, 48, .rwl, 0⟩, ⟨47, 32, .rwl, 0⟩, ⟨31, 16, .rwl, 0⟩, ⟨15, 0, .rwl, 0⟩]⟩,
  ⟨"SYNC_BAR_CTL", 0x10800, 1, 0, 1, 0, .none, [⟨47, 32, .wo, 0⟩, ⟨15, 0, .ro, 0⟩]⟩,
  ⟨"SYNC_BAR_STATE", 0x10840, 16, 8, 1, 0, .none, [⟨63, 32, .ro, 0⟩, ⟨31, 0, .ro, 0⟩]⟩,
  ⟨"SVE_SEL", 0x40000, 4, 256, 1, 0, .none, [⟨16, 16, .rws, 0⟩, ⟨15, 0, .rws, 1024⟩]⟩,
  ⟨"SVE_SEG", 0x40008, 4, 256, 1, 0, .none, [⟨10, 0, .rws, 1024⟩]⟩,
  ⟨"SVE_STATUS", 0x40010, 4, 256, 1, 0, .none, [⟨23, 21, .ro, 0⟩, ⟨20, 20, .ro, 0⟩, ⟨19, 14, .ro, 0⟩, ⟨13, 9, .ro, 0⟩, ⟨8, 4, .ro, 0⟩]⟩,
  ⟨"SVE_PAIRS", 0x40018, 4, 256, 1, 0, .none, [⟨63, 0, .rw, 0⟩]⟩,
  ⟨"SVE_PRODUCTS", 0x40020, 4, 256, 1, 0, .none, [⟨63, 0, .rw, 0⟩]⟩,
  ⟨"SVE_GROUP_CYCLES", 0x40028, 4, 256, 1, 0, .none, [⟨63, 0, .rw, 0⟩]⟩,
  ⟨"SVE_CQ_STALLS", 0x40030, 4, 256, 1, 0, .none, [⟨63, 0, .rw, 0⟩]⟩,
  ⟨"SVE_SPILL_BREAKS", 0x40038, 4, 256, 1, 0, .none, [⟨63, 0, .rw, 0⟩]⟩,
  ⟨"LEV_STATUS", 0x50000, 4, 256, 1, 0, .none, [⟨23, 16, .ro, 0⟩, ⟨15, 11, .ro, 0⟩, ⟨8, 8, .ro, 0⟩, ⟨2, 0, .ro, 0⟩]⟩]

/-- Registers from offset 0x50008. -/
def part1 : List RegDef := [
  ⟨"LEV_AUD_SEED", 0x50008, 4, 256, 1, 0, .none, [⟨63, 0, .rws, 0⟩]⟩,
  ⟨"LEV_CNT_SEL", 0x50010, 4, 256, 1, 0, .none, [⟨10, 8, .rw, 0⟩, ⟨7, 0, .rw, 0⟩]⟩,
  ⟨"LEV_CNT_DATA", 0x50018, 4, 256, 1, 0, .none, [⟨63, 0, .rw, 0⟩]⟩,
  ⟨"LEV_CNT_CLR", 0x50020, 4, 256, 1, 0, .none, [⟨0, 0, .wo, 0⟩]⟩,
  ⟨"MXA_STATUS", 0x60000, 4, 256, 2, 64, .none, [⟨23, 16, .ro, 0⟩, ⟨15, 10, .ro, 0⟩, ⟨9, 9, .ro, 0⟩, ⟨8, 8, .ro, 0⟩, ⟨7, 6, .ro, 0⟩, ⟨1, 1, .ro, 0⟩, ⟨0, 0, .ro, 0⟩]⟩,
  ⟨"MXA_CTL", 0x60008, 4, 256, 2, 64, .none, [⟨0, 0, .rws, 0⟩]⟩,
  ⟨"MXA_GROUPS", 0x60010, 4, 256, 2, 64, .none, [⟨63, 0, .rw, 0⟩]⟩,
  ⟨"MXA_FEED_BUBBLES", 0x60018, 4, 256, 2, 64, .none, [⟨63, 0, .rw, 0⟩]⟩,
  ⟨"MXA_RIPPLE_WAITS", 0x60020, 4, 256, 2, 64, .none, [⟨63, 0, .rw, 0⟩]⟩,
  ⟨"MXA_WLOADS", 0x60028, 4, 256, 2, 64, .none, [⟨63, 0, .rw, 0⟩]⟩,
  ⟨"MXA_WREUSE", 0x60030, 4, 256, 2, 64, .none, [⟨63, 0, .rw, 0⟩]⟩,
  ⟨"MXA_MODE_DRAINS", 0x60038, 4, 256, 2, 64, .none, [⟨63, 0, .rw, 0⟩]⟩,
  ⟨"PEEL_STATUS", 0x70000, 4, 256, 1, 0, .peel, [⟨31, 24, .ro, 0⟩, ⟨23, 11, .ro, 0⟩, ⟨10, 4, .ro, 0⟩, ⟨0, 0, .ro, 0⟩]⟩,
  ⟨"PEEL_COUCHE_CFG", 0x70008, 4, 256, 1, 0, .peel, [⟨39, 28, .rws, 64⟩, ⟨27, 14, .rwl, 0⟩, ⟨11, 0, .rwl, 0⟩]⟩,
  ⟨"PEEL_DBG_SEL", 0x70010, 4, 256, 1, 0, .peel, [⟨63, 63, .wo, 0⟩, ⟨25, 24, .rw, 0⟩, ⟨23, 21, .rw, 0⟩, ⟨20, 6, .rw, 0⟩, ⟨5, 3, .rw, 0⟩, ⟨2, 0, .rw, 0⟩]⟩,
  ⟨"PEEL_DBG_STATUS", 0x70018, 4, 256, 1, 0, .peel, [⟨63, 32, .ro, 0⟩, ⟨3, 2, .ro, 0⟩, ⟨1, 1, .ro, 0⟩, ⟨0, 0, .ro, 0⟩]⟩]

/-- Registers from offset 0x70020. -/
def part2 : List RegDef := [
  ⟨"PEEL_ROW_BLOCKS", 0x70020, 4, 256, 1, 0, .peel, [⟨63, 0, .rw, 0⟩]⟩,
  ⟨"PEEL_PASS_ADDS", 0x70028, 4, 256, 1, 0, .peel, [⟨63, 0, .rw, 0⟩]⟩,
  ⟨"PEEL_COUCHE_SPILLS", 0x70030, 4, 256, 1, 0, .peel, [⟨63, 0, .rw, 0⟩]⟩,
  ⟨"PEEL_COUCHE_OVF", 0x70038, 4, 256, 1, 0, .peel, [⟨63, 0, .rw, 0⟩]⟩,
  ⟨"PEEL_SR_SEED", 0x70040, 4, 256, 1, 0, .none, [⟨63, 0, .rws, 0⟩]⟩,
  ⟨"PEEL_SAT_TILES", 0x70048, 4, 256, 1, 0, .peel, [⟨63, 0, .rw, 0⟩]⟩,
  ⟨"UPD_SEL", 0x70050, 4, 256, 1, 0, .upd, [⟨10, 8, .rw, 0⟩, ⟨7, 0, .rw, 0⟩]⟩,
  ⟨"UPD_DATA", 0x70058, 4, 256, 1, 0, .upd, [⟨63, 0, .rwl, 0⟩]⟩,
  ⟨"UPD_CLR", 0x70060, 4, 256, 1, 0, .upd, [⟨0, 0, .wo, 0⟩]⟩,
  ⟨"PEEL_DBG_WINDOW", 0x80000, 4, 8192, 1024, 8, .none, [⟨63, 0, .ro, 0⟩]⟩,
  ⟨"VXE_STATUS", 0x90000, 4, 256, 1, 0, .none, [⟨31, 24, .w1c, 0⟩, ⟨18, 16, .ro, 0⟩, ⟨0, 0, .ro, 0⟩]⟩,
  ⟨"VXE_SLOTS_LO", 0x90008, 4, 256, 1, 0, .none, [⟨63, 48, .ro, 0⟩, ⟨47, 32, .ro, 0⟩, ⟨31, 16, .ro, 0⟩, ⟨15, 0, .ro, 0⟩]⟩,
  ⟨"VXE_SLOTS_HI", 0x90010, 4, 256, 1, 0, .none, [⟨63, 48, .ro, 0⟩, ⟨47, 32, .ro, 0⟩, ⟨31, 16, .ro, 0⟩, ⟨15, 0, .ro, 0⟩]⟩,
  ⟨"VXE_ELEMS", 0x90018, 4, 256, 1, 0, .none, [⟨63, 0, .rw, 0⟩]⟩,
  ⟨"VXE_ACTIVE_CYCLES", 0x90020, 4, 256, 1, 0, .none, [⟨63, 0, .rw, 0⟩]⟩,
  ⟨"VXE_HOLDS", 0x90028, 4, 256, 1, 0, .none, [⟨63, 0, .rw, 0⟩]⟩]

/-- Registers from offset 0x90030. -/
def part3 : List RegDef := [
  ⟨"VXE_OC_SPILLS", 0x90030, 4, 256, 1, 0, .none, [⟨63, 0, .rw, 0⟩]⟩,
  ⟨"VXE_PERM_LANES", 0x90038, 4, 256, 1, 0, .none, [⟨63, 0, .rw, 0⟩]⟩,
  ⟨"BAT_CTL", 0xA0000, 64, 64, 1, 0, .bat, [⟨63, 32, .rwl, 0⟩, ⟨31, 16, .rwl, 50⟩, ⟨15, 8, .rwl, 64⟩, ⟨7, 7, .rwl, 0⟩, ⟨6, 0, .rwl, 64⟩]⟩,
  ⟨"BAT_STREAM", 0xA0008, 64, 64, 1, 0, .bat, [⟨47, 0, .rwl, 0⟩]⟩,
  ⟨"BAT_DTAB", 0xA0010, 64, 64, 1, 0, .bat, [⟨47, 0, .rwl, 0⟩]⟩,
  ⟨"BAT_CLOSE_OTHER", 0xA0018, 64, 64, 1, 0, .bat, [⟨63, 0, .rw, 0⟩]⟩,
  ⟨"BAT_STATUS", 0xA0020, 64, 64, 1, 0, .bat, [⟨63, 32, .ro, 0⟩, ⟨31, 8, .ro, 0⟩, ⟨7, 7, .ro, 0⟩, ⟨6, 0, .ro, 0⟩]⟩,
  ⟨"BAT_CLOSE_SIZE", 0xA0028, 64, 64, 1, 0, .bat, [⟨63, 0, .rw, 0⟩]⟩,
  ⟨"BAT_CLOSE_TIME", 0xA0030, 64, 64, 1, 0, .bat, [⟨63, 0, .rw, 0⟩]⟩,
  ⟨"BAT_REJECTS", 0xA0038, 64, 64, 1, 0, .bat, [⟨63, 0, .rw, 0⟩]⟩,
  ⟨"PRF_STATUS", 0xB0000, 4, 256, 1, 0, .none, [⟨31, 28, .ro, 0⟩, ⟨27, 24, .ro, 0⟩, ⟨23, 20, .ro, 0⟩, ⟨19, 16, .ro, 0⟩, ⟨15, 8, .ro, 0⟩, ⟨0, 0, .ro, 0⟩]⟩,
  ⟨"PRF_CTL", 0xB0008, 4, 256, 1, 0, .none, [⟨15, 12, .rw, 4⟩, ⟨5, 0, .rws, 16⟩]⟩,
  ⟨"PRF_DEADLOCK", 0xB0010, 4, 256, 1, 0, .none, [⟨31, 0, .rw, 4096⟩]⟩,
  ⟨"PRF_BYTES_RD", 0xB0018, 4, 256, 1, 0, .none, [⟨63, 0, .rw, 0⟩]⟩,
  ⟨"PRF_BYTES_WR", 0xB0020, 4, 256, 1, 0, .none, [⟨63, 0, .rw, 0⟩]⟩,
  ⟨"PRF_BYTES_RMT", 0xB0028, 4, 256, 1, 0, .none, [⟨63, 0, .rw, 0⟩]⟩]

/-- Registers from offset 0xb0030. -/
def part4 : List RegDef := [
  ⟨"PRF_GATHER_ROWS", 0xB0030, 4, 256, 1, 0, .none, [⟨63, 0, .rw, 0⟩]⟩,
  ⟨"PRF_SPILL_BREAKS", 0xB0038, 4, 256, 1, 0, .none, [⟨63, 0, .rw, 0⟩]⟩,
  ⟨"PRF_PAGE_MISSES", 0xB0040, 4, 256, 1, 0, .none, [⟨63, 0, .rw, 0⟩]⟩,
  ⟨"PRF_PREF_DROPS", 0xB0048, 4, 256, 1, 0, .none, [⟨63, 0, .rw, 0⟩]⟩,
  ⟨"PRF_LATE_CYCLES", 0xB0050, 4, 256, 1, 0, .none, [⟨63, 0, .rw, 0⟩]⟩,
  ⟨"LPC_SPLIT", 0xC0000, 12, 256, 1, 0, .none, [⟨31, 31, .w1c, 0⟩, ⟨20, 16, .rw, 4⟩, ⟨12, 8, .rw, 4⟩, ⟨4, 0, .rw, 8⟩]⟩,
  ⟨"LPC_STATUS", 0xC0008, 12, 256, 1, 0, .none, [⟨1, 1, .ro, 0⟩, ⟨0, 0, .ro, 0⟩]⟩,
  ⟨"LPC_ECC_CE", 0xC0010, 12, 256, 1, 0, .none, [⟨63, 0, .rw, 0⟩]⟩,
  ⟨"LPC_ECC_UE", 0xC0018, 12, 256, 1, 0, .none, [⟨63, 0, .rw, 0⟩]⟩,
  ⟨"LPC_ECC_LAST", 0xC0020, 12, 256, 1, 0, .none, [⟨63, 63, .ro, 0⟩, ⟨47, 0, .ro, 0⟩]⟩,
  ⟨"LPC_SCRUB", 0xC0028, 12, 256, 1, 0, .none, [⟨7, 0, .rw, 24⟩]⟩,
  ⟨"ARB_CTL", 0xD0000, 6, 64, 1, 0, .none, [⟨9, 0, .rw, 64⟩]⟩,
  ⟨"ARB_FORCED", 0xD0008, 6, 64, 1, 0, .none, [⟨63, 0, .rw, 0⟩]⟩,
  ⟨"ARB_REVOKES", 0xD0010, 6, 64, 1, 0, .none, [⟨63, 0, .rw, 0⟩]⟩,
  ⟨"ARB_DEAD", 0xD0018, 6, 64, 1, 0, .none, [⟨63, 0, .rw, 0⟩]⟩,
  ⟨"ARB_QFULL", 0xD0020, 6, 64, 1, 0, .none, [⟨63, 0, .rw, 0⟩]⟩]

/-- Registers from offset 0xe0000. -/
def part5 : List RegDef := [
  ⟨"MMU_AS_CFG", 0xE0000, 64, 8, 1, 0, .mmu, [⟨63, 63, .rwl, 0⟩, ⟨47, 12, .rwl, 0⟩]⟩,
  ⟨"MMU_INV", 0xE0200, 1, 0, 1, 0, .mmu, [⟨63, 63, .wo, 0⟩, ⟨57, 56, .wo, 0⟩, ⟨53, 48, .wo, 0⟩, ⟨47, 16, .wo, 0⟩]⟩,
  ⟨"MMU_STATUS", 0xE0208, 1, 0, 1, 0, .mmu, [⟨1, 1, .w1c, 0⟩, ⟨0, 0, .ro, 0⟩]⟩,
  ⟨"MMU_WALKS", 0xE0210, 1, 0, 1, 0, .mmu, [⟨63, 0, .rw, 0⟩]⟩,
  ⟨"MMU_MISSES", 0xE0218, 1, 0, 1, 0, .mmu, [⟨63, 0, .rw, 0⟩]⟩,
  ⟨"MMU_REFUSED", 0xE0220, 1, 0, 1, 0, .mmu, [⟨63, 0, .rw, 0⟩]⟩,
  ⟨"LAR_CFG", 0xF0000, 1, 0, 1, 0, .lar, [⟨2, 0, .rwl, 0⟩]⟩,
  ⟨"LAR_STATUS", 0xF0008, 1, 0, 1, 0, .lar, [⟨3, 3, .ro, 0⟩, ⟨2, 0, .ro, 0⟩]⟩,
  ⟨"LAR_HITS", 0xF0010, 1, 0, 1, 0, .lar, [⟨63, 0, .rw, 0⟩]⟩,
  ⟨"LAR_MISSES", 0xF0018, 1, 0, 1, 0, .lar, [⟨63, 0, .rw, 0⟩]⟩,
  ⟨"LAR_WRITEBACKS", 0xF0020, 1, 0, 1, 0, .lar, [⟨63, 0, .rw, 0⟩]⟩,
  ⟨"MEM_SPILL_LAR", 0xF0100, 4, 64, 1, 0, .spill, [⟨28, 16, .rwl, 0⟩, ⟨11, 0, .rwl, 0⟩]⟩,
  ⟨"MEM_SPILL_LPD", 0xF0108, 4, 64, 1, 0, .spill, [⟨49, 32, .rwl, 0⟩, ⟨31, 0, .rwl, 0⟩]⟩,
  ⟨"MEM_SPILL_HOST", 0xF0110, 4, 64, 1, 0, .spill, [⟨49, 32, .rwl, 0⟩, ⟨30, 0, .rwl, 0⟩]⟩,
  ⟨"MEM_SPL_TO_LPD", 0xF0118, 4, 64, 1, 0, .spill, [⟨63, 0, .rw, 0⟩]⟩,
  ⟨"MEM_SPL_TO_HOST", 0xF0120, 4, 64, 1, 0, .spill, [⟨63, 0, .rw, 0⟩]⟩]

/-- Registers from offset 0xf0128. -/
def part6 : List RegDef := [
  ⟨"MEM_SPL_EXHAUSTED", 0xF0128, 4, 64, 1, 0, .spill, [⟨63, 0, .rw, 0⟩]⟩,
  ⟨"HQ_CFG", 0x100000, 64, 64, 1, 0, .hq, [⟨63, 63, .rwl, 0⟩, ⟨62, 62, .rwl, 0⟩, ⟨61, 61, .rwl, 0⟩, ⟨55, 50, .rwl, 0⟩, ⟨48, 48, .rwl, 0⟩, ⟨47, 44, .rwl, 0⟩, ⟨31, 0, .rwl, 0⟩]⟩,
  ⟨"HQ_RING", 0x100008, 64, 64, 1, 0, .hq, [⟨52, 48, .rwl, 4⟩, ⟨47, 5, .rwl, 0⟩]⟩,
  ⟨"HQ_PARAM", 0x100010, 64, 64, 1, 0, .hq, [⟨63, 50, .rwl, 0⟩, ⟨49, 34, .rw, 10⟩, ⟨33, 26, .rw, 1⟩, ⟨15, 0, .rwl, 0⟩]⟩,
  ⟨"HQ_INDEX", 0x100018, 64, 64, 1, 0, .hq, [⟨63, 32, .ro, 0⟩, ⟨31, 0, .ro, 0⟩]⟩,
  ⟨"HQ_STATE", 0x100020, 64, 64, 1, 0, .hq, [⟨63, 32, .ro, 1⟩, ⟨23, 23, .ro, 0⟩, ⟨20, 12, .ro, 0⟩, ⟨1, 1, .w1c, 0⟩, ⟨0, 0, .w1c, 0⟩]⟩,
  ⟨"HQ_QC_STREAM", 0x100028, 64, 64, 1, 0, .hq, [⟨47, 0, .rwl, 0⟩]⟩,
  ⟨"HQ_QC_DTAB", 0x100030, 64, 64, 1, 0, .hq, [⟨47, 0, .rwl, 0⟩]⟩,
  ⟨"HQ_QC_BUF", 0x100038, 64, 64, 1, 0, .hq, [⟨59, 32, .rwl, 0⟩, ⟨27, 0, .rwl, 0⟩]⟩,
  ⟨"HP_CTL", 0x110000, 1, 0, 1, 0, .hp, [⟨63, 48, .rwl, 23100⟩, ⟨31, 31, .ro, 0⟩, ⟨30, 30, .ro, 0⟩, ⟨15, 8, .rwl, 0⟩, ⟨1, 0, .rwl, 0⟩]⟩,
  ⟨"HP_LOCAL_AE_W0", 0x110100, 2, 32, 1, 0, .hp, [⟨63, 63, .rwl, 0⟩, ⟨62, 62, .rwl, 0⟩, ⟨61, 61, .rwl, 0⟩, ⟨60, 58, .rwl, 0⟩, ⟨57, 52, .rwl, 0⟩, ⟨47, 0, .rwl, 0⟩]⟩,
  ⟨"HP_LOCAL_AE_W1", 0x110108, 2, 32, 1, 0, .hp, [⟨63, 48, .rwl, 0⟩, ⟨43, 32, .rwl, 0⟩, ⟨31, 0, .rwl, 0⟩]⟩,
  ⟨"HP_LOCAL_AE_W2", 0x110110, 2, 32, 1, 0, .hp, [⟨63, 0, .rwl, 0⟩]⟩,
  ⟨"HP_LOCAL_AE_W3", 0x110118, 2, 32, 1, 0, .hp, [⟨63, 0, .rwl, 0⟩]⟩,
  ⟨"HP_EP_AE_W0", 0x110200, 16, 32, 1, 0, .hp, [⟨63, 63, .rwl, 0⟩, ⟨62, 62, .rwl, 0⟩, ⟨61, 61, .rwl, 0⟩, ⟨60, 58, .rwl, 0⟩, ⟨57, 52, .rwl, 0⟩, ⟨47, 0, .rwl, 0⟩]⟩,
  ⟨"HP_EP_AE_W1", 0x110208, 16, 32, 1, 0, .hp, [⟨63, 48, .rwl, 0⟩, ⟨43, 32, .rwl, 0⟩, ⟨31, 0, .rwl, 0⟩]⟩]

/-- Registers from offset 0x110210. -/
def part7 : List RegDef := [
  ⟨"HP_EP_AE_W2", 0x110210, 16, 32, 1, 0, .hp, [⟨63, 0, .rwl, 0⟩]⟩,
  ⟨"HP_EP_AE_W3", 0x110218, 16, 32, 1, 0, .hp, [⟨63, 0, .rwl, 0⟩]⟩,
  ⟨"HC_CTL", 0x110400, 1, 0, 1, 0, .hp, [⟨63, 63, .rwl, 0⟩, ⟨9, 0, .rwl, 0⟩]⟩,
  ⟨"HC_VA", 0x110408, 1, 0, 1, 0, .hp, [⟨63, 0, .rwl, 0⟩]⟩,
  ⟨"HC_SIZE", 0x110410, 1, 0, 1, 0, .hp, [⟨46, 0, .rwl, 0⟩]⟩,
  ⟨"HC_RKEY", 0x110418, 1, 0, 1, 0, .hp, [⟨31, 0, .rwl, 0⟩]⟩,
  ⟨"HP_RX_FRAMES", 0x110600, 1, 0, 1, 0, .none, [⟨63, 0, .rw, 0⟩]⟩,
  ⟨"HP_RX_DROPS", 0x110608, 1, 0, 1, 0, .none, [⟨63, 0, .rw, 0⟩]⟩,
  ⟨"HP_FCS_ERRS", 0x110610, 1, 0, 1, 0, .none, [⟨63, 0, .rw, 0⟩]⟩,
  ⟨"HP_FEC_CORR", 0x110618, 1, 0, 1, 0, .none, [⟨63, 0, .rw, 0⟩]⟩,
  ⟨"HP_FEC_UNCORR", 0x110620, 1, 0, 1, 0, .none, [⟨63, 0, .rw, 0⟩]⟩,
  ⟨"HP_CCT_DROPS", 0x110628, 1, 0, 1, 0, .none, [⟨63, 0, .rw, 0⟩]⟩,
  ⟨"HP_CCT_REJECTS", 0x110630, 1, 0, 1, 0, .none, [⟨63, 0, .rw, 0⟩]⟩,
  ⟨"HP_PFC_XOFF", 0x110638, 1, 0, 1, 0, .none, [⟨63, 0, .rw, 0⟩]⟩,
  ⟨"HP_CNP_RX", 0x110640, 1, 0, 1, 0, .none, [⟨63, 0, .rw, 0⟩]⟩,
  ⟨"QP_CFG", 0x120000, 1024, 32, 1, 0, .qp, [⟨63, 62, .rw, 0⟩, ⟨61, 59, .rwl, 1⟩, ⟨58, 58, .rwl, 0⟩, ⟨57, 54, .rwl, 0⟩, ⟨53, 48, .rwl, 0⟩, ⟨47, 24, .rwl, 0⟩]⟩]

/-- Registers from offset 0x120008. -/
def part8 : List RegDef := [
  ⟨"QP_KEY", 0x120008, 1024, 32, 1, 0, .qp, [⟨63, 32, .rwl, 0⟩, ⟨23, 0, .rwl, 0⟩]⟩,
  ⟨"QP_RPSN", 0x120010, 1024, 32, 1, 0, .qp, [⟨23, 0, .rwl, 0⟩]⟩,
  ⟨"QP_RATE", 0x120018, 1024, 32, 1, 0, .qp, [⟨31, 0, .ro, 0⟩]⟩,
  ⟨"STN_CFG", 0x130000, 1, 0, 1, 0, .stn, [⟨63, 58, .rwl, 0⟩, ⟨57, 52, .rwl, 0⟩, ⟨43, 32, .rwl, 4095⟩, ⟨31, 16, .rw, 20⟩, ⟨15, 8, .rw, 100⟩, ⟨2, 2, .rwl, 0⟩, ⟨0, 0, .rw, 0⟩]⟩,
  ⟨"STN_ADDR", 0x130008, 1, 0, 1, 0, .stn, [⟨16, 16, .ro, 0⟩, ⟨15, 0, .rwl, 0⟩]⟩,
  ⟨"STN_STATUS", 0x130010, 1, 0, 1, 0, .stn, [⟨63, 32, .rw, 1000⟩, ⟨31, 18, .ro, 0⟩, ⟨17, 9, .ro, 0⟩, ⟨1, 1, .ro, 0⟩, ⟨0, 0, .ro, 0⟩]⟩,
  ⟨"STN_SERIAL", 0x130018, 1, 0, 1, 0, .none, [⟨63, 0, .ro, 0⟩]⟩,
  ⟨"STN_P", 0x130100, 12, 16, 1, 0, .none, [⟨63, 48, .ro, 0⟩, ⟨47, 44, .ro, 0⟩, ⟨43, 40, .ro, 0⟩, ⟨32, 32, .ro, 0⟩, ⟨3, 3, .ro, 0⟩, ⟨2, 0, .ro, 0⟩]⟩,
  ⟨"STN_P_PEER_SN", 0x130108, 12, 16, 1, 0, .none, [⟨63, 0, .ro, 0⟩]⟩,
  ⟨"STN_FLITS_TX", 0x130200, 1, 0, 1, 0, .none, [⟨63, 0, .rw, 0⟩]⟩,
  ⟨"STN_FLITS_RX", 0x130208, 1, 0, 1, 0, .none, [⟨63, 0, .rw, 0⟩]⟩,
  ⟨"STN_CRC_ERRS", 0x130210, 1, 0, 1, 0, .none, [⟨63, 0, .rw, 0⟩]⟩,
  ⟨"STN_REPLAYS", 0x130218, 1, 0, 1, 0, .none, [⟨63, 0, .rw, 0⟩]⟩,
  ⟨"STN_LINK_DOWNS", 0x130220, 1, 0, 1, 0, .none, [⟨63, 0, .rw, 0⟩]⟩,
  ⟨"STN_E2E_RETX", 0x130228, 1, 0, 1, 0, .none, [⟨63, 0, .rw, 0⟩]⟩,
  ⟨"STN_DUPS", 0x130230, 1, 0, 1, 0, .none, [⟨63, 0, .rw, 0⟩]⟩]

/-- Registers from offset 0x130238. DESIGN CHOICE, log entry 26: the PWR_DOM_ON bits of domains 122 and 123, which R512 calls neither Held nor Auto, reset to 0. -/
def part9 : List RegDef := [
  ⟨"STN_MCAST_DETACH", 0x130238, 1, 0, 1, 0, .none, [⟨63, 0, .rw, 0⟩]⟩,
  ⟨"STN_MCAST_LOST", 0x130240, 1, 0, 1, 0, .none, [⟨63, 0, .rw, 0⟩]⟩,
  ⟨"STN_DROPS", 0x130248, 1, 0, 1, 0, .none, [⟨63, 0, .rw, 0⟩]⟩,
  ⟨"STN_MBX_CTL", 0x130300, 1, 0, 1, 0, .none, [⟨63, 63, .wo, 0⟩, ⟨1, 1, .w1c, 0⟩, ⟨0, 0, .ro, 0⟩]⟩,
  ⟨"STN_MBX_TX", 0x130308, 14, 8, 1, 0, .none, [⟨63, 0, .rw, 0⟩]⟩,
  ⟨"STN_MBX_RX", 0x130380, 14, 8, 1, 0, .none, [⟨63, 0, .ro, 0⟩]⟩,
  ⟨"RT", 0x140000, 65536, 8, 1, 0, .none, [⟨63, 63, .rw, 0⟩, ⟨17, 16, .rw, 0⟩, ⟨15, 12, .rw, 0⟩, ⟨11, 8, .rw, 0⟩, ⟨7, 4, .rw, 0⟩, ⟨3, 0, .rw, 0⟩]⟩,
  ⟨"GRP", 0x1C0000, 1024, 256, 1, 0, .grp, [⟨63, 63, .rwl, 0⟩, ⟨62, 62, .rwl, 0⟩, ⟨55, 48, .ro, 255⟩, ⟨47, 32, .ro, 0⟩, ⟨27, 16, .rwl, 0⟩, ⟨6, 0, .rwl, 0⟩]⟩,
  ⟨"GRP_MEMBERS", 0x1C0008, 1024, 256, 16, 8, .grp, [⟨63, 0, .rwl, 0⟩]⟩,
  ⟨"PWR_CTL", 0x200000, 1, 0, 1, 0, .none, [⟨63, 48, .rw, 50⟩, ⟨41, 36, .rw, 10⟩, ⟨20, 10, .rw, 1000⟩, ⟨2, 0, .rw, 2⟩]⟩,
  ⟨"PWR_STATUS", 0x200008, 1, 0, 1, 0, .none, [⟨63, 53, .ro, 1000⟩, ⟨52, 42, .ro, 1000⟩, ⟨41, 40, .ro, 0⟩, ⟨34, 34, .w1c, 0⟩, ⟨33, 33, .w1c, 0⟩, ⟨32, 32, .ro, 0⟩, ⟨23, 16, .ro, 100⟩, ⟨15, 0, .ro, 0⟩]⟩,
  ⟨"PWR_WAKE", 0x200010, 1, 0, 1, 0, .none, [⟨7, 3, .ro, 0⟩, ⟨2, 0, .ro, 6⟩]⟩,
  ⟨"PWR_DOM_STATE", 0x200020, 4, 8, 1, 0, .none, [⟨63, 0, .ro, 0⟩]⟩,
  ⟨"PWR_DOM_ON_0", 0x200040, 1, 0, 1, 0, .none, [⟨63, 0, .rw, 13853054930258231040⟩]⟩,
  ⟨"PWR_DOM_ON_1", 0x200048, 1, 0, 1, 0, .none, [⟨60, 0, .rw, 1441151880758558719⟩]⟩,
  ⟨"PWR_DOM_HOLD_0", 0x200050, 1, 0, 1, 0, .none, [⟨63, 0, .rw, 0⟩]⟩]

/-- Registers from offset 0x200058. -/
def part10 : List RegDef := [
  ⟨"PWR_DOM_HOLD_1", 0x200058, 1, 0, 1, 0, .none, [⟨60, 0, .rw, 0⟩]⟩,
  ⟨"THM_CFG", 0x200060, 1, 0, 1, 0, .none, [⟨6, 0, .rw, 95⟩]⟩,
  ⟨"THM_STATUS", 0x200068, 1, 0, 1, 0, .none, [⟨9, 9, .w1c, 0⟩, ⟨8, 8, .w1c, 0⟩, ⟨7, 0, .ro, 0⟩]⟩,
  ⟨"CLK_STATUS", 0x200070, 1, 0, 1, 0, .none, [⟨0, 0, .ro, 0⟩]⟩,
  ⟨"PWR_THROTTLE_WINDOWS", 0x200078, 1, 0, 1, 0, .none, [⟨63, 0, .rw, 0⟩]⟩,
  ⟨"PWR_OVER_WINDOWS", 0x200080, 1, 0, 1, 0, .none, [⟨63, 0, .rw, 0⟩]⟩,
  ⟨"PWR_WAKES", 0x200088, 1, 0, 1, 0, .none, [⟨63, 0, .rw, 0⟩]⟩,
  ⟨"PWR_WAKE_WAIT_NS", 0x200090, 1, 0, 1, 0, .none, [⟨63, 0, .rw, 0⟩]⟩,
  ⟨"THM_HOT_WINDOWS", 0x200098, 1, 0, 1, 0, .none, [⟨63, 0, .rw, 0⟩]⟩,
  ⟨"CLK_UNLOCKS", 0x2000A0, 1, 0, 1, 0, .none, [⟨63, 0, .rw, 0⟩]⟩,
  ⟨"HRT_STATUS", 0x210000, 1, 0, 1, 0, .hearth, [⟨15, 13, .ro, 0⟩, ⟨12, 12, .ro, 0⟩, ⟨11, 11, .ro, 0⟩, ⟨10, 9, .ro, 0⟩, ⟨3, 0, .ro, 0⟩]⟩,
  ⟨"HRT_BOOT", 0x210008, 1, 0, 1, 0, .hearth, [⟨63, 48, .ro, 0⟩, ⟨47, 32, .ro, 0⟩, ⟨31, 0, .ro, 0⟩]⟩,
  ⟨"HRT_CAL", 0x210010, 1, 0, 1, 0, .hearth, [⟨63, 63, .ro, 0⟩, ⟨47, 0, .ro, 0⟩]⟩,
  ⟨"HRT_SVN", 0x210018, 1, 0, 1, 0, .hearth, [⟨31, 16, .ro, 0⟩, ⟨15, 0, .ro, 0⟩]⟩,
  ⟨"HRT_CFG", 0x210020, 1, 0, 1, 0, .hearth, [⟨31, 16, .rwl, 10⟩, ⟨15, 0, .rw, 100⟩]⟩,
  ⟨"HRT_M", 0x210100, 32, 8, 1, 0, .none, [⟨63, 0, .ro, 0⟩]⟩]

/-- Registers from offset 0x220000. -/
def part11 : List RegDef := [
  ⟨"ERR_STATUS", 0x220000, 1, 0, 1, 0, .none, [⟨63, 48, .ro, 0⟩, ⟨47, 44, .ro, 0⟩, ⟨0, 0, .ro, 0⟩]⟩,
  ⟨"ERR_LOG_NEXT", 0x220008, 1, 0, 1, 0, .none, [⟨31, 0, .ro, 0⟩]⟩,
  ⟨"ERR_INJ", 0x220010, 1, 0, 1, 0, .none, [⟨63, 63, .rw, 0⟩, ⟨8, 8, .rw, 0⟩, ⟨7, 6, .rw, 0⟩, ⟨3, 0, .rw, 0⟩]⟩,
  ⟨"ERR_TASKS_ENDED", 0x220018, 1, 0, 1, 0, .none, [⟨63, 0, .rw, 0⟩]⟩,
  ⟨"ERR_ECC_CE", 0x220100, 15, 16, 1, 0, .none, [⟨63, 0, .rw, 0⟩]⟩,
  ⟨"ERR_ECC_UE", 0x220108, 15, 16, 1, 0, .none, [⟨63, 0, .rw, 0⟩]⟩,
  ⟨"ERR_LOG_W0", 0x220400, 32, 32, 1, 0, .none, [⟨63, 32, .ro, 0⟩, ⟨31, 16, .ro, 0⟩, ⟨15, 14, .ro, 0⟩, ⟨13, 8, .ro, 0⟩, ⟨7, 3, .ro, 0⟩]⟩,
  ⟨"ERR_LOG_W1", 0x220408, 32, 32, 1, 0, .none, [⟨63, 32, .ro, 0⟩, ⟨31, 0, .ro, 0⟩]⟩,
  ⟨"ERR_LOG_W2", 0x220410, 32, 32, 1, 0, .none, [⟨63, 0, .ro, 0⟩]⟩,
  ⟨"MOD_INPUT", 0x230000, 1, 0, 1, 0, .none, [⟨47, 24, .ro, 0⟩, ⟨15, 0, .ro, 0⟩]⟩,
  ⟨"MOD_COOLANT", 0x230008, 1, 0, 1, 0, .none, [⟨31, 16, .ro, 0⟩, ⟨15, 0, .ro, 0⟩]⟩,
  ⟨"MOD_HSC", 0x230010, 1, 0, 1, 0, .none, [⟨15, 13, .ro, 0⟩, ⟨7, 7, .ro, 0⟩, ⟨3, 3, .ro, 0⟩, ⟨2, 2, .ro, 0⟩, ⟨1, 0, .ro, 0⟩]⟩,
  ⟨"CFG_WHILE_BUSY", 0x240000, 1, 0, 1, 0, .none, [⟨63, 0, .rw, 0⟩]⟩,
  ⟨"CFG_BUSY_BLOCKS", 0x240008, 1, 0, 1, 0, .none, [⟨20, 20, .w1c, 0⟩, ⟨19, 19, .w1c, 0⟩, ⟨18, 18, .w1c, 0⟩, ⟨17, 17, .w1c, 0⟩, ⟨16, 16, .w1c, 0⟩, ⟨15, 15, .w1c, 0⟩, ⟨14, 14, .w1c, 0⟩, ⟨13, 13, .w1c, 0⟩, ⟨12, 12, .w1c, 0⟩, ⟨11, 8, .w1c, 0⟩, ⟨7, 4, .w1c, 0⟩, ⟨3, 0, .w1c, 0⟩]⟩,
  ⟨"CFG_LAST_REFUSED", 0x240010, 1, 0, 1, 0, .none, [⟨31, 0, .ro, 0⟩]⟩]

/-- Every register. -/
def all : List RegDef := part0 ++ part1 ++ part2 ++ part3 ++ part4 ++ part5 ++ part6 ++ part7 ++ part8 ++ part9 ++ part10 ++ part11

/-- The indices of a register's copy at an offset, if it has one there. -/
def indexIn (d : RegDef) (off : Nat) : Option (Nat × Nat) :=
  if off < d.base then none
  else
    let o := off - d.base
    let i := if d.s1 = 0 then 0 else o / d.s1
    let r := if d.s1 = 0 then o else o % d.s1
    let j := if d.s2 = 0 then 0 else r / d.s2
    let q := if d.s2 = 0 then r else r % d.s2
    if decide (i < d.n1) && decide (j < d.n2) && decide (q = 0) then some (i, j) else none

/-- The register that occupies an offset, with its indices. -/
def find (off : Nat) : Option (RegDef × Nat × Nat) :=
  all.findSome? (fun d => (indexIn d off).map (fun p => (d, p.1, p.2)))

/-- A register's reset value. -/
def resetOfDef (d : RegDef) : Reg := d.fields.foldl (fun w f => setBf w f.hi f.lo f.reset) 0

/-- What an offset holds at module reset; 0 where no register is (R16). -/
def resetOf (off : Nat) : Reg :=
  match find off with
  | some (d, _, _) => resetOfDef d
  | none => 0

end RegMap

/-! Offsets of the registers, by the names of spec/. -/

namespace Csr

/-- DEV_CAP -/
def devCap : Nat := 0x0
/-- ISA_CAP -/
def isaCap : Nat := 0x8
/-- TRY_STATUS -/
def tryStatus (i : Nat) : Nat := 0x10000 + 64 * i
/-- TRY_TOKENS_LO -/
def tryTokensLo (i : Nat) : Nat := 0x10008 + 64 * i
/-- TRY_TOKENS_HI -/
def tryTokensHi (i : Nat) : Nat := 0x10010 + 64 * i
/-- SYNC_BAR_CTL -/
def syncBarCtl : Nat := 0x10800
/-- SYNC_BAR_STATE -/
def syncBarState (i : Nat) : Nat := 0x10840 + 8 * i
/-- SVE_SEL -/
def sveSel (i : Nat) : Nat := 0x40000 + 256 * i
/-- SVE_SEG -/
def sveSeg (i : Nat) : Nat := 0x40008 + 256 * i
/-- SVE_STATUS -/
def sveStatus (i : Nat) : Nat := 0x40010 + 256 * i
/-- SVE_PAIRS -/
def svePairs (i : Nat) : Nat := 0x40018 + 256 * i
/-- SVE_PRODUCTS -/
def sveProducts (i : Nat) : Nat := 0x40020 + 256 * i
/-- SVE_GROUP_CYCLES -/
def sveGroupCycles (i : Nat) : Nat := 0x40028 + 256 * i
/-- SVE_CQ_STALLS -/
def sveCqStalls (i : Nat) : Nat := 0x40030 + 256 * i
/-- SVE_SPILL_BREAKS -/
def sveSpillBreaks (i : Nat) : Nat := 0x40038 + 256 * i
/-- LEV_STATUS -/
def levStatus (i : Nat) : Nat := 0x50000 + 256 * i
/-- LEV_AUD_SEED -/
def levAudSeed (i : Nat) : Nat := 0x50008 + 256 * i
/-- LEV_CNT_SEL -/
def levCntSel (i : Nat) : Nat := 0x50010 + 256 * i
/-- LEV_CNT_DATA -/
def levCntData (i : Nat) : Nat := 0x50018 + 256 * i
/-- LEV_CNT_CLR -/
def levCntClr (i : Nat) : Nat := 0x50020 + 256 * i
/-- MXA_STATUS -/
def mxaStatus (i j : Nat) : Nat := 0x60000 + 256 * i + 64 * j
/-- MXA_CTL -/
def mxaCtl (i j : Nat) : Nat := 0x60008 + 256 * i + 64 * j
/-- MXA_GROUPS -/
def mxaGroups (i j : Nat) : Nat := 0x60010 + 256 * i + 64 * j
/-- MXA_FEED_BUBBLES -/
def mxaFeedBubbles (i j : Nat) : Nat := 0x60018 + 256 * i + 64 * j
/-- MXA_RIPPLE_WAITS -/
def mxaRippleWaits (i j : Nat) : Nat := 0x60020 + 256 * i + 64 * j
/-- MXA_WLOADS -/
def mxaWloads (i j : Nat) : Nat := 0x60028 + 256 * i + 64 * j
/-- MXA_WREUSE -/
def mxaWreuse (i j : Nat) : Nat := 0x60030 + 256 * i + 64 * j
/-- MXA_MODE_DRAINS -/
def mxaModeDrains (i j : Nat) : Nat := 0x60038 + 256 * i + 64 * j
/-- PEEL_STATUS -/
def peelStatus (i : Nat) : Nat := 0x70000 + 256 * i
/-- PEEL_COUCHE_CFG -/
def peelCoucheCfg (i : Nat) : Nat := 0x70008 + 256 * i
/-- PEEL_DBG_SEL -/
def peelDbgSel (i : Nat) : Nat := 0x70010 + 256 * i
/-- PEEL_DBG_STATUS -/
def peelDbgStatus (i : Nat) : Nat := 0x70018 + 256 * i
/-- PEEL_ROW_BLOCKS -/
def peelRowBlocks (i : Nat) : Nat := 0x70020 + 256 * i
/-- PEEL_PASS_ADDS -/
def peelPassAdds (i : Nat) : Nat := 0x70028 + 256 * i
/-- PEEL_COUCHE_SPILLS -/
def peelCoucheSpills (i : Nat) : Nat := 0x70030 + 256 * i
/-- PEEL_COUCHE_OVF -/
def peelCoucheOvf (i : Nat) : Nat := 0x70038 + 256 * i
/-- PEEL_SR_SEED -/
def peelSrSeed (i : Nat) : Nat := 0x70040 + 256 * i
/-- PEEL_SAT_TILES -/
def peelSatTiles (i : Nat) : Nat := 0x70048 + 256 * i
/-- UPD_SEL -/
def updSel (i : Nat) : Nat := 0x70050 + 256 * i
/-- UPD_DATA -/
def updData (i : Nat) : Nat := 0x70058 + 256 * i
/-- UPD_CLR -/
def updClr (i : Nat) : Nat := 0x70060 + 256 * i
/-- PEEL_DBG_WINDOW -/
def peelDbgWindow (i j : Nat) : Nat := 0x80000 + 8192 * i + 8 * j
/-- VXE_STATUS -/
def vxeStatus (i : Nat) : Nat := 0x90000 + 256 * i
/-- VXE_SLOTS_LO -/
def vxeSlotsLo (i : Nat) : Nat := 0x90008 + 256 * i
/-- VXE_SLOTS_HI -/
def vxeSlotsHi (i : Nat) : Nat := 0x90010 + 256 * i
/-- VXE_ELEMS -/
def vxeElems (i : Nat) : Nat := 0x90018 + 256 * i
/-- VXE_ACTIVE_CYCLES -/
def vxeActiveCycles (i : Nat) : Nat := 0x90020 + 256 * i
/-- VXE_HOLDS -/
def vxeHolds (i : Nat) : Nat := 0x90028 + 256 * i
/-- VXE_OC_SPILLS -/
def vxeOcSpills (i : Nat) : Nat := 0x90030 + 256 * i
/-- VXE_PERM_LANES -/
def vxePermLanes (i : Nat) : Nat := 0x90038 + 256 * i
/-- BAT_CTL -/
def batCtl (i : Nat) : Nat := 0xA0000 + 64 * i
/-- BAT_STREAM -/
def batStream (i : Nat) : Nat := 0xA0008 + 64 * i
/-- BAT_DTAB -/
def batDtab (i : Nat) : Nat := 0xA0010 + 64 * i
/-- BAT_CLOSE_OTHER -/
def batCloseOther (i : Nat) : Nat := 0xA0018 + 64 * i
/-- BAT_STATUS -/
def batStatus (i : Nat) : Nat := 0xA0020 + 64 * i
/-- BAT_CLOSE_SIZE -/
def batCloseSize (i : Nat) : Nat := 0xA0028 + 64 * i
/-- BAT_CLOSE_TIME -/
def batCloseTime (i : Nat) : Nat := 0xA0030 + 64 * i
/-- BAT_REJECTS -/
def batRejects (i : Nat) : Nat := 0xA0038 + 64 * i
/-- PRF_STATUS -/
def prfStatus (i : Nat) : Nat := 0xB0000 + 256 * i
/-- PRF_CTL -/
def prfCtl (i : Nat) : Nat := 0xB0008 + 256 * i
/-- PRF_DEADLOCK -/
def prfDeadlock (i : Nat) : Nat := 0xB0010 + 256 * i
/-- PRF_BYTES_RD -/
def prfBytesRd (i : Nat) : Nat := 0xB0018 + 256 * i
/-- PRF_BYTES_WR -/
def prfBytesWr (i : Nat) : Nat := 0xB0020 + 256 * i
/-- PRF_BYTES_RMT -/
def prfBytesRmt (i : Nat) : Nat := 0xB0028 + 256 * i
/-- PRF_GATHER_ROWS -/
def prfGatherRows (i : Nat) : Nat := 0xB0030 + 256 * i
/-- PRF_SPILL_BREAKS -/
def prfSpillBreaks (i : Nat) : Nat := 0xB0038 + 256 * i
/-- PRF_PAGE_MISSES -/
def prfPageMisses (i : Nat) : Nat := 0xB0040 + 256 * i
/-- PRF_PREF_DROPS -/
def prfPrefDrops (i : Nat) : Nat := 0xB0048 + 256 * i
/-- PRF_LATE_CYCLES -/
def prfLateCycles (i : Nat) : Nat := 0xB0050 + 256 * i
/-- LPC_SPLIT -/
def lpcSplit (i : Nat) : Nat := 0xC0000 + 256 * i
/-- LPC_STATUS -/
def lpcStatus (i : Nat) : Nat := 0xC0008 + 256 * i
/-- LPC_ECC_CE -/
def lpcEccCe (i : Nat) : Nat := 0xC0010 + 256 * i
/-- LPC_ECC_UE -/
def lpcEccUe (i : Nat) : Nat := 0xC0018 + 256 * i
/-- LPC_ECC_LAST -/
def lpcEccLast (i : Nat) : Nat := 0xC0020 + 256 * i
/-- LPC_SCRUB -/
def lpcScrub (i : Nat) : Nat := 0xC0028 + 256 * i
/-- ARB_CTL -/
def arbCtl (i : Nat) : Nat := 0xD0000 + 64 * i
/-- ARB_FORCED -/
def arbForced (i : Nat) : Nat := 0xD0008 + 64 * i
/-- ARB_REVOKES -/
def arbRevokes (i : Nat) : Nat := 0xD0010 + 64 * i
/-- ARB_DEAD -/
def arbDead (i : Nat) : Nat := 0xD0018 + 64 * i
/-- ARB_QFULL -/
def arbQfull (i : Nat) : Nat := 0xD0020 + 64 * i
/-- MMU_AS_CFG -/
def mmuAsCfg (i : Nat) : Nat := 0xE0000 + 8 * i
/-- MMU_INV -/
def mmuInv : Nat := 0xE0200
/-- MMU_STATUS -/
def mmuStatus : Nat := 0xE0208
/-- MMU_WALKS -/
def mmuWalks : Nat := 0xE0210
/-- MMU_MISSES -/
def mmuMisses : Nat := 0xE0218
/-- MMU_REFUSED -/
def mmuRefused : Nat := 0xE0220
/-- LAR_CFG -/
def larCfg : Nat := 0xF0000
/-- LAR_STATUS -/
def larStatus : Nat := 0xF0008
/-- LAR_HITS -/
def larHits : Nat := 0xF0010
/-- LAR_MISSES -/
def larMisses : Nat := 0xF0018
/-- LAR_WRITEBACKS -/
def larWritebacks : Nat := 0xF0020
/-- MEM_SPILL_LAR -/
def memSpillLar (i : Nat) : Nat := 0xF0100 + 64 * i
/-- MEM_SPILL_LPD -/
def memSpillLpd (i : Nat) : Nat := 0xF0108 + 64 * i
/-- MEM_SPILL_HOST -/
def memSpillHost (i : Nat) : Nat := 0xF0110 + 64 * i
/-- MEM_SPL_TO_LPD -/
def memSplToLpd (i : Nat) : Nat := 0xF0118 + 64 * i
/-- MEM_SPL_TO_HOST -/
def memSplToHost (i : Nat) : Nat := 0xF0120 + 64 * i
/-- MEM_SPL_EXHAUSTED -/
def memSplExhausted (i : Nat) : Nat := 0xF0128 + 64 * i
/-- HQ_CFG -/
def hqCfg (i : Nat) : Nat := 0x100000 + 64 * i
/-- HQ_RING -/
def hqRing (i : Nat) : Nat := 0x100008 + 64 * i
/-- HQ_PARAM -/
def hqParam (i : Nat) : Nat := 0x100010 + 64 * i
/-- HQ_INDEX -/
def hqIndex (i : Nat) : Nat := 0x100018 + 64 * i
/-- HQ_STATE -/
def hqState (i : Nat) : Nat := 0x100020 + 64 * i
/-- HQ_QC_STREAM -/
def hqQcStream (i : Nat) : Nat := 0x100028 + 64 * i
/-- HQ_QC_DTAB -/
def hqQcDtab (i : Nat) : Nat := 0x100030 + 64 * i
/-- HQ_QC_BUF -/
def hqQcBuf (i : Nat) : Nat := 0x100038 + 64 * i
/-- HP_CTL -/
def hpCtl : Nat := 0x110000
/-- HP_LOCAL_AE_W0 -/
def hpLocalAeW0 (i : Nat) : Nat := 0x110100 + 32 * i
/-- HP_LOCAL_AE_W1 -/
def hpLocalAeW1 (i : Nat) : Nat := 0x110108 + 32 * i
/-- HP_LOCAL_AE_W2 -/
def hpLocalAeW2 (i : Nat) : Nat := 0x110110 + 32 * i
/-- HP_LOCAL_AE_W3 -/
def hpLocalAeW3 (i : Nat) : Nat := 0x110118 + 32 * i
/-- HP_EP_AE_W0 -/
def hpEpAeW0 (i : Nat) : Nat := 0x110200 + 32 * i
/-- HP_EP_AE_W1 -/
def hpEpAeW1 (i : Nat) : Nat := 0x110208 + 32 * i
/-- HP_EP_AE_W2 -/
def hpEpAeW2 (i : Nat) : Nat := 0x110210 + 32 * i
/-- HP_EP_AE_W3 -/
def hpEpAeW3 (i : Nat) : Nat := 0x110218 + 32 * i
/-- HC_CTL -/
def hcCtl : Nat := 0x110400
/-- HC_VA -/
def hcVa : Nat := 0x110408
/-- HC_SIZE -/
def hcSize : Nat := 0x110410
/-- HC_RKEY -/
def hcRkey : Nat := 0x110418
/-- HP_RX_FRAMES -/
def hpRxFrames : Nat := 0x110600
/-- HP_RX_DROPS -/
def hpRxDrops : Nat := 0x110608
/-- HP_FCS_ERRS -/
def hpFcsErrs : Nat := 0x110610
/-- HP_FEC_CORR -/
def hpFecCorr : Nat := 0x110618
/-- HP_FEC_UNCORR -/
def hpFecUncorr : Nat := 0x110620
/-- HP_CCT_DROPS -/
def hpCctDrops : Nat := 0x110628
/-- HP_CCT_REJECTS -/
def hpCctRejects : Nat := 0x110630
/-- HP_PFC_XOFF -/
def hpPfcXoff : Nat := 0x110638
/-- HP_CNP_RX -/
def hpCnpRx : Nat := 0x110640
/-- QP_CFG -/
def qpCfg (i : Nat) : Nat := 0x120000 + 32 * i
/-- QP_KEY -/
def qpKey (i : Nat) : Nat := 0x120008 + 32 * i
/-- QP_RPSN -/
def qpRpsn (i : Nat) : Nat := 0x120010 + 32 * i
/-- QP_RATE -/
def qpRate (i : Nat) : Nat := 0x120018 + 32 * i
/-- STN_CFG -/
def stnCfg : Nat := 0x130000
/-- STN_ADDR -/
def stnAddr : Nat := 0x130008
/-- STN_STATUS -/
def stnStatus : Nat := 0x130010
/-- STN_SERIAL -/
def stnSerial : Nat := 0x130018
/-- STN_P -/
def stnPort (i : Nat) : Nat := 0x130100 + 16 * i
/-- STN_P_PEER_SN -/
def stnPPeerSn (i : Nat) : Nat := 0x130108 + 16 * i
/-- STN_FLITS_TX -/
def stnFlitsTx : Nat := 0x130200
/-- STN_FLITS_RX -/
def stnFlitsRx : Nat := 0x130208
/-- STN_CRC_ERRS -/
def stnCrcErrs : Nat := 0x130210
/-- STN_REPLAYS -/
def stnReplays : Nat := 0x130218
/-- STN_LINK_DOWNS -/
def stnLinkDowns : Nat := 0x130220
/-- STN_E2E_RETX -/
def stnE2eRetx : Nat := 0x130228
/-- STN_DUPS -/
def stnDups : Nat := 0x130230
/-- STN_MCAST_DETACH -/
def stnMcastDetach : Nat := 0x130238
/-- STN_MCAST_LOST -/
def stnMcastLost : Nat := 0x130240
/-- STN_DROPS -/
def stnDrops : Nat := 0x130248
/-- STN_MBX_CTL -/
def stnMbxCtl : Nat := 0x130300
/-- STN_MBX_TX -/
def stnMbxTx (i : Nat) : Nat := 0x130308 + 8 * i
/-- STN_MBX_RX -/
def stnMbxRx (i : Nat) : Nat := 0x130380 + 8 * i
/-- RT -/
def route (i : Nat) : Nat := 0x140000 + 8 * i
/-- GRP -/
def group (i : Nat) : Nat := 0x1C0000 + 256 * i
/-- GRP_MEMBERS -/
def groupMembers (i j : Nat) : Nat := 0x1C0008 + 256 * i + 8 * j
/-- PWR_CTL -/
def pwrCtl : Nat := 0x200000
/-- PWR_STATUS -/
def pwrStatus : Nat := 0x200008
/-- PWR_WAKE -/
def pwrWake : Nat := 0x200010
/-- PWR_DOM_STATE -/
def pwrDomState (i : Nat) : Nat := 0x200020 + 8 * i
/-- PWR_DOM_ON_0 -/
def pwrDomOn0 : Nat := 0x200040
/-- PWR_DOM_ON_1 -/
def pwrDomOn1 : Nat := 0x200048
/-- PWR_DOM_HOLD_0 -/
def pwrDomHold0 : Nat := 0x200050
/-- PWR_DOM_HOLD_1 -/
def pwrDomHold1 : Nat := 0x200058
/-- THM_CFG -/
def thmCfg : Nat := 0x200060
/-- THM_STATUS -/
def thmStatus : Nat := 0x200068
/-- CLK_STATUS -/
def clkStatus : Nat := 0x200070
/-- PWR_THROTTLE_WINDOWS -/
def pwrThrottleWindows : Nat := 0x200078
/-- PWR_OVER_WINDOWS -/
def pwrOverWindows : Nat := 0x200080
/-- PWR_WAKES -/
def pwrWakes : Nat := 0x200088
/-- PWR_WAKE_WAIT_NS -/
def pwrWakeWaitNs : Nat := 0x200090
/-- THM_HOT_WINDOWS -/
def thmHotWindows : Nat := 0x200098
/-- CLK_UNLOCKS -/
def clkUnlocks : Nat := 0x2000A0
/-- HRT_STATUS -/
def hrtStatus : Nat := 0x210000
/-- HRT_BOOT -/
def hrtBoot : Nat := 0x210008
/-- HRT_CAL -/
def hrtCal : Nat := 0x210010
/-- HRT_SVN -/
def hrtSvn : Nat := 0x210018
/-- HRT_CFG -/
def hrtCfg : Nat := 0x210020
/-- HRT_M -/
def hrtM (i : Nat) : Nat := 0x210100 + 8 * i
/-- ERR_STATUS -/
def errStatus : Nat := 0x220000
/-- ERR_LOG_NEXT -/
def errLogNext : Nat := 0x220008
/-- ERR_INJ -/
def errInj : Nat := 0x220010
/-- ERR_TASKS_ENDED -/
def errTasksEnded : Nat := 0x220018
/-- ERR_ECC_CE -/
def errEccCe (i : Nat) : Nat := 0x220100 + 16 * i
/-- ERR_ECC_UE -/
def errEccUe (i : Nat) : Nat := 0x220108 + 16 * i
/-- ERR_LOG_W0 -/
def errLogW0 (i : Nat) : Nat := 0x220400 + 32 * i
/-- ERR_LOG_W1 -/
def errLogW1 (i : Nat) : Nat := 0x220408 + 32 * i
/-- ERR_LOG_W2 -/
def errLogW2 (i : Nat) : Nat := 0x220410 + 32 * i
/-- MOD_INPUT -/
def modInput : Nat := 0x230000
/-- MOD_COOLANT -/
def modCoolant : Nat := 0x230008
/-- MOD_HSC -/
def modHsc : Nat := 0x230010
/-- CFG_WHILE_BUSY -/
def cfgWhileBusy : Nat := 0x240000
/-- CFG_BUSY_BLOCKS -/
def cfgBusyBlocks : Nat := 0x240008
/-- CFG_LAST_REFUSED -/
def cfgLastRefused : Nat := 0x240010

end Csr

end Sys2Proof.Machine
end

