-- ==== Sys2Proof/Machine/State.lean ====
section
/-! DEFINITION. The state of the block, the reasons a step can stop, and the state after reset. -/

namespace Sys2Proof.Machine

/-- Why a command cannot be an event of this block. -/
inductive Fault where
  /-- Raised by a command that names a tray, core, port, queue, controller or arbiter that the module does not have. Safe: no event
  of the block is lost, since the spec gives none for such a unit. -/
  | noSuchUnit (kind : String) (n : Nat)
  deriving DecidableEq, Repr

/-- Why a command has no meaning in this model. -/
inductive Refusal where
  /-- Raised by an arm of the dispatch whose command has no meaning yet. Safe: nothing is claimed of it. -/
  | notModelled (mnemonic : String)
  deriving DecidableEq, Repr

/-- The state of the block. -/
structure State where
  /-- Commands that wait, first in, first out. -/
  pending : List Instr
  /-- ACLK cycles counted while no command waits. -/
  now : Nat
  /-- Orders events that the spec orders by cycle; it advances at every queued step, stream, request and stamp. -/
  ord : Nat
  /-- The model's own counter of free values drawn. -/
  free : Nat
  /-- The part as fused at manufacture: its grade and its disabled arrays (R1, R3). -/
  part : Part
  /-- Physical memory by address (R372): LPDDR5X, Larder scratch, Bench windows and host memory. -/
  mem : Tab Byte
  /-- Poisoned 128-byte lines of LPDDR5X and scratch, by line number (R397, R575). -/
  poison : Tab Bool
  /-- Poisoned 64-byte Bench rows, by physical address shifted right 6 (R574). -/
  benchPoison : Tab Bool
  /-- Registers of CSR space by offset, as last written by software or the device; unlisted ones hold their reset value. -/
  regs : Tab Reg
  trays : Vector Tray 32
  barriers : Vector Barrier 16
  queues : Vector HQueue 64
  cores : Vector Core 4
  mmu : Mmu
  larder : Larder
  arbs : List Arbiter
  power : Power
  errLog : List ErrEntry
  planted : List Planted
  stop : Option ModuleStop
  /-- Controllers with a scrub pass in progress, and the data line that each reads next, counted among the controller's own (R394, R398). -/
  scrubbing : List (Nat × Nat)
  /-- Controllers that have completed training (R399, R536). -/
  trained : Bool
  host : HostPort
  staon : Staon
  hearth : Hearth
  modhw : ModHw
  /-- The module's serial number (R484, R603), fixed at manufacture. -/
  serial : Reg
  /-- What has been sent to the host, newest last. -/
  hostTx : List HostTx
  deriving DecidableEq, Repr

/-- A tray's settings at task start (R106, R108, R264). -/
def Settings.start (trayInCore dtab : Nat) : Settings :=
  { vl := 2048, dtab := dtab, bregs := (List.range 16).map (fun r => ((16 * trayInCore + r) * 32, 32)),
    outFmt := 15, red := 0, statd := 0, scale := 0x3F800000#32, audK := 0, audEn := false, strict := false }

/-- The snapshot of a core's RWS fields at their reset values (R59, R165, R188, R221, R262, R369). -/
def Snap.reset : Snap :=
  { srSeed := 0, selThresh := 0x400, mxmScatter := false, segTarget := 0x400, audSeed := 0, reuseDis0 := false,
    reuseDis1 := false, coucheIvl := 0x40, lookahead := 0x10 }

/-- An idle tray with no task yet (R82). -/
def Tray.reset (t : Nat) : Tray :=
  { state := .idle, queue := 0, stream := 0, kind := .doorbell, pc := 0, loops := [], nextSeq := 0, raPc := 0,
    raLoops := [], raSeq := 0, ahead := [], tokens := Vector.replicate 8 0, tokSat := false, snapPend := false,
    snap := .reset, set := .start (t % 8) 0, insts := [], srCount := 0, levCalls := 0, arming := none, endSig := 0,
    ending := false, starting := false, alignFault := false, faulted := none, cancelled := [], lost := [] }

/-- A free barrier (R121). -/
def Barrier.free : Barrier := { mask := none, arrived := 0, waiters := [] }

/-- A queue with nothing waiting. -/
def HQueue.reset : HQueue :=
  { waiting := [], recs := [], batch := none, unnotified := 0, notifyOn := false, copies := [] }

/-- An empty array. -/
def MatArray.reset : MatArray :=
  { queue := [], buf := [], resident := Vector.replicate 16 none, pass := Vector.replicate 16 none, axis := Vector.replicate 16 false, lastAxis := false,
    pack := 0, lastTray := 0, cycle := 0, injected := [] }

/-- An empty translation cache. -/
def TCache.reset : TCache := { entries := [], plru := [] }

/-- A core with nothing in it. -/
def Core.reset : Core :=
  { arrays := Vector.replicate 2 .reset,
    sieve := { queue := [], planes := [], slots := Vector.replicate 16 none, closed := [], cur := none, lastTray := 0, groups := [], lanes := [], clock := 0 },
    levain := { queue := [], maps := [], counters := [], lastTray := 0 },
    vec := { queue := [], programs := [], marks := [], tables := [], lastTray := 0, poison := [] },
    peel := { ports := Vector.replicate 4 [], stats := [], updates := [], groupWait := [], coucheWait := [], updSlots := [],
              window := [], snapPending := none, lastTray := 0 },
    proofer := { channels := Vector.replicate 4 { waiting := [], active := Vector.replicate 8 none, txns := [] }, streams := [],
                 spillWait := [], spillAlloc := [] },
    tcache := .reset }

/-- Domains of arrays that the fuses disable (R3, R516): those of an array and of its load buffer. -/
def fusedDomain (mask d : Nat) : Bool := decide (d < 72) && decide (d % 18 < 4) && !mask.testBit (2 * (d / 18) + d % 18 / 2)

/-- Power as the module admits its input: every domain off but the Hearth's, a full bucket (R517, R531). -/
def Power.reset (mask : Nat) : Power :=
  { doms := Vector.ofFn (fun d : Fin 125 =>
      if d.val = 122 then .on else if fusedDomain mask d.val then .fusedOff else .off),
    wakes := [], newWakes := (0, 0), ramped := [], again := [], asked := [], bucket := 6, refill := 0, theta := 100, crit := false, profile := 2, winStart := 0, thermalCap := 1000,
    capEff := 1000, limiter := 0, est := 0, tj := 0, locked := false }

/-- The host port before it is enabled. -/
def HostPort.reset : HostPort :=
  { enabled := false, ref := true, up := Vector.replicate 2 false, paused := [], held := [], qps := [] }

/-- A Staon port that is disabled (R503). -/
def SPort.reset : SPort :=
  { state := 0, peerAddr := 0, peerPort := 0, ver := 0, peerProv := false, peerLeaving := false, peerSn := 0, hellos := 0, rxNext := 0,
    txNext := 0, unacked := [], rx := Vector.replicate 4 0, discarding := false, badRun := 0, replays := 0, ignoreNak := none,
    credits := Vector.replicate 4 0, seen := Vector.replicate 4 0, freed := Vector.replicate 4 0, queues := Vector.replicate 4 [],
    collectiveNext := false }

/-- The fabric block before its ports are enabled. -/
def Staon.reset : Staon :=
  { enabled := false, ref := true, assigned := none, ports := Vector.replicate 12 .reset, msgid := 0, dedup := [], sent := [], kept := [],
    early := [], mbx := none, leaving := false, left := false, out := [] }

/-- The Hearth as it leaves manufacture (R552, R553), started from its ROM by the admission of its input (R534). -/
def Hearth.reset : Hearth :=
  { running := true, stage := 0, cause := 0, calUnchecked := false, bootSrc := 0, fabHeld := false, fabPolicy := true, lastFail := 0, round := 0, tries := 0,
    src := 0, candidate := none, sideband := false, gotPut := false, calValid := false, calLost := false, calSeconds := 0, svnMin := 0,
    svnRun := 0, m := Vector.replicate 4 (List.replicate 64 0), flash := [], secret := List.replicate 32 0, secretLocked := false,
    atKey := [], policy := 13, hmpKey := none, hmpCtr := 0, lastTag := [], lastReply := none, peer := none, ipv4 := 0, ipv6 := 0, events := [],
    report := [], attesting := false, removal := .none, wrEnRetry := false, fruOff := 0, thermalStop := false, cooled := false, side := [], smb := [] }

/-- The module seated in its carrier, with its input admitted. -/
def ModHw.reset : ModHw :=
  { mated := true, admitted := true, cause := 0, refLoss := false, ref100 := true, hscCause := 0, cellLow := false, straps := 0, attn := false,
    rdy := false, vin := 0, vinRead := 0, iin := 0, tIn := 0, tOut := 0 }

/-- The machine right after reset. -/
def State.reset : State :=
  { pending := [], now := 0, ord := 0, free := 0, part := .m8, mem := [], poison := [], benchPoison := [], regs := [],
    trays := Vector.ofFn (fun t : Fin 32 => Tray.reset t.val),
    barriers := Vector.replicate 16 .free,
    queues := Vector.replicate 64 .reset,
    cores := Vector.replicate 4 .reset,
    mmu := { walks := [], nextWalk := 0, cache := .reset, inv := none, invWaits := [] },
    larder := { lines := [], plru := [], ways := 0, repart := none, lost := [] },
    arbs := [], power := .reset 0xFF, errLog := [], planted := [], stop := none, scrubbing := [], trained := false,
    host := .reset, staon := .reset, hearth := .reset, modhw := .reset, serial := 0, hostTx := [] }

/-- The fused grade of the module (R1). -/
abbrev State.grade (s : State) : Nat := s.part.grade

/-- ARRAY_MASK of the module (R5). -/
abbrev State.arrayMask (s : State) : Nat := s.part.arrayMask

end Sys2Proof.Machine
end

