-- ==== Sys2Proof/Machine/Ops.lean ====
section
/-! DEFINITION. The named operations over the state: registers, trays, cores, queues, instructions in flight. Every meaning reads and
writes the state through these. -/

namespace Sys2Proof.Machine

namespace State

/-! ### One field replaced -/

/-- The cycle count replaced. -/
def setNow (s : State) (v : Nat) : State := { s with now := v }
/-- The event number replaced. -/
def setOrd (s : State) (v : Nat) : State := { s with ord := v }
/-- The counter of free values replaced. -/
def setFree (s : State) (v : Nat) : State := { s with free := v }
/-- Memory replaced. -/
def setMem (s : State) (v : Tab Byte) : State := { s with mem := v }
/-- The poisoned lines replaced. -/
def setPoison (s : State) (v : Tab Bool) : State := { s with poison := v }
/-- The poisoned Bench rows replaced. -/
def setBenchPoison (s : State) (v : Tab Bool) : State := { s with benchPoison := v }
/-- The registers replaced. -/
def setRegs (s : State) (v : Tab Reg) : State := { s with regs := v }
/-- The trays replaced. -/
def setTrays (s : State) (v : Vector Tray 32) : State := { s with trays := v }
/-- The barriers replaced. -/
def setBarriers (s : State) (v : Vector Barrier 16) : State := { s with barriers := v }
/-- The queues replaced. -/
def setQueues (s : State) (v : Vector HQueue 64) : State := { s with queues := v }
/-- The cores replaced. -/
def setCores (s : State) (v : Vector Core 4) : State := { s with cores := v }
/-- The shared translation state replaced. -/
def setMmu (s : State) (v : Mmu) : State := { s with mmu := v }
/-- The Larder replaced. -/
def setLarder (s : State) (v : Larder) : State := { s with larder := v }
/-- The arbiters replaced. -/
def setArbs (s : State) (v : List Arbiter) : State := { s with arbs := v }
/-- The power state replaced. -/
def setPower (s : State) (v : Power) : State := { s with power := v }
/-- The error log replaced. -/
def setErrLog (s : State) (v : List ErrEntry) : State := { s with errLog := v }
/-- The planted errors replaced. -/
def setPlanted (s : State) (v : List Planted) : State := { s with planted := v }
/-- The stop of the module replaced. -/
def setStop (s : State) (v : Option ModuleStop) : State := { s with stop := v }
/-- The scrub passes replaced. -/
def setScrubbing (s : State) (v : List (Nat × Nat)) : State := { s with scrubbing := v }
/-- Whether training is complete replaced. -/
def setTrained (s : State) (v : Bool) : State := { s with trained := v }
/-- The host port replaced. -/
def setHost (s : State) (v : HostPort) : State := { s with host := v }
/-- The fabric block replaced. -/
def setStaon (s : State) (v : Staon) : State := { s with staon := v }
/-- The Hearth replaced. -/
def setHearth (s : State) (v : Hearth) : State := { s with hearth := v }
/-- The module hardware replaced. -/
def setModhw (s : State) (v : ModHw) : State := { s with modhw := v }
/-- The messages to the host replaced. -/
def setHostTx (s : State) (v : List HostTx) : State := { s with hostTx := v }

/-! ### Registers of CSR space -/

/-- What the register at an offset holds: as last written, else its reset value (R11). -/
def reg (s : State) (off : Nat) : Reg := Tab.get (RegMap.resetOf off) s.regs off

/-- The register at an offset set to a value. -/
def setReg (s : State) (off : Nat) (v : Reg) : State :=
  s.setRegs (Tab.put (RegMap.resetOf off) s.regs off v)

/-- Bits `hi` to `lo` of a register. -/
def fld (s : State) (off hi lo : Nat) : Nat := bf (s.reg off) hi lo

/-- Bits `hi` to `lo` of a register set by the device. -/
def setFld (s : State) (off hi lo v : Nat) : State := s.setReg off (setBf (s.reg off) hi lo v)

/-- A counter advanced by `n`, wrapping from 2^64 − 1 to 0 (R17). -/
def count (s : State) (off n : Nat) : State := s.setReg off (s.reg off + BitVec.ofNat 64 n)

/-! ### Trays, cores and queues -/

/-- Tray `t`; a reset tray where there is none. -/
def tray (s : State) (t : Nat) : Tray := Vec.get s.trays t (Tray.reset t)

/-- Tray `t` replaced. -/
def setTray (s : State) (t : Nat) (x : Tray) : State := s.setTrays (Vec.put s.trays t x)

/-- Tray `t` changed by `f`. -/
def modTray (s : State) (t : Nat) (f : Tray → Tray) : State := s.setTray t (f (s.tray t))

/-- Core `c`. -/
def core (s : State) (c : Nat) : Core := Vec.get s.cores c Core.reset

/-- Core `c` changed by `f`. -/
def modCore (s : State) (c : Nat) (f : Core → Core) : State := s.setCores (Vec.put s.cores c (f (s.core c)))

/-- Array `a` of core `c`. -/
def array (s : State) (c a : Nat) : MatArray := Vec.get (s.core c).arrays a MatArray.reset

/-- Array `a` of core `c` changed by `f`. -/
def modArray (s : State) (c a : Nat) (f : MatArray → MatArray) : State :=
  s.modCore c (fun k => { k with arrays := Vec.put k.arrays a (f (Vec.get k.arrays a MatArray.reset)) })

/-- The Sieve of core `c` changed by `f`. -/
def modSieve (s : State) (c : Nat) (f : Sieve → Sieve) : State := s.modCore c (fun k => { k with sieve := f k.sieve })

/-- The Levain of core `c` changed by `f`. -/
def modLevain (s : State) (c : Nat) (f : Levain → Levain) : State := s.modCore c (fun k => { k with levain := f k.levain })

/-- The vector engine of core `c` changed by `f`. -/
def modVec (s : State) (c : Nat) (f : VecEngine → VecEngine) : State := s.modCore c (fun k => { k with vec := f k.vec })

/-- The Peel of core `c` changed by `f`. -/
def modPeel (s : State) (c : Nat) (f : Peel → Peel) : State := s.modCore c (fun k => { k with peel := f k.peel })

/-- The Proofer of core `c` changed by `f`. -/
def modProofer (s : State) (c : Nat) (f : Proofer → Proofer) : State :=
  s.modCore c (fun k => { k with proofer := f k.proofer })

/-- An unused Proofer channel. -/
def emptyChannel : Channel := { waiting := [], active := Vector.replicate 8 none, txns := [] }

/-- Channel `ch` of core `c`. -/
def channel (s : State) (c ch : Nat) : Channel := Vec.get (s.core c).proofer.channels ch emptyChannel

/-- Channel `ch` of core `c` changed by `f`. -/
def modChannel (s : State) (c ch : Nat) (f : Channel → Channel) : State :=
  s.modProofer c (fun p => { p with channels := Vec.put p.channels ch (f (Vec.get p.channels ch emptyChannel)) })

/-- Port `p` of core `c`'s Peel. -/
def port (s : State) (c p : Nat) : List Arrival := Vec.get (s.core c).peel.ports p []

/-- Port `p` of core `c`'s Peel replaced. -/
def setPort (s : State) (c p : Nat) (l : List Arrival) : State :=
  s.modPeel c (fun k => { k with ports := Vec.put k.ports p l })

/-- The reset value of word `w` of a monitor slot (R429). -/
def updReset (w : Nat) : Reg := match w with | 0 => 0x60000 | 1 => 0x7F80000000000000 | _ => 0

/-- Word `w` of monitor slot `n` of core `c` (R429). -/
def updWord (s : State) (c n w : Nat) : Reg := Tab.get (updReset w) (s.core c).peel.updSlots (8 * n + w)

/-- Word `w` of monitor slot `n` of core `c` replaced. -/
def setUpdWord (s : State) (c n w : Nat) (v : Reg) : State :=
  s.modPeel c (fun p => { p with updSlots := Tab.put (updReset w) p.updSlots (8 * n + w) v })

/-- Queue `q`. -/
def hq (s : State) (q : Nat) : HQueue := Vec.get s.queues q HQueue.reset

/-- Queue `q` changed by `f`. -/
def modHq (s : State) (q : Nat) (f : HQueue → HQueue) : State := s.setQueues (Vec.put s.queues q (f (s.hq q)))

/-- Barrier `b`. -/
def barrier (s : State) (b : Nat) : Barrier := Vec.get s.barriers b Barrier.free

/-- Barrier `b` replaced. -/
def setBarrier (s : State) (b : Nat) (x : Barrier) : State := s.setBarriers (Vec.put s.barriers b x)

/-- The next event number. -/
def tick (s : State) : State := s.setOrd (s.ord + 1)

/-- A message to the host. -/
def sendHost (s : State) (m : HostTx) : State := s.setHostTx (s.hostTx ++ [m])

/-! ### Instructions in flight -/

/-- Instruction `k` of tray `t`'s task, if it is in flight. -/
def inst (s : State) (t k : Nat) : Option Inst := (s.tray t).insts.find? (fun i => i.seq == k)

/-- Instruction `k` of tray `t`'s task changed by `f`. -/
def modInst (s : State) (t k : Nat) (f : Inst → Inst) : State :=
  s.modTray t (fun r => { r with insts := modFirst (fun i => i.seq == k) f r.insts })

/-- Output tile `n` of instruction `k` of tray `t` changed by `f`. -/
def modTile (s : State) (t k n : Nat) (f : OTile → OTile) : State :=
  s.modInst t k (fun i => { i with tiles := modAt i.tiles n f })

end State

/-- The core of a tray (R19). -/
def coreOf (t : Nat) : Nat := t / 8

/-- A descriptor that stands where an instruction names none. -/
def Desc.none : Desc :=
  { base := 0, fmt := 0, comp := 0, ndim := 1, bench := false, breg := 0, loBench := 0, loLarder := 0, loLpddr := 0, pad := 0,
    dims := [0, 0, 0, 0, 0], strides := [0, 0, 0, 0], resv := false }

/-- The descriptor an instruction read for a role. -/
def Inst.desc (i : Inst) (r : Role) : Desc :=
  match i.descs.find? (fun p => p.1 == r) with
  | some p => p.2.2
  | none => Desc.none

/-- Whether the instruction named a descriptor for a role. -/
def Inst.hasDesc (i : Inst) (r : Role) : Bool := i.descs.any (fun p => p.1 == r)

/-- A tile that stands where there is none. -/
def OTile.empty : OTile :=
  { m := 0, n := 0, row0 := 0, col0 := 0, rows := 0, cols := 0, group := 0, stepsLeft := 0, counts := [], done := true }

/-- Output tile `n` of an instruction. -/
def Inst.tile (i : Inst) (n : Nat) : OTile := i.tiles.getD n OTile.empty

/-! ### Fault codes (R562) -/

namespace FC
def opcUndefined : Nat := 0x0101
def genMismatch : Nat := 0x0102
def reservedNonzero : Nat := 0x0103
def minorUnsupported : Nat := 0x0104
def loopNestBad : Nat := 0x0105
def tokenOverflow : Nat := 0x0106
def fieldRange : Nat := 0x0107
def featureAbsent : Nat := 0x0108
def syncBarBroken : Nat := 0x0109
def streamAlign : Nat := 0x010A
def vxpProgEmpty : Nat := 0x010B
def vxpProgBad : Nat := 0x010C
def updSlotBusy : Nat := 0x010D
def descFormatBad : Nat := 0x0201
def descFieldBad : Nat := 0x0202
def descFormatMismatch : Nat := 0x0203
def descShapeBad : Nat := 0x0204
def descTableAlign : Nat := 0x0205
def levBindBad : Nat := 0x0206
def pageMiss : Nat := 0x0301
def memPerm : Nat := 0x0302
def memAddrBad : Nat := 0x0303
def memPteBad : Nat := 0x0304
def memAsOff : Nat := 0x0305
def spillExhausted : Nat := 0x0306
def memHostFail : Nat := 0x0307
def sparseGroupOver : Nat := 0x0401
def sparseIndexRange : Nat := 0x0402
def crumbCountMismatch : Nat := 0x0403
def crumbRunOver : Nat := 0x0404
def sparseMetaDup : Nat := 0x0405
def crumbHeaderBad : Nat := 0x0406
def numericSatTrap : Nat := 0x0501
def fabUnreachable : Nat := 0x0601
def fabNoAck : Nat := 0x0602
def fabRemoteRefused : Nat := 0x0603
def fabGroupBad : Nat := 0x0604
def mcastLost : Nat := 0x0605
def fabMemberLost : Nat := 0x0606
def fabNoAddress : Nat := 0x0607
def fabPortDown : Nat := 0x0608
def fabPortUp : Nat := 0x0609
def fabVersionFail : Nat := 0x060A
def taskAborted : Nat := 0x0701
def pwrGated : Nat := 0x0801
def thermalCrit : Nat := 0x0802
def thermalShutdown : Nat := 0x0803
def eccUncorrectable : Nat := 0x0901
def benchUncorrectable : Nat := 0x0902
def engineStateUe : Nat := 0x0903
def lpddrTrainFail : Nat := 0x0904
def sharedStateUe : Nat := 0x0905
def hearthSramUe : Nat := 0x0906
end FC

end Sys2Proof.Machine
end

