-- ==== Sys2Proof/Machine/Ports.lean ====
section
/-! DEFINITION. The pending queues of the arbiter instances, and the places of lines: an instance's requests (R405, R407, R408), the controller, channel and byte of a line with its
ECC group (R394, R395), the bank of a Bench offset (R384), the slice, set and tag of a line (R387). -/

namespace Sys2Proof.Machine

/-! ### Instances (R405) -/

/-- An instance's key from its site and number. -/
def arbKey (site inst : Nat) : Nat := site * 65536 + inst

/-- Instances of a site: two for each of the eight NoC segments (R405, R512). -/
def arbInstances (site : Nat) : Nat :=
  match site with
  | 0 | 1 => 2048 | 2 => 16 | 3 => 12 | 4 => 16 | 5 => 8 | _ => 0

/-- An instance before its first cycle. -/
def Arbiter.fresh (key : Nat) : Arbiter := { key := key, cyc := 0, queue := [], backlog := [], heads := [], holder := none, split := 0, checks := [] }

/-- Instance `inst` of a site. -/
def arbOf (s : State) (site inst : Nat) : Arbiter := (s.arbs.find? (fun a => a.key == arbKey site inst)).getD (Arbiter.fresh (arbKey site inst))

/-- An instance replaced. -/
def setArb (s : State) (a : Arbiter) : State :=
  s.setArbs (if s.arbs.any (fun x => x.key == a.key) then s.arbs.map (fun x => if x.key = a.key then a else x) else s.arbs ++ [a])

/-! ### Requests (R407, R408) -/

/-- The first waiting request of a requester. -/
def Arbiter.head (a : Arbiter) (r : Nat) : Option ArbReq := a.queue.find? (fun x => x.requester == r)

/-- Requests of a requester in its pending queue. -/
def Arbiter.depth (a : Arbiter) (r : Nat) : Nat := (a.queue.filter (fun x => x.requester == r)).length

/-- A request enters its requester's pending queue of four, or waits for room; one that becomes the head receives its stamp. -/
def Arbiter.enter (a : Arbiter) (x : ArbReq) : Arbiter :=
  if 4 ≤ a.depth x.requester || a.backlog.any (fun y => y.requester == x.requester) then { a with backlog := a.backlog ++ [x] }
  else if a.depth x.requester = 0 then { a with queue := a.queue ++ [x], heads := a.heads ++ [(x.requester, a.cyc % 4096, 0)] }
  else { a with queue := a.queue ++ [x] }

/-- A request presented to an instance. -/
def pushArb (s : State) (site inst : Nat) (x : ArbReq) : State := setArb s ((arbOf s site inst).enter x)

/-- A request of one beat that belongs to no transfer descriptor. -/
def ArbReq.lone (requester line : Nat) (write fill : Bool) (cls : Nat) : ArbReq :=
  { requester := requester, beats := 1, owner := 0, tray := none, line := line, write := write, fill := fill, cls := cls }

/-! ### Places in LPDDR5X (R394, R395) -/

/-- Data lines of an ECC group (R394). -/
def groupLines : Nat := 31
/-- The ECC group of a usable line (R394). -/
def groupOf (line : Nat) : Nat := line / 31
/-- The controller of a line (R394). -/
def ctrlOf (line : Nat) : Nat := groupOf line % 12
/-- The channel of its controller that holds a line: device `chan / 4` of the controller's two, device channel `chan % 4` (R394). -/
def chanOf (line : Nat) : Nat := groupOf line / 12 % 8
/-- The byte address of a line within its channel (R394). -/
def dataAt (line : Nat) : Nat := groupOf line / 96 * 4096 + line % 31 * 128
/-- The byte address of the check line of a line's group within the channel (R394). -/
def checkAt (line : Nat) : Nat := groupOf line / 96 * 4096 + 3968

/-- Data line `k` of a controller, in the order of a scrub pass (R394, R398). -/
def ctrlLine (ctrl k : Nat) : Nat := 31 * (ctrl + 12 * (k / 31)) + k % 31

/-- The code of a data line: two 16-bit words, one for each half, each over its half and the line's address bits 47:7 (R395). -/
def lineCode (line : Nat) (bs : List Byte) : List Byte :=
  leBytes 2 (Config.eccWord line (bs.take 64)).toNat ++ leBytes 2 (Config.eccWord line (bs.drop 64)).toNat

/-- The contents of the check line of ECC group `g`, where `data` gives each line's bytes: line p's code at bytes 4p to 4p + 3, zeros at 124 to 127 (R394). -/
def checkLine (data : Nat → List Byte) (g : Nat) : List Byte :=
  (List.range 31).flatMap (fun p => lineCode (31 * g + p) (data (31 * g + p))) ++ [0, 0, 0, 0]

/-- What the check of a read line finds (R395, R397). -/
inductive LineCheck where
  | clean | corrected | uncorrectable | open
  deriving DecidableEq, Repr

/-- The check of a line with `lo` and `hi` flipped bits in its halves, or of another line's data (R395): one flipped bit in a half is corrected, two are detected; for more the rule
states no outcome. -/
def lineCheck (lo hi : Nat) (other : Bool) : LineCheck :=
  if other ∨ lo = 2 ∨ hi = 2 then .uncorrectable
  else if 2 < lo ∨ 2 < hi then .open
  else if lo = 0 ∧ hi = 0 then .clean
  else .corrected

/-! ### Places in the Bench and in the Larder (R384, R387) -/

/-- The bank of a Bench byte offset (R384). -/
def benchBank (o : Nat) : Nat := ((o >>> 6) ^^^ (o >>> 15)) % 512

/-- The slice of line `n` (R387). -/
def larSlice (n : Nat) : Nat := (List.range 9).foldl (fun acc i => acc ^^^ (n >>> (4 * i)) % 16) 0
/-- The set of line `n` (R387). -/
def larSet (n : Nat) : Nat := (n >>> 4) % 0x8000
/-- The tag of line `n` (R387). -/
def larTag (n : Nat) : Nat := n >>> 19
/-- The line that a set of a slice holds under a tag (R387). -/
def larLine (slice set tag : Nat) : Nat :=
  let base := tag * 0x80000 + set * 16
  base + (larSlice base ^^^ slice)

end Sys2Proof.Machine
end

