-- ==== Sys2Proof/Machine/Mem.lean ====
section
/-! DEFINITION. Memory: the physical address map, poison, the Larder's lines, translation and its caches, and reads and writes through them
(R372 to R390, R397, R574). -/

namespace Sys2Proof.Machine

/-! ### Physical memory -/

/-- The first address beyond usable LPDDR5X (R372). -/
def usableEnd (s : State) : Nat := if s.grade = 2 then 0x005D00000000 else 0x00BA00000000

/-- The Larder scratch window's first address (R372). -/
def scratchBase : Nat := 0x010000000000
/-- A Bench offset of core `c` as a physical address; offsets wrap at 256 MiB (R322, R372). -/
def benchAddr (c off : Nat) : Nat := 0x020000000000 + c * 0x10000000 + off % 0x10000000

/-- The region of a physical address (R372). -/
inductive Region where
  | lpddr | scratch | bench (core : Nat) | csr | host | nowhere
  deriving DecidableEq, Repr

/-- The region that holds a physical address (R372). -/
def regionOf (s : State) (pa : Nat) : Region :=
  if pa.testBit 47 then .host
  else if pa < usableEnd s then .lpddr
  else if scratchBase ≤ pa ∧ pa < scratchBase + s.larder.ways * 0x4000000 then .scratch
  else if 0x020000000000 ≤ pa ∧ pa < 0x020040000000 then .bench ((pa - 0x020000000000) / 0x10000000)
  else if 0x030000000000 ≤ pa ∧ pa < 0x030100000000 then .csr
  else .nowhere

/-- The byte at a physical address. -/
def State.byte (s : State) (a : Nat) : Byte := Tab.get 0 s.mem a

/-- `n` bytes from a physical address. -/
def State.bytes (s : State) (a n : Nat) : List Byte := (List.range n).map (fun i => s.byte (a + i))

/-- Bytes put into memory from an address on. -/
def putBytes (m : Tab Byte) : Nat → List Byte → Tab Byte
  | _, [] => m
  | a, b :: t => putBytes (Tab.put 0 m a b) (a + 1) t

/-- The units of `2^k` bytes that `n` bytes from `a` cover wholly. -/
def wholeUnits (k a n : Nat) : List Nat :=
  let first := cdiv a (2 ^ k)
  (List.range ((a + n) / 2 ^ k - first)).map (fun i => first + i)

/-- The units of `2^k` bytes that `n` bytes from `a` touch. -/
def touchedUnits (k a n : Nat) : List Nat :=
  if n = 0 then [] else (List.range ((a + n - 1) / 2 ^ k + 1 - a / 2 ^ k)).map (fun i => a / 2 ^ k + i)

/-- Units cleared from a poison table. -/
def clearUnits (p : Tab Bool) (us : List Nat) : Tab Bool := us.foldl (fun q u => Tab.put false q u false) p

/-! ### Injected errors in the Bench and the Larder's data (R581) -/

/-- The stored words that `n` bytes from an address touch lose what was planted in those they overwrite, and an armed injection into the Bench or the Larder's data lines
takes the first word (R581). -/
def plantAt (s : State) (a n : Nat) : State :=
  let r := s.reg Csr.errInj
  let keep := if s.planted.isEmpty then [] else s.planted.filter (fun p => decide (1 < p.index) || !(wholeUnits 3 a n).contains p.place)
  let hit := bit r 63 && n != 0 && (match regionOf s a with
    | .bench c => bf r 3 0 == 0 && bf r 7 6 == c
    | .lpddr | .scratch => bf r 3 0 == 1
    | _ => false)
  if hit then (s.setFld Csr.errInj 63 63 0).setPlanted (keep ++ [⟨bf r 3 0, a / 8, bit r 8⟩]) else s.setPlanted keep

/-- Bytes written at a physical address; a full-line write clears a line's poison, a full-row write a Bench row's (R397, R574). -/
def State.write (s : State) (a : Nat) (bs : List Byte) : State :=
  plantAt
    (((s.setMem (putBytes s.mem a bs)).setPoison (clearUnits s.poison (wholeUnits 7 a bs.length))).setBenchPoison (clearUnits s.benchPoison (wholeUnits 6 a bs.length))) a bs.length

/-- Whether a read of `n` bytes meets a poisoned line (R397) or Bench row (R574): its code and the address of that line or row. -/
def poisonAt (s : State) (a n : Nat) : Option (Nat × Nat) :=
  match (touchedUnits 7 a n).find? (fun l => Tab.get false s.poison l), (touchedUnits 6 a n).find? (fun r => Tab.get false s.benchPoison r) with
  | some l, _ => some (FC.eccUncorrectable, 128 * l)
  | none, some r => some (FC.benchUncorrectable, 64 * r)
  | none, none => none

/-! ### Tree pseudo-LRU (R379, R388) -/

/-- The tree bits after a use of way `w` among `2^lv` ways: every node on its path points away from it. -/
def plruTouch : Nat → Nat → Nat → Nat → Nat
  | 0, _, _, tree => tree
  | lv + 1, node, w, tree =>
    let dir := (w >>> lv) % 2
    let tree' := if dir = 1 then tree &&& (tree ^^^ 2 ^ node) else tree ||| 2 ^ node
    plruTouch lv (2 * node + dir) w tree'

/-- The way the tree points to, keeping to ways below `lim`: at a node whose pointed half lies at or beyond `lim`, the lower half is taken. -/
def plruVictim (lim : Nat) : Nat → Nat → Nat → Nat → Nat
  | 0, _, w, _ => w
  | lv + 1, node, w, tree =>
    let dir := if tree.testBit node && decide (w + 2 ^ lv < lim) then 1 else 0
    plruVictim lim lv (2 * node + dir) (w + dir * 2 ^ lv) tree

/-! ### The Larder's lines (R387, R388) -/

/-- An invalid Larder line. -/
def LLine.empty : LLine := ⟨false, 0, false⟩

/-- The way of its set's cache ways that holds a line. -/
def larderWay (s : State) (line : Nat) : Option Nat :=
  let set := larSlice line * 0x8000 + larSet line
  (List.range (16 - s.larder.ways)).find? (fun w =>
    let l := Tab.get LLine.empty s.larder.lines (set * 16 + w)
    l.valid && l.tag == larTag line)

/-- Whether a line is in the Larder's cache ways. -/
def larderHolds (s : State) (line : Nat) : Bool := (larderWay s line).isSome

/-- The way that an allocation for a line takes: the first invalid cache way of its set, or the one that the tree bits point to (R388). -/
def larderRoom (s : State) (line : Nat) : Nat :=
  let set := larSlice line * 0x8000 + larSet line
  let lim := 16 - s.larder.ways
  match (List.range lim).find? (fun w => !(Tab.get LLine.empty s.larder.lines (set * 16 + w)).valid) with
  | some w => w
  | none => plruVictim lim 4 1 0 (Tab.get 0 s.larder.plru set)

/-- A line leaves the Larder: a dirty one is written back by its slice in the write class, over whatever was stored; of a clean one the stored copy is all that remains, which may be
uncorrectable (R352, R388, R397, R398). -/
def lineLeaves (s : State) (slice line : Nat) (dirty : Bool) : State :=
  let bad := Tab.get false s.larder.lost line
  let s1 := s.setLarder { s.larder with lost := Tab.put false s.larder.lost line false }
  if dirty then pushArb (s1.count Csr.larWritebacks 1) 3 (ctrlOf line) (.lone slice line true false 1)
  else if bad then s1.setPoison (Tab.put false s1.poison line true)
  else s1

/-- The line that an allocation for `line` evicts, if any, with whether it is dirty. -/
def larderVictim (s : State) (line : Nat) : Option (Nat × Bool) :=
  let slice := larSlice line
  let v := Tab.get LLine.empty s.larder.lines ((slice * 0x8000 + larSet line) * 16 + larderRoom s line)
  if (larderHolds s line) || !v.valid then none else some (larLine slice (larSet line) v.tag, v.dirty)

/-- A line used in a way of its set. -/
def lineUsed (s : State) (line w : Nat) (l : LLine) : State :=
  let set := larSlice line * 0x8000 + larSet line
  s.setLarder { s.larder with
    lines := Tab.put LLine.empty s.larder.lines (set * 16 + w) l
    plru := Tab.put 0 s.larder.plru set (plruTouch 4 1 w (Tab.get 0 s.larder.plru set)) }

/-- An access to a line of usable LPDDR5X at its slice: a hit touches the line; a miss allocates one, evicting its victim, and reads LPDDR5X when the request needs the line's contents
(R352, R388). -/
def larderServe (s : State) (x : ArbReq) : State :=
  let slice := larSlice x.line
  match larderWay s x.line with
  | some w =>
    let l := Tab.get LLine.empty s.larder.lines ((slice * 0x8000 + larSet x.line) * 16 + w)
    lineUsed (s.count Csr.larHits 1) x.line w { l with dirty := l.dirty || x.write }
  | none =>
    let s1 := lineUsed (s.count Csr.larMisses 1) x.line (larderRoom s x.line) ⟨true, larTag x.line, x.write⟩
    let s2 := if x.fill then pushArb s1 3 (ctrlOf x.line) { x with requester := slice, beats := 1, write := false } else s1
    match larderVictim s x.line with
    | some (v, dirty) => lineLeaves s2 slice v dirty
    | none => s2

/-- The traffic class of an access that no channel makes (R352): a core's instruction and descriptor fills and its walks read, and what comes from the host or over Staon is remote.
DESIGN CHOICE, log entry 54: so are the module's own records and the walks of incoming accesses. -/
def trafficClass (walker : Nat) (write : Bool) : Nat := if walker < 4 then b2n write else 2

/-- The accesses of a read or write of `n` bytes at a physical address by the owner of a walker: lines of LPDDR5X at the Larder, rows of a Bench at its bank ports as the window
requester (R386, R388). -/
def larderTouch (s : State) (walker pa n : Nat) (write : Bool) : State :=
  match regionOf s pa with
  | .lpddr =>
    let whole := wholeUnits 7 pa n
    (touchedUnits 7 pa n).foldl (fun s' l => larderServe s' (.lone 0 l write (!(write && whole.contains l)) (trafficClass walker write))) s
  | .bench k =>
    (touchedUnits 6 pa n).foldl (fun s' l => pushArb s' (b2n write) (512 * k + benchBank (64 * l % 0x10000000)) (.lone (if write then 4 else 9) l write false 0)) s
  | _ => s

/-- A state with the Larder's lines and counters, the poison that evictions leave and the arbiters of another: an access whose lines have already passed the Larder. -/
def quiet (s s' : State) : State :=
  ((s'.setLarder { s'.larder with lines := s.larder.lines, plru := s.larder.plru, lost := s.larder.lost }).setReg Csr.larHits (s.reg Csr.larHits)
    |>.setReg Csr.larMisses (s.reg Csr.larMisses) |>.setReg Csr.larWritebacks (s.reg Csr.larWritebacks)).setArbs s.arbs

/-- A planted word of the Bench or of a Larder line is read for the first time (R572 to R575, R581): one flipped bit is corrected; two poison the Bench row, or the line unless it is
cached and clean, when it is fetched again. -/
def readPlanted (s : State) (p : Planted) : State :=
  let s0 := s.setPlanted (dropFirst (fun q => q == p) s.planted)
  if !p.double then s0.count (Csr.errEccCe p.index) 1
  else if p.index = 0 then (s0.count (Csr.errEccUe 0) 1).setBenchPoison (Tab.put false s0.benchPoison (p.place / 8) true)
  else
    let line := p.place / 16
    let set := larSlice line * 0x8000 + larSet line
    match (List.range 16).find? (fun w =>
      let l := Tab.get LLine.empty s0.larder.lines (set * 16 + w)
      l.valid && l.tag == larTag line && !l.dirty && regionOf s0 (128 * line) == .lpddr) with
    | some w => lineLeaves ((s0.count (Csr.errEccCe 1) 1).setLarder { s0.larder with lines := Tab.put LLine.empty s0.larder.lines (set * 16 + w) LLine.empty }) (larSlice line) line false
    | none => (s0.count (Csr.errEccUe 1) 1).setPoison (Tab.put false s0.poison line true)

/-- A read of `n` bytes at a physical address meets the words planted there. -/
def noteRead (s : State) (a n : Nat) : State :=
  if s.planted.isEmpty || n == 0 then s
  else (s.planted.filter (fun p => decide (p.index ≤ 1) && decide (a / 8 ≤ p.place) && decide (p.place ≤ (a + n - 1) / 8))).foldl readPlanted s

/-! ### The partition of the Larder (R389, R390) -/

/-- Cells of the scratch window moved by a change of its ways: a way that stays in scratch keeps its contents and lies at other offsets; those of a way that leaves are lost. -/
def moveScratch (old new : Nat) (m : Tab Byte) : Tab Byte :=
  let mine := fun (a : Nat) => decide (scratchBase ≤ a) && decide (a < scratchBase + old * 0x4000000)
  let keep := m.filter (fun p => !mine p.1)
  (m.filter (fun p => mine p.1 && decide (scratchBase ≤ p.1 + new * 0x4000000 - old * 0x4000000))).foldl
    (fun t p => Tab.put 0 t (p.1 + new * 0x4000000 - old * 0x4000000) p.2) keep

/-- Poisoned lines moved with their ways. -/
def movePoison (old new : Nat) (m : Tab Bool) : Tab Bool :=
  let base := scratchBase / 128
  let mine := fun (a : Nat) => decide (base ≤ a) && decide (a < base + old * 0x80000)
  let keep := m.filter (fun p => !mine p.1)
  (m.filter (fun p => mine p.1 && decide (base ≤ p.1 + new * 0x80000 - old * 0x80000))).foldl
    (fun t p => Tab.put false t (p.1 + new * 0x80000 - old * 0x80000) p.2) keep

/-- The steps of a repartition (R390): ways that pass to scratch are written back and invalidated, ways that pass to cache lose their contents, and LAR_REPART clears. -/
def finishRepart (s : State) : State :=
  match s.larder.repart with
  | none => s
  | some w =>
    let leaves := fun (k : Nat) => decide (16 - w ≤ k % 16)
    let s1 := (s.larder.lines.filter (fun p => leaves p.1 && p.2.valid)).foldl (fun s' p =>
      lineLeaves s' (p.1 / 0x80000) (larLine (p.1 / 0x80000) (p.1 / 16 % 0x8000) p.2.tag) p.2.dirty) s
    ((s1.setMem (moveScratch s.larder.ways w s1.mem)).setPoison (movePoison s.larder.ways w s1.poison)).setLarder
      { s1.larder with lines := s1.larder.lines.filter (fun p => !leaves p.1), ways := w, repart := none }

/-! ### Translation -/

/-- The result of a table walk or a translation (R377). -/
inductive Xlat where
  | ok (pa : Nat)
  | bad (code : Nat)
  deriving DecidableEq, Repr

/-- The result of a walk: a translation with the leaf's page, or the code it ends with; PAGE_MISS for a translation miss. -/
inductive WalkResult where
  | leaf (size frame : Nat) (wr rmt : Bool)
  | stop (code : Nat)
  deriving DecidableEq, Repr

/-- The virtual address bits that index level `l` (R375). -/
def walkIndex (l va : Nat) : Nat :=
  match l with
  | 0 => nbf va 47 39 | 1 => nbf va 38 30 | 2 => nbf va 29 21 | _ => nbf va 20 16

/-- The walk from level `l` with the table at `table` (R376, R377); `fuel` levels remain. -/
def walkFrom (s : State) (va : Nat) : Nat → Nat → Nat → WalkResult
  | 0, _, _ => .stop FC.memPteBad
  | fuel + 1, l, table =>
    if usableEnd s ≤ table then .stop FC.memPteBad
    else
      let e := leNat (s.bytes (table + 8 * walkIndex l va) 8)
      let leaf := e.testBit 1
      let frame := nbf e 47 12 * 4096
      if !e.testBit 0 then .stop FC.pageMiss
      else if nbf e 55 48 ≠ 0 ∨ nbf e 11 5 ≠ 0 ∨ e.testBit 2 then .stop FC.memPteBad
      else if (leaf ∧ l < 2) ∨ (¬ leaf ∧ l = 3) then .stop FC.memPteBad
      else if leaf then
        let size := if l = 2 then 21 else 16
        if frame % 2 ^ size ≠ 0 then .stop FC.memPteBad
        else match regionOf s frame with
          | .csr | .nowhere => .stop FC.memAddrBad
          | _ => .leaf size frame (e.testBit 3) (e.testBit 4)
      else walkFrom s va fuel (l + 1) frame

/-- The table entries that a walk from level `l` reads (R376). -/
def walkReads (s : State) (va : Nat) : Nat → Nat → Nat → List Nat
  | 0, _, _ => []
  | fuel + 1, l, table =>
    if usableEnd s ≤ table then []
    else
      let at' := table + 8 * walkIndex l va
      let e := leNat (s.bytes at' 8)
      if e.testBit 0 && !e.testBit 1 && l != 3 && nbf e 55 48 == 0 && nbf e 11 5 == 0 && !e.testBit 2 then at' :: walkReads s va fuel (l + 1) (nbf e 47 12 * 4096) else [at']

/-- The Larder accesses of a walk's table reads (R391). -/
def walkTouch (s : State) (walker space va : Nat) : State :=
  let cfg := s.reg (Csr.mmuAsCfg space)
  if bit cfg 63 then (walkReads s va 4 0 (bf cfg 47 12 * 4096)).foldl (fun s' a => larderTouch s' walker a 8 false) s else s

/-- A walk of an address space (R377). -/
def walk (s : State) (space va : Nat) : WalkResult :=
  let cfg := s.reg (Csr.mmuAsCfg space)
  if !bit cfg 63 then .stop FC.memAsOff
  else walkFrom s va 4 0 (bf cfg 47 12 * 4096)

/-- The set of a translation cache of `2^k` sets that holds a page (R379). -/
def tSet (k space va size : Nat) : Nat := ((va >>> size) ^^^ (space <<< 2)) % 2 ^ k

/-- The way of a set that holds the translation of an address for a page size. -/
def tFindSize (k : Nat) (c : TCache) (space va size : Nat) : Option (Nat × TEntry) :=
  let set := tSet k space va size
  (List.range 8).findSome? (fun w =>
    let e := Tab.get TEntry.empty c.entries (set * 8 + w)
    if e.valid && e.space == space && e.size == size && e.page == va >>> size then some (set * 8 + w, e) else none)

/-- The cache entry that translates an address (R379): both sets are probed. -/
def tFind (k : Nat) (c : TCache) (space va : Nat) : Option (Nat × TEntry) :=
  match tFindSize k c space va 16 with
  | some r => some r
  | none => tFindSize k c space va 21

/-- A cache after a use of entry `at`. -/
def tTouch (c : TCache) (i : Nat) : TCache :=
  { c with plru := Tab.put 0 c.plru (i / 8) (plruTouch 3 1 (i % 8) (Tab.get 0 c.plru (i / 8))) }

/-- The entry that a filled translation takes: a free way of its set, or the one that the tree bits point to (R379). -/
def tSlot (k : Nat) (c : TCache) (space va size : Nat) : Nat :=
  let set := tSet k space va size
  set * 8 + (match (List.range 8).find? (fun w => !(Tab.get TEntry.empty c.entries (set * 8 + w)).valid) with
    | some w => w
    | none => plruVictim 8 3 1 0 (Tab.get 0 c.plru set))

/-- A cache with a translation filled in (R379). -/
def tFill (k : Nat) (c : TCache) (space va size frame : Nat) (wr rmt : Bool) : TCache :=
  let i := tSlot k c space va size
  tTouch { c with entries := Tab.put TEntry.empty c.entries i ⟨true, space, va >>> size, size, frame, wr, rmt⟩ } i

/-- The sets of a walker's cache, as a power of two: 256 for a core, 32 for the module's (R379). -/
def tBits (walker : Nat) : Nat := if walker < 4 then 8 else 5

/-- The cache of a walker: core 0 to 3, or the module translation cache. -/
def tCacheOf (s : State) (walker : Nat) : TCache := if walker < 4 then (s.core walker).tcache else s.mmu.cache

/-- The cache of a walker replaced. -/
def setTCache (s : State) (walker : Nat) (c : TCache) : State :=
  if walker < 4 then s.modCore walker (fun k => { k with tcache := c }) else s.setMmu { s.mmu with cache := c }

/-- The permission a page needs (R377, R378): WR for a tray's write, RMT for an incoming one. -/
def permitted (walker : Nat) (write wr rmt : Bool) : Bool := !write || (if walker < 4 then wr else rmt)

/-- An entry written takes an armed injection into the translation caches (R581). -/
def plantEntry (s : State) (walker i : Nat) : State :=
  let r := s.reg Csr.errInj
  if bit r 63 && bf r 3 0 == 10 && (bf r 7 6 == walker || decide (4 ≤ walker)) then
    (s.setFld Csr.errInj 63 63 0).setPlanted (s.planted ++ [⟨10, 4096 * walker + i, bit r 8⟩])
  else s

/-- Whether an entry that is read holds an injected error. -/
def entryBad (s : State) (walker i : Nat) : Bool := s.planted.any (fun p => p.index == 10 && p.place == 4096 * walker + i)

/-- An entry with an error is discarded and counted; the address is walked again (R572, R573). -/
def dropEntry (s : State) (walker i : Nat) : State :=
  let c := tCacheOf s walker
  let s1 := (s.count (Csr.errEccCe 10) 1).setPlanted (s.planted.filter (fun p => !(p.index == 10 && p.place == 4096 * walker + i)))
  setTCache s1 walker { c with entries := Tab.put TEntry.empty c.entries i TEntry.empty }

/-- Table walk with its counters (R379): a translation fills the walker's cache, a miss or a fault does not. -/
def walkAndFill (s : State) (walker space va : Nat) (write : Bool) : State × Xlat :=
  let s1 := (walkTouch s walker space va).count Csr.mmuWalks 1
  match walk s1 space va with
  | .stop code => (if code = FC.pageMiss then s1.count Csr.mmuMisses 1 else s1, .bad code)
  | .leaf size frame wr rmt =>
    if permitted walker write wr rmt then
      (plantEntry (setTCache s1 walker (tFill (tBits walker) (tCacheOf s1 walker) space va size frame wr rmt)) walker
        (tSlot (tBits walker) (tCacheOf s1 walker) space va size), .ok (frame + va % 2 ^ size))
    else (s1, .bad FC.memPerm)

/-- Translation of a virtual address by a walker's cache or a walk (R375, R377 to R379). -/
def translate (s : State) (walker space : Nat) (va : Int) (write : Bool) : State × Xlat :=
  if va < 0 ∨ 2 ^ 48 ≤ va then (s, .bad FC.memAddrBad)
  else
    let a := va.toNat
    match tFind (tBits walker) (tCacheOf s walker) space a with
    | some (i, e) =>
      if entryBad s walker i then walkAndFill (dropEntry s walker i) walker space a write
      else
        let s1 := setTCache s walker (tTouch (tCacheOf s walker) i)
        if permitted walker write e.wr e.rmt then (s1, .ok (e.frame + a % 2 ^ e.size)) else (s1, .bad FC.memPerm)
    | none => walkAndFill s walker space a write

/-- Whether the host connection serves `n` bytes at an offset of host memory (R382, R438). -/
def hostServes (s : State) (off n : Nat) : Bool :=
  bit (s.reg Csr.hcCtl) 63 && decide (off + n ≤ s.fld Csr.hcSize 46 0) &&
    decide (s.fld (Csr.qpCfg (s.fld Csr.hcCtl 9 0)) 63 62 = 1)

/-- What a memory access may end in: the code, the virtual address, and the physical address of a failing line or row. -/
structure MemErr where
  code : Nat
  va : Nat
  pa : Nat := 0
  deriving DecidableEq, Repr

/-- A step of a sequence that may fail: `f` after `r`. -/
def andThen {α β : Type} (r : State × Except MemErr α) (f : State → α → State × Except MemErr β) : State × Except MemErr β :=
  match r with
  | (s, .error e) => (s, .error e)
  | (s, .ok a) => f s a

/-- A list of steps, stopped by the first that fails. -/
def forEach {α : Type} (f : State → α → State × Except MemErr Unit) : List α → State → State × Except MemErr Unit
  | [], s => (s, .ok ())
  | x :: t, s => andThen (f s x) (fun s1 _ => forEach f t s1)

/-- The check of a physical access of `n` bytes (R373, R382, R397, R574). -/
def physCheck (s : State) (pa n : Nat) (write : Bool) : Option (Nat × Nat) :=
  match regionOf s pa with
  | .csr | .nowhere => some (FC.memAddrBad, 0)
  | .host => if hostServes s (pa - 2 ^ 47) n then none else some (FC.memHostFail, 0)
  | _ => if write then none else poisonAt s pa n

/-- The pieces of `n` bytes from a virtual address that lie in one 64 KiB page each. -/
def pagePieces (va : Int) (n : Nat) : List (Int × Nat) :=
  if n = 0 then []
  else
    let first := va / 65536
    let last := (va + n - 1) / 65536
    (List.range ((last - first).toNat + 1)).map (fun (i : Nat) =>
      let lo := if i = 0 then va else (first + i) * 65536
      let hi := if (first + i : Int) = last then va + n else (first + i + 1) * 65536
      (lo, (hi - lo).toNat))

/-- Every piece of an access translated and checked, in ascending order. -/
def translateAll (s : State) (walker space : Nat) (write : Bool) :
    List (Int × Nat) → State × Except MemErr (List (Nat × Nat))
  | [] => (s, .ok [])
  | (va, n) :: t =>
    match translate s walker space va write with
    | (s1, .bad code) => (s1, .error ⟨code, va.toNat, 0⟩)
    | (s0, .ok pa) =>
      let s1 := if write then s0 else noteRead s0 pa n
      match physCheck s1 pa n write with
      | some (code, at') => (s1, .error ⟨code, va.toNat, at'⟩)
      | none =>
        match translateAll s1 walker space write t with
        | (s2, .error e) => (s2, .error e)
        | (s2, .ok l) => (s2, .ok ((pa, n) :: l))

/-- `n` bytes read from a virtual address. -/
def readV (s : State) (walker space : Nat) (va : Int) (n : Nat) : State × Except MemErr (List Byte) :=
  match translateAll s walker space false (pagePieces va n) with
  | (s1, .error e) => (s1, .error e)
  | (s1, .ok ps) =>
    (ps.foldl (fun s' p => larderTouch s' walker p.1 p.2 false) s1, .ok (ps.flatMap (fun p => s1.bytes p.1 p.2)))

/-- Bytes written piece by piece at physical addresses. -/
def writePieces (s : State) (walker : Nat) : List (Nat × Nat) → List Byte → State
  | [], _ => s
  | (pa, n) :: t, bs => writePieces ((larderTouch s walker pa n true).write pa (bs.take n)) walker t (bs.drop n)

/-- Bytes written at a virtual address; nothing is written when a piece of the access fails. -/
def writeV (s : State) (walker space : Nat) (va : Int) (bs : List Byte) : State × Except MemErr Unit :=
  match translateAll s walker space true (pagePieces va bs.length) with
  | (s1, .error e) => (s1, .error e)
  | (s1, .ok ps) => (writePieces s1 walker ps bs, .ok ())

/-- Bytes that may have taken another value or kept theirs: each keeps its old value or takes another, undetermined one. -/
def blurBytes (s : State) (pa n : Nat) : State :=
  (List.range n).foldl (fun s2 k =>
    (s2.setMem (Tab.put 0 s2.mem (pa + k) (if (Config.freeByte s2.free).getLsbD 0 then Config.freeByte (s2.free + 1) else s2.byte (pa + k)))).setFree (s2.free + 2)) s

/-- `n` bytes of a core's Bench, whose offsets wrap at 256 MiB; a poisoned row faults the reader (R322, R574). -/
def benchRead (s : State) (c off n : Nat) : Except MemErr (List Byte) :=
  let as := (List.range n).map (fun i => benchAddr c (off + i))
  match as.find? (fun a => Tab.get false s.benchPoison (a / 64)) with
  | some a => .error ⟨FC.benchUncorrectable, 0, a / 64 * 64⟩
  | none => .ok (as.map s.byte)

/-- `n` bytes of a core's Bench, whatever their poison. -/
def benchPeek (s : State) (c off n : Nat) : List Byte := (List.range n).map (fun i => s.byte (benchAddr c (off + i)))

/-- Bytes written into a core's Bench. -/
def benchWrite (s : State) (c off : Nat) (bs : List Byte) : State :=
  let o := off % 0x10000000
  if o + bs.length ≤ 0x10000000 then s.write (benchAddr c o) bs
  else
    let k := 0x10000000 - o
    (s.write (benchAddr c o) (bs.take k)).write (benchAddr c 0) (bs.drop k)

end Sys2Proof.Machine
end

