-- ==== Sys2Proof/Machine/Tasks.lean ====
section
/-! DEFINITION. Tasks: completion records and the error log, ending a task by a fault, pausing it, discarding a tray's work, tokens,
barriers, and the release of an instruction (R26, R27, R82 to R88, R115 to R130, R357 to R360, R562 to R568). -/

namespace Sys2Proof.Machine

/-! ### The instruction word's header (R78 table) -/

namespace W
/-- OPC -/
def opc (w : IWord) : Nat := bf w 7 0
/-- CLASS -/
def cls (w : IWord) : Nat := bf w 11 8
/-- GEN -/
def gen (w : IWord) : Nat := bf w 15 12
/-- MINOR -/
def minor (w : IWord) : Nat := bf w 19 16
/-- ACC -/
def acc (w : IWord) : Bool := bit w 24
/-- FENCE -/
def fence (w : IWord) : Bool := bit w 25
/-- SATTRAP -/
def satTrap (w : IWord) : Bool := bit w 26
/-- SR -/
def sr (w : IWord) : Bool := bit w 27
/-- COMP -/
def comp (w : IWord) : Bool := bit w 28
/-- TRANS -/
def trans (w : IWord) : Bool := bit w 29
/-- WAIT -/
def wait (w : IWord) : Nat := bf w 39 32
/-- SIG -/
def sig (w : IWord) : Nat := bf w 47 40
/-- TAG -/
def tag (w : IWord) : Nat := bf w 63 48
end W

/-! ### The error log (R568, R582) -/

/-- An entry written to the error log: the newest 32 are kept, and ERR_LOG_SEQ counts. -/
def logError (s : State) (code scope queue tray index aux addr : Nat) : State :=
  let n := s.fld Csr.errLogNext 31 0
  let l := s.errLog ++ [⟨n, code, scope, queue, tray, index, aux, addr⟩]
  (s.setFld Csr.errLogNext 31 0 (n + 1)).setErrLog (l.drop (l.length - 32))

/-! ### Where an instruction stands (R235, R567) -/

/-- Row blocks of a tile that exist. -/
def OTile.blocks (o : OTile) : Nat := cdiv o.rows 4

/-- The highest row block numbered as R235 does, such that it and every lower one has committed. -/
def rowBlockFrom : Nat → List OTile → Nat → Nat
  | _, [], acc => acc
  | n, o :: t, acc =>
    let acc' := if o.committed = 0 then acc else 64 * n + o.committed - 1
    if o.committed < o.blocks then acc' else rowBlockFrom (n + 1) t acc'

/-- ROW_BLOCK of an instruction (R235, R425). -/
def Inst.rowBlock (i : Inst) : Nat :=
  match i.mn with
  | .upd => if i.upd.next = 0 then 0xFFFFFFFF else i.upd.next - 1
  | _ => rowBlockFrom 0 i.tiles 0xFFFFFFFF

/-- PASS_INDEX of an instruction (R235, R425). -/
def Inst.passIndex (i : Inst) : Nat := i.lastPass

/-- TRY_INSTR: the index of the task's oldest instruction not yet completed (R133). DESIGN CHOICE, log entry 49: with none uncompleted, the index of the next instruction to issue, or 0 in
an IDLE tray. -/
def Tray.tryInstr (r : Tray) : Nat :=
  match r.insts with
  | [] => if r.state = .idle then 0 else r.pc
  | i :: _ => i.index

/-- The address space of a tray's queue (R81, R459). -/
def spaceOf (s : State) (t : Nat) : Nat := s.fld (Csr.hqCfg (s.tray t).queue) 55 50

/-- ADDR of a record: the address and its space (R126). -/
def recAddr (s : State) (t va : Nat) : Nat := va % 2 ^ 48 + spaceOf s t * 2 ^ 48

/-! ### Discarding a tray's work (R86, R154, R209, R254, R408) -/

/-- An array without a tray's steps, tiles, tags and passes (R206, R209). -/
def MatArray.drop (t : Nat) (a : MatArray) : MatArray :=
  { a with queue := a.queue.filter (fun x => x.tray != t)
           buf := a.buf.filter (fun x => x.key.tray != t)
           resident := a.resident.map (fun o => o.bind (fun x => if x.key.tray = t then none else some x))
           pass := a.pass.map (fun o => o.bind (fun x => if x.step.tray = t then none else some x)) }

/-- The Sieve's steps: queued, current, or past their boundary with groups still at work on them (R146). -/
def Sieve.steps (v : Sieve) : List Step :=
  v.queue ++ (v.cur.toList.map (fun x => x.step)) ++ v.groups.flatMap (fun g => g.work.map (fun x => x.step))

/-- A Sieve without the planes that no queued or running step refers to (R139). -/
def Sieve.trim (v : Sieve) : Sieve := { v with planes := v.planes.filter (fun p => v.steps.any (fun x => x.plane == some p.key)) }

/-- A Sieve without a tray's steps, slots, products and plane references (R154). -/
def Sieve.drop (t : Nat) (v : Sieve) : Sieve :=
  let mine := fun (j : Nat) => (Vec.get v.slots j none).any (fun x => x.tray == t)
  let slots := v.slots.map (fun o => o.bind (fun x => if x.tray = t then none else some x))
  Sieve.trim
    { v with queue := v.queue.filter (fun x => x.tray != t)
             slots := slots
             closed := v.closed.filter (fun i => (Vec.get slots i none).isSome)
             cur := v.cur.bind (fun x => if x.step.tray = t then none else some x)
             groups := (v.groups.map (fun g => { g with work := g.work.filter (fun x => x.step.tray != t) })).filter (fun g => !g.work.isEmpty)
             lanes := (v.lanes.map (fun q => (q.1, q.2.filter (fun p => !mine p.slot)))).filter (fun q => !q.2.isEmpty) }

/-- A Levain without a tray's steps; its bitmaps go too when its task ends, and are kept while it is PAUSED (R185, R187). -/
def Levain.drop (t : Nat) (ends : Bool) (v : Levain) : Levain :=
  { v with queue := v.queue.filter (fun x => x.tray != t)
           maps := v.maps.filter (fun m => m.tray != t || !ends) }

/-- A vector engine without a tray's steps; `lost` gives the slots whose program loads are discarded with the task, and their marks are cleared (R283). -/
def VecEngine.drop (t : Nat) (lost : List Nat) (v : VecEngine) : VecEngine :=
  { v with queue := v.queue.filter (fun x => x.tray != t)
           marks := lost.foldl (fun m j => Tab.put false m (16 * (t % 8) + j) false) v.marks }

/-- A Peel without a tray's arrivals, steps and waits (R254). -/
def Peel.drop (t : Nat) (p : Peel) : Peel :=
  { p with ports := p.ports.map (fun l => l.filter (fun x => x.tray != t))
           stats := p.stats.filter (fun x => x.tray != t)
           updates := p.updates.filter (fun x => x.tray != t)
           groupWait := p.groupWait.filter (fun x => x.1 != t)
           coucheWait := p.coucheWait.filter (fun x => x.1 != t) }

/-- A channel with the requests that `p` keeps, and their transactions. -/
def Channel.keep (p : ChReq → Bool) (h : Channel) : Channel :=
  let active := h.active.map (fun o => o.bind (fun x => if p x then some x else none))
  { waiting := h.waiting.filter p, active := active, txns := h.txns.filter (fun x => active.toList.any (fun o => o.any (fun r => r.id + 1 == x.2.owner))) }

/-- A channel without a tray's requests. -/
def Channel.drop (t : Nat) (h : Channel) : Channel := h.keep (fun x => x.tray != t)

/-- A Proofer without a tray's requests, streams and spill space (R403). -/
def Proofer.drop (t : Nat) (p : Proofer) : Proofer :=
  { channels := p.channels.map (Channel.drop t)
    streams := p.streams.filter (fun x => x.tray != t)
    spillWait := p.spillWait.filter (fun x => x.tray != t)
    spillAlloc := p.spillAlloc.filter (fun x => x.tray != t) }

/-- The transfers of a tray that hold descriptors. -/
def activeOf (s : State) (t : Nat) : List ChReq :=
  (s.core (coreOf t)).proofer.channels.toList.flatMap (fun h => h.active.toList.filterMap (fun o => o.bind (fun x => if x.tray = t then some x else none)))

/-- An arbiter without a tray's requests (R408, R410). -/
def Arbiter.drop (t : Nat) (a : Arbiter) : Arbiter :=
  { a with queue := a.queue.filter (fun x => x.tray != some t)
           backlog := a.backlog.filter (fun x => x.tray != some t)
           heads := a.heads.filter (fun h => a.queue.any (fun x => x.requester == h.1 && x.tray != some t))
           holder := a.holder.bind (fun h => if h.1.tray = some t then none else some h) }

/-- Messages of a tray's ended task: they are sent to their end and their ACKs awaited, but no instruction waits for them (R483). -/
def Staon.disown (t : Nat) (f : Staon) : Staon :=
  let none' := fun (o : Option (Nat × Nat × Nat)) => o.bind (fun p => if p.1 = t then none else some p)
  { f with sent := f.sent.map (fun m => { m with owner := none' m.owner })
           kept := f.kept.map (fun m => { m with owner := none' m.owner }) }

/-- Every step, transfer, arrival and request of a tray discarded, with what only its task held. -/
def discardTray (s : State) (t : Nat) (ends : Bool) : State :=
  let loads := if ends then (s.tray t).insts.filterMap (fun i => if i.mn == .ldp && !i.done then some (bf i.word 199 196) else none) else []
  let ids := ((s.core (coreOf t)).proofer.channels.toList.flatMap (fun h =>
    h.active.toList.filterMap (fun o => o.bind (fun x => if x.tray = t then some x.id else none))))
  let s1 := s.modCore (coreOf t) (fun k =>
    { k with arrays := k.arrays.map (MatArray.drop t)
             sieve := k.sieve.drop t
             levain := k.levain.drop t ends
             vec := k.vec.drop t loads
             peel := k.peel.drop t
             proofer := k.proofer.drop t })
  ((s1.setMmu { s1.mmu with walks := s1.mmu.walks.filter (fun w => !ids.contains w.req) }).setArbs (s1.arbs.map (Arbiter.drop t))).setStaon (if ends then s1.staon.disown t else s1.staon)

/-! ### Ending and pausing a task -/

/-- What an instruction gives up when its task pauses or ends: the open-tile entries and the Couche space of its tiles and of a FAB.RED's slice (R237, R251, R254). A FAB.RED's members
send nothing again, so that what its slice had spilled is lost; `lost` keeps which contributions had been added by then. -/
def Inst.giveUp (i : Inst) : Inst :=
  { i with tiles := i.tiles.map (fun o => if o.done then o else { o with opened := false, couche := none }), red := { i.red with couche := none, lost := if i.red.couche.isSome then i.red.addedFrom else i.red.lost } }

/-- The queue's dispatch stops (R87). -/
def stopQueue (s : State) (q : Nat) : State := s.setFld (Csr.hqState q) 23 23 1

/-- A record put into a queue's order of writing (R129). -/
def addRec (s : State) (r : Rec) : State := s.modHq r.queue (fun q => { q with recs := q.recs ++ [r] })

/-- Whether a tray has a task that a fault can end (R566): faults while IDLE or in DRAIN are discarded. -/
def Tray.live (r : Tray) : Bool := r.state != .idle && r.state != .drain

/-- KIND 1 records of a tray that still wait for ring space, beside the others of its queue. -/
def endsWaiting (s : State) (t : Nat) : List Rec := (s.hq (s.tray t).queue).recs.filter (fun r => r.tray == t && r.kind == 1)

/-- The KIND 1 records of an ending task that still wait give place to its KIND 2 records (R566); members of a batch that have had theirs keep them. -/
def dropEnds (s : State) (t : Nat) : State :=
  let n := (endsWaiting s t).length
  let q := (s.tray t).queue
  if n = 0 then s
  else
    (s.modHq q (fun h => { h with recs := h.recs.filter (fun r => !(r.tray == t && r.kind == 1)) })).modTray t (fun x =>
      { x with kind := match x.kind with
          | .batch ms => .batch (ms.drop (ms.length - n))
          | k => k })

/-- A fault ends a tray's task (R86, R87, R566, R567): its work is discarded, its queue stops, the fault is logged with `logAux` and `logAddr` and the KIND 2 record
waits for the end of DRAIN. -/
def endTaskLog (s : State) (t code index pass rowBlk aux addr logAux logAddr : Nat) : State :=
  let r := s.tray t
  if !r.live then s
  else
    let rec' : Rec := { tag := 0, code := code, kind := 2, tray := t, queue := r.queue, zeroShape := false, statAny := false,
                        index := index, pass := pass, rowBlock := rowBlk, aux := aux, addr := addr, last := true }
    let s1 := s.modTray t (fun x =>
      { x with state := .drain, faulted := some rec', arming := none, endSig := 0, insts := x.insts.map Inst.giveUp, ahead := [], cancelled := activeOf s t
               lost := (s.core (coreOf t)).proofer.streams.filter (fun y => y.tray == t) })
    let s2 := dropEnds (discardTray s1 t true) t
    let s3 := (stopQueue s2 r.queue).count Csr.errTasksEnded 1
    logError s3 code 0 r.queue t index logAux logAddr

/-- A fault whose log entry repeats the record's AUX and ADDR (R582). -/
def endTask (s : State) (t code index pass rowBlk aux addr : Nat) : State :=
  endTaskLog s t code index pass rowBlk aux addr aux addr

/-- A fault at an instruction that has issued: PASS_INDEX, ROW_BLOCK and the statistics bit follow it (R567). -/
def faultInstLog (s : State) (t k code aux addr logAux logAddr : Nat) : State :=
  match s.inst t k with
  | some i =>
    let s1 := endTaskLog s t code i.index i.passIndex i.rowBlock aux addr logAux logAddr
    if (s.tray t).live then
      s1.modTray t (fun x => { x with faulted := x.faulted.map (fun f =>
        { f with tag := W.tag i.word, statAny := i.flags.statAny, zeroShape := i.zeroShape }) })
    else s1
  | none => s

/-- A fault at an instruction that has issued, logged as its record tells it. -/
def faultInst (s : State) (t k code aux addr : Nat) : State := faultInstLog s t k code aux addr aux addr

/-- A fault at issue: nothing has been written (R89, R567). -/
def faultIssue (s : State) (t index code aux addr : Nat) (w : IWord) : State :=
  let s1 := endTask s t code index 0 0xFFFFFFFF aux addr
  if (s.tray t).live then
    s1.modTray t (fun x => { x with faulted := x.faulted.map (fun f => { f with tag := W.tag w }) })
  else s1

/-- A PAGE_MISS pauses a tray (R357 to R360): a KIND 3 record for the instruction of that index, with the statistics bit of its tiles `stat` (R126), everything in flight discarded, the instructions
of the task kept as the cursor. A miss while the tray is PAUSED is discarded (R359). -/
def pauseTask (s : State) (t index pass rowBlk tag va : Nat) (stat : Bool) : State :=
  let r := s.tray t
  if !r.live || r.state == .paused then s
  else
    let s1 := s.modTray t (fun x => { x with state := .paused, insts := x.insts.map Inst.giveUp, ahead := [], raPc := x.pc, raLoops := x.loops, raSeq := x.nextSeq })
    let s2 := discardTray s1 t false
    let s3 := addRec s2 { tag := tag, code := FC.pageMiss, kind := 3, tray := t, queue := r.queue, zeroShape := false, statAny := stat,
                          index := index, pass := pass, rowBlock := rowBlk, aux := 0, addr := recAddr s t va, last := false }
    (logError s3 FC.pageMiss 1 r.queue t index 0 (recAddr s t va)).count (Csr.prfPageMisses (coreOf t)) 1

/-- A memory error of an issued instruction's access: a miss pauses the task, any other result ends it (R357, R377). -/
def memFault (s : State) (t k : Nat) (e : MemErr) : State :=
  match s.inst t k with
  | none => s
  | some i =>
    if e.code = FC.pageMiss then pauseTask s t i.index i.passIndex i.rowBlock (W.tag i.word) e.va i.flags.statAny
    else if e.code = FC.eccUncorrectable then faultInstLog s t k e.code 0 (recAddr s t e.va) 1 e.pa
    else if e.code = FC.benchUncorrectable then faultInstLog s t k e.code 0 (if e.va = 0 then 0 else recAddr s t e.va) 0 e.pa
    else if 0x0400 ≤ e.code ∧ e.va = 0 then faultInst s t k e.code 0 0
    else faultInst s t k e.code 0 (recAddr s t e.va)

/-! ### Tokens (R26, R27, R84, R116 to R118) -/

/-- Counters named by `mask` incremented by one; a counter at 65,535 stays there (R117). Answers whether one would have passed it. -/
def bumpTokens (tk : Vector Nat 8) (mask : Nat) : Vector Nat 8 × Bool :=
  (onesOf 8 mask).foldl (fun (p : Vector Nat 8 × Bool) j =>
    let v := Vec.get p.1 j 0
    if 65535 ≤ v then (p.1, true) else (Vec.put p.1 j (v + 1), p.2)) (tk, false)

/-- Whether every counter named by `mask` is at least `n`. -/
def tokensMet (tk : Vector Nat 8) (mask n : Nat) : Bool := (onesOf 8 mask).all (fun j => decide (n ≤ Vec.get tk j 0))

/-- Every counter named by `mask` decremented by `n`. -/
def takeTokens (tk : Vector Nat 8) (mask n : Nat) : Vector Nat 8 :=
  (onesOf 8 mask).foldl (fun v j => Vec.put v j (Vec.get v j 0 - n)) tk

/-! ### Barriers (R120 to R122) -/

/-- Every waiting SYNC.BAR of a barrier faults SYNC_BAR_BROKEN, and the barrier becomes free. -/
def breakBarrier (s : State) (b : Nat) : State :=
  let x := s.barrier b
  x.waiters.foldl (fun s' p => faultInst s' p.1 p.2 FC.syncBarBroken 0 0) (s.setBarrier b .free)

/-- A SYNC.BAR arrives at its barrier: it opens it, completes it, waits at it, or breaks it (R120, R121). -/
def arriveBarrier (s : State) (t k b mask : Nat) : State :=
  let x := s.barrier b
  let bits := x.arrived ||| 2 ^ t
  let joined : Barrier := { mask := some mask, arrived := bits, waiters := x.waiters ++ [(t, k)] }
  let broken := match x.mask with
    | none => false
    | some m => m != mask || x.arrived.testBit t
  if broken then breakBarrier (s.setBarrier b { x with waiters := x.waiters ++ [(t, k)] }) b
  else if bits = mask then
    joined.waiters.foldl (fun s' p => s'.modInst p.1 p.2 (fun i => { i with done := true })) (s.setBarrier b .free)
  else s.setBarrier b joined

/-- A task ends: every open barrier it was to join and had not reached breaks (R120). -/
def endBarriers (s : State) (t : Nat) : State :=
  (List.range 16).foldl (fun s' b =>
    let x := s'.barrier b
    match x.mask with
    | some m => if m.testBit t && !x.arrived.testBit t then breakBarrier s' b
                else s'.setBarrier b { x with waiters := x.waiters.filter (fun p => p.1 != t) }
    | none => s') s

end Sys2Proof.Machine
end

