-- ==== Sys2Proof/Machine/Operands.lean ====
section
/-! DEFINITION. Every operand form: opcodes and the header bits they honour, the fields each opcode uses, descriptors, and the issue checks
of R89 and R113 with the checks of the engine chapters (R91 to R114, R167, R192, R207, R217, R233, R255, R269, R284, R292 to R295, R305, R346 to R350, R413,
R479). -/

namespace Sys2Proof.Machine

/-- The opcode of a CLASS and OPC (R91). -/
def mnOf : Nat → Nat → Option Mn
  | 0, 0 => some .nop | 0, 1 => some .loop | 0, 2 => some .endTask | 0, 3 => some .setvl | 0, 4 => some .cfg
  | 1, 0 => some .ld | 1, 1 => some .st | 1, 2 => some .gather | 1, 3 => some .scatter | 1, 4 => some .remote | 1, 5 => some .pref
  | 2, 0 => some .mm | 2, 1 => some .mms | 2, 2 => some .ldw
  | 3, 0 => some .int | 3, 1 => some .sct | 3, 2 => some .exp | 3, 3 => some .cmp | 3, 4 => some .cen
  | 4, 0 => some .ldp | 4, 1 => some .run | 4, 2 => some .cpr | 4, 3 => some .exd | 4, 4 => some .prm | 4, 5 => some .red
  | 5, 0 => some .pcfg | 5, 1 => some .stat | 5, 2 => some .upd
  | 6, 0 => some .pred | 6, 1 => some .aud
  | 7, 0 => some .wait | 7, 1 => some .sig | 7, 2 => some .bar
  | 7, 0x10 => some .fsend | 7, 0x11 => some .fmcast | 7, 0x12 => some .fred
  | _, _ => none

/-- The opcode a word designates (R91). -/
def mnOfWord (w : IWord) : Option Mn := mnOf (W.cls w) (W.opc w)

namespace Mn

/-- The products of layout T: MXM.MM, MXM.MMS, SPX.INT and SPX.SCT. -/
def isProduct : Mn → Bool
  | .mm | .mms | .int | .sct => true
  | _ => false

/-- The opcodes of layout V. -/
def isV : Mn → Bool
  | .exp | .cmp | .cen | .ldp | .run | .cpr | .exd | .prm | .red | .stat => true
  | _ => false

/-- The opcodes of layout X. -/
def isX : Mn → Bool
  | .ld | .st | .gather | .scatter | .remote | .pref => true
  | _ => false

/-- The FAB opcodes. -/
def isFab : Mn → Bool
  | .fsend | .fmcast | .fred => true
  | _ => false

/-- Whether the opcode honours ACC (R91). -/
def honoursAcc (m : Mn) : Bool := m.isProduct || m == .red
/-- Whether the opcode honours SATTRAP and SR (R91). -/
def honoursSr (m : Mn) : Bool :=
  m.isProduct || (m.isV && m != .cen && m != .ldp) || m == .gather || m == .upd || m == .fred
/-- Whether the opcode honours COMP (R91). -/
def honoursComp (m : Mn) : Bool := m.isProduct || m == .red || m == .stat || m == .fred
/-- Whether the opcode honours TRANS (R91). -/
def honoursTrans (m : Mn) : Bool := m == .mm || m == .mms || m == .ldw

end Mn

/-! ### Operand fields (R94 to R109) -/

namespace W
/-- DST -/
def dst (w : IWord) : Nat := bf w 71 64
/-- SRCA, SRC -/
def srca (w : IWord) : Nat := bf w 79 72
/-- SRCB, IDX -/
def srcb (w : IWord) : Nat := bf w 87 80
/-- SRCC -/
def srcc (w : IWord) : Nat := bf w 95 88
/-- M, ROWS, COUNT -/
def m (w : IWord) : Nat := bf w 127 96
/-- K of layout T -/
def k (w : IWord) : Nat := bf w 151 128
/-- N of layout T -/
def nT (w : IWord) : Nat := bf w 175 152
/-- ROW_OFF of layout T -/
def rowOffT (w : IWord) : Nat := bf w 207 176
/-- COL_OFF -/
def colOff (w : IWord) : Nat := bf w 231 208
/-- PACK -/
def pack (w : IWord) : Nat := bf w 236 235
/-- ARR -/
def arr (w : IWord) : Nat := bf w 238 237
/-- ENG -/
def eng (w : IWord) : Nat := bf w 240 239
/-- EPI -/
def epi (w : IWord) : Nat := bf w 243 241
/-- N of layout V -/
def nV (w : IWord) : Nat := bf w 159 128
/-- ROW_OFF of layout V -/
def rowOffV (w : IWord) : Nat := bf w 191 160
/-- PRUNE -/
def prune (w : IWord) : Bool := bit w 195
/-- PROG -/
def prog (w : IWord) : Nat := bf w 199 196
/-- REDOP -/
def redop (w : IWord) : Nat := bf w 203 200
/-- MASKD -/
def maskd (w : IWord) : Nat := bf w 211 204
/-- MASK_EN -/
def maskEn (w : IWord) : Bool := bit w 212
/-- ZMASK -/
def zmask (w : IWord) : Bool := bit w 213
/-- SRC_ROW -/
def srcRow (w : IWord) : Nat := bf w 159 128
/-- DST_ROW -/
def dstRow (w : IWord) : Nat := bf w 191 160
/-- POOL -/
def pool (w : IWord) : Nat := bf w 194 192
/-- BAG -/
def bag (w : IWord) : Nat := bf w 215 200
/-- FADDR of XFER.REMOTE -/
def faddrX (w : IWord) : Nat := bf w 231 216
/-- SRC_OFF -/
def srcOff (w : IWord) : Nat := bf w 159 128
/-- FADDR of FAB.SEND -/
def faddrF (w : IWord) : Nat := bf w 175 160
/-- MGROUP -/
def mgroup (w : IWord) : Nat := bf w 185 176
/-- RTRAY -/
def rtray (w : IWord) : Nat := bf w 196 192
/-- RTOK -/
def rtok (w : IWord) : Nat := bf w 199 197
/-- RSIG_EN -/
def rsigEn (w : IWord) : Bool := bit w 200
/-- RMODE, by layout (R92); RNE where a layout has none. -/
def rmode (mn : Mn) (w : IWord) : Nat :=
  if mn.isProduct then bf w 234 232
  else if mn.isV then bf w 194 192
  else if mn = .gather then bf w 197 195
  else if mn = .upd then bf w 221 219
  else 0
/-- A signed 48-bit stride (R104). -/
def sstride (w : IWord) (hi lo : Nat) : Int := sext 48 (bf w hi lo)
end W

/-- The operand bits that an opcode uses (R94): pairs of high and low bit. Every other operand bit is reserved. -/
def usedBits (mn : Mn) (w : IWord) : List (Nat × Nat) :=
  let mask : List (Nat × Nat) := if W.maskEn w then [(211, 204)] else []
  let zmask : List (Nat × Nat) := if W.maskEn w then [(213, 213)] else []
  let v : List (Nat × Nat) := [(127, 96), (159, 128), (191, 160)]
  match mn with
  | .nop | .endTask => []
  | .loop =>
    [(127, 96), (139, 128), (140, 140), (141, 141)] ++
      (if bit w 140 then [(151, 144), (207, 160)] else []) ++ (if bit w 141 then [(159, 152), (255, 208)] else [])
  | .setvl => [(79, 64)]
  | .cfg => [(71, 64), (127, 96)] ++ (if bf w 71 64 = 0x10 then [(143, 128)] else if bf w 71 64 < 0x10 then [] else [(159, 128)])
  | .ld | .st => [(71, 64), (79, 72)] ++ v
  | .gather => [(71, 64), (79, 72), (87, 80), (127, 96), (191, 160), (194, 192)] ++ (if W.pool w ≠ 0 then [(197, 195), (215, 200)] else [])
  | .scatter => [(71, 64), (79, 72), (87, 80), (127, 96), (159, 128)]
  | .remote => [(71, 64), (79, 72)] ++ v ++ [(231, 216)]
  | .pref => [(79, 72), (127, 96), (159, 128)]
  | .mm | .mms | .int | .sct =>
    [(71, 64), (79, 72), (87, 80)] ++ (if W.epi w ≠ 0 then [(95, 88)] else []) ++ [(243, 96)]
  | .ldw => [(87, 80), (151, 128), (175, 152), (231, 208), (236, 235), (238, 237)]
  | .exp => [(71, 64), (79, 72)] ++ v ++ [(194, 192)]
  | .cmp => [(71, 64), (79, 72)] ++ v ++ [(194, 192), (195, 195)]
  | .cen => [(71, 64), (79, 72)] ++ v
  | .ldp => [(79, 72)] ++ (if W.nV w > 0 then [(87, 80)] else []) ++ v ++ [(199, 196)]
  | .run => [(71, 64), (79, 72), (87, 80), (95, 88)] ++ v ++ [(194, 192), (199, 196), (212, 212)] ++ mask ++ zmask
  | .cpr | .prm => [(71, 64), (79, 72), (87, 80)] ++ v ++ [(194, 192), (212, 212)] ++ mask ++ zmask
  | .exd => [(71, 64), (79, 72)] ++ v ++ [(194, 192), (212, 212)] ++ mask ++ zmask
  | .red | .stat => [(71, 64), (79, 72)] ++ v ++ [(194, 192), (203, 200), (212, 212)] ++ mask
  | .pcfg => [(67, 64), (74, 72), (127, 96)] ++ (if bf w 74 72 ≠ 0 then [(87, 80)] else [])
  | .upd => [(221, 64)]
  | .pred => [(87, 64), (127, 96), (138, 128), (151, 144), (183, 152)] ++ (if bit w 138 then [(95, 88)] else [])
  | .aud => [(69, 64)]
  | .wait => [(79, 64)]
  | .sig => [(69, 69)] ++ (if bit w 69 then [(68, 64), (79, 72)] else [])
  | .bar => [(67, 64), (127, 96)]
  | .fsend | .fmcast | .fred =>
    [(79, 64), (127, 96), (159, 128), (200, 200)] ++ (if mn = .fsend then [(175, 160)] else [(185, 176)]) ++
      (if W.rsigEn w then [(199, 192)] else [])

/-- Whether every bit of the word that its opcode leaves reserved is zero, and every header bit it does not honour (R89 step 4, R94, R54). -/
def reservedClear (mn : Mn) (w : IWord) : Bool :=
  let used := (usedBits mn w).foldl (fun a p => a ||| maskOf 256 p.1 p.2) (maskOf 256 63 0)
  decide (w &&& ~~~ used = 0#256) && decide (bf w 23 20 = 0) && decide (bf w 31 30 = 0) &&
    (mn.honoursAcc || !W.acc w) && (mn.honoursSr || (!W.satTrap w && !W.sr w)) && (mn.honoursComp || !W.comp w) &&
    (mn.honoursTrans || !W.trans w) && decide (W.rmode mn w < 4)

/-! ### Descriptors (R110 to R114) -/

/-- A descriptor's 64 bytes read as its fields (R110). -/
def Desc.ofBytes (bs : List Byte) : Desc :=
  let x := leNat bs
  { base := nbf x 47 0, fmt := nbf x 67 64, comp := nbf x 71 68, ndim := nbf x 74 72, bench := x.testBit 75, breg := nbf x 79 76,
    loBench := nbf x 82 80, loLarder := nbf x 85 83, loLpddr := nbf x 88 86, pad := nbf x 127 96,
    dims := (List.range 5).map (fun i => nbf x (159 + 32 * i) (128 + 32 * i)),
    strides := (List.range 4).map (fun i => nbf x (335 + 48 * i) (288 + 48 * i)),
    resv := nbf x 63 48 != 0 || nbf x 95 89 != 0 || nbf x 511 480 != 0 }

namespace Desc

/-- The format, when its code is one of R39. -/
def format (d : Desc) : Option Fmt := Fmt.ofCode d.fmt

/-- The format; INT8 stands where the code is reserved, which R113 refuses first. -/
def fm (d : Desc) : Fmt := (Fmt.ofCode d.fmt).getD .int8

/-- Columns of the matrix view (R112). -/
def cols (d : Desc) : Nat := d.dims.getD 0 0

/-- Rows of the matrix view (R112). -/
def rows (d : Desc) : Nat := (List.range d.ndim).foldl (fun acc i => if i = 0 then acc else acc * d.dims.getD i 0) 1

/-- Elements of the matrix view. -/
def elems (d : Desc) : Nat := d.rows * d.cols

/-- Segments of 256 elements of a row (R65, R52). -/
def segs (d : Desc) : Nat := cdiv d.cols 256

/-- The indices of a row in dimensions 1 to NDIM − 1 (R112: row-major, dimension 1 innermost). -/
def rowIndex (d : Desc) (r i : Nat) : Nat :=
  let below := (List.range i).foldl (fun acc j => if j = 0 then acc else acc * d.dims.getD j 1) 1
  r / below % d.dims.getD i 1

/-- Byte offset of a dense row from BASE. -/
def rowOffset (d : Desc) (r : Nat) : Nat :=
  (List.range d.ndim).foldl (fun acc i => if i = 0 then acc else acc + d.rowIndex r i * d.strides.getD (i - 1) 0) 0

/-- Bytes of a superblock of a dense MX tensor (R52). -/
def superBytes (d : Desc) : Nat := 8 + 32 * d.fm.bits

/-- Packed bytes of a dense row of `n` columns (R52, R53). -/
def rowBytesOf (d : Desc) (n : Nat) : Nat :=
  if d.fm.isMx then cdiv n 256 * d.superBytes else cdiv (n * d.fm.bits) 8

/-- V of R318: the packed size of 256 values, rounded up to 8 bytes. -/
def valBytes (d : Desc) : Nat := roundUp (32 * d.fm.bits) 8

/-- Metadata bytes of an N:M segment (R74). -/
def metaBytes (d : Desc) : Nat := if d.comp = 2 then 32 else 48

/-- Bytes of an N:M segment (R74). -/
def nmSegBytes (d : Desc) : Nat := (if d.fm.isMx then 8 else 0) + d.metaBytes + 16 * d.fm.bits

/-- Bytes of a row: packed for dense, whole segments for N:M (R52, R74). -/
def rowBytes (d : Desc) : Nat := if d.comp = 2 ∨ d.comp = 3 then d.segs * d.nmSegBytes else d.rowBytesOf d.cols

/-- The bound of a crumb in a slot (R318). -/
def crumbBound (d : Desc) : Nat := 264 + d.valBytes + (if d.fm.isMx then 8 else 0)

/-- The most a crumb written by the device takes (R163). -/
def crumbMax (d : Desc) : Nat := 136 + d.valBytes + (if d.fm.isMx then 8 else 0)

/-- Byte offset of the crumb area from BASE: the area begins at the first multiple of 64 behind the directory (R72). -/
def crumbArea (d : Desc) : Nat :=
  let past := (d.base % 64).toNat
  roundUp (past + 4 * (d.rows * d.segs)) 64 - past

end Desc

/-- The first check of R113: format and compression codes. -/
def descCheck1 (d : Desc) : Bool := decide (d.fmt < 14) && decide (d.comp < 4)

/-- The packed size of one index of the dimension below stride `i` (1-based): a row for the first, the rows between for the others. -/
def strideFloor (d : Desc) (i : Nat) : Nat :=
  (List.range i).foldl (fun acc j => if j = 0 then acc else acc * d.dims.getD j 1) (d.rowBytesOf d.cols)

/-- The second check of R113: dimensions, strides, loop orders and the Bench base. -/
def descCheck2 (d : Desc) : Bool :=
  decide (1 ≤ d.ndim) && decide (d.ndim ≤ 5) &&
  (List.range 5).all (fun i => decide (i < d.ndim) || decide (d.dims.getD i 0 = 0)) &&
  (List.range 4).all (fun i => decide (i + 1 < d.ndim) || decide (d.strides.getD i 0 = 0)) &&
  (List.range 4).all (fun i => decide (d.ndim ≤ i + 1) ||
    (if d.comp = 0 then decide (d.strides.getD i 0 % 8 = 0) && decide (strideFloor d (i + 1) ≤ d.strides.getD i 0)
     else decide (d.strides.getD i 0 = 0))) &&
  d.loBench != 7 && d.loLarder != 7 && d.loLpddr != 7 && (!d.bench || decide (d.base < 0x10000000))

/-- The third check of R113: reserved bits of the descriptor and of PAD (R62). -/
def descCheck3 (d : Desc) : Bool := !d.resv && !padReserved d.fm d.pad

/-! ### Operand roles: which descriptors an opcode names and what each must be -/

/-- The descriptor fields an instruction names, in role order. -/
def namedDescs (mn : Mn) (w : IWord) (red statd : Nat) : List (Role × Nat) :=
  let mask : List (Role × Nat) := if W.maskEn w then [(.maskd, W.maskd w)] else []
  match mn with
  | .loop => (if bit w 140 then [(.adv0, bf w 151 144)] else []) ++ (if bit w 141 then [(.adv1, bf w 159 152)] else [])
  | .pcfg => if bf w 74 72 ≠ 0 then [(.statd, W.srcb w)] else []
  | .ld | .st | .remote => [(.dst, W.dst w), (.srca, W.srca w)]
  | .gather | .scatter => [(.dst, W.dst w), (.srca, W.srca w), (.idx, W.srcb w)]
  | .pref => [(.srca, W.srca w)]
  | .mm | .mms | .int | .sct =>
    [(.dst, W.dst w), (.srca, W.srca w), (.srcb, W.srcb w)] ++ (if W.epi w ≠ 0 then [(.srcc, W.srcc w)] else []) ++
      (if red ≠ 0 then [(.statd, statd)] else [])
  | .ldw => [(.srcb, W.srcb w)]
  | .exp | .cmp | .cen => [(.dst, W.dst w), (.srca, W.srca w)]
  | .ldp => [(.srca, W.srca w)] ++ (if W.nV w > 0 then [(.srcb, W.srcb w)] else [])
  | .run => [(.dst, W.dst w), (.srca, W.srca w), (.srcb, W.srcb w), (.srcc, W.srcc w)] ++ mask
  | .cpr | .prm => [(.dst, W.dst w), (.srca, W.srca w), (.srcb, W.srcb w)] ++ mask
  | .exd | .red | .stat => [(.dst, W.dst w), (.srca, W.srca w)] ++ mask
  | .upd => [(.w, W.dst w), (.g, W.srca w), (.m1, W.srcb w)] ++ (if bf w 218 216 = 1 then [(.m2, W.srcc w)] else [])
  | .pred =>
    [(.dst, W.dst w), (.srca, W.srca w), (.srcb, W.srcb w), (.srcb1, W.srcb w + 1)] ++
      (if bit w 138 then [(.srcc, W.srcc w)] else [])
  | .fsend | .fmcast | .fred => [(.dst, W.dst w), (.srca, W.srca w)]
  | _ => []

/-- The inputs of a product are array inputs; those of a Sieve path are the same set (R39). -/
def arrayInput (d : Desc) : Bool := d.fm.isArrayInput

/-- A two-way check: what fails first, in the order of R113 steps 4 and 5 for one descriptor. -/
def okOr (b : Bool) : Bool := b

/-- INT32 with compression code 0. -/
def plainInt32 (d : Desc) : Bool := decide (d.fmt = 2) && decide (d.comp = 0)

/-- Step 4 of R113 with the format rules of the engine chapters: whether a descriptor's format and compression fit its role. -/
def roleFormat (mn : Mn) (w : IWord) (role : Role) (d : Desc) (dstD srcD : Desc) : Bool :=
  match mn, role with
  | .ld, .dst | .st, .dst | .scatter, .dst | .remote, .dst => decide (d.fmt = srcD.fmt) && decide (d.comp = srcD.comp)
  | .fsend, .dst | .fmcast, .dst => decide (d.fmt = srcD.fmt) && decide (d.comp = srcD.comp)
  | .gather, .dst =>
    if W.pool w = 0 then decide (d.fmt = srcD.fmt) && decide (d.comp = srcD.comp) else decide (d.comp = 0) && !d.fm.isMx
  | .gather, .srca => W.pool w = 0 || decide (d.comp ≤ 1)
  | .gather, .idx | .scatter, .idx => plainInt32 d
  | .mm, .srca | .int, .srca | .sct, .srca | .mms, .srca => arrayInput d && decide (d.comp ≤ 1)
  | .mm, .srcb | .int, .srcb | .sct, .srcb | .ldw, .srcb => arrayInput d
  | .mms, .srcb => arrayInput d && decide (2 ≤ d.comp)
  | .mm, .dst | .mms, .dst | .int, .dst | .sct, .dst => decide (d.comp = 0)
  | .mm, .srcc | .mms, .srcc | .int, .srcc | .sct, .srcc => decide (d.comp = 0)
  | .cen, .dst => plainInt32 d
  | .exp, .srca | .cmp, .srca | .cen, .srca => true
  | .ldp, .srca => plainInt32 d
  | .ldp, .srcb => decide (d.comp = 0) && (decide (d.fmt = 2) || decide (d.fmt = 7))
  | .run, .dst | .cpr, .dst | .exd, .dst | .prm, .dst =>
    decide (d.comp = 0) && !(d.fm.isMx && W.maskEn w && !W.zmask w)
  | .red, .dst => decide (d.comp = 0) && !d.fm.isMx && (W.redop w ≠ 5 || decide (d.fmt = 7))
  | .stat, .dst => decide (d.comp = 0) && decide (d.fmt = 7)
  | .cpr, .srcb | .prm, .srcb => plainInt32 d
  | _, .maskd => plainInt32 d
  | .run, _ | .cpr, .srca | .exd, .srca | .prm, .srca | .red, .srca | .stat, .srca => decide (d.comp ≤ 1)
  | .upd, .w | .upd, .m1 | .upd, .m2 => decide (d.comp = 0) && (decide (d.fmt = 5) || decide (d.fmt = 6))
  | .upd, .g => decide (d.comp = 0) && decide (d.fmt = 7) && d.bench
  | .pred, .srca => arrayInput d && decide (d.comp ≤ 1)
  | .pred, .srcb | .pred, .srcb1 => decide (d.comp = 0) && (decide (d.fmt = 0) || decide (d.fmt = 13))
  | .pred, .srcc | .pred, .dst => plainInt32 d
  | .fred, .dst | .fred, .srca => decide (d.comp = 0) && (role == .srca || decide (d.fmt = dstD.fmt))
  | .pcfg, .statd => true
  | _, .statd => decide (d.comp = 0)
  | _, _ => true

/-- The classes an input of VXP.RUN falls into (R269). -/
inductive InClass where
  | scalar | row | column | full
  deriving DecidableEq, Repr

/-- The class of an input's shape (R269). -/
def classOf (d : Desc) (rowOff m n : Nat) : Option InClass :=
  if d.rows = 1 ∧ d.cols = 1 then some .scalar
  else if d.rows = 1 ∧ d.cols = n then some .row
  else if rowOff + m ≤ d.rows ∧ d.cols = 1 then some .column
  else if rowOff + m ≤ d.rows ∧ d.cols = n then some .full
  else none

/-- Rows and columns that an instruction needs of a tensor. -/
def holds (d : Desc) (rows cols : Nat) : Bool := decide (rows ≤ d.rows) && decide (cols ≤ d.cols)

/-- Step 5 of R113 with the shape rules of the engine chapters. `n` is the number of members of a FAB.RED's group. -/
def roleShape (mn : Mn) (w : IWord) (red vl members : Nat) (role : Role) (d srcD : Desc) : Bool :=
  let ro := W.rowOffV w
  match mn, role with
  | .ld, .dst | .st, .dst | .remote, .dst =>
    decide (W.dstRow w + W.m w ≤ d.rows) && decide (d.cols = srcD.cols)
  | .ld, .srca | .st, .srca | .remote, .srca | .pref, .srca | .scatter, .srca => decide (W.srcRow w + W.m w ≤ d.rows)
  | .gather, .dst => decide (W.dstRow w + W.m w ≤ d.rows) && decide (d.cols = srcD.cols)
  | .scatter, .dst => decide (d.cols = srcD.cols)
  | .gather, .idx => decide (W.m w * (if W.pool w = 0 then 1 else W.bag w) ≤ d.elems)
  | .scatter, .idx => decide (W.m w ≤ d.elems)
  | .mm, .dst | .mms, .dst | .int, .dst | .sct, .dst => holds d (W.rowOffT w + W.m w) (W.colOff w + W.nT w)
  | .mm, .srcc | .mms, .srcc | .int, .srcc | .sct, .srcc => holds d (W.rowOffT w + W.m w) (W.colOff w + W.nT w)
  | .mm, .srca | .mms, .srca | .int, .srca | .sct, .srca => holds d (W.rowOffT w + W.m w) (W.k w)
  | .mm, .srcb | .mms, .srcb | .int, .srcb | .sct, .srcb | .ldw, .srcb =>
    if W.trans w then holds d (W.k w) (W.colOff w + W.nT w) else holds d (W.colOff w + W.nT w) (W.k w)
  | .pcfg, .statd => true
  | _, .statd => decide (d.fmt = 7) && holds d (W.m w) (if red = 1 then 1 else 2)
  | .exp, .dst | .exp, .srca | .cmp, .dst | .cmp, .srca | .cen, .srca => holds d (ro + W.m w) (W.nV w)
  | .cen, .dst => holds d (cdiv (W.m w) 256) (cdiv (W.nV w) 256)
  | .ldp, .srca => holds d (ro + 1) 18
  | .ldp, .srcb => holds d (ro + 1) (W.nV w)
  | .run, .srca => decide (ro + W.m w ≤ d.rows) && decide (d.cols = W.nV w)
  | .run, .srcb | .run, .srcc => (classOf d ro (W.m w) (W.nV w)).isSome
  | .run, .dst | .cpr, .dst | .exd, .dst | .prm, .dst => holds d (ro + W.m w) (W.nV w)
  | .cpr, .srca => decide (ro + W.m w ≤ d.rows) && decide (d.cols = W.nV w)
  | .cpr, .srcb => holds d (ro + W.m w) 1
  | .prm, .srca => holds d (ro + W.m w) (W.nV w)
  | .prm, .srcb => (decide (d.rows = 1) && decide (vl ≤ d.cols)) || (decide (ro + W.m w ≤ d.rows) && decide (d.cols = W.nV w))
  | .exd, .srca => decide (ro + W.m w ≤ d.rows)
  | .red, .srca | .stat, .srca => holds d (ro + W.m w) (W.nV w)
  | .red, .dst | .stat, .dst => holds d (ro + W.m w) (if W.redop w = 5 then 2 else 1)
  | _, .maskd => decide (cdiv (W.nV w) 32 ≤ d.cols) && (decide (ro + W.m w ≤ d.rows) || decide (d.rows = 1))
  | .upd, _ => decide (W.m w ≤ d.elems)
  | .pred, .srca => decide (1 ≤ d.rows) && decide (d.rows ≤ 256)
  | .pred, .srcb => decide (bf w 137 128 ≤ d.rows) && decide (d.cols = srcD.cols)
  | .pred, .srcb1 => decide (W.m w ≤ d.rows) && decide (d.cols = bf w 137 128)
  | .pred, .srcc => decide (d.rows = 1) && decide (1 ≤ d.cols) && decide (d.cols ≤ 4096)
  | .pred, .dst => decide (d.rows = 1) && decide (cdiv (W.m w) 32 ≤ d.cols)
  | .fsend, .srca | .fmcast, .srca | .fred, .srca => decide (W.srcOff w + W.m w ≤ d.elems)
  | .fsend, .dst => decide (W.m w ≤ d.elems)
  | .fmcast, .dst => decide (W.m w ≤ d.elems)
  | .fred, .dst => members = 0 || decide (W.m w / members ≤ d.elems)
  | _, _ => true

/-! ### Legal pairs (R192) -/

/-- The float path's formats: FP16, BF16, the FP8 formats and the MXFP formats. -/
def floatInput : Fmt → Bool
  | .fp16 | .bf16 | .e4m3 | .e5m2 | .mxE4m3 | .mxE5m2 | .mxE2m3 | .mxE3m2 | .mxE2m1 => true
  | _ => false

/-- Whether two formats form a legal array pair (R192). -/
def legalPair (a b : Fmt) : Bool :=
  ((a == .int8 || a == .int4) && (b == .int8 || b == .int4)) || (a == .mxInt8 && b == .mxInt8) || (floatInput a && floatInput b)

/-- The arithmetic of a pair of operand formats (R137, R226). -/
def pathOf (a b : Fmt) : Path :=
  if (a == .int8 || a == .int4) && (b == .int8 || b == .int4) then .integer
  else if a == .mxInt8 && b == .mxInt8 then .mxint
  else .float

/-! ### Field ranges (R89 step 6) -/

/-- The face size of a PACK mode (R207, R302). -/
def faceOf (pack : Nat) : Nat := match pack with | 0 => 256 | 1 => 128 | _ => 64

/-- Cube rows of a tile along its reduction axis. -/
def cubeRows (mode : Nat) : Nat := faceOf mode / 4

/-- Bytes of an array's load buffer in use: what has not launched of every tile (R200). -/
def bufUsed (x : MatArray) : Nat :=
  x.buf.foldl (fun a w => a + w.bytes * (cubeRows w.key.pack - w.launched) / cubeRows w.key.pack) 0

/-- Whether array `a` of core `c` is enabled (R3 to R5, R220). -/
def arrayEnabled (s : State) (c a : Nat) : Bool := !fusedDomain s.arrayMask (18 * c + 2 * a)

/-- The fields of an instruction lie in their ranges (R89 step 6). `members` is the member count of a FAB.RED's group. -/
def fieldsOk (s : State) (t : Nat) (mn : Mn) (w : IWord) (members : Nat) : Bool :=
  let c := coreOf t
  let arrOk := W.arr w ≠ 3 && (W.arr w = 0 || arrayEnabled s c (W.arr w - 1))
  match mn with
  | .loop => decide (1 ≤ bf w 139 128)
  | .setvl => decide (1 ≤ bf w 79 64) && decide (bf w 79 64 ≤ 2048)
  | .cfg => decide (bf w 71 64 ≤ 0x10) && (bf w 71 64 = 0x10 || decide (bf w 111 96 + bf w 127 112 ≤ 4096))
  | .gather => decide (W.pool w < 4) && (W.pool w = 0 || decide (1 ≤ W.bag w))
  | .mm => W.pack w ≠ 3 && arrOk && W.eng w ≠ 3 && decide (W.epi w < 3) && !(W.eng w = 2 && W.pack w ≠ 0)
  | .mms => W.pack w ≠ 3 && arrOk && W.eng w ≠ 3 && W.eng w ≠ 2 && decide (W.epi w < 3)
  | .int | .sct => W.pack w = 0 && arrOk && W.eng w = 0 && decide (W.epi w < 3)
  | .ldw => W.pack w ≠ 3 && (W.arr w = 1 || W.arr w = 2) && arrOk && decide (W.colOff w % faceOf (W.pack w) = 0) && decide (W.nT w ≤ faceOf (W.pack w)) &&
      decide (W.k w ≤ if W.pack w = 0 ∧ !W.trans w then 512 else faceOf (W.pack w))
  | .cpr | .exd => W.maskEn w
  | .red => decide (W.redop w < 6)
  | .stat => W.redop w = 1 || W.redop w = 5
  | .ldp => decide (W.m w + W.nV w ≤ 16384)
  | .pcfg => (bf w 67 64 ≠ 14) && decide (bf w 74 72 < 3)
  | .upd => decide (bf w 218 216 < 2) && (bf w 218 216 ≠ 0 || W.srcc w = 0)
  | .pred =>
    W.srcb w ≠ 255 && decide (1 ≤ bf w 137 128) && decide (bf w 137 128 ≤ 512) && decide (1 ≤ W.m w) &&
      decide (W.m w ≤ 262144) && !(f32dec (BitVec.ofNat 32 (bf w 183 152))).isNan
  | .wait => decide (1 ≤ bf w 79 64)
  | .bar => (bf w 127 96).testBit t
  | .fred => members = 0 || decide (W.m w % members = 0)
  | _ => true

/-- The features an instruction needs are present (R89 step 5, R132): only bit 4 of ISA_FEAT can read 0. -/
def featuresOk (s : State) (mn : Mn) : Bool :=
  !((mn.isFab || mn == .remote) && s.hearth.fabHeld)

end Sys2Proof.Machine
end

