-- ==== Sys2Proof/Machine/RegOps.lean ====
section
/-! DEFINITION. Access codes of register fields and the busy conditions of the blocks that RWL fields depend on (R11 to R18, R133, R262, R331, R383, R390, R404, R429, R459,
R460, R463, R502, R506, R560). -/

namespace Sys2Proof.Machine

/-! ### Busy conditions -/

/-- Trays with a task of queue `q`. -/
def taskOf (s : State) (q : Nat) : Bool := s.trays.toList.any (fun r => r.state != .idle && r.queue == q)

/-- Whether any tray of the module has a task. -/
def anyTask (s : State) : Bool := s.trays.toList.any (fun r => r.state != .idle)

/-- A waiting stream that is a closed batch. -/
def TaskKind.isBatch : TaskKind → Bool
  | .batch _ => true
  | _ => false

/-- A waiting stream that is a quick call. -/
def TaskKind.isQuick : TaskKind → Bool
  | .quick _ _ _ => true
  | _ => false

/-- The batcher of queue `q` is busy: a batch is open, waits, or runs (R331). -/
def batBusy (s : State) (q : Nat) : Bool :=
  (s.hq q).batch.isSome || (s.hq q).waiting.any (fun w => w.kind.isBatch) ||
    s.trays.toList.any (fun r => r.state != .idle && r.queue == q && r.kind.isBatch)

/-- Queue `q` is busy (R459). -/
def hqBusy (s : State) (q : Nat) : Bool := !(s.hq q).waiting.isEmpty || taskOf s q || (s.hq q).batch.isSome

/-- The state of queue pair `q`: 3 acts as 2 (R463). -/
def qpState (s : State) (q : Nat) : Nat := min 2 (s.fld (Csr.qpCfg q) 63 62)

/-- The host port is busy (R460). Only contexts that a register write has changed can be in state 1. -/
def hpBusy (s : State) : Bool :=
  (List.range 64).any (hqBusy s) ||
    s.regs.any (fun p => decide (0x120000 ≤ p.1) && decide (p.1 < 0x128000) && decide (p.1 % 32 = 0) && decide (bf p.2 63 62 = 1))

/-- Work of a tray that a Peel counts as busy: arrivals, statistics and update steps, commits (R262). -/
def peelBusy (s : State) (c : Nat) : Bool :=
  let p := (s.core c).peel
  p.ports.toList.any (fun l => !l.isEmpty) || !p.stats.isEmpty || !p.updates.isEmpty ||
    (s.core c).proofer.channels.toList.any (fun h =>
      let commit := fun (x : ChReq) => match x.work with | .commit _ _ _ => true | _ => false
      h.waiting.any commit || h.active.toList.any (fun o => o.any commit))

/-- Instructions in flight on the trays of core `c`. -/
def coreInsts (s : State) (c : Nat) : List Inst := (List.range 8).flatMap (fun k => (s.tray (8 * c + k)).insts)

/-- LAYER of a PEEL.UPD. -/
def W.updLayer (w : IWord) : Nat := bf w 215 208

/-- A PEEL.UPD that names monitor slot `n` has issued on core `c` and not completed (R422, R429). -/
def updBusy (s : State) (c n : Nat) : Bool := (coreInsts s c).any (fun i => i.mn == .upd && W.updLayer i.word == n)

/-- A FAB or XFER.REMOTE instruction is in flight on the module. -/
def fabInFlight (s : State) : Bool := s.trays.toList.any (fun r => r.insts.any (fun i => i.mn.isFab || i.mn == .remote))

/-- The fabric block is busy (R502). -/
def stnBusy (s : State) : Bool := fabInFlight s || !s.staon.kept.isEmpty

/-- Group `g` is busy (R506). -/
def grpBusy (s : State) (g : Nat) : Bool :=
  s.trays.toList.any (fun r => r.insts.any (fun i => (i.mn == .fmcast || i.mn == .fred) && W.mgroup i.word == g)) ||
    s.staon.kept.any (fun k => k.group == g)

/-- Spill space is allocated on core `c` (R404). -/
def spillBusy (s : State) (c : Nat) : Bool := !(s.core c).proofer.spillAlloc.isEmpty

/-- The Larder is busy for LAR_CFG (R390): host and Staon accesses are never in flight between commands. -/
def larBusy (s : State) : Bool := anyTask s || (List.range 4).any (spillBusy s)

/-- A space is busy while a tray has a task in it (R383). -/
def mmuBusy (s : State) (space : Nat) : Bool :=
  (List.range 32).any (fun t => (s.tray t).state != .idle && spaceOf s t == space)

/-- Whether the block of copy `i` of a register is busy (R11). -/
def busyNow (s : State) (b : Busy) (i : Nat) : Bool :=
  match b with
  | .none => false
  | .tray => (s.tray i).state != .idle
  | .peel => peelBusy s i
  | .upd => updBusy s i (s.fld (Csr.updSel i) 7 0)
  | .bat => batBusy s i
  | .spill => spillBusy s i
  | .mmu => mmuBusy s i
  | .lar => larBusy s
  | .hq => hqBusy s i
  | .hp => hpBusy s
  | .qp => decide (qpState s i = 1)
  | .stn => stnBusy s
  | .grp => grpBusy s i
  | .hearth => s.hearth.stage != 6

/-- The bit of CFG_BUSY_BLOCKS of a block (R18). -/
def busyBit (b : Busy) (i : Nat) : Nat :=
  match b with
  | .tray => i / 8
  | .peel | .upd => 4 + i
  | .spill => 8 + i
  | .mmu => 12 | .lar => 13 | .bat => 14 | .hq => 15 | .hp => 16 | .qp => 17 | .stn => 18 | .grp => 19 | .hearth => 20
  | .none => 63

/-! ### Field writes -/

/-- A register's stored value after software writes `v`: each field under its own code, RWL fields only while the block is idle (R11, R14, R15). -/
def writeFields (d : RegDef) (busy : Bool) (old v : Reg) : Reg :=
  d.fields.foldl (fun w f =>
    match f.acc with
    | .rw | .rws => setBf w f.hi f.lo (bf v f.hi f.lo)
    | .rwl => if busy then w else setBf w f.hi f.lo (bf v f.hi f.lo)
    | .w1c => setBf w f.hi f.lo (nbf ((old &&& ~~~ v).toNat) f.hi f.lo)
    | .ro | .wo => w) old

/-- Whether a write carries, for an RWL field, a value other than the field's current one (R18). -/
def changesRwl (d : RegDef) (cur v : Reg) : Bool :=
  d.fields.any (fun f => f.acc == .rwl && bf cur f.hi f.lo != bf v f.hi f.lo)

/-- An RWL write ignored because its block was busy: counted and recorded (R18). -/
def recordRefused (s : State) (off : Nat) (b : Busy) (i : Nat) : State :=
  let bit' := busyBit b i
  (((s.count Csr.cfgWhileBusy 1).setFld Csr.cfgBusyBlocks bit' bit' 1).setFld Csr.cfgLastRefused 31 0 (off / 8 * 8))

/-- Whether an RWS field of a register is written (R85). -/
def touchesRws (d : RegDef) : Bool := d.fields.any (fun f => f.acc == .rws)

/-- A staged write: TRY_SNAP_PEND of every tray of the core until its next task starts (R85). -/
def stageRws (s : State) (c : Nat) : State :=
  (List.range 8).foldl (fun s' k => s'.modTray (8 * c + k) (fun r => { r with snapPend := true })) s

/-- A write of stored fields by software, with the refusal that R18 records. -/
def storeWrite (s : State) (off : Nat) (d : RegDef) (i : Nat) (v : Reg) : State :=
  let busy := busyNow s d.busy i
  let cur := s.reg off
  let s1 := s.setReg off (writeFields d busy cur v)
  let s2 := if busy && changesRwl d cur v then recordRefused s1 off d.busy i else s1
  if touchesRws d then stageRws s2 i else s2

end Sys2Proof.Machine
end

