-- ==== Sys2Proof/Machine/Power.lean ====
section
/-! DEFINITION. Power domains, wakes, profiles, the envelope governor and the thermal monitor, with the event log that they report to (R511 to R532, R554). -/

namespace Sys2Proof.Machine

/-! ### Reports of the Hearth (R554, R559) -/

/-- The Hearth's state changed by `f`. -/
def State.modHearth (s : State) (f : Hearth → Hearth) : State := s.setHearth (f s.hearth)

/-- The power state changed by `f`. -/
def State.modPower (s : State) (f : Power → Power) : State := s.setPower (f s.power)

/-- A code written to the event log, a ring of 4,096 entries stamped with the calendar (R554). -/
def hearthLog (s : State) (code detail : Nat) : State :=
  s.modHearth (fun h =>
    let l := h.events ++ [⟨h.calSeconds, h.calValid, code, detail⟩]
    { h with events := l.drop (l.length - 4096) })

/-- A code logged and sent as EVENT to the last authenticated peer, or to all nodes (R554). -/
def hearthEvent (s : State) (code detail : Nat) : State :=
  (hearthLog s code detail).modHearth (fun h =>
    { h with side := h.side ++ [.event h.peer code h.calSeconds h.calValid detail] })

/-! ### Domains (R512) -/

/-- The domain of part `k` of core `c` (R512). -/
def coreDom (c k : Nat) : Nat := 18 * c + k

/-- Ramp tokens of a domain (R512). -/
def domTokens (d : Nat) : Nat :=
  if d < 72 then
    match d % 18 with
    | 0 | 2 => 24
    | 1 | 3 => 6
    | 4 => 14
    | 5 => 2
    | 6 => 3
    | 7 => 12
    | 8 => 2
    | 9 | 10 => 4
    | 11 => 2
    | 16 | 17 => 1
    | _ => 3
  else if d < 88 then 3
  else if d < 100 then 4
  else if d < 112 then 3
  else if d < 114 then 4
  else if d < 122 then 2
  else if d = 124 then 1
  else 0

/-- Auto domains: the engines of a core (R512). -/
def isAuto (d : Nat) : Bool := decide (d < 72) && decide (d % 18 < 8)
/-- Held domains: every other one but the Hearth's and the root PLL's (R512). -/
def isHeld (d : Nat) : Bool := decide (d < 125) && !isAuto d && d != 122 && d != 123

/-- The state of a domain. -/
def domState (s : State) (d : Nat) : DomState := Vec.get s.power.doms d .off

/-- Whether a domain is on. -/
def domOn (s : State) (d : Nat) : Bool := domState s d == .on

/-- A domain put into a state. -/
def setDom (s : State) (d : Nat) (x : DomState) : State := s.modPower (fun p => { p with doms := Vec.put p.doms d x })

/-! ### Profiles (R524 to R526) -/

/-- The profile last written; reserved codes act as MIXED (R524). -/
def profileOf (s : State) : Nat := let p := s.fld Csr.pwrCtl 2 0; if p < 5 then p else 2

/-- The profile gates the Sieve lanes (R524). -/
def sieveGated (s : State) : Bool := profileOf s == 0 || profileOf s == 3
/-- The profile gates the Levain (R524). -/
def levainGated (s : State) : Bool := profileOf s == 3

/-- The domains that the profile gates. -/
def gatedDoms (s : State) : List Nat :=
  (List.range 4).flatMap (fun c =>
    (if sieveGated s then [coreDom c 4] else []) ++ (if levainGated s then [coreDom c 6] else []))

/-- A profile's array cap in percent (R524). -/
def arrayCap (p : Nat) : Nat := if p = 1 then 40 else if p = 2 then 80 else 100

/-- A profile's cap in watts (R524). -/
def profileCap (p : Nat) : Nat := if p = 4 then 600 else 1000

/-- The percentage f of the cycles in which an engine class issues in the running window (R522). -/
def issueShare (s : State) (isArray : Bool) : Nat := (if isArray then arrayCap s.power.profile else 100) * s.power.theta / 100

/-- Whether an engine class may issue in the present cycle, of the periods of 100 cycles counted from the window's start (R522). -/
def mayIssue (s : State) (isArray : Bool) : Bool :=
  let c := (s.now - s.power.winStart) % 100
  decide (c * issueShare s isArray / 100 < (c + 1) * issueShare s isArray / 100)

/-! ### Wakes and switch-offs (R514 to R519) -/

/-- A domain enters the wake queue in Hearth cycle `cyc`: behind every request of an earlier cycle, and among those of this one that hold no token yet by its index (R518). -/
def Power.enterWake (p : Power) (cyc d : Nat) : Power :=
  let n := if p.newWakes.1 = cyc then min p.newWakes.2 p.wakes.length else 0
  let (old, new) := p.wakes.splitAt (p.wakes.length - n)
  let before := fun (w : Nat × Nat) => decide (w.1 < d) || decide (0 < w.2)
  { p with wakes := old ++ new.takeWhile before ++ [(d, 0)] ++ new.dropWhile before, newWakes := (cyc, n + 1) }

/-- A wake requested: a domain that is off enters the queue; one that is switching off is woken after (R515, R518, R519). A Hearth clock cycle is twelve of ACLK (R10). -/
def requestWake (s : State) (d : Nat) : State :=
  match domState s d with
  | .off => (setDom s d .waking).modPower (fun p => p.enterWake (s.now / 12) d)
  | .switchingOff => s.modPower (fun p => { p with again := if p.again.contains d then p.again else p.again ++ [d] })
  | _ => s

/-- A step needs some domains: it requests the wakes of those that are off, and its wait is measured from here (R515). -/
def stepNeeds (s : State) (ds : List Nat) : State :=
  let off := ds.filter (fun d => !domOn s d)
  if off.isEmpty then s else (off.foldl requestWake s).modPower (fun p => { p with asked := p.asked ++ [(off, s.now)] })

/-- A domain wakes: the steps that wait for no other have waited until here, which counts in nanoseconds, five for six ACLK cycles (R515, R532). -/
def waitsEnd (s : State) (d : Nat) : State :=
  let asked := s.power.asked.map (fun a => (a.1.filter (fun x => x != d), a.2))
  ((asked.filter (fun a => a.1.isEmpty)).foldl (fun s' a => s'.count Csr.pwrWakeWaitNs ((s.now - a.2) * 5 / 6)) s).modPower (fun p => { p with asked := asked.filter (fun a => !a.1.isEmpty) })

/-- Every domain of a list is on. -/
def allOn (s : State) (ds : List Nat) : Bool := ds.all (domOn s)

/-- The switch-off of a domain begins (R519). -/
def beginOff (s : State) (d : Nat) : State := if domOn s d then setDom s d .switchingOff else s

/-- Whether an Auto domain has nothing queued, running or held (R514). -/
def domIdle (s : State) (d : Nat) : Bool :=
  let c := d / 18
  let k := s.core c
  let arr := fun (a : Nat) =>
    let x := s.array c a
    x.queue.isEmpty && x.pass.toList.all Option.isNone
  match d % 18 with
  | 0 => arr 0
  | 1 => arr 0 && (s.array c 0).buf.isEmpty
  | 2 => arr 1
  | 3 => arr 1 && (s.array c 1).buf.isEmpty
  | 4 | 5 => k.sieve.steps.isEmpty && k.sieve.slots.toList.all Option.isNone && k.sieve.planes.isEmpty
  | 6 => k.levain.queue.isEmpty && (List.range 8).all (fun j => (s.tray (8 * c + j)).arming.isNone)
  | _ => k.vec.queue.isEmpty

/-- The bit of a domain in PWR_DOM_HOLD (R531). -/
def heldByHost (s : State) (d : Nat) : Bool := if d < 64 then bit (s.reg Csr.pwrDomHold0) d else bit (s.reg Csr.pwrDomHold1) (d - 64)

/-- An Auto domain whose conditions of R514 hold begins to switch off. -/
def idleOff (s : State) (d : Nat) : State :=
  if isAuto d && domOn s d && domIdle s d && !heldByHost s d then beginOff s d else s

/-- The profile's gated domains switch off as soon as their conditions hold (R526). -/
def gateDomains (s : State) : State := (gatedDoms s).foldl idleOff s

/-- PWR_PROFILE_PEND: a gated domain is not off yet (R526). -/
def profilePending (s : State) : Bool :=
  (gatedDoms s).any (fun d => domState s d != .off && domState s d != .fusedOff)

/-- Bytes of memory that a switched-off Bench quarter or Larder slice loses read as zero (R513). -/
def loseBytes (s : State) (lost : Nat → Bool) : State := s.setMem (s.mem.filter (fun p => !lost p.1))

/-- Whether a physical address lies in quarter `q` of core `c`'s Bench (R384, R512). -/
def inBenchQuarter (c q a : Nat) : Bool :=
  let o := a - 0x020000000000 - c * 0x10000000
  decide (0x020000000000 + c * 0x10000000 ≤ a) && decide (o < 0x10000000) && decide (((o >>> 6) ^^^ (o >>> 15)) % 512 / 128 = q)

/-- Whether a physical address lies in slice `n` of the Larder's scratch (R389). -/
def inScratchSlice (n a : Nat) : Bool :=
  decide (scratchBase ≤ a) && decide (a < scratchBase + 0x10000000) && decide ((a - scratchBase) / 128 % 16 = n)

/-- A free value drawn for each byte of a list of addresses: what is lost is not determined. -/
def freeBytes (s : State) (as : List Nat) : State :=
  as.foldl (fun s' a => ((s'.setMem (Tab.put 0 s'.mem a (Config.freeByte s'.free))).setFree (s'.free + 1))) s

/-! What a switched-off domain loses of the registers: a block's registers lie in its core's core control, or in NoC segment 0 (R513). -/

/-- Whether a register is retained while its engine's domain is off: the Levain's seed, the Sieve's counters and the arrays' (R513). -/
def retained (base : Nat) : Bool :=
  base == 0x50008 || (decide (0x40018 ≤ base) && decide (base < 0x40040)) || (decide (0x60010 ≤ base) && decide (base < 0x60040))

/-- The core in whose core-control domain copy `i` of a register lies, if it does (R12, R513). -/
def regCore (d : RegDef) (i : Nat) : Option Nat :=
  if 0x10000 ≤ d.base ∧ d.base < 0x10800 then some (i / 8) else if d.n1 = 4 then some i else none

/-- Writable fields of a register become free values: the source does not say what they hold once lost. -/
def loseReg (s : State) (d : RegDef) (off : Nat) : State :=
  let v := Config.freeWord s.free
  (s.setReg off (d.fields.foldl (fun w f => if f.acc = .ro then w else setBf w f.hi f.lo (bf v f.hi f.lo)) (s.reg off))).setFree (s.free + 1)

/-- The registers of core `c`, or for none those of the module's blocks outside the Hearth, are lost. -/
def loseRegs (s : State) (c : Option Nat) : State :=
  let block := fun (d : RegDef) => !retained d.base && d.base != 0x80000 && !(decide (0x210000 ≤ d.base) && decide (d.base < 0x220000))
  (RegMap.all.filter block).foldl (fun s1 d =>
    (List.range d.n1).foldl (fun s2 i =>
      if regCore d i = c then (List.range d.n2).foldl (fun s3 j => loseReg s3 d (d.base + i * d.s1 + j * d.s2)) s2 else s2) s1) s

/-- What a domain loses when it is off (R513, R514, R574): weights, planes, Bench, Larder, operand-cache and check-cache contents, and registers. A dirty Larder line that is lost
leaves the line's bytes undetermined. -/
def domLoses (s : State) (d : Nat) : State :=
  let c := d / 18
  if d < 72 then
    match d % 18 with
    | 0 | 2 => s.modArray c (d % 18 / 2) (fun a => { a with resident := Vector.replicate 16 none, pass := Vector.replicate 16 none })
    | 1 | 3 => s.modArray c (d % 18 / 2) (fun a => { a with buf := [] })
    | 4 => s.modSieve c (fun v => { v with slots := Vector.replicate 16 none, closed := [], groups := [], lanes := [] })
    | 5 => s.modSieve c (fun v => { v with planes := [] })
    | 8 => s.modVec c (fun v => { v with programs := [], marks := [], tables := [], poison := [] })
    | 12 | 13 | 14 | 15 =>
      let s1 := loseBytes s (inBenchQuarter c (d % 18 - 12))
      s1.setBenchPoison (s1.benchPoison.filter (fun p => !inBenchQuarter c (d % 18 - 12) (64 * p.1)))
    | 16 => s.modCore c (fun k => { k with tcache := .reset })
    | 17 => loseRegs s (some c)
    | _ => s
  else if d < 88 then
    let n := d - 72
    let lines := s.larder.lines.filter (fun p => decide (p.1 / 16 / 0x8000 = n))
    let dirty := (lines.filter (fun p => p.2.valid && p.2.dirty)).map (fun p => larLine n (p.1 / 16 % 0x8000) p.2.tag)
    let s1 := loseBytes s (inScratchSlice n)
    let bad := s1.larder.lost.filter (fun p => larSlice p.1 == n)
    let s2 := (s1.setLarder { s1.larder with lines := s1.larder.lines.filter (fun p => !(decide (p.1 / 16 / 0x8000 = n))), lost := s1.larder.lost.filter (fun p => larSlice p.1 != n) }).setPoison
      (bad.foldl (fun t p => Tab.put false t p.1 true) s1.poison)
    freeBytes s2 (dirty.flatMap (fun l => (List.range 128).map (fun i => 128 * l + i)))
  else if d < 100 then s.setArbs (s.arbs.map (fun a => if a.key = arbKey 3 (d - 88) then { a with checks := [] } else a))
  else if d = 114 then loseRegs s none
  else s

/-- A domain's switch-off completes; a wake requested meanwhile is admitted (R519). -/
def switchOffDone (s : State) (d : Nat) : State :=
  if domState s d == .switchingOff then
    let s1 := domLoses (setDom s d .off) d
    if s1.power.again.contains d then
      requestWake (s1.modPower (fun p => { p with again := p.again.filter (fun x => x != d) })) d
    else s1
  else s

/-- One Hearth cycle of the wake bucket: a token each third cycle while fewer than six are held; then the head of the queue draws every token available (R517, R518). -/
def drawTokens (s : State) : State :=
  let p := s.power
  let full := decide (6 ≤ p.bucket)
  let gain := !full && decide (2 ≤ p.refill)
  let bucket := if gain then p.bucket + 1 else p.bucket
  let refill := if full || gain then 0 else p.refill + 1
  match p.wakes with
  | [] => s.modPower (fun q => { q with bucket := bucket, refill := refill })
  | (d, got) :: rest =>
    let take := min bucket (domTokens d - got)
    if got + take = domTokens d then
      s.modPower (fun q => { q with bucket := bucket - take, refill := refill, wakes := rest, ramped := q.ramped ++ [d] })
    else s.modPower (fun q => { q with bucket := bucket - take, refill := refill, wakes := (d, got + take) :: rest })

/-- A wake completes: the domain reads on, and the steps that waited for it may run (R515, R518). -/
def wakeDone (s : State) (d : Nat) : State :=
  if s.power.ramped.contains d then
    let s1 := (setDom s d .on).modPower (fun p => { p with ramped := p.ramped.filter (fun x => x != d) })
    waitsEnd (s1.count Csr.pwrWakes 1) d
  else s

/-- The Hearth keeps a Staon port's domain off while the fabric is held disabled (R556). -/
def fabricHolds (s : State) (d : Nat) : Bool := s.hearth.fabHeld && decide (100 ≤ d) && decide (d < 112)

/-- A host or Staon access is in flight: an unfinished request of the host port, or a fabric message to be sent, acknowledged or added (R514). -/
def accessInFlight (s : State) : Bool :=
  s.host.qps.any (fun p => !p.2.reqs.isEmpty) || !s.staon.sent.isEmpty || !s.staon.early.isEmpty ||
    s.staon.ports.toList.any (fun x => x.queues.toList.any (fun q => !q.isEmpty))

/-- Whether a write to PWR_DOM_ON is ignored (R514). -/
def domOnBusy (s : State) : Bool := anyTask s || accessInFlight s

/-- A write to PWR_DOM_ON (R514, R516): ignored while a tray has a task or an access is in flight, and the refusal recorded; otherwise a 1 wakes, a 0 switches a Held domain off. -/
def writeDomOn (s : State) (half : Nat) (v : Reg) : State :=
  let off := if half = 0 then Csr.pwrDomOn0 else Csr.pwrDomOn1
  if domOnBusy s then s.setFld Csr.pwrStatus 33 33 1
  else
    (List.range (if half = 0 then 64 else 61)).foldl (fun s' b =>
      let d := 64 * half + b
      if fusedDomain s'.arrayMask d then s'
      else
        let s1 := s'.setFld off b b (b2n (bit v b))
        if bit v b then (if (isAuto d && !(gatedDoms s1).contains d) || (isHeld d && !fabricHolds s1 d) then requestWake s1 d else s1)
        else if isHeld d then beginOff s1 d else s1) s

/-- A write to PWR_DOM_HOLD; bits of fused-off domains are ignored (R516). -/
def writeDomHold (s : State) (half : Nat) (v : Reg) : State :=
  let off := if half = 0 then Csr.pwrDomHold0 else Csr.pwrDomHold1
  (List.range (if half = 0 then 64 else 61)).foldl (fun s' b =>
    if fusedDomain s'.arrayMask (64 * half + b) then s' else s'.setFld off b b (b2n (bit v b))) s

/-! ### The governor (R520 to R523) -/

/-- The domains of a consumer of R520. -/
def consumerDoms (i : Nat) : List Nat :=
  let core := fun (ks : List Nat) => (List.range 4).flatMap (fun c => ks.map (coreDom c))
  let span := fun (a n : Nat) => (List.range n).map (fun x => a + x)
  match i with
  | 0 => core [0, 1, 2, 3]
  | 1 => core [12, 13, 14, 15]
  | 2 => core [4, 5]
  | 3 => core [6]
  | 4 => core [7, 8]
  | 5 => core [9]
  | 6 => core [10] ++ span 114 8 ++ span 72 16
  | 7 => span 88 12
  | 8 => span 100 12
  | 9 => span 112 2
  | _ => core [11, 16, 17] ++ [122, 123, 124]

/-- Leakage share of a consumer at 85 °C in milliwatts (R520). -/
def leakShare (i : Nat) : Nat := [40000, 10000, 10000, 2000, 10000, 3000, 19000, 8000, 4000, 2000, 2000].getD i 0

/-- Leakage of the domains that are on, in milliwatts, each consumer's share spread evenly over its domains (R520). -/
def leakage (s : State) : Nat :=
  ((List.range 11).foldl (fun acc i =>
    let ds := consumerDoms i
    acc + leakShare i * (ds.filter (domOn s)).length / ds.length) 0) * Config.leakFactor s.power.tj / 1000

/-- Dynamic load of consumers `lo` to `hi` of a window, in milliwatts (R520). -/
def dynamicLoad (counts : List Nat) (lo hi : Nat) : Nat :=
  (List.range 11).foldl (fun acc i => if lo ≤ i ∧ i ≤ hi then acc + counts.getD i 0 * Config.energyCoeff i else acc) 0

/-- PWR_CAP_W as it acts (R530). -/
def hostCap (s : State) : Nat := clampN 300 1000 (s.fld Csr.pwrCtl 20 10)

/-- θ of the next window (R521, R528): loads in milliwatts. -/
def nextTheta (theta target other leak engine : Nat) (crit : Bool) : Nat :=
  if crit then 0
  else if theta = 0 then 1
  else
    let allow : Int := (target * 1000 * 1052 : Nat) - ((other + leak) * 1127 : Nat)
    let lim : Int := if engine = 0 then 100 else (theta : Int) * allow / ((1127 * engine : Nat) : Int)
    (clampI 1 100 (if lim < theta + 10 then lim else theta + 10)).toNat

/-- The end of a governor window (R520 to R523, R526). `counts` are the activity counters by consumer of R520. -/
def governorStep (s : State) (counts : List Nat) : State :=
  let engine := dynamicLoad counts 0 5
  let other := dynamicLoad counts 6 10
  let leak := leakage s
  let est := (engine + other + leak) * 1127 / 1052 / 100
  let prof := profileOf s
  let cap := min (hostCap s) (min (profileCap prof) s.power.thermalCap)
  let lim := if hostCap s = cap then 0 else if profileCap prof = cap then 1 else 2
  let th := nextTheta s.power.theta (cap - s.fld Csr.pwrCtl 41 36) other leak engine s.power.crit
  let s1 := if s.power.theta < 100 then s.count Csr.pwrThrottleWindows 1 else s
  let s2 := if cap * 10 < est ∧ s.power.theta = 1 then s1.count Csr.pwrOverWindows 1 else s1
  let s3 := if s.power.thermalCap < 1000 then s2.count Csr.thmHotWindows 1 else s2
  s3.modPower (fun p => { p with est := est, capEff := cap, limiter := lim, theta := th, profile := prof, winStart := s.now })

/-- The millisecond comparison of the estimate with the measured input power, in units of 0.1 W (R523, R593). -/
def driftStep (s : State) (measured : Nat) : State :=
  let e := s.power.est
  let diff := if e ≤ measured then measured - e else e - measured
  let s1 := s.setModhw { s.modhw with vinRead := s.modhw.vin, iin := if s.modhw.vin = 0 then 0 else measured * 10000 / s.modhw.vin }
  if measured < 20 * diff then s1.setFld Csr.pwrStatus 34 34 1 else s1

/-! ### Thermal monitor (R527 to R529) -/

/-- The hottest of some sensors. -/
def hottest (l : List Int) (d : Int) : Int := l.foldl (fun a x => if a < x then x else a) (l.headD d)

/-- THM_THROTTLE_C as it acts (R532). -/
def throttleAt (s : State) : Nat := min 100 (s.fld Csr.thmCfg 6 0)

/-- The thermal cap at a junction temperature (R527). -/
def thermalCapAt (throttle : Nat) (tj : Int) : Nat :=
  if tj ≤ throttle then 1000 else (clampI 300 1000 (1000 - 25 * (tj - throttle))).toNat

/-- A reading of the sensors: 32 junctions, then the coolant's inlet and outlet in units of 0.1 °C (R527, R528, R600). -/
def thermalStep (s : State) (temps : List Int) : State :=
  let tj := hottest (temps.take 32) s.power.tj
  let crit := decide (105 ≤ tj) || (s.power.crit && decide (100 ≤ tj))
  let s1 := s.modPower (fun p => { p with tj := tj, crit := crit, thermalCap := thermalCapAt (throttleAt s) tj })
  let s2 := s1.setModhw { s1.modhw with tIn := temps.getD 32 s1.modhw.tIn, tOut := temps.getD 33 s1.modhw.tOut }
  let s3 := if (throttleAt s : Int) < tj then s2.setFld Csr.thmStatus 8 8 1 else s2
  if 105 ≤ tj then
    let s4 := s3.setFld Csr.thmStatus 9 9 1
    if s.power.crit then s4 else hearthEvent s4 FC.thermalCrit 0
  else s3

end Sys2Proof.Machine
end

