-- ==== Sys2Proof/Machine/FabAddr.lean ====
section
/-! DEFINITION. The module's fabric address and the member lists of groups (R484, R490, R506). -/

namespace Sys2Proof.Machine

/-- The fabric block changed by `f`. -/
def State.modStaon (s : State) (f : Staon → Staon) : State := s.setStaon (f s.staon)

/-- The provisional address: 0x8000 and 15 bits of the digest of the serial number (R484). -/
def provisional (s : State) : Nat :=
  let d := sha3_256 (leBytes 8 s.serial.toNat)
  0x8000 + (d.getD 1 0).toNat % 128 * 256 + (d.getD 0 0).toNat

/-- The module's fabric address (R484). -/
def ownAddr (s : State) : Nat := s.staon.assigned.getD (provisional s)

/-- The member list of a group (R506). -/
def groupMembers (s : State) (g : Nat) : List Nat :=
  (List.range (min 64 (s.fld (Csr.group g) 6 0))).map (fun j => s.fld (Csr.groupMembers g (j / 4)) (16 * (j % 4) + 15) (16 * (j % 4)))

/-- GRP_SELF (R490): the module's index in the member list, 0xFF when absent. -/
def groupSelf (s : State) (g : Nat) : Nat :=
  let ms := groupMembers s g
  let i := ms.findIdx (fun a => a == ownAddr s)
  if i < ms.length then i else 0xFF

end Sys2Proof.Machine
end

