-- ==== Sys2Proof/Machine/Tensor.lean ====
section
/-! DEFINITION. Reading and writing tensors: crumbs, N:M segments, superblocks, rows of operands at their own place or in a stream-buffer
slot, and the masked writes of a dense destination (R52, R53, R63 to R76, R112, R318, R337, R606). -/

namespace Sys2Proof.Machine

/-! ### Crumbs (R65 to R73) -/

/-- Bytes that `c` run codes occupy. -/
def codeBytes (wide : Bool) (c : Nat) : Nat := if wide then c else cdiv c 2

/-- The walk of R69 over the run codes from code `c` on, at element `pos`, with `n` values found of `nz`: the positions of the values and the codes read.
`fuel` bounds the codes. -/
def crumbWalk (wide : Bool) (region : Nat) (codes : List Byte) (nz : Nat) :
    Nat → Nat → Nat → Nat → Except Nat (List Nat × Nat)
  | 0, _, _, c => .ok ([], c)
  | fuel + 1, pos, n, c =>
    if nz ≤ n then .ok ([], c)
    else if region < codeBytes wide (c + 1) then .error FC.crumbCountMismatch
    else
      let b := (codes.getD (if wide then c else c / 2) 0).toNat
      let k := if wide then b else (if c % 2 = 0 then b % 16 else b / 16)
      if !wide ∧ k = 15 then
        (if 256 < pos + 15 then .error FC.crumbRunOver else crumbWalk wide region codes nz fuel (pos + 15) n (c + 1))
      else if 255 < pos + k then .error FC.crumbRunOver
      else
        match crumbWalk wide region codes nz fuel (pos + k + 1) (n + 1) (c + 1) with
        | .error e => .error e
        | .ok (l, c') => .ok ((pos + k) :: l, c')

/-- Whether the code region's bits beyond the codes are zero (R67). -/
def codePadClear (wide : Bool) (codes : List Byte) (c : Nat) : Bool :=
  (codes.drop (codeBytes wide c)).all (fun b => b == 0) &&
    (wide || c % 2 = 0 || decide ((codes.getD (c / 2) 0).toNat / 16 = 0))

/-- NZ_COUNT of a crumb's header, as read (R65). -/
def crumbCount (bs : List Byte) : Nat := nbf (leNat (bs.take 8)) 8 0

/-- The first check of R155: reserved header bits, NZ_COUNT and VAL_FMT. -/
def crumbHeaderOk (fmt : Nat) (bs : List Byte) : Bool :=
  let h := leNat (bs.take 8)
  nbf h 31 16 == 0 && nbf h 11 10 == 0 && decide (nbf h 8 0 ≤ 256) && nbf h 15 12 == fmt

/-- A crumb checked and expanded to 256 elements (R69, R73). -/
def decodeCrumb (d : Desc) (bs : List Byte) : Except Nat (List El) :=
  let h := leNat (bs.take 8)
  let nz := nbf h 8 0
  let wide := h.testBit 9
  let vo := nbf h 63 32
  if !crumbHeaderOk d.fmt bs then .error FC.crumbHeaderBad
  else
    let codes := (bs.drop 8).take (vo - 8)
    match crumbWalk wide (vo - 8) codes nz (300 + nz) 0 0 0 with
    | .error e => .error e
    | .ok (pos, c) =>
      if vo ≠ 8 + roundUp (codeBytes wide c) 8 ∨ !codePadClear wide codes c then .error FC.crumbCountMismatch
      else
        let body := bs.drop vo
        let scales := if d.fm.isMx then body.take 8 else []
        let vals := unpackElems d.fm.bits nz (if d.fm.isMx then body.drop 8 else body)
        let scaleOf := fun i => (scales.getD (i / 32) 0).toNat
        let put := (pos.zip vals).foldl (fun (l : List El) p => l.set p.1 ⟨p.2, scaleOf p.1, true⟩)
          ((List.range 256).map (fun i => (⟨0, scaleOf i, d.fm.isMx && scaleOf i == 255⟩ : El)))
        .ok put

/-! ### N:M segments (R74, R75) -/

/-- N and M of a compression code. -/
def nmOf (comp : Nat) : Nat × Nat := if comp = 2 then (2, 4) else (4, 8)

/-- The index of slot `j` of group `g` (R74). -/
def nmIndex (comp : Nat) (field : Nat) (g j : Nat) : Nat :=
  if comp = 2 then (field >>> (4 * g + 2 * j)) % 4 else (field >>> (12 * g + 3 * j)) % 8

/-- A group's checks: duplicate indices, then each slot's range, a slot whose code is zero being ignored (R75). -/
def nmGroupCheck (d : Desc) (seg field : Nat) (vals : List Nat) (g : Nat) : Option Nat :=
  let (n, m) := nmOf d.comp
  let ix := (List.range n).map (nmIndex d.comp field g)
  if !(decide ix.Nodup) then some FC.sparseMetaDup
  else if (List.range n).any (fun j =>
      decide (d.cols ≤ 256 * seg + m * g + ix.getD j 0) && !codeIsZero d.fm (vals.getD (n * g + j) 0)) then some FC.sparseIndexRange
  else none

/-- An N:M segment checked and expanded to 256 elements; unselected positions are not stored. -/
def decodeNm (d : Desc) (seg : Nat) (bs : List Byte) : Except Nat (List El) :=
  let (n, m) := nmOf d.comp
  let scales := if d.fm.isMx then bs.take 8 else []
  let rest := if d.fm.isMx then bs.drop 8 else bs
  let field := leNat (rest.take d.metaBytes)
  let vals := unpackElems d.fm.bits 128 (rest.drop d.metaBytes)
  let groups := 256 / m
  match (List.range groups).findSome? (nmGroupCheck d seg field vals) with
  | some code => .error code
  | none =>
    let scaleOf := fun i => (scales.getD (i / 32) 0).toNat
    let empty : List El := (List.range 256).map (fun i => ⟨0, scaleOf i, false⟩)
    .ok ((List.range 128).foldl (fun (l : List El) i =>
      let g := i / n
      let at' := m * g + nmIndex d.comp field g (i % n)
      l.set at' ⟨vals.getD i 0, scaleOf at', true⟩) empty)

/-- A superblock's 256 elements (R52). -/
def decodeSuper (d : Desc) (bs : List Byte) : List El :=
  let scales := bs.take 8
  ((unpackElems d.fm.bits 256 (bs.drop 8)).zipIdx).map (fun p => ⟨p.1, (scales.getD (p.2 / 32) 0).toNat, true⟩)

/-! ### Rows of an operand -/

/-- What the padding value of a descriptor is as an element; it counts as stored when it is nonzero (R63, R136). -/
def padEl (d : Desc) : El :=
  ⟨d.pad % 2 ^ d.fm.bits, (d.pad >>> 8) % 256, !(padValue d.fm d.pad).isZero⟩

/-- Whether a tensor's rows are stored as one run of elements: dense and not MX. -/
def Desc.plain (d : Desc) : Bool := decide (d.comp = 0) && !d.fm.isMx

/-- The units in which columns `c0` to `c0 + cnt − 1` of a row are stored: one run of elements, or the segments that they overlap (R318). -/
def unitsOf (d : Desc) (c0 cnt : Nat) : List Nat :=
  if d.plain then [0] else (List.range (cdiv (c0 + cnt) 256 - c0 / 256)).map (fun u => c0 / 256 + u)

/-- Bytes of a unit of `cnt` columns in a slot (R318). -/
def unitPitch (d : Desc) (cnt : Nat) : Nat :=
  if d.plain then cdiv (cnt * d.fm.bits) 8
  else if d.comp = 0 then d.superBytes
  else if d.comp = 1 then d.crumbBound
  else d.nmSegBytes

/-- The share of segment `u` that columns `c0` to `c0 + cnt − 1` take in a slot, in quarters of 64 columns (R318): an N:M segment's groups, with their scales, can be held apart. -/
def shareOf (d : Desc) (c0 cnt u : Nat) : Nat × Nat :=
  if d.comp = 2 ∨ d.comp = 3 then ((c0 - 256 * u) / 64, min 4 (cdiv (c0 + cnt - 256 * u) 64)) else (0, 4)

/-- Bytes of a unit in a slot. -/
def slotUnitBytes (d : Desc) (c0 cnt u : Nat) : Nat :=
  if d.plain then unitPitch d cnt else unitPitch d cnt * ((shareOf d c0 cnt u).2 - (shareOf d c0 cnt u).1) / 4

/-- Bytes before unit `k` of a row in a slot. -/
def slotUnitAt (d : Desc) (c0 cnt k : Nat) : Nat := ((unitsOf d c0 cnt).take k).foldl (fun a u => a + slotUnitBytes d c0 cnt u) 0

/-- Bytes of a row of a block in a slot. -/
def slotRowBytes (d : Desc) (c0 cnt : Nat) : Nat := (unitsOf d c0 cnt).foldl (fun a u => a + slotUnitBytes d c0 cnt u) 0

/-- The parts of an N:M segment's scales, metadata and values that quarters `q.1` up to `q.2` of it hold. -/
def nmShare (d : Desc) (q : Nat × Nat) (bs : List Byte) : List Byte :=
  let cut := fun (l : List Byte) => (l.drop (l.length * q.1 / 4)).take (l.length * (q.2 - q.1) / 4)
  let ns := if d.fm.isMx then 8 else 0
  cut (bs.take ns) ++ cut ((bs.drop ns).take d.metaBytes) ++ cut (bs.drop (ns + d.metaBytes))

/-- A whole N:M segment around a share of it: groups elsewhere hold zeros at their first positions. -/
def nmWhole (d : Desc) (q : Nat × Nat) (bs : List Byte) : List Byte :=
  let n := q.2 - q.1
  let ns := if d.fm.isMx then 2 * n else 0
  let nm := d.metaBytes * n / 4
  let pad : List Byte := if d.comp = 2 then List.replicate 8 0x44 else (List.replicate 4 [0x88, 0x86, 0x68]).flatten
  let zeros := fun (k : Nat) => List.replicate k (0 : Byte)
  let vals := bs.drop (ns + nm)
  let vb := 4 * d.fm.bits
  (if d.fm.isMx then zeros (2 * q.1) ++ bs.take ns ++ zeros (2 * (4 - q.2)) else []) ++
    ((List.replicate q.1 pad).flatten ++ (bs.drop ns).take nm ++ (List.replicate (4 - q.2) pad).flatten) ++ (zeros (vb * q.1) ++ vals ++ zeros (vb * (4 - q.2)))

/-- Bytes at an offset from a tensor's BASE: its own core's Bench, or memory through translation (R81, R110, R386). -/
def fetchBytes (s : State) (c space : Nat) (d : Desc) (off n : Nat) : State × Except MemErr (List Byte) :=
  if d.bench then
    let o := ((d.base + off) % 0x10000000).toNat
    let s1 := noteRead s (benchAddr c o) n
    (s1, benchRead s1 c o n)
  else readV s c space (d.base + off) n

/-- The bytes of a crumb, at the length the Proofer reads (R337). -/
def fetchCrumb (s : State) (c space : Nat) (d : Desc) (r seg : Nat) : State × Except MemErr (List Byte) :=
  match fetchBytes s c space d (4 * (r * d.segs + seg)) 4 with
  | (s1, .error e) => (s1, .error e)
  | (s1, .ok e) =>
    let at' := d.crumbArea + 8 * leNat e
    match fetchBytes s1 c space d at' 8 with
    | (s2, .error e) => (s2, .error e)
    | (s2, .ok h) =>
      let x := leNat h
      let len := nbf x 63 32 + (if d.fm.isMx then 8 else 0) + roundUp (cdiv (nbf x 8 0 * d.fm.bits) 8) 8
      fetchBytes s2 c space d at' (clampN 8 d.crumbBound len)

/-- One unit of a tensor row as its bytes: of a run, columns `c0` up to `lim`, packed from the first bit on. -/
def fetchUnit (s : State) (c space : Nat) (d : Desc) (r c0 lim u : Nat) : State × Except MemErr (List Byte) :=
  if d.plain then
    let odd := if d.fm.bits = 4 then c0 % 2 else 0
    match fetchBytes s c space d (d.rowOffset r + c0 * d.fm.bits / 8) (cdiv ((lim - c0 + odd) * d.fm.bits) 8) with
    | (s1, .ok bs) => (s1, .ok (if odd = 0 then bs else packElems 4 ((unpackElems 4 (lim - c0 + 1) bs).drop 1)))
    | (s1, .error e) => (s1, .error e)
  else if d.comp = 0 then fetchBytes s c space d (d.rowOffset r + u * d.superBytes) d.superBytes
  else if d.comp = 1 then fetchCrumb s c space d r u
  else fetchBytes s c space d ((r * d.segs + u) * d.nmSegBytes) d.nmSegBytes

/-- The units of a tensor row, one after another. -/
def fetchUnits (s : State) (c space : Nat) (d : Desc) (r c0 lim : Nat) : List Nat → State × Except MemErr (List (List Byte))
  | [] => (s, .ok [])
  | u :: t =>
    match fetchUnit s c space d r c0 lim u with
    | (s1, .error e) => (s1, .error e)
    | (s1, .ok b) =>
      match fetchUnits s1 c space d r c0 lim t with
      | (s2, .error e) => (s2, .error e)
      | (s2, .ok l) => (s2, .ok (b :: l))

/-- A unit expanded to elements: the run's `cnt` elements, or a segment's 256. -/
def decodeUnit (d : Desc) (cnt u : Nat) (bs : List Byte) : Except Nat (List El) :=
  if d.plain then .ok ((unpackElems d.fm.bits cnt bs).map (fun x => ⟨x, 0, true⟩))
  else if d.comp = 0 then .ok (decodeSuper d bs)
  else if d.comp = 1 then decodeCrumb d bs
  else decodeNm d u bs

/-- Units expanded in order; the first that fails its check decides (R69, R75). -/
def decodeUnits (d : Desc) (cnt : Nat) : List (Nat × List Byte) → Except Nat (List El)
  | [] => .ok []
  | (u, b) :: t =>
    match decodeUnit d cnt u b with
    | .error e => .error e
    | .ok l =>
      match decodeUnits d cnt t with
      | .error e => .error e
      | .ok l' => .ok (l ++ l')

/-- Columns `c0` to `c0 + cnt − 1` of a row from its units; a column at or beyond `lim` takes the padding value (R63, R311). -/
def rowOfUnits (d : Desc) (c0 cnt lim : Nat) (us : List (List Byte)) : Except Nat (List El) :=
  match decodeUnits d cnt ((unitsOf d c0 cnt).zip us) with
  | .error e => .error e
  | .ok l =>
    let l' := if d.plain then l else (l.drop (c0 % 256)).take cnt
    .ok ((List.range cnt).map (fun i => if lim ≤ c0 + i then padEl d else l'.getD i (padEl d)))

/-- Where an engine reads an operand's row: in the tensor itself, or as row `i` of a block in a stream-buffer slot at a Bench offset (R317). -/
inductive Place where
  | tensor
  | slot (base i : Nat)
  deriving DecidableEq, Repr

/-- Units of row `i` of a block in a slot, those alone that lie inside the extent. -/
def slotUnits (s : State) (c : Nat) (d : Desc) (c0 cnt lim base i : Nat) : Except MemErr (List (List Byte)) :=
  let row := base + i * slotRowBytes d c0 cnt
  ((unitsOf d c0 (min (c0 + cnt) lim - c0)).zipIdx).foldr (fun u acc =>
    match benchRead s c (row + slotUnitAt d c0 cnt u.2) (slotUnitBytes d c0 cnt u.1), acc with
    | .error e, _ => .error e
    | _, .error e => .error e
    | .ok b, .ok l => .ok ((if 2 ≤ d.comp then nmWhole d (shareOf d c0 cnt u.1) b else b) :: l)) (.ok [])

/-- Columns `c0` to `c0 + cnt − 1` of tensor row `r` as an engine reads them (R311, R317). -/
def rowEls (s : State) (c space : Nat) (d : Desc) (pl : Place) (r c0 cnt lim : Nat) : State × Except MemErr (List El) :=
  let fin : Except MemErr (List (List Byte)) → Except MemErr (List El) := fun e =>
    match e with
    | .error x => .error x
    | .ok us => match rowOfUnits d c0 cnt lim us with
      | .error code => .error ⟨code, 0, 0⟩
      | .ok l => .ok l
  if lim ≤ c0 then (s, .ok (List.replicate cnt (padEl d)))
  else match pl with
  | .slot base i =>
    let len := slotRowBytes d c0 cnt
    let s1 := noteRead s (benchAddr c (base + i * len)) len
    (s1, fin (slotUnits s1 c d c0 cnt lim base i))
  | .tensor =>
    let (s1, us) := fetchUnits s c space d r c0 (min (c0 + cnt) lim) (unitsOf d c0 (min (c0 + cnt) lim - c0))
    (s1, fin us)

/-- The value of an element. -/
def El.val (d : Desc) (e : El) : Num := decodeScaled d.fm e.scale e.code

/-- An element decoded to FP32 for an operation that only reads it: a block scale of 0xFF is seen as a NaN, an infinity as an infinity (R46, R49, R73, R268). -/
def El.read (d : Desc) (e : El) : F32 × Flags :=
  let (x, f) := f32round (e.val d)
  (x, { nan := d.fm.isMx && e.scale == 255, inf := f.inf })

/-- The flags that reading elements raises whatever is done with them. -/
def readEls (d : Desc) (l : List El) : Flags := Flags.orAll (l.map (fun e => (e.read d).2))

/-! ### Writing a dense destination -/

/-- An element to be written: its column, its rounding and its value, or a code that is stored as it is. -/
structure WEl where
  col : Nat
  rnd : Rnd
  val : Num
  raw : Option Nat := none
  deriving DecidableEq, Repr

/-- The code of an element to be written. -/
def WEl.cvt (f : Fmt) (e : WEl) : Cvt :=
  match e.raw with
  | some c => ⟨c, .none⟩
  | none => cvtScalar f e.rnd e.val

/-- Bytes written at an offset from a tensor's BASE, as a pending write. -/
def wrAt (d : Desc) (off : Nat) (bs : List Byte) : Int × List Byte := (d.base + off, bs)

/-- Writes to be made to a tensor: address (virtual, or a Bench offset) and bytes. -/
abbrev Writes := List (Int × List Byte)

/-- Scalar elements of 8 bits and more, written one by one (R53, R60). -/
def writeWide (d : Desc) (r : Nat) (els : List WEl) : Writes × Flags :=
  els.foldl (fun (p : Writes × Flags) e =>
    let v := e.cvt d.fm
    let w := d.fm.bits / 8
    (p.1 ++ [wrAt d (d.rowOffset r + e.col * w) (leBytes w v.code)], p.2.or v.flags)) ([], .none)

/-- 4-bit scalar elements: the other half of a byte keeps its old bits (R53, R60). `old` gives the row's bytes from column 0. -/
def writeNibbles (d : Desc) (r : Nat) (old : List Byte) (els : List WEl) : Writes × Flags :=
  let (bs, fl) := els.foldl (fun (p : List Byte × Flags) e =>
    let v := e.cvt d.fm
    let b := p.1.getD (e.col / 2) 0
    (p.1.set (e.col / 2) (setBf b (if e.col % 2 = 0 then 3 else 7) (if e.col % 2 = 0 then 0 else 4) v.code), p.2.or v.flags)) (old, .none)
  match els.head?, els.getLast? with
  | some a, some z =>
    let lo := a.col / 2
    ([wrAt d (d.rowOffset r + lo) ((bs.drop lo).take (z.col / 2 + 1 - lo))], fl)
  | _, _ => ([], fl)

/-- One MX block of a row written, kept elements re-encoded under the new scale (R50, R51, R606). `sup` is the row's superblock that holds block `b`. -/
def mxBlockWrite (d : Desc) (r : Nat) (sup : List Byte) (b : Nat) (els : List WEl) : Writes × Flags :=
  let oldEls := ((decodeSuper d sup).drop (32 * (b % 8))).take 32
  let inside := (List.range 32).filter (fun i => decide (32 * b + i < d.cols))
  let vals := inside.map (fun i =>
    match els.find? (fun e => e.col == 32 * b + i) with
    | some e => (i, e.rnd, e.val, true)
    | none => (i, Rnd.rne, (oldEls.getD i (padEl d)).val d, false))
  let scale := mxScale d.fm (vals.map (fun v => v.2.2.1))
  let enc := vals.map (fun v => (v.1, mxElem d.fm scale v.2.1 v.2.2.1, v.2.2.2))
  let fl := Flags.orAll ((enc.filter (fun e => e.2.2)).map (fun e => e.2.1.flags))
  let codes := enc.foldl (fun (l : List Nat) e => l.set e.1 e.2.1.code) (oldEls.map El.code)
  let at' := d.rowOffset r + b / 8 * d.superBytes
  ([wrAt d (at' + b % 8) [BitVec.ofNat 8 scale], wrAt d (at' + 8 + b % 8 * (4 * d.fm.bits)) (packElems d.fm.bits codes)],
    { fl with nan := fl.nan || scale == 255 })

/-- The MX blocks of a row that a write touches, each read, converted and written (R606). -/
def writeMx (s : State) (c space : Nat) (d : Desc) (r : Nat) (els : List WEl) : List Nat → State × Except MemErr (Writes × Flags)
  | [] => (s, .ok ([], .none))
  | b :: t =>
    match fetchBytes s c space d (d.rowOffset r + b / 8 * d.superBytes) d.superBytes with
    | (s1, .error e) => (s1, .error e)
    | (s1, .ok sup) =>
      let (w, f) := mxBlockWrite d r sup b (els.filter (fun e => e.col / 32 == b))
      match writeMx s1 c space d r els t with
      | (s2, .error e) => (s2, .error e)
      | (s2, .ok (w', f')) => (s2, .ok (w ++ w', f.or f'))

/-- The masked writes of some elements of a row of a dense destination, in ascending columns, with the flags of their conversion (R60, R234, R287). -/
def writeRow (s : State) (c space : Nat) (d : Desc) (r : Nat) (els : List WEl) : State × Except MemErr (Writes × Flags) :=
  if els.isEmpty then (s, .ok ([], .none))
  else if d.fm.isMx then writeMx s c space d r els (runsOf (els.map (fun e => e.col / 32)))
  else if d.fm.bits = 4 then
    match fetchBytes s c space d (d.rowOffset r) (cdiv (d.cols * 4) 8) with
    | (s1, .error e) => (s1, .error e)
    | (s1, .ok old) => (s1, .ok (writeNibbles d r old els))
  else (s, .ok (writeWide d r els))

/-- Writes applied: to the core's own Bench, or through translation (R110). -/
def applyWrites (s : State) (c space : Nat) (bench : Bool) : Writes → State × Except MemErr Unit
  | [] => (s, .ok ())
  | (a, bs) :: t =>
    if bench then applyWrites (benchWrite s c (a % 0x10000000).toNat bs) c space bench t
    else
      match writeV s c space a bs with
      | (s1, .error e) => (s1, .error e)
      | (s1, .ok _) => applyWrites s1 c space bench t

/-- Every translation of some writes made without writing, so that a row block commits whole or not at all (R234). -/
def probeWrites (s : State) (c space : Nat) (bench : Bool) : Writes → State × Except MemErr Unit
  | [] => (s, .ok ())
  | (a, bs) :: t =>
    if bench then (s, .ok ())
    else
      match translateAll s c space true (pagePieces a bs.length) with
      | (s1, .error e) => (s1, .error e)
      | (s1, .ok _) => probeWrites s1 c space bench t

/-- Writes made together, or not at all when one of them fails (R234). -/
def commitWrites (s : State) (c space : Nat) (bench : Bool) (ws : Writes) : State × Except MemErr Unit :=
  match probeWrites s c space bench ws with
  | (s1, .error e) => (s1, .error e)
  | (s1, .ok _) => applyWrites s1 c space bench ws

/-- The rounding of element `idx` of a destination: RMODE, or stochastic with the draw of R58 when SR is 1 (R55). -/
def rndOf (i : Inst) (seed : Reg) (idx : Nat) : Rnd :=
  if W.sr i.word then .sr (srDraw seed idx i.srCnt)
  else (Rnd.ofCode (W.rmode i.mn i.word)).getD .rne

/-- The linear index of element (r, col) of a tensor, row-major over its dimensions (R58). -/
def linIndex (d : Desc) (r col : Nat) : Nat := r * d.cols + col

end Sys2Proof.Machine
end

