-- ==== Sys2Proof/Machine/Plan.lean ====
section
/-! DEFINITION. The tiler's plan of an instruction: tile grid, loop orders, groups of output tiles, Bench footprints, streams and transfer
descriptors (R301 to R323, R335, R344, R345). -/

namespace Sys2Proof.Machine

/-! ### The tile grid of layout T (R302, R303) -/

/-- The grid of a product: extents, tile sizes and tile counts. -/
structure Grid where
  m : Nat
  k : Nat
  n : Nat
  mt : Nat
  kt : Nat
  nt : Nat
  tm : Nat
  tk : Nat
  tn : Nat
  deriving DecidableEq, Repr

/-- M_t: rows of every row tile (R303). -/
def tileRows (m : Nat) : Nat := 4 * cdiv (cdiv m (cdiv m 256)) 4

/-- K_t of an instruction (R302, R217): 512 logical positions for MXM.MMS with TRANS = 0 in full mode. -/
def tileK (mn : Mn) (w : IWord) : Nat :=
  if mn = .mms ∧ W.pack w = 0 ∧ !W.trans w then 512 else faceOf (W.pack w)

/-- The grid of a product with reduction length `k` and `n` output columns (R302, R303). -/
def gridOf (mn : Mn) (w : IWord) (k n : Nat) : Grid :=
  let m := W.m w
  let kt := tileK mn w
  let nt := faceOf (W.pack w)
  { m := m, k := k, n := n, mt := tileRows m, kt := kt, nt := nt, tm := cdiv m 256, tk := cdiv k kt, tn := cdiv n nt }

/-! ### Loop orders (R308, R309, R111) -/

/-- The triples of three ranges in the order of a loop-order code, outermost axis first; codes 1 to 6 (R111). -/
def visit {α : Type} (code : Nat) (ms ns ks : List α) : List (α × α × α) :=
  match code with
  | 2 => ms.flatMap (fun m => ks.flatMap (fun k => ns.map (fun n => (m, n, k))))
  | 3 => ns.flatMap (fun n => ms.flatMap (fun m => ks.map (fun k => (m, n, k))))
  | 4 => ns.flatMap (fun n => ks.flatMap (fun k => ms.map (fun m => (m, n, k))))
  | 5 => ks.flatMap (fun k => ms.flatMap (fun m => ns.map (fun n => (m, n, k))))
  | 6 => ks.flatMap (fun k => ns.flatMap (fun n => ms.map (fun m => (m, n, k))))
  | _ => ms.flatMap (fun m => ns.flatMap (fun n => ks.map (fun k => (m, n, k))))

/-- The step sequence of a grid of `tm` × `tn` × `tk` tiles (R308). -/
def stepSequence (loLpddr loLarder loBench tm tn tk : Nat) : List (Nat × Nat × Nat) :=
  (visit loLpddr (chunks 16 (List.range tm)) (chunks 16 (List.range tn)) (chunks 16 (List.range tk))).flatMap (fun sb =>
    (visit loLarder (chunks 4 sb.1) (chunks 4 sb.2.1) (chunks 4 sb.2.2)).flatMap (fun b => visit loBench b.1 b.2.1 b.2.2))

/-- Bytes of 256 elements of an operand in its dense or N:M form, scales included (R309). -/
def bytesPer256 (d : Desc) : Nat :=
  if d.comp = 2 ∨ d.comp = 3 then d.nmSegBytes else 32 * d.fm.bits + (if d.fm.isMx then 8 else 0)

/-- 256 times the bytes of B in an instruction's extent: K × N elements in their dense form, or the whole segments that hold them (R74, R309). -/
def bytesOfB256 (w : IWord) (b : Desc) : Nat :=
  let rows := if W.trans w then W.k w else W.nT w
  let c0 := if W.trans w then W.colOff w else 0
  let n := if W.trans w then W.nT w else W.k w
  if b.comp = 2 ∨ b.comp = 3 then 256 * (rows * (cdiv (c0 + n) 256 - c0 / 256) * b.nmSegBytes) else rows * n * bytesPer256 b

/-- The default of the LPDDR5X level: MNK when A occupies at least as many bytes as B, otherwise NMK, by the instruction's own extents (R309). -/
def lpddrOrder (w : IWord) (a b dst : Desc) : Nat :=
  if dst.loLpddr ≠ 0 then dst.loLpddr
  else if bytesOfB256 w b ≤ W.m w * W.k w * bytesPer256 a then 1 else 3

/-! ### Groups of output tiles (R310, R237) -/

/-- The last position of `x` in a list, counted from `p`. -/
def lastAt {α : Type} [DecidableEq α] (x : α) : Nat → List α → Nat → Nat
  | _, [], acc => acc
  | p, y :: t, acc => lastAt x (p + 1) t (if y = x then p else acc)

/-- The sets of output tiles that the sequence keeps open together, in order of first appearance. -/
def openSets (full : List (Nat × Nat)) : Nat → List (Nat × Nat) → List (Nat × Nat) → Nat → List (List (Nat × Nat))
  | _, [], cur, _ => if cur.isEmpty then [] else [cur]
  | p, x :: t, cur, last =>
    if cur.isEmpty then openSets full (p + 1) t [x] (lastAt x 0 full 0)
    else if last < p then cur :: openSets full (p + 1) t [x] (lastAt x 0 full 0)
    else if cur.contains x then openSets full (p + 1) t cur last
    else openSets full (p + 1) t (cur ++ [x]) (max last (lastAt x 0 full 0))

/-- Neighbouring lists joined while the result has at most `o` entries. -/
def joinUpTo {α : Type} (o : Nat) : List (List α) → List α → List (List α)
  | [], cur => if cur.isEmpty then [] else [cur]
  | x :: t, cur => if cur.length + x.length ≤ o then joinUpTo o t (cur ++ x) else cur :: joinUpTo o t x

/-- The groups of output tiles, each of at most `o`, in the order of first appearance (R237, R310). A sequence that never keeps more than `o` open runs as it stands, so what it keeps open
together stays in one group. -/
def tileGroups (seq : List (Nat × Nat × Nat)) (o : Nat) : List (List (Nat × Nat)) :=
  let ts := seq.map (fun x => (x.1, x.2.1))
  let sets := openSets ts 0 ts [] 0
  let lim := max o 1
  if sets.all (fun l => decide (l.length ≤ lim)) then (joinUpTo lim sets []).filter (fun l => !l.isEmpty) else chunks lim sets.flatten

/-! ### Bench footprints (R317 to R320) -/

/-- The Bench offset and bytes of a tray's region (R106). -/
def regionOfBreg (st : Settings) (r : Nat) : Nat × Nat :=
  let p := st.bregs.getD r (0, 0)
  (p.1 * 65536, p.2 * 65536)

/-- A of R320: bytes of the status array of `n` output tiles. -/
def statusBytes (n : Nat) : Nat := roundUp (16 * n) 64

/-- PS of R320. -/
def partialBytes (g : Grid) (comp : Bool) : Nat := g.mt * g.nt * 4 * (if comp then 2 else 1)

/-- O of R320: the output tiles of one instruction open at once. -/
def openLimitOf (g : Grid) (region : Nat) (comp : Bool) : Nat :=
  if g.tk ≤ 1 then 32
  else
    let q := (region - statusBytes (g.tm * g.tn)) / partialBytes g comp
    if q = 0 then 1 else min 32 q

/-- Slot bytes of R318 for blocks of `rows` × `cols` that begin at columns `starts`: whole segments of 256 columns for crumbs and MX formats, as many as a block overlaps, and for N:M
the shares of the segments that its columns take. -/
def slotBytesOf (d : Desc) (rows cols : Nat) (starts : List Nat) : Nat :=
  roundUp (if d.plain then cdiv (rows * cols * d.fm.bits) 8 else rows * (starts.map (fun c0 => slotRowBytes d c0 cols)).foldl max 0) 64

/-! ### The plan of a product -/

/-- One output tile of the plan (R235, R302, R303). -/
def newTile (g : Grid) (group m n : Nat) : OTile :=
  { m := m, n := n, row0 := m * g.mt, col0 := n * g.nt, rows := min g.mt (g.m - m * g.mt), cols := min g.nt (g.n - n * g.nt),
    group := group, stepsLeft := g.tk, counts := List.replicate g.mt 0, zeroShape := decide (g.k = 0) }

/-- The output tiles of a plan, in their numbering, and its steps. -/
def planProduct (g : Grid) (order : Nat) (dst : Desc) (o : Nat) : List OTile × List PStep :=
  let lar := if dst.loLarder = 0 then 1 else dst.loLarder
  let ben := if dst.loBench = 0 then 1 else dst.loBench
  let seq := stepSequence order lar ben g.tm g.tn (max g.tk 1)
  let gs := tileGroups seq o
  let tiles := gs.zipIdx.flatMap (fun p => p.1.map (fun x => newTile g p.2 x.1 x.2))
  let number := fun (m n : Nat) => (tiles.findIdx (fun t => t.m == m && t.n == n))
  let steps := if g.tk = 0 then [] else
    gs.flatMap (fun grp => (seq.filter (fun x => grp.contains (x.1, x.2.1))).map (fun x => ⟨number x.1 x.2.1, x.2.2⟩))
  (tiles, steps)

/-! ### The plan of layout V (R267, R288) -/

/-- The rows and columns of DST that an instruction of layout V writes (R99, R257, R295). -/
def outShapeV (mn : Mn) (w : IWord) : Nat × Nat :=
  match mn with
  | .cen => (cdiv (W.m w) 256, cdiv (W.nV w) 256)
  | .red | .stat => (W.m w, if W.redop w = 5 then 2 else 1)
  | _ => (W.m w, W.nV w)

/-- The output tiles of a region of `rows` × `cols`, row-major (R235, R288). -/
def planTiles (rows cols : Nat) : List OTile :=
  (List.range (cdiv rows 256)).flatMap (fun m => (List.range (cdiv cols 256)).map (fun n =>
    { m := m, n := n, row0 := 256 * m, col0 := 256 * n, rows := min 256 (rows - 256 * m), cols := min 256 (cols - 256 * n),
      group := 0, opened := true, stepsLeft := 0, counts := [] }))

/-- The steps of a region: one per row block of four rows (R267). -/
def planRows (rows : Nat) : List PStep := (List.range (cdiv rows 4)).map (fun b => ⟨b / 64, b⟩)

/-! ### Transfer descriptors of an XFER (R333, R344, R345) -/

/-- Rows taken in order in runs whose bytes stay within 64 KiB; a longer row in pieces of 64 KiB. `unit` is the bytes a row counts for. -/
def xferRows (rows : List (Nat × Nat)) (unit : Nat) : List Xd :=
  if unit ≤ 65536 then
    (chunks (max 1 (65536 / max unit 1)) rows).map (fun l => { rows := l, byte0 := 0, bytes := unit })
  else
    rows.flatMap (fun r => (List.range (cdiv unit 65536)).map (fun p =>
      { rows := [r], byte0 := 65536 * p, bytes := min 65536 (unit - 65536 * p) }))

/-- The same for crumb rows, counted by their bound; a longer row in runs of whole segments (R345). `byte0` and `bytes` count segments. -/
def xferCrumbRows (rows : List (Nat × Nat)) (segs bound : Nat) : List Xd :=
  if segs * bound ≤ 65536 then
    (chunks (max 1 (65536 / max (segs * bound) 1)) rows).map (fun l => { rows := l, byte0 := 0, bytes := segs })
  else
    let k := max 1 (65536 / bound)
    rows.flatMap (fun r => (List.range (cdiv segs k)).map (fun p =>
      { rows := [r], byte0 := k * p, bytes := min k (segs - k * p) }))

/-- The transfer descriptors of an XFER (R333, R344, R345). Rows are pairs of a source row and a destination row, or of an entry of IDX and its row; of a pooled gather every entry of a bag
is named with the row of its bag. -/
def planXfer (mn : Mn) (w : IWord) (src : Desc) : List Xd :=
  let n := W.m w
  let rows : List (Nat × Nat) := match mn with
    | .gather => (List.range n).map (fun r => (r, W.dstRow w + r))
    | .scatter => (List.range n).map (fun r => (W.srcRow w + r, r))
    | .pref => (List.range n).map (fun r => (W.srcRow w + r, 0))
    | _ => (List.range n).map (fun r => (W.srcRow w + r, W.dstRow w + r))
  if mn = .gather ∧ W.pool w ≠ 0 then
    let unit := if src.comp = 1 then src.segs * src.crumbBound else src.rowBytes
    let entries := rows.flatMap (fun p => (List.range (W.bag w)).map (fun k => (p.1 * W.bag w + k, p.2)))
    (chunks (max 1 (65536 / max unit 1)) entries).map (fun l => { rows := l, byte0 := 0, bytes := src.rowBytes })
  else if src.comp = 1 then xferCrumbRows rows src.segs src.crumbBound
  else xferRows rows src.rowBytes

/-- Runs of `n` elements cut into pieces of `per`: the first element and the length of each. -/
def elementRuns (e0 n per : Nat) : List Xd :=
  (List.range (cdiv n per)).map (fun i => { rows := [(e0 + i * per, min per (n - i * per))], byte0 := 0, bytes := 0 })

/-- Elements of `d` that fill at most 64 KiB: whole superblocks for an MX format. -/
def elemsPer64K (d : Desc) : Nat := if d.fm.isMx then 65536 / d.superBytes * 256 else 65536 * 8 / d.fm.bits

/-- The stored segment that holds element `e` of a tensor, its segments counted in row-major order. -/
def segOfElem (d : Desc) (e : Nat) : Nat := e / max 1 d.cols * d.segs + e % max 1 d.cols / 256

/-- The transfer descriptors of FAB.SEND and FAB.MCAST (R93, R333, R479): runs of whole destination rows, or parts of a row longer than 64 KiB; of a tensor that is not dense, runs of the
stored segments that hold the elements, counted in `byte0` and `bytes`. -/
def planFab (e0 n : Nat) (src dst : Desc) : List Xd :=
  if src.comp ≠ 0 then
    let total := if n = 0 then 0 else segOfElem src (e0 + n - 1) + 1 - segOfElem src e0
    let per := max 1 (65536 / max 1 (if src.comp = 1 then src.crumbBound else src.nmSegBytes))
    (List.range (cdiv total per)).map (fun i => { rows := [(0, 0)], byte0 := i * per, bytes := min per (total - i * per) })
  else
  let rb := max 1 (dst.rowBytesOf dst.cols)
  if rb ≤ 65536 then elementRuns 0 n (max 1 (65536 / rb * dst.cols))
  else (List.range (cdiv n dst.cols)).flatMap (fun r => elementRuns (r * dst.cols) (min dst.cols (n - r * dst.cols)) (elemsPer64K dst))

/-! ### Streams (R317, R335, R336) -/

/-- The A block of row tile `m` and pass `k` (R318). -/
def blockA (w : IWord) (g : Grid) (m k : Nat) : Blk :=
  { bi := m, bj := k, rows := (List.range (min g.mt (g.m - m * g.mt))).map (fun r => W.rowOffT w + m * g.mt + r), col0 := k * g.kt, cols := g.kt, lim := g.k }

/-- The A block of a K-masked product's pass `k`: A is read in full, and the columns up to those of the pass's last neuron that no earlier pass has read come with it (R180). `l` holds the
neurons of E, ascending. -/
def blockAOf (w : IWord) (g : Grid) (l : List Nat) (m k : Nat) : Blk :=
  let first := fun (j : Nat) => l.getD (j * g.kt) 0 / 256
  let last := fun (j : Nat) => l.getD (min l.length ((j + 1) * g.kt) - 1) 0 / 256
  let c0 := if k = 0 then 0 else 256 * min (first k) (last (k - 1) + 1)
  let c1 := if g.tk ≤ k + 1 then W.k w else min (W.k w) (256 * (last k + 1))
  { blockA w g m k with col0 := c0, cols := c1 - c0, lim := W.k w }

/-- The B block of column tile `n` and pass `k` (R97, R318). `sel` holds the neurons of a masked instruction, in ascending order: columns of the output, or
reduction positions when `kMasked` (R179, R180). -/
def blockB (w : IWord) (g : Grid) (sel : Option (List Nat)) (n k : Nat) : Blk :=
  let pick := fun (a len : Nat) => match sel with
    | some l => (l.drop a).take len
    | none => (List.range len).map (fun r => a + r)
  if W.trans w then
    { bi := n, bj := k, rows := pick (k * g.kt) (min g.kt (g.k - k * g.kt)), col0 := W.colOff w + n * g.nt, cols := g.nt, lim := W.colOff w + g.n }
  else
    { bi := n, bj := k, rows := (pick (n * g.nt) (min g.nt (g.n - n * g.nt))).map (fun r => W.colOff w + r), col0 := k * g.kt, cols := g.kt, lim := g.k }

/-- Consecutive steps that need one block share one fill (R336). -/
def fillsOf : List (PStep × Blk) → List Fill
  | [] => []
  | (p, b) :: t =>
    match fillsOf t with
    | [] => [⟨b, [p]⟩]
    | f :: r => if f.blk = b then ⟨b, p :: f.users⟩ :: r else ⟨b, [p]⟩ :: f :: r

/-- A stream of an operand, with its slots in the operand's region (R317 to R319, R335). `rows` and `cols` are the extents of a full block. -/
def newStream (tray seq started : Nat) (st : Settings) (d : Desc) (role : Role) (rows cols : Nat) (fills : List Fill) (issued : Bool) : Stream :=
  let r := regionOfBreg st d.breg
  let sb := max 64 (slotBytesOf d rows cols (if fills.isEmpty then [0] else fills.map (fun f => f.blk.col0)))
  let n := max 2 (min 8 (r.2 / sb))
  { tray := tray, seq := seq, role := role, base := r.1, slotBytes := sb, fill := fills, next := none, slots := List.replicate n ⟨.free, none⟩, started := started,
    issued := issued, held := false, spilled := [], event := started }

/-- The pieces of a block that one transfer descriptor each brings (R333): pairs of a row of the block and a unit of that row; a run of elements longer than
64 KiB counts in units of 64 KiB. -/
def fillParts (d : Desc) (b : Blk) : List (List (Nat × Nat)) :=
  let pitch := unitPitch d b.cols
  let units := if d.plain then cdiv pitch 65536 else (unitsOf d b.col0 b.cols).length
  let all := (List.range b.rows.length).flatMap (fun i => (List.range units).map (fun u => (i, u)))
  chunks (max 1 (65536 / max 1 (min pitch 65536))) all

end Sys2Proof.Machine
end

