-- ==== Sys2Proof/Machine/Launch.lean ====
section
/-! DEFINITION. What an instruction brings with it when it issues: its plan of tiles, steps and transfers, its streams, and the requests for their fills (R178 to R180, R301 to
R320, R332 to R336, R344). -/

namespace Sys2Proof.Machine

/-- An instruction as it issues, before its plan. -/
def newInst (r : Tray) (mn : Mn) (w : IWord) (descs : List (Role × Nat × Desc)) : Inst :=
  { seq := r.nextSeq, index := r.pc, mn := mn, word := w, descs := descs, set := r.set, waitMet := false, released := false, srCnt := 0, planned := false,
    openLimit := 32, steps := [], tiles := [], running := 0, counts := [], xds := [], upd := {}, lev := {}, mask := none, msgs := [], red := {},
    nin := 0, bcast := none, rowStat := [], zeroShape := false, flags := {}, marks := [], lastPass := 0, idxChecked := false, idxRead := [], idx := [], done := false }

/-! ### Masks (R176 to R180) -/

/-- The LEV.PRED's bitmap that a masked instruction takes. -/
def maskMap (s : State) (t : Nat) (i : Inst) : Option LevMap :=
  i.mask.bind (fun b => (s.core (coreOf t)).levain.maps.find? (fun m => m.tray == t && m.seq == b.pred))

/-- The neurons of E that a masked instruction computes, ascending (R179, R180). -/
def maskSel (s : State) (t : Nat) (i : Inst) : Option (List Nat) := (maskMap s t i).map (fun m => onesOf m.neurons m.e)

/-- Whether the instruction is N-masked: its columns are compacted. -/
def Inst.nMasked (i : Inst) : Bool := i.mask.any (fun b => !b.kMasked)

/-- Whether a masked instruction observes columns of A when it is its arming's first (R181, R183). -/
def Inst.observes (i : Inst) : Bool := i.mask.any (fun b => b.kMasked) && !i.zeroShape

/-- The grid of a product, over the neurons of E alone on the masked axis (R179, R180, R302). -/
def gridFor (i : Inst) (sel : Option (List Nat)) : Grid :=
  let w := i.word
  match i.mask, sel with
  | some b, some l => if b.kMasked then gridOf i.mn w l.length (W.nT w) else gridOf i.mn w (W.k w) l.length
  | _, _ => gridOf i.mn w (W.k w) (W.nT w)

/-! ### Plans -/

/-- The plan of a product (R301 to R310, R320). An N-masked product with no neuron keeps one column of tiles without columns of its own, for the padding of R179. -/
def planT (i : Inst) (sel : Option (List Nat)) : Inst :=
  let g0 := gridFor i sel
  let g := { g0 with tn := max 1 g0.tn }
  let d := i.desc .dst
  let o := openLimitOf g (regionOfBreg i.set d.breg).2 (W.comp i.word)
  let (tiles, steps) := planProduct g (lpddrOrder i.word (i.desc .srca) (i.desc .srcb) d) d o
  let all := if g0.n = 0 then tiles.map (fun x => { x with cols := 0, stepsLeft := 0 }) else tiles
  { i with planned := true, openLimit := o, tiles := all, steps := if g0.n = 0 then [] else steps }

/-- Members of a FAB.RED's group that it sends to, its own index, and its slice (R109). -/
def planRed (s : State) (i : Inst) : Inst :=
  let g := W.mgroup i.word
  let ms := groupMembers s g
  let own := groupSelf s g
  let slice := if ms.length = 0 then 0 else W.m i.word / ms.length
  let src := i.desc .srca
  let per := if W.comp i.word && src.fmt == 7 then 8192 else elemsPer64K src
  let runs := (List.range ms.length).flatMap (fun j => (elementRuns (j * slice) slice per).map (fun x => (j, x)))
  { i with planned := true, xds := runs.map (fun p => p.2),
           msgs := runs.zipIdx.map (fun p => ⟨p.2, 0, p.1.1, ms.getD p.1.1 0, .waiting⟩),
           red := { group := g, rseq := (s.fld (Csr.group g) 47 32 + 1) % 65536, members := ms, own := own, slice := slice, addedFrom := [] } }

/-- Messages of a transfer descriptor of XFER.REMOTE, FAB.SEND or FAB.MCAST: one, or for crumbs one for the directory entries and one for each crumb. DESIGN CHOICE, log entry 53: a header's rows
of one length at one stride (R477) cannot place crumbs. -/
def partsOfXd (src : Desc) (x : Xd) : Nat := if src.comp = 1 then 1 + x.rows.length * x.bytes else 1

/-- The plan of an instruction, made when it issues; a masked product's waits for its bitmap (R178, R301). -/
def planInst (s : State) (i : Inst) : Inst :=
  let w := i.word
  if ((i.mn.isProduct || i.mn.isV) && i.mn != .ldp && (W.m w == 0 || (if i.mn.isProduct then W.nT w else W.nV w) == 0)) || (i.mn == .ldw && W.nT w == 0) then
    { i with planned := true, zeroShape := true }
  else if i.mn = .upd then
    { i with planned := true, zeroShape := W.m w == 0, steps := [⟨0, 0⟩] }
  else if i.mn = .ldw ∨ i.mn = .ldp then { i with planned := true, steps := [⟨0, 0⟩] }
  else if i.mn.isProduct then (if i.mask.isSome then i else planT i none)
  else if i.mn = .cen then
    { i with planned := true, tiles := planTiles (outShapeV i.mn w).1 (outShapeV i.mn w).2, steps := planRows (outShapeV i.mn w).1 }
  else if i.mn.isV then
    { i with planned := true, tiles := planTiles (outShapeV i.mn w).1 (outShapeV i.mn w).2, steps := planRows (W.m w) }
  else if i.mn = .pred then
    let rows := (i.desc .srca).rows
    { i with planned := true, steps := (List.range rows).map (fun r => ⟨0, r⟩), lev := { i.lev with rows := rows } }
  else if i.mn.isX then
    let xs := planXfer i.mn w (i.desc .srca)
    { i with planned := true, xds := xs,
             msgs := if i.mn = .remote then xs.zipIdx.flatMap (fun p => (List.range (partsOfXd (i.desc .srca) p.1)).map (fun q => ⟨p.2, q, 0, W.faddrX w, .waiting⟩)) else [] }
  else if i.mn = .fred then planRed s i
  else if i.mn.isFab then
    let xs := planFab (W.srcOff w) (W.m w) (i.desc .srca) (i.desc .dst)
    let dst := if i.mn = .fsend then W.faddrF w else W.mgroup w
    { i with planned := true, xds := xs,
             msgs := xs.zipIdx.flatMap (fun p => (List.range (partsOfXd (i.desc .srca) p.1)).map (fun q => ⟨p.2, q, 0, dst, .waiting⟩)) }
  else { i with planned := true }

/-! ### Streams -/

/-- The inputs of an instruction of layout V that are streamed when they lie in memory: not the broadcast operands of R271, and not an index row used by every strip. -/
def streamedV (i : Inst) : List Role :=
  let w := i.word
  let full := fun (r : Role) => decide (classOf (i.desc r) (W.rowOffV w) (W.m w) (W.nV w) = some .full)
  let many := fun (r : Role) => decide (1 < (i.desc r).rows)
  let mask := if W.maskEn w && many .maskd then [Role.maskd] else []
  match i.mn with
  | .exp | .cmp => [.srca]
  | .run => [.srca] ++ (if 1 ≤ i.nin && full .srcb then [.srcb] else []) ++ (if 2 ≤ i.nin && full .srcc then [.srcc] else []) ++ mask
  | .cpr | .exd | .red | .stat => [.srca] ++ mask
  | .prm => [.srca] ++ (if many .srcb then [.srcb] else []) ++ mask
  | _ => []

/-- The block of four rows of a layout V input (R318). -/
def blockV (i : Inst) (role : Role) (b : Nat) : Blk :=
  let w := i.word
  let d := i.desc role
  let n := if role = .maskd then cdiv (W.nV w) 32 else W.nV w
  { bi := b, bj := 0, rows := (List.range (min 4 (W.m w - 4 * b))).map (fun r => W.rowOffV w + 4 * b + r), col0 := 0, cols := n, lim := min n d.cols }

/-- The operands of an instruction that are streamed (R317, R335), with the extents of a full block and their fills. -/
def streamsOf (i : Inst) (sel : Option (List Nat)) : List (Role × Nat × Nat × List Fill) :=
  let inMem := fun (r : Role) => !(i.desc r).bench
  if i.mn.isProduct then
    let g := gridFor i sel
    let kM := i.mask.any (fun b => b.kMasked)
    let a : List (Role × Nat × Nat × List Fill) := if inMem .srca then
      [(.srca, g.mt, g.kt, fillsOf (i.steps.map (fun p =>
        (p, if kM then blockAOf i.word g (sel.getD []) (i.tile p.tile).m p.k else blockA i.word g (i.tile p.tile).m p.k))))] else []
    let b : List (Role × Nat × Nat × List Fill) := if inMem .srcb then
      [(.srcb, if W.trans i.word then g.kt else g.nt, if W.trans i.word then g.nt else g.kt,
        fillsOf (i.steps.map (fun p => (p, blockB i.word g sel (i.tile p.tile).n p.k))))] else []
    a ++ b
  else if i.mn = .ldw then
    if inMem .srcb then
      let w := i.word
      let face := faceOf (W.pack w)
      let k := max 1 (W.k w)
      let n := max 1 (W.nT w)
      let blk : Blk := if W.trans w then { bi := 0, bj := 0, rows := List.range (W.k w), col0 := W.colOff w, cols := n, lim := W.colOff w + W.nT w }
        else { bi := 0, bj := 0, rows := (List.range (W.nT w)).map (fun r => W.colOff w + r), col0 := 0, cols := k, lim := W.k w }
      [(.srcb, face, if W.trans w || decide (k ≤ face) then face else 512, [⟨blk, [⟨0, 0⟩]⟩])]
    else []
  else
    ((streamedV i).filter inMem).map (fun r =>
      (r, 4, (if r = .maskd then cdiv (W.nV i.word) 32 else W.nV i.word), i.steps.map (fun p => ⟨blockV i r p.k, [p]⟩)))

/-! ### Requests on the channels (R332, R334) -/

/-- The channel that a stream fills through: the gather channel for the B rows of a masked product, else the read channel (R332). -/
def streamChannel (i : Inst) (role : Role) : Nat := if i.mask.isSome && role == .srcb then 3 else 0

/-- A request put at the end of a channel's waiting list, with the cycle in which it begins to wait (R334). -/
def addRequest (s : State) (t seq ch : Nat) (work : XferWork) : State :=
  let r : ChReq := { id := s.ord, tray := t, seq := seq, work := work, urgent := false, since := s.now, issued := false, walks := 0 }
  (s.modChannel (coreOf t) ch (fun h => { h with waiting := h.waiting ++ [r] })).tick

/-- The stream `n` of core `c`'s Proofer changed by `f`. -/
def modStream (s : State) (c n : Nat) (f : Stream → Stream) : State := s.modProofer c (fun p => { p with streams := modAt p.streams n f })

/-- A role from its number. -/
def roleList : List Role := [.dst, .srca, .srcb, .srcc, .maskd, .statd, .idx, .srcb1, .w, .g, .m1, .m2]

/-- The instruction that a stream serves, issued or fetched ahead, as far as its fills go. -/
def streamDesc (s : State) (st : Stream) : Option Desc :=
  match s.inst st.tray st.seq with
  | some i => some (i.desc st.role)
  | none => ((s.tray st.tray).ahead.find? (fun a => a.seq == st.seq)).bind (fun a => (a.descs.find? (fun p => p.1 == st.role)).map (fun p => p.2.2))

/-- Free slots of a stream take its next blocks, each with the requests of its parts (R336); a spilled block waits until its copy is complete (R366). `fuel` bounds the slots. -/
def fillSlots : Nat → State → Nat → Nat → State
  | 0, s, _, _ => s
  | fuel + 1, s, c, n =>
    match (s.core c).proofer.streams[n]? with
    | none => s
    | some st =>
      match st.next.toList ++ st.fill, st.slots.findIdx? (fun x => x.state == .free), streamDesc s st with
      | f :: _, some k, some d =>
        let rest := if st.next.isSome then st.fill else st.fill.drop 1
        let back := st.spilled.any (fun x => x.fill.blk == f.blk)
        let parts := if back then cdiv st.slotBytes 65536 else (fillParts d f.blk).length
        if st.slots.any (fun x => x.state == .leaving && x.fill.any (fun y => y.blk == f.blk)) then s else
        let ch := match s.inst st.tray st.seq with
          | some i => streamChannel i st.role
          | none => 0
        let state : SlotState := if parts = 0 then .written else .filling parts
        let s1 := modStream s c n (fun x => { x with fill := rest, next := none, slots := setAt x.slots k ⟨state, some f⟩ })
        let s2 := (List.range parts).foldl (fun s' p => addRequest s' st.tray st.seq (if back then 0 else ch) (.fill st.role k p)) s1
        let s3 := if st.next.isNone then s2 else s2.modChannel c (if back then 0 else ch) (fun h =>
          { h with waiting := h.waiting.map (fun r => if s1.ord ≤ r.id then { r with urgent := true } else r) })
        fillSlots fuel s3 c n
      | _, _, _ => s

/-- Every stream of a core with a free slot and a block to fill requests it. -/
def pumpStreams (s : State) (c : Nat) : State :=
  (List.range (s.core c).proofer.streams.length).foldl (fun s' n => fillSlots 8 s' c n) s

/-- A stream started, with its first fills requested (R335); none without a block. -/
def startStream (s : State) (t seq : Nat) (st : Settings) (d : Desc) (x : Role × Nat × Nat × List Fill) (issued : Bool) : State :=
  if x.2.2.2.isEmpty then s
  else (s.modProofer (coreOf t) (fun p => { p with streams := p.streams ++ [newStream t seq s.now st d x.1 x.2.1 x.2.2.1 x.2.2.2 issued] })).tick

/-- The NIN of the program that a VXP.RUN names, while no VXP.LDP issued before it is still to load the slot (R269, R281, R283). -/
def ninOf (s : State) (t : Nat) (i : Inst) : Option Nat :=
  if (s.tray t).insts.any (fun j => j.mn == .ldp && !j.done && decide (j.seq < i.seq) && W.prog j.word == W.prog i.word) then none
  else some (bf ((Tab.get [] (s.core (coreOf t)).vec.programs (16 * (t % 8) + W.prog i.word)).getD 0 0) 4 3)

/-- The steps of an instruction that engines hold in their queues, in the order in which they were queued. -/
def stepsReleased (s : State) (t k : Nat) : List Step :=
  let x := s.core (coreOf t)
  let all := x.arrays.toList.flatMap (fun a => a.queue) ++ x.sieve.queue ++ x.vec.queue ++ x.peel.stats ++ x.peel.updates
  sortBy (fun y => y.ord) (all.filter (fun y => y.tray == t && y.seq == k))

/-- Streams of an instruction in flight: those that the read-ahead started go on when they bring the same blocks, the others start; inputs that a
VXP.RUN's program excludes are not streamed (R269, R335, R341). -/
def startStreams (s : State) (t k : Nat) : State :=
  match s.inst t k with
  | none => s
  | some i0 =>
    let c := coreOf t
    let queued := (stepsReleased s t k).map (fun x => (⟨x.tile, x.k⟩ : PStep))
    let i := { i0 with nin := if i0.mn = .run then (ninOf s t i0).getD 0 else i0.nin }
    let want := streamsOf { i with steps := queued ++ i.steps } (maskSel s t i)
    let s1 := (s.modInst t k (fun x => { x with nin := i.nin })).modProofer c (fun p => { p with streams := p.streams.map (fun x => if x.tray = t ∧ x.seq = k then { x with issued := true, held := false } else x) })
    let s2 := want.foldl (fun s' x =>
      if (s'.core c).proofer.streams.any (fun y => y.tray == t && y.seq == k && y.role == x.1) then s'
      else startStream s' t k i.set (i.desc x.1) x true) s1
    pumpStreams s2 c

/-- Streams of an instruction dropped with their requests. -/
def dropStreams (s : State) (t k : Nat) : State :=
  let mine := fun (x : ChReq) => x.tray == t && x.seq == k && (match x.work with | .fill _ _ _ => true | _ => false)
  s.modProofer (coreOf t) (fun p =>
    { p with streams := p.streams.filter (fun x => !(x.tray == t && x.seq == k))
             channels := p.channels.map (Channel.keep (fun x => !mine x)) })

/-- Whether a stream has ended: its last block has been read by the last step that uses it (R335). -/
def Stream.over (x : Stream) : Bool := x.fill.isEmpty && x.next.isNone && x.spilled.isEmpty && x.slots.all (fun y => y.state == .free)

/-- A step has read its block of an operand, or is skipped: the slot is free once every step that it serves has done so (R336, R338), and the stream ends with its last block (R335). -/
def releaseBlock (s : State) (t k : Nat) (role : Role) (step : PStep) : State :=
  let c := coreOf t
  let slot := fun (x : StreamSlot) =>
    match x.fill with
    | some f =>
      if f.users.contains step then
        let left := f.users.filter (fun u => u != step)
        if left.isEmpty && (x.state == .full || x.state == .written) then ⟨.free, none⟩ else { x with fill := some { f with users := left } }
      else x
    | none => x
  let s1 := s.modProofer c (fun p => { p with streams := p.streams.map (fun x =>
    if x.tray = t ∧ x.seq = k ∧ x.role = role then
      { x with slots := x.slots.map slot
               event := if x.slots.any (fun z => z.fill.any (fun f => f.users.contains step)) then s.now else x.event
               next := (x.next.map (fun f => { f with users := f.users.filter (fun u => u != step) })).bind (fun f => if f.users.isEmpty then none else some f)
               fill := (x.fill.map (fun f => { f with users := f.users.filter (fun u => u != step) })).filter (fun f => !f.users.isEmpty)
               spilled := (x.spilled.map (fun f => { f with fill := { f.fill with users := f.fill.users.filter (fun u => u != step) } })).filter
                 (fun f => !f.fill.users.isEmpty) }
    else x) })
  let s2 := s1.modProofer c (fun p => { p with streams := p.streams.filter (fun x => !(x.tray == t && x.seq == k && x.role == role && x.over)) })
  pumpStreams s2 c

/-- Where a step finds a row of an operand: the slot that holds its block, or the tensor when the operand is not streamed. None while the block's credit has not been posted (R28,
R336). -/
def stepPlace (s : State) (t k : Nat) (role : Role) (step : PStep) : Option (Option Nat) :=
  match (s.core (coreOf t)).proofer.streams.find? (fun x => x.tray == t && x.seq == k && x.role == role) with
  | none => some none
  | some st =>
    (st.slots.zipIdx.find? (fun p => p.1.state == .full && p.1.fill.any (fun f => f.users.contains step))).map (fun p =>
      some (st.base + p.2 * st.slotBytes))

/-- Whether a step holds every input credit that it needs (R28). -/
def creditsHeld (s : State) (t k : Nat) (roles : List Role) (step : PStep) : Bool := roles.all (fun r => (stepPlace s t k r step).isSome)

/-- Whether a step still waits for the credit of an operand's block (R28, R355, R363). -/
def blockOwed (s : State) (t k : Nat) (role : Role) (step : PStep) : Bool :=
  (stepPlace s t k role step).isNone && (s.core (coreOf t)).proofer.streams.any (fun x => x.tray == t && x.seq == k && x.role == role &&
    (x.fill ++ x.next.toList ++ x.slots.filterMap (fun z => z.fill)).any (fun f => f.users.contains step))

/-- The place of row `i` of a step's block. -/
def placeRow (p : Option (Option Nat)) (i : Nat) : Place :=
  match p with
  | some (some base) => .slot base i
  | _ => .tensor

end Sys2Proof.Machine
end

