-- ==== Sys2Proof/Machine/Release.lean ====
section
/-! DEFINITION. Release of instructions and token signals (R26, R27, R83, R84, R115 to R118, R120, R124, R332, R335). -/

namespace Sys2Proof.Machine

/-! ### Release (R26, R83, R115, R124) -/

/-- Instructions whose effect is complete when they are released. -/
def Mn.immediate : Mn → Bool
  | .nop | .loop | .endTask | .setvl | .cfg | .pcfg | .aud | .wait | .sig => true
  | _ => false

/-- The count that an instruction's wait needs of each counter (R26, R116). -/
def waitCount (i : Inst) : Nat := if i.mn = .wait then bf i.word 79 64 else 1

/-- Pieces of 64 KiB in which an index tensor is read to be checked (R333, R348). -/
def idxParts (i : Inst) : Nat := max 1 (cdiv (i.desc .idx).elems 16384)

/-- The requests of an XFER or FAB instruction on its channel (R332, R348): an index tensor is read first; messages of FAB.RED's own slice are read like the
others. -/
def requestTransfers (s : State) (t : Nat) (i : Inst) : State :=
  let each := fun (s' : State) (ch : Nat) (ns : List Nat) (f : Nat → XferWork) => ns.foldl (fun x k => addRequest x t i.seq ch (f k)) s'
  let open' := (List.range i.xds.length).filter (fun n => !(i.xds[n]?.any (fun x => x.done)))
  let unsent := (List.range i.msgs.length).filter (fun n => i.msgs[n]?.any (fun m => m.state == .waiting))
  match i.mn with
  | .gather | .scatter =>
    if i.xds.isEmpty then s else if i.idxChecked then each s 3 open' .xfer else each s 0 ((List.range (idxParts i)).filter (fun n => !i.idxRead.contains n)) .index
  | .pref => each s 0 open' .pref
  | .ld => each s 0 open' .xfer
  | .st => each s 1 open' .xfer
  | _ => each s 2 unsent .fab

/-- The first steps of an instruction may run: its stochastic-rounding count is taken, an immediate or zero-shape instruction is done, and a
SYNC.BAR arrives (R120, R314). -/
def releaseInst (s : State) (t k : Nat) : State :=
  match s.inst t k with
  | none => s
  | some i =>
    let s1 := s.modInst t k (fun x => { x with released := true, srCnt := (s.tray t).srCount, done := x.done || x.mn.immediate || x.zeroShape })
    if i.mn = .bar then arriveBarrier s1 t k (bf i.word 67 64) (bf i.word 127 96)
    else if i.zeroShape ∨ !i.planned then s1
    else if i.mn.isX ∨ i.mn.isFab then requestTransfers s1 t i
    else startStreams s1 t k

/-- The tokens of an instruction's wait taken, once. -/
def takeWait (s : State) (t : Nat) (i : Inst) : State :=
  if i.waitMet then s
  else (s.modTray t (fun x => { x with tokens := takeTokens x.tokens (W.wait i.word) (waitCount i) })).modInst t i.seq (fun x => { x with waitMet := true })

/-- The tray's unreleased instruction is released when its FENCE allows and its wait is met; its tokens are taken in that same cycle (R26, R83, R115, R124). A SYNC.WAIT's are taken
in the cycle in which its wait is met, whatever its FENCE holds back (R116). -/
def tryRelease (s : State) (t : Nat) : State :=
  let r := s.tray t
  if !r.live || r.state == .paused then s
  else match r.insts.find? (fun i => !i.released) with
    | none => s
    | some i =>
      if i.waitMet || tokensMet r.tokens (W.wait i.word) (waitCount i) then
        let s1 := s.modTray t (fun x => { x with state := if x.state = .blocked then .run else x.state })
        if (W.fence i.word || i.mn == .endTask) && !(r.insts.all (fun j => decide (i.seq ≤ j.seq))) then (if i.mn = .wait then takeWait s1 t i else s1)
        else releaseInst (takeWait s1 t i) t i.seq
      else s

/-- The instruction that a TOKEN_OVERFLOW is reported at (R567): the task's own signalling instruction, or its oldest uncompleted one. -/
def overflowAt (r : Tray) (own : Option Nat) : Option Nat :=
  match own with
  | some k => some k
  | none => r.insts.head?.map Inst.seq

/-- Tokens of a tray signalled (R26, R27, R84, R117, R118). `own` is the tray's own signalling instruction, if it is one. -/
def signal (s : State) (t mask : Nat) (own : Option Nat) : State :=
  let r := s.tray t
  let (tk, past) := bumpTokens r.tokens mask
  let s1 := s.modTray t (fun x => { x with tokens := tk, tokSat := x.tokSat || (past && x.state == .idle) })
  if past && r.live then
    match overflowAt r own with
    | some k => faultInst s1 t k FC.tokenOverflow 0 0
    | none => endTask s1 t FC.tokenOverflow r.tryInstr 0 0xFFFFFFFF 0 0
  else tryRelease s1 t

end Sys2Proof.Machine
end

