-- ==== Sys2Proof/Machine/HostOps.lean ====
section
/-! DEFINITION. What the host port sends, and the writing of completion records with their notifications and the task boundary (R84, R126 to R130, R451 to R457). -/

namespace Sys2Proof.Machine

/-! ### Sending on the host links (R435, R439, R445, R454) -/

/-- The priority of frames to an endpoint: AE_PCP of a tagged entry, else 0 (R461). -/
def epPrio (s : State) (e : Nat) : Nat := if bit (s.reg (Csr.hpEpAeW0 e)) 61 then s.fld (Csr.hpEpAeW0 e) 60 58 else 0

/-- The port and priority of what a queue pair sends (R463). -/
def qpWay (s : State) (q : Nat) : Nat × Nat := (s.fld (Csr.qpCfg q) 58 58, epPrio s (s.fld (Csr.qpCfg q) 57 54))

/-- The port and priority of an answer: those its command came with (R434). -/
def viaWay (s : State) (v : CctSrc) : Nat × Nat :=
  match v with
  | .udp port prio _ => (port, prio)
  | .send q => qpWay s q

/-- A message sent on a port at a priority: held while the priority is paused, lost while the link is down (R432, R435). -/
def sendOn (s : State) (way : Nat × Nat) (m : HostTx) : State :=
  if !Vec.get s.host.up way.1 false then s
  else if s.host.paused.any (fun p => p.1 == way.1 && p.2.1 == way.2) then s.setHost { s.host with held := s.host.held ++ [(way.1, way.2, m)] }
  else s.sendHost m

/-- Something that a queue pair sends. -/
def sendQp (s : State) (q : Nat) (m : HostTx) : State := sendOn s (qpWay s q) m

/-- The lanes that a port uses in the selected mode are on: 0 to 7 for a port of eight, four a port in the breakout (R430, R512). -/
def lanesOn (s : State) (port : Nat) : Bool := if s.fld Csr.hpCtl 1 0 = 2 then domOn s (112 + port) else domOn s 112 && domOn s 113

/-- A host link goes down: its pause state clears, and what waits on it is lost (R432). -/
def hostDown (s : State) (port : Nat) : State :=
  s.setHost { s.host with up := Vec.put s.host.up port false, paused := s.host.paused.filter (fun p => p.1 != port),
                          held := s.host.held.filter (fun p => p.1 != port) }

/-! ### Notifications (R454) -/

/-- A NOTIFY of a queue to its endpoint. -/
def notify (s : State) (q : Nat) : State :=
  let ep := s.fld (Csr.hqCfg q) 47 44
  let s1 := sendOn s (s.fld (Csr.hqCfg q) 48 48, epPrio s ep) (.notify ep q (s.fld (Csr.hqIndex q) 31 0))
  s1.modHq q (fun x => { x with unnotified := 0, notifyOn := false })

/-- A record has been written to queue `q`: the notifications that it calls for. -/
def notifyRecord (s : State) (q kind : Nat) : State :=
  let cnt := s.fld (Csr.hqParam q) 33 26
  let s1 := s.modHq q (fun x => { x with unnotified := x.unnotified + 1, notifyOn := true })
  if cnt = 0 then s1
  else if kind = 2 ∨ kind = 3 ∨ cnt ≤ (s1.hq q).unnotified ∨ s.fld (Csr.hqParam q) 49 34 = 0 then notify s1 q
  else s1

/-! ### Task boundaries (R84, R120, R176, R187, R206) -/

/-- The bitmaps of a tray freed and its arming ended (R187). -/
def dropMaps (s : State) (t : Nat) : State := s.modLevain (coreOf t) (fun v => { v with maps := v.maps.filter (fun m => m.tray != t) })

/-- The tray enters IDLE (R84): its counters are cleared, the SIG of its CTRL.END, which completes in this cycle, is applied after that, its settings return to their task-start values, its tags and arming end, and every barrier it was to join breaks. -/
def taskBoundary (s : State) (t : Nat) : State :=
  let s1 := endBarriers (dropMaps s t) t
  let s2 := s1.modCore (coreOf t) (fun k => { k with arrays := k.arrays.map (MatArray.drop t) })
  s2.modTray t (fun r =>
    { r with state := .idle, tokens := (bumpTokens (Vector.replicate 8 0) r.endSig).1, endSig := 0, set := .start (t % 8) 0, loops := [], raLoops := [], insts := [], ahead := [], srCount := 0,
             levCalls := 0, arming := none, ending := false, starting := false, alignFault := false, faulted := none, cancelled := [], lost := [] })

/-! ### Completion rings (R451, R452) -/

/-- Records of a ring (R459). -/
def ringSize (s : State) (q : Nat) : Nat := 2 ^ clampN 4 20 (s.fld (Csr.hqRing q) 52 48)

/-- The 32 bytes of a record (R126, R130). -/
def recBytes (r : Rec) (phase : Bool) : List Byte :=
  leBytes 2 r.tag ++ leBytes 2 r.code ++ leBytes 1 r.kind ++ leBytes 1 r.tray ++ leBytes 1 r.queue ++
    leBytes 1 (b2n r.zeroShape + 2 * b2n r.statAny + 128 * b2n phase) ++ leBytes 4 r.index ++ leBytes 4 r.pass ++ leBytes 4 r.rowBlock ++
    leBytes 4 r.aux ++ leBytes 8 r.addr

/-- Bytes that land in host memory go out as an RDMA WRITE of the host connection (R382, R438). -/
def hostWriteOut (s : State) (pa : Nat) (bs : List Byte) : State :=
  if pa.testBit 47 then
    let q := s.fld Csr.hcCtl 9 0
    sendQp s q (.rdmaWrite q (s.fld Csr.hcRkey 31 0) ((s.reg Csr.hcVa).toNat + (pa - 2 ^ 47)) bs)
  else s

/-- Bytes written at a virtual address, those that land in host memory going out on the host connection (R378, R382). -/
def writeThrough (s : State) (walker space : Nat) (va : Int) (bs : List Byte) : State × Except MemErr Unit :=
  match translateAll s walker space true (pagePieces va bs.length) with
  | (s1, .error e) => (s1, .error e)
  | (s1, .ok ps) =>
    ((ps.foldl (fun (a : State × List Byte) p => (hostWriteOut a.1 p.1 (a.2.take p.2), a.2.drop p.2)) (writePieces s1 walker ps bs, bs)).1, .ok ())

/-- A record's write by the module: its page must be present and writable (R451). Answers the code that it fails with, if it does. -/
def ringWrite (s : State) (space va : Nat) (bs : List Byte) : State × Option Nat :=
  match translate s 4 space va false with
  | (s1, .bad code) => (s1, some code)
  | (s1, .ok pa) =>
    let wr := match tFind (tBits 4) s1.mmu.cache space va with
      | some (_, e) => e.wr
      | none => false
    if !wr then (s1, some FC.memPerm)
    else match physCheck s1 pa bs.length true with
      | some (code, _) => (s1, some code)
      | none => (hostWriteOut ((larderTouch s1 4 pa bs.length true).write pa bs) pa bs, none)

/-- What a written, or dropped, record lets happen: the task boundary of its tray (R84, R452). -/
def recDone (s : State) (r : Rec) : State := if r.last then taskBoundary s r.tray else s

/-- A record that cannot be written is dropped: the queue stops, and the failure is logged with the record's own index, AUX and ADDR (R451, R568, R582). -/
def ringFailed (s : State) (q : Nat) (r : Rec) (code : Nat) : State :=
  logError (stopQueue (s.setFld (Csr.hqState q) 1 1 1) q) code 2 q r.tray r.index r.aux r.addr

/-- The oldest waiting record of a queue written to its ring; it waits while the ring is full (R451, R452). -/
def writeRecord (q : Nat) (s : State) : State :=
  match (s.hq q).recs with
  | [] => s
  | r :: rest =>
    let pi := s.fld (Csr.hqIndex q) 31 0
    let ci := s.fld (Csr.hqIndex q) 63 32
    let n := ringSize s q
    if (pi + 2 ^ 32 - ci) % 2 ^ 32 = n then s.setFld (Csr.hqState q) 0 0 1
    else
      let s0 := s.modHq q (fun x => { x with recs := rest })
      let phase := decide (pi / n % 2 = 0)
      match ringWrite s0 (s.fld (Csr.hqCfg q) 55 50) (s.fld (Csr.hqRing q) 47 5 * 32 + 32 * (pi % n)) (recBytes r phase) with
      | (s1, some code) => recDone (ringFailed s1 q r code) r
      | (s1, none) => recDone (notifyRecord (s1.setFld (Csr.hqIndex q) 31 0 (pi + 1)) q r.kind) r

/-! ### Quick calls (R455, R457) -/

/-- The position of a tray in its queue's set. -/
def trayPosition (s : State) (q t : Nat) : Nat := popCount t (s.fld (Csr.hqCfg q) 31 0)

/-- The Bench offset of an area of a quick call's tray: HQ_QC_IN in bits 27:0, HQ_QC_OUT in bits 59:32. -/
def qcArea (s : State) (q t : Nat) (out : Bool) : Nat :=
  (if out then s.fld (Csr.hqQcBuf q) 59 38 else s.fld (Csr.hqQcBuf q) 27 6) * 64 + 16384 * trayPosition s q t

/-- The QUICK_RESULT of a quick call that has ended: its result bytes, or a fault's code without them. -/
def quickResult (s : State) (t code : Nat) : State :=
  let r := s.tray t
  match r.kind with
  | .quick callId via _ =>
    let n := min 8192 (s.fld (Csr.hqParam r.queue) 63 50)
    let bytes := if code = 0 then benchPeek s (coreOf t) (qcArea s r.queue t true) n else []
    sendOn s (viaWay s via) (.quickResult via r.queue callId code bytes)
  | _ => s

end Sys2Proof.Machine
end

