-- ==== Sys2Proof/Machine/FabricOps.lean ====
section
/-! DEFINITION. The Staon fabric's operations: addresses, routes and groups, ports and flits, sending and settling messages, delivering writes, ports going down
(R465 to R507). -/

namespace Sys2Proof.Machine

/-- Port `p`. -/
def sport (s : State) (p : Nat) : SPort := Vec.get s.staon.ports p SPort.reset

/-- Port `p` changed by `f`. -/
def modSport (s : State) (p : Nat) (f : SPort → SPort) : State :=
  s.modStaon (fun b => { b with ports := Vec.put b.ports p (f (Vec.get b.ports p SPort.reset)) })

/-- Something sent on the fabric. -/
def fabOut (s : State) (m : StnTx) : State := s.modStaon (fun b => { b with out := b.out ++ [m] })

/-! ### Addresses, routes, groups (R484, R488 to R490, R505, R506) -/

/-- Whether a port takes messages: UP, and its peer has not sent LEAVE (R500). -/
def portUsable (s : State) (p : Nat) : Bool := decide (p < 12) && (sport s p).state == 4 && !(sport s p).peerLeaving

/-- Flits queued for transmission on a port. -/
def queuedFlits (s : State) (p : Nat) : Nat :=
  Vec.sumBy (fun q => q.foldl (fun a (m : TxMsg) => a + m.left) 0) (sport s p).queues

/-- The port that a unicast message to `dst` takes: the usable candidate with the fewest flits queued, ties to the earlier (R488). -/
def routePort (s : State) (dst : Nat) : Option Nat :=
  let e := s.reg (Csr.route dst)
  if !bit e 63 then none
  else
    let cands := (List.range (bf e 17 16 + 1)).map (fun i => bf e (4 * i + 3) (4 * i))
    argMin (queuedFlits s) (cands.filter (portUsable s))

/-- A group that a FAB.MCAST or FAB.RED may name (R490). -/
def groupValid (s : State) (g : Nat) : Bool := bit (s.reg (Csr.group g)) 63 && groupSelf s g != 0xFF

/-- The usable forwarding ports of a group (R490, R500). -/
def groupPorts (s : State) (g : Nat) : List Nat := (onesOf 12 (s.fld (Csr.group g) 27 16)).filter (portUsable s)

/-! ### Events (R501) -/

/-- A fabric event: a KIND 4 record on queue STN_EVT_QUEUE. -/
def fabEvent (s : State) (code aux addr : Nat) : State :=
  addRec s { tag := 0, code := code, kind := 4, tray := 0, queue := s.fld Csr.stnCfg 57 52, zeroShape := false, statAny := false, index := 0,
             pass := 0, rowBlock := 0xFFFFFFFF, aux := aux, addr := addr, last := false }

/-! ### Sending (R470 to R477) -/

/-- The virtual channel of a message type (R478). -/
def vcOf (type : Nat) : Nat :=
  if type = 1 then 0 else if type = 2 ∨ type = 3 then 2 else if type < 0x10 then 1 else 3

/-- Data bytes of a message. -/
def msgLen (m : StnMsg) : Nat := m.data.length + 8 * m.words.length

/-- Whether a message is a management message with a register offset and routes (R478, R485). -/
def isMgt (m : StnMsg) : Bool := m.type == 0x10 || m.type == 0x11 || m.type == 0x12

/-- TSPEC by the type of a message (R477), the group of a NOTICE as this model places it. -/
def tspec (m : StnMsg) : List Byte :=
  let ports := fun (l : List Nat) => (l.take 12).zipIdx.foldl (fun a p => a + p.1 % 16 * 16 ^ p.2) 0
  if m.type = 3 then leBytes 2 m.rseq ++ leBytes 1 m.member ++ leBytes 1 m.fmt ++ leBytes 4 m.first ++ leBytes 4 0
  else if m.type = 4 ∨ m.type = 5 then leBytes 4 m.ackId ++ leBytes 1 m.status ++ leBytes 7 0
  else if m.type = 6 then leBytes 2 m.rseq ++ leBytes 10 0
  else if isMgt m then leBytes 6 (ports m.route) ++ leBytes 6 (ports m.back)
  else leBytes 12 0

/-- The 48 bytes of a message header (R477), the management fields as this model places them: the count of register bytes in LENGTH and ROW_BYTES, the offset in ADDR, the status
in byte 28. -/
def headerBytes (m : StnMsg) : List Byte :=
  let len := if m.type = 0x10 then 8 * m.first else msgLen m
  let flags := m.rsig.toNat + 2 * (m.rtok % 8) + 16 * m.retx.toNat + 32 * m.pair.toNat
  leBytes 1 m.type ++ leBytes 1 flags ++ leBytes 2 m.src ++ leBytes 2 m.dst ++ leBytes 1 (m.rtray % 32) ++ leBytes 1 (m.hops % 16 + 16 * (m.ver % 16)) ++ leBytes 4 m.msgid ++
    leBytes 4 len ++ leBytes 6 (if isMgt m then m.offset else m.addr) ++ leBytes 2 0 ++ leBytes 4 (if isMgt m then len else m.rowBytes) ++
    leBytes 6 (if isMgt m then m.status else m.stride) ++ leBytes 2 0 ++ tspec m

/-- Header and data of a message as its flits carry them (R477). -/
def msgBytes (m : StnMsg) : List Byte := headerBytes m ++ m.data ++ m.words.flatMap (fun w => leBytes 8 w.toNat)

/-- Flit `k` of a message: a message start, then continuations (R477). -/
def flitOf (m : StnMsg) (fseq k : Nat) : TxFlit := ⟨fseq, vcOf m.type, if k = 0 then 1 else 2, ((msgBytes m).drop (240 * k)).take 240⟩

/-- One bit of a CRC-32, the reflected IEEE 802.3 polynomial (R470). -/
def crcShift (c : BitVec 32) : BitVec 32 := if c.getLsbD 0 then (c >>> 1) ^^^ 0xEDB88320#32 else c >>> 1

/-- The CRC-32 of bytes, with its seed and its final complement (R470). -/
def crc32 (bs : List Byte) : BitVec 32 :=
  ~~~ bs.foldl (fun c b => Nat.repeat crcShift 8 (c ^^^ b.zeroExtend 32)) 0xFFFFFFFF#32

/-- ACKSEQ of a port: the last flit received in order with good CRC (R470). -/
def ackSeq (x : SPort) : Nat := (x.rxNext + 4095) % 4096

/-- The 12 bytes of a flit's link header: every flit carries the port's ACKSEQ and its credit counters (R470, R471, R475). -/
def linkHeader (x : SPort) (f : TxFlit) (nak : Bool) : List Byte :=
  let cr := (List.range 4).foldl (fun a v => a + Vec.get x.freed v 0 % 256 * 256 ^ v) 0
  leBytes 12 (f.fseq % 4096 + ackSeq x * 2 ^ 12 + nak.toNat * 2 ^ 24 + f.vc % 4 * 2 ^ 25 + f.ftype % 4 * 2 ^ 27 + cr * 2 ^ 32 + f.body.length * 2 ^ 64)

/-- The 256 bytes of a flit (R470). -/
def flitBytes (x : SPort) (f : TxFlit) (nak : Bool) : List Byte :=
  let b := linkHeader x f nak ++ f.body ++ List.replicate (240 - f.body.length) 0
  b ++ leBytes 4 (crc32 b).toNat

/-- A flit that carries no data: an idle one, or link control (R470). -/
def ctrlFlit (x : SPort) (body : List Byte) (nak : Bool) : List Byte := flitBytes x ⟨0, 0, if body.isEmpty then 0 else 3, body⟩ nak

/-- Flits of a message of `n` data bytes (R477). -/
def flitsFor (n : Nat) : Nat := 1 + cdiv (n - 192) 240

/-- The virtual channel whose flit a port sends next: management, response, then collective and request in turn (R474, R475). -/
def nextVc (p : SPort) : Option Nat :=
  let ready := fun (v : Nat) => !(Vec.get p.queues v []).isEmpty && decide (0 < Vec.get p.credits v 0)
  if ready 3 then some 3
  else if ready 1 then some 1
  else
    let a := if p.collectiveNext then 2 else 0
    if ready a then some a else if ready (2 - a) then some (2 - a) else none

/-- The first flit of a message leaves: its 900 µs of R482 begin. -/
def firstFlit (s : State) (m : StnMsg) : State :=
  if m.src = ownAddr s then
    s.modStaon (fun b => { b with sent := b.sent.map (fun x =>
      if x.msg.msgid = m.msgid ∧ x.firstAt.isNone then { x with firstAt := some s.now } else x) })
  else s

/-- Buffer flits of a port's virtual channel freed, to be told to the peer as credits (R475). -/
def freeFlits (s : State) (p v n : Nat) : State := 
  modSport s p (fun x => { x with freed := Vec.put x.freed v ((Vec.get x.freed v 0 + n) % 256), rx := Vec.put x.rx v (Vec.get x.rx v 0 - n) })

/-- The messages in the transmit queues of every port. -/
def queuedMsgs (s : State) : List TxMsg := s.staon.ports.toList.flatMap (fun x => x.queues.toList.flatten)

/-- Flits of a message in transit that its buffer must still hold: those that some copy of it has not sent (R476). -/
def transitLeft (s : State) (k : Nat × Nat × Nat) : Nat := ((queuedMsgs s).filter (fun m => m.via == some k)).foldl (fun a m => max a m.left) 0

/-- The buffer of a message in transit gives up the flits that no copy needs any more (R476). -/
def transitFree (before : State) (k : Nat × Nat × Nat) (s : State) : State := freeFlits s k.1 k.2.1 (transitLeft before k - transitLeft s k)

/-- A port sends the flits it has credits and replay space for (R472, R474, R475). `fuel` bounds the flits. -/
def pumpPort : Nat → Nat → State → State
  | 0, _, s => s
  | fuel + 1, p, s =>
    let x := sport s p
    if x.state ≠ 4 ∨ 512 ≤ x.unacked.length then s
    else
      match nextVc x with
      | none => s
      | some v =>
        match Vec.get x.queues v [] with
        | [] => s
        | m :: rest =>
          let rest' := if m.left ≤ 1 then rest else { m with left := m.left - 1 } :: rest
          let f := flitOf m.msg x.txNext (m.total - m.left)
          let s1 := if m.left = m.total then firstFlit s m.msg else s
          let s2 := modSport s1 p (fun y =>
            { y with credits := Vec.put y.credits v (Vec.get y.credits v 0 - 1)
                     queues := Vec.put y.queues v rest'
                     unacked := y.unacked ++ [f]
                     txNext := (y.txNext + 1) % 4096
                     collectiveNext := if v = 0 ∨ v = 2 then v = 0 else y.collectiveNext })
          let s2' := match m.via with
            | some k => transitFree s1 k s2
            | none => s2
          let s3 := (fabOut s2' (.flit p (flitBytes x f false))).count Csr.stnFlitsTx 1
          let s4 := if m.left ≤ 1 then fabOut s3 (.msg p m.msg) else s3
          pumpPort fuel p s4

/-- A message put into a port's transmit queue. -/
def portQueue (s : State) (p : Nat) (m : StnMsg) (via : Option (Nat × Nat × Nat)) : State :=
  let n := flitsFor (msgLen m)
  modSport s p (fun x => { x with queues := Vec.put x.queues (vcOf m.type) (Vec.get x.queues (vcOf m.type) [] ++ [⟨m, n, n, via⟩]) })

/-- A message put into a port's transmit queue, and what the port can send sent. -/
def portSend (s : State) (p : Nat) (m : StnMsg) : State := pumpPort 512 p (portQueue s p m none)

/-- A message that arrived on port `q` sent on by ports `ps`: each flit stays in the buffer of `q` until it has left on all of them (R476). -/
def passOn (s : State) (q : Nat) (ps : List Nat) (m : StnMsg) : State :=
  ps.foldl (fun s' p => pumpPort 512 p s') (ps.foldl (fun s' p => portQueue s' p m (some (q, vcOf m.type, s.ord))) s.tick)

/-- An empty message of a type. -/
def StnMsg.blank (type : Nat) : StnMsg :=
  { type := type, rsig := false, rtok := 0, retx := false, pair := false, src := 0, dst := 0, rtray := 0, hops := 15, ver := 1, msgid := 0,
    addr := 0, rowBytes := 0, stride := 0, rseq := 0, member := 0, fmt := 0, first := 0, ackId := 0, status := 0, route := [], back := [],
    offset := 0, words := [], data := [] }

/-- The next MSGID, which the counter then passes (R479). -/
def takeMsgid (s : State) : State × Nat :=
  (s.modStaon (fun b => { b with msgid := (b.msgid + 1) % 2 ^ 32 }), s.staon.msgid)

/-- A control message sent by its route; one that has none is dropped and counted (R485, R489). -/
def sendControl (s : State) (m : StnMsg) : State :=
  let (s1, id) := takeMsgid s
  let m1 := { m with src := ownAddr s, msgid := id, hops := 15, ver := 1 }
  match routePort s1 m.dst with
  | some p => portSend s1 p m1
  | none => s1.count Csr.stnDrops 1

/-- An ACK of a received message (R480). -/
def sendAck (s : State) (m : StnMsg) : State := sendControl s { StnMsg.blank 4 with dst := m.src, ackId := m.msgid }

/-- A NACK of a received message with a status of R478. -/
def sendNack (s : State) (m : StnMsg) (status : Nat) : State :=
  sendControl s { StnMsg.blank 5 with dst := m.src, ackId := m.msgid, status := status }

/-- A message of this module recorded as unsettled and sent to its port (R479, R482). -/
def launch (s : State) (m : StnMsg) (owner : Option (Nat × Nat × Nat)) (copyOf : Option Nat) (p : Nat) : State :=
  let s1 := s.modStaon (fun b => { b with sent := b.sent ++ [⟨m, owner, 0, none, false, copyOf⟩] })
  portSend s1 p m

/-! ### Settling what was sent (R482, R491 to R495) -/

/-- Message `n` of an instruction, of `len` data bytes, is acknowledged: its bytes count as sent by the remote channel (R371). -/
def ackInst (s : State) (owner : Option (Nat × Nat × Nat)) (len : Nat) : State :=
  match owner with
  | none => s
  | some (t, k, n) =>
    (s.modInst t k (fun i => { i with msgs := modAt i.msgs n (fun x => { x with state := .acked }) })).count (Csr.prfBytesRmt (coreOf t)) len

/-- A fault of the instruction that waits for a message (R482, R483). -/
def faultOwner (s : State) (owner : Option (Nat × Nat × Nat)) (code : Nat) : State :=
  match owner with
  | none => s
  | some (t, k, _) => faultInst s t k code 0 0

/-- Retention units in use (R491). -/
def retentionUsed (s : State) : Nat := s.staon.kept.foldl (fun a k => a + k.units) 0

/-- A retained copy that nobody is owed any more is freed (R491). -/
def freeKept (s : State) : State :=
  s.modStaon (fun b => { b with kept := b.kept.filter (fun k => !(k.owed.isEmpty && k.laggards.isEmpty)) })

/-- A retained message whose attached members have all acknowledged counts as acknowledged for its FAB.MCAST (R495). -/
def settleKept (s : State) (id : Nat) : State :=
  let done := s.staon.kept.filter (fun k => k.msg.msgid == id && k.owed.isEmpty)
  let s1 := done.foldl (fun s' k => ackInst s' k.owner (msgLen k.msg)) s
  let s2 := if done.isEmpty then s1 else
    s1.modStaon (fun b => { b with sent := b.sent.filter (fun x => !(x.msg.msgid == id && x.copyOf.isNone)) })
  freeKept s2

/-- A retained copy owed to a laggard is dropped: it is sent a NOTICE (R494). -/
def loseLaggard (s : State) (k : Retained) (a : Nat) : State :=
  let s1 := s.modStaon (fun b =>
    { b with kept := b.kept.map (fun x => if x.msg.msgid = k.msg.msgid then { x with laggards := x.laggards.filter (fun y => y != a) } else x)
             sent := b.sent.filter (fun x => !(x.msg.msgid == k.msg.msgid && x.copyOf == some a)) })
  sendControl s1 { StnMsg.blank 6 with dst := a, addr := k.msg.addr, rseq := k.group }

/-- A retained copy dropped for every laggard still owed it, and counted (R494). -/
def dropKept (s : State) (k : Retained) : State :=
  freeKept (k.laggards.foldl (fun s' a => loseLaggard s' k a) (s.count Csr.stnMcastLost 1))

/-- Room for `units` of retention, dropping the oldest copies owed only to laggards while that is needed (R494). -/
def makeRoom : Nat → State → Nat → State
  | 0, s, _ => s
  | fuel + 1, s, units =>
    if retentionUsed s + units ≤ 256 then s
    else
      match s.staon.kept.find? (fun k => k.owed.isEmpty && !k.laggards.isEmpty) with
      | some k => makeRoom fuel (dropKept s k) units
      | none => s

/-- A laggard is detached: the unicast copy is queued on the request channel (R493). -/
def sendCopy (s : State) (k : Retained) (a : Nat) : State :=
  let m := { k.msg with type := 1, dst := a, retx := true }
  match routePort s a with
  | some p => launch s m none (some a) p
  | none => loseLaggard (s.count Csr.stnMcastLost 1) k a

/-- The port behind which a member is: that of the member's own link, else the first candidate of its routing entry (R488, R493). -/
def memberPort (s : State) (a : Nat) : Option Nat :=
  match (List.range 12).find? (fun p => (sport s p).peerAddr == a) with
  | some p => some p
  | none => let e := s.reg (Csr.route a); if bit e 63 then some (bf e 3 0) else none

/-- Whether every member of a group behind a port is among some. -/
def allBehind (s : State) (g p : Nat) (who : List Nat) : Bool :=
  let ms := (groupMembers s g).filter (fun a => a != ownAddr s && memberPort s a == some p)
  !ms.isEmpty && ms.all (fun a => who.contains a)

/-- Members of a retained message detached (R492, R493): copies to ports that have not started and serve only detached members are dropped. -/
def detach (s : State) (id : Nat) (who : List Nat) : State :=
  match s.staon.kept.find? (fun k => k.msg.msgid == id) with
  | none => s
  | some k =>
    let lag := k.owed.filter (fun a => who.contains a)
    if lag.isEmpty then s
    else
      let s1 := s.modStaon (fun b => { b with kept := b.kept.map (fun x =>
        if x.msg.msgid = id then { x with owed := x.owed.filter (fun a => !lag.contains a), laggards := x.laggards ++ lag } else x) })
      let s2 := (List.range 12).foldl (fun s' p =>
        if allBehind s' k.group p (lag ++ k.laggards) then
          modSport s' p (fun x => { x with queues := Vec.put x.queues 2 ((Vec.get x.queues 2 []).filter (fun m =>
            !(m.msg.msgid == id && m.msg.type == 2 && m.left == m.total))) })
        else s') (s1.count Csr.stnMcastDetach lag.length)
      settleKept (lag.foldl (fun s' a => sendCopy s' { k with laggards := k.laggards ++ lag } a) s2) id

/-- An ACK received from a module (R482, R493, R495). -/
def ackReceived (s : State) (src id : Nat) : State :=
  let uni := s.staon.sent.filter (fun x => x.msg.msgid == id && x.msg.type != 2)
  let s1 := s.modStaon (fun b =>
    { b with sent := b.sent.filter (fun x => !(x.msg.msgid == id && x.msg.type != 2 && (x.copyOf.isNone || x.copyOf == some src)))
             kept := b.kept.map (fun k => if k.msg.msgid = id then
               { k with owed := k.owed.filter (fun a => a != src), laggards := k.laggards.filter (fun a => a != src), skew := true } else k) })
  let s2 := uni.foldl (fun s' x => if x.copyOf.isNone then ackInst s' x.owner (msgLen x.msg) else s') s1
  settleKept s2 id

/-- A NACK received (R482): BUSY waits for a resend; the other codes fault the instruction; a unicast copy that fails is dropped (R494). -/
def nackReceived (s : State) (src id status : Nat) : State :=
  if status = 3 then
    s.modStaon (fun b => { b with sent := b.sent.map (fun x =>
      if x.msg.msgid = id ∧ (x.copyOf.isNone ∨ x.copyOf = some src) then { x with busy := true } else x) })
  else
    let hit := s.staon.sent.filter (fun x => x.msg.msgid == id && (x.copyOf.isNone || x.copyOf == some src))
    let s1 := s.modStaon (fun b =>
      { b with sent := b.sent.filter (fun x => !(x.msg.msgid == id && (x.copyOf.isNone || x.copyOf == some src)))
               kept := b.kept.map (fun k => if k.msg.msgid = id then { k with owed := k.owed.filter (fun a => a != src) } else k) })
    let code := if status = 1 ∨ status = 5 then FC.fabRemoteRefused else FC.fabUnreachable
    freeKept <| hit.foldl (fun s' x =>
      match x.copyOf with
      | none => faultOwner s' x.owner code
      | some a =>
        match s'.staon.kept.find? (fun k => k.msg.msgid == id) with
        | some k => freeKept (loseLaggard (s'.count Csr.stnMcastLost 1) k a)
        | none => s') s1

/-- A message sent again with RETX = 1: a contribution to its member's port, any other by its route or on its group's ports (R482, R496). -/
def resend (s : State) (x : SentMsg) : State :=
  let m := { x.msg with retx := true }
  let s1 := s.modStaon (fun b => { b with sent := b.sent.map (fun y =>
    if y.msg.msgid = x.msg.msgid ∧ y.copyOf = x.copyOf then { y with busy := false } else y) })
  if m.type = 2 then (groupPorts s1 m.dst).foldl (fun s' p => portSend s' p m) s1
  else
    let peer := if m.type = 3 then (List.range 12).find? (fun p => portUsable s1 p && (sport s1 p).peerAddr == m.dst) else routePort s1 m.dst
    match peer with
    | some p => portSend s1 p m
    | none => s1

/-- Whether a resend would leave later than 900 µs after the message's first flit (R482). -/
def tooLate (s : State) (x : SentMsg) : Bool :=
  match x.firstAt with
  | some t => decide (t + 900 * 1200 < s.now)
  | none => false

/-- A message that is not resent again: its instruction faults FAB_NO_ACK, or the copy is dropped (R482, R494). -/
def giveUp (s : State) (x : SentMsg) : State :=
  let s1 := s.modStaon (fun b => { b with sent := b.sent.filter (fun y => !(y.msg.msgid == x.msg.msgid && y.copyOf == x.copyOf)) })
  match x.copyOf with
  | none => faultOwner s1 x.owner FC.fabNoAck
  | some a =>
    match s1.staon.kept.find? (fun k => k.msg.msgid == x.msg.msgid) with
    | some k => freeKept (loseLaggard (s1.count Csr.stnMcastLost 1) k a)
    | none => s1

/-! ### Delivering (R480, R481, R490) -/

/-- Rows of a message written at their addresses; the rows before one that fails stay written (R480). -/
def writeRows (s : State) (space : Nat) (stride rowBytes : Nat) : Nat → Nat → List Byte → State × Bool
  | 0, _, _ => (s, true)
  | n + 1, addr, bs =>
    match writeThrough s 4 space addr (bs.take rowBytes) with
    | (s1, .error _) => (s1, false)
    | (s1, .ok _) => writeRows s1 space stride rowBytes n (addr + stride) (bs.drop rowBytes)

/-- The token that a message signals on this module once its last byte has been written (R118). -/
def signalled (s : State) (m : StnMsg) : State := if m.rsig then signal s m.rtray (2 ^ m.rtok) none else s

/-- A WRITE or MCAST delivered on this module, once: none for an acceptance or a duplicate, or the NACK status (R480, R481). A repartition in progress ends before it (R390). -/
def deliver (s0 : State) (m : StnMsg) : State × Option Nat :=
  let s := finishRepart s0
  if s.staon.dedup.contains (m.src, m.msgid) then (s.count Csr.stnDups 1, none)
  else if 8192 ≤ s.staon.dedup.length then (s, some 3)
  else
    let rb := max 1 m.rowBytes
    match writeRows s (s.fld Csr.stnCfg 63 58) m.stride rb (m.data.length / rb) m.addr m.data with
    | (s1, false) => (s1.count Csr.mmuRefused 1, some 1)
    | (s1, true) =>
      let s2 := s1.modStaon (fun b => { b with dedup := b.dedup ++ [(m.src, m.msgid)] })
      (signalled s2 m, none)

/-- A delivery answered by an ACK or a NACK. -/
def deliverAndAnswer (s : State) (m : StnMsg) : State :=
  match deliver s m with
  | (s1, none) => sendAck s1 m
  | (s1, some st) => sendNack s1 m st

/-- The buffer flits of a received message freed (R475). -/
def freeBuffer (s : State) (p : Nat) (m : StnMsg) : State := freeFlits s p (vcOf m.type) (flitsFor (msgLen m))

/-- A message dropped and counted. -/
def dropMsg (s : State) : State := s.count Csr.stnDrops 1

/-- A transit message sent on, or dropped with NACK UNREACHABLE (R476, R488, R489). -/
def forward (s : State) (arrived : Nat) (m : StnMsg) : State :=
  let refuse := sendNack (dropMsg (freeBuffer s arrived m)) m 2
  if m.hops = 0 then refuse
  else
    match routePort s m.dst with
    | none => refuse
    | some p => if p = arrived then refuse else passOn s arrived [p] { m with hops := m.hops - 1 }

/-- A management message sent on by its source route (R485); a route that ends without 0xF, or whose next port is not UP, drops it. -/
def forwardMgt (s : State) (arrived : Nat) (m : StnMsg) : State :=
  match m.route with
  | [] => dropMsg (freeBuffer s arrived m)
  | p :: rest =>
    if portUsable s p then passOn s arrived [p] { m with route := rest, back := arrived :: m.back } else dropMsg (freeBuffer s arrived m)

/-- Whether a received message passes the checks that every delivery makes: the port is UP and the version is the link's (R468). -/
def linkOk (s : State) (p : Nat) (m : StnMsg) : Bool := m.ver == (sport s p).ver

/-- Whether a data message is dropped for an unassigned or provisional address (R487). -/
def addrBad (s : State) (m : StnMsg) (unicast : Bool) : Bool :=
  s.staon.assigned.isNone || decide (0x8000 ≤ m.src) || (unicast && decide (0x8000 ≤ m.dst))

/-! ### Links (R466 to R472, R498 to R500) -/

/-- The flits of the receive buffers by virtual channel (R473). -/
def rxFlits (v : Nat) : Nat := [384, 64, 640, 16].getD v 0

/-- The body of a HELLO that a port sends (R467): version 1 alone, the module's address and serial number, and the buffers of R473. -/
def helloBytes (s : State) (p : Nat) : List Byte :=
  leBytes 1 1 ++ leBytes 1 0x11 ++ leBytes 2 (ownAddr s) ++ leBytes 1 (s.staon.assigned.isNone.toNat + 2 * s.staon.leaving.toNat) ++ leBytes 1 p ++ leBytes 2 0 ++
    leBytes 8 s.serial.toNat ++ (List.range 4).flatMap (fun v => leBytes 2 (rxFlits v))

/-- A HELLO sent on a port (R467, R469). -/
def sendHello (s : State) (p : Nat) : State := fabOut s (.flit p (ctrlFlit (sport s p) (helloBytes s p) false))

/-- Every FAB.RED in flight whose group has the lost neighbour as a member faults FAB_MEMBER_LOST (R500). -/
def loseMember (s : State) (a : Nat) : State :=
  (List.range 32).foldl (fun s' t =>
    match (s'.tray t).insts.find? (fun i => i.mn == .fred && i.red.members.contains a && !i.done) with
    | some i => faultInst s' t i.seq FC.fabMemberLost 0 0
    | none => s') s

/-- What a port going down or receiving LEAVE does at once (R500): contributions that wait in its collective buffer are discarded with the buffer when it goes down (R469). -/
def portLost (s00 : State) (p : Nat) (left : Bool) : State :=
  let s := if left then s00 else s00.modStaon (fun b => { b with early := b.early.filter (fun e => e.1 != p) })
  let a := (sport s p).peerAddr
  let s1 := fabEvent s FC.fabPortDown (p + (if left then 256 else 0)) a
  let s2 := loseMember s1 a
  s2.staon.kept.foldl (fun s' k => detach s' k.msg.msgid (k.owed.filter (fun m => memberPort s m == some p))) s2

/-- The messages in transit whose flits a port's receive buffers held are discarded with them (R469). -/
def dropTransit (s : State) (p : Nat) : State :=
  s.modStaon (fun b => { b with ports := b.ports.map (fun x => { x with queues := x.queues.map (fun q => q.filter (fun m => m.via.all (fun k => k.1 != p))) }) })

/-- A port's transmit queues are emptied: the buffers that held what they were to send are freed (R476). -/
def clearQueues (s : State) (p : Nat) : State :=
  let keys := (((sport s p).queues.toList.flatten).filterMap (fun m => m.via)).eraseDups
  let s1 := modSport s p (fun x => { x with queues := Vector.replicate 4 [] })
  keys.foldl (fun s' k => transitFree s k s') s1

/-- A port goes down (R469): its buffers are discarded and it waits to retrain. -/
def portDown (s : State) (p : Nat) : State :=
  let x := sport s p
  let lost := fun (s' : State) => modSport (dropTransit (clearQueues s' p) p) p (fun y =>
    { SPort.reset with state := 6, peerAddr := y.peerAddr, peerPort := y.peerPort, peerProv := y.peerProv, peerSn := y.peerSn })
  if x.state = 4 then lost (portLost (modSport (s.count Csr.stnLinkDowns 1) p (fun y => { y with state := 6 })) p false)
  else lost (s.count Csr.stnLinkDowns 1)

/-- A port taken out of service: down if it was UP, then disabled. -/
def portDisable (s : State) (p : Nat) : State :=
  let s1 := if (sport s p).state = 4 then portDown s p else s
  modSport s1 p (fun _ => SPort.reset)

/-- Whether a port may train: the Hearth has enabled the fabric, the reference is present, its domain is on, and STN_PORT_EN is set (R466, R512, R556, R595). -/
def portAllowed (s : State) (p : Nat) : Bool :=
  s.staon.enabled && s.staon.ref && domOn s (100 + p) && !s.staon.left && bit (s.reg Csr.stnCfg) (32 + p)

/-- Ports brought into line with what allows them: a disabled port trains, one no longer allowed is disabled. -/
def adjustPorts (s : State) : State :=
  (List.range 12).foldl (fun s' p =>
    if portAllowed s' p then (if (sport s' p).state = 0 then modSport s' p (fun x => { x with state := 1 }) else s')
    else if (sport s' p).state = 0 then s' else portDisable s' p) s

/-- A replay (R472): every unacknowledged flit is sent again; the sixteenth of one flit takes the port down (R469). -/
def replay (s : State) (p : Nat) (ackseq : Nat) : State :=
  let s1 := modSport (s.count Csr.stnReplays 1) p (fun x => { x with replays := x.replays + 1, ignoreNak := some ackseq })
  if 16 ≤ (sport s1 p).replays then portDown s1 p
  else let x := sport s1 p; x.unacked.foldl (fun s' f => fabOut s' (.flit p (flitBytes x f false))) s1

/-- ACKSEQ applied: flits up to it leave the replay buffer (R471, R472). -/
def applyAck (x : SPort) (ackseq : Nat) : SPort :=
  match x.unacked with
  | [] => x
  | f :: _ =>
    let n := (ackseq + 4096 - f.fseq) % 4096 + 1
    if n ≤ x.unacked.length then { x with unacked := x.unacked.drop n, replays := 0, ignoreNak := none } else x

/-- Credits applied: the difference of each cumulative count from the one seen before (R475). -/
def applyCredits (x : SPort) (cr : List Nat) : SPort :=
  (List.range 4).foldl (fun y v =>
    let c := cr.getD v 0 % 256
    let d := (c + 256 - Vec.get y.seen v 0) % 256
    { y with credits := Vec.put y.credits v (Vec.get y.credits v 0 + d), seen := Vec.put y.seen v c }) x

/-- A flit discarded; the first since the last good one asks for a replay, in an idle flit (R471). -/
def discardFlit (s : State) (p : Nat) : State :=
  if (sport s p).discarding then s
  else
    let s1 := modSport s p (fun x => { x with discarding := true })
    fabOut s1 (.flit p (ctrlFlit (sport s1 p) [] true))

/-- A flit received (R469 to R472, R475). -/
def flitStep (s : State) (p : Nat) (f : Flit) : State :=
  if !f.crcOk then
    let s1 := discardFlit (modSport (s.count Csr.stnCrcErrs 1) p (fun x => { x with badRun := x.badRun + 1 })) p
    if 32 ≤ (sport s1 p).badRun then portDown s1 p else s1
  else
    let s1 := modSport s p (fun x => applyCredits (applyAck { x with badRun := 0 } f.ackseq) f.cr)
    let s2 := if f.nak ∧ (sport s1 p).ignoreNak ≠ some f.ackseq ∧ !(sport s1 p).unacked.isEmpty then replay s1 p f.ackseq else s1
    if (sport s2 p).state = 6 then s2
    else
    let s3 :=
      if f.ftype = 1 ∨ f.ftype = 2 then
        if f.fseq % 4096 = (sport s2 p).rxNext then
          modSport (s2.count Csr.stnFlitsRx 1) p (fun x =>
            { x with rxNext := (x.rxNext + 1) % 4096, discarding := false, rx := Vec.put x.rx f.vc (Vec.get x.rx f.vc 0 + 1) })
        else discardFlit s2 p
      else s2
    pumpPort 512 p s3

/-- A HELLO received (R467, R468, R498). -/
def helloStep (s : State) (p : Nat) (h : HelloBody) : State :=
  let x := sport s p
  let common := decide (h.vmin ≤ 1) && decide (1 ≤ h.vmax)
  let s1 := modSport s p (fun y =>
    { y with peerAddr := h.addr, peerPort := h.peerPort, peerProv := h.prov, peerSn := h.serial, peerLeaving := y.peerLeaving || h.leaving,
             ver := if common then 1 else 0 })
  if x.state = 2 ∨ x.state = 3 ∨ x.state = 5 then
    if !common then
      let s2 := modSport s1 p (fun y => { y with state := 5 })
      if x.state = 5 then s2 else fabEvent s2 FC.fabVersionFail p h.addr
    else if x.hellos + 1 < 2 then modSport s1 p (fun y => { y with state := 3, hellos := y.hellos + 1 })
    else
      let up := modSport s1 p (fun y =>
        { y with state := 4, hellos := y.hellos + 1, peerLeaving := h.leaving,
                 credits := Vector.ofFn (fun (v : Fin 4) => [h.credReq, h.credRsp, h.credCol, h.credMgt].getD v.val 0) })
      pumpPort 512 p (fabEvent up FC.fabPortUp p h.addr)
  else if x.state = 4 ∧ !common then fabEvent (modSport s1 p (fun y => { y with state := 5 })) FC.fabVersionFail p h.addr
  else s1

/-- Leaving begins (R499): LEAVE goes out on every UP port. -/
def startLeave (s : State) : State :=
  if s.staon.leaving ∨ s.staon.left then s
  else
    (List.range 12).foldl (fun s' p => if (sport s' p).state = 4 then fabOut s' (.leave p) else s')
      (s.modStaon (fun b => { b with leaving := true }))

/-- Leaving ends: copies still owed are dropped, and every port goes down (R499). A message that has no ACK yet keeps its place, so that its instruction ends under R482. -/
def finishLeave (s : State) : State :=
  let s1 := s.modStaon (fun b => { b with kept := [], sent := b.sent.filter (fun x => x.copyOf.isNone), left := true, leaving := false })
  (List.range 12).foldl portDisable s1

end Sys2Proof.Machine
end

