-- ==== Sys2Proof/Machine/Ecc.lean ====
section
/-! DEFINITION. Errors in stored words: what each structure does with one, module stops, and injected errors (R568 to R581). -/

namespace Sys2Proof.Machine

/-! ### Module stop (R569) -/

/-- The module stops (R569): every task is discarded without a record, every queue stops, every Staon port goes down, and the Hearth reports it. -/
def moduleStop (s : State) (index addr : Nat) : State :=
  let s1 := (List.range 32).foldl (fun s' t =>
    if (s'.tray t).state == .idle then s'
    else
      let s2 := discardTray s' t true
      s2.setTray t { Tray.reset t with snap := (s'.tray t).snap, snapPend := (s'.tray t).snapPend }) s
  let s2 := s1.setBarriers (Vector.replicate 16 .free)
  let s3 := (List.range 64).foldl (fun s' q => stopQueue (s'.modHq q (fun x => { x with recs := [], copies := [] })) q) s2
  let s4 := (List.range 12).foldl (fun s' p => if (sport s' p).state = 0 then s' else portDown s' p) s3
  let s5 := (List.range 64).foldl (fun s' q => s'.modHq q (fun x => { x with recs := [] })) s4
  let s6 := hearthEvent (logError s5 FC.sharedStateUe 3 0 0 0 index addr) FC.sharedStateUe index
  s6.setStop (some ⟨FC.sharedStateUe, index⟩)

/-! ### Uncorrectable errors (R573 to R577) -/

/-- An uncorrectable error that no task owns: it is logged (R568, R576). -/
def logUnowned (s : State) (code index addr : Nat) : State := logError s code 3 0 0 0 index addr

/-- The tray whose state or step holds the failing word ends its task; a word that no task holds is only logged (R576). -/
def ownerUe (s : State) (tray : Option Nat) (code index addr : Nat) : State :=
  match tray with
  | some t =>
    if (s.tray t).live then
      match (s.tray t).insts with
      | i :: _ => faultInstLog s t i.seq code 0 0 index addr
      | [] => endTaskLog s t code (s.tray t).tryInstr 0 0xFFFFFFFF 0 0 index addr
    else logUnowned s code index addr
  | none => logUnowned s code index addr

/-- An uncorrectable error in a Larder line (R575): a clean cached line is fetched again, any other becomes poisoned; either is logged (R568). -/
def lineUe (s : State) (line : Nat) : State :=
  let set := larSlice line * 0x8000 + larSet line
  match (List.range 16).find? (fun w =>
    let l := Tab.get LLine.empty s.larder.lines (set * 16 + w)
    l.valid && l.tag == larTag line && !l.dirty && regionOf s (128 * line) == .lpddr) with
  | some w => lineLeaves ((logUnowned (s.count (Csr.errEccCe 1) 1) FC.eccUncorrectable 1 (128 * line)).setLarder { s.larder with lines := Tab.put LLine.empty s.larder.lines (set * 16 + w) LLine.empty }) (larSlice line) line false
  | none => logUnowned ((s.count (Csr.errEccUe 1) 1).setPoison (Tab.put false s.poison line true)) FC.eccUncorrectable 1 (128 * line)

/-- The resident tags of array `a` of core `c` cleared (R572). -/
def arrayTags (s : State) (c a : Nat) : State := s.modArray c a (fun x => { x with resident := Vector.replicate 16 none })

/-- An error of a stored word, found as it is read (R572 to R577). `tray` is the one that holds the word, if any. `word` is the Bench row (address over 64), the Larder line,
the array (2 × core + array), the layer counter (512 × core + 8 × slot + index) when no tray holds it, the translation cache entry (4,096 × walker + entry), or the part of
structures 11 and 12: 0 a receive buffer, 1 a retained copy or the rest of structure 12, 2 the duplicate table. The Hearth's SRAM is not treated here. -/
def eccEffect (s : State) (index : Nat) (ue : Bool) (tray : Option Nat) (word : Nat) : State :=
  let bad := (ue || index == 4 || index == 13) && index != 10
  if !bad then
    let s1 := s.count (Csr.errEccCe index) 1
    if index = 10 then
      let w := min 4 (word / 4096)
      let c := tCacheOf s1 w
      setTCache s1 w { c with entries := Tab.put TEntry.empty c.entries (word % 4096) TEntry.empty }
    else s1
  else if index = 1 then lineUe s word
  else
    let s1 := s.count (Csr.errEccUe index) 1
    match index with
    | 0 => ownerUe (s1.setBenchPoison (Tab.put false s1.benchPoison word true)) tray FC.benchUncorrectable 0 (64 * word)
    | 2 | 9 => moduleStop s1 index 0
    | 4 => ownerUe (arrayTags s1 (word / 2) (word % 2)) tray FC.engineStateUe 4 0
    | 5 =>
      match tray with
      | some t => ownerUe (s1.modVec (coreOf t) (fun v => { v with poison := if v.poison.contains t then v.poison else v.poison ++ [t] })) tray FC.engineStateUe 5 0
      | none => logUnowned s1 FC.engineStateUe 5 0
    | 6 =>
      if tray.isSome then ownerUe s1 tray FC.engineStateUe 6 0
      else logUnowned (s1.modLevain (word / 2048) (fun v => { v with counters := Tab.put 0 v.counters (word % 2048) 0 })) FC.engineStateUe 6 0
    | 11 =>
      if word = 2 then moduleStop s1 11 0
      else
        let s2 := logUnowned s1 FC.engineStateUe 11 0
        match word, s2.staon.kept with
        | 1, k :: _ =>
          let k' := { k with owed := [], laggards := k.laggards ++ k.owed }
          let s3 := s2.modStaon (fun b => { b with kept := b.kept.map (fun x => if x.msg.msgid = k.msg.msgid then k' else x) })
          dropKept (settleKept s3 k.msg.msgid) k'
        | _, _ => s2
    | 12 => if word = 0 then logUnowned (s1.count Csr.hpRxDrops 1) FC.engineStateUe 12 0 else moduleStop s1 12 0
    | _ => ownerUe s1 tray FC.engineStateUe index 0

/-! ### Injection (R581) -/

/-- A write into structure `index`, held by `place` (a tray, a set, or a part of the structure), takes an armed injection. -/
def wrote (s : State) (index core place : Nat) : State :=
  let r := s.reg Csr.errInj
  if bit r 63 && bf r 3 0 == index && (bf r 7 6 == core || index == 2 || index == 11 || index == 12) then
    (s.setFld Csr.errInj 63 63 0).setPlanted (s.planted ++ [⟨index, place, bit r 8⟩])
  else s

/-- A read of structure `index` at `place` meets a word planted there. -/
def readBack (s : State) (index : Nat) (tray : Option Nat) (place word : Nat) : State :=
  match s.planted.find? (fun p => p.index == index && p.place == place) with
  | none => s
  | some p => eccEffect (s.setPlanted (dropFirst (fun q => q == p) s.planted)) index p.double tray word

/-- A tray's word of structure `index` is read. -/
def readTray (s : State) (index t word : Nat) : State := readBack s index (some t) t word

/-- A tray's part of the operand cache is read: a word poisoned in it ends the task again (R572). -/
def readCache (s : State) (t : Nat) : State :=
  if ((s.core (coreOf t)).vec.poison).contains t then ownerUe s (some t) FC.engineStateUe 5 0 else readTray s 5 t 0

/-- A tray's part of the operand cache is written, which ends its poison (R572). -/
def writeCache (s : State) (t : Nat) : State :=
  wrote (s.modVec (coreOf t) (fun v => { v with poison := v.poison.filter (fun x => x != t) })) 5 (coreOf t) t

end Sys2Proof.Machine
end

