-- ==== Sys2Proof/Machine/Hearth.lean ====
section
/-! DEFINITION. The Hearth's operations: resets, boot steps and image checks, measurement and attestation, fabric policy, removal, and the parts of the module that they
switch off (R511, R529, R533 to R558, R578). -/

namespace Sys2Proof.Machine

/-! ### Codes (R559) -/

namespace HC
def clockLockFail : Nat := 0x0804
def clockUnlock : Nat := 0x0805
def bootDone : Nat := 0x0880
def removeReady : Nat := 0x0881
def imageFormatBad : Nat := 0x0A01
def imageSigBad : Nat := 0x0A02
def imageCertTime : Nat := 0x0A03
def imageRollback : Nat := 0x0A04
def imageDigestBad : Nat := 0x0A05
def hmpAuthFail : Nat := 0x0A06
def calLost : Nat := 0x0A07
def sidebandTimeout : Nat := 0x0A08
def fwStartFail : Nat := 0x0A09
end HC

/-! ### Flash (R543, R544) -/

/-- `n` bytes of the flash. -/
def flashBytes (s : State) (off n : Nat) : List Byte := (List.range n).map (fun i => Tab.get 0xFF s.hearth.flash (off + i))

/-- The number that `n` bytes of the flash spell. -/
def flashNat (s : State) (off n : Nat) : Nat := leNat (flashBytes s off n)

/-- Bytes programmed into the flash. -/
def flashWrite (s : State) (off : Nat) (bs : List Byte) : State :=
  s.modHearth (fun h => { h with flash := bs.zipIdx.foldl (fun f p => Tab.put 0xFF f (off + p.2) p.1) h.flash })

/-- Bytes of a slot. -/
def slotSize : Nat := 0x02000000
/-- A slot's first byte. -/
def slotBase (slot : Nat) : Nat := slot * slotSize
/-- The identity area: the serial number at 0, the MAC address at 8, the identity certificate at 16 and the FRU data at 0x2000. -/
def idArea : Nat := 0x04000000
/-- Bytes of a certificate (R544). -/
def certLen : Nat := 7241
/-- The side-band MAC address. -/
def sideMac (s : State) : Nat := flashNat s (idArea + 8) 6

/-- An opaque primitive's result at the length that the layout gives it. -/
def fitTo (n : Nat) (l : List Byte) : List Byte := (l ++ List.replicate n 0).take n

/-! ### Image checks (R540, R541) -/

/-- The code that a slot's checks end in, 0 when it passes. -/
def slotCode (s : State) (slot : Nat) : Nat :=
  let b := slotBase slot
  let len := flashNat s (b + 12) 4
  let cert := fun (o n : Nat) => flashBytes s (b + 256 + o) n
  let secs := s.hearth.calSeconds
  let svn := flashNat s (b + 10) 2
  if flashNat s b 8 ≠ 0x4D55545241435543 ∨ flashNat s (b + 8) 2 ≠ 1 ∨ slotSize - 16384 < len then HC.imageFormatBad
  else if !Config.mldsaVerify Config.rootKey (cert 0 2614) (cert 2614 4627) then HC.imageSigBad
  else if s.hearth.calValid ∧ (secs < leNat (cert 8 6) ∨ leNat (cert 14 6) < secs) then HC.imageCertTime
  else if !Config.mldsaVerify (cert 22 2592) (flashBytes s b 7497) (flashBytes s (b + 7497) 4627) then HC.imageSigBad
  else if svn < s.hearth.svnMin ∨ svn < leNat (cert 20 2) then HC.imageRollback
  else if sha3_512 (flashBytes s (b + 16384) len) ≠ flashBytes s (b + 16) 64 then HC.imageDigestBad
  else 0

/-- Whether a slot's checks came as far as the certificate's window while the calendar is not valid (R541). -/
def windowSkipped (s : State) (slot : Nat) : Bool :=
  !s.hearth.calValid && slotCode s slot != HC.imageFormatBad &&
    Config.mldsaVerify Config.rootKey (flashBytes s (slotBase slot + 256) 2614) (flashBytes s (slotBase slot + 2870) 4627)

/-- What is kept of an image that passed: its source, its SVN and the values for M1 and M2 (R546). -/
def candidateOf (s : State) (slot src : Nat) : Candidate :=
  { src := src, svn := flashNat s (slotBase slot + 10) 2, m1 := sha3_512 (flashBytes s (slotBase slot) 16384), m2 := flashBytes s (slotBase slot + 16) 64 }

/-! ### Measurement (R545 to R547) -/


/-- Measurement register `i` extended by `v`. -/
def extendM (s : State) (i : Nat) (v : List Byte) : State :=
  s.modHearth (fun h => { h with m := Vec.put h.m i (sha3_512 (Vec.get h.m i [] ++ v)) })

/-- The value that M0 is extended by. -/
def romMeasure (s : State) : List Byte :=
  sha3_512 (Config.romAndFuses s.hearth.svnMin s.grade ++ leBytes 1 s.arrayMask)

/-- The seed of a key pair that the security engine derives. -/
def keySeed (label : List Byte) (rest : List Byte) : List Byte := (sha3_512 (label ++ rest)).take 32

/-- "CUTAR-ID" as bytes. -/
def labelId : List Byte := [0x43, 0x55, 0x54, 0x41, 0x52, 0x2D, 0x49, 0x44]
/-- "CUTAR-AT" as bytes. -/
def labelAt : List Byte := [0x43, 0x55, 0x54, 0x41, 0x52, 0x2D, 0x41, 0x54]

/-- The identity key's seed. -/
def idSeed (s : State) : List Byte := keySeed labelId s.hearth.secret
/-- The attestation key's seed for the measurements held. -/
def atSeed (s : State) : List Byte :=
  keySeed labelAt (s.hearth.secret ++ Vec.get s.hearth.m 0 [] ++ Vec.get s.hearth.m 1 [] ++ Vec.get s.hearth.m 2 [])

/-- The attestation report (R548). -/
def buildReport (s : State) (nonce : List Byte) : List Byte :=
  let h := s.hearth
  let ms := fun (n : Nat) => (List.range n).flatMap (fun i => Vec.get h.m i [])
  let head := leBytes 8 0x3154505241544543 ++ leBytes 8 s.serial.toNat ++ nonce ++ leBytes 8 (h.calSeconds % 2 ^ 48 + b2n h.calValid * 2 ^ 63) ++ ms 4 ++
    leBytes 4 h.tries ++ leBytes 1 h.bootSrc ++ leBytes 1 h.policy ++ leBytes 2 h.svnRun ++ leBytes 2 h.svnMin ++ leBytes 1 s.arrayMask ++ leBytes 1 s.grade
  let pub := fitTo 2592 (Config.mldsaPublic h.atKey)
  let endorse := fitTo 4627 (Config.mldsaSign (idSeed s) (pub ++ ms 3))
  let body := head ++ pub ++ endorse
  body ++ fitTo 4627 (Config.mldsaSign h.atKey body)

/-! ### Switching the main logic off, and resets (R511, R513, R529, R534) -/

/-- Whether an offset lies in the Hearth block. -/
def inHearthBlock (off : Nat) : Bool := decide (0x210000 ≤ off) && decide (off < 0x220000)

/-- The main logic switched off: what its domains hold is lost, and CSR space outside the Hearth block is at its reset values. The root PLL's domain stays on when `keepPll` says so
and it was. Memory of the module holds nothing; host memory is the host's. -/
def mainOff (s : State) (keepPll : Bool) : State :=
  let pll := keepPll && domOn s 123
  let p := Power.reset s.arrayMask
  { s with mem := s.mem.filter (fun x => x.1.testBit 47), poison := [], benchPoison := []
           regs := s.regs.filter (fun x => inHearthBlock x.1)
           trays := Vector.ofFn (fun t : Fin 32 => Tray.reset t.val)
           barriers := Vector.replicate 16 .free
           queues := Vector.replicate 64 .reset
           cores := Vector.replicate 4 .reset
           mmu := { walks := [], nextWalk := 0, cache := .reset, inv := none, invWaits := [] }
           larder := { lines := [], plru := [], ways := 0, repart := none, lost := [] }
           arbs := [], errLog := [], planted := [], stop := none, scrubbing := [], trained := false
           power := { p with doms := if pll then Vec.put p.doms 123 .on else p.doms, locked := pll && s.power.locked, tj := s.power.tj, crit := s.power.crit }
           host := { HostPort.reset with ref := s.host.ref }
           staon := { Staon.reset with ref := s.staon.ref, out := s.staon.out } }

/-- What every reset kind does to the Hearth and to what follows the sensors: boot counts and measurements cleared, the policy in force taken, RDY_N released, a removal ended, and THM_TJ
and the MOD registers at their reset values until the next readings (R534, R556, R598, R605). -/
def hearthClear (s : State) (cause : Nat) : State :=
  let s1 := s.modHearth (fun h =>
    { h with cause := cause, calUnchecked := false, bootSrc := 0, round := 0, tries := 0, src := 0, candidate := none, sideband := false, gotPut := false,
             svnRun := 0, m := Vector.replicate 4 (List.replicate 64 0), secretLocked := false, atKey := [], attesting := false, removal := .none,
             wrEnRetry := false, thermalStop := false, cooled := false, fabPolicy := h.policy.testBit 0, fabHeld := !h.policy.testBit 0 })
  let s2 := s1.modPower (fun p => { p with tj := 0 })
  s2.setModhw { s2.modhw with rdy := false, attn := false, vinRead := 0, iin := 0, tIn := 0, tOut := 0 }

/-- A lost calendar is logged at the next boot (R549). -/
def logCalLost (s : State) : State :=
  if s.hearth.calLost then (hearthLog s HC.calLost 0).modHearth (fun h => { h with calLost := false }) else s

/-- The Hearth starts from its ROM: what only its memory held is lost (R534). -/
def romStart (s : State) (cause : Nat) : State :=
  (hearthClear (mainOff s false) cause).modHearth (fun h =>
    { h with running := true, stage := 0, lastFail := 0, lastTag := [], lastReply := none, ipv4 := 0, ipv6 := 0, report := [], fruOff := 0 })

/-- Step 2 begins: the first round, with slot A (R536, R539). -/
def startImages (s : State) : State :=
  (extendM s 0 (romMeasure s)).modHearth (fun h => { h with stage := 1, round := 1, src := 0 })

/-- A POWER_ON reset. -/
def powerOnReset (s : State) (cause : Nat) : State :=
  let s1 := romStart s cause
  s1.setPower { s1.power with crit := false }

/-- A HEARTH reset. -/
def hearthReset (s : State) (cause : Nat) : State := romStart s cause

/-- A MODULE reset: the boot begins at step 2 (R534). -/
def moduleReset (s : State) (cause : Nat) : State :=
  startImages (logCalLost (hearthClear (mainOff s true) cause))

/-- Power removed or the Hearth held in reset: nothing runs (R533, R592, R595). -/
def holdAll (s : State) : State := (romStart s s.hearth.cause).modHearth (fun h => { h with running := false })

/-! ### Boot (R536 to R542) -/

/-- The Held domains that a boot wakes: those whose PWR_DOM_ON is 1, the Staon ports' only while the fabric is allowed (R512, R536, R556). -/
def bootDoms (s : State) : List Nat :=
  (List.range 125).filter (fun d => isHeld d && bit (s.reg (if d < 64 then Csr.pwrDomOn0 else Csr.pwrDomOn1)) (d % 64) &&
    !fabricHolds s d)

/-- IMAGE_REQUEST sent (R542, R551, R554). -/
def askImage (s : State) : State :=
  s.modHearth (fun h => { h with side := h.side ++ [.imageRequest h.peer h.svnMin h.lastFail] })

/-- The next source of a round: slot B after slot A, then the side-band, then the backoff (R538, R539). -/
def nextSource (s : State) : State :=
  match s.hearth.src with
  | 0 => s.modHearth (fun h => { h with stage := 1, src := 1, candidate := none })
  | 1 => askImage (s.modHearth (fun h => { h with stage := 1, src := 2, candidate := none, sideband := true, gotPut := false }))
  | _ => s.modHearth (fun h => { h with stage := 2, candidate := none, sideband := false })

/-- An attempt fails at its image: counted, logged, reported (R539, R540, R554). -/
def attemptFails (s : State) (code : Nat) : State :=
  nextSource ((hearthEvent s code 0).modHearth (fun h => { h with tries := h.tries + 1, lastFail := code }))

/-- An attempt fails in step 3, 4 or 5: the main logic is switched off; the attempt was counted when its image passed (R537, R539). -/
def startFails (s : State) (code : Nat) : State :=
  nextSource ((hearthEvent (mainOff s false) code 0).modHearth (fun h => { h with lastFail := code }))

/-- The dividers are released, and the Held domains requested (R510, R536). -/
def releaseDividers (s : State) : State := (bootDoms s).foldl requestWake s

/-- An image passes: the attempt counts, and main power-up begins (R536, R539). -/
def imagePasses (s : State) (slot src : Nat) : State :=
  let c := candidateOf s slot src
  let s1 := s.modHearth (fun h => { h with stage := 3, tries := h.tries + 1, candidate := some c, bootSrc := src, sideband := false })
  if domOn s1 123 then (if s1.power.locked then releaseDividers s1 else s1) else setDom s1 123 .on

/-- A slot's attempt, or the check that IMAGE_DONE makes part of a side-band attempt (R540, R542). -/
def attemptSlot (s : State) (slot src : Nat) : State :=
  let s1 := if windowSkipped s slot then s.modHearth (fun h => { h with calUnchecked := true }) else s
  if slotCode s slot = 0 then imagePasses s1 slot src else attemptFails s1 (slotCode s slot)

/-- The Hearth's write of FAB_MGT_WR into STN_MGT_WR_EN; one that RWL refuses is tried again (R556). -/
def writeMgtEn (s : State) : State :=
  let want := b2n (s.hearth.policy.testBit 1)
  match RegMap.find Csr.stnCfg with
  | some (d, _, _) =>
    let s1 := storeWrite s Csr.stnCfg d 0 (setBf (s.reg Csr.stnCfg) 2 2 want)
    s1.modHearth (fun h => { h with wrEnRetry := s1.fld Csr.stnCfg 2 2 != want })
  | none => s

/-- Steps 5 to 7 of the boot: the firmware starts, the image is measured, keys are derived, the secret locks, the ports are enabled, and the module runs (R536, R546, R547, R556). -/
def firmwareStarts (s : State) : State :=
  let h := s.hearth
  let c := h.candidate.getD { src := h.src, svn := 0, m1 := [], m2 := [] }
  let m3 := sha3_512 (leBytes 1 c.src ++ leBytes 1 (b2n h.calUnchecked) ++ leBytes 1 h.policy ++ List.replicate 5 0)
  let s1 := extendM (extendM (extendM s 1 c.m1) 2 c.m2) 3 m3
  let s2 := s1.modHearth (fun x => { x with atKey := atSeed s1, secretLocked := true, svnRun := c.svn, stage := 6 })
  let s3 := (s2.setHost { s2.host with enabled := true }).setStaon { s2.staon with enabled := !h.fabHeld }
  hearthEvent (writeMgtEn (adjustPorts s3)) HC.bootDone 0

/-- What the Hearth copies at step 1 (R592, R597, R601). -/
def sampleStep1 (s : State) (env : BootEnv) : State :=
  s.setModhw { s.modhw with hscCause := s.modhw.cause, straps := env.straps % 4, cellLow := env.cellLow }

/-- The next step of the boot (R536, R537): each step ends as `env` says; a step whose conditions are not met yet does not end. -/
def bootStep (s : State) (env : BootEnv) : State :=
  match s.hearth.stage with
  | 0 => if env.stepOk then startImages (logCalLost (sampleStep1 s env)) else s
  | 1 => if s.hearth.sideband then s else attemptSlot s s.hearth.src s.hearth.src
  | 3 =>
    if !env.stepOk then startFails s HC.clockLockFail
    else if s.power.locked && allOn s (bootDoms s) then s.modHearth (fun h => { h with stage := 4 })
    else s
  | 4 =>
    if !env.stepOk then startFails s FC.lpddrTrainFail
    else (s.setTrained true).modHearth (fun h => { h with stage := 5 })
  | 5 => if !env.stepOk then startFails s HC.fwStartFail else firmwareStarts s
  | _ => s

/-! ### Removal (R558) -/

/-- After STN_LEFT: waiting records are dropped, the host links go down, and the main domains are switched off (R558). -/
def afterLeft (s : State) : State :=
  if s.hearth.removal == .leaving then
    (mainOff s false).modHearth (fun h => { h with removal := .off, fabHeld := true })
  else s

/-- The drain ends: tasks still present end with TASK_ABORTED, and leaving begins, or is behind the module already (R86, R88, R558). -/
def endDrain (s : State) : State :=
  let s1 := (List.range 32).foldl (fun s' t => endTask s' t FC.taskAborted (s'.tray t).tryInstr 0 0xFFFFFFFF 0 0) s
  let s2 := s1.modHearth (fun h => { h with removal := .leaving })
  let s3 := startLeave (s2.setFld Csr.stnCfg 0 0 1)
  if s3.staon.left then afterLeft s3 else s3

/-- A removal starts: every queue stops dispatching; with no task present the drain ends at once (R558). -/
def startRemoval (s : State) : State :=
  let s1 := (List.range 64).foldl stopQueue (s.modHearth (fun h => { h with removal := .draining, stage := 7 }))
  if anyTask s1 then s1 else endDrain s1

end Sys2Proof.Machine
end

