-- ==== Sys2Proof/Machine/Arb.lean ====
section
/-! DEFINITION. The shared arbiter: the end of a request, one cycle of an instance, the traffic split and the check caches of the LPDDR5X controllers, and reads of LPDDR5X
(R352 to R354, R395 to R398, R405 to R412). -/

namespace Sys2Proof.Machine

/-! ### The end of a request (R408) -/

/-- A requester's head leaves its queue: the next request becomes the head with the stamp of the next cycle, and one that waits for room enters. -/
def Arbiter.leave (a : Arbiter) (r : Nat) : Arbiter :=
  let q1 := dropFirst (fun x => x.requester == r) a.queue
  let (q2, b2) : List ArbReq × List ArbReq := match a.backlog.find? (fun x => x.requester == r) with
    | some x => (q1 ++ [x], dropFirst (fun y => y.requester == r) a.backlog)
    | none => (q1, a.backlog)
  let rest := a.heads.filter (fun h => h.1 != r)
  { a with queue := q2, backlog := b2, heads := if q2.any (fun x => x.requester == r) then rest ++ [(r, (a.cyc + 1) % 4096, 0)] else rest }

/-! ### Ranking (R406, R409) -/

/-- ARB_WAIT_LIMIT as it acts (R412). -/
def waitLimit (s : State) (site : Nat) : Nat := max 1 (s.fld (Csr.arbCtl site) 9 0)

/-- The classes of a round of 16 slots: read, write, remote in turn, skipping those used up (R353). -/
def splitPattern : Nat → Nat → Nat → Nat → List Nat
  | 0, _, _, _ => []
  | n + 1, r, w, x =>
    (if 0 < r then [0] else []) ++ (if 0 < w then [1] else []) ++ (if 0 < x then [2] else []) ++ splitPattern n (r - 1) (w - 1) (x - 1)

/-- The class of a slot of a round. -/
def slotClass (split : Reg) (slot : Nat) : Nat := (splitPattern 16 (bf split 4 0) (bf split 12 8) (bf split 20 16)).getD slot 0

/-- The heads that compete in this cycle: at a controller, those of the slot's class, or every one when that class has none (R353, R406). -/
def Arbiter.rivals (a : Arbiter) (site : Nat) : List (Nat × Nat × Nat) :=
  if site = 3 then
    let mine := a.heads.filter (fun h => (a.head h.1).any (fun x => x.cls == slotClass a.split (a.cyc % 16)))
    if mine.isEmpty then a.heads else mine
  else a.heads

/-- The rank of a head: forced first, then age, then index (R406, R407); a smaller number ranks higher. -/
def headRank (cyc limit : Nat) (h : Nat × Nat × Nat) : Nat :=
  (if limit ≤ h.2.2 then 0 else 1) * 2 ^ 20 + (4095 - (cyc + 4096 - h.2.1) % 4096) * 32 + h.1

/-! ### One cycle (R406 to R411) -/

/-- Wait counters at the end of a cycle: the requester `got` was granted, or none (R409). -/
def Arbiter.waited (a : Arbiter) (got : Option Nat) : Arbiter :=
  { a with heads := a.heads.map (fun h => if some h.1 = got then (h.1, h.2.1, 0) else (h.1, h.2.1, h.2.2 + 1)) }

/-- A requester's wait counter set to 0. -/
def Arbiter.waitZero (a : Arbiter) (r : Nat) : Arbiter := { a with heads := a.heads.map (fun h => if h.1 = r then (h.1, h.2.1, 0) else h) }

/-- A beat of the holder's burst runs; its last beat ends the request. -/
def Arbiter.beat (a : Arbiter) (x : ArbReq) (n : Nat) (forced : Bool) : Arbiter × Option ArbReq :=
  if x.beats ≤ n + 1 then ({ a with holder := none }.leave x.requester, some x) else ({ a with holder := some (x, n + 1, forced) }, none)

/-! ### Check caches (R396) -/

/-- A use of the check line of ECC group `g`: it becomes the last used, and is to be written back once a write has updated it. -/
def useCheck (g : Nat) (write : Bool) (l : List (Nat × Bool)) : List (Nat × Bool) :=
  l.filter (fun p => p.1 != g) ++ [(g, write || l.any (fun p => p.1 == g && p.2))]

/-- What a slot given to an access whose check line is not cached does (R396): with 64 check lines cached the least recently used one leaves, its writeback taking the slot if it was
updated; otherwise the check line is read. DESIGN CHOICE, log entry 54: the rule names no order of replacement. -/
def fetchCheck (g : Nat) (l : List (Nat × Bool)) : List (Nat × Bool) :=
  match l with
  | (_, dirty) :: rest => if l.length < 64 then l ++ [(g, false)] else if dirty then rest else rest ++ [(g, false)]
  | [] => [(g, false)]

/-- The counts of one cycle: forced grants, withdrawals with their dead cycles. -/
structure ArbCounts where
  forced : Nat := 0
  revoked : Nat := 0
  deriving DecidableEq, Repr

/-- One cycle of an instance: the request whose last beat runs in it, and what it counts. At a controller the slot of an access whose check line is not cached goes to the check
lines, in that access's class (R396). -/
def Arbiter.cycle (a0 : Arbiter) (site limit : Nat) (split : Reg) : Arbiter × Option ArbReq × ArbCounts :=
  let a := if site = 3 ∧ a0.cyc % 16 = 0 then { a0 with split := split } else a0
  let next := fun (b : Arbiter) => { b with cyc := (b.cyc + 1) % 4096 }
  match a.holder with
  | some (x, n, forced) =>
    if !forced && n % 4 == 0 && a.heads.any (fun h => h.1 != x.requester && decide (limit ≤ h.2.2)) then
      let q := modFirst (fun y => y.requester == x.requester) (fun y => { y with beats := y.beats - n }) a.queue
      (next (({ a with holder := none, queue := q }.waited none).waitZero x.requester), none, { revoked := 1 })
    else
      let (b, fin) := (a.waited (some x.requester)).beat x n forced
      (next b, fin, {})
  | none =>
    match argMin (headRank a.cyc limit) (a.rivals site) with
    | none => (next a, none, {})
    | some h =>
      match a.head h.1 with
      | none => (next a, none, {})
      | some x =>
        let g := groupOf x.line
        if site = 3 ∧ a.checks.all (fun p => p.1 != g) then (next { a.waited (some h.1) with checks := fetchCheck g a.checks }, none, {})
        else
        let a := if site = 3 then { a with checks := useCheck g x.write a.checks } else a
        let forced := decide (limit ≤ h.2.2)
        let (b, fin) := (a.waited (some h.1)).beat x 0 forced
        (next b, fin, { forced := b2n forced })

/-- One cycle of an instance with its counters (R408 to R412). -/
def arbCycle (s : State) (site inst : Nat) : State × Option ArbReq :=
  let a := arbOf s site inst
  let full := ((a.backlog.map (fun x => x.requester)).eraseDups).length
  let (b, fin, n) := a.cycle site (waitLimit s site) (s.reg (Csr.lpcSplit inst))
  let s1 := (setArb s b).count (Csr.arbForced site) n.forced
  (((s1.count (Csr.arbRevokes site) n.revoked).count (Csr.arbDead site) n.revoked).count (Csr.arbQfull site) full, fin)

/-- A head's wait counter reaches the limit (R409). -/
def forceHead (s : State) (site inst r : Nat) : State :=
  let a := arbOf s site inst
  let lim := waitLimit s site
  let held := match a.holder with
    | some (x, _, _) => x.requester == r
    | none => false
  if held || !a.heads.any (fun h => h.1 == r && decide (h.2.2 < lim)) then s
  else setArb s { a with heads := a.heads.map (fun h => if h.1 = r then (h.1, h.2.1, max h.2.2 lim) else h) }

/-! ### Reads of LPDDR5X (R395 to R398) -/

/-- The last error that a controller logged. -/
def lpcLast (s : State) (ctrl line : Nat) (ue : Bool) : State :=
  s.setReg (Csr.lpcEccLast ctrl) (BitVec.ofNat 64 (b2n ue * 2 ^ 63 + 128 * line))

/-- An error of a read line counted and logged by its controller (R397). -/
def lpcError (s : State) (ctrl line : Nat) (ue : Bool) : State :=
  lpcLast (s.count (if ue then Csr.lpcEccUe ctrl else Csr.lpcEccCe ctrl) 1) ctrl line ue

/-- A correctable error: the corrected line is written back in the write class (R397). -/
def lineCorrected (s : State) (ctrl requester line : Nat) : State := pushArb (lpcError s ctrl line false) 3 ctrl (.lone requester line true false 1)

/-- An uncorrectable error of a read for the Larder: the line comes in poisoned (R397). -/
def linePoisoned (s : State) (ctrl line : Nat) : State :=
  let s1 := lpcError s ctrl line true
  logUnowned (s1.setPoison (Tab.put false s1.poison line true)) FC.eccUncorrectable 1 (128 * line)

/-- The outcome of a line's check: more errors than the rule speaks of are found as uncorrectable, taken for a correctable error, or not seen, and then the line's data are
undetermined (R395). -/
def checkOutcome (s : State) (line : Nat) (e : ReadErr) : State × LineCheck :=
  match e with
  | .line lo hi other =>
    match lineCheck lo hi other with
    | .open =>
      let v := (Config.freeWord s.free).toNat % 3
      let s1 := s.setFree (s.free + 1)
      if v = 0 then (s1, .uncorrectable) else (blurBytes s1 (128 * line) 128, if v = 1 then .corrected else .clean)
    | k => (s, k)
  | _ => (s, .clean)

/-- A line read from LPDDR5X by a slice: a line stored with the poison pattern always reads as uncorrectable (R397). -/
def lpddrRead (s0 : State) (ctrl requester line : Nat) (e : ReadErr) : State :=
  if Tab.get false s0.poison line || Tab.get false s0.larder.lost line then linePoisoned s0 ctrl line
  else
    match checkOutcome s0 line e with
    | (s, .uncorrectable) => linePoisoned s ctrl line
    | (s, .corrected) => lineCorrected s ctrl requester line
    | (s, _) => s

/-- The uncorrectable line that a scrub has read is rewritten with the poison pattern; while the Larder holds the line, its own copy is untouched (R398). -/
def scrubPoisons (s : State) (ctrl line : Nat) : State :=
  let s1 := logUnowned (lpcError s ctrl line true) FC.eccUncorrectable 1 (128 * line)
  let s2 := if larderHolds s1 line && !Tab.get false s1.poison line then s1.setLarder { s1.larder with lost := Tab.put false s1.larder.lost line true }
    else s1.setPoison (Tab.put false s1.poison line true)
  pushArb s2 3 ctrl (.lone 16 line true false 1)

/-- A line read by the scrub (R397, R398). -/
def scrubLine (s0 : State) (ctrl line : Nat) (e : ReadErr) : State :=
  if Tab.get false s0.poison line || Tab.get false s0.larder.lost line then scrubPoisons s0 ctrl line
  else
    match checkOutcome s0 line e with
    | (s, .uncorrectable) => scrubPoisons s ctrl line
    | (s, .corrected) => lineCorrected s ctrl 16 line
    | (s, _) => s

/-! ### The requests of a transfer descriptor (R333, R352, R387, R389) -/

/-- The Larder slice port that a line of usable LPDDR5X or of the scratch window goes to (R387, R389). -/
def slicePort (s : State) (line : Nat) : Nat :=
  match regionOf s (128 * line) with
  | .scratch => (line - scratchBase / 128) % 16
  | _ => larSlice line

/-- An instance without the requests of an owner. -/
def Arbiter.without (owner : Nat) (a : Arbiter) : Arbiter :=
  if (a.queue ++ a.backlog).all (fun x => x.owner != owner) then a
  else
    let q := (a.queue ++ a.backlog).filter (fun x => x.owner != owner)
    let a1 : Arbiter := { a with queue := [], backlog := [], heads := [], holder := a.holder.bind (fun h => if h.1.owner = owner then none else some h) }
    let a2 := q.foldl Arbiter.enter a1
    { a2 with heads := a2.heads.map (fun h => (a.heads.find? (fun g => g.1 == h.1 && (a.head g.1) == (a2.head h.1))).getD h) }

/-- Requests of an owner that the instances of a site hold, each with its instance. -/
def ownedAt (s : State) (site owner : Nat) : List (Nat × ArbReq) :=
  (s.arbs.filter (fun a => a.key / 65536 == site)).flatMap (fun a => ((a.queue ++ a.backlog).filter (fun x => x.owner == owner)).map (fun x => (a.key % 65536, x)))

/-- Every transaction of a channel's descriptor served, those not yet in flight included: what is left at the slices passes the Larder, and what is left at the controllers is read
(R333, R388, R397). -/
def serveOwned (s : State) (c ch owner : Nat) : State :=
  let waiting := (s.channel c ch).txns.filter (fun p => p.2.owner == owner)
  let s1 := s.modChannel c ch (fun h => { h with txns := h.txns.filter (fun p => p.2.owner != owner) })
  let s2 := (ownedAt s1 2 owner ++ waiting).foldl (fun s' p => if regionOf s' (128 * p.2.line) = .lpddr then larderServe s' p.2 else s') s1
  let s3 := ((ownedAt s2 3 owner).filter (fun p => !p.2.write)).foldl (fun s' p => lpddrRead s' p.1 p.2.requester p.2.line .none) s2
  s3.setArbs (s3.arbs.map (Arbiter.without owner))

end Sys2Proof.Machine
end

