-- ==== Sys2Proof/Machine/Issue.lean ====
section
/-! DEFINITION. Issue: fetching an instruction word and its descriptors, the checks of R89 and R113 with those of the engine chapters, and what every opcode does as it issues
(R77 to R125, R176, R177, R283, R329, R346, R422, R456, R479, R487, R490, R496, R525). -/

namespace Sys2Proof.Machine

/-! ### Fetching (R78, R79, R114, R456) -/

/-- What a quick call's tray keeps of its stream and descriptors (R456). -/
def keptBytes (s : State) (t idx va : Nat) : Option (List Byte) :=
  let r := s.tray t
  if r.kind.isQuick ∧ idx < 64 then
    ((s.hq r.queue).copies.find? (fun p => p.1 == t)).bind (fun p => (p.2.find? (fun q => q.1 == va)).map (fun q => q.2))
  else none

/-- The copies of R456 with bytes that a quick call's tray has read. -/
def keepBytes (s : State) (t idx va : Nat) (bs : List Byte) : State :=
  let r := s.tray t
  if r.kind.isQuick ∧ idx < 64 then
    s.modHq r.queue (fun q =>
      if q.copies.any (fun p => p.1 == t) then { q with copies := q.copies.map (fun p => if p.1 = t then (t, p.2 ++ [(va, bs)]) else p) }
      else { q with copies := q.copies ++ [(t, [(va, bs)])] })
  else s

/-- Bytes of a tray's stream or descriptor table, read for the instruction of an index on the read channel. -/
def trayFetch (s : State) (t idx : Nat) (va n : Nat) : State × Except MemErr (List Byte) :=
  match keptBytes s t idx va with
  | some bs => (s, .ok bs)
  | none =>
    match readV s (coreOf t) (spaceOf s t) va n with
    | (s1, .error e) => (s1, .error e)
    | (s1, .ok bs) => (keepBytes (s1.count (Csr.prfBytesRd (coreOf t)) n) t idx va bs, .ok bs)

/-- An error of a fetch: a miss pauses the task, any other result ends it (R79, R357, R358). -/
def fetchFault (s : State) (t idx tag : Nat) (e : MemErr) : State :=
  let a := recAddr s t e.va
  let mark := fun (s' : State) => if (s.tray t).live then s'.modTray t (fun x => { x with faulted := x.faulted.map (fun f => { f with tag := tag }) }) else s'
  if e.code = FC.pageMiss then pauseTask s t idx 0 0xFFFFFFFF tag e.va false
  else if e.code = FC.eccUncorrectable then mark (endTaskLog s t e.code idx 0 0xFFFFFFFF 0 a 1 e.pa)
  else mark (endTask s t e.code idx 0 0xFFFFFFFF 0 a)

/-- The rows of a batched task and its first ring row (R329). -/
def batchOf (k : TaskKind) : Option (Nat × Nat) :=
  match k with
  | .batch ms => some (ms.foldl (fun a m => a + m.rows) 0, (ms.headD ⟨0, 0, 0⟩).first)
  | _ => none

/-- A field of a word that holds 0xFFFF_FFFF replaced. -/
def replaceAll1 (w : IWord) (hi lo v : Nat) : IWord := if bf w hi lo = 0xFFFFFFFF then setBf w hi lo v else w

/-- The field values that R329 replaces in a batched task. -/
def batchWord (k : TaskKind) (w : IWord) : IWord :=
  match batchOf k, mnOfWord w with
  | some (rows, first), some mn =>
    if mn.isProduct ∨ mn = .ldw then replaceAll1 (replaceAll1 w 127 96 rows) 207 176 first
    else if mn.isV then replaceAll1 (replaceAll1 w 127 96 rows) 191 160 first
    else if mn.isX then replaceAll1 (replaceAll1 (replaceAll1 w 127 96 rows) 159 128 first) 191 160 first
    else w
  | _, _ => w

/-- The advance of a descriptor by the active loops (R104). -/
def loopAdvance (ls : List Loop) (d : Nat) : Int :=
  ls.foldl (fun a l =>
    let f := fun (o : Option (Nat × Int)) => match o with
      | some (x, st) => if x = d then (l.iter : Int) * st else 0
      | none => 0
    a + f l.adv0 + f l.adv1) 0

/-- The descriptors of an instruction read in role order (R104, R113, R114). -/
def readDescs (s : State) (t idx dtab : Nat) (ls : List Loop) : List (Role × Nat) → State × Except MemErr (List (Role × Nat × Desc))
  | [] => (s, .ok [])
  | (role, n) :: rest =>
    match trayFetch s t idx (dtab + 64 * n) 64 with
    | (s1, .error e) => (s1, .error e)
    | (s1, .ok bs) =>
      let d := Desc.ofBytes bs
      match readDescs s1 t idx dtab ls rest with
      | (s2, .error e) => (s2, .error e)
      | (s2, .ok l) => (s2, .ok ((role, n, { d with base := d.base + loopAdvance ls n }) :: l))

/-! ### Checks -/

/-- Steps 1 and 2 of R89, which no opcode decides: the fault of a word that is no instruction. -/
def wordFault (w : IWord) : Option Nat :=
  if W.gen w ≠ 1 then some FC.genMismatch
  else if (mnOfWord w).isNone then some FC.opcUndefined
  else none

/-- Steps 3 to 6 of R89. -/
def headerFault (s : State) (t : Nat) (mn : Mn) (w : IWord) : Option Nat :=
  let members := (groupMembers s (W.mgroup w)).length
  if 0 < W.minor w then some FC.minorUnsupported
  else if !reservedClear mn w then some FC.reservedNonzero
  else if !featuresOk s mn then some FC.featureAbsent
  else if !fieldsOk s t mn w members then some FC.fieldRange
  else if mn = .cfg ∧ bf w 71 64 = 0x10 ∧ bf w 127 96 % 64 ≠ 0 then some FC.descTableAlign
  else none

/-- A descriptor's check at a step of R113: the code that its failure gives. -/
def descFault (s : State) (mn : Mn) (w : IWord) (set : Settings) (ds : List (Role × Nat × Desc)) (step : Nat) (x : Role × Nat × Desc) : Option Nat :=
  let d := x.2.2
  let find := fun (r : Role) => match ds.find? (fun p => p.1 == r) with
    | some p => p.2.2
    | none => Desc.none
  match step with
  | 1 => if descCheck1 d then none else some FC.descFormatBad
  | 2 => if descCheck2 d && !((mn.isFab || mn == .remote) && x.1 == .dst && d.bench) then none else some FC.descFieldBad
  | 3 => if descCheck3 d then none else some FC.reservedNonzero
  | 4 => if roleFormat mn w x.1 d (find .dst) (find .srca) then none else some FC.descFormatMismatch
  | _ => if roleShape mn w set.red set.vl (groupMembers s (W.mgroup w)).length x.1 d (find .srca) then none else some FC.descShapeBad

/-- The first failing check of R113: step by step, each over the descriptors in order, with the index of the descriptor that fails. -/
def descsFault (s : State) (mn : Mn) (w : IWord) (set : Settings) (ds : List (Role × Nat × Desc)) : Option (Nat × Nat) :=
  [1, 2, 3, 4, 5].findSome? (fun step => ds.findSome? (fun x => (descFault s mn w set ds step x).map (fun c => (c, x.2.1))))

/-- Whether a product's formats form a legal array pair (R192). -/
def pairLegal (i : Inst) : Bool := legalPair (i.desc .srca).fm (i.desc .srcb).fm

/-- The mask that a product takes from its tray's arming (R177). -/
def maskBindOf (s : State) (t : Nat) (mn : Mn) (w : IWord) : Option MaskBind :=
  match (s.tray t).arming with
  | none => none
  | some p =>
    match (s.core (coreOf t)).levain.maps.find? (fun m => m.tray == t && m.seq == p), (s.inst t p).map (fun i => W.m i.word) with
    | some m, _ => bindOf p m.neurons
    | none, some n => bindOf p n
    | none, none => none
where
  /-- The mask of an arming of `n` neurons. -/
  bindOf (p n : Nat) : Option MaskBind :=
    if mn != .mm && mn != .mms then none
    else if !W.trans w && W.nT w == n then some ⟨p, false⟩
    else if W.trans w && W.k w == n then some ⟨p, true⟩
    else none

/-- The face size of an MXM.LDW along its reduction axis: 512 in a structured mode (R207, R217). -/
def ldwK (i : Inst) : Nat :=
  if W.pack i.word = 0 ∧ 2 ≤ (i.desc .srcb).comp ∧ !W.trans i.word then 512 else faceOf (W.pack i.word)

/-- Step 8 of R89: checks that relate fields to the contents of descriptors, with the index of the descriptor at fault. -/
def step8Fault (s : State) (t : Nat) (i : Inst) : Option (Nat × Nat) :=
  let w := i.word
  let m := maskBindOf s t i.mn w
  let dst := i.desc .dst
  let bad := FC.descFormatMismatch
  if i.mn.isProduct then
    if i.set.outFmt < 14 ∧ i.set.outFmt ≠ dst.fmt then some (bad, W.dst w)
    else if ((i.mn = .mm ∧ W.eng w = 1) ∨ i.mn = .mms) ∧ !pairLegal i then some (bad, W.srcb w)
    else if dst.fm.isMx ∧ (W.colOff w % 32 ≠ 0 ∨ m.any (fun b => !b.kMasked)) then some (bad, W.dst w)
    else if i.mn = .mms ∧ m.any (fun b => b.kMasked) then some (FC.levBindBad, 0)
    else none
  else if i.mn = .ldw then
    if ldwK i < W.k w then some (FC.fieldRange, 0) else none
  else if i.mn = .exp then (if dst.comp ≠ 0 then some (bad, W.dst w) else none)
  else if i.mn = .cmp then
    if dst.comp = 0 then some (bad, W.dst w) else if W.prune w ∧ dst.comp = 1 then some (FC.fieldRange, 0) else none
  else none

/-- What follows the checks of R89 and R113: gating, slots, and the fabric (R283, R422, R487, R490, R496, R499, R525). -/
def lateFault (s : State) (t : Nat) (i : Inst) : Option Nat :=
  let w := i.word
  let c := coreOf t
  let g := W.mgroup w
  if sieveGated s ∧ (i.mn = .int ∨ i.mn = .sct ∨ (i.mn = .mm ∧ (W.eng w = 2 ∨ (W.eng w = 0 ∧ !pairLegal i)))) then some FC.pwrGated
  else if levainGated s ∧ i.mn = .pred then some FC.pwrGated
  else if i.mn = .run ∧ !Tab.get false (s.core c).vec.marks (16 * (t % 8) + W.prog w) then some FC.vxpProgEmpty
  else if i.mn = .upd ∧ updBusy s c (W.updLayer w) then some FC.updSlotBusy
  else if i.mn.isFab ∨ i.mn = .remote then
    if s.staon.assigned.isNone then some FC.fabNoAddress
    else if (i.mn = .fmcast ∨ i.mn = .fred) ∧ !groupValid s g then some FC.fabGroupBad
    else if i.mn = .fred ∧
        ((groupMembers s g).any (fun a => a != ownAddr s && !(List.range 12).any (fun p => portUsable s p && (sport s p).peerAddr == a)) ||
          s.trays.toList.any (fun r => r.insts.any (fun j => j.mn == .fred && W.mgroup j.word == g))) then some FC.fabGroupBad
    else if s.staon.leaving ∨ s.staon.left then some FC.fabUnreachable
    else if (i.mn = .fsend ∨ i.mn = .remote) ∧ (routePort s (if i.mn = .fsend then W.faddrF w else W.faddrX w)).isNone then some FC.fabUnreachable
    else none
  else none

/-! ### Effects at issue -/

/-- The index after an instruction, and the loops, once it has issued (R78, R104). `at'` is the next index if no loop turns back. -/
def turnLoops : Nat → Nat → List Loop → Nat × List Loop
  | _, next, [] => (next, [])
  | 0, next, ls => (next, ls)
  | fuel + 1, next, l :: rest =>
    if next = l.last + 1 then
      if l.iter + 1 < l.count then (l.first, { l with iter := l.iter + 1 } :: rest) else turnLoops fuel next rest
    else (next, l :: rest)

/-- The loop that a CTRL.LOOP at an index opens (R104). -/
def loopOf (idx : Nat) (w : IWord) : Loop :=
  { first := idx + 1, last := idx + bf w 139 128, count := W.m w, iter := 0,
    adv0 := if bit w 140 then some (bf w 151 144, W.sstride w 207 160) else none,
    adv1 := if bit w 141 then some (bf w 159 152, W.sstride w 255 208) else none }

/-- Where the stream goes on after an instruction: innermost loop first (R78, R104). -/
def advance (mn : Mn) (idx : Nat) (w : IWord) (ls : List Loop) : Nat × List Loop :=
  if mn = .loop then
    if W.m w = 0 then turnLoops 5 (idx + 1 + bf w 139 128) ls else (idx + 1, loopOf idx w :: ls)
  else turnLoops 5 (idx + 1) ls

/-- Whether a CTRL.LOOP nests too deep or crosses the end of its enclosing loop (R105). A loop of COUNT 0 has no body that runs, and adds no depth. -/
def loopBad (idx : Nat) (w : IWord) (ls : List Loop) : Bool :=
  (match ls with
    | [] => false
    | l :: _ => decide (l.last < idx + bf w 139 128)) || (W.m w != 0 && decide (4 ≤ ls.length))

/-- A bitmap whose arming has ended is freed once no masked instruction uses it (R185). -/
def freeMaps (s : State) (c : Nat) : State :=
  s.modLevain c (fun v => { v with maps := v.maps.filter (fun m => !m.ready || m.armed || !m.users.isEmpty) })

/-- The tray's arming ends (R176). -/
def disarm (s : State) (t : Nat) : State :=
  let c := coreOf t
  match (s.tray t).arming with
  | none => s
  | some p =>
    freeMaps ((s.modTray t (fun r => { r with arming := none })).modLevain c (fun v =>
      { v with maps := v.maps.map (fun m => if m.tray = t ∧ m.seq = p then { m with armed := false } else m) })) c

/-- The tray's resident tags cleared, with the tiles that an MXM.LDW placed and no pass has swapped in (R206, R207). -/
def clearTags (s : State) (t : Nat) : State :=
  s.modCore (coreOf t) (fun k => { k with arrays := k.arrays.map (fun a =>
    { a with buf := a.buf.filter (fun x => !(x.key.tray == t && x.ldw && !x.swapped))
             resident := a.resident.map (fun o => o.bind (fun x => if x.key.tray = t then none else some x)) }) })

/-- The settings that an instruction leaves to those after it (R106 to R108, R264). -/
def settingsAfter (mn : Mn) (w : IWord) (st : Settings) : Settings :=
  match mn with
  | .setvl => { st with vl := bf w 79 64 }
  | .cfg =>
    if bf w 71 64 = 0x10 then { st with dtab := bf w 127 96 + bf w 143 128 * 2 ^ 32 }
    else { st with bregs := setAt st.bregs (bf w 71 64) (bf w 111 96, bf w 127 112) }
  | .pcfg => { st with outFmt := bf w 67 64, red := bf w 74 72, statd := bf w 87 80, scale := BitVec.ofNat 32 (bf w 127 96) }
  | .aud => { st with audK := bf w 67 64, audEn := bit w 68, strict := bit w 69 }
  | _ => st

/-- GRP_RSEQ counted for a FAB.RED (R496). -/
def countRed (s : State) (mn : Mn) (w : IWord) : State :=
  if mn = .fred then s.setFld (Csr.group (W.mgroup w)) 47 32 (s.fld (Csr.group (W.mgroup w)) 47 32 + 1) else s

/-- A masked instruction takes its bitmap (R177, R185); the arming's first that is K-masked will observe (R183). -/
def takeMap (s : State) (t : Nat) (i : Inst) : State :=
  match i.mask with
  | none => s
  | some b => s.modLevain (coreOf t) (fun v =>
    { v with maps := v.maps.map (fun x => if x.tray = t ∧ x.seq = b.pred then
        { x with users := x.users ++ [i.seq], observer := if x.observer.isNone && i.observes then some i.seq else x.observer } else x) })

/-- An instruction that has passed every check issues: its settings, arming and mask take effect, its plan is made, and it is released if nothing holds
it (R26, R83, R107, R176, R301, R335); a PEEL.UPD reads its slot's range exponents (R420). Streams that the read-ahead started under other descriptors start again (R114), and transfers that a translation miss has held are tried again (R341).
DESIGN CHOICE, log entry 49: a CTRL.END whose wait is unmet enters ENDING at once and is never BLOCKED, of the two transitions that R82 gives it. -/
def issueInst (s : State) (t : Nat) (i0 : Inst) : State :=
  let r := s.tray t
  let w := i0.word
  let mask := maskBindOf s t i0.mn w
  let i1 : Inst := planInst s { i0 with mask := mask }
  let range := s.updWord (coreOf t) (W.updLayer w) 0
  let i2 : Inst := { i1 with lev := { i1.lev with rows := if i1.mn = .pred then (i1.desc .srca).rows else 0 }
                             upd := if i1.mn = .upd then { i1.upd with x := clampI (-32) 31 (sext 8 (bf range 7 0)), xst := sext 8 (bf range 15 8) } else i1.upd }
  let (pc', loops') := advance i0.mn r.pc w r.loops
  let s1 := countRed s i0.mn w
  let s2 := if i0.mn = .aud ∨ i0.mn = .pred then disarm s1 t else s1
  let s3 := s2.modTray t (fun x =>
    { x with insts := x.insts ++ [i2], nextSeq := x.nextSeq + 1, pc := pc', loops := loops', set := settingsAfter i0.mn w x.set,
             ahead := x.ahead.filter (fun a => a.seq != x.nextSeq), arming := if i0.mn = .pred then some i2.seq else x.arming,
             ending := x.ending || i0.mn == .endTask })
  let stale := r.ahead.any (fun a => a.seq == i2.seq && (a.descs != i2.descs || mask.isSome))
  let s4 := takeMap (if stale then dropStreams s3 t i2.seq else s3) t i2
  let s4 := s4.modProofer (coreOf t) (fun p => { p with streams := p.streams.map (fun x => if x.tray = t ∧ x.seq = i2.seq then { x with issued := true, held := false } else x) })
  let s5 := if i0.mn = .ldp then s4.modVec (coreOf t) (fun v => { v with marks := Tab.put false v.marks (16 * (t % 8) + W.prog w) true }) else s4
  let s6 := if W.fence w then clearTags s5 t else s5
  let met := tokensMet r.tokens (W.wait w) (waitCount i2)
  let s7 := s6.modTray t (fun x => { x with state := if i0.mn = .endTask then .ending else if met then .run else .blocked })
  tryRelease (wrote s7 9 (coreOf t) t) t

/-- The word of the tray's next instruction: read ahead, or fetched now (R78, R339). -/
def nextWord (s : State) (t : Nat) : State × Except MemErr IWord :=
  let r := s.tray t
  match r.ahead.find? (fun a => a.seq == r.nextSeq) with
  | some a => (s, .ok a.word)
  | none =>
    match trayFetch s t r.pc (r.stream + 32 * r.pc) 32 with
    | (s1, .error e) => (s1, .error e)
    | (s1, .ok bs) => (s1, .ok (BitVec.ofNat 256 (leNat bs)))

/-- The checks from step 3 on and the issue of a word that designates `mn`. -/
def issueWord (s : State) (t : Nat) (mn : Mn) (w : IWord) : State :=
  let r := s.tray t
  match headerFault s t mn w with
  | some code => faultIssue s t r.pc code 0 0 w
  | none =>
    match readDescs s t r.pc r.set.dtab r.loops (namedDescs mn w r.set.red r.set.statd) with
    | (s1, .error e) => fetchFault s1 t r.pc (W.tag w) e
    | (s1, .ok ds) =>
      let i := newInst r mn w ds
      match descsFault s1 mn w r.set ds with
      | some (code, n) => faultIssue s1 t r.pc code (if code / 256 = 2 then n else 0) 0 w
      | none =>
        match step8Fault s1 t i with
        | some (code, n) => faultIssue s1 t r.pc code (if code / 256 = 2 then n else 0) 0 w
        | none =>
          if mn = .loop ∧ loopBad r.pc w r.loops then faultIssue s1 t r.pc FC.loopNestBad 0 0 w
          else match lateFault s1 t i with
            | some code => faultIssue s1 t r.pc code 0 0 w
            | none => issueInst s1 t i

/-- Whether the read channel of a tray's core has a transfer descriptor free for a fetch (R332, R333). -/
def fetchRoom (s : State) (t : Nat) : Bool := (s.channel (coreOf t) 0).active.toList.any Option.isNone

/-- Whether a tray can issue: its task runs, no issued instruction waits for its tokens or for FENCE, and the next word is read ahead or can be fetched (R83, R115, R124, R332). -/
def canIssue (s : State) (t : Nat) : Bool :=
  let r := s.tray t
  s.stop.isNone && r.state == .run && !r.starting && !r.alignFault && !r.ending && r.insts.all (fun i => i.released) &&
    (r.ahead.any (fun a => a.seq == r.nextSeq) || fetchRoom s t)

/-- A tray issues its next instruction, if that is one of opcode `mn`. A word that is no instruction faults under whichever opcode's command comes (R89). -/
def issue (t : Nat) (mn : Mn) (s : State) : State :=
  if !canIssue s t then s
  else
    match nextWord s t with
    | (s1, .error e) => fetchFault s1 t (s.tray t).pc 0 e
    | (s1, .ok w0) =>
      let w := batchWord (s.tray t).kind w0
      match wordFault w with
      | some code => faultIssue s1 t (s.tray t).pc code 0 0 w
      | none => if mnOfWord w = some mn then issueWord s1 t mn w else s

/-- A command of tray `t`; there is none beyond tray 31 (R19). -/
def onTray (t : Nat) (f : State → State) (s : State) : Host.Outcome State Fault Refusal :=
  if t < 32 then .next (f s) else .fault (.noSuchUnit "tray" t)

/-- A command of core `c`; there is none beyond core 3 (R19). -/
def onCore (c : Nat) (f : State → State) (s : State) : Host.Outcome State Fault Refusal :=
  if c < 4 then .next (f s) else .fault (.noSuchUnit "core" c)

/-- A command of queue `q`; there is none beyond queue 63 (R20, R131). -/
def onQueue (q : Nat) (f : State → State) (s : State) : Host.Outcome State Fault Refusal :=
  if q < 64 then .next (f s) else .fault (.noSuchUnit "queue" q)

/-! ### The issue commands -/

/-- Issue of CTRL.NOP: nothing but its WAIT, SIG and FENCE (R91). -/
def execCtrlNop (t : Nat) (s : State) : Host.Outcome State Fault Refusal := onTray t (issue t .nop) s

/-- Issue of CTRL.LOOP: its body runs COUNT times, advancing the named descriptors (R104, R105). -/
def execCtrlLoop (t : Nat) (s : State) : Host.Outcome State Fault Refusal := onTray t (issue t .loop) s

/-- Issue of CTRL.END: the tray enters ENDING and waits for every earlier instruction (R80, R82). -/
def execCtrlEnd (t : Nat) (s : State) : Host.Outcome State Fault Refusal := onTray t (issue t .endTask) s

/-- Issue of CTRL.SETVL: the vector length of later instructions (R264). -/
def execCtrlSetvl (t : Nat) (s : State) : Host.Outcome State Fault Refusal := onTray t (issue t .setvl) s

/-- Issue of CTRL.CFG: one Bench region or the descriptor table base (R106). -/
def execCtrlCfg (t : Nat) (s : State) : Host.Outcome State Fault Refusal := onTray t (issue t .cfg) s

/-- Issue of XFER.LD: its rows are split into transfer descriptors of the read channel (R344). -/
def execXferLd (t : Nat) (s : State) : Host.Outcome State Fault Refusal := onTray t (issue t .ld) s

/-- Issue of XFER.ST: its rows are split into transfer descriptors of the write channel (R344). -/
def execXferSt (t : Nat) (s : State) : Host.Outcome State Fault Refusal := onTray t (issue t .st) s

/-- Issue of XFER.GATHER: its rows are gathered once its indices are checked (R100, R347 to R351). -/
def execXferGather (t : Nat) (s : State) : Host.Outcome State Fault Refusal := onTray t (issue t .gather) s

/-- Issue of XFER.SCATTER: its rows are written in ascending entry order (R101, R349). -/
def execXferScatter (t : Nat) (s : State) : Host.Outcome State Fault Refusal := onTray t (issue t .scatter) s

/-- Issue of XFER.REMOTE: each transfer descriptor is one WRITE message (R346). -/
def execXferRemote (t : Nat) (s : State) : Host.Outcome State Fault Refusal := onTray t (issue t .remote) s

/-- Issue of XFER.PREF: its rows are brought into the Larder (R342). -/
def execXferPref (t : Nat) (s : State) : Host.Outcome State Fault Refusal := onTray t (issue t .pref) s

/-- Issue of MXM.MM: the tiler builds its grid (R32, R301 to R310). -/
def execMxmMm (t : Nat) (s : State) : Host.Outcome State Fault Refusal := onTray t (issue t .mm) s

/-- Issue of MXM.MMS: every tile runs on the arrays in structured mode (R217). -/
def execMxmMms (t : Nat) (s : State) : Host.Outcome State Fault Refusal := onTray t (issue t .mms) s

/-- Issue of MXM.LDW: one weight tile is to be placed in the named array (R207). -/
def execMxmLdw (t : Nat) (s : State) : Host.Outcome State Fault Refusal := onTray t (issue t .ldw) s

/-- Issue of SPX.INT: a product whose Sieve tiles use the intersect dataflow (R141). -/
def execSpxInt (t : Nat) (s : State) : Host.Outcome State Fault Refusal := onTray t (issue t .int) s

/-- Issue of SPX.SCT: a product whose Sieve tiles use the scatter dataflow (R143). -/
def execSpxSct (t : Nat) (s : State) : Host.Outcome State Fault Refusal := onTray t (issue t .sct) s

/-- Issue of SPX.EXP: segments expanded to a dense destination (R162). -/
def execSpxExp (t : Nat) (s : State) : Host.Outcome State Fault Refusal := onTray t (issue t .exp) s

/-- Issue of SPX.CMP: a tensor encoded to crumbs or N:M form (R163). -/
def execSpxCmp (t : Nat) (s : State) : Host.Outcome State Fault Refusal := onTray t (issue t .cmp) s

/-- Issue of SPX.CEN: the density census (R99, R164). -/
def execSpxCen (t : Nat) (s : State) : Host.Outcome State Fault Refusal := onTray t (issue t .cen) s

/-- Issue of VXP.LDP: an element program and table entries are to be loaded; the slot is marked loaded (R282, R283). -/
def execVxpLdp (t : Nat) (s : State) : Host.Outcome State Fault Refusal := onTray t (issue t .ldp) s

/-- Issue of VXP.RUN: an element program runs over every element (R269, R273, R283). -/
def execVxpRun (t : Nat) (s : State) : Host.Outcome State Fault Refusal := onTray t (issue t .run) s

/-- Issue of VXP.CPR: rows compressed under a mask (R293). -/
def execVxpCpr (t : Nat) (s : State) : Host.Outcome State Fault Refusal := onTray t (issue t .cpr) s

/-- Issue of VXP.EXD: rows expanded under a mask (R294). -/
def execVxpExd (t : Nat) (s : State) : Host.Outcome State Fault Refusal := onTray t (issue t .exd) s

/-- Issue of VXP.PRM: lanes permuted within each strip (R292). -/
def execVxpPrm (t : Nat) (s : State) : Host.Outcome State Fault Refusal := onTray t (issue t .prm) s

/-- Issue of VXP.RED: rows reduced (R295). -/
def execVxpRed (t : Nat) (s : State) : Host.Outcome State Fault Refusal := onTray t (issue t .red) s

/-- Issue of PEEL.CFG: output format, statistics and scale of later instructions (R108). -/
def execPeelCfg (t : Nat) (s : State) : Host.Outcome State Fault Refusal := onTray t (issue t .pcfg) s

/-- Issue of PEEL.STAT: row statistics through Peel port 3 (R257). -/
def execPeelStat (t : Nat) (s : State) : Host.Outcome State Fault Refusal := onTray t (issue t .stat) s

/-- Issue of PEEL.UPD: weights and moments updated in place (R413, R416, R422). -/
def execPeelUpd (t : Nat) (s : State) : Host.Outcome State Fault Refusal := onTray t (issue t .upd) s

/-- Issue of LEV.PRED: it arms its tray (R167, R176). -/
def execLevPred (t : Nat) (s : State) : Host.Outcome State Fault Refusal := onTray t (issue t .pred) s

/-- Issue of LEV.AUD: audit and STRICT settings; the tray is disarmed (R172, R176). -/
def execLevAud (t : Nat) (s : State) : Host.Outcome State Fault Refusal := onTray t (issue t .aud) s

/-- Issue of SYNC.WAIT: waits until its counters reach CNT (R116). -/
def execSyncWait (t : Nat) (s : State) : Host.Outcome State Fault Refusal := onTray t (issue t .wait) s

/-- Issue of SYNC.SIG: signals its own counters and those of TTRAY when it completes (R118). -/
def execSyncSig (t : Nat) (s : State) : Host.Outcome State Fault Refusal := onTray t (issue t .sig) s

/-- Issue of SYNC.BAR: arrives at its barrier when it is released (R120). -/
def execSyncBar (t : Nat) (s : State) : Host.Outcome State Fault Refusal := onTray t (issue t .bar) s

/-- Issue of FAB.SEND: a tensor sent to one module as WRITE messages (R479). -/
def execFabSend (t : Nat) (s : State) : Host.Outcome State Fault Refusal := onTray t (issue t .fsend) s

/-- Issue of FAB.MCAST: a tensor sent to a group with retention (R491). -/
def execFabMcast (t : Nat) (s : State) : Host.Outcome State Fault Refusal := onTray t (issue t .fmcast) s

/-- Issue of FAB.RED: a reduce-scatter within a group (R109, R496, R497). -/
def execFabRed (t : Nat) (s : State) : Host.Outcome State Fault Refusal := onTray t (issue t .fred) s

end Sys2Proof.Machine
end

