-- ==== Sys2Proof/Machine/Accum.lean ====
section
/-! DEFINITION. Accumulator entries: their widths and saturation, the compensated add, the Couche's entries, and the sum that a final pass resolves (R193, R226 to R229, R241, R248 to
R252). -/

namespace Sys2Proof.Machine

/-! ### Entries (R226, R227) -/

/-- The NaN marker of an MXINT8 entry of `w` bits (R227). -/
def mxMarker (w : Nat) : Nat := 2 ^ (w - 1)

/-- An exact integer sum held in `w` bits; `lo` is the negative extreme. -/
def satTo (w : Nat) (lo : Int) (x : Int) : Nat × Flags :=
  let hi : Int := (2 ^ (w - 1) : Nat) - 1
  let c := clampI lo hi x
  (toCode w c, { sat := decide (c ≠ x) })

/-- Two integer entries of `w` bits added, saturating (R227). -/
def addSat (w a b : Nat) : Nat × Flags := satTo w (- (2 ^ (w - 1) : Nat)) (sext w a + sext w b)

/-- Two MXINT8 entries of `w` bits added: the marker stays a marker and never saturates (R227). -/
def addMx (w a b : Nat) : Nat × Flags :=
  if a = mxMarker w ∨ b = mxMarker w then (mxMarker w, .none) else satTo w (- ((2 ^ (w - 1) : Nat) - 1)) (sext w a + sext w b)

/-- An FP32 pair as codes. -/
def f32 (x : Nat) : F32 := BitVec.ofNat 32 x

/-- A value with its error term added into an entry (R226, R229, R248). -/
def addEntry (p : Path) (comp : Bool) (a b : Nat × Nat) : (Nat × Nat) × Flags :=
  match p with
  | .integer => let (x, f) := addSat 32 a.1 b.1; ((x, 0), f)
  | .mxint => let (x, f) := addMx 32 a.1 b.1; ((x, 0), f)
  | .float =>
    if comp then
      let (r, f) := compAdd (f32 a.1) (f32 a.2) (f32 b.1)
      let (e, g) := f32add r.2 (f32 b.2)
      ((r.1.toNat, e.toNat), f.or g)
    else let (x, f) := f32add (f32 a.1) (f32 b.1); ((x.toNat, 0), f)

/-! ### The Couche's entries (R252) -/

/-- A 64-bit code as its two words, the low one first. -/
def words64 (x : Nat) : Nat × Nat := (x % 2 ^ 32, x / 2 ^ 32 % 2 ^ 32)

/-- A partial sum added into a Couche entry (R252). -/
def coucheAdd (p : Path) (entry s : Nat × Nat) : (Nat × Nat) × Flags :=
  match p with
  | .integer => let (x, f) := addSat 64 (entry.1 + 2 ^ 32 * entry.2) (toCode 64 (sext 32 s.1)); (words64 x, f)
  | .mxint =>
    let wide := if s.1 = mxMarker 32 then mxMarker 64 else toCode 64 (sext 32 s.1)
    let (x, f) := addMx 64 (entry.1 + 2 ^ 32 * entry.2) wide
    (words64 x, f)
  | .float =>
    let (r, f) := compAdd (f32 entry.1) f32zero (f32 s.1)
    let (er, g) := f32add r.2 (f32 s.2)
    let (lo, h) := f32add (f32 entry.2) er
    ((r.1.toNat, lo.toNat), (f.or g).or h)

/-! ### The resolved sum (R241 steps 1 and 2, R242) -/

/-- The sum of a final pass, and its Couche entry combined when it has one: an exact integer, or an FP32 pair. -/
inductive Total where
  | int (x : Int)
  | marker
  | pair (s e : F32)
  deriving DecidableEq, Repr

/-- The sum of a final pass (R241 step 1, R252). `couche` is the entry when the row block spilled. -/
def totalOf (p : Path) (s : Nat × Nat) (couche : Option (Nat × Nat)) : Total × Flags :=
  match couche with
  | none =>
    match p with
    | .integer => (.int (sext 32 s.1), .none)
    | .mxint => (if s.1 = mxMarker 32 then .marker else .int (sext 32 s.1), .none)
    | .float => (.pair (f32 s.1) (f32 s.2), .none)
  | some c =>
    let (x, f) := coucheAdd p c s
    match p with
    | .integer => (.int (sext 64 (x.1 + 2 ^ 32 * x.2)), f)
    | .mxint => (if x.1 + 2 ^ 32 * x.2 = mxMarker 64 then .marker else .int (sext 64 (x.1 + 2 ^ 32 * x.2)), f)
    | .float => (.pair (f32 x.1) (f32 x.2), f)

/-- The sum as FP32: an error term or a Couche low word is added in, an integer is rounded, an MXINT8 sum takes its factor 2^-12 first (R241 steps 1 and 2). -/
def Total.toF32 (p : Path) (two : Bool) : Total → F32 × Flags
  | .marker => (f32nan, { nan := true })
  | .int x => (Sys2Proof.Machine.toF32 (.fin (decide (x < 0)) x.natAbs (if p = .mxint then -12 else 0)), .none)
  | .pair s e => if two then f32add s e else (s, .none)

end Sys2Proof.Machine
end

