-- ==== Sys2Proof/Machine/Commit.lean ====
section
/-! DEFINITION. Output tiles: their storage in the Bench and in the Couche, the epilogue of a row block's final pass, row statistics, and the commit of row blocks with status
entries (R229 to R243, R250 to R259, R313, R317 to R320). -/

namespace Sys2Proof.Machine

/-! ### Places (R106, R238, R239, R320) -/

/-- The grid of a product in flight. -/
def gridNow (s : State) (t : Nat) (i : Inst) : Grid := gridFor i (maskSel s t i)

/-- The Bench offset of the DST region. -/
def dstRegion (i : Inst) : Nat := (regionOfBreg i.set (i.desc .dst).breg).1

/-- The Bench offsets of row `r` of tile `n`'s partial sums: the sums, and the error terms. -/
def partialRow (i : Inst) (g : Grid) (n r : Nat) : Nat × Nat :=
  let slot := dstRegion i + statusBytes i.tiles.length + n % max 1 i.openLimit * partialBytes g (W.comp i.word)
  (slot + 4 * r * g.nt, slot + 4 * g.mt * g.nt + 4 * r * g.nt)

/-- 32-bit words read from a core's Bench. -/
def benchWords (s : State) (c off n : Nat) : Except MemErr (List Nat) :=
  match benchRead s c off (4 * n) with
  | .error e => .error e
  | .ok bs => .ok (unpackElems 32 n bs)

/-- A row of partial sums read back. -/
def readPartial (s : State) (c : Nat) (i : Inst) (g : Grid) (n r cols : Nat) : Except MemErr (List (Nat × Nat)) :=
  let (a, e) := partialRow i g n r
  match benchWords s c a cols with
  | .error x => .error x
  | .ok l =>
    if W.comp i.word then
      match benchWords s c e cols with
      | .error x => .error x
      | .ok m => .ok (l.zip m)
    else .ok (l.map (fun x => (x, 0)))

/-- A row of partial sums written. -/
def writePartial (s : State) (c : Nat) (i : Inst) (g : Grid) (n r : Nat) (vals : List (Nat × Nat)) : State :=
  let (a, e) := partialRow i g n r
  let s1 := benchWrite s c a (packElems 32 (vals.map (fun v => v.1)))
  if W.comp i.word then benchWrite s1 c e (packElems 32 (vals.map (fun v => v.2))) else s1

/-- Couche entries from entry `first` on; poison of a line faults the owner (R575). -/
def readCouche (s : State) (p : CouchePlace) (first cols : Nat) : Except MemErr (List (Nat × Nat)) :=
  let a := p.addr + 8 * first
  match poisonAt s a (8 * cols) with
  | some (_, line) => .error ⟨FC.eccUncorrectable, 0, line⟩
  | none =>
    let ws := unpackElems 32 (2 * cols) (s.bytes a (8 * cols))
    .ok ((List.range cols).map (fun j => (ws.getD (2 * j) 0, ws.getD (2 * j + 1) 0)))

/-- Couche entries written from entry `first` on. -/
def writeCouche (s : State) (p : CouchePlace) (first : Nat) (vals : List (Nat × Nat)) : State :=
  s.write (p.addr + 8 * first) (packElems 32 (vals.flatMap (fun v => [v.1, v.2])))

/-! ### Couche space (R251, R262) -/

/-- The Couche of a core: its first physical address and its 64 KiB units; one that leaves the scratch partition has none (R262, R390). -/
def coucheArea (s : State) (c : Nat) : Nat × Nat :=
  let base := s.fld (Csr.peelCoucheCfg c) 11 0
  let size := s.fld (Csr.peelCoucheCfg c) 27 14
  (scratchBase + 65536 * base, if s.larder.ways * 1024 < base + size then 0 else min 4096 size)

/-- The places that open tiles of core `c` hold in its Couche. -/
def couchePlaces (s : State) (c : Nat) : List CouchePlace :=
  (coreInsts s c).flatMap (fun i => (i.red.couche :: i.tiles.map (fun o => o.couche)).filterMap (fun o => o.bind (fun p => if p.spilled then none else some p)))

/-- 64 KiB units that the Couche entries of `n` elements take. -/
def coucheUnits (n : Nat) : Nat := cdiv (8 * n) 65536

/-- The first run of `n` units below `size` that no place of `used`, given as first unit and units, overlaps. -/
def firstRun (used : List (Nat × Nat)) (n size : Nat) : Option Nat :=
  (List.range (size + 1 - n)).find? (fun u => decide (u + n ≤ size) && used.all (fun p => decide (u + n ≤ p.1) || decide (p.1 + p.2 ≤ u)))

/-- Whether the entries of tile `n` of instruction `k` of tray `t` wait for room in a spill area (R253): then they no longer take Couche space. -/
def coucheLeft (s : State) (c t k n : Nat) : Bool := (s.core c).proofer.spillWait.any (fun w => w.tray == t && w.seq == k && w.couche && w.tile == n)

/-- Whether that tile waits for Couche space: in its Couche, or by now in a spill area. -/
def coucheWaits (s : State) (c t k n : Nat) : Bool := (s.core c).peel.coucheWait.contains (t, k, n) || coucheLeft s c t k n

/-- Such a wait begins. -/
def waitCouche (s : State) (c t k n : Nat) : State :=
  if coucheWaits s c t k n then s else s.modPeel c (fun p => { p with coucheWait := p.coucheWait ++ [(t, k, n)] })

/-- Room for `n` elements in the Couche. DESIGN CHOICE, log entry 52: the first free contiguous run of whole 64 KiB units, so that a tile waits while no run is long enough; the rule
gives no placement (R251). -/
def coucheRoom (s : State) (c n : Nat) : Option CouchePlace :=
  let (base, size) := coucheArea s c
  let used := (couchePlaces s c).map (fun p => ((p.addr - base) / 65536, cdiv p.size 65536))
  (firstRun used (coucheUnits n) size).map (fun u => ⟨base + 65536 * u, 65536 * coucheUnits n, false⟩)

/-! ### Columns of a tile (R179, R243) -/

/-- The DST columns of a tile's computed columns, in order. -/
def tileCols (s : State) (t : Nat) (i : Inst) (o : OTile) : List Nat :=
  let off := W.colOff i.word
  if i.nMasked then (((maskSel s t i).getD []).drop o.col0 |>.take o.cols).map (fun n => off + n)
  else (List.range o.cols).map (fun c => off + o.col0 + c)

/-- The columns outside E that an N-masked tile pads in overwrite mode: those from behind the column before it up to its own last one, or to the end for the last tile
(R179). -/
def padCols (s : State) (t : Nat) (i : Inst) (g : Grid) (o : OTile) : List Nat :=
  if !i.nMasked || W.acc i.word then []
  else
    let e := (maskSel s t i).getD []
    let from' := if o.n = 0 then 0 else e.getD (o.col0 - 1) 0 + 1
    let upto := if o.n + 1 = max 1 g.tn then W.nT i.word else e.getD (o.col0 + o.cols - 1) 0 + 1
    ((List.range upto).drop from').filterMap (fun n => if e.contains n then none else some (W.colOff i.word + n))

/-! ### The epilogue (R241, R242, R250) -/

/-- The companion of an FP32 accumulator (R250): the same layout, behind the tensor. -/
def Desc.companion (d : Desc) : Desc :=
  { d with base := d.base + (if d.ndim ≤ 1 then 4 * d.dims.getD 0 0 else d.dims.getD (d.ndim - 1) 0 * d.strides.getD (d.ndim - 2) 0 : Nat) }

/-- Whether DST serves as an FP32 accumulator with a companion (R250). -/
def Inst.pairDst (i : Inst) : Bool := (i.desc .dst).bench && W.acc i.word && W.comp i.word && (i.desc .dst).fmt == 7

/-- Whether the exact integer path applies (R242). -/
def Inst.exactInt (i : Inst) (p : Path) : Bool := p == .integer && (i.desc .dst).fmt == 2 && i.set.scale == f32one && W.epi i.word == 0

/-- The path of a product (R226). -/
def Inst.path (i : Inst) : Path := pathOf (i.desc .srca).fm (i.desc .srcb).fm

/-- Steps 1 to 5 of R241 for one element: its value, with its error term for an accumulator that has a companion. `two` says that the sum is a pair; `old` and `c` are the decoded old
DST and SRCC elements. -/
def epilogue (i : Inst) (p : Path) (two : Bool) (sum : Total) (old : Option (Num × F32)) (c : Option Num) : (F32 × F32) × Flags :=
  let scale := i.set.scale
  let (x, xe, f1) : F32 × F32 × Flags :=
    match i.pairDst, sum with
    | true, .pair a e => (a, e, .none)
    | _, _ => let (v, f) := sum.toF32 p two; (v, f32zero, f)
  let (x2, f2) := f32mul x scale
  let (xe2, fe) : F32 × Flags := if i.pairDst then f32mul xe scale else (f32zero, .none)
  let (x3, e3, f3) : F32 × F32 × Flags :=
    match old with
    | none => (x2, xe2, .none)
    | some (v, oe) =>
      if i.pairDst then
        let (r, f) := compAdd (toF32 v) oe x2
        let (e, g) := f32add r.2 xe2
        (r.1, e, f.or g)
      else let (r, f) := f32add x2 (toF32 v); (r, f32zero, f.or (readFlags [v]))
  let (x4, f4) : F32 × Flags :=
    match c with
    | none => (x3, .none)
    | some v => let (r, f) := if W.epi i.word = 1 then f32add x3 (toF32 v) else f32mul x3 (toF32 v); (r, f.or (readFlags [v]))
  ((x4, e3), Flags.orAll [f1, f2, fe, f3, f4])

/-! ### Statistics (R255, R256, R259) -/

/-- The chunk of a row within one tile: its count, and its tree sum of squares (RED = 1) or its mean and its sum of squared deviations (RED = 2). -/
def chunkStat (red : Nat) (xs : List F32) : List F32 × Flags :=
  let n := toF32 (.ofInt xs.length)
  let sq := fun (ys : List F32) =>
    let l := ys.map (fun y => f32mul y y)
    let (r, f) := treeSum 9 (l.map (fun p => p.1))
    (r, f.or (Flags.orAll (l.map (fun p => p.2))))
  if red = 1 then let (q, f) := sq xs; ([n, q, f32zero], f)
  else if xs.isEmpty then ([f32zero, f32zero, f32zero], .none)
  else
    let (sum, f1) := treeSum 9 xs
    let (m, f2) := f32div sum n
    let ds := xs.map (fun x => f32sub x m)
    let (q, f3) := sq (ds.map (fun p => p.1))
    ([n, m, q], ((f1.or f2).or f3).or (Flags.orAll (ds.map (fun p => p.2))))

/-- A chunk combined into a row's running state: the count, the mean and the sum of squared deviations, or the count, the sum and its error term (R256). -/
def combineStat (red : Nat) (comp : Bool) (st ch : List F32) : List F32 × Flags :=
  let g := fun (l : List F32) (j : Nat) => l.getD j f32zero
  if (f32dec (g ch 0)).isZero then (st, .none)
  else
    let (nn, _) := f32add (g st 0) (g ch 0)
    if red = 1 then
      if comp then
        let (r, f) := compAdd (g st 1) (g st 2) (g ch 1)
        ([nn, r.1, r.2], f)
      else let (r, f) := f32add (g st 1) (g ch 1); ([nn, r, f32zero], f)
    else
      let (d, f1) := f32sub (g ch 1) (g st 1)
      let (w, _) := f32div (g ch 0) nn
      let (dw, f2) := f32mul d w
      let (mean, f3) := f32add (g st 1) dw
      let (np, _) := f32mul (g st 0) (g ch 0)
      let (nq, _) := f32div np nn
      let (dd, f4) := f32mul d d
      let (dq, f5) := f32mul dd nq
      let (m2, f6) := f32add (g st 2) (g ch 2)
      let (m2', f7) := f32add m2 dq
      ([nn, mean, m2'], Flags.orAll [f1, f2, f3, f4, f5, f6, f7])

/-- The columns of a row's STATD entry, with EMPTY for a row that covered no element (R255, R256, R259). -/
def statValues (red : Nat) (comp : Bool) (st : List F32) : List F32 × Flags :=
  let g := fun (j : Nat) => st.getD j f32zero
  let empty := (f32dec (g 0)).isZero
  if red = 1 then
    let (v, f) : F32 × Flags := if empty then (f32zero, .none) else if comp then f32add (g 1) (g 2) else (g 1, .none)
    ([v], { f with empty := empty })
  else if empty then ([f32nan, f32nan], { empty := true })
  else let (v, f) := f32div (g 2) (g 0); ([g 1, v], f)

/-- The Bench offset of a row's running state (R255): 16 bytes per output row in STATD's region. -/
def statState (i : Inst) (row : Nat) : Nat := (regionOfBreg i.set (i.desc .statd).breg).1 + 16 * row

/-- The writes of a row's STATD entry. -/
def statWrites (i : Inst) (row : Nat) (vals : List F32) : Writes :=
  let d := i.desc .statd
  vals.zipIdx.map (fun p => wrAt d (d.rowOffset row + 4 * p.2) (leBytes 4 p.1.toNat))

/-- A row's chunk enters its running state; the entry is written when the row's last output tile commits (R255). Answers the flags raised. -/
def statRow (s : State) (t : Nat) (i : Inst) (row : Nat) (ch : List F32) (first last : Bool) : State × Flags :=
  let c := coreOf t
  let red := i.set.red
  let comp := W.comp i.word
  let st := if first then [] else (unpackElems 32 3 (benchPeek s c (statState i row) 12)).map f32
  let (st1, f1) := combineStat red comp st ch
  let full := (List.range 4).map (fun j => (st1.getD j f32zero).toNat)
  let s1 := benchWrite s c (statState i row) (packElems 32 full)
  if last then
    let (vals, f2) := statValues red comp st1
    ((applyWrites s1 c (spaceOf s t) (i.desc .statd).bench (statWrites i row vals)).1, f1.or f2)
  else (s1, f1)

/-! ### Row blocks (R234, R235, R239) -/

/-- What a row block writes, its flags, the chunks of its rows (the row within its tile and the chunk), and how many elements the vector engine writes with it (R300). -/
structure BlockOut where
  writes : List (Bool × Int × List Byte)
  flags : Flags
  stats : List (Nat × List F32)
  elems : Nat := 0
  deriving DecidableEq, Repr

/-- Whether an instruction writes status entries (R235, R239, R288). -/
def Mn.hasStatus : Mn → Bool
  | .mm | .mms | .int | .sct | .run | .prm | .cpr | .exd | .red | .stat => true
  | _ => false

/-- Output tile `n` ends: its status entry, its Couche space and its open entry (R237, R239, R251). -/
def tileEnds (s : State) (t k n : Nat) : State :=
  match s.inst t k with
  | none => s
  | some i =>
    let o0 := i.tile n
    let o := if i.mn.isV && W.maskEn i.word && i.mn != .red && i.mn != .stat && o0.computed == 0 then { o0 with flags := { o0.flags with maskedAll := true } } else o0
    let word := tileStatusWord (if i.mn.isProduct then o.total.getD 0 else 1) o.src o.zeroShape o.flags
    let bytes := leBytes 4 word ++ leBytes 4 o.row0 ++ leBytes 4 o.col0 ++ leBytes 4 (o.rows + 65536 * o.cols)
    let s1 := if i.mn.hasStatus then benchWrite s (coreOf t) (dstRegion i + 16 * n) bytes else s
    let s2 := if o.flags.sat && i.mn.hasStatus then s1.count (Csr.peelSatTiles (coreOf t)) 1 else s1
    (s2.modTile t k n (fun x => { x with done := true, couche := none, finals := [] })).modProofer (coreOf t) (fun p =>
      { p with spillAlloc := p.spillAlloc.filter (fun a => !(a.tray == t && a.seq == k && a.couche && a.tile == n)) })

/-- Row block `b` of tile `n` commits: its statistics, the counts, and the end of the tile with its last block (R234, R235, R255). -/
def blockCommitted (s : State) (t k n b : Nat) : State :=
  match s.inst t k with
  | none => s
  | some i =>
    let o := i.tile n
    let peers := i.tiles.filter (fun x => x.m == o.m)
    let first := peers.all (fun x => decide (x.committed ≤ b))
    let last := (peers.filter (fun x => decide (x.committed ≤ b))).length ≤ 1
    let mine := i.rowStat.filter (fun p => p.1 / 256 == n && p.1 % 256 / 4 == b)
    let s1 := s.modInst t k (fun x => { x with rowStat := x.rowStat.filter (fun p => !(p.1 / 256 == n && p.1 % 256 / 4 == b)) })
    let (s2, fl) := mine.foldl (fun (p : State × Flags) q =>
      let (s', f) := statRow p.1 t i (o.row0 + q.1 % 256) q.2 first last
      (s', p.2.or f)) (s1, .none)
    let s3 := s2.modTile t k n (fun x => { x with committed := b + 1, flags := x.flags.or fl })
    let s4 := s3.modInst t k (fun x => { x with lastPass := if x.mn.isProduct then o.total.getD 0 else b2n x.mn.hasStatus, flags := x.flags.or (o.flags.or fl) })
    let s5 := s4.count (Csr.peelRowBlocks (coreOf t)) 1
    if o.blocks ≤ b + 1 then tileEnds s5 t k n else s5

/-- A computed row block goes to DST: at once into the Bench, or as a request of the write channel (R234, R343). One that writes nothing to memory still waits for the tile's earlier
row blocks. -/
def sendBlock (s : State) (t k n b : Nat) (r : BlockOut) : State :=
  let s1 := s.modInst t k (fun x =>
    { x with tiles := modAt x.tiles n (fun o => { o with flags := o.flags.or r.flags, sent := b + 1 })
             rowStat := x.rowStat ++ r.stats.map (fun p => (256 * n + p.1, p.2)) })
  if r.writes.all (fun w => w.1) && (s.inst t k).any (fun i => (i.tile n).committed == b) then
    blockCommitted (r.writes.foldl (fun s' w => benchWrite s' (coreOf t) (w.2.1 % 0x10000000).toNat w.2.2) s1) t k n b
  else addRequest s1 t k 1 (.commit n b r.writes)

/-! ### The final pass of a row block (R241 to R243) -/

/-- One row of a block through the epilogue: its writes, flags and chunk. -/
def finishRow (s : State) (t : Nat) (i : Inst) (g : Grid) (n row : Nat) (sums : List (Nat × Nat)) : State × Except MemErr BlockOut :=
  let c := coreOf t
  let sp := spaceOf s t
  let o := i.tile n
  let p := i.path
  let w := i.word
  let d := i.desc .dst
  let cols := tileCols s t i o
  let r := W.rowOffT w + o.row0 + row
  let ivl := (s.tray t).snap.coucheIvl
  let spilled := sums.isEmpty && o.total != some 0 || decide (0 < ivl ∧ ivl < o.total.getD 0)
  let lo := cols.headD 0
  let len := (cols.getLast?.getD 0) + 1 - lo
  let pick := fun (l : List El) (d' : Desc) (x : Nat) => (l.getD (x - lo) (padEl d')).val d'
  let read := fun (s' : State) (use : Bool) (d' : Desc) => if use && !cols.isEmpty then rowEls s' c sp d' .tensor r lo len d'.cols else (s', .ok [])
  andThen (read s (W.acc w) d) (fun s1 old =>
    andThen (read s1 i.pairDst d.companion) (fun s2 oldE =>
      andThen (read s2 (W.epi w != 0) (i.desc .srcc)) (fun s3 add =>
        let entries : Except MemErr (List (Nat × Nat)) := match o.couche with
          | some pl => if spilled then readCouche s3 pl (row * o.cols) o.cols else .ok []
          | none => .ok []
        match entries with
        | .error e => (s3, .error e)
        | .ok ce =>
          let res := cols.zipIdx.map (fun q =>
            let tot := totalOf p (sums.getD q.2 (0, 0)) (if ce.isEmpty then none else ce[q.2]?)
            let v := epilogue i p (W.comp w || !ce.isEmpty) tot.1
              (if W.acc w then some (pick old d q.1, f32 (oldE.getD (q.1 - lo) (padEl d)).code) else none)
              (if W.epi w = 0 then none else some (pick add (i.desc .srcc) q.1))
            (q.1, tot, v))
          let exact := fun (col : Nat) (tot : Total) =>
            match tot with
            | .int x =>
              let (a, f) := satTo 32 (-(2 ^ 31 : Nat)) x
              if W.acc w then let (b, f') := addSat 32 a (old.getD (col - lo) (padEl d)).code; (b, f.or f') else (a, f)
            | _ => (0, .none)
          let seed := (s3.tray t).snap.srSeed
          let els : List WEl := res.map (fun q =>
            if i.exactInt p then ⟨q.1, .rne, .nan, some (exact q.1 q.2.1.1).1⟩
            else ⟨q.1, rndOf i seed (linIndex d r q.1), f32dec q.2.2.1.1, none⟩)
          let pads : List WEl := (padCols s3 t i g o).map (fun x => ⟨x, .rne, .nan, some (d.pad % 2 ^ d.fm.bits)⟩)
          let fl := Flags.orAll (res.map (fun q => if i.exactInt p then q.2.1.2.or (exact q.1 q.2.1.1).2 else q.2.1.2.or q.2.2.2))
          andThen (writeRow s3 c sp d r (sortBy (fun e => e.col) (els ++ pads))) (fun s4 wr =>
            let errs : List (Bool × Int × List Byte) := if i.pairDst then
              res.map (fun q => (true, (d.companion.base + d.companion.rowOffset r + 4 * q.1 : Int), leBytes 4 q.2.2.1.2.toNat)) else []
            let stat := if i.set.red = 0 then ([], Flags.none) else
              (fun (x : List F32 × Flags) => ([(row, x.1)], x.2)) (chunkStat i.set.red (res.map (fun q =>
                if i.exactInt p then toF32 (.ofInt (sext 32 (exact q.1 q.2.1.1).1)) else q.2.2.1.1)))
            (s4, .ok { writes := wr.1.map (fun x => (d.bench, x.1, x.2)) ++ errs, flags := (fl.or wr.2).or stat.2, stats := stat.1 })))))

/-- The rows of a block, one after another. -/
def finishRows (s : State) (t : Nat) (i : Inst) (g : Grid) (n : Nat) : List (Nat × List (Nat × Nat)) → State × Except MemErr BlockOut
  | [] => (s, .ok ⟨[], .none, [], 0⟩)
  | (row, sums) :: rest =>
    andThen (finishRow s t i g n row sums) (fun s1 a =>
      andThen (finishRows s1 t i g n rest) (fun s2 b =>
        (s2, .ok ⟨a.writes ++ b.writes, a.flags.or b.flags, a.stats ++ b.stats, 0⟩)))

/-- Whether the writes of a block can all be made: their pages, and those of the STATD rows it may complete (R234). -/
def probeBlock (s : State) (t : Nat) (i : Inst) (row0 : Nat) (r : BlockOut) : State × Except MemErr Unit :=
  let c := coreOf t
  let sp := spaceOf s t
  andThen (probeWrites s c sp false ((r.writes.filter (fun w => !w.1)).map (fun w => (w.2.1, w.2.2)))) (fun s1 _ =>
    if i.set.red = 0 ∨ (i.desc .statd).bench then (s1, .ok ())
    else probeWrites s1 c sp false (r.stats.flatMap (fun p => statWrites i (row0 + p.1) [f32zero])))

/-- Row blocks whose every row has had its final pass leave for DST, in ascending order (R231, R234). `fuel` bounds the blocks. -/
def finishBlocks : Nat → State → Nat → Nat → Nat → State
  | 0, s, _, _, _ => s
  | fuel + 1, s, t, k, n =>
    match s.inst t k with
    | none => s
    | some i =>
      let o := i.tile n
      let b := o.sent
      let rows := (List.range (min 4 (o.rows - 4 * b))).map (fun r => 4 * b + r)
      let fin := rows.filterMap (fun r => o.finals.find? (fun p => p.1 == r))
      if o.blocks ≤ b || o.done || fin.length < rows.length || !(s.tray t).live || (s.tray t).state == .paused then s
      else
        let g := gridNow s t i
        match finishRows s t i g n fin with
        | (s1, .error e) => memFault s1 t k e
        | (s1, .ok r) =>
          if r.flags.sat ∧ W.satTrap i.word then faultInst s1 t k FC.numericSatTrap 0 0
          else
            match probeBlock s1 t i o.row0 r with
            | (s2, .error e) => memFault s2 t k e
            | (s2, .ok _) =>
              let s3 := s2.modTile t k n (fun x => { x with finals := x.finals.filter (fun p => 4 * (b + 1) ≤ p.1) })
              finishBlocks fuel (sendBlock s3 t k n b r) t k n

end Sys2Proof.Machine
end

