-- ==== Sys2Proof/Machine/Product.lean ====
section
/-! DEFINITION. The arithmetic of a pass on an array and of a product on the Sieve, and the blocks of a product's operands as an engine reads them (R136, R137, R141 to R143, R179,
R180, R189 to R193, R217, R226 to R229, R244, R311, R312). -/

namespace Sys2Proof.Machine

/-! ### Products (R137, R191, R193) -/

/-- The product of two decoded values, exact but for the FP32 range limit: beyond it an infinity with its sign, which sets INF_SEEN (R191, R193). -/
def exactMul (x y : Num) : Num × Flags :=
  match x.mul y with
  | .fin n m e => if (f32dec 0x7F7FFFFF#32).lt (.fin false m e) then (.inf n, { inf := true }) else (.fin n m e, .none)
  | z => (z, .none)

/-- The 2^0-scaled integer of an MXINT8 code. -/
def mxCode (e : El) : Int := sext 8 e.code

/-- The sum of products of MXINT8 elements in units of 2^-12, each shifted by its blocks' scales: exact, then rounded RNE to an INT32 that saturates; the NaN marker when a
block's scale is 0xFF (R137, R193). DESIGN CHOICE, log entry 51: so are the 32 positions of a reduction across blocks (TRANS = 1), whose products carry 32 different scales of B: they are
summed exactly and rounded once. -/
def mxDot (ps : List (El × El)) : Nat × Flags :=
  if ps.any (fun p => p.1.scale == 255 || p.2.scale == 255) then (mxMarker 32, { nan := true })
  else
    let ex := fun (p : El × El) => p.1.scale + p.2.scale
    let lo := ps.foldl (fun a p => min a (ex p)) 510
    let sum : Int := ps.foldl (fun (a : Int) p => a + mxCode p.1 * mxCode p.2 * (2 ^ (ex p - lo) : Nat)) 0
    satTo 32 (-((2 ^ 31 : Nat) - 1)) (roundInt .rne (decide (sum < 0)) sum.natAbs ((lo : Int) - 254))

/-! ### A pass on an array (R190, R191, R193, R217) -/

/-- One output of a pass on the float path: cube after cube along the reduction axis, one rounding for each (R191). -/
def cubeSums (dA dB : Desc) : List (List (El × El)) → F32 → Flags → F32 × Flags
  | [], v, fl => (v, fl)
  | c :: rest, v, fl =>
    if c.isEmpty then cubeSums dA dB rest v fl
    else
      let (x, f) := c.foldl (fun (a : Num × Flags) p =>
        let (q, g) := exactMul (p.1.val dA) (p.2.val dB)
        (a.1.add q, a.2.or g)) (f32dec v, Flags.none)
      let (v', g) := f32round x
      cubeSums dA dB rest v' ((fl.or f).or g)

/-- One output of a pass: a row of A against a column of B over the face's positions. In a structured mode only stored values of B inside the extent are multiplied. -/
def passValue (p : Path) (dA dB : Desc) (structured : Bool) (inside : Nat) (as bs : List El) : (Nat × Nat) × Flags :=
  let all := as.zip bs
  let used := if structured then all.take inside else all
  let keep := fun (l : List (El × El)) => if structured then l.filter (fun x => x.2.stored) else l
  match p with
  | .integer =>
    let x : Int := (keep used).foldl (fun (a : Int) q => a + sext dA.fm.bits q.1.code * sext dB.fm.bits q.2.code) 0
    ((toCode 32 x, 0), .none)
  | .mxint =>
    let (x, f) := (chunks 32 used).foldl (fun (a : Nat × Flags) l =>
      let (d, g) := if l.any (fun q => q.1.scale == 255 || q.2.scale == 255) then (mxMarker 32, ({ nan := true } : Flags)) else mxDot (keep l)
      let (y, h) := addMx 32 a.1 d
      (y, (a.2.or g).or h)) (0, Flags.none)
    ((x, 0), f)
  | .float =>
    let (x, f) := cubeSums dA dB ((chunks (if structured then 8 else 4) used).map keep) f32zero .none
    ((x.toNat, 0), f)

/-! ### A product on the Sieve (R137, R142, R143, R149) -/

/-- One product of a lane, in its accumulator's units. -/
def laneProduct (p : Path) (dA dB : Desc) (a b : El) : Nat × Flags :=
  match p with
  | .integer => (toCode 32 (sext dA.fm.bits a.code * sext dB.fm.bits b.code), .none)
  | .mxint => mxDot [(a, b)]
  | .float =>
    let (x, f) := f32round (a.val dA)
    let (y, g) := f32round (b.val dB)
    let (z, h) := f32mul x y
    (z.toNat, (f.or g).or h)

/-- The sum of one cycle's products (R142, R244): one rounding on the float path, saturating adds otherwise. -/
def laneTree (p : Path) (xs : List Nat) : Nat × Flags :=
  match p with
  | .float => let (x, f) := f32round (xs.foldl (fun (a : Num) x => a.add (f32dec (f32 x))) (.fin false 0 0)); (x.toNat, f)
  | _ => xs.foldl (fun (a : Nat × Flags) x => let (r, f) := addEntry p false (a.1, 0) (x, 0); (r.1, a.2.or f)) (0, .none)

/-- The group register of an intersect pair over its matches, sixteen at a time in ascending K (R142). -/
def pairSum (p : Path) (dA dB : Desc) (hits : List (El × El)) : Nat × Flags :=
  (chunks 16 hits).foldl (fun (a : Nat × Flags) l =>
    let ps := l.map (fun q => laneProduct p dA dB q.1 q.2)
    let (t, f) := laneTree p (ps.map (fun q => q.1))
    let (r, g) := addEntry p false (a.1, 0) (t, 0)
    (r.1, ((a.2.or (Flags.orAll (ps.map (fun q => q.2)))).or f).or g)) (0, .none)

/-! ### Blocks of operands (R97, R179, R180, R311, R318) -/

/-- The flags that reading stored elements raises (R45, R46, R49). -/
def elFlags (d : Desc) (l : List El) : Flags := if d.fm.isInt then .none else readFlags (l.map (El.val d))

/-- A list of elements continued to `n` entries by the padding value. -/
def padTo (d : Desc) (n : Nat) (l : List El) : List El := (l ++ List.replicate (n - l.length) (padEl d)).take n

/-- Reduction positions of pass `k` inside the extent. -/
def insideK (g : Grid) (k : Nat) : Nat := min g.kt (g.k - k * g.kt)

/-- The elements of A at row `row` of a tile for one pass: its reduction positions, those of E alone for a K-masked product, padding beyond the extent. With them the neurons that the
row holds a value for that is not zero, as a bit set, for a K-masked product (R180, R181): what its slot holds of A, the tensor holds too, and its lines have passed the Larder with the fill. -/
def rowOfA (s : State) (t : Nat) (i : Inst) (g : Grid) (sel : Option (List Nat)) (p : PStep) (row : Nat) : State × Except MemErr (List El × Nat) :=
  let c := coreOf t
  let d := i.desc .srca
  let r := W.rowOffT i.word + (i.tile p.tile).row0 + row
  let kM := i.mask.any (fun b => b.kMasked)
  if kM then
    let picks := ((sel.getD []).drop (p.k * g.kt)).take g.kt
    let once := fun (x : State × Except MemErr (List El)) => if d.bench then x else (quiet s x.1, x.2)
    andThen (once (rowEls s c (spaceOf s t) d .tensor r 0 (W.k i.word) (W.k i.word))) (fun s1 l =>
      let els := picks.map (fun n => l.getD n (padEl d))
      let seen := picks.foldl (fun a n => let v := (l.getD n (padEl d)).val d; if v.isZero then a else a ||| 2 ^ n) 0
      (s1, .ok (padTo d g.kt els, seen)))
  else
    let pl := placeRow (stepPlace s t i.seq .srca p) row
    andThen (rowEls s c (spaceOf s t) d pl r (p.k * g.kt) g.kt g.k) (fun s1 l => (s1, .ok (l, 0)))

/-- The stored rows of a B block, in ascending order: the first that fails its checks decides (R156, R219). -/
def rowsOfB (s : State) (t : Nat) (i : Inst) (b : Blk) (place : Option (Option Nat)) : List (Nat × Nat) → State × Except MemErr (List (List El))
  | [] => (s, .ok [])
  | (r, j) :: rest =>
    andThen (rowEls s (coreOf t) (spaceOf s t) (i.desc .srcb) (placeRow place j) r b.col0 b.cols b.lim) (fun s1 l =>
      andThen (rowsOfB s1 t i b place rest) (fun s2 ls => (s2, .ok (l :: ls))))

/-- A B block read whole: its stored rows, each with the elements of the block. -/
def blockOfB (s : State) (t : Nat) (i : Inst) (b : Blk) (p : PStep) : State × Except MemErr (List (List El)) :=
  rowsOfB s t i b (stepPlace s t i.seq .srcb p) b.rows.zipIdx

/-- Column `n` of B over the reduction positions of the face, from stored rows (R97, R189). -/
def colOfB (d : Desc) (trans : Bool) (kt : Nat) (rows : List (List El)) (n : Nat) : List El :=
  padTo d kt (if trans then rows.map (fun l => l.getD n (padEl d)) else rows.getD n [])

end Sys2Proof.Machine
end

