-- ==== Sys2Proof/Machine/Tiler.lean ====
section
/-! DEFINITION. The tiler at work: open-tile entries, header counts, the choice of an engine for each tile, the queuing of steps, and output tiles that no step feeds (R24, R25, R32,
R33, R158, R178 to R180, R231, R232, R237, R304 to R310, R338, R515, R525). -/

namespace Sys2Proof.Machine

/-! ### Step queues (R25) -/

/-- The engines that take steps; the Peel's tensor port takes those of PEEL.STAT and PEEL.UPD. -/
inductive Eng where
  | array (a : Nat) | sieve | levain | vector | stat | update
  deriving DecidableEq, Repr

/-- The steps in an engine's queue. -/
def engSteps (s : State) (c : Nat) (e : Eng) : List Step :=
  let k := s.core c
  match e with
  | .array a => (s.array c a).queue
  | .sieve => k.sieve.queue ++ k.sieve.cur.toList.map (fun x => x.step)
  | .levain => k.levain.queue
  | .vector => k.vec.queue
  | .stat => k.peel.stats
  | .update => k.peel.updates

/-- A step put into an engine's queue. -/
def putStep (s : State) (c : Nat) (e : Eng) (x : Step) : State :=
  match e with
  | .array a => s.modArray c a (fun y => { y with queue := y.queue ++ [x] })
  | .sieve => s.modSieve c (fun y => { y with queue := y.queue ++ [x] })
  | .levain => s.modLevain c (fun y => { y with queue := y.queue ++ [x] })
  | .vector => s.modVec c (fun y => { y with queue := y.queue ++ [x] })
  | .stat => s.modPeel c (fun y => { y with stats := y.stats ++ [x] })
  | .update => s.modPeel c (fun y => { y with updates := y.updates ++ [x] })

/-- An engine's queue has room for a step of a tray: 32 in all, 16 of one tray (R25). -/
def queueRoom (s : State) (c t : Nat) (e : Eng) : Bool :=
  let q := engSteps s c e
  decide (q.length < 32) && decide ((q.filter (fun x => x.tray == t)).length < 16)

/-- The parts of a core that a step of an engine needs: its own, the Peel for what ends there, and every quarter of the Bench; conversions use the Sieve's expanders alone (R512, R515,
R525). DESIGN CHOICE, log entry 26: which Held domains a step needs. -/
def engParts (e : Eng) (k : StepKind) : List Nat :=
  match e with
  | .array a => [2 * a, 2 * a + 1, 9]
  | .sieve => if k = .expand ∨ k = .compress ∨ k = .census then [5] else [4, 5, 9]
  | .levain => [6]
  | .vector => [7, 8]
  | .stat | .update => [9]

/-- The power domains that a step of an engine needs. -/
def engDoms (c : Nat) (e : Eng) (k : StepKind) : List Nat := (engParts e k ++ [12, 13, 14, 15]).map (coreDom c)

/-- The domains of a step asked for, and whether all of them are on (R515). -/
def needDoms (s : State) (ds : List Nat) : State × Bool := (stepNeeds s ds, allOn s ds)

/-- The rank of ready steps at a step boundary: the cycle of queuing, then the tray that ran last, then the lower tray, then the order of queuing (R29). -/
def stepOrder (lastTray : Nat) (x : Step) : Nat := ((x.cyc * 2 + (if x.tray = lastTray then 0 else 1)) * 32 + x.tray) * 2 ^ 64 + x.ord

/-- A step is the first of its tray in a queue: the steps of one tray run in the order in which they were queued (R24). -/
def firstOfTray (q : List Step) (x : Step) : Bool := q.all (fun y => y.tray != x.tray || decide (x.ord ≤ y.ord))

/-- A queued step of an instruction has ended. -/
def stepEnds (s : State) (t k : Nat) : State := s.modInst t k (fun i => { i with running := i.running - 1 })

/-- Whether a tray's steps may run: it has a task that is neither paused nor ended, and no module stop is in force (R357, R569). -/
def mayRun (s : State) (t : Nat) : Bool := s.stop.isNone && (s.tray t).live && (s.tray t).state != .paused

/-- Whether a queued step may run: its tray's steps may, and its instruction's token wait and FENCE hold its first step no longer (R26, R28, R83, R124). -/
def mayStep (s : State) (x : Step) : Bool := mayRun s x.tray && (s.inst x.tray x.seq).any (fun i => i.released)

/-! ### Open-tile entries (R237) -/

/-- Open-tile entries that a tray holds. -/
def openTiles (s : State) (t : Nat) : Nat :=
  (s.tray t).insts.foldl (fun a i => if i.mn.isProduct then a + (i.tiles.filter (fun o => o.opened && !o.done)).length else a) 0

/-- Whether entries for a whole group are free: 64 in the core, 32 of one tray. -/
def groupFits (s : State) (t n : Nat) : Bool :=
  let used := (List.range 8).foldl (fun a j => a + openTiles s (8 * coreOf t + j)) 0
  decide (used + n ≤ 64) && decide (openTiles s t + n ≤ 32)

/-- The tiles of a group of an instruction. -/
def Inst.groupSize (i : Inst) (grp : Nat) : Nat := (i.tiles.filter (fun o => o.group == grp && !o.done)).length

/-- A group of output tiles receives its entries. -/
def openGroup (s : State) (t k grp : Nat) : State :=
  s.modInst t k (fun i => { i with tiles := i.tiles.map (fun o => if o.group = grp then { o with opened := true } else o) })

/-- The waiting group at the head of the line receives its entries when enough are free (R237). -/
def serveGroup (c : Nat) (s : State) : State :=
  match (s.core c).peel.groupWait with
  | [] => s
  | (t, k, grp) :: rest =>
    match s.inst t k with
    | none => s.modPeel c (fun p => { p with groupWait := rest })
    | some i => if groupFits s t (i.groupSize grp) then wrote (openGroup (s.modPeel c (fun p => { p with groupWait := rest })) t k grp) 7 c t else s

/-- TILE_GROUP_ALLOC (R237). -/
def execTileGroupAlloc (c : Nat) (s : State) : Host.Outcome State Fault Refusal := onCore c (serveGroup c) s

/-- A tile about to receive its first step: its group is open, or asks for entries behind those that wait. A group opens only when the instruction's earlier ones have ended (R237,
R310). -/
def askGroup (s : State) (t : Nat) (i : Inst) (grp : Nat) : State × Bool :=
  let c := coreOf t
  if i.tiles.any (fun o => decide (o.group < grp) && !o.done) then (s, false)
  else if (s.core c).peel.groupWait.isEmpty ∧ groupFits s t (i.groupSize grp) then (wrote (openGroup s t i.seq grp) 7 c t, true)
  else
    let x := (t, i.seq, grp)
    (s.modPeel c (fun p => if p.groupWait.contains x then p else { p with groupWait := p.groupWait ++ [x] }), false)

/-! ### Counts (R32, R180, R338) -/

/-- The block of an operand that a step of a product reads. -/
def stepBlock (i : Inst) (g : Grid) (sel : Option (List Nat)) (role : Role) (p : PStep) : Blk :=
  if role = .srca then (if i.mask.any (fun m => m.kMasked) then blockAOf i.word g (sel.getD []) (i.tile p.tile).m p.k else blockA i.word g (i.tile p.tile).m p.k) else blockB i.word g sel (i.tile p.tile).n p.k

/-- A header count that the Proofer has reported. -/
def Inst.reported (i : Inst) (role : Role) (bi bj : Nat) : Option Nat :=
  (i.counts.find? (fun x => x.1 == role && x.2.1 == bi && x.2.2.1 == bj)).map (fun x => x.2.2.2)

/-- N:M groups that columns `c0` up to `c1` of a row overlap. -/
def groupsOver (comp c0 c1 : Nat) : Nat := if c1 ≤ c0 then 0 else cdiv c1 (nmOf comp).2 - c0 / (nmOf comp).2

/-- c_A or c_B of a tile, once it is known (R32, R180). -/
def tileCount (i : Inst) (g : Grid) (sel : Option (List Nat)) (role : Role) (p : PStep) : Option Nat :=
  let d := i.desc role
  let b := stepBlock i g sel role p
  let kk := if i.mask.any (fun m => m.kMasked) then insideK g p.k else g.kt
  if d.comp = 0 then some (if role = .srca then g.mt * kk else kk * g.nt)
  else if d.comp = 1 then i.reported role b.bi b.bj
  else some (b.rows.length * groupsOver d.comp b.col0 (min (b.col0 + b.cols) b.lim) * (nmOf d.comp).1)

/-- The sum of NZ_COUNT, as read, of the crumbs of some segments of some rows of a tensor. -/
def sumHeaders (s : State) (c space : Nat) (d : Desc) : List (Nat × Nat) → State × Except MemErr Nat
  | [] => (s, .ok 0)
  | (r, seg) :: rest =>
    andThen (fetchBytes s c space d (4 * (r * d.segs + seg)) 4) (fun s1 e =>
      andThen (fetchBytes s1 c space d (d.crumbArea + 8 * leNat e) 8) (fun s2 h =>
        andThen (sumHeaders s2 c space d rest) (fun s3 n => (s3, .ok (crumbCount h + n)))))

/-- The crumbs that a block overlaps; of a K-masked product's A, those at the tile's rows that hold a position of E (R180). -/
def blockCrumbs (i : Inst) (g : Grid) (sel : Option (List Nat)) (role : Role) (p : PStep) : List (Nat × Nat) :=
  let b := stepBlock i g sel role p
  let segs := if role = .srca ∧ i.mask.any (fun m => m.kMasked) then
      ((((sel.getD []).drop (p.k * g.kt)).take g.kt).map (fun n => n / 256)).eraseDups
    else unitsOf (i.desc role) b.col0 (min (b.col0 + b.cols) b.lim - b.col0)
  b.rows.flatMap (fun r => segs.map (fun u => (r, u)))

/-- The header counts of a block in a full slot. -/
def slotHeaders (s : State) (c : Nat) (d : Desc) (b : Blk) (base : Nat) : Nat :=
  let us := unitsOf d b.col0 b.cols
  let p := unitPitch d b.cols
  (List.range b.rows.length).foldl (fun a j => us.zipIdx.foldl (fun a' u =>
    if b.lim ≤ 256 * u.1 then a' else a' + crumbCount (benchPeek s c (base + j * (us.length * p) + u.2 * p) 8)) a) 0

/-- The last header of a block has arrived, and its count is reported (R338). `role` is 0 for A and 1 for B; `bi` and `bj` number the block. -/
def reportCount (t k role bi bj : Nat) (s : State) : State :=
  match s.inst t k with
  | none => s
  | some i =>
    let r : Role := if role = 0 then .srca else .srcb
    let g := gridNow s t i
    let sel := maskSel s t i
    let c := coreOf t
    if !i.released ∨ !i.planned ∨ !i.mn.isProduct ∨ 2 ≤ role ∨ (i.desc r).comp ≠ 1 ∨ (i.reported r bi bj).isSome ∨ !mayRun s t then s
    else
      match i.steps.find? (fun p => let b := stepBlock i g sel r p; b.bi == bi && b.bj == bj) with
      | none => s
      | some p =>
        let b := stepBlock i g sel r p
        let put := fun (s' : State) (n : Nat) => s'.modInst t k (fun x => { x with counts := x.counts ++ [(r, bi, bj, n)] })
        match (s.core c).proofer.streams.find? (fun x => x.tray == t && x.seq == k && x.role == r) with
        | some st =>
          match st.slots.zipIdx.find? (fun q => q.1.fill.any (fun f => f.blk == b)) with
          | none => s
          | some (sl, n) =>
            match sl.state with
            | .written | .full | .filling _ =>
              if sl.state.holds && !(r == .srca && i.mask.any (fun m => m.kMasked)) then put s (slotHeaders s c (i.desc r) b (st.base + n * st.slotBytes))
              else match sumHeaders s c (spaceOf s t) (i.desc r) (blockCrumbs i g sel r p) with
              | (s1, .ok n) => put (quiet' s s1) n
              | (_, .error _) => s
            | _ => s
        | none =>
          match sumHeaders s c (spaceOf s t) (i.desc r) (blockCrumbs i g sel r p) with
          | (s1, .ok n) => put s1 n
          | (s1, .error e) => memFault s1 t k e
where
  /-- The block's own fill makes these reads; they are not made twice. -/
  quiet' (s s1 : State) : State := (s1.setLarder s.larder).setRegs s.regs

/-- HEADER_COUNT_REPORT (R338). -/
def execHeaderCountReport (t k role i j : Nat) (s : State) : Host.Outcome State Fault Refusal := onTray t (reportCount t k role i j) s

/-! ### The engine of a tile (R32, R158, R305, R307, R525) -/

/-- Whether B's weights run in structured mode: N:M groups along the reduction axis (R32, R217). -/
def Inst.structured (i : Inst) : Bool := decide (2 ≤ (i.desc .srcb).comp) && !W.trans i.word

/-- What names the weight tile of a step (R205). A masked instruction's tiles are its own, step by step (R179). DESIGN CHOICE, log entry 51: the tag tells an N:M tile in structured form
from one expanded for TRANS = 1, since the face holds them differently (R210, R217), and a step uses a tile that starts where its own does only when that tile reaches as far. -/
def stepKey (s : State) (t : Nat) (i : Inst) (g : Grid) (p : PStep) : WKey :=
  let d := i.desc .srcb
  let w := i.word
  let k : WKey := { tray := t, space := 64, base := i.seq, fmt := d.fmt, comp := d.comp, rowBlk := p.tile, innerBlk := p.k, pack := W.pack w, structured := i.structured,
                    rows := 0, inner := 0 }
  if i.mask.isSome then k
  else
    let along := p.k * g.kt
    let across := W.colOff w + (i.tile p.tile).n * g.nt
    let b := blockB w g none (i.tile p.tile).n p.k
    { k with space := spaceOf s t, base := d.base, rowBlk := if W.trans w then along else across, innerBlk := if W.trans w then across else along, rows := b.rows.length,
             inner := min b.cols (b.lim - b.col0) }

/-- What names the tile of an MXM.LDW (R205, R207). -/
def ldwKey (s : State) (t : Nat) (i : Inst) : WKey :=
  let d := i.desc .srcb
  let w := i.word
  { tray := t, space := spaceOf s t, base := d.base, fmt := d.fmt, comp := d.comp, rowBlk := if W.trans w then 0 else W.colOff w,
    innerBlk := if W.trans w then W.colOff w else 0, pack := W.pack w, structured := i.structured, rows := if W.trans w then W.k w else W.nT w,
    inner := if W.trans w then W.nT w else W.k w }

/-- Whether the tray's snapshot lets array `a` reuse resident weights (R206). -/
def reuseOn (s : State) (t a : Nat) : Bool := !(if a = 0 then (s.tray t).snap.reuseDis0 else (s.tray t).snap.reuseDis1)

/-- The sub-array of array `a` whose resident tag names a weight tile. -/
def residentAt (s : State) (t a : Nat) (key : WKey) : Option Nat :=
  if reuseOn s t a then (s.array (coreOf t) a).resident.toList.findIdx? (fun o => o.any (fun x => x.key.serves key)) else none

/-- Whether array `a` holds a tile that an MXM.LDW of the tray placed and no pass has swapped in (R207). -/
def placedAt (s : State) (t a : Nat) (key : WKey) : Bool := (s.array (coreOf t) a).buf.any (fun x => x.ldw && !x.swapped && x.key.serves key)

/-- The array of a step (R207, R216, R220, R307). -/
def chooseArray (s : State) (t : Nat) (i : Inst) (g : Grid) (p : PStep) : Nat :=
  let c := coreOf t
  if W.arr i.word ≠ 0 then W.arr i.word - 1
  else
    let on := [0, 1].filter (arrayEnabled s c)
    let key := stepKey s t i g p
    match on.find? (fun a => (residentAt s t a key).isSome || placedAt s t a key) with
    | some a => a
    | none =>
      let inMode := on.filter (fun a => W.pack i.word != 0 && (s.array c a).pack == W.pack i.word)
      let mine := fun (a : Nat) => ((s.array c a).queue.filter (fun x => x.tray == t)).length
      (argMin mine (if inMode.isEmpty then on else inMode)).getD 0

/-- Whether a tile goes to the Sieve (R32, R158, R180, R305, R525). -/
def toSieve (s : State) (t : Nat) (i : Inst) (g : Grid) (p : PStep) (ca cb : Nat) : Bool :=
  let w := i.word
  let kk := if i.mask.any (fun m => m.kMasked) then insideK g p.k else g.kt
  if i.mn = .mms ∨ W.pack w ≠ 0 ∨ (i.mn = .mm ∧ W.eng w = 1) then false
  else if (i.mn = .mm ∧ W.eng w = 2) ∨ !pairLegal i then true
  else if i.mn = .mm ∧ sieveGated s then false
  else decide (ca * cb * 65536 < (s.tray t).snap.selThresh * (g.mt * kk) * (kk * g.nt))

/-! ### The end of a tile's steps (R231) -/

/-- Whether the Sieve holds an open slot or a step of a tile: a drain that has not begun. -/
def sieveHolds (s : State) (t k n : Nat) : Bool :=
  let v := (s.core (coreOf t)).sieve
  v.slots.toList.any (fun a => a.any (fun x => x.tray == t && x.seq == k && x.tile == n && !x.closed)) ||
    v.steps.any (fun x => x.tray == t && x.seq == k && x.tile == n)

/-- The pass total once every step of a tile has been queued or skipped: its array passes, the drains of its slots that have begun, and the one that the Sieve still owes. -/
def passTotal (s : State) (t k n : Nat) (o : OTile) : Nat := o.arrays + o.drains + b2n (sieveHolds s t k n)

/-- Whether the tiler may still queue a Sieve step of a tile: one of its steps to come goes there, or its counts are not known. While none may, the tile's last Sieve step queued is its
closing step (R147). -/
def sieveLater (s : State) (t : Nat) (i : Inst) (n : Nat) : Bool :=
  let g := gridNow s t i
  let sel := maskSel s t i
  i.steps.any (fun p => p.tile == n &&
    (match tileCount i g sel .srca p, tileCount i g sel .srcb p with
      | some ca, some cb => ca != 0 && cb != 0 && toSieve s t i g p ca cb
      | _, _ => true))

/-- Whether any step of a tile has been queued. -/
def OTile.fed (o : OTile) : Bool := decide (0 < o.arrays + o.sieves)

/-- A row block's passes have all arrived before its total was known: its stored partial sums are its final sums. An empty list stands for sums that lie in the Couche. -/
def storedFinals (s : State) (t : Nat) (i : Inst) (g : Grid) (n total ivl : Nat) : List Nat → State × Except MemErr (List (Nat × List (Nat × Nat)))
  | [] => (s, .ok [])
  | r :: rest =>
    let o := i.tile n
    if o.counts.getD r 0 ≠ total ∨ r / 4 < o.sent then storedFinals s t i g n total ivl rest
    else
      let here : State × Except MemErr (List (Nat × Nat)) :=
        if ivl ≠ 0 ∧ total % ivl = 0 then (s, .ok [])
        else (s, readPartial s (coreOf t) i g n r o.cols)
      andThen here (fun s1 l => andThen (storedFinals s1 t i g n total ivl rest) (fun s2 ls => (s2, .ok ((r, l) :: ls))))

/-- The tiler has told the Peel a tile's pass total (R231). -/
def settleTotal (s : State) (t k n : Nat) : State :=
  match s.inst t k with
  | none => s
  | some i =>
    let o := i.tile n
    if o.stepsLeft ≠ 0 ∨ !o.fed then s
    else
      let p := passTotal s t k n o
      let s1 := s.modTile t k n (fun x => { x with total := some p })
      match storedFinals s1 t i (gridNow s t i) n p (s.tray t).snap.coucheIvl (List.range o.rows) with
      | (s2, .error e) => memFault s2 t k e
      | (s2, .ok []) => s2
      | (s2, .ok l) => finishBlocks 64 (s2.modTile t k n (fun x => { x with finals := x.finals ++ l })) t k n

/-! ### Queuing (R25, R178, R306) -/

/-- The first step of an instruction leaves the sequence. -/
def popStep (s : State) (t k : Nat) : State := s.modInst t k (fun i => { i with steps := i.steps.drop 1 })

/-- What names the plane of a step (R139): fields of the descriptor that do not say where the tensor's elements lie take no part. -/
def planeKeyOf (s : State) (t : Nat) (i : Inst) (p : PStep) : PlaneKey :=
  let g := gridNow s t i
  let d := i.desc .srcb
  { space := if d.bench then 0 else spaceOf s t, desc := { d with breg := 0, loBench := 0, loLarder := 0, loLpddr := 0 },
    blk := { blockB i.word g (maskSel s t i) (i.tile p.tile).n p.k with bi := 0, bj := 0 }, trans := W.trans i.word, kt := g.kt,
    cols := if (padEl d).stored then g.nt else (i.tile p.tile).cols }

/-- Whether a kind of step multiplies on the Sieve's lanes. -/
def StepKind.product (k : StepKind) : Bool := k == .scatter || k == .intersect

/-- A step in the queue of its engine. -/
def queueStep (s : State) (t : Nat) (i : Inst) (e : Eng) (kind : StepKind) (p : PStep) : State :=
  let c := coreOf t
  let x : Step := { tray := t, seq := i.seq, kind := kind, tile := p.tile, k := p.k, plane := if kind.product then some (planeKeyOf s t i p) else none, cyc := s.now, ord := s.ord }
  let s1 := (putStep (popStep s t i.seq) c e x).tick
  let s2 := s1.modInst t i.seq (fun y => { y with running := y.running + 1 })
  wrote (needDoms s2 (engDoms c e kind)).1 13 c t

/-- The rows of A of a pass that issues no step, observed for a K-masked product: the neurons of E seen not to be zero (R181). -/
def observeRows (s : State) (t : Nat) (i : Inst) (p : PStep) (g : Grid) (sel : Option (List Nat)) : List Nat → State × Except MemErr Nat
  | [] => (s, .ok 0)
  | row :: rest =>
    andThen (rowOfA s t i g sel p row) (fun s1 a => andThen (observeRows s1 t i p g sel rest) (fun s2 n => (s2, .ok (a.2 ||| n))))

/-- A pass that issues no step is passed over: its blocks are released, and a K-masked product still observes its columns of A (R32, R181, R338). -/
def skipPass (s : State) (t : Nat) (i : Inst) (p : PStep) (g : Grid) (sel : Option (List Nat)) : State :=
  let rows := if i.mask.any (fun b => b.kMasked) then List.range (i.tile p.tile).rows else []
  match observeRows s t i p g sel rows with
  | (s1, .error e) => memFault s1 t i.seq e
  | (s1, .ok n) =>
    let s2 := s1.modInst t i.seq (fun y => { y with lev := { y.lev with e := y.lev.e ||| n } })
    settleTotal (releaseBlock (releaseBlock s2 t i.seq .srca p) t i.seq .srcb p) t i.seq p.tile

/-- The next step of a product: its tile opened, its counts known, skipped or sent to its engine. -/
def tileProduct (s : State) (t : Nat) (i : Inst) (p : PStep) : State :=
  let o := i.tile p.tile
  let g := gridNow s t i
  let sel := maskSel s t i
  let c := coreOf t
  let opened := if o.opened then (s, true) else askGroup s t i o.group
  if !opened.2 then opened.1
  else
    let s1 := opened.1
    match tileCount i g sel .srca p, tileCount i g sel .srcb p with
    | some ca, some cb =>
      let left := fun (s' : State) => s'.modTile t i.seq p.tile (fun x => { x with stepsLeft := x.stepsLeft - 1 })
      if ca = 0 ∨ cb = 0 then
        skipPass (left (popStep s1 t i.seq)) t i p g sel
      else
        let sv := toSieve s1 t i g p ca cb
        let e : Eng := if sv then .sieve else .array (chooseArray s1 t i g p)
        if queueRoom s1 c t e then
          let s2 := left (queueStep s1 t i e (if sv then (if i.mn = .sct then .scatter else .intersect) else .array) p)
          settleTotal (s2.modTile t i.seq p.tile (fun x => if sv then { x with sieves := x.sieves + 1 } else { x with arrays := x.arrays + 1 })) t i.seq p.tile
        else s1
    | _, _ => s1

/-- The engine of a step that is no product's. -/
def plainEngine (i : Inst) : Eng × StepKind :=
  match i.mn with
  | .ldw => (.array (W.arr i.word - 1), .loadWeights)
  | .exp => (.sieve, .expand)
  | .cmp => (.sieve, .compress)
  | .cen => (.sieve, .census)
  | .ldp => (.vector, .loadProgram)
  | .stat => (.stat, .stat)
  | .upd => (.update, .update)
  | .pred => (.levain, .predict)
  | _ => (.vector, .vector)

/-- Whether the tiler has something left to do for an instruction: one whose first step is held is expanded too (R24, R83). -/
def Inst.toTile (i : Inst) : Bool := !i.zeroShape && !i.done && (!i.planned || !i.steps.isEmpty)

/-- The tiler's next step of a tray (R24, R25): of its oldest instruction that has one. A masked instruction is planned once its LEV.PRED has completed (R178). -/
def tileStep (t : Nat) (s : State) : State :=
  if !mayRun s t then s
  else
    match (s.tray t).insts.find? Inst.toTile with
    | none => s
    | some i =>
      if !i.planned then
        match maskMap s t i with
        | some m =>
          if m.ready then
            let s1 := s.modInst t i.seq (fun _ => planT i (maskSel s t i))
            if i.released then startStreams s1 t i.seq else s1
          else s
        | none => s
      else
        match i.steps with
        | [] => s
        | p :: _ =>
          if i.mn.isProduct then tileProduct s t i p
          else
            let (e, kind) := plainEngine i
            if queueRoom s (coreOf t) t e then queueStep s t i e kind p else s

/-- TILE_STEP_QUEUE (R25). -/
def execTileStepQueue (t : Nat) (s : State) : Host.Outcome State Fault Refusal := onTray t (tileStep t) s

/-! ### Output tiles that no pass feeds (R33, R232, R315) -/

/-- A tile that no step feeds, and that has not ended. -/
def OTile.passless (o : OTile) : Bool := !o.done && o.stepsLeft == 0 && !o.fed && o.finals.isEmpty && decide (o.sent < o.blocks)

/-- The row blocks of a tile that an add-mode product leaves as it is commit without a write; its rows enter their statistics with no element (R232, R235, R255). `fuel` bounds the
blocks. -/
def emptyBlocks : Nat → State → Nat → Nat → Nat → State
  | 0, s, _, _, _ => s
  | fuel + 1, s, t, k, n =>
    match s.inst t k with
    | none => s
    | some i =>
      let o := i.tile n
      let b := o.sent
      if o.blocks ≤ b || o.done || !mayRun s t then s
      else
        let rows := (List.range (min 4 (o.rows - 4 * b))).map (fun r => 4 * b + r)
        let r : BlockOut := { writes := [], flags := .none, stats := if i.set.red = 0 then [] else rows.map (fun r => (r, (chunkStat i.set.red []).1)) }
        match probeBlock s t i o.row0 r with
        | (s1, .error e) => memFault s1 t k e
        | (s1, .ok _) => emptyBlocks fuel (sendBlock s1 t k n b r) t k n

/-- The Peel generates the final pass of a tile that has none (R232): every sum zero; in add mode nothing is written. -/
def zeroPass (t : Nat) (s : State) : State :=
  if !mayRun s t then s
  else
    match (s.tray t).insts.find? (fun i => i.mn.isProduct && i.released && i.planned && i.tiles.any OTile.passless) with
    | none => s
    | some i =>
      let n := i.tiles.findIdx OTile.passless
      let o := i.tile n
      let s1 := s.modTile t i.seq n (fun x => { x with total := some 0, flags := if x.cols = 0 then { x.flags with maskedAll := true } else x.flags })
      if W.acc i.word then
        emptyBlocks 64 s1 t i.seq n
      else
        let rows := (List.range o.rows).filter (fun r => decide (o.sent ≤ r / 4))
        finishBlocks 64 (s1.modTile t i.seq n (fun x => { x with finals := rows.map (fun r => (r, List.replicate o.cols (0, 0))) })) t i.seq n

/-- ZERO_PASS_GENERATE (R232). -/
def execZeroPassGenerate (t : Nat) (s : State) : Host.Outcome State Fault Refusal := onTray t (zeroPass t) s

end Sys2Proof.Machine
end

