-- ==== Sys2Proof/Machine/RowOut.lean ====
section
/-! DEFINITION. Row blocks of instructions that are no products: their commit tile by tile, and the encoding of crumbs and of N:M segments (R65 to R76, R162, R163, R234, R235,
R288). -/

namespace Sys2Proof.Machine

/-! ### Row blocks (R61, R234, R288) -/

/-- Row block `b` of tile `n` as computed: committed, or on its way to memory. A block that has gone out is not written again (R289); the elements of one that goes out count (R300). -/
def outBlock (s : State) (t k n b : Nat) (r : BlockOut) : State :=
  match s.inst t k with
  | none => s
  | some i =>
    let o := i.tile n
    if o.sent ≠ b ∨ o.blocks ≤ b then s
    else if r.flags.sat ∧ W.satTrap i.word then faultInst s t k FC.numericSatTrap 0 0
    else
      match probeBlock s t i o.row0 r with
      | (s1, .error e) => memFault s1 t k e
      | (s1, .ok _) => sendBlock (s1.count (Csr.vxeElems (coreOf t)) r.elems) t k n b r

/-- The tiles that row block `b` of an instruction crosses, by number. -/
def rowTiles (i : Inst) (b : Nat) : List Nat := (List.range i.tiles.length).filter (fun n => (i.tile n).m == b / 64)

/-- Row block `b` of an instruction, whose parts are given by tile: each tile's part leaves unless an earlier one ended the task. -/
def outRow (s : State) (t k b : Nat) (parts : List (Nat × BlockOut)) : State :=
  parts.foldl (fun s' p => if mayRun s' t then outBlock s' t k p.1 (b % 64) p.2 else s') s

/-- The rows of row block `b`, counted in the instruction. -/
def blockRows (rows b : Nat) : List Nat := (List.range (min 4 (rows - 4 * b))).map (fun r => 4 * b + r)

/-! ### Segments converted (R50, R51, R60, R71) -/

/-- Elements of one segment in the element format: the scale codes of its blocks, the codes, and the flags. -/
def convertSegment (f : Fmt) (xs : List (Rnd × Num)) : List Nat × List Nat × Flags :=
  if f.isMx then
    (chunks 32 xs).foldl (fun (a : List Nat × List Nat × Flags) l =>
      let (sc, cs, fl) := mxBlock f l
      (a.1 ++ [sc], a.2.1 ++ cs, a.2.2.or fl)) ([], [], .none)
  else
    let cs := xs.map (fun x => cvtScalar f x.1 x.2)
    ([], cs.map (fun c => c.code), Flags.orAll (cs.map (fun c => c.flags)))

/-! ### Crumbs (R65 to R68, R71) -/

/-- The run codes of stored positions (R66). -/
def runCodes (wide : Bool) : Nat → List Nat → List Nat
  | _, [] => []
  | prev, p :: t => (if wide then [p - prev] else List.replicate ((p - prev) / 15) 15 ++ [(p - prev) % 15]) ++ runCodes wide (p + 1) t

/-- Bytes continued with zeros to a multiple of 8. -/
def padTo8 (bs : List Byte) : List Byte := bs ++ List.replicate (roundUp bs.length 8 - bs.length) 0

/-- A crumb of a segment: the positions and codes stored, with the eight scale bytes for an MX format (R65 to R68, R71). -/
def encodeCrumb (d : Desc) (scales codes : List Nat) : List Byte :=
  let kept := (codes.zipIdx.filter (fun p => !codeIsZero d.fm p.1))
  let pos := kept.map (fun p => p.2)
  let narrow := padTo8 (packElems 4 (runCodes false 0 pos))
  let wide := padTo8 (packElems 8 (runCodes true 0 pos))
  let useWide := decide (wide.length < narrow.length)
  let region := if useWide then wide else narrow
  let header := kept.length + (if useWide then 512 else 0) + d.fmt * 4096 + (8 + region.length) * 2 ^ 32
  let sc := if d.fm.isMx then (List.range 8).map (fun j => BitVec.ofNat 8 (scales.getD j 0)) else []
  leBytes 8 header ++ region ++ sc ++ padTo8 (packElems d.fm.bits (kept.map (fun p => p.1)))

/-! ### N:M segments (R74, R76) -/

/-- The magnitude of one value ranks above that of another; a NaN ranks above every other (R76). -/
def magAbove (a b : Num) : Bool :=
  let abs := fun (x : Num) => match x with | .fin _ m e => Num.fin false m e | .inf _ => .inf false | .nan => .nan
  match abs a, abs b with
  | .nan, .nan => false
  | .nan, _ => true
  | _, .nan => false
  | x, y => y.lt x

/-- The `n` entries of largest magnitude, ties going to the lower index (R76). -/
def largest (f : Fmt) : Nat → List (Nat × Nat) → List (Nat × Nat)
  | 0, _ => []
  | n + 1, l =>
    match l with
    | [] => []
    | h :: t =>
      let best := t.foldl (fun b x => if magAbove (decodeElem f x.2) (decodeElem f b.2) then x else b) h
      best :: largest f n (l.filter (fun x => x.1 != best.1))

/-- `n` entries of a list taken one after another by free choices, the first numbered `free`. -/
def freePick : Nat → Nat → List Nat → List Nat
  | 0, _, _ => []
  | n + 1, free, l =>
    let j := (Config.freeWord free).toNat % max 1 l.length
    l.getD j 0 :: freePick n (free + 1) (l.eraseIdx j)

/-- The indices of a group's slots, in slot order: those of the kept values, and unused ones for its spare slots. Which unused ones, and the order of the slots, the source leaves open
(R74). -/
def slotIndices (free n m : Nat) (kept : List Nat) : List Nat :=
  let spare := freePick (n - kept.length) free ((List.range m).filter (fun j => !kept.contains j))
  freePick n (free + n) (kept ++ spare)

/-- A segment in N:M form, and the groups pruned; none when a group holds too many values and PRUNE is 0 (R76). -/
def encodeNm (d : Desc) (prune : Bool) (free : Nat) (scales codes : List Nat) : Option (List Byte × Nat) :=
  let (n, m) := nmOf d.comp
  let groups := chunks m (codes ++ List.replicate (256 - codes.length) 0)
  let live := groups.map (fun g => (g.zipIdx.filter (fun p => !codeIsZero d.fm p.1)).map (fun p => (p.2, p.1)))
  let pruned := (live.filter (fun l => decide (n < l.length))).length
  if 0 < pruned ∧ !prune then none
  else
    let slots := live.zipIdx.flatMap (fun p =>
      let kept := largest d.fm n p.1
      (slotIndices (free + 2 * n * p.2) n m (kept.map (fun x => x.1))).map (fun j => (j, ((kept.find? (fun x => x.1 == j)).map (fun x => x.2)).getD 0)))
    let w := if d.comp = 2 then 2 else 3
    let sc := if d.fm.isMx then (List.range 8).map (fun j => BitVec.ofNat 8 (scales.getD j 0)) else []
    some (sc ++ packElems w (slots.map (fun x => x.1)) ++ packElems d.fm.bits (slots.map (fun x => x.2)), pruned)

end Sys2Proof.Machine
end

