-- ==== Sys2Proof/Machine/RowReduce.lean ====
section
/-! DEFINITION. Masks of layout V instructions and the row reductions of VXP.RED and PEEL.STAT (R247, R250, R256 to R259, R271, R284, R285, R287, R295). -/

namespace Sys2Proof.Machine

/-! ### Masks (R53, R271, R284) -/

/-- The first `n` bits of mask words. -/
def maskBits (n : Nat) (ws : List Nat) : List Bool := (List.range n).map (fun j => (ws.getD (j / 32) 0).testBit (j % 32))

/-- The mask of row `row` of an instruction, one bit a column; every bit is 1 without a mask. A one-row mask in the broadcast area is read there. -/
def rowMask (s : State) (x : Step) (i : Inst) (row : Nat) : State × Except MemErr (List Bool) :=
  let w := i.word
  let n := W.nV w
  if !W.maskEn w then (s, .ok (List.replicate n true))
  else
    let d := i.desc .maskd
    let words := cdiv n 32
    let one := decide (d.rows = 1)
    match (if one then (i.bcast.getD []).find? (fun p => p.1 == .maskd) else none) with
    | some p => (s, .ok (maskBits n (p.2.map (fun x => x.1.toNat))))
    | none =>
      let place := if one then Place.tensor else placeRow (stepPlace s x.tray x.seq .maskd ⟨x.tile, x.k⟩) (row % 4)
      andThen (rowEls s (coreOf x.tray) (spaceOf s x.tray) d place (if one then 0 else W.rowOffV w + row) 0 words (min words d.cols)) (fun s1 l =>
        (s1, .ok (maskBits n (l.map El.code))))

/-! ### Reducing a row (R227, R256 to R259, R295) -/

/-- A pairwise tree of integer sums, each saturating. -/
def treeSat : Nat → List Nat → Nat × Flags
  | _, [] => (0, .none)
  | _, [a] => (a, .none)
  | 0, a :: _ => (a, .none)
  | n + 1, l =>
    let ps := (chunks 2 l).map (fun p => match p with
      | [a, b] => addSat 32 a b
      | _ => (p.headD 0, .none))
    let (r, f) := treeSat n (ps.map (fun p => p.1))
    (r, (Flags.orAll (ps.map (fun p => p.2))).or f)

/-- One column of a reduction's result: an exact integer, or an FP32 sum with its error term. -/
inductive RedVal where
  | int (x : Int)
  | f32 (s e : F32)
  deriving DecidableEq, Repr

/-- What a row without a counted element gives (R259); `int` says that the source's format is an integer one, `dst` is the destination's format. -/
def emptyRow (redop : Nat) (int : Bool) (dst : Fmt) : List RedVal :=
  let extreme := fun (top : Bool) => if dst.isInt then RedVal.int (if top then (2 ^ (dst.bits - 1) : Nat) - 1 else -((2 ^ (dst.bits - 1) : Nat) : Int)) else .f32 (f32inf (!top)) f32zero
  match redop with
  | 2 => [extreme false]
  | 3 => [extreme true]
  | 4 => [.int 0]
  | 0 => [if int then .int 0 else .f32 f32zero f32zero]
  | 5 => [.f32 f32nan f32zero, .f32 f32nan f32zero]
  | _ => [.f32 f32zero f32zero]

/-- Chunk sums of a row added in ascending order (R256, R248). -/
def sumChunks (comp : Bool) (cs : List (List F32)) : (F32 × F32) × Flags :=
  cs.foldl (fun (a : (F32 × F32) × Flags) c =>
    let (t, f) := treeSum 9 c
    if comp then let (r, g) := compAdd a.1.1 a.1.2 t; (r, (a.2.or f).or g)
    else let (r, g) := f32add a.1.1 t; ((r, f32zero), (a.2.or f).or g)) ((f32zero, f32zero), .none)

/-- The reduction of the counted elements of a row, given in chunks of 256 columns. -/
def reduceLive (redop : Nat) (comp : Bool) (src : Desc) (live : List (List El)) : List RedVal × Flags :=
  let all := live.flatten
  let isInt := src.fm.isInt
  let ints := fun (c : List El) => c.map (fun e => sext src.fm.bits e.code)
  let fs := fun (c : List El) => c.map (fun e => toF32 (e.val src))
  match redop with
    | 0 =>
      if isInt then
        let (v, f) := live.foldl (fun (a : Nat × Flags) c =>
          let (t, g) := treeSat 9 ((ints c).map (toCode 32))
          let (r, h) := addSat 32 a.1 t
          (r, (a.2.or g).or h)) (0, .none)
        ([.int (sext 32 v)], f)
      else let (v, f) := sumChunks comp (live.map fs); ([.f32 v.1 v.2], f)
    | 2 | 3 =>
      if isInt then
        let pick := fun (a b : Int) => if (redop = 2) = (a < b) then b else a
        let l := ints all
        ([.int (l.tail.foldl pick (l.headD 0))], .none)
      else
        let l := fs all
        let (v, f) := l.tail.foldl (fun (a : F32 × Flags) x => let (r, g) := if redop = 2 then f32max a.1 x else f32min a.1 x; (r, a.2.or g)) (l.headD f32zero, readFlags [f32dec (l.headD f32zero)])
        ([.f32 v f32zero], f)
    | 4 =>
      let nz := fun (c : List El) => (c.filter (fun e => !(e.val src).isZero)).length
      if isInt then ([.int (live.foldl (fun a c => a + nz c) 0 : Nat)], .none)
      else
        let (v, f) := live.foldl (fun (a : F32 × Flags) c => let (r, g) := f32add a.1 (toF32 (.ofInt (nz c))); (r, a.2.or g)) (f32zero, .none)
        ([.f32 v f32zero], f)
    | 5 =>
      let (st, f) := live.foldl (fun (a : List F32 × Flags) c =>
        let (ch, g) := chunkStat 2 (fs c)
        let (r, h) := combineStat 2 comp a.1 ch
        (r, (a.2.or g).or h)) ([], .none)
      let (vals, g) := statValues 2 comp st
      (vals.map (fun v => .f32 v f32zero), f.or g)
    | _ =>
      let (st, f) := live.foldl (fun (a : List F32 × Flags) c =>
        let (ch, g) := chunkStat 1 (fs c)
        let (r, h) := combineStat 1 comp a.1 ch
        (r, (a.2.or g).or h)) ([], .none)
      ([.f32 (st.getD 1 f32zero) (st.getD 2 f32zero)], f)

/-- The reduction of a row, with the flags of the elements that it reads (R46, R49, R259). -/
def reduceRow (redop : Nat) (comp : Bool) (src : Desc) (dst : Fmt) (cs : List (List El)) : List RedVal × Flags :=
  let live := cs.filter (fun c => !c.isEmpty)
  if live.isEmpty then (emptyRow redop src.fm.isInt dst, { empty := true })
  else let (v, f) := reduceLive redop comp src live; (v, f.or (readEls src live.flatten))

/-! ### Writing the result (R247, R250, R287, R295) -/

/-- A result column written: its element, its error term for an accumulator with a companion, and the flags. `old` is the old element under ACC, with its error term. -/
def redCell (i : Inst) (seed : Reg) (r col : Nat) (v : RedVal) (old : Option (El × F32)) : WEl × F32 × Flags :=
  let d := i.desc .dst
  let rnd := rndOf i seed (linIndex d r col)
  match v with
  | .int x =>
    match old with
    | none => (⟨col, rnd, .ofInt x, none⟩, f32zero, .none)
    | some (o, _) =>
      if d.fmt = 2 then
        let (a, f) := satTo 32 (-(2 ^ 31 : Nat)) x
        let (b, g) := addSat 32 a o.code
        (⟨col, .rne, .nan, some b⟩, f32zero, f.or g)
      else
        let (a, f) := f32add (toF32 (.ofInt x)) (toF32 (o.val d))
        (⟨col, rnd, f32dec a, none⟩, f32zero, f.or (readFlags [o.val d]))
  | .f32 a e =>
    match old with
    | none =>
      let (b, f) := if W.comp i.word then f32add a e else (a, .none)
      (⟨col, rnd, f32dec b, none⟩, f32zero, f)
    | some (o, oe) =>
      if i.pairDst then
        let (p, f) := compAdd (toF32 (o.val d)) oe a
        let (e', g) := f32add p.2 e
        (⟨col, .rne, f32dec p.1, none⟩, e', f.or g)
      else
        let (b, f) := if W.comp i.word then f32add a e else (a, .none)
        let (c, g) := f32add b (toF32 (o.val d))
        (⟨col, rnd, f32dec c, none⟩, f32zero, (f.or g).or (readFlags [o.val d]))

/-- One row reduced and its writes (R295). The NaN of an empty row sets no flag, in whatever add it takes part (R259). -/
def reduceOne (s : State) (x : Step) (i : Inst) (row : Nat) (els : List El) (mask : List Bool) : State × Except MemErr BlockOut :=
  let w := i.word
  let d := i.desc .dst
  let c := coreOf x.tray
  let sp := spaceOf s x.tray
  let r := W.rowOffV w + row
  let acc := i.mn == .red && W.acc w
  let cs := (chunks 256 (els.zip mask)).map (fun l => (l.filter (fun p => p.2)).map (fun p => p.1))
  let (vals, fl) := reduceRow (W.redop w) (W.comp w) (i.desc .srca) d.fm cs
  let read := fun (s' : State) (use : Bool) (d' : Desc) => if use then rowEls s' c sp d' .tensor r 0 vals.length d'.cols else (s', .ok [])
  andThen (read s acc d) (fun s1 old =>
    andThen (read s1 (acc && i.pairDst) d.companion) (fun s2 oldE =>
      let cells := vals.zipIdx.map (fun v =>
        redCell i (s2.tray x.tray).snap.srSeed r v.2 v.1 (if acc then some (old.getD v.2 (padEl d), f32 (oldE.getD v.2 (padEl d)).code) else none))
      andThen (writeRow s2 c sp d r (cells.map (fun q => q.1))) (fun s3 ws =>
        let errs : List (Bool × Int × List Byte) := if acc && i.pairDst then
          cells.map (fun q => (true, (d.companion.base + d.companion.rowOffset r + 4 * q.1.col : Int), leBytes 4 q.2.1.toNat)) else []
        let made := ws.2.or (Flags.orAll (cells.map (fun q => q.2.2)))
        let oldNan := old.any (fun e => (e.val d).isNan) || oldE.any (fun e => (e.val d.companion).isNan)
        (s3, .ok ⟨ws.1.map (fun y => (d.bench, y.1, y.2)) ++ errs, fl.or { made with nan := made.nan && (!fl.empty || oldNan) }, [],
          if i.mn = .red then vals.length else 0⟩))))

/-- The rows of a row block read with their masks. -/
def maskedRows (s : State) (x : Step) (i : Inst) : List Nat → State × Except MemErr (List (Nat × List El × List Bool))
  | [] => (s, .ok [])
  | row :: rest =>
    let d := i.desc .srca
    let n := W.nV i.word
    andThen (rowEls s (coreOf x.tray) (spaceOf s x.tray) d (placeRow (stepPlace s x.tray x.seq .srca ⟨x.tile, x.k⟩) (row % 4)) (W.rowOffV i.word + row) 0 n (min n d.cols)) (fun s1 l =>
      andThen (rowMask s1 x i row) (fun s2 m =>
        andThen (maskedRows s2 x i rest) (fun s3 ls => (s3, .ok ((row, l, m) :: ls)))))

/-- The rows of a row block reduced. -/
def reduceAll (s : State) (x : Step) (i : Inst) : List (Nat × List El × List Bool) → State × Except MemErr BlockOut
  | [] => (s, .ok ⟨[], .none, [], 0⟩)
  | (row, els, m) :: rest =>
    andThen (reduceOne s x i row els m) (fun s1 a =>
      andThen (reduceAll s1 x i rest) (fun s2 b => (s2, .ok ⟨a.writes ++ b.writes, a.flags.or b.flags, [], a.elems + b.elems⟩)))

/-- A row-block step of VXP.RED or PEEL.STAT: its result is one output tile wide (R257, R288, R295). -/
def reduceStep (s : State) (x : Step) (i : Inst) : State :=
  match maskedRows s x i (blockRows (W.m i.word) x.k) with
  | (s1, .error e) => memFault s1 x.tray x.seq e
  | (s1, .ok rows) =>
    match reduceAll s1 x i rows with
    | (s2, .error e) => memFault s2 x.tray x.seq e
    | (s2, .ok r) => outRow s2 x.tray x.seq x.k ((rowTiles i x.k).map (fun n => (n, r)))

end Sys2Proof.Machine
end

