-- ==== Sys2Proof/Machine/Update.lean ====
section
/-! DEFINITION. PEEL.UPD: the arrival of its operands, the arithmetic of an element, the commit of update blocks, and the monitor slot at its end (R413 to R428). -/

namespace Sys2Proof.Machine

/-! ### Operands (R413, R414, R425, R428) -/

/-- The operands of a PEEL.UPD in the order in which a held block keeps them: W, G, M1 and, for OPT = 1, M2. -/
def updRoles (i : Inst) : List Role := [.w, .g, .m1] ++ (if bf i.word 218 216 = 1 then [.m2] else [])

/-- The rows that elements `e` to `e + n − 1` of a tensor cross, each as its row, first column and length. -/
def elemPieces (d : Desc) (e n : Nat) : List (Nat × Nat × Nat) :=
  let w := max 1 d.cols
  (List.range (cdiv (e + n) w - e / w)).map (fun j =>
    let r := e / w + j
    let lo := max e (r * w)
    (r, lo - r * w, min (e + n) ((r + 1) * w) - lo))

/-- Element codes of some pieces of rows. -/
def pieceCodes (s : State) (c space : Nat) (d : Desc) : List (Nat × Nat × Nat) → State × Except MemErr (List Nat)
  | [] => (s, .ok [])
  | (r, col, n) :: rest =>
    andThen (rowEls s c space d .tensor r col n d.cols) (fun s1 l =>
      andThen (pieceCodes (if d.bench then s1 else s1.count (Csr.prfBytesRd c) (n * d.fm.bits / 8)) c space d rest) (fun s2 ls =>
        (s2, .ok (l.map El.code ++ ls))))

/-- The codes of a block of elements, operand by operand. -/
def blockCodes (s : State) (t : Nat) (i : Inst) (e n : Nat) : List Role → State × Except MemErr (List (List Nat))
  | [] => (s, .ok [])
  | role :: rest =>
    let d := i.desc role
    andThen (pieceCodes s (coreOf t) (spaceOf s t) d (elemPieces d e n)) (fun s1 l =>
      andThen (blockCodes s1 t i e n rest) (fun s2 ls => (s2, .ok (l :: ls))))

/-- Update blocks of an instruction (R425). -/
def updBlocks (i : Inst) : Nat := cdiv (W.m i.word) 1024

/-- Whether a further block may arrive: there is one, and the port has room for it. -/
def updRoom (i : Inst) : Bool := decide (i.upd.next + i.upd.held.length < updBlocks i) && decide (i.upd.held.length < 48)

/-- The next block's operands arrive. -/
def updArrive (s : State) (t : Nat) (i : Inst) : State :=
  let b := i.upd.next + i.upd.held.length
  match blockCodes s t i (1024 * b) (min 1024 (W.m i.word - 1024 * b)) (updRoles i) with
  | (s1, .error e) => memFault s1 t i.seq e
  | (s1, .ok l) => wrote (s1.modInst t i.seq (fun x => { x with upd := { x.upd with held := x.upd.held ++ [l] } })) 7 (coreOf t) t

/-! ### An element (R416 to R418, R423, R424) -/

/-- 2^x exactly. -/
def pow2 (x : Int) : Num := .fin false 1 x

/-- What R416 computes for an element: the new weight and moments, and every intermediate value. -/
structure UpdCalc where
  wn : F32
  m1n : F32
  m2n : F32
  mids : List F32
  deriving DecidableEq, Repr

/-- The product of an FP32 value and an exact power of two, rounded once. -/
def f32scale (a : F32) (x : Int) : F32 := (f32round ((f32dec a).mul (pow2 x))).1

/-- The arithmetic of an element (R416), each operation rounded once. -/
def updCalc (i : Inst) (w m1 m2 gs : F32) : UpdCalc :=
  let b16 := fun (hi lo : Nat) => (BitVec.ofNat 32 (bf i.word hi lo * 65536) : F32)
  let lr : F32 := BitVec.ofNat 32 (bf i.word 159 128)
  let b1 := b16 175 160
  let b2 := b16 191 176
  let eps := b16 207 192
  let x := i.upd.x
  let d := x - i.upd.xst
  let m1r := f32scale m1 d
  let g := f32scale gs x
  let p1 := (f32mul b1 m1r).1
  if bf i.word 218 216 = 0 then
    let m1n := (f32add p1 g).1
    let k := f32scale lr (-x)
    let st := (f32mul k m1n).1
    let wn := (f32sub w st).1
    ⟨wn, m1n, f32zero, [gs, m1r, g, p1, m1n, k, st, wn]⟩
  else
    let m2d := f32scale m2 d
    let m2r := f32scale m2d d
    let c1 := (f32sub f32one b1).1
    let c2 := (f32sub f32one b2).1
    let q1 := (f32mul c1 g).1
    let m1n := (f32add p1 q1).1
    let p2 := (f32mul b2 m2r).1
    let gg := (f32mul g g).1
    let q2 := (f32mul c2 gg).1
    let m2n := (f32add p2 q2).1
    let rt := (f32sqrt m2n).1
    let ex := f32scale eps x
    let den := (f32add rt ex).1
    let qt := (f32div m1n den).1
    let st := (f32mul lr qt).1
    let wn := (f32sub w st).1
    ⟨wn, m1n, m2n, [gs, m1r, m2d, m2r, g, p1, c1, c2, q1, m1n, p2, gg, q2, m2n, rt, ex, den, qt, st, wn]⟩

/-- What an element of a block gives: nothing for a non-finite one, else its codes, q, v and the magnitude of its first moment, whether its update was lost and whether a write
saturated. -/
structure UpdOne where
  out : Option (List Nat × F32 × F32 × F32 × Bool × Bool)
  flags : Flags
  deriving DecidableEq, Repr

/-- An element of an update from its codes of W, G, M1 and M2 (R416 to R418, R423, R424). -/
def updElem (i : Inst) (seed : Reg) (idx : Nat) (w g m1 m2 : Nat) : UpdOne :=
  let fm := fun (r : Role) => (i.desc r).fm
  let dec := fun (r : Role) (c : Nat) => toF32 (decodeElem (fm r) c)
  let w0 := dec .w w
  let r := updCalc i w0 (dec .m1 m1) (dec .m2 m2) (BitVec.ofNat 32 g)
  let bad := readFlags (r.mids.map f32dec)
  if bad.nan || bad.inf then ⟨none, bad⟩
  else
    let rm := rndOf i seed idx
    let cw := cvtScalar (fm .w) rm (f32dec r.wn)
    let c1 := cvtScalar (fm .m1) rm (f32dec r.m1n)
    let two := decide (bf i.word 218 216 = 1)
    let c2 := if two then [cvtScalar (fm .m2) rm (f32dec r.m2n)] else []
    let all := cw :: c1 :: c2
    let fl := Flags.orAll (all.map Cvt.flags)
    let same := fun (c : Cvt) => (decodeElem (fm .w) c.code).eq (f32dec w0)
    let stays := if W.sr i.word then same (cvtScalar (fm .w) (.sr 0) (f32dec r.wn)) && same (cvtScalar (fm .w) (.sr 65535) (f32dec r.wn)) else same cw
    let dw := (f32sub (dec .w cw.code) w0).1
    ⟨some (all.map Cvt.code, (f32mul dw dw).1, (f32mul w0 w0).1, r.m1n &&& 0x7FFFFFFF#32, !(f32dec r.wn).eq (f32dec w0) && stays, fl.sat), fl⟩

/-- The elements of a held block. -/
def updBlock (i : Inst) (seed : Reg) (b : Nat) (held : List (List Nat)) : List UpdOne :=
  let col := fun (k : Nat) => held.getD k []
  (List.range (col 0).length).map (fun j =>
    updElem i seed (1024 * b + j) ((col 0).getD j 0) ((col 1).getD j 0) ((col 2).getD j 0) ((col 3).getD j 0))

/-! ### Commit (R425) -/

/-- Consecutive pieces of codes that were computed, as offset in the block and codes: those of a non-finite element stay as they are. -/
def liveRuns : Nat → List (Option Nat) → List (Nat × List Nat)
  | _, [] => []
  | j, none :: t => liveRuns (j + 1) t
  | j, some x :: t =>
    match liveRuns (j + 1) t with
    | (k, l) :: rest => if k = j + 1 then (j, x :: l) :: rest else (j, [x]) :: (k, l) :: rest
    | [] => [(j, [x])]

/-- The writes of a block to one of its tensors. -/
def updWrites (d : Desc) (e0 : Nat) (codes : List (Option Nat)) : List (Bool × Int × List Byte) :=
  (liveRuns 0 codes).flatMap (fun run =>
    (elemPieces d (e0 + run.1) run.2.length).map (fun p =>
      let at' := p.1 * max 1 d.cols + p.2.1 - (e0 + run.1)
      let (a, bs) := wrAt d (d.rowOffset p.1 + p.2.1 * d.fm.bits / 8) (packElems d.fm.bits ((run.2.drop at').take p.2.2))
      (d.bench, a, bs)))

/-- The running sums of a block's chunks (R423): q and v of 256 elements at a time. -/
def updSums (u : UpdWork) (els : List UpdOne) : UpdWork :=
  (chunks 256 els).foldl (fun (a : UpdWork) l =>
    let live := l.filterMap UpdOne.out
    let (q, _) := treeSum 9 (live.map (fun p => p.2.1))
    let (v, _) := treeSum 9 (live.map (fun p => p.2.2.1))
    if live.isEmpty then a
    else
      let (sq, _) := compAdd a.sumQ a.errQ q
      let (sv, _) := compAdd a.sumV a.errV v
      { a with sumQ := sq.1, errQ := sq.2, sumV := sv.1, errV := sv.2 }) u

/-- The working state after a block (R425). -/
def updAfter (u : UpdWork) (els : List UpdOne) : UpdWork :=
  let live := els.filterMap UpdOne.out
  let u1 := updSums u els
  { u1 with
    next := u.next + 1
    held := u.held.drop 1
    maxM := live.foldl (fun a p => if (f32dec a).lt (f32dec p.2.2.2.1) then p.2.2.2.1 else a) u.maxM
    elems := u.elems + live.length
    lost := u.lost + (live.filter (fun p => p.2.2.2.2.1)).length
    sat := u.sat + (live.filter (fun p => p.2.2.2.2.2)).length
    nonfinite := u.nonfinite + (els.length - live.length) }

/-- Writes of several tensors made together (R425). -/
def commitMixed (s : State) (c space : Nat) (ws : List (Bool × Int × List Byte)) : State × Except MemErr Unit :=
  let mem := (ws.filter (fun w => !w.1)).map (fun w => (w.2.1, w.2.2))
  let own := (ws.filter (fun w => w.1)).map (fun w => (w.2.1, w.2.2))
  andThen (commitWrites s c space false mem) (fun s1 _ => applyWrites s1 c space true own)

/-- The last block has committed: the instruction's step is over. -/
def updEnds (s : State) (t : Nat) (i : Inst) (next : Nat) : State :=
  if next < updBlocks i then s
  else
    let s1 := s.modPeel (coreOf t) (fun p => { p with updates := p.updates.filter (fun x => !(x.tray == t && x.seq == i.seq)) })
    stepEnds (s1.modInst t i.seq (fun x => { x with done := true })) t i.seq

/-- A block commits: its writes become visible together, and it adds to the instruction's working state (R417, R418, R425). -/
def updCommit (s : State) (t : Nat) (i : Inst) (held : List (List Nat)) : State :=
  let c := coreOf t
  let els := updBlock i (s.tray t).snap.srSeed i.upd.next held
  let fl := Flags.orAll (els.map UpdOne.flags)
  if fl.sat ∧ W.satTrap i.word then faultInst s t i.seq FC.numericSatTrap 0 0
  else
    let outs : List (Role × Nat) := [(.w, 0), (.m1, 1)] ++ (if bf i.word 218 216 = 1 then [(.m2, 2)] else [])
    let ws := outs.flatMap (fun p => updWrites (i.desc p.1) (1024 * i.upd.next) (els.map (fun e => e.out.map (fun q => q.1.getD p.2 0))))
    match commitMixed s c (spaceOf s t) ws with
    | (s1, .error e) => memFault s1 t i.seq e
    | (s1, .ok _) =>
      let s2 := s1.count (Csr.prfBytesWr c) (((ws.filter (fun w => !w.1)).map (fun w => w.2.2.length)).foldl (fun a n => a + n) 0)
      let s3 := s2.modInst t i.seq (fun x => { x with upd := updAfter x.upd els, flags := x.flags.or fl })
      updEnds s3 t i (i.upd.next + 1)

/-- The tray's oldest PEEL.UPD whose next block has arrived commits it. -/
def updateCommit (t : Nat) (s : State) : State :=
  if !mayRun s t then s
  else
    match (s.tray t).insts.find? (fun i => i.mn == .upd && !i.upd.held.isEmpty) with
    | none => s
    | some i => updCommit (readTray s 7 t 0) t i (i.upd.held.headD [])

/-- UPDATE_BLOCK_COMMIT (R425). -/
def execUpdateBlockCommit (t : Nat) (s : State) : Host.Outcome State Fault Refusal := onTray t (updateCommit t) s

/-! ### Completion (R420, R423, R424) -/

/-- The binade of a positive finite value: the floor of its base-2 logarithm. -/
def binade (x : Num) : Int := match x with | .fin _ m e => (Nat.log2 m : Int) + e | _ => 0

/-- UPD_RATIO_LAST from the running sums (R423). -/
def updRatio (u : UpdWork) : F32 :=
  let q := (f32add u.sumQ u.errQ).1
  let v := (f32add u.sumV u.errV).1
  if (f32dec v).isZero then f32nan else (f32sqrt (f32div q v).1).1

/-- The monitor slot takes the working state of an instruction that completes (R420, R423, R424). -/
def updDone (s : State) (t : Nat) (i : Inst) : State :=
  let c := coreOf t
  let n := W.updLayer i.word
  let u := i.upd
  let r0 := s.updWord c n 0
  let cur := if bit r0 24 && !(f32dec u.maxM).isZero then setBf r0 7 0 (toCode 8 (clampI (-32) 31 (u.x + sext 8 (bf r0 23 16) - binade (f32dec u.maxM)))) else r0
  let last := updRatio u
  let r1 := setBf (s.updWord c n 1) 31 0 last.toNat
  let alarm := b2n ((f32dec (BitVec.ofNat 32 (bf r1 63 32))).lt (f32dec last))
  let add := [(2, 1), (3, u.elems), (4, u.lost), (5, u.sat), (6, u.nonfinite), (7, alarm)]
  add.foldl (fun s' p => s'.setUpdWord c n p.1 (s'.updWord c n p.1 + BitVec.ofNat 64 p.2))
    ((s.setUpdWord c n 0 (setBf cur 15 8 (toCode 8 u.x))).setUpdWord c n 1 r1)

end Sys2Proof.Machine
end

