-- ==== Sys2Proof/Machine/Complete.lean ====
section
/-! DEFINITION. Completion of instructions, dispatch of waiting streams, writing of records, and the notify timer (R20, R26, R77, R84, R85, R113, R118, R127, R175, R182 to R185,
R330, R451 to R457). -/

namespace Sys2Proof.Machine

/-! ### Completion (R26) -/

/-- Elements of a FAB.RED's own slice that each member has contributed. -/
def redDone (i : Inst) : Bool :=
  (List.range i.red.members.length).all (fun j => decide (i.red.slice ≤ ((i.red.addedFrom.filter (fun p => p.1 == j)).foldl (fun a p => a + p.2.2) 0)))

/-- Whether an instruction's last step has committed (R26, R109, R175, R344, R346). -/
def Inst.finished (i : Inst) : Bool :=
  i.released && (i.done ||
    (if i.mn.isProduct || (i.mn.isV && i.mn != .ldp) then i.planned && i.steps.isEmpty && i.running == 0 && i.tiles.all (fun o => o.done)
     else if i.mn = .remote ∨ i.mn = .fsend ∨ i.mn = .fmcast then i.msgs.all (fun m => m.state == .acked)
     else if i.mn = .fred then (i.msgs.all (fun m => m.state == .acked || m.member == i.red.own)) && redDone i
     else if i.mn = .gather ∨ i.mn = .scatter then (i.idxChecked || i.xds.isEmpty) && i.xds.all (fun x => x.done)
     else if i.mn.isX then i.xds.all (fun x => x.done)
     else false))

/-- A layer counter of core `c` advanced (R182). -/
def countLev (s : State) (c slot idx n : Nat) : State :=
  s.modLevain c (fun v => { v with counters := Tab.put 0 v.counters (8 * slot + idx) (Tab.get 0 v.counters (8 * slot + idx) + BitVec.ofNat 64 n) })

/-- A LEV.PRED completes: its bitmap is ready, the call is counted, and counters 0 to 3 and 7 advance (R175, R182, R183). -/
def predDone (s : State) (t : Nat) (i : Inst) : State :=
  let c := coreOf t
  match (s.core c).levain.maps.find? (fun m => m.tray == t && m.seq == i.seq) with
  | none => s
  | some m =>
    let n := m.neurons
    let unwatched := fun (x : Nat) => (onesOf n x).filter (fun b => !m.watched.testBit b)
    let act := (unwatched m.pred).length
    let watched := popCount n m.watched
    let add := [(0, 1), (1, act), (2, n - watched - act), (3, popCount n m.audited), (7, watched)]
    let s1 := add.foldl (fun s' p => countLev s' c m.layer p.1 p.2) s
    freeMaps ((s1.modTray t (fun r => { r with levCalls := (r.levCalls + 1) % 65536 })).modLevain c (fun v =>
      { v with maps := v.maps.map (fun x => if x.tray = t ∧ x.seq = i.seq then { x with ready := true } else x) })) c

/-- A masked instruction completes: the first K-masked one of an arming adds its observations, and its bitmap may be freed (R181 to R183, R185). `i.lev.e` holds the
neurons found non-zero. -/
def maskedDone (s : State) (t : Nat) (i : Inst) : State :=
  match maskMap s t i with
  | some m =>
    let c := coreOf t
    let nz := i.lev.e
    let count := fun (f : Nat → Bool) => ((List.range m.neurons).filter f).length
    let missed := count (fun n => !m.watched.testBit n && !m.pred.testBit n && (m.strict || m.audited.testBit n) && nz.testBit n)
    let falseAct := count (fun n => !m.watched.testBit n && m.pred.testBit n && !nz.testBit n)
    let wzero := count (fun n => m.watched.testBit n && !nz.testBit n)
    let s1 := if m.observer == some i.seq then
      countLev (countLev (countLev s c m.layer 4 missed) c m.layer 5 falseAct) c m.layer 6 wzero else s
    freeMaps (s1.modLevain c (fun v => { v with maps := v.maps.map (fun x =>
      if x.id = m.id then { x with users := x.users.filter (fun u => u != i.seq) } else x) })) c
  | none => s

/-- The record of an instruction that has completed (R126, R127). -/
def instRec (s : State) (t : Nat) (i : Inst) (kind tag : Nat) (last : Bool) : Rec :=
  { tag := tag, code := 0, kind := kind, tray := t, queue := (s.tray t).queue, zeroShape := i.zeroShape, statAny := i.flags.statAny, index := i.index,
    pass := i.passIndex, rowBlock := i.rowBlock, aux := if i.mn = .cmp then i.marks.foldl (fun a m => a + m.2) 0 else 0, addr := 0, last := last }

/-- Records of a task's end: one for each member of a batch, in order, otherwise one; only the last opens the way to the task boundary (R127, R330). -/
def endRecs (k : TaskKind) (r : Rec) : List Rec :=
  match k with
  | .batch ms => (ms.map (fun m => { r with tag := m.tag, last := false })).dropLast ++
      (match ms.getLast? with
        | some m => [{ r with tag := m.tag, last := true }]
        | none => [{ r with last := true }])
  | _ => [{ r with last := true }]

/-- CTRL.END completes: the task-end records wait, and a quick call answers (R127, R330, R457). -/
def endDone (s : State) (t : Nat) (i : Inst) : State :=
  (endRecs (s.tray t).kind (instRec s t i 1 (W.tag i.word) true)).foldl addRec (quickResult s t 0)

/-- What ends with an instruction: its bitmap or its slot, its streams and its spill space; its use of stochastic rounding is counted. -/
def endsOf (s : State) (t k : Nat) (i : Inst) : State :=
  let s1 := if i.mn = .pred then predDone s t i else if i.mn = .upd ∧ !i.zeroShape then updDone s t i else if i.mask.isSome then maskedDone s t i else s
  let s2 := (dropStreams s1 t k).modProofer (coreOf t) (fun p => { p with spillAlloc := p.spillAlloc.filter (fun a => !(a.tray == t && a.seq == k)) })
  let sc := if i.mn.honoursSr && W.sr i.word then 1 else 0
  s2.modTray t (fun r => { r with srCount := (r.srCount + sc) % 65536 })

/-- The tokens that an instruction's completion signals: its SIG, and those of a SYNC.SIG (R26, R117). A CTRL.END completes in its tray's boundary cycle, which
applies its SIG (R84). -/
def signalsOf (s : State) (t k : Nat) (i : Inst) : State :=
  let s1 := if i.mn = .endTask then s.modTray t (fun r => { r with endSig := W.sig i.word }) else signal s t (W.sig i.word) (some k)
  if i.mn = .sig ∧ bit i.word 69 then signal s1 (bf i.word 68 64) (bf i.word 79 72) (if bf i.word 68 64 = t then some k else none) else s1

/-- A completed instruction leaves its tray, with its record `rec'` where it has a TAG (R127); the task ends with a CTRL.END. -/
def retire (s : State) (t k : Nat) (i : Inst) (rec' : Rec) : State :=
  let s1 := s.modTray t (fun r => { r with insts := r.insts.filter (fun x => x.seq != k) })
  tryRelease (if i.mn = .endTask then endDone s1 t i else if W.tag i.word ≠ 0 then addRec s1 rec' else s1) t

/-- Instruction `k` of a tray completes (R26, R27, R118, R127): it leaves the task, its tokens are signalled, its record waits, and what it held back may go on. -/
def complete (t k : Nat) (s0 : State) : State :=
  let s := readBack s0 9 none t 0
  match s.inst t k with
  | none => s
  | some i =>
    if !i.finished || s.stop.isSome || !(s.tray t).live || (s.tray t).state == .paused then s
    else
      let s1 := signalsOf (endsOf s t k i) t k i
      if !(s1.tray t).live then s1 else retire s1 t k i (instRec s t i 0 (W.tag i.word) false)

/-- INSTRUCTION_COMPLETE (R26). -/
def execInstructionComplete (t k : Nat) (s : State) : Host.Outcome State Fault Refusal := onTray t (complete t k) s

/-! ### Dispatch (R20, R85) -/

/-- A tray's snapshot of its core's RWS fields (R85). -/
def snapOf (s : State) (c : Nat) : Snap :=
  { srSeed := s.reg (Csr.peelSrSeed c), selThresh := s.fld (Csr.sveSel c) 15 0, mxmScatter := bit (s.reg (Csr.sveSel c)) 16,
    segTarget := clampN 1 1024 (s.fld (Csr.sveSeg c) 10 0), audSeed := s.reg (Csr.levAudSeed c), reuseDis0 := bit (s.reg (Csr.mxaCtl c 0)) 0,
    reuseDis1 := bit (s.reg (Csr.mxaCtl c 1)) 0, coucheIvl := s.fld (Csr.peelCoucheCfg c) 39 28, lookahead := clampN 1 32 (s.fld (Csr.prfCtl c) 5 0) }

/-- A tray that leaves IDLE with a stream (R77, R85, R106, R113, R455): tokens that it holds stay. A repartition in progress ends before its first access (R390). -/
def startTask (s0 : State) (t q : Nat) (x : Waiting) : State :=
  let s := finishRepart s0
  let s1 := s.modTray t (fun r =>
    { r with state := .run, queue := q, stream := x.stream, kind := x.kind, pc := 0, loops := [], nextSeq := 0, raPc := 0, raLoops := [], raSeq := 0,
             ahead := [], snapPend := false, snap := snapOf s (coreOf t), set := .start (t % 8) x.dtab, insts := [], srCount := 0, levCalls := 0,
             arming := none, endSig := 0, ending := false, starting := false, alignFault := false, faulted := none, cancelled := [], lost := [] })
  let s2 := match x.kind with
    | .quick _ _ bytes => benchWrite s1 (coreOf t) (qcArea s1 q t false) bytes
    | _ => s1
  if x.stream % 32 ≠ 0 then endTask s2 t FC.streamAlign 0 0 0xFFFFFFFF 0 0
  else if x.dtab % 64 ≠ 0 then endTask s2 t FC.descTableAlign 0 0 0xFFFFFFFF 0 0
  else s2

/-- The stream that a queue's tray position runs for a quick call (R455). -/
def quickTable (s : State) (t q : Nat) (x : Waiting) : Waiting :=
  if x.kind.isQuick then { x with dtab := x.dtab + 16384 * trayPosition s q t } else x

/-- The waiting streams of every running queue, oldest first, those of one cycle by queue (R20): the queue, and what waits. The list starts in queue order and the sort keeps the
order of equal cycles. -/
def waitingByAge (s : State) : List (Nat × Waiting) :=
  let all := (List.range 64).flatMap (fun q => if bit (s.reg (Csr.hqState q)) 23 then [] else (s.hq q).waiting.map (fun w => (q, w)))
  sortBy (fun p => p.2.cyc) all

/-- One waiting stream takes the lowest-numbered idle tray of its set, if there is one. -/
def dispatchOne (s : State) (q : Nat) (x : Waiting) : State :=
  match (onesOf 32 (s.fld (Csr.hqCfg q) 31 0)).find? (fun t => (s.tray t).state == .idle) with
  | none => s
  | some t =>
    let s1 := s.modHq q (fun h => { h with waiting := dropFirst (fun w => w == x) h.waiting })
    startTask s1 t q (quickTable s t q x)

/-- The dispatcher serves the waiting streams in order of age (R20); none during a removal (R558). A queue that stops meanwhile dispatches no more. -/
def dispatchAll (s : State) : State :=
  if s.stop.isSome || s.hearth.removal != .none then s
  else (waitingByAge s).foldl (fun s' p => if bit (s'.reg (Csr.hqState p.1)) 23 then s' else dispatchOne s' p.1 p.2) s

/-- DISPATCH (R20). -/
def execDispatch (s : State) : Host.Outcome State Fault Refusal := .next (dispatchAll s)

/-! ### Records -/

/-- RECORD_WRITE (R451). -/
def execRecordWrite (q : Nat) (s : State) : Host.Outcome State Fault Refusal := onQueue q (writeRecord q) s

/-- The notify timer runs and expires: a NOTIFY goes out (R454). -/
def notifyExpire (q : Nat) (s : State) : State :=
  if (s.hq q).notifyOn && s.fld (Csr.hqParam q) 33 26 != 0 then notify s q else s

/-- NOTIFY_TIMER_EXPIRE (R454). -/
def execNotifyTimerExpire (q : Nat) (s : State) : Host.Outcome State Fault Refusal := onQueue q (notifyExpire q) s

end Sys2Proof.Machine
end

