-- ==== Sys2Proof/Machine/Reduce.lean ====
section
/-! DEFINITION. FAB.RED: the data of a contribution, and its addition to the module's own slice (R109, R226, R230, R231, R238, R244, R248 to R253, R497). -/

namespace Sys2Proof.Machine

/-- The path of a FAB.RED by its source format (R226): integer sums saturate in INT32, every other format is summed in FP32. -/
def redPath (d : Desc) : Path := if d.fm.isInt then .integer else .float

/-- Whether a FAB.RED sends pairs: COMP = 1 and an FP32 source in the Bench, which has a companion (R250, R497). -/
def redPaired (i : Inst) : Bool := W.comp i.word && (i.desc .srca).fmt == 7 && (i.desc .srca).bench

/-- Elements of a contribution from its bytes: superblocks for an MX format, pairs when PAIR is 1 (R52, R53, R497). -/
def redValues (d : Desc) (pair : Bool) (n : Nat) (bs : List Byte) : List (Nat × Nat) :=
  if pair then
    let ws := unpackElems 32 (2 * n) bs
    (List.range n).map (fun j => (ws.getD (2 * j) 0, ws.getD (2 * j + 1) 0))
  else
    let els : List El := if d.fm.isMx then ((chunks d.superBytes bs).flatMap (decodeSuper d)).take n else (unpackElems d.fm.bits n bs).map (fun x => ⟨x, 0, true⟩)
    els.map (fun e => if d.fm.isInt then (toCode 32 (sext d.fm.bits e.code), 0) else ((toF32 (e.val d)).toNat, 0))

/-- Elements that the bytes of a contribution hold. -/
def redLength (d : Desc) (pair : Bool) (len : Nat) : Nat := if pair then len / 8 else if d.fm.isMx then len / d.superBytes * 256 else len * 8 / d.fm.bits

/-- Members that have contributed element `e` of the slice. -/
def redCount (r : RedWork) (e : Nat) : Nat := (r.addedFrom.filter (fun p => decide (p.2.1 ≤ e) && decide (e < p.2.1 + p.2.2))).length

/-- Bench offsets of element `e`'s partial sum and error term, from the base of DST's region (R238). -/
def redPlace (i : Inst) (e : Nat) : Nat × Nat := (dstRegion i + 4 * e, dstRegion i + 4 * i.red.slice + 4 * e)

/-- What adding one element does: a partial sum kept, with its spill into the Couche, or the finished value. -/
structure RedOne where
  e : Nat
  sum : Nat × Nat
  final : Bool
  spill : Bool
  flags : Flags
  deriving DecidableEq, Repr

/-- A word of the Bench; poison is met by the check before. -/
def benchWord (s : State) (c off : Nat) : Nat := leNat (benchPeek s c off 4)

/-- One element of a contribution added (R230, R231, R252). -/
def redElem (s : State) (t : Nat) (i : Inst) (e : Nat) (v : Nat × Nat) : RedOne :=
  let c := coreOf t
  let ivl := (s.tray t).snap.coucheIvl
  let n := redCount i.red e
  let p := redPath (i.desc .srca)
  let comp := W.comp i.word
  let old := (benchWord s c (redPlace i e).1, if comp then benchWord s c (redPlace i e).2 else 0)
  let (x, f) := if n = 0 ∨ (ivl ≠ 0 ∧ n % ivl = 0) then (v, Flags.none) else addEntry p comp old v
  { e := e, sum := x, final := decide (i.red.members.length ≤ n + 1), spill := decide (ivl ≠ 0) && decide ((n + 1) % max 1 ivl = 0), flags := f }

/-- The Couche entry of element `e` before contribution `n` + 1: zero while none has spilled. What was freed at a pause after `lost` contributions is a free value until the element
spills again: the source says that the space is freed without being read, and that nothing is sent twice (R254, R481). -/
def redEntry (s : State) (i : Inst) (ivl e n : Nat) : Except MemErr (Nat × Nat) :=
  let gone := redCount { i.red with addedFrom := i.red.lost } e / max 1 ivl
  if n / max 1 ivl = 0 then .ok (0, 0)
  else if 0 < gone ∧ n / max 1 ivl = gone then .ok (words64 (Config.freeWord (s.free + e)).toNat)
  else match i.red.couche with
    | none => .ok (0, 0)
    | some pl => match readCouche s pl e 1 with
      | .error x => .error x
      | .ok l => .ok (l.headD (0, 0))

/-- The value of a finished element, its Couche entry combined when it has one. -/
def redFinish (s : State) (t : Nat) (i : Inst) (x : RedOne) : Except MemErr (Num × Flags) :=
  let ivl := (s.tray t).snap.coucheIvl
  let p := redPath (i.desc .srca)
  let n := redCount i.red x.e
  let spilled := decide (ivl ≠ 0) && decide (ivl ≤ n)
  match redEntry s i ivl x.e n with
  | .error e => .error e
  | .ok l =>
    let (tot, f) := totalOf p x.sum (if spilled then some l else none)
    match tot with
    | .int v => .ok (.ofInt v, f)
    | _ => let (v, f') := tot.toF32 p (W.comp i.word || spilled); .ok (f32dec v, f.or f')

/-- Finished elements written to DST, row by row (R60). -/
def redWrite (s : State) (t : Nat) (i : Inst) (xs : List (Nat × Num)) : State × Except MemErr Flags :=
  let c := coreOf t
  let sp := spaceOf s t
  let d := i.desc .dst
  let cols := max 1 d.cols
  let seed := (s.tray t).snap.srSeed
  let rows := runsOf (xs.map (fun x => x.1 / cols))
  let all := rows.foldl (fun (r : State × Except MemErr (Writes × Flags)) row =>
    andThen r (fun s1 acc =>
      let els := (xs.filter (fun x => x.1 / cols == row)).map (fun x => (⟨x.1 % cols, rndOf i seed x.1, x.2, none⟩ : WEl))
      andThen (writeRow s1 c sp d row els) (fun s2 w => (s2, .ok (acc.1 ++ w.1, acc.2.or w.2))))) (s, .ok ([], .none))
  andThen all (fun s1 w =>
    if w.2.sat ∧ W.satTrap i.word then (s1, .error ⟨FC.numericSatTrap, 0, 0⟩)
    else andThen (commitWrites s1 c sp d.bench w.1) (fun s2 _ => (s2, .ok w.2)))

/-- Couche space for a slice that is about to spill: the instruction with its place, or none while there is no room (R251, R253). -/
def redRoom (s : State) (t : Nat) (i : Inst) (xs : List RedOne) : Option Inst :=
  if xs.any (fun x => x.spill && !x.final) && i.red.couche.isNone then
    (if coucheLeft s (coreOf t) t i.seq 0 then none else coucheRoom s (coreOf t) i.red.slice).map (fun pl => { i with red := { i.red with couche := some pl } })
  else some i

/-- Partial sums of a contribution kept, and those that spill added to the Couche (R230, R252). -/
def redKeep (s : State) (t : Nat) (i : Inst) (xs : List RedOne) : State × Except MemErr Flags :=
  let c := coreOf t
  let p := redPath (i.desc .srca)
  let ivl := (s.tray t).snap.coucheIvl
  xs.foldl (fun (r : State × Except MemErr Flags) x =>
    andThen r (fun s1 f =>
      if x.final then (s1, .ok f)
      else
        let s2 := benchWrite s1 c (redPlace i x.e).1 (leBytes 4 x.sum.1)
        let s3 := if W.comp i.word then benchWrite s2 c (redPlace i x.e).2 (leBytes 4 x.sum.2) else s2
        match x.spill, i.red.couche with
        | true, some pl =>
          match redEntry s3 i ivl x.e (redCount i.red x.e) with
          | .error e => (s3, .error e)
          | .ok l => let (v, f') := coucheAdd p l x.sum; (writeCouche s3 pl x.e [v], .ok (f.or f'))
        | _, _ => (s3, .ok f))) (s, .ok .none)

/-- What became of a contribution: added, waiting for Couche space, or stopped by a fault or a page miss. -/
inductive RedResult where
  | added | waits | stopped
  deriving DecidableEq, Repr

/-- Row blocks of DST whose elements a contribution spills (R252, R262). -/
def redSpills (i : Inst) (xs : List RedOne) : Nat :=
  let cols := max 1 (i.desc .dst).cols
  (runsOf ((xs.filter (fun x => x.spill && !x.final)).map (fun x => (x.e / cols / 4) * cdiv cols 256 + x.e % cols / 256))).length

/-- A member's contribution of elements from `e0` on added to the slice of instruction `k` (R497): counted as one pass arrival. -/
def redAdd (s : State) (t k member e0 : Nat) (vals : List (Nat × Nat)) : State × RedResult :=
  match s.inst t k with
  | none => (s, .stopped)
  | some i0 =>
    let xs := vals.zipIdx.map (fun p => redElem s t i0 (e0 + p.2) p.1)
    match redRoom s t i0 xs with
    | none => (waitCouche s (coreOf t) t k 0, .waits)
    | some i =>
      let fin := xs.filter (fun x => x.final)
      let vals' : Except MemErr (List (Nat × Num) × Flags) := fin.foldl (fun r x =>
        match r, redFinish s t i x with
        | .error e, _ => .error e
        | _, .error e => .error e
        | .ok a, .ok v => .ok (a.1 ++ [(x.e, v.1)], a.2.or v.2)) (.ok ([], .none))
      let addFlags := Flags.orAll (xs.map (fun x => x.flags))
      if addFlags.sat ∧ W.satTrap i.word then (faultInst s t k FC.numericSatTrap 0 0, .stopped)
      else
        let r : State × Except MemErr Flags := match vals' with
          | .error e => (s, .error e)
          | .ok v => andThen (redWrite s t i v.1) (fun s1 f => andThen (redKeep s1 t i xs) (fun s2 f' => (s2, (.ok ((v.2.or f).or f') : Except MemErr Flags))))
        match r with
        | (s1, .error e) => (memFault s1 t k e, .stopped)
        | (s1, .ok f) =>
          let s2 := s1.modInst t k (fun x =>
            { x with flags := x.flags.or (addFlags.or f), lastPass := if fin.isEmpty then x.lastPass else i.red.members.length,
                     red := { i.red with addedFrom := x.red.addedFrom ++ [(member, e0, vals.length)] } })
          let s3 := if i.red.lost.isEmpty then s2 else s2.setFree (s2.free + i.red.slice)
          (((s3.count (Csr.peelPassAdds (coreOf t)) 1).count (Csr.peelCoucheSpills (coreOf t)) (redSpills i xs)).modPeel (coreOf t) (fun p => { p with coucheWait := p.coucheWait.filter (fun w => w != (t, k, 0)) }), .added)

end Sys2Proof.Machine
end

