-- ==== Sys2Proof/Machine/Move.lean ====
section
/-! DEFINITION. What transfer descriptors move: fills of stream-buffer slots, copies of rows, gathers with pooling, fabric messages' data, and the memory that each
of them touches (R100 to R102, R333, R336, R337, R344 to R351, R479, R497). -/

namespace Sys2Proof.Machine

/-! ### Fills (R318, R336, R337) -/

/-- The columns of unit `u` of a block's row, for a run of elements in pieces of 64 KiB. -/
def runPiece (d : Desc) (b : Blk) (u : Nat) : Nat × Nat :=
  let per := 65536 * 8 / d.fm.bits
  (b.col0 + u * per, min b.lim (min (b.col0 + b.cols) (b.col0 + (u + 1) * per)))

/-- One row's unit of a block copied into its slot at a Bench offset; with `store` false it is read alone. A crumb's directory entry is read with it (R337, R371). -/
def fillUnit (c space : Nat) (d : Desc) (b : Blk) (base : Nat) (store : Bool) (s : State) (iu : Nat × Nat) : State × Except MemErr Unit :=
  let r := b.rows.getD iu.1 0
  let at' := base + iu.1 * slotRowBytes d b.col0 b.cols + (if d.plain then 65536 * iu.2 else slotUnitAt d b.col0 b.cols iu.2)
  let u := b.col0 / 256 + iu.2
  let put := fun (s' : State) (bs : List Byte) =>
    let s1 := s'.count (Csr.prfBytesRd c) (bs.length + (if d.comp = 1 then 4 else 0))
    (if store then benchWrite s1 c at' (if 2 ≤ d.comp then nmShare d (shareOf d b.col0 b.cols u) bs else bs) else s1, (.ok () : Except MemErr Unit))
  if d.plain then
    let (lo, hi) := runPiece d b iu.2
    if hi ≤ lo then (s, .ok ()) else andThen (fetchUnit s c space d r lo hi 0) put
  else
    if b.lim ≤ 256 * u then (s, .ok ()) else andThen (fetchUnit s c space d r (256 * u) b.lim u) put

/-! ### Row copies (R344, R345) -/

/-- Bytes written at an offset from a tensor's BASE. -/
def storeBytes (s : State) (c space : Nat) (d : Desc) (off : Nat) (bs : List Byte) : State × Except MemErr Unit :=
  if d.bench then (benchWrite s c ((d.base + off) % 0x10000000).toNat bs, .ok ()) else writeV s c space (d.base + off) bs

/-- The byte offset of a row that is stored as one run of bytes: dense rows, or rows of N:M segments. -/
def runOffset (d : Desc) (r : Nat) : Nat := if d.comp = 0 then d.rowOffset r else r * d.segs * d.nmSegBytes

/-- One crumb copied with its directory entry (R345). -/
def copyCrumb (c space : Nat) (src dst : Desc) (sr dr seg : Nat) (s : State) : State × Except MemErr Unit :=
  andThen (fetchBytes s c space src (4 * (sr * src.segs + seg)) 4) (fun s1 e =>
    andThen (storeBytes s1 c space dst (4 * (dr * dst.segs + seg)) e) (fun s2 _ =>
      andThen (fetchCrumb s2 c space src sr seg) (fun s3 bs => storeBytes s3 c space dst (dst.crumbArea + 8 * leNat e) bs)))

/-- One row, or a part of a row, of a transfer descriptor copied (R344, R345). -/
def copyRow (c space : Nat) (src dst : Desc) (x : Xd) (s : State) (p : Nat × Nat) : State × Except MemErr Unit :=
  if src.comp = 1 then forEach (fun s' k => copyCrumb c space src dst p.1 p.2 (x.byte0 + k) s') (List.range x.bytes) s
  else andThen (fetchBytes s c space src (runOffset src p.1 + x.byte0) x.bytes) (fun s1 bs => storeBytes s1 c space dst (runOffset dst p.2 + x.byte0) bs)

/-! ### Index tensors (R102, R347, R348) -/

/-- The byte offset of element `e` of a dense INT32 tensor, row-major. -/
def idxOffset (d : Desc) (e : Nat) : Nat := d.rowOffset (e / max 1 d.cols) + 4 * (e % max 1 d.cols)

/-- Elements `e` to `e + n − 1` of an index tensor. -/
def readIdx (s : State) (c space : Nat) (d : Desc) : Nat → Nat → State × Except MemErr (List Int)
  | _, 0 => (s, .ok [])
  | e, n + 1 =>
    andThen (fetchBytes s c space d (idxOffset d e) 4) (fun s1 bs =>
      andThen (readIdx s1 c space d (e + 1) n) (fun s2 l => (s2, .ok (sext 32 (leNat bs) :: l))))

/-- The rows that an index may name (R102). -/
def idxLimit (i : Inst) : Nat := if i.mn = .gather then (i.desc .srca).rows else (i.desc .dst).rows

/-- An index in its range, as a row (R102). -/
def idxRow (i : Inst) (x : Int) : Option Nat := if 0 ≤ x ∧ x < idxLimit i then some x.toNat else none

/-- The row that entry `e` names: from the index buffer when IDX fits in it, otherwise read and checked again (R348, R371). -/
def rowOfEntry (s : State) (c space : Nat) (i : Inst) (e : Nat) : State × Except MemErr Nat :=
  let fin := fun (x : Int) => match idxRow i x with
    | some r => (.ok r : Except MemErr Nat)
    | none => .error ⟨FC.sparseIndexRange, 0, 0⟩
  if (i.desc .idx).elems ≤ 16384 then (s, fin (i.idx.getD e 0))
  else andThen (readIdx s c space (i.desc .idx) e 1) (fun s1 l => (s1.count (Csr.prfBytesRd c) 4, fin (l.headD 0)))

/-! ### Pooling (R351) -/

/-- The values of one source row as FP32 (R268, R351). -/
def poolRow (s : State) (c space : Nat) (d : Desc) (r : Nat) : State × Except MemErr (List Num) :=
  andThen (rowEls s c space d .tensor r 0 d.cols d.cols) (fun s1 l => (s1, .ok (l.map (El.val d))))

/-- One more row of a bag combined, element by element. -/
def poolAdd (pool : Nat) (acc : List F32) (row : List F32) : List F32 × Flags :=
  let out := (acc.zip row).map (fun p => if pool = 3 then f32max p.1 p.2 else f32add p.1 p.2)
  (out.map (fun p => p.1), Flags.orAll (out.map (fun p => p.2)))

/-- The rows of a bag combined in ascending position (R351). -/
def poolRows (s : State) (c space : Nat) (i : Inst) (e : Nat) : Nat → List F32 → Flags → State × Except MemErr (List F32 × Flags)
  | 0, acc, fl => (s, .ok (acc, fl))
  | n + 1, acc, fl =>
    andThen (rowOfEntry s c space i e) (fun s1 r =>
      andThen (poolRow s1 c space (i.desc .srca) r) (fun s2 row =>
        let fr := (fl.or (readFlags row))
        let vals := row.map toF32
        if acc.isEmpty then poolRows s2 c space i (e + 1) n vals fr
        else
          let (acc', f) := poolAdd (W.pool i.word) acc vals
          poolRows s2 c space i (e + 1) n acc' (fr.or f)))

/-- One output row of a pooled gather (R351). -/
def poolOut (c space : Nat) (i : Inst) (seed : Reg) (s : State) (p : Nat × Nat) : State × Except MemErr Flags :=
  let bag := W.bag i.word
  let d := i.desc .dst
  andThen (poolRows s c space i (p.1 * bag) bag [] .none) (fun s1 r =>
    let res := if W.pool i.word = 2 then r.1.map (fun x => f32div x (toF32 (.ofInt bag))) else r.1.map (fun x => (x, Flags.none))
    let els := res.zipIdx.map (fun q => (⟨q.2, rndOf i seed (linIndex d p.2 q.2), f32dec q.1.1, none⟩ : WEl))
    andThen (writeRow s1 c space d p.2 els) (fun s2 w =>
      andThen (applyWrites s2 c space d.bench w.1) (fun s3 _ => (s3, .ok ((r.2.or (Flags.orAll (res.map (fun q => q.2)))).or w.2)))))

/-! ### An XFER's descriptor -/

/-- The data of one transfer descriptor moved, with the flags of a pooled gather (R344 to R351). Rows of a gather name entries of IDX; a pooled row is combined as the last descriptor with a
row of its bag arrives (R351). -/
def moveXd (s : State) (t : Nat) (i : Inst) (x : Xd) : State × Except MemErr Flags :=
  let c := coreOf t
  let sp := spaceOf s t
  let src := i.desc .srca
  let dst := i.desc .dst
  let noFlags := fun (r : State × Except MemErr Unit) => andThen r (fun s1 _ => (s1, (.ok Flags.none : Except MemErr Flags)))
  if i.mn = .gather ∧ W.pool i.word ≠ 0 then
    let whole := fun (r : Nat) => i.xds.all (fun y => y.done || y.rows == x.rows || !y.rows.any (fun q => q.2 == r))
    let outs := ((x.rows.map (fun p => (p.1 / W.bag i.word, p.2))).eraseDups).filter (fun p => whole p.2)
    outs.foldl (fun (r : State × Except MemErr Flags) p =>
      andThen r (fun s1 f => andThen (poolOut c sp i (s.tray t).snap.srSeed s1 p) (fun s2 f' => (s2, .ok (f.or f'))))) (s, .ok .none)
  else if i.mn = .gather then
    noFlags (forEach (fun s1 p => andThen (rowOfEntry s1 c sp i p.1) (fun s2 r => copyRow c sp src dst x s2 (r, p.2))) x.rows s)
  else if i.mn = .scatter then
    noFlags (forEach (fun s1 p => andThen (rowOfEntry s1 c sp i p.2) (fun s2 r => copyRow c sp src dst x s2 (p.1, r))) x.rows s)
  else noFlags (forEach (copyRow c sp src dst x) x.rows s)

/-! ### Fabric data (R346, R479, R497) -/

/-- Element `e` of a dense tensor: its code and its block's scale. -/
def elemAt (s : State) (c space : Nat) (d : Desc) (e : Nat) : State × Except MemErr El :=
  andThen (rowEls s c space d .tensor (e / max 1 d.cols) (e % max 1 d.cols) 1 d.cols) (fun s1 l => (s1, .ok (l.headD (padEl d))))

/-- Elements `e` to `e + n − 1` of a tensor in row-major order. -/
def elemRun (s : State) (c space : Nat) (d : Desc) : Nat → Nat → State × Except MemErr (List El)
  | _, 0 => (s, .ok [])
  | e, n + 1 => andThen (elemAt s c space d e) (fun s1 x => andThen (elemRun s1 c space d (e + 1) n) (fun s2 l => (s2, .ok (x :: l))))

/-- Elements packed as a row of a tensor's format: superblocks for an MX format (R52, R53). -/
def packRow (d : Desc) (l : List El) : List Byte :=
  if d.fm.isMx then
    (chunks 256 l).flatMap (fun b =>
      (List.range 8).map (fun j => BitVec.ofNat 8 (b.getD (32 * j) ⟨0, 0, false⟩).scale) ++
        packElems d.fm.bits ((List.range 256).map (fun j => (b.getD j ⟨0, 0, false⟩).code)))
  else packElems d.fm.bits (l.map El.code)

/-- The address, row bytes, stride and data of a message that carries elements `e0` to `e0 + n − 1` of the vector that starts at element `src0` of the source, to the same elements of DST
(R479). -/
def fabElems (s : State) (c space : Nat) (src dst : Desc) (src0 e0 n : Nat) : State × Except MemErr (Nat × Nat × Nat × List Byte) :=
  let cols := max 1 dst.cols
  andThen (elemRun s c space src (src0 + e0) n) (fun s1 l =>
    let rows := chunks cols l
    let bytes := rows.flatMap (packRow src)
    let col := e0 % cols
    let off := dst.rowOffset (e0 / cols) + (if dst.fm.isMx then col / 256 * dst.superBytes else col * dst.fm.bits / 8)
    let rb := if rows.length ≤ 1 then bytes.length else dst.rowBytesOf cols
    (s1, .ok ((dst.base + off).toNat, rb, (if rows.length ≤ 1 then rb else dst.rowOffset (e0 / cols + 1) - dst.rowOffset (e0 / cols)), bytes)))

/-- The address, row bytes, stride and data of a message that carries stored segments `u` to `u + n − 1` of a source that is not dense, bits unchanged, to segments `v` onward of DST, in row-major
order (R93): N:M segments as one run; of crumbs, part 0 is their directory entries and the parts after it one crumb each. -/
def fabStored (s : State) (c space : Nat) (src dst : Desc) (u v n part : Nat) : State × Except MemErr (Nat × Nat × Nat × List Byte) :=
  let run := fun (off len dest : Nat) => andThen (fetchBytes s c space src off len) (fun s1 bs => (s1, (.ok ((dst.base + dest).toNat, len, len, bs) : Except MemErr _)))
  if src.comp ≠ 1 then run (u * src.nmSegBytes) (n * src.nmSegBytes) (v * dst.nmSegBytes)
  else if part = 0 then run (4 * u) (4 * n) (4 * v)
  else
    andThen (fetchBytes s c space src (4 * (u + part - 1)) 4) (fun s1 e =>
      andThen (fetchCrumb s1 c space src 0 (u + part - 1)) (fun s2 bs => (s2, .ok ((dst.base + (dst.crumbArea + 8 * leNat e : Nat)).toNat, bs.length, bs.length, bs))))

/-- Rows of a transfer descriptor as one WRITE: dense or N:M rows at the stride of the destination (R346, R479). -/
def remoteRows (s : State) (c space : Nat) (src dst : Desc) (x : Xd) : State × Except MemErr (Nat × Nat × Nat × List Byte) :=
  let data := x.rows.foldl (fun (r : State × Except MemErr (List Byte)) p =>
    andThen r (fun s1 bs => andThen (fetchBytes s1 c space src (runOffset src p.1 + x.byte0) x.bytes) (fun s2 b => (s2, .ok (bs ++ b))))) (s, .ok [])
  let r0 := (x.rows.headD (0, 0)).2
  andThen data (fun s1 bs => (s1, .ok ((dst.base + runOffset dst r0 + x.byte0).toNat, x.bytes, runOffset dst (r0 + 1) - runOffset dst r0, bs)))

/-- Part 0 of a crumb descriptor is its directory entries, the parts after it one crumb each. -/
def remoteCrumb (s : State) (c space : Nat) (src dst : Desc) (x : Xd) (part : Nat) : State × Except MemErr (Nat × Nat × Nat × List Byte) :=
  let entry := fun (s' : State) (r seg : Nat) => fetchBytes s' c space src (4 * (r * src.segs + seg)) 4
  if part = 0 then
    let data := x.rows.foldl (fun (r : State × Except MemErr (List Byte)) p =>
      andThen r (fun s1 bs => andThen (fetchBytes s1 c space src (4 * (p.1 * src.segs + x.byte0)) (4 * x.bytes)) (fun s2 b => (s2, .ok (bs ++ b))))) (s, .ok [])
    andThen data (fun s1 bs =>
      (s1, .ok ((dst.base + (4 * ((x.rows.headD (0, 0)).2 * dst.segs + x.byte0) : Nat)).toNat, 4 * x.bytes, 4 * dst.segs, bs)))
  else
    let p := x.rows.getD ((part - 1) / max 1 x.bytes) (0, 0)
    let seg := x.byte0 + (part - 1) % max 1 x.bytes
    andThen (entry s p.1 seg) (fun s1 e =>
      andThen (fetchCrumb s1 c space src p.1 seg) (fun s2 bs => (s2, .ok ((dst.base + (dst.crumbArea + 8 * leNat e : Nat)).toNat, bs.length, bs.length, bs))))

/-- The elements of a RED message's slice part, with their error terms when they travel (R497). -/
def redData (s : State) (c space : Nat) (i : Inst) (e0 n : Nat) : State × Except MemErr (List Byte) :=
  let d := i.desc .srca
  andThen (elemRun s c space d (W.srcOff i.word + e0) n) (fun s1 l =>
    if redPaired i then
      andThen (elemRun s1 c space d.companion (W.srcOff i.word + e0) n) (fun s2 es => (s2, .ok ((l.zip es).flatMap (fun p => leBytes 4 p.1.code ++ leBytes 4 p.2.code))))
    else (s1, .ok (packRow d l)))

end Sys2Proof.Machine
end

