-- ==== Sys2Proof/Machine/Spill.lean ====
section
/-! DEFINITION. Streams that block each other, and the spill areas (R253, R363 to R367, R400 to R404). -/

namespace Sys2Proof.Machine

/-! ### Steps in the engines' queues -/

/-- Every step queued in an engine of core `c`. -/
def queuedSteps (s : State) (c : Nat) : List Step :=
  let k := s.core c
  k.arrays.toList.flatMap (fun a => a.queue) ++ k.sieve.queue ++ (match k.sieve.cur with | some x => [x.step] | none => []) ++ k.levain.queue ++ k.vec.queue ++
    k.peel.stats ++ k.peel.updates

/-- The place of a step in its tray's sequence: queued steps by the order in which they were queued, then those still to be queued. -/
def stepRank (s : State) (t k : Nat) (p : PStep) : Nat :=
  match (queuedSteps s (coreOf t)).find? (fun x => x.tray == t && x.seq == k && x.tile == p.tile && x.k == p.k) with
  | some x => x.ord
  | none => s.ord + (match s.inst t k with | some i => i.steps.findIdx (fun q => q == p) | none => 0)

/-- The first step that a fill serves. -/
def fillStep (s : State) (x : Stream) (f : Fill) : Option PStep := argMin (stepRank s x.tray x.seq) f.users

/-- The rank of a fill. -/
def fillRank (s : State) (x : Stream) (f : Fill) : Nat := match fillStep s x f with | some p => stepRank s x.tray x.seq p | none => 0

/-! ### Mutual blocking (R363, R364) -/

/-- A blocked stream: it has a block to fill, and every slot is full. -/
def Stream.blocked (x : Stream) : Bool := !x.fill.isEmpty && x.slots.all (fun y => y.state == .full)

/-- The step that holds a stream's oldest full slot. -/
def heldStep (s : State) (x : Stream) : Option PStep :=
  (argMin (fillRank s x) (x.slots.filterMap (fun y => if y.state = .full then y.fill else none))).bind (fillStep s x)

/-- The streams of core `c` that block stream `x`: those whose credit its held step lacks. -/
def blockersOf (s : State) (c : Nat) (x : Stream) : List Nat :=
  match heldStep s x with
  | none => []
  | some p =>
    ((s.core c).proofer.streams.zipIdx.filter (fun q =>
      let y := q.1
      y.tray == x.tray && y.seq == x.seq && y.role != x.role && blockOwed s y.tray y.seq y.role p)).map (fun q => q.2)

/-- Streams reached from some by following blockers that are blocked themselves. -/
def reachStreams (s : State) (c : Nat) : Nat → List Nat → List Nat
  | 0, l => l
  | n + 1, l =>
    let more := l.flatMap (fun j => match (s.core c).proofer.streams[j]? with
      | some x => if x.blocked then blockersOf s c x else []
      | none => [])
    reachStreams s c n (l ++ (more.filter (fun j => !l.contains j)).eraseDups)

/-- What a stream reaches in one step or more. -/
def reachesFrom (s : State) (c j : Nat) : List Nat :=
  match (s.core c).proofer.streams[j]? with
  | some x => if x.blocked then reachStreams s c 8 (blockersOf s c x) else []
  | none => []

/-- The closed chain of streams that block each other in which stream `j` lies; none when it lies in no chain. -/
def chainOf (s : State) (c j : Nat) : List Nat :=
  if (reachesFrom s c j).contains j then
    (List.range (s.core c).proofer.streams.length).filter (fun k => k == j || ((reachesFrom s c j).contains k && (reachesFrom s c k).contains j))
  else []

/-- The cycle in which a chain's window began: that of the last credit or freed slot of its streams (R364). -/
def windowStart (s : State) (c : Nat) (l : List Nat) : Nat := l.foldl (fun n j => max n (((s.core c).proofer.streams[j]?).elim 0 (fun x => x.event))) 0

/-- The chain of streams that block each other whose window expires first: the one whose window began first (R364). -/
def blockChain (s : State) (c : Nat) : List Nat :=
  (argMin (windowStart s c) (((List.range (s.core c).proofer.streams.length).map (chainOf s c)).filter (fun l => !l.isEmpty))).getD []

/-- Whether stream `a` is younger than stream `b` (R365): it started later, or in the same cycle has the higher tray, then the higher instruction, then the later role. -/
def youngerThan (a b : Stream) : Bool :=
  if a.started ≠ b.started then decide (b.started < a.started)
  else if a.tray ≠ b.tray then decide (b.tray < a.tray)
  else if a.seq ≠ b.seq then decide (b.seq < a.seq)
  else decide (b.role.code < a.role.code)

/-- The youngest of some streams. -/
def youngestOf (s : State) (c : Nat) (l : List Nat) : Option Nat :=
  let get := fun (j : Nat) => (s.core c).proofer.streams[j]?
  l.foldl (fun best j => match best with
    | none => some j
    | some b => match get j, get b with
      | some x, some y => if youngerThan x y then some j else best
      | _, _ => best) none

/-! ### Spill areas (R400 to R404) -/

/-- A spill area of a core, 0 in the scratch window, 1 in LPDDR5X, 2 in host memory: its first physical address and its 64 KiB chunks; an area not wholly within its region
has none (R400). -/
def spillArea (s : State) (c area : Nat) : Nat × Nat :=
  match area with
  | 0 =>
    let b := s.fld (Csr.memSpillLar c) 11 0
    let n := s.fld (Csr.memSpillLar c) 28 16
    (scratchBase + 65536 * b, if s.larder.ways * 1024 < b + n then 0 else n)
  | 1 =>
    let b := s.fld (Csr.memSpillLpd c) 31 0
    let n := s.fld (Csr.memSpillLpd c) 49 32
    (65536 * b, if usableEnd s < 65536 * (b + n) then 0 else n)
  | _ =>
    let b := s.fld (Csr.memSpillHost c) 30 0
    let n := s.fld (Csr.memSpillHost c) 49 32
    (2 ^ 47 + 65536 * b, if s.fld Csr.hcSize 46 0 < 65536 * (b + n) then 0 else n)

/-- Room for `bytes` in an area: the first chunk of a free run. -/
def spillRoom (s : State) (c area bytes : Nat) : Option Nat :=
  let used := ((s.core c).proofer.spillAlloc.filter (fun a => a.area == area)).map (fun a => (a.first, a.chunks))
  firstRun used (cdiv bytes 65536) (spillArea s c area).2

/-- A spill request takes room at an area: a tile's Couche entries lie there from now on, or the copies of a stream's withdrawn slots begin (R253, R365, R401). -/
def placeSpill (s : State) (c : Nat) (w : SpillWait) (first : Nat) : State :=
  let addr := (spillArea s c w.area).1 + 65536 * first
  let a : SpillAlloc := { tray := w.tray, seq := w.seq, role := w.role, order := 0, tile := w.tile, couche := w.couche, area := w.area, first := first, chunks := cdiv w.bytes 65536 }
  let s1 := s.modProofer c (fun p => { p with spillAlloc := p.spillAlloc ++ [a] })
  if w.couche then
    let pl : CouchePlace := ⟨addr, 65536 * cdiv w.bytes 65536, true⟩
    s1.modInst w.tray w.seq (fun i =>
      if i.mn = .fred then { i with red := { i.red with couche := some pl } } else { i with tiles := modAt i.tiles w.tile (fun o => { o with couche := some pl }) })
  else
    match (s1.core c).proofer.streams.find? (fun x => x.tray == w.tray && x.seq == w.seq && x.role == w.role) with
    | none => s1
    | some x =>
      let out := x.slots.zipIdx.filterMap (fun q => if q.1.state = .leaving then some q.2 else none)
      out.zipIdx.foldl (fun s' q => (List.range (cdiv x.slotBytes 65536)).foldl (fun s2 p =>
        addRequest s2 w.tray w.seq 1 (.spill w.role q.1 p (addr + q.2 * x.slotBytes))) s') s1

/-- The spill requests that are the first of their area, in the order in which they came (R401). -/
def firstSpills (s : State) (c : Nat) : List SpillWait :=
  let all := (s.core c).proofer.spillWait
  (List.range 3).filterMap (fun a => all.find? (fun w => w.area == a))

/-- Waiting spill requests take room where they wait, in the order in which they reached their area: behind one that finds none the others wait too (R401). `fuel` bounds the requests. -/
def serveSpillsFrom : Nat → State → Nat → State
  | 0, s, _ => s
  | fuel + 1, s, c =>
    match (firstSpills s c).findSome? (fun w => (spillRoom s c w.area w.bytes).map (fun f => (w, f))) with
    | some (w, f) => serveSpillsFrom fuel (placeSpill (s.modProofer c (fun p => { p with spillWait := dropFirst (fun x => x == w) p.spillWait })) c w f) c
    | none => s

/-- Waiting spill requests take room where they wait (R401). -/
def serveSpills (s : State) (c : Nat) : State := serveSpillsFrom (s.core c).proofer.spillWait.length s c

/-- A spill request presented to the Larder spill area (R401). -/
def askSpill (s : State) (c : Nat) (w : SpillWait) : State := serveSpills (s.modProofer c (fun p => { p with spillWait := p.spillWait ++ [w] })) c

/-! ### The events -/

/-- Whether a running step has begun to read a block of an instruction (R365): a pass that takes it, the Sieve's current step, or a step whose groups are at work. -/
def begunRead (s : State) (c : Nat) (y : Stream) (f : Fill) : Bool :=
  let k := s.core c
  let steps := k.arrays.toList.flatMap (fun a => a.pass.toList.filterMap (fun p => p.map (fun q => q.step))) ++ k.sieve.cur.toList.map (fun x => x.step) ++
    k.sieve.groups.flatMap (fun g => g.work.map (fun x => x.step))
  steps.any (fun x => x.tray == y.tray && x.seq == y.seq && f.users.contains ⟨x.tile, x.k⟩)

/-- Whether a full slot is withdrawn from a stream that is spilled (R365). -/
def withdrawn (s : State) (c : Nat) (y : Stream) (z : StreamSlot) : Bool := z.state == .full && !z.fill.any (begunRead s c y)

/-- The window of a chain of streams that block each other expires, the one that began first (R364 to R366): the youngest stream's credits are withdrawn and its full slots go to the spill area; it then fills the block
that the older stream's step waits for, its spilled blocks and the blocks after them, in sequence order. -/
def deadlockExpire (c : Nat) (s : State) : State :=
  let chain := blockChain s c
  match youngestOf s c chain with
  | none => s
  | some j =>
    match (s.core c).proofer.streams[j]? with
    | none => s
    | some y =>
      let older := chain.filter (fun k => k != j && (match (s.core c).proofer.streams[k]? with
        | some x => (blockersOf s c x).contains j
        | none => false))
      let step := (older.head?.bind (fun k => (s.core c).proofer.streams[k]?)).bind (heldStep s)
      let need := step.bind (fun p => y.fill.find? (fun f => f.users.contains p))
      let out := y.slots.filterMap (fun z => if withdrawn s c y z then z.fill else none)
      let s1 := (modStream s c j (fun x =>
        { x with slots := x.slots.map (fun z => if withdrawn s c y z then { z with state := .leaving } else z)
                 next := need, fill := sortBy (fillRank s y) (out ++ x.fill.filter (fun f => some f != need)) })).count (Csr.prfSpillBreaks c) 1
      askSpill s1 c { tray := y.tray, seq := y.seq, role := y.role, slot := 0, tile := 0, couche := false,
                      bytes := y.slotBytes * (y.slots.filter (withdrawn s c y)).length, area := 0 }

/-- Spill space of a stream is free once its data has been read back (R403). -/
def freeSpill (s : State) (c : Nat) (x : Stream) : State :=
  if x.spilled.isEmpty && x.slots.all (fun z => z.state != .leaving) then
    serveSpills (s.modProofer c (fun p => { p with spillAlloc := p.spillAlloc.filter (fun a => !(a.tray == x.tray && a.seq == x.seq && a.role == x.role && !a.couche)) })) c
  else s

/-- Whether a copy request of a slot, part of a spill, is still to be made or under way. -/
def copyOpen (s : State) (c : Nat) (r : ChReq) (role : Role) (slot : Nat) : Bool :=
  let h := s.channel c 1
  (h.active.toList.filterMap (fun o => o) ++ h.waiting).any (fun x => x.id != r.id && x.tray == r.tray && x.seq == r.seq && (match x.work with
    | .spill q n _ _ => q == role && n == slot
    | _ => false))

/-- The copy of a slot that a spill sends out completes: the slot is free, and its block can be filled again (R365, R366). -/
def slotCopied (s : State) (c : Nat) (r : ChReq) (role : Role) (slot addr : Nat) : State :=
  match (s.core c).proofer.streams.findIdx? (fun x => x.tray == r.tray && x.seq == r.seq && x.role == role) with
  | none => s
  | some n =>
    match (s.core c).proofer.streams[n]? with
    | none => s
    | some x =>
      match (x.slots.getD slot ⟨.free, none⟩).fill with
      | none => s
      | some f =>
        if copyOpen s c r role slot then s
        else
          pumpStreams (modStream s c n (fun y => { y with slots := setAt y.slots slot ⟨.free, none⟩, event := s.now, spilled := y.spilled ++ [⟨f, addr, x.slotBytes⟩] })) c

/-- The oldest spill request that waits at an area but the last moves to the next one (R401). -/
def spillMoves (c : Nat) (s0 : State) : State :=
  let s := serveSpills s0 c
  match (s.core c).proofer.spillWait.find? (fun w => decide (w.area < 2)) with
  | none => s
  | some w =>
    let s1 := s.modProofer c (fun p => { p with spillWait := dropFirst (fun x => x == w) p.spillWait ++ [{ w with area := w.area + 1 }] })
    serveSpills (s1.count (if w.area = 0 then Csr.memSplToLpd c else Csr.memSplToHost c) 1) c

/-- A spill request waits out its window at the host spill area: its tray's task ends (R402). -/
def spillGivesUp (c : Nat) (s0 : State) : State :=
  let s := serveSpills s0 c
  match (s.core c).proofer.spillWait.find? (fun w => w.area == 2) with
  | none => s
  | some w => faultInst (s.count (Csr.memSplExhausted c) 1) w.tray w.seq FC.spillExhausted 0 0

/-- A tile waits out its window for Couche space: its entries go to the Larder spill area (R253). -/
def coucheOverflows (c : Nat) (s : State) : State :=
  match (s.core c).peel.coucheWait with
  | [] => s
  | (t, k, n) :: rest =>
    let s1 := s.modPeel c (fun p => { p with coucheWait := rest })
    match s1.inst t k with
    | none => s1
    | some i =>
      let o := i.tile n
      let bytes := if i.mn = .fred then 8 * i.red.slice else 8 * o.rows * o.cols
      let asked := (s1.core c).proofer.spillWait.any (fun w => w.tray == t && w.seq == k && w.couche && w.tile == n)
      let none' := !asked && (if i.mn = .fred then i.red.couche.isNone else (i.tile n).couche.isNone)
      if none' then
        askSpill (s1.count (Csr.peelCoucheOvf c) 1) c { tray := t, seq := k, role := .dst, slot := 0, tile := n, couche := true, bytes := bytes, area := 0 }
      else s1

/-- PRF_DEADLOCK_EXPIRE (R365). -/
def execPrfDeadlockExpire (c : Nat) (s : State) : Host.Outcome State Fault Refusal := onCore c (deadlockExpire c) s

/-- SPILL_AREA_MOVE (R401). -/
def execSpillAreaMove (c : Nat) (s : State) : Host.Outcome State Fault Refusal := onCore c (spillMoves c) s

/-- SPILL_EXHAUSTED (R402). -/
def execSpillExhausted (c : Nat) (s : State) : Host.Outcome State Fault Refusal := onCore c (spillGivesUp c) s

/-- COUCHE_OVERFLOW (R253). -/
def execCoucheOverflow (c : Nat) (s : State) : Host.Outcome State Fault Refusal := onCore c (coucheOverflows c) s

end Sys2Proof.Machine
end

