-- ==== Sys2Proof/Machine/Xfer.lean ====
section
/-! DEFINITION. The Proofer's channels at work: read-ahead, the issue of transfer descriptors with their walks and line requests, and what a descriptor does as it completes
(R82, R86, R332 to R351, R356, R379, R382, R386, R405, R438, R479, R491, R497). -/

namespace Sys2Proof.Machine

/-! ### What a request touches -/

/-- A run of bytes that a transfer reads or writes: in the core's Bench, at a virtual address, or at a physical one. -/
inductive Span where
  | bench (off len : Nat) (write : Bool)
  | virt (va : Int) (len : Nat) (write : Bool)
  | phys (pa len : Nat) (write : Bool)
  deriving DecidableEq, Repr

/-- Where a virtual address lies now, for a core, without a walk being made. -/
def peekPa (s : State) (c space : Nat) (va : Int) : Option Nat :=
  if va < 0 ∨ 2 ^ 48 ≤ va then none
  else
    let a := va.toNat
    match tFind 8 (s.core c).tcache space a with
    | some (_, e) => some (e.frame + a % 2 ^ e.size)
    | none => match walk s space a with
      | .leaf size frame _ _ => some (frame + a % 2 ^ size)
      | .stop _ => none

/-- Bytes of a tensor as they stand, zeros where a page is not present. -/
def peekBytes (s : State) (c space : Nat) (d : Desc) (off n : Nat) : List Byte :=
  if d.bench then benchPeek s c ((d.base + off) % 0x10000000).toNat n
  else (pagePieces (d.base + off) n).flatMap (fun p => match peekPa s c space p.1 with
    | some pa => s.bytes pa p.2
    | none => List.replicate p.2 0)

/-- A run of a tensor's bytes. -/
def tensorSpan (d : Desc) (off n : Nat) (write : Bool) : Span :=
  if d.bench then .bench ((d.base + off) % 0x10000000).toNat n write else .virt (d.base + off) n write

/-- A crumb's place in its crumb area, and the length that the Proofer reads (R337). -/
def peekCrumb (s : State) (c space : Nat) (d : Desc) (r seg : Nat) : Nat × Nat :=
  let e := leNat (peekBytes s c space d (4 * (r * d.segs + seg)) 4)
  let h := leNat (peekBytes s c space d (d.crumbArea + 8 * e) 8)
  (8 * e, clampN 8 d.crumbBound (nbf h 63 32 + (if d.fm.isMx then 8 else 0) + roundUp (cdiv (nbf h 8 0 * d.fm.bits) 8) 8))

/-- What a row, or a part of a row, of a tensor occupies; for crumb rows the source's places decide (R345). -/
def rowSpans (s : State) (c space : Nat) (src d : Desc) (sr r byte0 bytes : Nat) (write : Bool) : List Span :=
  if d.comp = 1 then
    (List.range bytes).flatMap (fun k =>
      let p := peekCrumb s c space src sr (byte0 + k)
      [tensorSpan d (4 * (r * d.segs + byte0 + k)) 4 write, tensorSpan d (d.crumbArea + p.1) p.2 write])
  else [tensorSpan d (runOffset d r + byte0) bytes write]

/-- What a unit of a row of a block occupies. -/
def unitSpans (s : State) (c space : Nat) (d : Desc) (b : Blk) (iu : Nat × Nat) : List Span :=
  let r := b.rows.getD iu.1 0
  if d.plain then
    let (lo, hi) := runPiece d b iu.2
    if hi ≤ lo then [] else [tensorSpan d (d.rowOffset r + lo * d.fm.bits / 8) (cdiv ((hi - lo) * d.fm.bits) 8) false]
  else
    let u := b.col0 / 256 + iu.2
    if b.lim ≤ 256 * u then []
    else if d.comp = 0 then [tensorSpan d (d.rowOffset r + u * d.superBytes) d.superBytes false]
    else if d.comp = 1 then rowSpans s c space d d r r u 1 false
    else [tensorSpan d ((r * d.segs + u) * d.nmSegBytes) d.nmSegBytes false]

/-- The rows of a transfer descriptor with the rows that an index tensor names, as it stands. -/
def xdRows (s : State) (c space : Nat) (i : Inst) (x : Xd) : List (Nat × Nat) :=
  let ix := fun (e : Nat) =>
    let v := if (i.desc .idx).elems ≤ 16384 then i.idx.getD e 0 else sext 32 (leNat (peekBytes s c space (i.desc .idx) (idxOffset (i.desc .idx) e) 4))
    (idxRow i v).getD 0
  match i.mn with
  | .gather => x.rows.map (fun p => (ix p.1, p.2))
  | .scatter => x.rows.map (fun p => (p.1, ix p.2))
  | _ => x.rows

/-- The source and destination runs of an XFER's descriptor. -/
def xdSpans (s : State) (c space : Nat) (i : Inst) (x : Xd) (store : Bool) : List Span :=
  let src := i.desc .srca
  let dst := i.desc .dst
  let pooled := i.mn = .gather ∧ W.pool i.word ≠ 0
  let units := if pooled ∧ src.comp = 1 then src.segs else x.bytes
  (xdRows s c space i x).flatMap (fun p =>
    rowSpans s c space src src p.1 p.1 x.byte0 units false ++
      (if !store then [] else if pooled then [tensorSpan dst (dst.rowOffset p.2) (dst.rowBytesOf dst.cols) true]
        else rowSpans s c space src dst p.1 p.2 x.byte0 x.bytes true))

/-- The runs of elements `e0` to `e0 + n − 1` of a dense tensor. -/
def elemSpans (d : Desc) (e0 n : Nat) : List Span :=
  let cols := max 1 d.cols
  (List.range ((e0 + n - 1) / cols + 1 - e0 / cols)).map (fun k =>
    let r := e0 / cols + k
    let lo := if k = 0 then e0 % cols else 0
    let hi := min cols (e0 + n - r * cols)
    if d.fm.isMx then tensorSpan d (d.rowOffset r + lo / 256 * d.superBytes) ((cdiv hi 256 - lo / 256) * d.superBytes) false
    else tensorSpan d (d.rowOffset r + lo * d.fm.bits / 8) (cdiv ((hi - lo) * d.fm.bits) 8) false)

/-- The stream that a fill request serves. -/
def streamOf (s : State) (c : Nat) (r : ChReq) (role : Role) : Option (Nat × Stream) :=
  ((s.core c).proofer.streams.zipIdx.find? (fun p => p.1.tray == r.tray && p.1.seq == r.seq && p.1.role == role)).map (fun p => (p.2, p.1))

/-- The block that a slot holds or receives. -/
def Stream.slotFill (x : Stream) (slot : Nat) : Option Fill := (x.slots.getD slot ⟨.free, none⟩).fill

/-- The place and length of a part of a spilled slot's copy within the slot (R333). -/
def copyPart (x : Stream) (part : Nat) : Nat × Nat := (65536 * part, min 65536 (x.slotBytes - 65536 * part))

/-- What a request's transfer descriptor reads and writes. -/
def spansOf (s : State) (c : Nat) (r : ChReq) : List Span :=
  let sp := spaceOf s r.tray
  match r.work with
  | .fill role slot part =>
    match streamOf s c r role with
    | none => []
    | some (_, st) =>
      match st.slotFill slot, streamDesc s st with
      | some f, some d =>
        match st.spilled.find? (fun x => x.fill.blk == f.blk) with
        | some x =>
          let (o, n) := copyPart st part
          [.phys (x.addr + o) n false, .bench (st.base + slot * st.slotBytes + o) n true]
        | none => ((fillParts d f.blk).getD part []).flatMap (unitSpans s c sp d f.blk)
      | _, _ => []
  | .spill role slot part addr =>
    match streamOf s c r role with
    | some (_, st) =>
      let (o, n) := copyPart st part
      [.bench (st.base + slot * st.slotBytes + o) n false, .phys (addr + o) n true]
    | none => []
  | .commit _ _ ws => ws.map (fun w => if w.1 then .bench (w.2.1 % 0x10000000).toNat w.2.2.length true else .virt w.2.1 w.2.2.length true)
  | .xfer n =>
    match s.inst r.tray r.seq with
    | some i => (i.xds[n]?.map (fun x => xdSpans s c sp i x true)).getD []
    | none => []
  | .pref n =>
    match s.inst r.tray r.seq with
    | some i => (i.xds[n]?.map (fun x => xdSpans s c sp i x false)).getD []
    | none => []
  | .index part =>
    match s.inst r.tray r.seq with
    | some i => elemSpans (i.desc .idx) (16384 * part) (min 16384 ((i.desc .idx).elems - 16384 * part))
    | none => []
  | .fab n =>
    match s.inst r.tray r.seq with
    | none => []
    | some i =>
      match i.msgs[n]?.bind (fun m => i.xds[m.xd]?) with
      | none => []
      | some x =>
        if i.mn = .remote then xdSpans s c sp i x false
        else if (i.desc .srca).comp ≠ 0 then
          let d := i.desc .srca
          (List.range x.bytes).flatMap (fun k =>
            let u := segOfElem d (W.srcOff i.word) + x.byte0 + k
            if d.comp = 1 then rowSpans s c sp d d 0 0 u 1 false else [tensorSpan d (u * d.nmSegBytes) d.nmSegBytes false])
        else (x.rows.flatMap (fun p => elemSpans (i.desc .srca) (W.srcOff i.word + p.1) p.2))

/-- The virtual runs of a request, page by page, with whether they write. -/
def virtPieces (l : List Span) : List (Int × Nat × Bool) :=
  l.flatMap (fun x => match x with
    | .virt va n w => (pagePieces va n).map (fun p => (p.1, p.2, w))
    | _ => [])

/-! ### Line requests (R352, R386, R388, R405) -/

/-- The class of the line fills of a channel's request (R352). -/
def classOfReq (ch : Nat) (write : Bool) : Nat := if ch = 2 then 2 else if write ∨ ch = 1 then 1 else 0

/-- The requests of a physical run: lines for the Larder's ports, which are the channel's transactions, or rows of a Bench window. -/
def pushPhys (s : State) (c ch : Nat) (r : ChReq) (pa n : Nat) (write : Bool) : State :=
  let mk := fun (req line : Nat) (fill : Bool) =>
    ({ requester := req, beats := 1, owner := r.id + 1, tray := some r.tray, line := line, write := write, fill := fill, cls := classOfReq ch write } : ArbReq)
  match regionOf s pa with
  | .lpddr | .scratch =>
    let whole := wholeUnits 7 pa n
    s.modChannel c ch (fun h => { h with txns := h.txns ++ (touchedUnits 7 pa n).map (fun l => (slicePort s l, mk (4 * c + ch) l (!(write && whole.contains l)))) })
  | .bench k =>
    (touchedUnits 6 pa n).foldl (fun s' l => pushArb s' (b2n write) (512 * k + benchBank (64 * l % 0x10000000)) (mk (if write then 4 else 9) l false)) s
  | _ => s

/-- The requests of a run in the core's own Bench. -/
def pushBench (s : State) (c : Nat) (r : ChReq) (off n : Nat) (write : Bool) : State :=
  (touchedUnits 6 off n).foldl (fun s' l =>
    pushArb s' (b2n write) (512 * c + benchBank (64 * l % 0x10000000))
      { requester := if write then 3 else 8, beats := 1, owner := r.id + 1, tray := some r.tray, line := benchAddr c (64 * l) / 64, write := write, fill := false, cls := 0 }) s

/-- Every access of a request whose pages are translated presented downstream: lines, rows, and accesses to host memory (R382, R405, R438). -/
def pushSpans (s : State) (c ch : Nat) (r : ChReq) : State :=
  let sp := spaceOf s r.tray
  let host := fun (s' : State) (pa n : Nat) (write : Bool) =>
    let off := pa - 2 ^ 47
    if write ∨ !hostServes s' off n then s'
    else
      let q := s'.fld Csr.hcCtl 9 0
      let qp := Tab.get Qp.empty s'.host.qps q
      let x : HostReq := { core := c, req := r.id, write := false, off := off, len := n, tries := 0 }
      let s1 := s'.setHost { s'.host with qps := Tab.put Qp.empty s'.host.qps q { qp with reqs := qp.reqs ++ [x] } }
      if (qp.reqs.filter (fun y => !y.write)).length < 16 then
        sendQp s1 q (.rdmaRead q (s1.fld Csr.hcRkey 31 0) ((s1.reg Csr.hcVa).toNat + off) n)
      else s1
  let phys := fun (s' : State) (pa n : Nat) (w : Bool) => if pa.testBit 47 then host s' pa n w else pushPhys s' c ch r pa n w
  (spansOf s c r).foldl (fun s' x => match x with
    | .bench off n w => pushBench s' c r off n w
    | .phys pa n w => phys s' pa n w
    | .virt va n w => (pagePieces va n).foldl (fun s2 p => match peekPa s2 c sp p.1 with
      | some pa => phys s2 pa p.2 w
      | none => s2) s') s

/-! ### Choosing a request (R334, R341, R355, R356) -/

/-- The operands whose credits a step still waits for. -/
def owedBy (s : State) (c t k : Nat) (p : PStep) : List Role :=
  ((s.core c).proofer.streams.filter (fun y => y.tray == t && y.seq == k && blockOwed s t k y.role p)).map (fun y => y.role)

/-- Whether a step waits for nothing but one late block (R355). -/
def lateStep (s : State) (c : Nat) (x : Step) : Bool := (owedBy s c x.tray x.seq ⟨x.tile, x.k⟩).length == 1

/-- Whether a request fills a late block: a step that needs it is queued and holds every other credit (R355). -/
def lateReq (s : State) (c : Nat) (r : ChReq) : Bool :=
  match r.work with
  | .fill role slot _ =>
    match streamOf s c r role with
    | none => false
    | some (_, st) =>
      match st.slotFill slot with
      | none => false
      | some f =>
        f.users.any (fun p =>
          (queuedSteps s c).any (fun q => q.tray == r.tray && q.seq == r.seq && q.tile == p.tile && q.k == p.k) && owedBy s c r.tray r.seq p == [role])
  | _ => false

/-- The 128-byte transactions that a channel may have in flight: read, write, remote, gather (R332). -/
def txnLimit (ch : Nat) : Nat := match ch with | 0 => 2048 | 1 => 1024 | _ => 512

/-- Transactions of a channel in flight: its requests at the Larder's ports and at the controllers. -/
def inFlight (s : State) (c ch : Nat) : Nat :=
  let owners := ((s.channel c ch).active.toList.filterMap id).map (fun r => r.id + 1)
  owners.foldl (fun n o => n + (ownedAt s 2 o).length + (ownedAt s 3 o).length) 0

/-- A channel's transactions put in flight while its limit leaves room, those of late blocks ahead of other read-ahead (R332, R356). -/
def pumpTxns (s : State) (c ch : Nat) : State :=
  let h := s.channel c ch
  if h.txns.isEmpty then s
  else
    let late := (h.active.toList.filterMap id).filter (fun r => lateReq s c r)
    let first := fun (p : Nat × ArbReq) => late.any (fun r => r.id + 1 == p.2.owner)
    let order := h.txns.filter first ++ h.txns.filter (fun p => !first p)
    let room := txnLimit ch - inFlight s c ch
    (order.take room).foldl (fun s' p => pushArb s' 2 p.1 p.2) (s.modChannel c ch (fun x => { x with txns := order.drop room }))

/-- Every channel's transactions put in flight as far as its limit allows. -/
def pumpAll (s : State) : State := (List.range 16).foldl (fun s' k => pumpTxns s' (k / 4) (k % 4)) s

/-- Whether a request belongs to a stream that a translation miss holds until its instruction issues (R341). -/
def heldReq (s : State) (c : Nat) (r : ChReq) : Bool :=
  match r.work with
  | .fill role _ _ => match streamOf s c r role with
    | some (_, st) => st.held
    | none => false
  | _ => false

/-- PRF_TRAY_DESC as it acts (R369). -/
def trayDescs (s : State) (c : Nat) : Nat := clampN 1 8 (s.fld (Csr.prfCtl c) 15 12)

/-- The request that a channel's free descriptor goes to (R334). -/
def chooseRequest (s : State) (c : Nat) (h : Channel) : Option ChReq :=
  let active := h.active.toList.filterMap id
  let ready := h.waiting.filter (fun r => !heldReq s c r)
  let held := fun (t : Nat) => (active.filter (fun r => r.tray == t)).length
  let may := ready.filter (fun r => decide (held r.tray < trayDescs s c) || ready.all (fun y => y.tray == r.tray))
  argMin (fun r => (if r.urgent || lateReq s c r then 0 else 2 ^ 64) * 64 + r.since * 32 + r.tray) may

/-- The pages of a request that the core's cache does not translate: address and access, one for each page. -/
def missingPages (s : State) (c : Nat) (r : ChReq) : List (Nat × Bool) :=
  let sp := spaceOf s r.tray
  (virtPieces (spansOf s c r)).foldl (fun (acc : List (Nat × Bool)) p =>
    if p.1 < 0 ∨ 2 ^ 48 ≤ p.1 then acc
    else
      let a := p.1.toNat
      if (tFind 8 (s.core c).tcache sp a).isSome ∨ acc.any (fun q => q.1 / 65536 == a / 65536) then acc else acc ++ [(a, p.2.2)]) []

/-- A channel issues a free descriptor (R333, R334): its pages are walked first, then its accesses go downstream. -/
def issueDesc (c ch : Nat) (s : State) : State :=
  let h := s.channel c ch
  match h.active.toList.findIdx? Option.isNone, chooseRequest s c h with
  | some slot, some r =>
    let pages := missingPages s c r
    let s1 := wrote (s.modChannel c ch (fun x =>
      { x with waiting := x.waiting.filter (fun y => y.id != r.id), active := Vec.put x.active slot (some { r with issued := true, walks := pages.length }) })) 8 c r.tray
    if pages.isEmpty then pumpTxns (pushSpans s1 c ch r) c ch
    else
      pages.foldl (fun s' p =>
        let w : Walk := { id := s'.mmu.nextWalk, walker := c, space := spaceOf s r.tray, va := p.1, write := p.2, req := r.id }
        (s'.setMmu { s'.mmu with walks := s'.mmu.walks ++ [w], nextWalk := s'.mmu.nextWalk + 1 })) s1
  | _, _ => s

/-- A command of channel `ch` of core `c`. -/
def onChannel (c ch : Nat) (f : State → State) (s : State) : Host.Outcome State Fault Refusal :=
  if ch < 4 then onCore c f s else .fault (.noSuchUnit "channel" ch)

/-- TRANSFER_DESC_ISSUE (R334). -/
def execTransferDescIssue (c ch : Nat) (s : State) : Host.Outcome State Fault Refusal := onChannel c ch (issueDesc c ch) s

/-! ### Ends of descriptors -/

/-- A channel without a request, with its walks and line requests. -/
def dropRequest (s : State) (c ch id : Nat) : State :=
  let s1 := s.modChannel c ch (Channel.keep (fun y => y.id != id))
  s1.setMmu { s1.mmu with walks := s1.mmu.walks.filter (fun w => w.req != id) }

/-- A transfer of an instruction that has not issued fails: its stream is held and the request waits for the issue (R341). -/
def holdStream (s : State) (c ch : Nat) (r : ChReq) (n : Nat) : State :=
  let s1 := modStream (dropRequest s c ch r.id) c n (fun x => { x with held := true })
  s1.modChannel c ch (fun x => { x with waiting := { r with issued := false, walks := 0 } :: x.waiting })

/-- A transfer fails (R341, R342, R357): what is read ahead is held, an XFER.PREF's transfer is dropped, any other fault takes the task. -/
def xferFails (s : State) (c ch : Nat) (r : ChReq) (e : MemErr) : State :=
  match r.work with
  | .fill role _ _ =>
    match streamOf s c r role with
    | some (n, st) => if st.issued then memFault s r.tray r.seq e else holdStream s c ch r n
    | none => dropRequest s c ch r.id
  | .pref n =>
    ((dropRequest s c ch r.id).modInst r.tray r.seq (fun i => { i with xds := modAt i.xds n (fun x => { x with done := true }) })).count (Csr.prfPrefDrops c) 1
  | _ => memFault s r.tray r.seq e

/-- Whether a fill is of the A of a K-masked product, whose columns may be more than its slot of K_t columns holds. DESIGN CHOICE, log entry 53: the slot's bytes are then undetermined, and its
reader takes A from the tensor (R180, R317, R318). -/
def looseFill (s : State) (r : ChReq) (role : Role) : Bool := role == .srca && (s.inst r.tray r.seq).any (fun i => i.mask.any (fun m => m.kMasked))

/-- The data of a fill brought into its slot (R318, R336, R366). -/
def moveFill (s : State) (c : Nat) (r : ChReq) (ch slot part n : Nat) (st : Stream) : State × Except MemErr Unit :=
  match st.slotFill slot, streamDesc s st with
  | some f, some d =>
    let base := st.base + slot * st.slotBytes
    match st.spilled.find? (fun x => x.fill.blk == f.blk) with
    | some x =>
      let (o, len) := copyPart st part
      match physCheck s (x.addr + o) len false with
      | some (code, line) => (s, .error ⟨code, 0, line⟩)
      | none =>
        let s1 := benchWrite (larderTouch s c (x.addr + o) len false) c (base + o) (s.bytes (x.addr + o) len)
        let last := match (st.slots.getD slot ⟨.free, none⟩).state with
          | .filling k => decide (k ≤ 1)
          | _ => true
        let s2 := if last then modStream s1 c n (fun y => { y with spilled := dropFirst (fun z => z == x) y.spilled }) else s1
        (s2.count (Csr.prfBytesRd c) len, .ok ())
    | none =>
      let us := (fillParts d f.blk).getD part []
      let loose := looseFill s r st.role
      let s0 := if loose && part == 0 then blurBytes s (benchAddr c base) (min st.slotBytes (0x10000000 - base % 0x10000000)) else s
      match forEach (fillUnit c (spaceOf s r.tray) d f.blk base (!loose)) us s0 with
      | (s1, .error e) => (s1, .error e)
      | (s1, .ok _) =>
        if ch = 3 ∧ us.isEmpty then (s1, .ok ())
        else if ch = 3 then
          ((s1.setReg (Csr.prfBytesRd c) (s.reg (Csr.prfBytesRd c))).count (Csr.prfGatherRows c) (us.filter (fun p => p.2 == 0)).length, .ok ())
        else (s1, .ok ())
  | _, _ => (s, .ok ())

/-- A part of a block has arrived: with the last one, the slot holds its last byte (R336), and is free at once when every step that it was to serve was skipped (R338). -/
def partArrived (s : State) (c n slot : Nat) : State :=
  modStream s c n (fun x => { x with slots := modAt x.slots slot (fun z => match z.state with
    | .filling k =>
      if 1 < k then { z with state := .filling (k - 1) }
      else if z.fill.any (fun f => f.users.isEmpty) then ⟨.free, none⟩
      else { z with state := .written }
    | _ => z) })

/-- Bytes that a descriptor of whole rows moves. -/
def xdBytes (s : State) (c space : Nat) (src : Desc) (x : Xd) : Nat :=
  if src.comp = 1 then
    x.rows.foldl (fun a p => (List.range x.bytes).foldl (fun b k => b + 4 + (peekCrumb s c space src p.1 (x.byte0 + k)).2) a) 0
  else x.rows.length * x.bytes

/-- An XFER's descriptor moved its bytes: they are counted, and the descriptor is done (R344, R371). -/
def xdMoved (s : State) (c : Nat) (i : Inst) (t n : Nat) (x : Xd) : State :=
  let rows := if x.byte0 = 0 then x.rows.length else 0
  let s1 := match i.mn with
    | .ld => s.count (Csr.prfBytesRd c) (xdBytes s c (spaceOf s t) (i.desc .srca) x)
    | .st => s.count (Csr.prfBytesWr c) (xdBytes s c (spaceOf s t) (i.desc .srca) x)
    | _ => s.count (Csr.prfGatherRows c) rows
  s1.modInst t i.seq (fun y => { y with xds := modAt y.xds n (fun z => { z with done := true }) })

/-- A part of the index tensor of an XFER.GATHER or XFER.SCATTER read and checked, every element of it; with the last part its rows may move (R102, R347, R348). -/
def indexRead (s : State) (c t : Nat) (i : Inst) (part : Nat) : State × Except MemErr Unit :=
  match readIdx s c (spaceOf s t) (i.desc .idx) (16384 * part) (min 16384 ((i.desc .idx).elems - 16384 * part)) with
  | (s1, .error e) => (s1, .error e)
  | (s1, .ok l) =>
    if l.any (fun x => (idxRow i x).isNone) then (s1, .error ⟨FC.sparseIndexRange, 0, 0⟩)
    else
      let keep := decide ((i.desc .idx).elems ≤ 16384)
      let s2 := (s1.count (Csr.prfBytesRd c) (4 * l.length)).modInst t i.seq (fun x =>
        { x with idxRead := x.idxRead ++ [part], idxChecked := decide (idxParts i ≤ x.idxRead.length + 1), idx := if keep then l else [] })
      (match s2.inst t i.seq with
        | some j => if j.idxChecked then requestTransfers s2 t j else s2
        | none => s2, .ok ())

/-- A message that carries part of an instruction's data (R346, R477, R479, R497). -/
def fabMessage (s : State) (t : Nat) (i : Inst) (m : FabMsg) (x : Xd) : State × Except MemErr StnMsg :=
  let c := coreOf t
  let sp := spaceOf s t
  let src := i.desc .srca
  let dst := i.desc .dst
  let p := x.rows.headD (0, 0)
  let w := i.word
  let head (type : Nat) : StnMsg :=
    { StnMsg.blank type with rsig := i.mn.isFab && W.rsigEn w, rtok := if i.mn.isFab && W.rsigEn w then W.rtok w else 0,
                             rtray := if i.mn.isFab && W.rsigEn w then W.rtray w else 0, src := ownAddr s, dst := m.dst }
  let at' (type : Nat) (a rb st : Nat) (bs : List Byte) : StnMsg := { head type with addr := a, rowBytes := rb, stride := st, data := bs }
  if i.mn = .fred then
    andThen (redData s c sp i p.1 p.2) (fun s1 bs =>
      (s1, .ok { head 3 with pair := redPaired i, rseq := i.red.rseq, member := i.red.own, fmt := src.fmt, first := p.1 - m.member * i.red.slice,
                             rowBytes := bs.length, data := bs }))
  else
    let data := if i.mn = .remote then (if src.comp = 1 then remoteCrumb s c sp src dst x m.part else remoteRows s c sp src dst x)
      else if src.comp ≠ 0 then fabStored s c sp src dst (segOfElem src (W.srcOff w) + x.byte0) x.byte0 x.bytes m.part
      else fabElems s c sp src dst (W.srcOff w) p.1 p.2
    andThen data (fun s1 q => (s1, .ok (at' (if i.mn = .fmcast then 2 else 1) q.1 q.2.1 q.2.2.1 q.2.2.2)))

/-- What became of a message: sent or added, waiting for space, or stopped. -/
inductive SendResult where
  | sent | waits | stopped
  deriving DecidableEq, Repr

/-- Message `n` of an instruction has its number. -/
def msgSent (s : State) (t k n id : Nat) : State :=
  s.modInst t k (fun i => { i with msgs := modAt i.msgs n (fun x => { x with state := .sent id }) })

/-- A message leaves, or a contribution to the module's own slice is added (R479, R491, R496, R497). -/
def sendFab (s : State) (t : Nat) (i : Inst) (n : Nat) (m : FabMsg) (msg : StnMsg) : State × SendResult :=
  if i.mn = .fred ∧ m.member = i.red.own then
    let d := i.desc .srca
    let len := min (redLength d msg.pair msg.data.length) (i.red.slice - msg.first)
    match redAdd s t i.seq i.red.own msg.first (redValues d msg.pair len msg.data) with
    | (s1, .added) => (s1.modInst t i.seq (fun x => { x with msgs := modAt x.msgs n (fun y => { y with state := .acked }) }), .sent)
    | (s1, .waits) => (s1, .waits)
    | (s1, .stopped) => (s1, .stopped)
  else if s.staon.leaving ∨ s.staon.left then (faultInst s t i.seq FC.fabUnreachable 0 0, .stopped)
  else if i.mn = .fmcast then
    let s0 := makeRoom 257 s 1
    if 256 < retentionUsed s0 + 1 then (s0, .waits)
    else
      let (s1, id) := takeMsgid s0
      let g := W.mgroup i.word
      let x : StnMsg := { msg with msgid := id }
      let owed := (groupMembers s1 g).filter (fun a => a != ownAddr s1)
      let s2 := (msgSent s1 t i.seq n id).modStaon (fun b =>
        { b with kept := b.kept ++ [{ msg := x, owner := some (t, i.seq, n), group := g, units := 1, owed := owed, laggards := [], skew := false }]
                 sent := b.sent ++ [⟨x, some (t, i.seq, n), 0, none, false, none⟩] })
      (settleKept ((groupPorts s2 g).foldl (fun s' p => portSend s' p x) s2) id, .sent)
  else
    let port := if i.mn = .fred then (List.range 12).find? (fun p => portUsable s p && (sport s p).peerAddr == m.dst) else routePort s m.dst
    match port with
    | none => (faultInst s t i.seq FC.fabUnreachable 0 0, .stopped)
    | some p =>
      let (s1, id) := takeMsgid s
      (launch (msgSent s1 t i.seq n id) { msg with msgid := id } (some (t, i.seq, n)) none p, .sent)

/-! ### Hosted pages (R382, R438) -/

/-- Whether accesses to host memory of a request are outstanding. -/
def hostWaits (s : State) (c id : Nat) : Bool := s.host.qps.any (fun p => p.2.reqs.any (fun x => x.core == c && x.req == id))

/-- The writes that a descriptor has made to host memory go out on the host connection. -/
def sendHostWrites (s : State) (c : Nat) (r : ChReq) (spans : List Span) : State :=
  let sp := spaceOf s r.tray
  let out := fun (s' : State) (pa n : Nat) =>
    if pa.testBit 47 then
      let q := s'.fld Csr.hcCtl 9 0
      let qp := Tab.get Qp.empty s'.host.qps q
      let x : HostReq := { core := c, req := r.id, write := true, off := pa - 2 ^ 47, len := n, tries := 0 }
      hostWriteOut (s'.setHost { s'.host with qps := Tab.put Qp.empty s'.host.qps q { qp with reqs := qp.reqs ++ [x] } }) pa (s'.bytes pa n)
    else s'
  spans.foldl (fun s' x => match x with
    | .virt va n true => (pagePieces va n).foldl (fun s2 p => match peekPa s2 c sp p.1 with
      | some pa => out s2 pa p.2
      | none => s2) s'
    | .phys pa n true => out s' pa n
    | _ => s') s

/-- A descriptor ends unless it waits for host memory. -/
def endDesc (s : State) (c ch : Nat) (r : ChReq) (spans : List Span) (ends : State → State) : State :=
  let s1 := sendHostWrites s c r spans
  if hostWaits s1 c r.id then
    s1.modChannel c ch (fun x =>
      { x with
        waiting := x.waiting.map (fun y => if y.id = r.id then { y with moved := true } else y)
        active := x.active.map (fun o => o.map (fun y => if y.id = r.id then { y with moved := true } else y)) })
  else dropRequest (ends s1) c ch r.id

/-! ### TRANSFER_DESC_DONE (R333) -/

/-- A part of a spilled slot copied to its place in a spill area (R365, R382). -/
def copySlot (s : State) (c : Nat) (r : ChReq) (role : Role) (slot part addr : Nat) : State × Except MemErr Unit :=
  match streamOf s c r role with
  | none => (s, .ok ())
  | some (_, x) =>
    let (o, n) := copyPart x part
    match physCheck s (addr + o) n true with
    | some (code, at') => (s, .error ⟨code, 0, at'⟩)
    | none => ((s.write (addr + o) (benchPeek s c (x.base + slot * x.slotBytes + o) n)).count (Csr.prfBytesWr c) n, .ok ())

/-- Whether the order of an instruction's own transfers lets this one complete: commits of a tile and the rows of a scatter take place in ascending order (R234, R349). -/
def inOrder (s : State) (r : ChReq) : Bool :=
  match s.inst r.tray r.seq with
  | none => true
  | some i =>
    match r.work with
    | .commit n b _ => (i.tile n).committed == b
    | .xfer n => i.mn != .scatter || (i.xds.take n).all (fun x => x.done)
    | _ => true

/-- What a commit's end does: the last byte of a LEV.PRED's bitmap ends its work (R175), any other commit is a row block's. -/
def commitDone (s : State) (c : Nat) (r : ChReq) : State :=
  match r.work with
  | .commit n b ws =>
    let s1 := s.count (Csr.prfBytesWr c) (ws.foldl (fun a w => a + w.2.2.length) 0)
    if (s.inst r.tray r.seq).any (fun i => i.mn == .pred) then s1.modInst r.tray r.seq (fun x => { x with done := true }) else blockCommitted s1 r.tray r.seq n b
  | _ => s

/-- The bytes of a descriptor move, and it ends (R333, R336, R344 to R351); its lines have passed the Larder. -/
def moveDesc (s : State) (c ch : Nat) (r : ChReq) : State :=
  let spans := spansOf s c r
  let settle := fun (s' : State) => quiet s s'
  let fails := fun (s' : State) (e : MemErr) => xferFails (settle s') c ch r e
  match r.work with
  | .fill role slot part =>
    match streamOf s c r role with
    | none => dropRequest s c ch r.id
    | some (n, st) =>
      match moveFill s c r ch slot part n st with
      | (s1, .error e) => fails s1 e
      | (s1, .ok _) =>
        let s2 := partArrived (dropRequest (settle s1) c ch r.id) c n slot
        match (s2.core c).proofer.streams[n]? with
        | some y => if st.spilled.isEmpty then s2 else freeSpill s2 c y
        | none => s2
  | .spill role slot part addr =>
    match copySlot s c r role slot part addr with
    | (s1, .error e) => fails s1 e
    | (s1, .ok _) => endDesc s1 c ch r spans (fun s' => slotCopied s' c r role slot addr)
  | work =>
    match s.inst r.tray r.seq with
    | none => dropRequest s c ch r.id
    | some i =>
      match work with
      | .commit _ _ ws =>
        let benchWs := ws.filter (fun w => w.1)
        match commitWrites s c (spaceOf s r.tray) false ((ws.filter (fun w => !w.1)).map (fun w => (w.2.1, w.2.2))) with
        | (s1, .error e) => fails s1 e
        | (s1, .ok _) =>
          let s2 := benchWs.foldl (fun s' w => benchWrite s' c (w.2.1 % 0x10000000).toNat w.2.2) (settle s1)
          endDesc s2 c ch r spans (fun s' => commitDone s' c r)
      | .xfer n =>
        match i.xds[n]? with
        | none => dropRequest s c ch r.id
        | some x =>
          match moveXd s r.tray i x with
          | (s1, .error e) => if e.code = FC.sparseIndexRange then memFault (dropRequest (settle s1) c ch r.id) r.tray r.seq e else fails s1 e
          | (s1, .ok fl) =>
            if fl.sat ∧ W.satTrap i.word then faultInst s r.tray r.seq FC.numericSatTrap 0 0
            else endDesc ((settle s1).modInst r.tray r.seq (fun y => { y with flags := y.flags.or fl })) c ch r spans (fun s' => xdMoved s' c i r.tray n x)
      | .pref n =>
        match translateAll s c (spaceOf s r.tray) false ((virtPieces spans).map (fun p => (p.1, p.2.1))) with
        | (s1, .error e) => fails s1 e
        | (s1, .ok _) =>
          (dropRequest s1 c ch r.id).modInst r.tray r.seq (fun y => { y with xds := modAt y.xds n (fun z => { z with done := true }) })
      | .index part =>
        match indexRead s c r.tray i part with
        | (s1, .error e) => fails s1 e
        | (s1, .ok _) => dropRequest (settle s1) c ch r.id
      | .fab n =>
        match i.msgs[n]? with
        | none => dropRequest s c ch r.id
        | some m =>
          match fabMessage s r.tray i m (i.xds.getD m.xd { rows := [], byte0 := 0, bytes := 0 }) with
          | (s1, .error e) => fails s1 e
          | (s1, .ok msg) =>
            match sendFab (settle s1) r.tray i n m msg with
            | (s2, .sent) => dropRequest s2 c ch r.id
            | (s2, .waits) => s2
            | (s2, .stopped) => s2
      | _ => s

/-- The last transaction of a descriptor completes (R333): its walks have ended, what is still to be granted is served first, and an access to host memory has to be answered. -/
def descDone (c ch slot : Nat) (s00 : State) : State :=
  match Vec.get (s00.channel c ch).active slot none with
  | none => s00
  | some r =>
    let s := readTray s00 8 r.tray 0
    if !(s.tray r.tray).live ∨ s.mmu.walks.any (fun w => w.req == r.id) then s
    else if hostWaits s c r.id ∨ !inOrder s r then s
    else if r.moved then
      let s1 := match r.work, s.inst r.tray r.seq with
        | .commit _ _ _, _ => commitDone s c r
        | .spill role slot _ addr, _ => slotCopied s c r role slot addr
        | .xfer n, some i =>
          match i.xds[n]? with
          | some x => xdMoved s c i r.tray n x
          | none => s
        | _, _ => s
      dropRequest s1 c ch r.id
    else
      pumpTxns (moveDesc (serveOwned s c ch (r.id + 1)) c ch r) c ch

/-- The copy of a spilled slot completes (R365): every part of the core's oldest copy, with its descriptors; a copy in host memory once the host has acknowledged it (R382). -/
def spillCopied (c : Nat) (s : State) : State :=
  let h := s.channel c 1
  let all := (h.active.toList.filterMap (fun o => o) ++ h.waiting).filter (fun r => match r.work with | .spill _ _ _ _ => true | _ => false)
  match argMin (fun r => r.id) all with
  | none => s
  | some r0 =>
    match r0.work with
    | .spill role slot _ _ =>
      let parts := all.filter (fun r => r.tray == r0.tray && r.seq == r0.seq && (match r.work with | .spill q n _ _ => q == role && n == slot | _ => false))
      parts.foldl (fun s' r => match r.work with
        | .spill _ _ part addr =>
          if hostWaits s' c r.id then s'
          else if r.moved then dropRequest (slotCopied s' c r role slot addr) c 1 r.id
          else match copySlot s' c r role slot part addr with
            | (s1, .error e) => memFault s1 r.tray r.seq e
            | (s1, .ok _) => endDesc (serveOwned s1 c 1 (r.id + 1)) c 1 r (spansOf s1 c r) (fun s2 => slotCopied s2 c r role slot addr)
        | _ => s') s
    | _ => s

/-- SPILL_COPY_DONE (R365). -/
def execSpillCopyDone (c : Nat) (s : State) : Host.Outcome State Fault Refusal := onCore c (spillCopied c) s

/-- TRANSFER_DESC_DONE (R333). -/
def execTransferDescDone (c ch slot : Nat) (s : State) : Host.Outcome State Fault Refusal :=
  if slot < 8 then onChannel c ch (descDone c ch slot) s else .fault (.noSuchUnit "descriptor" slot)

/-! ### Credits (R336) -/

/-- The credit of a slot whose last byte has been written is posted (R336). -/
def slotFilled (c stream slot : Nat) (s : State) : State :=
  modStream s c stream (fun x => { x with slots := modAt x.slots slot (fun z => if z.state = .written then { z with state := .full } else z), event := s.now })

/-- STREAM_SLOT_FILLED (R336). -/
def execStreamSlotFilled (c stream slot : Nat) (s : State) : Host.Outcome State Fault Refusal := onCore c (slotFilled c stream slot) s

/-! ### Walks (R377, R379) -/

/-- Where a channel request lies: its core, its channel and itself. -/
def requestOf (s : State) (id : Nat) : Option (Nat × Nat × ChReq) :=
  (List.range 4).findSome? (fun c => (List.range 4).findSome? (fun ch =>
    ((s.channel c ch).active.toList.filterMap (fun o => o)).findSome? (fun r => if r.id = id then some (c, ch, r) else none)))

/-- Whether a walk is in flight, not waiting for its walker: a core's walker has up to 16 pages under way, the module's 8 (R379). -/
def walkRuns (s : State) (x : Walk) : Bool :=
  let pages := ((s.mmu.walks.filter (fun y => y.walker == x.walker)).map (fun y => (y.space, y.va / 65536))).eraseDups
  (pages.take (if x.walker < 4 then 16 else 8)).contains (x.space, x.va / 65536)

/-- The order in which the requests of walks that end together are told: trays in ascending order, and in a tray the lower instruction index first (R359). -/
def walkRank (s : State) (y : Walk) : Nat :=
  match requestOf s y.req with
  | some (_, _, r) => r.tray * 2 ^ 64 + r.seq
  | none => 0

/-- A walk ends: the walks that wait for the same page end with it, each by its own access; each request goes on when it has no walk left, or fails (R341, R357, R359, R377, R379). -/
def walkDone (w : Nat) (s : State) : State :=
  match s.mmu.walks.find? (fun x => x.id == w) with
  | none => s
  | some x =>
    if !walkRuns s x then s
    else
    let (s1, res) := if (tFind (tBits x.walker) (tCacheOf s x.walker) x.space x.va).isSome then (s, .ok 0) else walkAndFill s x.walker x.space x.va false
    let size := match tFind (tBits x.walker) (tCacheOf s1 x.walker) x.space x.va with
      | some (_, e) => e.size
      | none => 16
    let same := fun (y : Walk) => y.walker == x.walker && y.space == x.space && y.va >>> size == x.va >>> size
    let ended := sortBy (walkRank s1) (s1.mmu.walks.filter same)
    let wr := (tFind (tBits x.walker) (tCacheOf s1 x.walker) x.space x.va).any (fun e => e.2.wr)
    let s2 := s1.setMmu { s1.mmu with walks := s1.mmu.walks.filter (fun y => !same y) }
    ended.foldl (fun s' y =>
      match requestOf s' y.req with
      | none => s'
      | some (c, ch, r) =>
        match res with
        | .bad code => xferFails s' c ch r ⟨code, y.va, 0⟩
        | .ok _ =>
          if y.write && !wr then xferFails s' c ch r ⟨FC.memPerm, y.va, 0⟩
          else
          let s3 := s'.modChannel c ch (fun h => { h with active := h.active.map (fun o => o.map (fun q => if q.id = r.id then { q with walks := q.walks - 1 } else q)) })
          if r.walks ≤ 1 then pumpTxns (pushSpans s3 c ch r) c ch else s3) s2

/-- TRANSLATION_WALK_DONE (R377). -/
def execTranslationWalkDone (w : Nat) (s : State) : Host.Outcome State Fault Refusal := .next (walkDone w s)

/-! ### Read-ahead (R339 to R341) -/

/-- The settings that an instruction read ahead will have, from those of the tray and the words read before it. -/
def settingsAt (s : State) (t : Nat) (before : List Ahead) : Settings :=
  before.foldl (fun st a => match mnOfWord a.word with
    | some mn => settingsAfter mn (batchWord (s.tray t).kind a.word) st
    | none => st) (s.tray t).set

/-- The count that a word's wait needs of each counter. -/
def wordCount (w : IWord) : Nat := if mnOfWord w = some .wait then bf w 79 64 else 1

/-- A tray's tokens as an instruction read ahead will find them: without those that the waits of the instructions before it, not issued yet, will take (R31, R119, R340). -/
def tokensAhead (s : State) (t k : Nat) : Vector Nat 8 :=
  let r := s.tray t
  (r.ahead.filter (fun b => decide (r.nextSeq ≤ b.seq) && decide (b.seq < k))).foldl (fun tk b =>
    let w := batchWord r.kind b.word
    takeTokens tk (W.wait w) (wordCount w)) r.tokens

/-- The neurons of the arming that an instruction read ahead will find: of the last LEV.PRED before it that no LEV.AUD follows (R176). -/
def armedAhead (s : State) (t : Nat) (before : List Ahead) : Option Nat :=
  let r := s.tray t
  let now := match r.arming with
    | none => none
    | some p => match (s.core (coreOf t)).levain.maps.find? (fun m => m.tray == t && m.seq == p) with
      | some m => some m.neurons
      | none => (s.inst t p).map (fun i => W.m i.word)
  before.foldl (fun o b =>
    let w := batchWord r.kind b.word
    match mnOfWord w with
    | some .pred => some (W.m w)
    | some .aud => none
    | _ => o) now

/-- NIN of the program that a VXP.RUN read ahead will find in its slot, while no VXP.LDP of the slot is still to complete (R269, R335). -/
def ninAhead (s : State) (t : Nat) (before : List Ahead) (i : Inst) : Nat :=
  let loads := before.any (fun b =>
    let w := batchWord (s.tray t).kind b.word
    mnOfWord w == some .ldp && W.prog w == W.prog i.word)
  if loads then 0 else (ninOf s t i).getD 0

/-- Whether the read-ahead passes an instruction it has read: no FENCE, a met token wait, no CTRL.END, a word that is an instruction (R340). -/
def aheadPasses (s : State) (t : Nat) (a : Ahead) : Bool :=
  let w := batchWord (s.tray t).kind a.word
  match mnOfWord w with
  | none => false
  | some mn =>
    W.gen w == 1 && !W.fence w && mn != .endTask && tokensMet (tokensAhead s t a.seq) (W.wait w) (wordCount w) &&
      (headerFault s t mn w).isNone && !(mn == .loop && loopBad a.index w (s.tray t).raLoops)

/-- The streams of an instruction read ahead start, when its checks pass (R335, R340); those of a masked product wait for its bitmap, which decides its blocks. -/
def startAhead (s : State) (t : Nat) (before : List Ahead) (a : Ahead) : State :=
  let c := coreOf t
  let w := batchWord (s.tray t).kind a.word
  match mnOfWord w with
  | none => s
  | some mn =>
    let st := settingsAt s t before
    let unissued := before.filter (fun b => decide ((s.tray t).nextSeq ≤ b.seq))
    let masks := (armedAhead s t unissued).any (fun n => (maskBindOf.bindOf mn w 0 n).isSome)
    if (s.core c).proofer.streams.any (fun x => x.tray == t && x.seq == a.seq) ∨ masks then s
    else
      let i0 := planInst s { newInst { s.tray t with set := st, nextSeq := a.seq, pc := a.index } mn w a.descs with mask := none }
      let i := if mn = .run then { i0 with nin := ninAhead s t unissued i0 } else i0
      if (descsFault s mn w st a.descs).isSome ∨ (step8Fault s t i).isSome ∨ i.zeroShape ∨ !(mn.isProduct || mn.isV || mn == .ldw) ∨ mn = .ldp then s
      else pumpStreams ((streamsOf i none).foldl (fun s' x => startStream s' t a.seq st (i.desc x.1) x false) s) c

/-- The next instruction word and its descriptors read ahead (R339); what cannot be read is left to the issue (R341). -/
def readNext (s : State) (t : Nat) : State × Bool :=
  let r := s.tray t
  if !fetchRoom s t then (s, false)
  else match trayFetch s t r.raPc (r.stream + 32 * r.raPc) 32 with
  | (_, .error _) => (s, false)
  | (s1, .ok bs) =>
    let w0 : IWord := BitVec.ofNat 256 (leNat bs)
    let w := batchWord r.kind w0
    let st := settingsAt s t r.ahead
    let named := match mnOfWord w with
      | some mn => if W.gen w = 1 then namedDescs mn w st.red st.statd else []
      | none => []
    match readDescs s1 t r.raPc st.dtab r.raLoops named with
    | (_, .error _) => (s, false)
    | (s2, .ok ds) =>
      (s2.modTray t (fun x => { x with ahead := x.ahead ++ [{ seq := x.raSeq, index := x.raPc, word := w0, descs := ds }] }), true)

/-- The read-ahead goes past the last instruction that it has read. -/
def aheadMoves (s : State) (t : Nat) (a : Ahead) : State :=
  s.modTray t (fun x =>
    let w := batchWord x.kind a.word
    let (pc', ls) := match mnOfWord w with
      | some mn => advance mn a.index w x.raLoops
      | none => (a.index + 1, x.raLoops)
    { x with raPc := pc', raLoops := ls, raSeq := a.seq + 1 })

/-- Read-ahead from where it stands, until a stopping condition holds (R340). `fuel` bounds the instructions. -/
def readAheadFrom : Nat → State → Nat → State
  | 0, s, _ => s
  | fuel + 1, s, t =>
    let r := s.tray t
    let oldest := match r.insts with
      | i :: _ => i.seq
      | [] => r.nextSeq
    match r.ahead.find? (fun a => a.seq == r.raSeq) with
    | some a =>
      if aheadPasses s t a then readAheadFrom fuel (aheadMoves (startAhead s t (r.ahead.filter (fun b => decide (b.seq < a.seq))) a) t a) t else s
    | none =>
      if oldest + r.snap.lookahead < r.raSeq then s
      else match readNext s t with
        | (s1, true) => readAheadFrom fuel s1 t
        | (s1, false) => s1

/-- The Proofer reads a tray's stream ahead (R339, R340). It starts again at the next instruction to issue when issue has caught up with it. -/
def readAhead (t : Nat) (s : State) : State :=
  let r := s.tray t
  if s.stop.isSome || !(r.state == .run || r.state == .blocked) || r.starting || r.alignFault || r.ending || !(r.insts.all (fun i => i.released)) then s
  else
    let s1 := if r.raSeq < r.nextSeq then s.modTray t (fun x => { x with raPc := x.pc, raLoops := x.loops, raSeq := x.nextSeq }) else s
    readAheadFrom 72 s1 t

/-- READ_AHEAD_ADVANCE (R340). -/
def execReadAheadAdvance (t : Nat) (s : State) : Host.Outcome State Fault Refusal := onTray t (readAhead t) s

/-! ### The end of DRAIN (R82, R86, R87, R451, R457) -/

/-- What a cancelled write may have done: each byte of its destination keeps its old value or takes another, undetermined one (R86). -/
def spoilSpan (s : State) (c space : Nat) (x : Span) : State :=
  match x with
  | .bench off n true => blurBytes s (benchAddr c off) (min n (0x10000000 - off % 0x10000000))
  | .virt va n true => (pagePieces va n).foldl (fun s' p => match peekPa s' c space p.1 with
    | some pa => blurBytes s' pa p.2
    | none => s') s
  | .phys pa n true => blurBytes s pa n
  | _ => s

/-- The destination of a transfer that a fault cancelled; those of its lost streams are their slots, or the spill area. -/
def lostSpans (s : State) (c : Nat) (lost : List Stream) (r : ChReq) : List Span :=
  let st := fun (role : Role) => lost.find? (fun x => x.seq == r.seq && x.role == role)
  match r.work with
  | .fill role slot _ => ((st role).map (fun x => [Span.bench (x.base + slot * x.slotBytes) x.slotBytes true])).getD []
  | .spill role _ part addr => ((st role).map (fun x => [Span.phys (addr + (copyPart x part).1) (copyPart x part).2 true])).getD []
  | _ => spansOf s c r

/-- Every waiting record of a queue written while its ring has room. -/
def writeRecords : Nat → Nat → State → State
  | 0, _, s => s
  | n + 1, q, s => writeRecords n q (writeRecord q s)

/-- Discarding is complete: the task's records are written, and with them the tray enters IDLE (R82, R86, R127, R330, R457). -/
def drainDone (t : Nat) (s : State) : State :=
  let r := s.tray t
  match r.state, r.faulted with
  | .drain, some f =>
    let c := coreOf t
    let sp := spaceOf s t
    let s1 := (r.cancelled.flatMap (lostSpans s c r.lost)).foldl (fun s' x => spoilSpan s' c sp x) s
    let s2 := quickResult s1 t f.code
    let s3 := (endRecs r.kind f).foldl addRec (s2.modTray t (fun x => { x with faulted := none, cancelled := [], lost := [] }))
    writeRecords ((s3.hq r.queue).recs.length) r.queue s3
  | _, _ => s

/-- DRAIN_DONE (R82). -/
def execDrainDone (t : Nat) (s : State) : Host.Outcome State Fault Refusal := onTray t (drainDone t) s

end Sys2Proof.Machine
end

