-- ==== Sys2Proof/Machine/ArbCmd.lean ====
section
/-! DEFINITION. The commands of the arbiters, the Larder's partition, the controllers' scrub and split, and the translation caches' invalidation, with the errors that a read
can find (R353, R354, R380, R387 to R390, R397, R398, R405 to R412, R572 to R578). -/

namespace Sys2Proof.Machine

/-! ### The Hearth's own memory (R578) -/

/-- An error in the Hearth's SRAM: one that cannot be corrected restarts the Hearth, which then logs it. -/
def hearthSram (s : State) (ue : Bool) : State :=
  if !ue then s.count (Csr.errEccCe 14) 1
  else hearthLog (logUnowned (hearthReset (s.count (Csr.errEccUe 14) 1) 2) FC.hearthSramUe 14 0) FC.hearthSramUe 14

/-- An error found by a read of on-chip storage; structures beyond 14 do not exist. -/
def storageError (s : State) (e : ReadErr) : State :=
  match e with
  | .storage 14 ue _ _ => hearthSram s ue
  | .storage i ue t w => if i < 14 then eccEffect s i ue t w else s
  | _ => s

/-! ### Scrub (R398) -/

/-- The next line of a scrub pass, read in a slot that no access takes; its check line first, when that is not cached (R396, R398). -/
def scrubRead (s : State) (ctrl : Nat) (e : ReadErr) : State :=
  match s.scrubbing.find? (fun p => p.1 == ctrl) with
  | none => s
  | some (_, k) =>
    let rest := s.scrubbing.filter (fun p => p.1 != ctrl)
    let line := ctrlLine ctrl k
    let a := arbOf s 3 ctrl
    let g := groupOf line
    if usableEnd s ≤ 128 * line then s.setScrubbing rest
    else if a.checks.all (fun p => p.1 != g) then setArb s { a with checks := fetchCheck g a.checks }
    else scrubLine (setArb (s.setScrubbing (rest ++ [(ctrl, k + 1)])) { a with checks := useCheck g false a.checks }) ctrl line e

/-! ### The Larder's ports (R387, R388) -/

/-- A request's beat at a Larder slice port: the cache access (R352, R388); the set's tags and replacement state are read and written (R572). -/
def larderBeat (s00 : State) (x : ArbReq) : State :=
  let set := larSlice x.line * 0x8000 + larSet x.line
  let s := wrote (readBack s00 2 none set 0) 2 0 set
  match regionOf s (128 * x.line) with
  | .lpddr => larderServe s x
  | _ => s

/-! ### Commands -/

/-- What the cycle that a grant falls in does: the beat that ends its request, or a scrub read in a slot that none takes; and the error found. -/
def grantEffect (s : State) (site inst : Nat) (err : ReadErr) : State :=
  let idle := site == 3 && (arbOf s site inst).heads.isEmpty && (arbOf s site inst).holder.isNone
  match arbCycle s site inst with
  | (s1, some x) =>
    if site = 2 then larderBeat s1 x
    else if site = 3 ∧ !x.write then lpddrRead s1 inst x.requester x.line err
    else s1
  | (s1, none) => if idle then scrubRead s1 inst err else s1

/-- ARB_GRANT (R406): one cycle of an instance; what leaves it makes room for the channels' next transactions (R332). -/
def execArbGrant (site inst : Nat) (err : ReadErr) (s : State) : Host.Outcome State Fault Refusal :=
  if inst < arbInstances site then .next (pumpAll (storageError (grantEffect s site inst err) err)) else .fault (.noSuchUnit "arbiter" (arbKey site inst))

/-- ARB_HEAD_FORCED (R409). -/
def execArbHeadForced (site inst requester : Nat) (s : State) : Host.Outcome State Fault Refusal :=
  if inst < arbInstances site then .next (forceHead s site inst requester) else .fault (.noSuchUnit "arbiter" (arbKey site inst))

/-- SCRUB_PASS_START (R398): with LPC_SCRUB_HOURS 0 there is no scrub. -/
def execScrubPassStart (ctrl : Nat) (s : State) : Host.Outcome State Fault Refusal :=
  if ctrl < 12 then
    .next (if s.trained && s.fld (Csr.lpcScrub ctrl) 7 0 != 0 && !s.scrubbing.any (fun p => p.1 == ctrl) then
        s.setScrubbing (s.scrubbing ++ [(ctrl, 0)]) else s)
  else .fault (.noSuchUnit "controller" ctrl)

/-- LPC_SPLIT_WRITE (R353, R354): W1C acts in any case; counts that do not sum to 16 are ignored. -/
def lpcSplitStore (s : State) (ctrl : Nat) (v : Reg) : State :=
  let off := Csr.lpcSplit ctrl
  let s1 := if bit v 31 then s.setFld off 31 31 0 else s
  if bf v 4 0 + bf v 12 8 + bf v 20 16 = 16 then
    ((s1.setFld off 4 0 (bf v 4 0)).setFld off 12 8 (bf v 12 8)).setFld off 20 16 (bf v 20 16)
  else s1.setFld off 31 31 1

/-- LPC_SPLIT_WRITE (R354). -/
def execLpcSplitWrite (ctrl : Nat) (v : Reg) (s : State) : Host.Outcome State Fault Refusal :=
  if ctrl < 12 then .next (lpcSplitStore s ctrl v) else .fault (.noSuchUnit "controller" ctrl)

/-- LAR_CFG_WRITE (R390, R392): an accepted change starts a repartition; values above 4 act as 4. A repartition still in progress is completed first. -/
def larCfgStore (s : State) (v : Reg) : State :=
  match RegMap.find Csr.larCfg with
  | none => s
  | some (d, _, _) =>
    let old := s.fld Csr.larCfg 2 0
    let s1 := storeWrite s Csr.larCfg d 0 v
    let new := s1.fld Csr.larCfg 2 0
    if new = old then s1
    else
      let s2 := finishRepart s1
      s2.setLarder { s2.larder with repart := some (min 4 new) }

/-- LAR_CFG_WRITE (R390). -/
def execLarCfgWrite (v : Reg) (s : State) : Host.Outcome State Fault Refusal := .next (larCfgStore s v)

/-- LAR_REPART_DONE (R390). -/
def execLarRepartDone (s : State) : Host.Outcome State Fault Refusal := .next (finishRepart s)

/-- Whether an entry lies in the scope of an invalidation: scope, space, bits 47:16 of an address in the page (R380). -/
def inScope (inv : Nat × Nat × Nat) (e : TEntry) : Bool :=
  match inv.1 with
  | 0 => e.space == inv.2.1 && e.page == (inv.2.2 * 65536) >>> e.size
  | 1 => e.space == inv.2.1
  | _ => true

/-- The requests in flight that were translated through an entry in the scope of an invalidation, by number: those whose accesses have gone downstream (R380). -/
def translatedIn (s : State) (inv : Nat × Nat × Nat) : List Nat :=
  (List.range 4).flatMap (fun c => (List.range 4).flatMap (fun ch => ((s.channel c ch).active.toList.filterMap id).flatMap (fun r =>
    let hits := (virtPieces (spansOf s c r)).any (fun p => (tFind 8 (s.core c).tcache (spaceOf s r.tray) p.1.toNat).any (fun q => inScope inv q.2))
    if r.walks == 0 && hits then [r.id] else [])))

/-- MMU_INV_GO (R380, R383). -/
def mmuInvStore (s : State) (v : Reg) : State :=
  if !bit v 63 then s
  else if s.mmu.inv.isSome then s.setFld Csr.mmuStatus 1 1 1
  else if bf v 57 56 = 3 then s
  else
    let inv := (bf v 57 56, bf v 53 48, bf v 47 16)
    s.setMmu { s.mmu with inv := some inv, invWaits := translatedIn s inv }

/-- MMU_INV_GO (R380). -/
def execMmuInvGo (v : Reg) (s : State) : Host.Outcome State Fault Refusal := .next (mmuInvStore s v)

/-- A cache without the entries of an invalidation. -/
def invalidate (inv : Nat × Nat × Nat) (c : TCache) : TCache := { c with entries := c.entries.filter (fun p => !inScope inv p.2) }

/-- MMU_INV_DONE (R380): the entries are gone from every cache; the invalidation goes on while a transaction translated through one of them is in flight. -/
def execMmuInvDone (s : State) : Host.Outcome State Fault Refusal :=
  match s.mmu.inv with
  | none => .next s
  | some inv =>
    let left := s.mmu.invWaits.filter (fun id => (requestOf s id).isSome)
    .next ((s.setCores (s.cores.map (fun k => { k with tcache := invalidate inv k.tcache }))).setMmu
      { s.mmu with cache := invalidate inv s.mmu.cache, inv := if left.isEmpty then none else some inv, invWaits := left })

end Sys2Proof.Machine
end

