-- ==== Sys2Proof/Machine/Arrays.lean ====
section
/-! DEFINITION. The matrix arrays: filling and launching weight tiles, resident tags, and the injection of row groups (R189 to R221). -/

namespace Sys2Proof.Machine

/-- An operation of array `a` of core `c`: the module has no other; a fused-off array takes no part (R220). -/
def onArray (c a : Nat) (f : State → State) (s : State) : Host.Outcome State Fault Refusal :=
  if 4 ≤ c then .fault (.noSuchUnit "core" c)
  else if 2 ≤ a then .fault (.noSuchUnit "array" a)
  else if arrayEnabled s c a then .next (f s)
  else .next s

/-! ### Keys and sizes (R200, R205, R212, R217) -/

/-- What names the weight tile of a queued step. -/
def queuedKey (s : State) (x : Step) : Option WKey :=
  (s.inst x.tray x.seq).map (fun i => if x.kind = .loadWeights then ldwKey s x.tray i else stepKey s x.tray i (gridNow s x.tray i) ⟨x.tile, x.k⟩)

/-- Sub-arrays of a PACK mode (R212). -/
def subsOf (mode : Nat) : Nat := match mode with | 0 => 1 | 1 => 4 | _ => 16

/-- Bytes that a tile takes in the load buffer: its stored values, with scales and metadata (R200, R201, R217). -/
def tileBytes (d : Desc) (structured : Bool) (rows cols : Nat) : Nat :=
  rows * (if structured then cdiv cols 256 * d.nmSegBytes else cdiv (cols * d.fm.bits) 8 + (if d.fm.isMx then cdiv cols 32 else 0))

/-- Whether array `a` and the power of its step are there (R220, R515). -/
def arrayPowered (s : State) (c a : Nat) : Bool := allOn s (engDoms c (.array a) .array)

/-! ### Filling (R200, R207, R219) -/

/-- The tile of a key that waits in the load buffer or in shadows. -/
def bufAt (x : MatArray) (key : WKey) : Option WTile := x.buf.find? (fun w => w.key.serves key && !w.swapped)

/-- The sub-array that an MXM.LDW loads into (R207): in full mode the array; in a packed one the lowest whose tag is empty or the tray's own and in whose shadows no tile waits,
the lowest of the tray's own when every such one holds a waiting tile, and else the idle one whose tag has gone longest without use. -/
def ldwSub (x : MatArray) (tray mode : Nat) : Option Nat :=
  let subs := List.range (subsOf mode)
  let tag := fun (u : Nat) => if x.pack = mode then Vec.get x.resident u none else none
  let waits := fun (u : Nat) => x.buf.any (fun w => !w.swapped && w.sub == some u && w.key.pack == mode)
  let mine := subs.filter (fun u => match tag u with | none => true | some w => w.key.tray == tray)
  match mine.find? (fun u => !waits u) with
  | some u => some u
  | none =>
    match mine.head? with
    | some u => some u
    | none => argMin (fun u => match tag u with | some w => w.lastUse | none => 0) (subs.filter (fun u => (Vec.get x.pass u none).isNone && !waits u))

/-- A queued step is done with the array, and leaves its queue. -/
def leaveQueue (s : State) (c a : Nat) (x : Step) : State := s.modArray c a (fun y => { y with queue := y.queue.filter (fun z => z.ord != x.ord) })

/-- An MXM.LDW's tile is in the load buffer: the instruction is done (R207). -/
def ldwDone (s : State) (c a : Nat) (x : Step) : State :=
  stepEnds ((leaveQueue s c a x).modInst x.tray x.seq (fun i => { i with done := true })) x.tray x.seq

/-- Whether a queued step needs a fill now: it may run, its tile is neither resident nor waiting, and its weight credit is present. -/
def needsFill (s : State) (c a : Nat) (x : Step) : Bool :=
  match queuedKey s x with
  | none => false
  | some key =>
    mayStep s x && (s.array c a).pass.toList.all (fun p => !p.any (fun q => q.step.ord == x.ord)) &&
    (residentAt s x.tray a key).isNone && (bufAt (s.array c a) key).isNone && creditsHeld s x.tray x.seq [.srcb] ⟨x.tile, x.k⟩

/-- The block of B that a step loads (R207, R318). -/
def loadBlock (s : State) (x : Step) (i : Inst) : Blk :=
  if x.kind = .loadWeights then
    let w := i.word
    let off := W.colOff w
    let k := W.k w
    let n := W.nT w
    if W.trans w then { bi := 0, bj := 0, rows := List.range k, col0 := off, cols := max 1 n, lim := off + n }
    else { bi := 0, bj := 0, rows := (List.range n).map (fun j => off + j), col0 := 0, cols := max 1 k, lim := k }
  else blockB i.word (gridNow s x.tray i) (maskSel s x.tray i) (i.tile x.tile).n x.k

/-- The next weight tile fills the load buffer, in queue order; it waits while the buffer lacks room. Its metadata and crumb checks come first (R156, R200, R219).
A tile of MXM.LDW that MXA_REUSE_DIS keeps every step from using is not kept (R206, R207). -/
def fillTile (c a : Nat) (s : State) : State :=
  if !arrayPowered s c a then s
  else
    let y := s.array c a
    match y.queue.find? (fun x => x.kind == .loadWeights && mayStep s x && (queuedKey s x).any (fun key => (residentAt s x.tray a key).isSome || (bufAt y key).isSome)) with
    | some x => ldwDone (releaseBlock s x.tray x.seq .srcb ⟨x.tile, x.k⟩) c a x
    | none =>
      match y.queue.find? (needsFill s c a) with
      | none => s
      | some x =>
        match s.inst x.tray x.seq, queuedKey s x with
        | some i, some key =>
          let d := i.desc .srcb
          let b := loadBlock s x i
          let n := tileBytes d i.structured b.rows.length b.cols
          let sub := if x.kind = .loadWeights then ldwSub y x.tray key.pack else if key.pack = 0 then some 0 else none
          if 524288 < bufUsed y + n ∨ (x.kind = .loadWeights ∧ sub.isNone) then s
          else
            match blockOfB s x.tray i b ⟨x.tile, x.k⟩ with
            | (s1, .error e) => memFault s1 x.tray x.seq e
            | (s1, .ok rows) =>
              let t : WTile := { key := key, ldw := x.kind == .loadWeights, sub := sub, rows := rows, bytes := n, launched := 0, swapped := false, lastUse := s1.ord }
              let kept := x.kind != .loadWeights || reuseOn s x.tray a
              let s2 := (wrote (s1.modArray c a (fun z => { z with buf := if kept then z.buf ++ [t] else z.buf })) 4 c x.tray).tick.count (Csr.mxaWloads c a) 1
              let s3 := releaseBlock s2 x.tray x.seq .srcb ⟨x.tile, x.k⟩
              if x.kind = .loadWeights then ldwDone s3 c a x else s3
        | _, _ => s

/-- WEIGHT_FILL_DONE (R200). -/
def execWeightFillDone (c a : Nat) (s : State) : Host.Outcome State Fault Refusal := onArray c a (fillTile c a) s

/-! ### Launching (R201, R202, R216) -/

/-- The sub-array for a packed tile that has none: the lowest idle one without a waiting tile (R214). -/
def launchSub (x : MatArray) (mode : Nat) : Option Nat :=
  (List.range (subsOf mode)).find? (fun u => (Vec.get x.pass u none).isNone && x.buf.all (fun w => w.swapped || w.sub != some u))

/-- Whether a tile of a mode may use the shadows: the array is in that mode, or is empty with no launched tile of another mode (R216). -/
def modeFree (x : MatArray) (mode : Nat) : Bool :=
  x.pack == mode || (x.pass.toList.all Option.isNone && x.buf.all (fun w => w.key.pack == mode || w.launched == 0))

/-- The tile `n` of the buffer with its sub-array, if its next cube row can launch now: the shadows of that row are free. -/
def launchable (x : MatArray) (n : Nat) : Option WTile :=
  match x.buf[n]? with
  | none => none
  | some w =>
    let older := x.buf.take n
    match (match w.sub with | some u => some u | none => launchSub x w.key.pack) with
    | none => none
    | some u =>
      let free := older.all (fun v => v.sub != some u || (v.swapped && decide (w.launched < v.launched)))
      if w.launched < cubeRows w.key.pack && modeFree x w.key.pack && free then some { w with sub := some u } else none

/-- The oldest tile that can launches its next cube row; a tile that has swapped in and launched whole leaves the buffer (R201, R202). -/
def launchRow (c a : Nat) (s : State) : State :=
  let x := s.array c a
  if !arrayPowered s c a || s.stop.isSome then s
  else
    match (List.range x.buf.length).find? (fun n => (launchable x n).isSome) with
    | none => s
    | some n =>
      match launchable x n with
      | none => s
      | some w =>
        let w1 := { w with launched := w.launched + 1 }
        let buf := if w1.swapped && decide (cubeRows w.key.pack ≤ w1.launched) then x.buf.eraseIdx n else setAt x.buf n w1
        s.modArray c a (fun y => { y with buf := buf })

/-- WEIGHT_LAUNCH (R202). -/
def execWeightLaunch (c a : Nat) (s : State) : Host.Outcome State Fault Refusal := onArray c a (launchRow c a) s

/-! ### Injection (R191 to R197, R203 to R206, R208, R211, R214, R216) -/

/-- Crumbs of one A row of a pass (R194). -/
def rowCrumbs (i : Inst) (g : Grid) (sel : Option (List Nat)) (k : Nat) : Nat :=
  if i.mask.any (fun b => b.kMasked) then (((((sel.getD []).drop (k * g.kt)).take g.kt).map (fun n => n / 256)).eraseDups).length
  else cdiv g.kt 256

/-- Rows of A in a group (R194). -/
def groupRows (i : Inst) (crumbs : Nat) : Nat :=
  let fa := (i.desc .srca).fm
  let fb := (i.desc .srcb).fm
  let small := fun (f : Fmt) => f == .int4 || f == .mxE2m1 || f == .mxE2m3 || f == .mxE3m2
  let wide := fun (f : Fmt) => f == .fp16 || f == .bf16
  let r := if small fa && small fb then 8 else if wide fa || wide fb then 2 else 4
  if (i.desc .srca).comp = 1 then max 1 (min r (4 / max 1 crumbs)) else r

/-- Where a step finds its weights for sub-array `u`: in the face, or whole in the load buffer with no older tile before it in the sub-array's shadows (R205, R208). -/
def weightsAt (s : State) (c a u : Nat) (x : Step) : Option (WTile × Bool) :=
  match queuedKey s x with
  | none => none
  | some key =>
    let y := s.array c a
    match (if reuseOn s x.tray a && y.pack == key.pack then Vec.get y.resident u none else none) with
    | some w => if w.key.serves key then some (w, true) else buffered y key
    | none => buffered y key
where
  /-- The oldest tile for the sub-array's shadows, or one that would be given this sub-array. -/
  buffered (y : MatArray) (key : WKey) : Option (WTile × Bool) :=
    match y.buf.find? (fun w => !w.swapped && w.sub == some u) with
    | some w => if w.key.serves key then some (w, false) else none
    | none =>
      if launchSub y key.pack = some u then (y.buf.find? (fun w => !w.swapped && w.sub.isNone && w.key.serves key)).map (fun w => (w, false)) else none

/-- Whether a step may start on sub-array `u`: it is the next of its tray (R24), it has its inputs, its weights lie in the face or whole in the load buffer (R208), and a change of PACK mode
finds the array empty (R216). -/
def stepReady (s : State) (c a u : Nat) (x : Step) : Bool :=
  let y := s.array c a
  match queuedKey s x, weightsAt s c a u x with
  | some key, some (w, resident) =>
    let waiting := y.queue.filter (fun z => y.pass.toList.all (fun p => !p.any (fun q => q.step.ord == z.ord)))
    x.kind == .array && mayStep s x && waiting.any (fun z => z.ord == x.ord) && firstOfTray waiting x &&
    decide (u < subsOf key.pack) && (resident || decide (0 < w.launched) || modeFree y key.pack) && creditsHeld s x.tray x.seq [.srca] ⟨x.tile, x.k⟩ &&
    (y.pack == key.pack || y.pass.toList.all Option.isNone)
  | _, _ => false

/-- The step that an idle sub-array takes next (R29, R214). -/
def nextArrayStep (s : State) (c a u : Nat) : Option Step :=
  let y := s.array c a
  argMin (stepOrder y.lastTray) (y.queue.filter (stepReady s c a u))

/-- The rows of a group read into the feeder queues (R195, R311): those inside the output tile. -/
def groupRowsOfA (s : State) (t : Nat) (i : Inst) (g : Grid) (sel : Option (List Nat)) (p : PStep) : List Nat → State × Except MemErr RowGroup
  | [] => (s, .ok ⟨[], 0⟩)
  | row :: rest =>
    andThen (rowOfA s t i g sel p row) (fun s1 a =>
      andThen (groupRowsOfA s1 t i g sel p rest) (fun s2 r => (s2, .ok ⟨a.1 :: r.rows, a.2 ||| r.seen⟩)))

/-- The front end fills the feeder queues with the groups of the pass on sub-array `u`, up to their depth of 32 (R195, R213); with the last group the pass is done with its block of A.
`fuel` bounds the groups. -/
def feedPass (c a u : Nat) : Nat → State → State
  | 0, s => s
  | fuel + 1, s =>
    match Vec.get (s.array c a).pass u none with
    | none => s
    | some p =>
      let x := p.step
      match s.inst x.tray x.seq with
      | none => s
      | some i =>
        if 32 ≤ p.feed.length ∨ p.groups ≤ p.fed then s
        else
          let rows := (List.range p.width).map (fun j => p.fed * p.width + j) |>.filter (fun j => decide (j < (i.tile x.tile).rows))
          match groupRowsOfA s x.tray i (gridNow s x.tray i) (maskSel s x.tray i) ⟨x.tile, x.k⟩ rows with
          | (s1, .error e) => memFault s1 x.tray x.seq e
          | (s1, .ok g) =>
            let s2 := s1.modArray c a (fun y => { y with pass := Vec.put y.pass u (some { p with feed := p.feed ++ [g], fed := p.fed + 1 }) })
            feedPass c a u fuel (if p.groups ≤ p.fed + 1 then releaseBlock s2 x.tray x.seq .srca ⟨x.tile, x.k⟩ else s2)

/-- A pass starts: its weights swap in or are used again, and the sub-array takes its axis and the array its mode (R203 to R206, R211, R212, R216). No tag is kept while MXA_REUSE_DIS is 1. -/
def startPass (s : State) (c a u : Nat) (x : Step) (i : Inst) (w : WTile) (resident : Bool) (holes : InjectHoles) : State :=
  let g := gridNow s x.tray i
  let y := s.array c a
  let r := groupRows i (rowCrumbs i g (maskSel s x.tray i) x.k)
  let changed := Vec.get y.axis u false != W.trans i.word || y.pack != w.key.pack
  let tags : Vector (Option WTile) 16 := if y.pack = w.key.pack then y.resident else Vector.replicate 16 none
  let tag := if reuseOn s x.tray a then some { w with swapped := true, lastUse := s.ord } else none
  let left := y.buf.map (fun z => if z.key = w.key ∧ !z.swapped ∧ z.sub = some u then { z with swapped := true } else z)
  let p : Pass := { step := x, weights := w.rows, next := 0, groups := cdiv g.mt r, width := r, fed := 0, feed := [], since := x.ord }
  let s1 := s.modArray c a (fun z =>
    { z with buf := if resident then z.buf else left.filter (fun v => !(v.swapped && decide (cubeRows v.key.pack ≤ v.launched)))
             resident := Vec.put tags u tag
             pass := Vec.put z.pass u (some p)
             axis := Vec.put z.axis u (W.trans i.word)
             lastAxis := W.trans i.word
             pack := w.key.pack
             lastTray := x.tray })
  let s2 := if resident || w.ldw then s1.count (Csr.mxaWreuse c a) 1 else s1
  let s3 := if resident then s2 else s2.count (Csr.mxaRippleWaits c a) holes.ripple
  let s4 := if changed then s3.count (Csr.mxaModeDrains c a) holes.drains else s3
  feedPass c a u 32 (releaseBlock (readTray (readTray s4.tick 13 x.tray 0) 4 x.tray (2 * c + a)) x.tray x.seq .srcb ⟨x.tile, x.k⟩)

/-- The sums of a group over the tile's columns, row by row, and the flags raised. -/
def groupSums (i : Inst) (cols : List (List El)) (inside : Nat) (rows : List (List El)) : List (List (Nat × Nat)) × Flags :=
  let out := rows.map (fun a => cols.map (fun b => passValue i.path (i.desc .srca) (i.desc .srcb) i.structured inside a b))
  (out.map (fun r => r.map (fun v => v.1)),
   Flags.orAll (rows.map (fun a => elFlags (i.desc .srca) (a.take inside)) ++ out.map (fun r => Flags.orAll (r.map (fun v => v.2)))))

/-- A pass has injected its last group: its step is over. -/
def endPass (s : State) (c a u : Nat) (x : Step) : State :=
  stepEnds (leaveQueue (s.modArray c a (fun y => { y with pass := Vec.put y.pass u none })) c a x) x.tray x.seq

/-- The group at the head of the feeder queues of sub-array `u` is injected, its outputs go to the array's port of the Peel, and the queues fill again. Columns of B beyond the step's extent
hold the padding value, whatever a larger tile holds there (R311). -/
def injectGroup (s : State) (c a u : Nat) (p : Pass) : State :=
  let x := p.step
  let t := x.tray
  match s.inst t x.seq, p.feed with
  | some i, group :: rest =>
    let g := gridNow s t i
    let inside := insideK g x.k
    let d := i.desc .srcb
    let cols := (List.range (i.tile x.tile).cols).map (fun n => padTo d g.kt ((colOfB d (W.trans i.word) g.kt p.weights n).take inside))
    let (sums, fl) := groupSums i cols inside group.rows
    let fl1 := if p.next = 0 then fl.or (elFlags d (cols.flatMap (fun b => (b.take inside).filter (fun e => !i.structured || e.stored)))) else fl
    let s2 := (s.count (Csr.mxaGroups c a) 1).modInst t x.seq (fun y => { y with lev := { y.lev with e := y.lev.e ||| group.seen } })
    if fl1.sat ∧ W.satTrap i.word then faultInst s2 t x.seq FC.numericSatTrap 0 0
    else
      let arr : Arrival := { tray := t, seq := x.seq, tile := x.tile, row := p.next * p.width, rows := sums, fromSieve := false, flags := fl1 }
      let s3 := if sums.isEmpty then s2 else wrote (s2.setPort c a (s2.port c a ++ [arr])) 7 c t
      if p.groups ≤ p.next + 1 then endPass s3 c a u x
      else
        let q := { p with next := p.next + 1, feed := rest, since := s3.ord }
        feedPass c a u 32 (s3.modArray c a (fun y => { y with pass := Vec.put y.pass u (some q) })).tick
  | _, _ => s

/-- The sub-arrays that inject in the present cycle, with the output elements of each, once a group of `need` elements on sub-array `u`, waiting since `since`, joins them; none when it must
wait. At most 2,048 elements leave an array in a cycle, and of the groups ready the oldest come first (R215); a group opens the next cycle when its sub-array has injected in this one or
no other group can join this one. -/
def injectRound (s : State) (y : MatArray) (u need since : Nat) : Option (List (Nat × Nat)) :=
  let others := (List.range (subsOf y.pack)).filterMap (fun v => if v = u then none else (Vec.get y.pass v none).map (fun p => (v, p.since, p.width * faceOf y.pack)))
  let fits := fun (done : List (Nat × Nat)) (v age size : Nat) =>
    let older := others.filter (fun o => decide (o.2.1 < age) && o.1 != v && done.all (fun d => d.1 != o.1))
    let mine := if v != u && decide (since < age) && done.all (fun d => d.1 != u) then need else 0
    decide (done.foldl (fun n d => n + d.2) 0 + older.foldl (fun n o => n + o.2.2) 0 + mine + size ≤ 2048)
  let now := if y.cycle = s.now ∧ y.injected.all (fun d => d.1 != u) then y.injected else []
  if fits now u since need then some (now ++ [(u, need)])
  else if others.any (fun o => now.all (fun d => d.1 != o.1) && fits now o.1 o.2.1 o.2.2) then none
  else if fits [] u since need then some [(u, need)]
  else none

/-- Sub-array `u` injects its next row group: of its pass, or the first of the next ready step's, once the first cube row of its weights is launched (R196, R204). Injection is withheld while
the port holds 48 arrivals (R223), the governor lets nothing issue, or older groups take the cycle's outputs (R215). -/
def arrayInject (c a u : Nat) (holes : InjectHoles) (s : State) : State :=
  let y := s.array c a
  if !arrayPowered s c a || s.stop.isSome || !mayIssue s true || decide (48 ≤ (s.port c a).length) then s
  else
    let fed := fun (s' : State) (l : List (Nat × Nat)) =>
      (s'.modArray c a (fun z => { z with cycle := s'.now, injected := l })).count (Csr.mxaFeedBubbles c a) holes.bubbles
    match Vec.get y.pass u none with
    | some p =>
      match injectRound s y u (p.width * faceOf y.pack) p.since with
      | some l => injectGroup (fed s l) c a u p
      | none => s
    | none =>
      match nextArrayStep s c a u with
      | none => s
      | some x =>
        match s.inst x.tray x.seq, weightsAt s c a u x with
        | some i, some (w, res) =>
          let r := groupRows i (rowCrumbs i (gridNow s x.tray i) (maskSel s x.tray i) x.k)
          if !res && (w.launched == 0 || w.sub != some u) then s
          else
            match injectRound s y u (r * faceOf w.key.pack) x.ord with
            | none => s
            | some l =>
              let s1 := startPass (fed s l) c a u x i w res holes
              match Vec.get (s1.array c a).pass u none with
              | some p => injectGroup s1 c a u p
              | none => s1
        | _, _ => s

/-- ARRAY_GROUP_INJECT (R196). -/
def execArrayGroupInject (c a sub : Nat) (holes : InjectHoles) (s : State) : Host.Outcome State Fault Refusal :=
  if 16 ≤ sub then .fault (.noSuchUnit "sub-array" sub) else onArray c a (arrayInject c a sub holes) s

end Sys2Proof.Machine
end

