-- ==== Sys2Proof/Machine/RedIn.lean ====
section
/-! DEFINITION. RED contributions as they arrive: which reduction they belong to, and whether they are added, held, acknowledged or refused (R497). -/

namespace Sys2Proof.Machine

/-- Whether a FAB.RED in flight is the reduction of a contribution: its sender is the member that it names, and the RSEQ agrees. -/
def redMatches (i : Inst) (m : StnMsg) : Bool :=
  i.mn == .fred && i.red.rseq == m.rseq && i.red.members[m.member]? == some m.src && i.red.own != m.member && !i.done

/-- The reduction in flight that a contribution belongs to, with its tray. -/
def redTarget (s : State) (m : StnMsg) : Option (Nat × Inst) :=
  (List.range 32).findSome? (fun t => ((s.tray t).insts.find? (fun i => redMatches i m)).map (fun i => (t, i)))

/-- Whether a contribution waits for a reduction that the module has not issued: some group has its sender at that place and a lower RSEQ, modulo 65,536. -/
def redAhead (s : State) (m : StnMsg) : Bool :=
  (List.range 1024).any (fun g =>
    groupValid s g && (groupMembers s g)[m.member]? == some m.src &&
      (let d := (m.rseq + 65536 - s.fld (Csr.group g) 47 32) % 65536
       decide (1 ≤ d) && decide (d < 32768)))

/-- Whether a contribution fits the receiver's own FAB.RED: its format, and its elements within the slice. -/
def redFits (i : Inst) (m : StnMsg) : Bool :=
  let d := i.desc .srca
  m.fmt == d.fmt && decide (m.first < i.red.slice) && (d.fm.isMx || decide (m.first + redLength d m.pair m.data.length ≤ i.red.slice))

/-- A contribution kept in the collective buffer. -/
def redHold (s : State) (p : Nat) (m : StnMsg) : State :=
  s.modStaon (fun b => { b with early := if b.early.contains (p, m) then b.early else b.early ++ [(p, m)] })

/-- A contribution that leaves the collective buffer. -/
def redLeave (s : State) (p : Nat) (m : StnMsg) : State :=
  freeBuffer (s.modStaon (fun b => { b with early := b.early.filter (fun e => e != (p, m)) })) p m

/-- A contribution of the current reduction (R497): refused when it does not fit, else added whole and acknowledged; it waits while Couche space is missing. -/
def redInto (s : State) (p : Nat) (m : StnMsg) (t : Nat) (i : Inst) : State :=
  if !redFits i m then sendNack (redLeave s p m) m 5
  else
    let d := i.desc .srca
    let n := min (redLength d m.pair m.data.length) (i.red.slice - m.first)
    match redAdd s t i.seq m.member m.first (redValues d m.pair n m.data) with
    | (s1, .added) => sendAck (signalled (redLeave (s1.modStaon (fun b => { b with dedup := b.dedup ++ [(m.src, m.msgid)] })) p m) m) m
    | (s1, .waits) => redHold s1 p m
    | (s1, .stopped) => redLeave s1 p m

/-- Whether a contribution to the same reduction arrived before and is still held: the adds keep the order of arrival (R37). -/
def redBehind (s : State) (p : Nat) (m : StnMsg) (t : Nat) (i : Inst) : Bool :=
  (s.staon.early.takeWhile (fun e => e != (p, m))).any (fun e => redMatches i e.2 && (redTarget s e.2).any (fun x => x.1 == t && x.2.seq == i.seq))

/-- A RED contribution received (R481, R497). -/
def redTake (s : State) (p : Nat) (m : StnMsg) : State :=
  if s.staon.dedup.contains (m.src, m.msgid) then sendAck (redLeave (s.count Csr.stnDups 1) p m) m
  else if 8192 ≤ s.staon.dedup.length then sendNack (redLeave s p m) m 3
  else
    match redTarget s m with
    | some (t, i) => if i.released && !redBehind s p m t i then redInto s p m t i else redHold s p m
    | none => if redAhead s m then redHold s p m else sendAck (redLeave s p m) m

/-- Whether a held contribution can now be taken: its reduction runs on this core, or it is no longer ahead. -/
def redNow (s : State) (c : Nat) (m : StnMsg) : Bool :=
  match redTarget s m with
  | some (t, i) => decide (coreOf t = c) && i.released &&
    (!coucheWaits s c t i.seq 0 || i.red.couche.isSome || (!coucheLeft s c t i.seq 0 && (coucheRoom s c i.red.slice).isSome))
  | none => !redAhead s m

/-- Whether a held contribution can now be taken by a core's port 3. -/
def redReady (s : State) (c : Nat) : Bool := s.staon.early.any (fun e => redNow s c e.2)

/-- The oldest such contribution taken. -/
def redServe (s : State) (c : Nat) : State :=
  match s.staon.early.find? (fun e => redNow s c e.2) with
  | some (p, m) => redTake s p m
  | none => s

end Sys2Proof.Machine
end

