-- ==== Sys2Proof/Machine/Fabric.lean ====
section
/-! DEFINITION. The commands of the Staon fabric but for its management messages: links, flits, messages received, resends, multicast, leaving (R465 to R500). -/

namespace Sys2Proof.Machine

/-- An event of a port in one of some states; in another state it does not happen. -/
def onPort (p : Nat) (ok : State → Bool) (f : State → State) (s : State) : Host.Outcome State Fault Refusal :=
  if p < 12 then .next (if ok s then f s else s) else .fault (.noSuchUnit "Staon port" p)

/-- Whether a port's state is one of some. -/
def portIn (p : Nat) (l : List Nat) (s : State) : Bool := l.contains (sport s p).state

/-! ### Links (R466 to R469) -/

/-- A port that trains from the beginning. -/
def trainAgain (s : State) (p : Nat) : State := modSport s p (fun _ => { SPort.reset with state := 1 })

/-- LINK_TRAINING_TIMEOUT (R466): a lane that has not converged restarts; a link that is not UP in time restarts and is counted. -/
def execLinkTrainingTimeout (port : Nat) (whole : Bool) (s : State) : Host.Outcome State Fault Refusal :=
  onPort port (portIn port [1, 2, 3])
    (fun s' => if whole then trainAgain (s'.count Csr.stnLinkDowns 1) port else if (sport s' port).state = 1 then trainAgain s' port else s') s

/-- FLIT_LOCK (R466). -/
def execFlitLock (port : Nat) (s : State) : Host.Outcome State Fault Refusal :=
  onPort port (portIn port [1]) (fun s' => modSport s' port (fun x => { x with state := 2 })) s

/-- HELLO (R467, R468). -/
def execHello (port : Nat) (h : HelloBody) (s : State) : Host.Outcome State Fault Refusal :=
  onPort port (portIn port [2, 3, 4, 5]) (fun s' => helloStep s' port h) s

/-- HELLO_SEND_TIMER (R466, R468, R469): after flit lock, during bring-up, while UP, and in VERSION_FAIL. -/
def execHelloSendTimer (port : Nat) (s : State) : Host.Outcome State Fault Refusal :=
  onPort port (portIn port [2, 3, 4, 5])
    (fun s' => sendHello (modSport s' port (fun x => { x with state := if x.state = 2 then 3 else x.state })) port) s

/-- HELLO_TIMEOUT (R469). -/
def execHelloTimeout (port : Nat) (s : State) : Host.Outcome State Fault Refusal := onPort port (portIn port [4]) (fun s' => portDown s' port) s

/-- PORT_RETRAIN_TIMER (R469): a port that may train does; its peer's data stays from the last HELLO. -/
def execPortRetrainTimer (port : Nat) (s : State) : Host.Outcome State Fault Refusal :=
  onPort port (portIn port [6]) (fun s' =>
    modSport s' port (fun x =>
      { SPort.reset with state := if portAllowed s' port then 1 else 0, peerAddr := x.peerAddr, peerPort := x.peerPort, peerProv := x.peerProv, peerSn := x.peerSn })) s

/-- FLIT_RECEIVE (R471, R472, R475). -/
def execFlitReceive (port : Nat) (f : Flit) (s : State) : Host.Outcome State Fault Refusal :=
  onPort port (portIn port [4, 5]) (fun s' => flitStep s' port f) s

/-- The sequence number before the oldest unacknowledged flit. -/
def beforeOldest (x : SPort) : Nat := ((x.unacked.head?.map (fun f => f.fseq)).getD 0 + 4095) % 4096

/-- ACKSEQ_STALL_TIMER (R472): a replay while flits are unacknowledged. -/
def execAckseqStallTimer (port : Nat) (s : State) : Host.Outcome State Fault Refusal :=
  onPort port (fun s' => portIn port [4] s' && !(sport s' port).unacked.isEmpty)
    (fun s' => replay s' port (beforeOldest (sport s' port))) s

/-! ### Messages received (R468, R476 to R482, R487 to R490) -/

/-- An armed injection into the receive buffers takes the first word of an arriving message, which is read at once (R577, R581): the state, and whether the message is
dropped as incomplete. -/
def stnBuffer (s : State) : State × Bool :=
  let r := s.reg Csr.errInj
  if bit r 63 && bf r 3 0 == 11 then (eccEffect (s.setFld Csr.errInj 63 63 0) 11 (bit r 8) none 0, bit r 8) else (s, false)

/-- A message of a type that arrives on an UP port: one of another version than its link's is dropped; its buffer is freed when it is done with. -/
def arrives (port type : Nat) (m : StnMsg) (f : State → StnMsg → State) (s : State) : Host.Outcome State Fault Refusal :=
  onPort port (portIn port [4]) (fun s0 =>
    let m' := { m with type := type }
    match stnBuffer s0 with
    | (s', true) => freeBuffer s' port m'
    | (s', false) => if !linkOk s' port m' then dropMsg (freeBuffer s' port m') else f s' m') s

/-- A unicast message: another module's is sent on, this module's is taken. -/
def unicast (port : Nat) (f : State → StnMsg → State) (s : State) (m : StnMsg) : State :=
  if m.dst = ownAddr s then f (freeBuffer s port m) m else forward s port m

/-- MESSAGE_FORWARD (R476, R485, R487 to R489): a transit message; a type that R478 does not name is dropped. -/
def execMessageForward (port : Nat) (m : StnMsg) (s : State) : Host.Outcome State Fault Refusal :=
  arrives port m.type m (fun s' m' =>
    if m'.type = 1 ∨ m'.type = 3 then (if addrBad s' m' true then dropMsg (freeBuffer s' port m') else if m'.dst = ownAddr s' then s' else forward s' port m')
    else if m'.type = 4 ∨ m'.type = 5 ∨ m'.type = 6 then (if m'.dst = ownAddr s' then s' else forward s' port m')
    else if m'.type = 0x10 ∨ m'.type = 0x11 ∨ m'.type = 0x12 then (if m'.route.head? = some 15 then s' else forwardMgt s' port m')
    else if m'.type = 2 ∨ m'.type = 0x13 then s'
    else dropMsg (freeBuffer s' port m')) s

/-- Whether a message that arrives is refused because the module is leaving: one that it has not accepted before (R481, R499). -/
def leavingRefuses (s : State) (m : StnMsg) : Bool := s.staon.leaving && !s.staon.dedup.contains (m.src, m.msgid)

/-- WRITE (R480, R481, R487, R499). -/
def execWrite (port : Nat) (m : StnMsg) (s : State) : Host.Outcome State Fault Refusal :=
  arrives port 1 m (fun s' m' =>
    if addrBad s' m' true then dropMsg (freeBuffer s' port m')
    else unicast port (fun s1 x => if leavingRefuses s1 x then sendNack s1 x 4 else deliverAndAnswer s1 x) s' m') s

/-- A MCAST sent on to its group's ports but the one it came by (R489, R490). -/
def forwardMcast (s : State) (port : Nat) (m : StnMsg) : State :=
  let ports := (groupPorts s (m.dst % 1024)).filter (fun p => p != port)
  if ports.isEmpty then freeBuffer s port m
  else if m.hops = 0 then sendNack (dropMsg (freeBuffer s port m)) m 2
  else passOn s port ports { m with hops := m.hops - 1 }

/-- MCAST (R490). A group entry that is not in use drops the message. -/
def execMcast (port : Nat) (m : StnMsg) (s : State) : Host.Outcome State Fault Refusal :=
  arrives port 2 m (fun s' m' =>
    let g := s'.reg (Csr.group (m'.dst % 1024))
    if addrBad s' m' false || !bit g 63 then dropMsg (freeBuffer s' port m')
    else
      let s1 := forwardMcast s' port m'
      if !bit g 62 then s1 else if leavingRefuses s1 m' then sendNack s1 m' 4 else deliverAndAnswer s1 m') s

/-- RED (R497, R499): its buffer is freed when the contribution leaves it. -/
def execRed (port : Nat) (m : StnMsg) (s : State) : Host.Outcome State Fault Refusal :=
  arrives port 3 m (fun s' m' =>
    if addrBad s' m' true then dropMsg (freeBuffer s' port m')
    else if m'.dst ≠ ownAddr s' then forward s' port m'
    else if leavingRefuses s' m' then sendNack (freeBuffer s' port m') m' 4
    else redTake s' port m') s

/-- ACK (R482, R493, R495). -/
def execAck (port : Nat) (m : StnMsg) (s : State) : Host.Outcome State Fault Refusal :=
  arrives port 4 m (unicast port (fun s1 x => ackReceived s1 x.src x.ackId)) s

/-- NACK (R482, R494). -/
def execNack (port : Nat) (m : StnMsg) (s : State) : Host.Outcome State Fault Refusal :=
  arrives port 5 m (unicast port (fun s1 x => nackReceived s1 x.src x.ackId x.status)) s

/-- NOTICE (R494): a MCAST_LOST record with the group, and the lost message's address in STN_RX_AS. -/
def execNotice (port : Nat) (m : StnMsg) (s : State) : Host.Outcome State Fault Refusal :=
  arrives port 6 m (unicast port (fun s1 x => fabEvent s1 FC.mcastLost x.rseq (x.addr % 2 ^ 48 + s1.fld Csr.stnCfg 63 58 * 2 ^ 48))) s

/-- LEAVE (R500): once; the port is skipped, and its neighbour's work ends. -/
def execLeave (port : Nat) (s : State) : Host.Outcome State Fault Refusal :=
  onPort port (fun s' => portIn port [4] s' && !(sport s' port).peerLeaving)
    (fun s' => portLost (modSport s' port (fun x => { x with peerLeaving := true })) port true) s

/-! ### Resends (R481, R482, R493) -/

/-- Whether a message, or the unicast copy of it that an entry stands for, has flits that have not left the module (R482). -/
def stillQueued (s : State) (x : SentMsg) : Bool :=
  (queuedMsgs s).any (fun m => m.via.isNone && m.msg.msgid == x.msg.msgid && m.msg.type == x.msg.type && m.msg.src == x.msg.src && m.msg.dst == x.msg.dst)

/-- E2E_RESEND_TIMER (R482), which runs from the last flit sent: up to three counted resends, none later than 900 µs, then the message is given up. -/
def e2eExpire (id : Nat) (s : State) : State :=
  (s.staon.sent.filter (fun x => x.msg.msgid == id && x.firstAt.isSome && !x.busy && !stillQueued s x)).foldl (fun s' x =>
    if x.tries < 3 ∧ !tooLate s' x then
      let s1 := (s'.count Csr.stnE2eRetx 1).modStaon (fun b => { b with sent := b.sent.map (fun y =>
        if y.msg.msgid = id ∧ y.copyOf = x.copyOf then { y with tries := y.tries + 1 } else y) })
      resend s1 x
    else giveUp s' x) s

/-- E2E_RESEND_TIMER (R482). -/
def execE2eResendTimer (msgid : Nat) (s : State) : Host.Outcome State Fault Refusal := .next (e2eExpire msgid s)

/-- BUSY_RETRY_TIMER (R482): the resend is not counted; one that would leave too late is not made. -/
def busyRetry (id : Nat) (s : State) : State :=
  (s.staon.sent.filter (fun x => x.msg.msgid == id && x.busy)).foldl (fun s' x =>
    if tooLate s' x then
      s'.modStaon (fun b => { b with sent := b.sent.map (fun y => if y.msg.msgid = id ∧ y.copyOf = x.copyOf then { y with busy := false } else y) })
    else resend s' x) s

/-- BUSY_RETRY_TIMER (R482). -/
def execBusyRetryTimer (msgid : Nat) (s : State) : Host.Outcome State Fault Refusal := .next (busyRetry msgid s)

/-- MCAST_SKEW_EXPIRE (R493): it runs from the first ACK. -/
def skewExpire (id : Nat) (s : State) : State :=
  match s.staon.kept.find? (fun k => k.msg.msgid == id && k.skew) with
  | some k => detach s id k.owed
  | none => s

/-- MCAST_SKEW_EXPIRE (R493). -/
def execMcastSkewExpire (msgid : Nat) (s : State) : Host.Outcome State Fault Refusal := .next (skewExpire msgid s)

/-- DEDUP_PAIR_EXPIRE (R481). -/
def execDedupPairExpire (src msgid : Nat) (s : State) : Host.Outcome State Fault Refusal :=
  .next (s.modStaon (fun b => { b with dedup := b.dedup.filter (fun p => p != (src, msgid)) }))

/-! ### Leaving (R499, R558) -/

/-- LEAVE_COMPLETE (R499): every port goes down, STN_LEFT sets, and a removal goes on. -/
def execLeaveComplete (s : State) : Host.Outcome State Fault Refusal := .next (if s.staon.leaving then afterLeft (finishLeave s) else s)

/-! ### Registers of the fabric with an effect of their own (R484, R499, R502, R504) -/

/-- STN_CFG written: STN_LEAVE starts leaving, and 0 leaves it as it is; ports follow STN_PORT_EN. -/
def stnCfgStore (s : State) (v : Reg) : State :=
  match RegMap.find Csr.stnCfg with
  | none => s
  | some (d, _, _) =>
    let s1 := storeWrite s Csr.stnCfg d 0 (if bit (s.reg Csr.stnCfg) 0 then setBf v 0 0 1 else v)
    adjustPorts (if bit v 0 && !bit (s.reg Csr.stnCfg) 0 then startLeave s1 else s1)

/-- STN_LEAVE (R499). -/
def execStnLeave (v : Reg) (s : State) : Host.Outcome State Fault Refusal := .next (stnCfgStore s v)

/-- STN_ADDR written (R484): an address of the assigned range is assigned, any other value restores the provisional one; then a HELLO on every UP port. -/
def stnAddrStore (s : State) (v : Reg) : State :=
  let a := bf v 15 0
  if stnBusy s then (if a = ownAddr s then s else recordRefused s Csr.stnAddr .stn 0)
  else
    let s1 := s.modStaon (fun b => { b with assigned := if 1 ≤ a ∧ a ≤ 0x7FFF then some a else none })
    (List.range 12).foldl (fun s' p => if (sport s' p).state = 4 then sendHello s' p else s') s1

/-- STN_ADDR_WRITE (R484). -/
def execStnAddrWrite (v : Reg) (s : State) : Host.Outcome State Fault Refusal := .next (stnAddrStore s v)

/-- Whether the mailbox's message is still in a port's transmit queue (R504). -/
def mbxBusy (s : State) : Bool :=
  match s.staon.mbx with
  | none => false
  | some id => s.staon.ports.toList.any (fun p => (Vec.get p.queues 3 []).any (fun x => x.msg.msgid == id && x.msg.src == ownAddr s))

/-- The header and register words of a mailbox area as bytes: six words of header, then up to eight register words (R477, R504). -/
def mbxBytes (s : State) : List Byte := (List.range 14).flatMap (fun i => leBytes 8 (s.reg (Csr.stnMbxTx i)).toNat)

/-- Ports of a route or return field of 12 nibbles (R485). -/
def nibbles (x : Nat) : List Nat := (List.range 12).map (fun i => nbf x (4 * i + 3) (4 * i))

/-- The management message in the transmit words. -/
def mbxMessage (s : State) : StnMsg :=
  let b := mbxBytes s
  let at' := fun (o n : Nat) => leNat ((b.drop o).take n)
  let count := min 8 (at' 24 4 / 8)
  { StnMsg.blank (at' 0 1) with
    src := ownAddr s, dst := at' 4 2, offset := at' 16 6, first := count, route := nibbles (at' 36 6)
    words := if at' 0 1 = 0x11 then (List.range count).map (fun i => s.reg (Csr.stnMbxTx (6 + i))) else [] }

/-- The message in the transmit words sent by its source route (R485, R504). -/
def mbxSend (s : State) : State :=
  let m := mbxMessage s
  if m.type ≠ 0x10 ∧ m.type ≠ 0x11 then dropMsg s
  else
    match m.route with
    | p :: rest =>
      if portUsable s p then
        let (s1, id) := takeMsgid s
        portSend (s1.modStaon (fun b => { b with mbx := some id })) p { m with msgid := id, route := rest }
      else dropMsg s
    | [] => dropMsg s

/-- STN_MBX_CTL written (R504): W1C, then GO, which is ignored while a message is being sent. -/
def mbxStore (s : State) (v : Reg) : State :=
  let s1 := if bit v 1 then s.setFld Csr.stnMbxCtl 1 1 0 else s
  if bit v 63 && !mbxBusy s1 then mbxSend s1 else s1

/-- STN_MBX_GO (R504). -/
def execStnMbxGo (v : Reg) (s : State) : Host.Outcome State Fault Refusal := .next (mbxStore s v)

end Sys2Proof.Machine
end

