-- ==== Sys2Proof/Machine/HearthCmd.lean ====
section
/-! DEFINITION. The commands of the Hearth: clocks, thermal stops, resets, boot, attestation, the side-band's timers and addresses, the SMBus target, removal, and the
module's own hardware (R510, R511, R529, R534 to R558, R588 to R601). -/

namespace Sys2Proof.Machine

/-- An event that needs the Hearth running and a condition; where they do not hold it does not happen. -/
def hearthWhen (s : State) (ok : Bool) (f : State → State) : Host.Outcome State Fault Refusal := .next (if s.hearth.running && ok then f s else s)

/-! ### Clocks and temperature -/

/-- PLL_LOCK (R510): CLK_LOCK sets, the dividers are released, and a boot in main power-up requests the Held domains. -/
def execPllLock (s : State) : Host.Outcome State Fault Refusal :=
  hearthWhen s (domOn s 123 && !s.power.locked) (fun s =>
    let s1 := s.modPower (fun p => { p with locked := true })
    if s1.hearth.stage = 3 then releaseDividers s1 else s1)

/-- PLL_UNLOCK (R511, R554): everything but the Hearth and the root PLL is switched off, and a MODULE reset follows. -/
def execPllUnlock (s : State) : Host.Outcome State Fault Refusal :=
  hearthWhen s s.power.locked (fun s =>
    let s1 := hearthEvent (s.count Csr.clkUnlocks 1) HC.clockUnlock 0
    moduleReset (s1.modPower (fun p => { p with locked := false })) 4)

/-- THERMAL_SHUTDOWN (R529). -/
def execThermalShutdown (s : State) : Host.Outcome State Fault Refusal :=
  hearthWhen s (decide (110 ≤ s.power.tj) && !s.hearth.thermalStop) (fun s =>
    (hearthEvent (mainOff s false) FC.thermalShutdown 0).modHearth (fun h =>
      { h with thermalStop := true, cooled := false, stage := 9, sideband := false, candidate := none, removal := .none }))

/-- THERMAL_RESTART_TIMER (R535). -/
def execThermalRestartTimer (s : State) : Host.Outcome State Fault Refusal :=
  hearthWhen s (s.hearth.thermalStop && !s.hearth.cooled && decide (s.power.tj ≤ 60)) (fun s =>
    if s.hearth.policy.testBit 2 then moduleReset s 5 else s.modHearth (fun h => { h with cooled := true }))

/-! ### Resets and boot -/

/-- POWER_ON (R534, R557): the admitted input starts the Hearth from its ROM. -/
def execPowerOn (s : State) : Host.Outcome State Fault Refusal :=
  .next (if s.modhw.admitted && s.modhw.ref100 && !s.hearth.running then powerOnReset s 0 else s)

/-- HEARTH_WATCHDOG (R534). -/
def execHearthWatchdog (s : State) : Host.Outcome State Fault Refusal := hearthWhen s true (fun s => hearthReset s 2)

/-- BOOT (R536): the next step of the boot. -/
def execBoot (env : BootEnv) (s : State) : Host.Outcome State Fault Refusal := hearthWhen s true (fun s => bootStep s env)

/-- BOOT_BACKOFF_EXPIRE (R539). -/
def execBootBackoffExpire (s : State) : Host.Outcome State Fault Refusal :=
  hearthWhen s (s.hearth.stage == 2) (fun s => s.modHearth (fun h => { h with stage := 1, src := 0, round := h.round + 1 }))

/-- IMAGE_REQUEST_RESEND (R542). -/
def execImageRequestResend (s : State) : Host.Outcome State Fault Refusal := hearthWhen s (s.hearth.sideband && !s.hearth.gotPut) askImage

/-- SIDEBAND_TIMEOUT (R542): the attempt fails; the failure is logged. -/
def execSidebandTimeout (s : State) : Host.Outcome State Fault Refusal :=
  hearthWhen s s.hearth.sideband (fun s =>
    nextSource ((hearthLog s HC.sidebandTimeout 0).modHearth (fun h => { h with tries := h.tries + 1, lastFail := HC.sidebandTimeout })))

/-- ATTEST_REPORT_DONE (R548). -/
def execAttestReportDone (s : State) : Host.Outcome State Fault Refusal :=
  hearthWhen s s.hearth.attesting (fun s => s.modHearth (fun h => { h with attesting := false }))

/-- CAL_OSCILLATOR_STOP (R549). -/
def execCalOscillatorStop (s : State) : Host.Outcome State Fault Refusal := .next (s.modHearth (fun h => { h with calValid := false, calLost := true }))

/-- STN_MGT_WR_EN_RETRY (R556). -/
def execStnMgtWrEnRetry (s : State) : Host.Outcome State Fault Refusal := hearthWhen s s.hearth.wrEnRetry writeMgtEn

/-! ### Side-band addresses (R550) -/

/-- The link-local IPv6 address: the MAC as a modified EUI-64. -/
def linkLocal (s : State) : Nat :=
  match flashBytes s (idArea + 8) 6 with
  | [a, b, c, d, e, f] =>
    ([0xFE#8, 0x80#8, 0#8, 0#8, 0#8, 0#8, 0#8, 0#8, a ^^^ 0x02#8, b, c, 0xFF#8, 0xFE#8, d, e, f]).foldl (fun x y => 256 * x + y.toNat) 0
  | _ => 0

/-- ARP_REQUEST (R550). -/
def execArpRequest (ipv4 : Nat) (s : State) : Host.Outcome State Fault Refusal :=
  hearthWhen s (s.hearth.ipv4 != 0 && s.hearth.ipv4 == ipv4) (fun s => s.modHearth (fun h => { h with side := h.side ++ [.arpReply ipv4 (sideMac s)] }))

/-- NEIGHBOR_SOLICITATION (R550). -/
def execNeighborSolicitation (ipv6 : Nat) (s : State) : Host.Outcome State Fault Refusal :=
  hearthWhen s (linkLocal s == ipv6 || (s.hearth.ipv6 != 0 && s.hearth.ipv6 == ipv6)) (fun s =>
    s.modHearth (fun h => { h with side := h.side ++ [.neighborAdvert ipv6 (sideMac s)] }))

/-! ### The SMBus target (R555) -/

/-- One bit of the SMBus CRC-8, x^8 + x^2 + x + 1. -/
def pecShift (c : Byte) : Byte := if c.getLsbD 7 then (c <<< 1) ^^^ 0x07#8 else c <<< 1

/-- The SMBus CRC-8 of bytes. -/
def crc8 (bs : List Byte) : Byte := bs.foldl (fun c b => Nat.repeat pecShift 8 (c ^^^ b)) 0

/-- The target's 7-bit address (R555). -/
def smbAddr (s : State) : Nat := 0x50 + s.modhw.straps

/-- The bytes of a read with their PEC, over the address as written, the command, the address as read, and the bytes. PRESUMED, log entry 34: SMBus 3.1, which R555 names. -/
def withPec (s : State) (cmd : Nat) (bs : List Byte) : List Byte :=
  bs ++ [crc8 (leBytes 1 (2 * smbAddr s) ++ leBytes 1 cmd ++ leBytes 1 (2 * smbAddr s + 1) ++ bs)]

/-- An answer on the SMBus: the command and its bytes, the PEC always among them (R555). -/
def smbAnswer (s : State) (cmd : Nat) (bs : List Byte) : State := s.modHearth (fun h => { h with smb := h.smb ++ [(cmd, withPec s cmd bs)] })

/-- SMB_FRU_OFFSET_SET. -/
def execSmbFruOffsetSet (off : Nat) (s : State) : Host.Outcome State Fault Refusal :=
  hearthWhen s true (fun s => s.modHearth (fun h => { h with fruOff := off % 65536 }))

/-- The FRU data's byte at an offset; one beyond its 512 bytes is not stated. -/
def fruByte (s : State) (off : Nat) : Byte := if off < 512 then Tab.get 0xFF s.hearth.flash (idArea + 0x2000 + off) else Config.freeByte (s.free + off)

/-- SMB_FRU_BLOCK_READ: a count of 32, then the bytes. -/
def execSmbFruBlockRead (s : State) : Host.Outcome State Fault Refusal :=
  hearthWhen s true (fun s =>
    let o := s.hearth.fruOff
    let s1 := smbAnswer s 1 (32#8 :: (List.range 32).map (fun i => fruByte s (o + i)))
    (s1.setFree (s1.free + 65536)).modHearth (fun h => { h with fruOff := (o + 32) % 65536 }))

/-- SMB_READ_VOLTAGE: units of 10 mV. -/
def execSmbReadVoltage (s : State) : Host.Outcome State Fault Refusal := hearthWhen s true (fun s => smbAnswer s 0x10 (leBytes 2 s.modhw.vin))

/-- SMB_READ_POWER: units of 1 W. -/
def execSmbReadPower (s : State) : Host.Outcome State Fault Refusal :=
  hearthWhen s true (fun s => smbAnswer s 0x11 (leBytes 2 (s.modhw.vin * s.modhw.iin / 100000)))

/-- SMB_READ_TJ: THM_TJ. -/
def execSmbReadTj (s : State) : Host.Outcome State Fault Refusal := hearthWhen s true (fun s => smbAnswer s 0x12 (leBytes 1 (toCode 8 s.power.tj)))

/-- SMB_READ_HRT_STATE. -/
def execSmbReadHrtState (s : State) : Host.Outcome State Fault Refusal := hearthWhen s true (fun s => smbAnswer s 0x13 (leBytes 1 s.hearth.stage))

/-- SMB_READ_LAST_FAIL. -/
def execSmbReadLastFail (s : State) : Host.Outcome State Fault Refusal := hearthWhen s true (fun s => smbAnswer s 0x14 (leBytes 2 s.hearth.lastFail))

/-! ### Removal (R558, R598) -/

/-- ATTN_REMOVE_HOLD: ATTN_N has been low for 100 ms; removal starts when ATTN_REMOVE is 1. -/
def execAttnRemoveHold (s : State) : Host.Outcome State Fault Refusal :=
  hearthWhen s true (fun s =>
    let s1 := s.setModhw { s.modhw with attn := true }
    if s.hearth.policy.testBit 3 && s.hearth.stage == 6 && s.hearth.removal == .none then startRemoval s1 else s1)

/-- DRAIN_TIME_EXPIRE. -/
def execDrainTimeExpire (s : State) : Host.Outcome State Fault Refusal := hearthWhen s (s.hearth.removal == .draining) endDrain

/-- REMOVE_READY. -/
def execRemoveReady (s : State) : Host.Outcome State Fault Refusal :=
  hearthWhen s (s.hearth.removal == .off) (fun s =>
    let s1 := (hearthEvent s HC.removeReady 0).modHearth (fun h => { h with removal := .ready, stage := 8 })
    (s1.setModhw { s1.modhw with rdy := true }))

/-! ### Input and references (R588 to R595) -/

/-- The hot-swap switch opens for a cause: everything but the calendar, the flash and the controller's register is lost (R592). -/
def inputOpens (s : State) (cause : Nat) : State :=
  let s1 := holdAll s
  s1.setModhw { s1.modhw with admitted := false, cause := cause, refLoss := false, vin := 0, vinRead := 0, iin := 0 }

/-- The code of a cause in MOD_HSC_CAUSE; of several, the first in the order of R592 is recorded. -/
def hscCode (cs : List HscCause) : Nat :=
  if cs.contains .mated then 1 else if cs.contains .overcurrent then 2 else if cs.contains .overvoltage then 3 else 4

/-- MATED_N_OPEN (R588). -/
def execMatedNOpen (s : State) : Host.Outcome State Fault Refusal :=
  let s1 := s.setModhw { s.modhw with mated := false }
  .next (if s.modhw.admitted then inputOpens s1 1 else s1)

/-- INPUT_ADMIT (R589, R590): MATED_N is closed, and the input has lain between the lockout thresholds. -/
def execInputAdmit (centivolts : Nat) (s : State) : Host.Outcome State Fault Refusal :=
  .next (if !s.modhw.admitted && decide (3900 < centivolts) && decide (centivolts < 6200) then
      s.setModhw { s.modhw with mated := true, admitted := true, vin := centivolts, vinRead := centivolts }
    else s)

/-- HOT_SWAP_TRIP (R591, R592). -/
def execHotSwapTrip (causes : List HscCause) (s : State) : Host.Outcome State Fault Refusal :=
  .next (if s.modhw.admitted && !causes.isEmpty then inputOpens s (hscCode causes) else s)

/-- REF100_LOSS (R595). -/
def execRef100Loss (s : State) : Host.Outcome State Fault Refusal :=
  .next (if s.modhw.ref100 then
      let s1 := holdAll s
      s1.setModhw { s1.modhw with ref100 := false, refLoss := s.modhw.admitted || s.modhw.refLoss }
    else s)

/-- REF100_RETURN (R595): a POWER_ON reset with HRT_RESET_CAUSE 6; without an admitted input the reference alone starts nothing. -/
def execRef100Return (s : State) : Host.Outcome State Fault Refusal :=
  .next (if s.modhw.ref100 then s
    else
      let s1 := s.setModhw { s.modhw with ref100 := true }
      if s.modhw.admitted then
        let s2 := powerOnReset s1 (if s.modhw.refLoss then 6 else 0)
        s2.setModhw { s2.modhw with refLoss := false }
      else s1)

/-- REF156H_LOSS (R595). -/
def execRef156hLoss (s : State) : Host.Outcome State Fault Refusal :=
  .next ((hostDown (hostDown s 0) 1).setHost { (hostDown (hostDown s 0) 1).host with ref := false })

/-- REF156H_RETURN (R595): the links retrain and come up as R430 tells. -/
def execRef156hReturn (s : State) : Host.Outcome State Fault Refusal := .next (s.setHost { s.host with ref := true })

/-- REF156S_LOSS (R469, R595): every port in use goes down, and none trains before the reference returns. -/
def execRef156sLoss (s : State) : Host.Outcome State Fault Refusal :=
  .next (((List.range 12).foldl (fun s' p => if (sport s' p).state = 0 ∨ (sport s' p).state = 6 then s' else portDown s' p) s).modStaon (fun b => { b with ref := false }))

/-- REF156S_RETURN (R595): every port trains again. -/
def execRef156sReturn (s : State) : Host.Outcome State Fault Refusal := .next (adjustPorts (s.modStaon (fun b => { b with ref := true })))

end Sys2Proof.Machine
end

