-- ==== Sys2Proof/Machine/Hmp.lean ====
section
/-! DEFINITION. The Hearth Management Protocol: the order of checks, and one command for each operation (R548 to R554). -/

namespace Sys2Proof.Machine

/-! ### Checks and responses (R551, R553) -/

namespace HmpStatus
def ok : Nat := 0
def badVersion : Nat := 1
def badOp : Nat := 2
def badArg : Nat := 3
def authFail : Nat := 4
def busy : Nat := 5
def wrongState : Nat := 6
end HmpStatus

/-- The bytes that a tag covers: the header and the payload (R551, R553). -/
def hmpBytes (op : Nat) (r : HmpReq) : List Byte :=
  leBytes 1 r.ver ++ leBytes 1 op ++ leBytes 1 r.flags ++ leBytes 1 r.status ++ leBytes 4 r.reqId ++ leBytes 2 r.payload.length ++ leBytes 2 0 ++
    leBytes 4 r.ctr ++ r.payload

/-- A response sent to the peer of a request. -/
def hmpReply (s : State) (op : Nat) (r : HmpReq) (status : Nat) (payload : List Byte) : State :=
  s.modHearth (fun h => { h with side := h.side ++ [.response r.peer op status r.reqId payload] })

/-- Checks 1 and 2 of R553: the status that a request fails with. -/
def hmpHead (r : HmpReq) : Nat :=
  if r.ver ≠ 1 then HmpStatus.badVersion
  else if r.rsvd ∨ 4 ≤ r.flags ∨ r.status ≠ 0 ∨ 1424 < r.payload.length then HmpStatus.badOp
  else HmpStatus.ok

/-- An open operation: `chk` is the status of its arguments and state, `out` its payload, `eff` its effect. -/
def hmpOpen (op : Nat) (r : HmpReq) (chk : Nat) (out : List Byte) (eff : State → State) (s : State) : State :=
  if !s.hearth.running ∨ r.flags % 2 = 1 then s
  else if hmpHead r ≠ 0 then hmpReply s op r (hmpHead r) []
  else if chk ≠ 0 then hmpReply s op r chk []
  else eff (hmpReply s op r HmpStatus.ok out)

/-- Whether the tag of a request is right under the key set. -/
def tagOk (s : State) (op : Nat) (r : HmpReq) : Bool :=
  match s.hearth.hmpKey with
  | some k => r.flags.testBit 1 && r.tag == hmac k (hmpBytes op r)
  | none => false

/-- An authenticated operation (R553, R554): the tag, the counter, the arguments and state, and then its effect, the CTR having been stored before. -/
def hmpAuth (op : Nat) (r : HmpReq) (chk : Nat) (out : List Byte) (eff : State → State) (s : State) : State :=
  if !s.hearth.running ∨ r.flags % 2 = 1 then s
  else if hmpHead r ≠ 0 then hmpReply s op r (hmpHead r) []
  else if !tagOk s op r then hmpReply (hearthLog s HC.hmpAuthFail 0) op r HmpStatus.authFail []
  else if r.ctr ≤ s.hearth.hmpCtr then
    match s.hearth.lastReply with
    | some x =>
      if r.ctr = s.hearth.hmpCtr ∧ r.tag = s.hearth.lastTag then s.modHearth (fun h => { h with side := h.side ++ [x] })
      else hmpReply s op r HmpStatus.authFail []
    | none => hmpReply s op r HmpStatus.authFail []
  else
    let s1 := s.modHearth (fun h => { h with peer := some r.peer })
    if chk ≠ 0 then hmpReply s1 op r chk []
    else
      let s2 := s1.modHearth (fun h => { h with hmpCtr := r.ctr, lastTag := r.tag, lastReply := some (.response r.peer op HmpStatus.ok r.reqId out) })
      eff (hmpReply s2 op r HmpStatus.ok out)

/-- The status of a condition on the arguments, then of one on the state. -/
def hmpChk (args : Bool) (state : Nat) : Nat := if !args then HmpStatus.badArg else state

/-- The number that `n` bytes of a payload spell from an offset on. -/
def arg (r : HmpReq) (off n : Nat) : Nat := leNat ((r.payload.drop off).take n)

/-! ### Open operations -/

/-- HRT_STATUS as software reads it (R560). -/
def hrtStatus (s : State) : Reg :=
  let h := s.hearth
  BitVec.ofNat 64 (h.cause % 8 * 2 ^ 13 + b2n h.fabHeld * 2 ^ 12 + b2n h.calUnchecked * 2 ^ 11 + h.bootSrc % 4 * 2 ^ 9 + h.stage % 16)

/-- HRT_BOOT as software reads it (R560). -/
def hrtBoot (s : State) : Reg :=
  BitVec.ofNat 64 (s.hearth.lastFail % 2 ^ 16 * 2 ^ 48 + s.hearth.round % 2 ^ 16 * 2 ^ 32 + s.hearth.tries % 2 ^ 32)

/-- HRT_SVN as software reads it (R560). -/
def hrtSvn (s : State) : Reg := BitVec.ofNat 64 (s.hearth.svnMin % 2 ^ 16 * 2 ^ 16 + s.hearth.svnRun % 2 ^ 16)

/-- HMP_STATUS. -/
def execHmpStatus (r : HmpReq) (s : State) : Host.Outcome State Fault Refusal :=
  .next (hmpOpen 0x01 r (hmpChk r.payload.isEmpty 0) (leBytes 8 (hrtStatus s).toNat ++ leBytes 8 (hrtBoot s).toNat ++ leBytes 8 (hrtSvn s).toNat) id s)

/-- TELEMETRY: voltage in mV, current in mA, PWR_EST_W, THM_TJ, PWR_THETA and PWR_PROFILE. -/
def execTelemetry (r : HmpReq) (s : State) : Host.Outcome State Fault Refusal :=
  .next (hmpOpen 0x02 r (hmpChk r.payload.isEmpty 0)
    (leBytes 4 (s.modhw.vin * 10) ++ leBytes 4 s.modhw.iin ++ leBytes 2 s.power.est ++ leBytes 1 (toCode 8 s.power.tj) ++ leBytes 1 s.power.theta ++
      leBytes 1 (s.fld Csr.pwrCtl 2 0)) id s)

/-- An entry of the event log (R554). -/
def eventBytes (e : EventEntry) : List Byte :=
  leBytes 6 e.seconds ++ leBytes 1 (b2n e.valid) ++ leBytes 1 0 ++ leBytes 2 e.code ++ leBytes 4 e.detail ++ leBytes 2 0

/-- The bytes of an object, if there is one of that number. -/
def hmpObject (s : State) (n : Nat) : Option (List Byte) :=
  match n with
  | 1 => some (flashBytes s (idArea + 16) certLen)
  | 2 => some s.hearth.report
  | 3 => some (flashBytes s (idArea + 0x2000) 512)
  | 4 => some (s.hearth.events.flatMap eventBytes)
  | _ => none

/-- OBJ_READ: object, offset, length. -/
def execObjRead (r : HmpReq) (s : State) : Host.Outcome State Fault Refusal :=
  let off := arg r 1 4
  let n := arg r 5 2
  let obj := hmpObject s (arg r 0 1)
  .next (hmpOpen 0x03 r
    (hmpChk (r.payload.length == 7 && decide (n ≤ 1024) && obj.any (fun o => decide (off + n ≤ o.length)))
      (if arg r 0 1 = 2 ∧ s.hearth.attesting then HmpStatus.busy else 0))
    (((obj.getD []).drop off).take n) id s)

/-- ATTEST: the report is built into object 2, and its length returned. -/
def execAttest (r : HmpReq) (s : State) : Host.Outcome State Fault Refusal :=
  .next (hmpOpen 0x04 r
    (hmpChk (r.payload.length == 64)
      (if s.hearth.attesting then HmpStatus.busy else if s.hearth.atKey.isEmpty then HmpStatus.wrongState else 0))
    (leBytes 4 12202) (fun s1 => s1.modHearth (fun h => { h with report := buildReport s r.payload, attesting := true })) s)

/-! ### Authenticated operations -/

/-- The status that RESET and POWER meet: they wait for cooling after a thermal shutdown, and for a removal to finish (R535, R558). -/
def resetState (s : State) : Nat :=
  if (s.hearth.thermalStop && !s.hearth.cooled) || (s.hearth.removal != .none && s.hearth.removal != .ready) then HmpStatus.wrongState else 0

/-- HMP_RESET: 1 MODULE, 2 HEARTH. -/
def execHmpReset (r : HmpReq) (s : State) : Host.Outcome State Fault Refusal :=
  let k := arg r 0 1
  .next (hmpAuth 0x10 r (hmpChk (r.payload.length == 1 && (k == 1 || k == 2)) (resetState s)) []
    (fun s1 => if k = 1 then moduleReset s1 3 else hearthReset s1 1) s)

/-- HMP_POWER: 0 switches the main logic off, 1 on by a MODULE reset. Switching off is possible while the module cools. -/
def execHmpPower (r : HmpReq) (s : State) : Host.Outcome State Fault Refusal :=
  let k := arg r 0 1
  let removing := s.hearth.removal != .none && s.hearth.removal != .ready
  .next (hmpAuth 0x11 r (hmpChk (r.payload.length == 1 && decide (k ≤ 1)) (if k = 1 then resetState s else if removing then HmpStatus.wrongState else 0)) []
    (fun s1 =>
      if k = 1 then moduleReset s1 3
      else if s1.hearth.removal == .ready then s1
      else (mainOff s1 false).modHearth (fun h => { h with stage := 9, sideband := false, candidate := none, attesting := false, wrEnRetry := false })) s)

/-- IMAGE_PUT: slot, offset, up to 1,024 bytes. -/
def execImagePut (r : HmpReq) (s : State) : Host.Outcome State Fault Refusal :=
  let slot := arg r 0 1
  let off := arg r 1 4
  let bs := r.payload.drop 5
  .next (hmpAuth 0x12 r (hmpChk (decide (5 ≤ r.payload.length) && decide (slot ≤ 1) && decide (bs.length ≤ 1024) && decide (off + bs.length ≤ slotSize)) 0) []
    (fun s1 => (flashWrite s1 (slotBase slot + off) bs).modHearth (fun h => { h with gotPut := h.gotPut || (h.sideband && slot == 1) })) s)

/-- The code that an announced image ends in: its length must be that of its header. -/
def announcedCode (s : State) (slot total : Nat) : Nat :=
  if total ≠ 16384 + flashNat s (slotBase slot + 12) 4 then HC.imageFormatBad else slotCode s slot

/-- IMAGE_DONE: slot and total length; part of the side-band attempt when one waits and the slot is B (R542). -/
def execImageDone (r : HmpReq) (s : State) : Host.Outcome State Fault Refusal :=
  let slot := arg r 0 1
  let total := arg r 1 4
  let code := announcedCode s slot total
  .next (hmpAuth 0x13 r (hmpChk (r.payload.length == 5 && decide (slot ≤ 1) && decide (total ≤ slotSize)) 0) (leBytes 2 code)
    (fun s1 =>
      if s1.hearth.sideband && slot == 1 then
        if code = HC.imageFormatBad then attemptFails s1 code else attemptSlot s1 1 2
      else s1) s)

/-- TIME_SET: calendar seconds. -/
def execTimeSet (r : HmpReq) (s : State) : Host.Outcome State Fault Refusal :=
  .next (hmpAuth 0x14 r (hmpChk (r.payload.length == 6) 0) [] (fun s1 => s1.modHearth (fun h => { h with calSeconds := arg r 0 6, calValid := true })) s)

/-- SVN_COMMIT: the fused minimum rises to the SVN of the running image. -/
def execSvnCommit (r : HmpReq) (s : State) : Host.Outcome State Fault Refusal :=
  .next (hmpAuth 0x15 r (hmpChk r.payload.isEmpty (if s.hearth.stage = 6 ∨ s.hearth.stage = 7 then 0 else HmpStatus.wrongState)) []
    (fun s1 => s1.modHearth (fun h => { h with svnMin := max h.svnMin h.svnRun })) s)

/-- POLICY_SET: the policy byte, and STN_MGT_WR_EN written when the main logic is there (R552, R556). -/
def execPolicySet (r : HmpReq) (s : State) : Host.Outcome State Fault Refusal :=
  .next (hmpAuth 0x16 r (hmpChk (r.payload.length == 1 && decide (arg r 0 1 < 16)) 0) []
    (fun s1 =>
      let s2 := s1.modHearth (fun h => { h with policy := arg r 0 1 })
      if s2.host.enabled then writeMgtEn s2 else s2) s)

/-- REMOVE_PREP (R558). -/
def execRemovePrep (r : HmpReq) (s : State) : Host.Outcome State Fault Refusal :=
  .next (hmpAuth 0x17 r
    (hmpChk r.payload.isEmpty (if s.hearth.removal != .none then HmpStatus.busy else if s.hearth.stage = 6 then 0 else HmpStatus.wrongState)) []
    startRemoval s)

/-- KEY_SET: a 32-byte key; with AUTH = 0 while no key is set (R553). -/
def execKeySet (r : HmpReq) (s : State) : Host.Outcome State Fault Refusal :=
  let chk := hmpChk (r.payload.length == 32) 0
  let eff := fun (s1 : State) => s1.modHearth (fun h => { h with hmpKey := some r.payload })
  .next (if s.hearth.hmpKey.isNone && !r.flags.testBit 1 then hmpOpen 0x18 r chk [] eff s else hmpAuth 0x18 r chk [] eff s)

/-- NET_SET: IPv4 and IPv6 address; zero clears either. -/
def execNetSet (r : HmpReq) (s : State) : Host.Outcome State Fault Refusal :=
  .next (hmpAuth 0x19 r (hmpChk (r.payload.length == 20) 0) []
    (fun s1 => s1.modHearth (fun h => { h with ipv4 := arg r 0 4, ipv6 := arg r 4 16 })) s)

end Sys2Proof.Machine
end

