-- ==== Sys2Proof/Machine/PeelEng.lean ====
section
/-! DEFINITION. The Peel's input ports and its debug window: arrivals added to partial sums, spills into the Couche, and final passes (R222 to R231, R248, R251 to R253, R257, R260
to R262, R428). -/

namespace Sys2Proof.Machine

/-! ### A row of an arrival (R230, R231, R248, R252) -/

/-- Whether the next pass to reach a row overwrites its partial sums: it is the first, or the first after a spill. -/
def freshRow (ivl cnt : Nat) : Bool := cnt == 0 || (ivl != 0 && cnt % max 1 ivl == 0)

/-- Whether pass `cnt` + 1 of a row is its final pass. -/
def finalRow (o : OTile) (cnt : Nat) : Bool := o.total == some (cnt + 1)

/-- Whether pass `cnt` + 1 of a row spills. -/
def spillRow (ivl : Nat) (o : OTile) (cnt : Nat) : Bool := ivl != 0 && (cnt + 1) % max 1 ivl == 0 && !finalRow o cnt

/-- The partial sums of a row go to the Couche (R252). -/
def spillSums (s : State) (i : Inst) (pl : CouchePlace) (row cols : Nat) (first : Bool) (sums : List (Nat × Nat)) : State × Except MemErr Flags :=
  let old := if first then .ok (List.replicate cols (0, 0)) else readCouche s pl (row * cols) cols
  match old with
  | .error e => (s, .error e)
  | .ok l =>
    let r := (l.zip sums).map (fun p => coucheAdd i.path p.1 p.2)
    (writeCouche s pl (row * cols) (r.map (fun p => p.1)), .ok (Flags.orAll (r.map (fun p => p.2))))

/-- The sums of a row after an arrival's values. -/
def rowSums (s : State) (t : Nat) (i : Inst) (g : Grid) (n row : Nat) (vals : List (Nat × Nat)) : State × Except MemErr (List (Nat × Nat) × Flags) :=
  let o := i.tile n
  if freshRow (s.tray t).snap.coucheIvl (o.counts.getD row 0) then (s, .ok (vals, .none))
  else
    let c := coreOf t
    let (a, e) := partialRow i g n row
    let s1 := noteRead s (benchAddr c a) (4 * o.cols)
    let s2 := if W.comp i.word then noteRead s1 (benchAddr c e) (4 * o.cols) else s1
    andThen (s2, readPartial s2 c i g n row o.cols) (fun s3 old =>
      let r := (old.zip vals).map (fun p => addEntry i.path (W.comp i.word) p.1 p.2)
      (s3, .ok (r.map (fun p => p.1), Flags.orAll (r.map (fun p => p.2)))))

/-- A row of an arrival added: it becomes final, or its sums are kept, and spilled where that is due. -/
def addRow (s : State) (t : Nat) (i : Inst) (g : Grid) (n row : Nat) (vals : List (Nat × Nat)) : State × Except MemErr Flags :=
  let o := i.tile n
  let ivl := (s.tray t).snap.coucheIvl
  let cnt := o.counts.getD row 0
  andThen (rowSums s t i g n row vals) (fun s1 r =>
    let s2 := s1.modTile t i.seq n (fun x => { x with counts := setAt x.counts row (cnt + 1) })
    if finalRow o cnt then (s2.modTile t i.seq n (fun x => { x with finals := x.finals ++ [(row, r.1)] }), .ok r.2)
    else
      let s3 := writePartial s2 (coreOf t) i g n row r.1
      match spillRow ivl o cnt, o.couche with
      | true, some pl => andThen (spillSums s3 i pl row o.cols (cnt + 1 == ivl) r.1) (fun s4 f => (s4, .ok (r.2.or f)))
      | _, _ => (s3, .ok r.2))

/-- The rows of an arrival added one after another. -/
def addRows (s : State) (t k : Nat) (g : Grid) (n : Nat) : List (Nat × List (Nat × Nat)) → State × Except MemErr Flags
  | [] => (s, .ok .none)
  | (row, vals) :: rest =>
    match s.inst t k with
    | none => (s, .ok .none)
    | some i => andThen (addRow s t i g n row vals) (fun s1 f => andThen (addRows s1 t k g n rest) (fun s2 f' => (s2, .ok (f.or f'))))

/-! ### Ports 0 to 2 (R222 to R225) -/

/-- The rows of an arrival that its tile still takes: those inside the tile whose row block has not committed before a pause. -/
def arrivalRows (o : OTile) (a : Arrival) : List (Nat × List (Nat × Nat)) :=
  (a.rows.zipIdx.map (fun p => (a.row + p.2, p.1))).filter (fun p => decide (p.1 < o.rows) && decide (o.resumeAt ≤ p.1 / 4))

/-- Row blocks that an arrival brings to the Couche whole: counted with their last row. -/
def spilledBlocks (ivl : Nat) (o : OTile) (rows : List (Nat × List (Nat × Nat))) : Nat :=
  (rows.filter (fun p => spillRow ivl o (o.counts.getD p.1 0) && (p.1 % 4 == 3 || p.1 + 1 == o.rows))).length

/-- The tile of an arrival has its Couche space, where the arrival needs it (R251, R253). -/
def placeCouche (s : State) (t : Nat) (i : Inst) (n : Nat) : State × Bool :=
  let c := coreOf t
  match if coucheLeft s c t i.seq n then none else coucheRoom s c ((i.tile n).rows * (i.tile n).cols) with
  | some pl => ((s.modTile t i.seq n (fun x => { x with couche := some pl })).modPeel c (fun p => { p with coucheWait := p.coucheWait.filter (fun w => w != (t, i.seq, n)) }), true)
  | none => (waitCouche s c t i.seq n, false)

/-- An arrival of a pass is added, and row blocks that it completes go through the epilogue. One whose row block committed before a pause is discarded: it adds nothing and sets no flag
(R236). -/
def addArrival (s : State) (a : Arrival) (i : Inst) (g : Grid) : State :=
  let t := a.tray
  let c := coreOf t
  let o := i.tile a.tile
  let rows := arrivalRows o a
  let spills := spilledBlocks (s.tray t).snap.coucheIvl o rows
  match addRows s t a.seq g a.tile rows with
  | (s1, .error e) => memFault s1 t a.seq e
  | (s1, .ok f) =>
    let fl := if rows.isEmpty then Flags.none else a.flags.or f
    let s2 := s1.modTile t a.seq a.tile (fun x => { x with src := x.src.add a.fromSieve, flags := x.flags.or fl })
    if fl.sat ∧ W.satTrap i.word then faultInst s2 t a.seq FC.numericSatTrap 0 0
    else
      let s3 := (s2.count (Csr.peelPassAdds c) (b2n (!rows.isEmpty))).count (Csr.peelCoucheSpills c) spills
      finishBlocks 64 (wrote (readTray s3 7 t 0) 7 c t) t a.seq a.tile

/-- The arrival at the head of port 0, 1 or 2. It waits at its port while its tile lacks Couche space (R253). -/
def portArrival (c port : Nat) (s : State) : State :=
  match s.port c port with
  | [] => s
  | a :: rest =>
    match s.inst a.tray a.seq with
    | none => s.setPort c port rest
    | some i =>
      if !mayRun s a.tray then s
      else
        let g := gridNow s a.tray i
        let o := i.tile a.tile
        let spills := (arrivalRows o a).any (fun p => spillRow (s.tray a.tray).snap.coucheIvl o (o.counts.getD p.1 0))
        let placed := if spills && o.couche.isNone then placeCouche s a.tray i a.tile else (s, true)
        if !placed.2 then placed.1
        else
          match placed.1.inst a.tray a.seq with
          | none => placed.1
          | some j => addArrival (placed.1.setPort c port rest) a j g

/-! ### Port 3 (R257, R428) -/

/-- Whether a step of port 3 can take operands now. -/
def tensorReady (s : State) (c : Nat) (x : Step) : Bool :=
  let p := (s.core c).peel
  mayStep s x && allOn s (engDoms c .stat x.kind) &&
    (match s.inst x.tray x.seq with
      | some i => if x.kind = .update then updRoom i && p.updates.all (fun y => y.tray != x.tray || decide (x.ord ≤ y.ord))
                  else firstOfTray p.stats x && creditsHeld s x.tray x.seq (streamedV i) ⟨x.tile, x.k⟩
      | none => false)

/-- A row-block step of PEEL.STAT. DESIGN CHOICE, log entry 52: it counts as one arrival in PEEL_PASS_ADDS (R262). -/
def statStep (s : State) (x : Step) (i : Inst) : State :=
  let c := coreOf x.tray
  let s1 := reduceStep s x i
  let s2 := s1.modPeel c (fun p => { p with stats := p.stats.filter (fun z => z.ord != x.ord) })
  stepEnds ((streamedV i).foldl (fun s' r => releaseBlock s' x.tray x.seq r ⟨x.tile, x.k⟩) (s2.count (Csr.peelPassAdds c) 1)) x.tray x.seq

/-- What port 3 takes next: a contribution that was held for its reduction (R497), or the oldest step that can take its operands: a row block of PEEL.STAT, or the next block of a
PEEL.UPD, steps of one cycle ranked with the tray that ran last first (R29). -/
def tensorArrival (c : Nat) (s0 : State) : State :=
  if redReady s0 c then redServe s0 c else
  let s := s0
  let p := (s.core c).peel
  match argMin (stepOrder p.lastTray) ((p.stats ++ p.updates).filter (tensorReady s c)) with
  | none => s
  | some x =>
    match s.inst x.tray x.seq with
    | none => s
    | some i =>
      let s1 := s.modPeel c (fun k => { k with lastTray := x.tray })
      if x.kind = .update then updArrive s1 x.tray i else statStep s1 x i

/-- PEEL_ARRIVAL (R225). -/
def execPeelArrival (c port : Nat) (s : State) : Host.Outcome State Fault Refusal :=
  if 4 ≤ port then .fault (.noSuchUnit "port" port) else onCore c (if port < 3 then portArrival c port else tensorArrival c) s

/-! ### The debug window (R260, R261) -/

/-- PEEL_DBG_SNAP: the fields are kept, and a snapshot starts (R261, R262). -/
def snapStart (c : Nat) (v : Reg) (s : State) : State :=
  let s1 := [(25, 24), (23, 21), (20, 6), (5, 3), (2, 0)].foldl (fun s' p => s'.setFld (Csr.peelDbgSel c) p.1 p.2 (bf v p.1 p.2)) s
  if bit v 63 then (s1.setFld (Csr.peelDbgStatus c) 0 0 0).modPeel c (fun p => { p with snapPending := some v }) else s1

/-- PEEL_DBG_SNAP (R261). -/
def execPeelDbgSnap (c : Nat) (v : Reg) (s : State) : Host.Outcome State Fault Refusal := onCore c (snapStart c v) s

/-- What a snapshot shows: its kind, the pass count of its first row block, and its entries by row and column, each with its second word. -/
structure SnapShot where
  kind : Nat
  passes : Nat
  entry : Nat → Nat → Nat × Nat

/-- The tile that a snapshot names: of the tray's oldest instruction with that tile open. -/
def snapTile (s : State) (t n : Nat) : Option Inst :=
  (s.tray t).insts.find? (fun i => i.mn.isProduct && decide (n < i.tiles.length) && (i.tile n).opened && !(i.tile n).done)

/-- The block of partial sums or Couche entries of an open tile; a poisoned Bench row reads as zero (R574). -/
def snapSums (s : State) (t n row0 : Nat) (couche : Bool) : Option SnapShot :=
  match snapTile s t n with
  | none => none
  | some i =>
    let g := gridNow s t i
    let o := i.tile n
    let c := coreOf t
    let inside := fun (r k : Nat) => decide (r < o.rows) && decide (k < o.cols)
    let word := fun (a : Nat) => if Tab.get false s.benchPoison (benchAddr c a / 64) then 0 else leNat (benchPeek s c a 4)
    let float := decide (i.path = .float)
    if couche then
      o.couche.map (fun pl => ⟨if float then 3 else 2, o.counts.getD row0 0, fun r k =>
        if inside r k then
          let b := s.bytes (pl.addr + 8 * (r * o.cols + k)) 8
          (leNat (b.take 4), leNat (b.drop 4))
        else (0, 0)⟩)
    else
      some ⟨if !float then 0 else if W.comp i.word then 3 else 1, o.counts.getD row0 0, fun r k =>
        if inside r k then
          let p := partialRow i g n r
          (word (p.1 + 4 * k), if W.comp i.word then word (p.2 + 4 * k) else 0)
        else (0, 0)⟩

/-- The open slot of a number: one of 16 with 4-byte entries, or else one of 8 with 8-byte entries (R148). -/
def slotNumbered (s : State) (c n : Nat) : Option AccSlot :=
  let at' := fun (j : Nat) (comp : Bool) => (Vec.get (s.core c).sieve.slots j none).bind (fun a => if a.comp = comp ∧ !a.closed then some a else none)
  match at' n false with
  | some a => some a
  | none => if n < 8 then at' (2 * n) true else none

/-- The block of a Sieve slot. DESIGN CHOICE (log entry 52): a slot that another tray than PEEL_DBG_TRAY holds is a miss. -/
def snapSlot (s : State) (c tray slot row0 : Nat) : Option SnapShot :=
  (slotNumbered s c slot).bind (fun a =>
    if a.tray ≠ tray then none
    else some ⟨if a.path != .float then 0 else if a.comp then 3 else 1,
      match s.inst a.tray a.seq with
      | some i => (i.tile a.tile).counts.getD row0 0
      | none => 0,
      fun r k => (a.rows.getD r []).getD k (0, 0)⟩)

/-- The snapshot of a named block is complete (R260, R261). DESIGN CHOICE, log entry 52: a miss sets PEEL_DBG_VALID too, its window reading zero. Entries
of the window by word, the second words from word 1024 on. -/
def snapDone (c : Nat) (s : State) : State :=
  match (s.core c).peel.snapPending with
  | none => s
  | some v =>
    let t := 8 * c + bf v 23 21
    let n := bf v 20 6
    let row0 := 32 * bf v 5 3
    let col0 := 32 * bf v 2 0
    let shot := match bf v 25 24 with
      | 0 => snapSums s t n row0 false
      | 1 => snapSlot s c t n row0
      | 2 => snapSums s t n row0 true
      | _ => none
    let fill := fun (f : Nat → Nat → Nat × Nat) =>
      (List.range 1024).foldl (fun m j =>
        let p := f (row0 + j / 32) (col0 + j % 32)
        Tab.put 0 (Tab.put 0 m j (BitVec.ofNat 32 p.1)) (1024 + j) (BitVec.ofNat 32 p.2)) ([] : Tab (BitVec 32))
    let status := match shot with
      | some x => 1 + x.kind * 4 + x.passes * 2 ^ 32
      | none => 3
    let window := match shot with
      | some x => fill x.entry
      | none => []
    (s.setReg (Csr.peelDbgStatus c) (BitVec.ofNat 64 status)).modPeel c (fun p => { p with snapPending := none, window := window })

/-- PEEL_DBG_SNAP_DONE (R261). -/
def execPeelDbgSnapDone (c : Nat) (s : State) : Host.Outcome State Fault Refusal := onCore c (snapDone c) s

end Sys2Proof.Machine
end

