-- ==== Sys2Proof/Machine/Regs.lean ====
section
/-! DEFINITION. Registers of CSR space as software reads and writes them: fields that follow the device's own structures, writes with an effect of their own, and the commands that
are register writes (R11 to R18, R121, R122, R131 to R133, R165, R188, R221, R260 to R262, R298, R299, R331, R368, R383, R392, R399, R429, R430, R459 to R464, R502 to R507,
R526, R530 to R532, R560, R561, R579 to R582, R604). -/

namespace Sys2Proof.Machine

/-! ### Fields that follow the device -/

/-- The fields of a register replaced by values: bits `hi` to `lo`, and the value. -/
def overlay (w : Reg) (l : List (Nat × Nat × Nat)) : Reg := l.foldl (fun a f => setBf a f.1 f.2.1 f.2.2) w

/-- A number whose bit `k` says whether `p k` holds, for `k` below `n`. -/
def bitsOf (n : Nat) (p : Nat → Bool) : Nat := (List.range n).foldl (fun a k => a + b2n (p k) * 2 ^ k) 0

/-- The tray of an engine's current step within its core: of the step that the queue puts first; 0, the reset value, with none (R605). -/
def currentTray (last : Nat) (q : List Step) : Nat :=
  match argMin (stepOrder last) q with
  | some x => x.tray % 8
  | none => 0

/-- TRY_STATUS (R133). -/
def tryStatusFields (s : State) (t : Nat) : List (Nat × Nat × Nat) :=
  let r := s.tray t
  let mask := match r.insts.find? (fun i => !i.released) with
    | some i => W.wait i.word
    | none => 0
  [(63, 32, r.tryInstr), (23, 18, r.queue), (17, 17, b2n r.tokSat), (16, 16, b2n r.snapPend), (15, 8, if r.state = .blocked then mask else 0), (2, 0, r.state.code)]

/-- TRY_TOKENS_LO and TRY_TOKENS_HI: counters `first` to `first + 3` (R133). -/
def tokenFields (s : State) (t first : Nat) : List (Nat × Nat × Nat) :=
  (List.range 4).map (fun j => (16 * j + 15, 16 * j, Vec.get (s.tray t).tokens (first + j) 0))

/-- SVE_STATUS (R165). -/
def sveFields (s : State) (c : Nat) : List (Nat × Nat × Nat) :=
  let v := (s.core c).sieve
  let slots := v.slots.toList.filterMap id
  let busy := v.cur.isSome || !v.groups.isEmpty || !v.lanes.isEmpty || !v.closed.isEmpty
  let cur := match v.cur with
    | some x => x.step.tray % 8
    | none => 0
  [(23, 21, cur), (20, 20, b2n busy), (19, 14, v.planes.foldl (fun a p => a + p.slots) 0),
   (13, 9, (slots.filter (fun a => !a.closed)).length), (8, 4, slots.length)]

/-- LEV_STATUS (R188). -/
def levFields (s : State) (c : Nat) : List (Nat × Nat × Nat) :=
  let v := (s.core c).levain
  [(23, 16, bitsOf 8 (fun j => (s.tray (8 * c + j)).arming.isSome)), (15, 11, v.maps.length), (8, 8, b2n (!v.queue.isEmpty)),
   (2, 0, currentTray v.lastTray v.queue)]

/-- MXA_STATUS (R221). -/
def mxaFields (s : State) (c a : Nat) : List (Nat × Nat × Nat) :=
  let x := s.array c a
  let passes := x.pass.toList.filterMap id
  [(23, 16, bitsOf 8 (fun j => passes.any (fun p => p.step.tray == 8 * c + j))), (15, 10, min 32 (cdiv (bufUsed x) 16384)),
   (9, 9, b2n (x.resident.toList.any Option.isSome)), (8, 8, b2n x.lastAxis), (7, 6, x.pack), (1, 1, b2n (!passes.isEmpty)),
   (0, 0, b2n (arrayEnabled s c a))]

/-- PEEL_STATUS (R262). -/
def peelFields (s : State) (c : Nat) : List (Nat × Nat × Nat) :=
  let tiles := (List.range 8).map (fun j => openTiles s (8 * c + j))
  [(31, 24, bitsOf 8 (fun j => decide (0 < tiles.getD j 0))), (23, 11, (couchePlaces s c).foldl (fun a p => a + cdiv p.size 65536) 0),
   (10, 4, tiles.foldl (fun a n => a + n) 0), (0, 0, b2n (peelBusy s c))]

/-- A register of the debug window: entries `2 j` and `2 j + 1`, zero outside a valid snapshot (R260). -/
def windowFields (s : State) (c j : Nat) : List (Nat × Nat × Nat) :=
  let m := (s.core c).peel.window
  if bit (s.reg (Csr.peelDbgStatus c)) 0 then [(31, 0, (Tab.get 0 m (2 * j)).toNat), (63, 32, (Tab.get 0 m (2 * j + 1)).toNat)] else []

/-- VXE_STATUS (R298). -/
def vxeFields (s : State) (c : Nat) : List (Nat × Nat × Nat) :=
  let v := (s.core c).vec
  [(18, 16, currentTray v.lastTray v.queue), (0, 0, b2n (!v.queue.isEmpty))]

/-- VXE_SLOTS_LO and VXE_SLOTS_HI: the marks of trays `first` to `first + 3` of the core (R299). -/
def slotFields (s : State) (c first : Nat) : List (Nat × Nat × Nat) :=
  (List.range 4).map (fun j => (16 * j + 15, 16 * j, bitsOf 16 (fun p => Tab.get false (s.core c).vec.marks (16 * (first + j) + p))))

/-- BAT_STATUS (R331). -/
def batFields (s : State) (q : Nat) : List (Nat × Nat × Nat) :=
  match (s.hq q).batch with
  | none => []
  | some b => [(63, 32, b.first), (31, 8, b.rows), (7, 7, 1), (6, 0, b.members.length)]

/-- PRF_STATUS (R368). -/
def prfFields (s : State) (c : Nat) : List (Nat × Nat × Nat) :=
  let p := (s.core c).proofer
  let held := fun (ch : Nat) => ((s.channel c ch).active.toList.filterMap id).length
  let busy := (List.range 4).any (fun ch => decide (0 < held ch)) || p.streams.any (fun x => !x.fill.isEmpty || x.next.isSome || x.slots.any (fun y => y.state.fills))
  [(31, 28, held 3), (27, 24, held 2), (23, 20, held 1), (19, 16, held 0), (15, 8, p.streams.length), (0, 0, b2n busy)]

/-- The first register of a Staon port (R503). -/
def stnPortFields (s : State) (p : Nat) : List (Nat × Nat × Nat) :=
  let x := sport s p
  [(63, 48, x.peerAddr), (47, 44, x.peerPort), (43, 40, x.ver), (32, 32, b2n x.peerProv), (3, 3, b2n x.peerLeaving), (2, 0, x.state)]

/-- PWR_STATUS (R530). -/
def pwrFields (s : State) : List (Nat × Nat × Nat) :=
  let p := s.power
  [(63, 53, p.capEff), (52, 42, p.thermalCap), (41, 40, p.limiter), (32, 32, b2n (profilePending s)), (23, 16, p.theta), (15, 0, p.est)]

/-- A domain's two bits of PWR_DOM_STATE (R531): domains 122 and 123 read off until the root PLL has been started. -/
def domBits (s : State) (d : Nat) : Nat :=
  if d = 122 ∧ !domOn s 123 then 0
  else match domState s d with
    | .off => 0
    | .waking | .switchingOff => 1
    | .on => 2
    | .fusedOff => 3

/-- A register of PWR_DOM_STATE. -/
def domFields (s : State) (r : Nat) : List (Nat × Nat × Nat) :=
  (List.range 32).map (fun j => (2 * j + 1, 2 * j, if 32 * r + j < 125 then domBits s (32 * r + j) else 0))

/-- The log entry in slot `i` (R582). -/
def logSlot (s : State) (i : Nat) : Option ErrEntry := s.errLog.find? (fun e => e.seq % 32 == i)

/-- Word `w` of log slot `i` (R582). -/
def logWord (s : State) (i w : Nat) : List (Nat × Nat × Nat) :=
  match logSlot s i with
  | none => []
  | some e =>
    match w with
    | 0 => [(63, 32, e.seq), (31, 16, e.code), (15, 14, e.scope), (13, 8, e.queue), (7, 3, e.tray)]
    | 1 => [(63, 32, e.index), (31, 0, e.aux)]
    | _ => [(63, 0, e.addr)]

/-- ERR_STATUS (R579). -/
def stopFields (s : State) : List (Nat × Nat × Nat) :=
  match s.stop with
  | none => []
  | some x => [(63, 48, x.code), (47, 44, x.index), (0, 0, 1)]

/-- MOD_HSC (R604). -/
def hscFields (s : State) : List (Nat × Nat × Nat) :=
  let m := s.modhw
  [(15, 13, m.hscCause), (7, 7, b2n m.cellLow), (3, 3, b2n m.attn), (2, 2, b2n m.rdy), (1, 0, m.straps)]

/-- The fields of copy `i`, `j` of a register of cores 0 to 3 or of queues that follow the device. -/
def coreFields (s : State) (base i j : Nat) : List (Nat × Nat × Nat) :=
  match base with
  | 0x10000 => tryStatusFields s i
  | 0x10008 => tokenFields s i 0
  | 0x10010 => tokenFields s i 4
  | 0x10800 => [(15, 0, bitsOf 16 (fun b => (s.barrier b).mask.isSome))]
  | 0x10840 => [(63, 32, if (s.barrier i).mask.isSome then (s.barrier i).arrived else 0), (31, 0, (s.barrier i).mask.getD 0)]
  | 0x40010 => sveFields s i
  | 0x50000 => levFields s i
  | 0x50018 => [(63, 0, (Tab.get 0 (s.core i).levain.counters (8 * s.fld (Csr.levCntSel i) 7 0 + s.fld (Csr.levCntSel i) 10 8)).toNat)]
  | 0x60000 => mxaFields s i j
  | 0x60010 | 0x60018 | 0x60020 | 0x60028 | 0x60030 | 0x60038 => if arrayEnabled s i j then [] else [(63, 0, 0)]
  | 0x70000 => peelFields s i
  | 0x70058 => [(63, 0, (s.updWord i (s.fld (Csr.updSel i) 7 0) (s.fld (Csr.updSel i) 10 8)).toNat)]
  | 0x80000 => windowFields s i j
  | 0x90000 => vxeFields s i
  | 0x90008 => slotFields s i 0
  | 0x90010 => slotFields s i 4
  | 0xA0020 => batFields s i
  | 0xB0000 => prfFields s i
  | _ => []

/-- The fields of copy `i`, `j` of a module register that follow the device. -/
def moduleFields (s : State) (base i j : Nat) : List (Nat × Nat × Nat) :=
  match base with
  | 0x0 => [(47, 32, if s.grade = 2 then 0x180 else 0x300), (15, 12, s.grade), (7, 0, s.arrayMask)]
  | 0x8 => [(36, 36, b2n (!s.hearth.fabHeld))]
  | 0xC0008 => [(1, 1, b2n (s.scrubbing.any (fun p => p.1 == i))), (0, 0, b2n s.trained)]
  | 0xE0208 => [(0, 0, b2n s.mmu.inv.isSome)]
  | 0xF0008 => [(3, 3, b2n s.larder.repart.isSome), (2, 0, s.larder.ways)]
  | 0x100020 => [(20, 12, (s.hq i).waiting.length)]
  | 0x110000 => [(31, 31, b2n (Vec.get s.host.up 1 false)), (30, 30, b2n (Vec.get s.host.up 0 false))]
  | 0x130008 => [(16, 16, b2n s.staon.assigned.isSome), (15, 0, ownAddr s)]
  | 0x130010 => [(31, 18, s.staon.dedup.length), (17, 9, retentionUsed s), (1, 1, b2n s.staon.left), (0, 0, b2n s.staon.leaving)]
  | 0x130018 => [(63, 0, s.serial.toNat)]
  | 0x130100 => stnPortFields s i
  | 0x130108 => [(63, 0, (sport s i).peerSn.toNat)]
  | 0x130300 => [(0, 0, b2n (mbxBusy s))]
  | 0x1C0000 => [(55, 48, groupSelf s i)]
  | 0x200008 => pwrFields s
  | 0x200010 => [(7, 3, min 31 s.power.wakes.length), (2, 0, s.power.bucket)]
  | 0x200020 => domFields s i
  | 0x200068 => [(7, 0, toCode 8 s.power.tj)]
  | 0x200070 => [(0, 0, b2n s.power.locked)]
  | 0x210000 => [(63, 0, (hrtStatus s).toNat)]
  | 0x210008 => [(63, 0, (hrtBoot s).toNat)]
  | 0x210010 => [(63, 63, b2n s.hearth.calValid), (47, 0, s.hearth.calSeconds)]
  | 0x210018 => [(63, 0, (hrtSvn s).toNat)]
  | 0x210100 => [(63, 0, leNat (((Vec.get s.hearth.m (i / 8) []).drop (8 * (i % 8))).take 8))]
  | 0x220000 => stopFields s
  | 0x220400 => logWord s i 0
  | 0x220408 => logWord s i 1
  | 0x220410 => logWord s i 2
  | 0x230000 => [(47, 24, s.modhw.iin), (15, 0, s.modhw.vinRead)]
  | 0x230008 => [(31, 16, toCode 16 s.modhw.tOut), (15, 0, toCode 16 s.modhw.tIn)]
  | 0x230010 => hscFields s
  | _ => coreFields s base i j

/-- What software reads at an offset of CSR space: zero where no register lies (R11, R16). -/
def regRead (s : State) (off : Nat) : Reg :=
  match RegMap.find off with
  | none => 0
  | some (d, i, j) => overlay (s.reg off) (moduleFields s d.base i j)

/-! ### Writes with an effect of their own -/

/-- An RWL register whose fields follow the device: written while its block is idle, else the refusal is recorded (R11, R18). -/
def liveWrite (s : State) (off : Nat) (b : Busy) (i : Nat) (v : Reg) (f : State → State) : State :=
  if !busyNow s b i then f s else if regRead s off = v then s else recordRefused s off b i

/-- TRY_TOKENS_LO or TRY_TOKENS_HI written: counters `first` to `first + 3` (R133). -/
def tokensStore (s : State) (off t first : Nat) (v : Reg) : State :=
  liveWrite s off .tray t v (fun s' => s'.modTray t (fun r =>
    { r with tokens := (List.range 4).foldl (fun k j => Vec.put k (first + j) (bf v (16 * j + 15) (16 * j))) r.tokens }))

/-- SYNC_BAR_BREAK (R122): the barriers named that are open break. -/
def barBreakStore (s : State) (v : Reg) : State :=
  (onesOf 16 (bf v 47 32)).foldl (fun s' b => if (s'.barrier b).mask.isSome then breakBarrier s' b else s') s

/-- LEV_CNT_DATA written: the selected counter (R188). -/
def levCntStore (s : State) (c : Nat) (v : Reg) : State :=
  s.modLevain c (fun x => { x with counters := Tab.put 0 x.counters (8 * s.fld (Csr.levCntSel c) 7 0 + s.fld (Csr.levCntSel c) 10 8) v })

/-- LEV_CNT_CLR_ALL (R188). -/
def levClear (c : Nat) (v : Reg) (s : State) : State := if bit v 0 then s.modLevain c (fun x => { x with counters := [] }) else s

/-- Bits of a monitor slot's word that exist (R429). -/
def updMask (w : Nat) : Reg := if w = 0 then 0x1FFFFFF else BitVec.allOnes 64

/-- UPD_DATA written: the selected word (R429). -/
def updStore (s : State) (off c : Nat) (v : Reg) : State :=
  let n := s.fld (Csr.updSel c) 7 0
  let w := s.fld (Csr.updSel c) 10 8
  liveWrite s off .upd c (v &&& updMask w) (fun s' => s'.setUpdWord c n w (v &&& updMask w))

/-- UPD_CLR_ALL (R429): ignored while a PEEL.UPD of the core is in flight. -/
def updClear (c : Nat) (v : Reg) (s : State) : State :=
  if bit v 0 && !(coreInsts s c).any (fun i => i.mn == .upd) then s.modPeel c (fun p => { p with updSlots := [] }) else s

/-- HQ_CFG and the registers of quick calls written: an accepted write discards the copies of R456; HQ_EN set starts the sequence and the ring at their first values
(R443, R451, R456). -/
def hqStore (s : State) (off q : Nat) (d : RegDef) (v : Reg) : State :=
  let was := bit (s.reg (Csr.hqCfg q)) 63
  let s1 := storeWrite s off d q v
  let s2 := if hqBusy s q then s1 else s1.modHq q (fun x => { x with copies := [] })
  if !was && bit (s2.reg (Csr.hqCfg q)) 63 then (s2.setFld (Csr.hqState q) 63 32 1).setReg (Csr.hqIndex q) 0 else s2

/-- HP_CTL written: a change of HP_MODE retrains both links, which go down (R430, R460). -/
def hpCtlStore (s : State) (v : Reg) : State :=
  match RegMap.find Csr.hpCtl with
  | none => s
  | some (d, _, _) =>
    let s1 := storeWrite s Csr.hpCtl d 0 v
    if s1.fld Csr.hpCtl 1 0 = s.fld Csr.hpCtl 1 0 then s1 else hostDown (hostDown s1 0) 1

/-- The rate of a port in Mbit/s (R430, R439). -/
def portRate (s : State) : Nat := if s.fld Csr.hpCtl 1 0 = 2 then 400000 else 800000

/-- The virtual address of a transfer's access to an offset of host memory. -/
def hostVa (s : State) (c : Nat) (r : ChReq) (off : Nat) : Nat :=
  match (virtPieces (spansOf s c r)).find? (fun p => peekPa s c (spaceOf s r.tray) p.1 == some (2 ^ 47 + off)) with
  | some p => p.1.toNat
  | none => 0

/-- Every outstanding access of a queue pair ends: its transfer faults MEM_HOST_FAIL (R438, R463). -/
def endAccesses (s : State) (q : Nat) : State :=
  let reqs := (Tab.get Qp.empty s.host.qps q).reqs
  let s1 := s.setHost { s.host with qps := Tab.put Qp.empty s.host.qps q { Tab.get Qp.empty s.host.qps q with reqs := [] } }
  reqs.foldl (fun s' x =>
    match requestOf s' x.req with
    | some (c, ch, r) => xferFails s' c ch r ⟨FC.memHostFail, hostVa s' c r x.off, 0⟩
    | none => s') s1

/-- The context enters the error state (R438). -/
def qpError (s : State) (q : Nat) : State := endAccesses (s.setFld (Csr.qpCfg q) 63 62 2) q

/-- The first register of a queue pair written (R463): RWL fields by the state before the write; leaving state 1 ends what is outstanding, entering it starts at the port's rate. -/
def qpStore (s : State) (q : Nat) (d : RegDef) (v : Reg) : State :=
  let was := qpState s q
  let s1 := storeWrite s (Csr.qpCfg q) d q v
  let now := qpState s1 q
  if now ≠ 1 then (if was = 1 then endAccesses s1 q else s1)
  else if was = 1 then s1
  else (s1.setReg (Csr.qpRate q) (BitVec.ofNat 64 (portRate s1))).setHost { s1.host with qps := Tab.put Qp.empty s1.host.qps q .empty }

/-- PWR_CTL written (R526, R530): the domains that the profile gates switch off as soon as they may. -/
def pwrCtlStore (s : State) (v : Reg) : State :=
  match RegMap.find Csr.pwrCtl with
  | none => s
  | some (d, _, _) => gateDomains (storeWrite s Csr.pwrCtl d 0 v)

/-- ERR_INJ written (R579, R581): structures 14 and 15 have no injection, and the arm clears. -/
def errInjStore (s : State) (v : Reg) : State :=
  match RegMap.find Csr.errInj with
  | none => s
  | some (d, _, _) =>
    let s1 := storeWrite s Csr.errInj d 0 v
    if 14 ≤ s1.fld Csr.errInj 3 0 then s1.setFld Csr.errInj 63 63 0 else s1

/-- A write of the register `d`, copy `i`, of a core, tray or queue. -/
def coreWrite (s : State) (off : Nat) (d : RegDef) (i : Nat) (v : Reg) : State :=
  match d.base with
  | 0x10000 => if bit v 17 then s.modTray i (fun r => { r with tokSat := false }) else s
  | 0x10008 => tokensStore s off i 0 v
  | 0x10010 => tokensStore s off i 4 v
  | 0x10800 => barBreakStore s v
  | 0x50018 => levCntStore s i v
  | 0x50020 => levClear i v s
  | 0x70010 => snapStart i v s
  | 0x70058 => updStore s off i v
  | 0x70060 => updClear i v s
  | 0x100000 | 0x100028 | 0x100030 | 0x100038 => hqStore s off i d v
  | 0x120000 => qpStore s i d v
  | _ => storeWrite s off d i v

/-- A write of 8 bytes at an offset of CSR space, by the access code of each field (R11 to R18). -/
def regWrite (s : State) (off : Nat) (v : Reg) : State :=
  match RegMap.find off with
  | none => s
  | some (d, i, _) =>
    match d.base with
    | 0xC0000 => lpcSplitStore s i v
    | 0xE0200 => mmuInvStore s v
    | 0xF0000 => larCfgStore s v
    | 0x110000 => hpCtlStore s v
    | 0x130000 => stnCfgStore s v
    | 0x130008 => stnAddrStore s v
    | 0x130300 => mbxStore s v
    | 0x200000 => pwrCtlStore s v
    | 0x200040 => writeDomOn s 0 v
    | 0x200048 => writeDomOn s 1 v
    | 0x200050 => writeDomHold s 0 v
    | 0x200058 => writeDomHold s 1 v
    | 0x220010 => errInjStore s v
    | _ => coreWrite s off d i v

/-! ### Commands -/

/-- CSR_REGISTER_WRITE (R11). -/
def execCsrRegisterWrite (off : Nat) (v : Reg) (s : State) : Host.Outcome State Fault Refusal := .next (regWrite s off v)

/-- SYNC_BAR_BREAK (R122): SYNC_BAR_CTL written. -/
def execSyncBarBreak (v : Reg) (s : State) : Host.Outcome State Fault Refusal := .next (barBreakStore s v)

/-- LEV_CNT_CLR_ALL (R188): LEV_CNT_CLR written. -/
def execLevCntClrAll (c : Nat) (v : Reg) (s : State) : Host.Outcome State Fault Refusal := onCore c (levClear c v) s

/-- UPD_CLR_ALL (R429): UPD_CLR written. -/
def execUpdClrAll (c : Nat) (v : Reg) (s : State) : Host.Outcome State Fault Refusal := onCore c (updClear c v) s

/-- HP_MODE_WRITE (R430, R460): HP_CTL written. -/
def execHpModeWrite (v : Reg) (s : State) : Host.Outcome State Fault Refusal := .next (hpCtlStore s v)

/-- ERR_INJ_ARM (R581): ERR_INJ written. -/
def execErrInjArm (v : Reg) (s : State) : Host.Outcome State Fault Refusal := .next (errInjStore s v)

/-- PWR_DOM_ON_WRITE (R514, R531). -/
def execPwrDomOnWrite (half : Nat) (v : Reg) (s : State) : Host.Outcome State Fault Refusal :=
  if half < 2 then .next (writeDomOn s half v) else .fault (.noSuchUnit "register" half)

/-- PWR_PROFILE_WRITE (R526, R530): PWR_CTL written. -/
def execPwrProfileWrite (v : Reg) (s : State) : Host.Outcome State Fault Refusal := .next (pwrCtlStore s v)

end Sys2Proof.Machine
end

