-- ==== Sys2Proof/Machine/Cct.lean ====
section
/-! DEFINITION. The Cutar Command Transport: checks, sequence numbers, responses, and the commands it carries; the dynamic batcher (R20, R21, R87, R88, R324 to R329, R361, R362,
R430 to R434, R440 to R457, R558, R570). -/

namespace Sys2Proof.Machine

/-! ### Status codes (R444) -/

namespace St
def ok : Nat := 0
def dup : Nat := 1
def outOfSeq : Nat := 2
def badVersion : Nat := 3
def badOp : Nat := 4
def badArg : Nat := 5
def queueFull : Nat := 6
def wrongState : Nat := 7
def noPermission : Nat := 8
def batchMismatch : Nat := 9
end St

/-- The effect of an operation: the state after it, its status, and the words that it returns. -/
abbrev CctEffect := State × Nat × List Reg

/-- An operation that is refused. -/
def refuse (s : State) (status : Nat) : CctEffect := (s, status, [])

/-- What the transport knows of an operation (R441, R442): its OP, whether it is sequenced, whether LEN and the payload's reserved bits suit it, its permission, whether a module
stop and a removal leave it alone, and whether it is answered by QUICK_RESULT alone. -/
structure CctOp where
  op : Nat
  sequenced : Bool
  fits : CctMsg → Bool
  permitted : State → Nat → Nat
  inStop : Bool
  inRemoval : Bool
  silent : Bool
  answers : Bool

/-- Bits `hi` to `lo` of a payload. -/
def payBits (m : CctMsg) (hi lo : Nat) : Nat := nbf (leNat (m.payload.take 16)) hi lo

/-- No permission is asked of an operation. -/
def anyQueue (_s : State) (_q : Nat) : Nat := St.ok

/-- A CSR operation needs HQ_CSR_EN (R442). -/
def csrQueue (s : State) (q : Nat) : Nat := if bit (s.reg (Csr.hqCfg q)) 62 then St.ok else St.noPermission

/-- BAT_EN of a queue (R324). -/
def batching (s : State) (q : Nat) : Bool := bit (s.reg (Csr.batCtl q)) 7

/-- A DOORBELL needs a queue that does not batch (R442). -/
def doorQueue (s : State) (q : Nat) : Nat := if batching s q then St.batchMismatch else St.ok

/-- A BATCH_MEMBER needs a batching queue (R442). -/
def memberQueue (s : State) (q : Nat) : Nat := if batching s q then St.ok else St.batchMismatch

/-- A QUICK_CALL needs HQ_QC_EN, on a queue that does not batch (R442). -/
def callQueue (s : State) (q : Nat) : Nat :=
  if !bit (s.reg (Csr.hqCfg q)) 61 then St.noPermission else if batching s q then St.batchMismatch else St.ok

/-! ### Checks and answers (R442 to R445) -/

/-- SEQ expected by a queue. -/
def seqExp (s : State) (q : Nat) : Nat := s.fld (Csr.hqState q) 63 32

/-- The status that sequencing gives: 0 to accept (R443). The 2^31 values before the expected one, with 0 left out of the order, are duplicates. -/
def seqStatus (expected seq : Nat) : Nat :=
  if seq = expected then St.ok
  else if (expected + (2 ^ 32 - 1) - seq) % (2 ^ 32 - 1) ≤ 2 ^ 31 then St.dup
  else St.outOfSeq

/-- The expected SEQ advances, wrapping from 0xFFFF_FFFF to 1 (R443). -/
def seqAdvance (s : State) (q : Nat) : State :=
  s.setFld (Csr.hqState q) 63 32 (if seqExp s q = 2 ^ 32 - 1 then 1 else seqExp s q + 1)

/-- Checks 3 to 6 of R442, with the states in which the queue is stopped by a module stop or a removal: the state after the sequencing, and the status. -/
def cctAccept (o : CctOp) (m : CctMsg) (s : State) : State × Nat :=
  if m.ver ≠ 1 then (s, St.badVersion)
  else if m.rsvd || !o.fits m || (o.sequenced == (m.seq == 0)) then (s, St.badOp)
  else
    let sq := if o.sequenced then seqStatus (seqExp s m.queue) m.seq else St.ok
    if sq ≠ St.ok then (s, sq)
    else
      let s1 := if o.sequenced then seqAdvance s m.queue else s
      let p := o.permitted s1 m.queue
      if p ≠ St.ok then (s1, p)
      else if (s1.stop.isSome && !o.inStop) || (s1.hearth.removal != .none && !o.inRemoval) then (s1, St.wrongState)
      else (s1, St.ok)

/-- The answer to an operation, where one is due (R445), and the count of a rejected one (R464). -/
def cctAnswer (o : CctOp) (m : CctMsg) (r : CctEffect) : State :=
  let (s, status, words) := r
  let bad := status ≠ St.ok && status ≠ St.dup
  let s1 := if bad then s.count Csr.hpCctRejects 1 else s
  if bad || (!o.silent && (o.answers || m.ackreq)) then sendOn s1 (viaWay s1 m.src) (.response m.src m.queue o.op status (seqExp s1 m.queue) words) else s1

/-- Whether a message arrives at all: the port is enabled, the link it comes by is up, and a QP that carries it is in state 1 (R431, R432, R436, R463). -/
def cctArrives (s : State) (m : CctMsg) : Bool :=
  s.host.enabled && Vec.get s.host.up (viaWay s m.src).1 false &&
    (match m.src with
      | .udp _ _ _ => true
      | .send q => decide (qpState s q = 1))

/-- Checks 1 and 2 of R442: a command that fails one is dropped. -/
def cctDropped (s : State) (m : CctMsg) : Bool :=
  m.len != m.frameLen || m.payload.length != m.len || !bit (s.reg (Csr.hqCfg m.queue)) 63 || m.qkey != s.fld (Csr.hqParam m.queue) 15 0

/-- A command taken from its message: checked, executed, answered (R442 to R445). -/
def cctServe (o : CctOp) (eff : CctMsg → State → CctEffect) (m : CctMsg) (s : State) : State :=
  if cctDropped s m then s.count Csr.hpCctDrops 1
  else
    match cctAccept o m s with
    | (s1, 0) => cctAnswer o m (eff m s1)
    | (s1, status) => cctAnswer o m (s1, status, [])

/-- A frame accepted, counted (R464). -/
def countFrames (s : State) (n : Nat) : State := s.count Csr.hpRxFrames n

/-- An armed injection into the receive buffers takes the first word of an arriving frame, which is read at once (R577, R581): the frame, and whether it is dropped. -/
def rxBuffer (s : State) : State × Bool :=
  let r := s.reg Csr.errInj
  if bit r 63 && bf r 3 0 == 12 then (eccEffect (s.setFld Csr.errInj 63 63 0) 12 (bit r 8) none 0, bit r 8) else (s, false)

/-- A command's message that arrives by UDP is a frame; one that came by SEND was counted with it. -/
def cctFrame (m : CctMsg) (f : State → State) (s : State) : State :=
  if !cctArrives s m then s
  else
    match m.src with
    | .udp _ _ _ =>
      match rxBuffer s with
      | (s1, true) => s1
      | (s1, false) => f (countFrames s1 1)
    | .send _ => f s

/-- A command of the transport; there is no queue beyond 63 (R131). -/
def cctCommand (o : CctOp) (eff : CctMsg → State → CctEffect) (m : CctMsg) (s : State) : Host.Outcome State Fault Refusal :=
  if m.queue < 64 then .next (cctFrame m (cctServe o eff m) s) else .fault (.noSuchUnit "queue" m.queue)

/-! ### DOORBELL, BATCH_MEMBER, QUICK_CALL (R21, R324 to R328, R446, R455) -/

/-- HQ_TRAYS of a queue is 0 (R21). -/
def noTrays (s : State) (q : Nat) : Bool := s.fld (Csr.hqCfg q) 31 0 == 0

/-- A stream waits on a queue (R20). -/
def enqueue (s : State) (q stream dtab : Nat) (k : TaskKind) : State :=
  (s.modHq q (fun h => { h with waiting := h.waiting ++ [{ cyc := s.now, stream := stream, dtab := dtab, kind := k }] })).tick

/-- DOORBELL. -/
def opDoorbell : CctOp :=
  { op := 1, sequenced := true, fits := fun m => m.len == 16 && payBits m 63 48 == 0 && payBits m 127 112 == 0, permitted := doorQueue, inStop := false,
    inRemoval := false, silent := false, answers := false }

/-- A stream queued, unless the queue has no trays or 256 streams wait (R446). -/
def doorbellEffect (m : CctMsg) (s : State) : CctEffect :=
  if noTrays s m.queue then refuse s St.wrongState
  else if 256 ≤ (s.hq m.queue).waiting.length then refuse s St.queueFull
  else (enqueue s m.queue (payBits m 47 0) (payBits m 111 64) .doorbell, St.ok, [])

/-- DOORBELL. -/
def execDoorbell (m : CctMsg) (s : State) : Host.Outcome State Fault Refusal := cctCommand opDoorbell doorbellEffect m s

/-- The open batch of a queue closes and waits for a tray (R328). -/
def closeBatch (s : State) (q : Nat) : State :=
  match (s.hq q).batch with
  | none => s
  | some b =>
    enqueue (s.modHq q (fun h => { h with batch := none })) q (s.fld (Csr.batStream q) 47 0) (s.fld (Csr.batDtab q) 47 0) (.batch b.members)

/-- A batch closes when its rows or its members reach their limits, or at once with a wait of 0 (R325, R326). -/
def closeIfFull (s : State) (q : Nat) : State :=
  match (s.hq q).batch with
  | none => s
  | some b =>
    let ctl := s.reg (Csr.batCtl q)
    let limit := if bf ctl 6 0 = 0 ∨ 64 < bf ctl 6 0 then 64 else bf ctl 6 0
    if max 1 (bf ctl 15 8) ≤ b.rows ∨ limit ≤ b.members.length then (closeBatch s q).count (Csr.batCloseSize q) 1
    else if bf ctl 31 16 = 0 then (closeBatch s q).count (Csr.batCloseTime q) 1
    else s

/-- A member joins the open batch, or closes it and opens another (R325). -/
def joinBatch (s : State) (q : Nat) (x : Member) : State :=
  let fresh : Batch := { first := x.first, rows := x.rows, members := [x] }
  match (s.hq q).batch with
  | none => closeIfFull (s.modHq q (fun h => { h with batch := some fresh })) q
  | some b =>
    if x.first = b.first + b.rows then
      closeIfFull (s.modHq q (fun h => { h with batch := some { b with rows := b.rows + x.rows, members := b.members ++ [x] } })) q
    else closeIfFull (((closeBatch s q).count (Csr.batCloseOther q) 1).modHq q (fun h => { h with batch := some fresh })) q

/-- BATCH_MEMBER. -/
def opBatchMember : CctOp :=
  { op := 2, sequenced := true, fits := fun m => m.len == 16 && payBits m 127 80 == 0, permitted := memberQueue, inStop := false, inRemoval := false,
    silent := false, answers := false }

/-- A member joins its queue's batches; one that the ring does not hold is discarded and counted (R327). -/
def memberEffect (m : CctMsg) (s : State) : CctEffect :=
  let x : Member := { first := payBits m 31 0, rows := payBits m 63 32, tag := payBits m 79 64 }
  if noTrays s m.queue then refuse s St.wrongState
  else if x.rows = 0 ∨ s.fld (Csr.batCtl m.queue) 63 32 < x.first + x.rows then (s.count (Csr.batRejects m.queue) 1, St.ok, [])
  else (joinBatch s m.queue x, St.ok, [])

/-- BATCH_MEMBER. -/
def execBatchMember (m : CctMsg) (s : State) : Host.Outcome State Fault Refusal := cctCommand opBatchMember memberEffect m s

/-- BAT_TIMER_EXPIRE (R325): the open batch closes. -/
def batExpire (q : Nat) (s : State) : State := if (s.hq q).batch.isSome then (closeBatch s q).count (Csr.batCloseTime q) 1 else s

/-- BAT_TIMER_EXPIRE (R325). -/
def execBatTimerExpire (q : Nat) (s : State) : Host.Outcome State Fault Refusal := onQueue q (batExpire q) s

/-- QUICK_CALL. -/
def opQuickCall : CctOp :=
  { op := 9, sequenced := false, fits := fun m => decide (8 ≤ m.len) && m.len == 8 + payBits m 45 32 && payBits m 63 46 == 0, permitted := callQueue, inStop := false,
    inRemoval := false, silent := true, answers := false }

/-- A quick call queued with its operands (R446, R455). -/
def callEffect (m : CctMsg) (s : State) : CctEffect :=
  if 8192 < payBits m 45 32 then refuse s St.badArg
  else if noTrays s m.queue then refuse s St.wrongState
  else if 256 ≤ (s.hq m.queue).waiting.length then refuse s St.queueFull
  else (enqueue s m.queue (s.fld (Csr.hqQcStream m.queue) 47 0) (s.fld (Csr.hqQcDtab m.queue) 47 0) (.quick (payBits m 31 0) m.src (m.payload.drop 8)), St.ok, [])

/-- QUICK_CALL. -/
def execQuickCall (m : CctMsg) (s : State) : Host.Outcome State Fault Refusal := cctCommand opQuickCall callEffect m s

/-! ### RESUME, ABORT (R88, R361, R362, R447) -/

/-- An output tile of a product that a pause left uncommitted, as the tiler plans it again (R236): its committed row blocks are passed over. -/
def restartTile (o fresh : OTile) : OTile :=
  if o.done then o
  else { o with opened := false, stepsLeft := fresh.stepsLeft, arrays := 0, sieves := 0, drains := 0, total := none, counts := fresh.counts, finals := [],
                resumeAt := o.committed, sent := o.committed, couche := none, src := .noEngine }

/-- A product issued again: every output tile with an uncommitted row block starts from its first pass (R236). -/
def restartProduct (s : State) (t : Nat) (i : Inst) : Inst :=
  if !i.planned then i
  else
    let f := planT i (maskSel s t i)
    { i with tiles := i.tiles.zipIdx.map (fun p => restartTile p.1 (f.tile p.2)), steps := f.steps.filter (fun p => !(i.tile p.tile).done), running := 0, counts := [],
             rowStat := [] }

/-- An instruction of layout V issued again: every row with an uncommitted row block is computed again (R289). -/
def restartRows (i : Inst) : Inst :=
  let rows := if i.mn = .cen then (outShapeV i.mn i.word).1 else W.m i.word
  let open' := fun (b : Nat) => (rowTiles i b).any (fun n => decide ((i.tile n).committed ≤ b % 64))
  { i with tiles := i.tiles.map (fun o => if o.done then o else { o with sent := o.committed }), steps := (planRows rows).filter (fun p => open' p.k), running := 0, rowStat := [] }

/-- An instruction of the cursor as RESUME issues it again (R361). -/
def restartInst (s : State) (t : Nat) (i : Inst) : Inst :=
  if i.zeroShape then i
  else if i.mn = .pred then
    { i with done := false, running := 0, steps := (List.range i.lev.rows).map (fun r => ⟨0, r⟩), lev := { i.lev with row := 0, pred := 0 } }
  else if i.done then i
  else if i.mn.isProduct then restartProduct s t i
  else if i.mn = .ldw ∨ i.mn = .ldp then { i with steps := [⟨0, 0⟩], running := 0 }
  else if i.mn = .upd then { i with steps := [⟨0, 0⟩], running := 0, upd := { i.upd with held := [] } }
  else if i.mn.isV then restartRows i
  else if i.mn.isX then
    let n := i.xds.findIdx (fun x => !x.done)
    { i with xds := i.xds.zipIdx.map (fun p => if n ≤ p.2 then { p.1 with done := false } else p.1) }
  else i

/-- An instruction issued again asks for its transfers and streams; messages that have left are not sent again (R361, R483). -/
def restartWork (s : State) (t : Nat) (i : Inst) : State :=
  if !i.released || i.zeroShape || i.done || !i.planned then s
  else if i.mn.isX ∨ i.mn.isFab then requestTransfers s t i
  else startStreams s t i.seq

/-- RESUME of a paused tray (R361): every instruction of the cursor is issued again in order. -/
def resumeTray (s : State) (t : Nat) : State :=
  let r := s.tray t
  let s1 := s.modTray t (fun x => { x with insts := x.insts.map (restartInst s t) })
  let blocked := r.insts.any (fun i => !i.released && !i.waitMet && !tokensMet r.tokens (W.wait i.word) (waitCount i))
  let s2 := s1.modTray t (fun x => { x with state := if blocked then .blocked else if x.ending then .ending else .run })
  tryRelease ((s2.tray t).insts.foldl (fun s' i => restartWork s' t i) s2) t

/-- Whether a tray is paused with a task of a queue (R447). -/
def pausedFor (s : State) (t q : Nat) : Bool := (s.tray t).state == .paused && (s.tray t).queue == q

/-- Whether a message carries a tray's number in its low byte, the rest reserved. -/
def trayFits (m : CctMsg) : Bool := m.len == 8 && payBits m 63 8 == 0

/-- An operation on a paused tray (R447). -/
def trayEffect (f : State → Nat → State) (m : CctMsg) (s : State) : CctEffect :=
  let t := payBits m 7 0
  if 32 ≤ t then refuse s St.badArg else if !pausedFor s t m.queue then refuse s St.wrongState else (f s t, St.ok, [])

/-- RESUME. -/
def opResume : CctOp :=
  { op := 3, sequenced := true, fits := trayFits, permitted := anyQueue, inStop := false, inRemoval := true, silent := false, answers := false }

/-- RESUME. -/
def execResume (m : CctMsg) (s : State) : Host.Outcome State Fault Refusal := cctCommand opResume (trayEffect resumeTray) m s

/-- ABORT of a paused tray (R88). -/
def abortTray (s : State) (t : Nat) : State := endTask s t FC.taskAborted (s.tray t).tryInstr 0 0xFFFFFFFF 0 0

/-- ABORT. -/
def opAbort : CctOp :=
  { op := 4, sequenced := true, fits := trayFits, permitted := anyQueue, inStop := false, inRemoval := true, silent := false, answers := false }

/-- ABORT. -/
def execAbort (m : CctMsg) (s : State) : Host.Outcome State Fault Refusal := cctCommand opAbort (trayEffect abortTray) m s

/-! ### QUEUE_RESTART, RING_ACK (R448, R453) -/

/-- QUEUE_RESTART. -/
def opQueueRestart : CctOp :=
  { op := 5, sequenced := true, fits := fun m => m.len == 0, permitted := anyQueue, inStop := false, inRemoval := true, silent := false, answers := false }

/-- Dispatch restarts (R87, R448). -/
def restartEffect (m : CctMsg) (s : State) : CctEffect := (s.setFld (Csr.hqState m.queue) 23 23 0, St.ok, [])

/-- QUEUE_RESTART. -/
def execQueueRestart (m : CctMsg) (s : State) : Host.Outcome State Fault Refusal := cctCommand opQueueRestart restartEffect m s

/-- RING_ACK. -/
def opRingAck : CctOp :=
  { op := 6, sequenced := true, fits := fun m => m.len == 8 && payBits m 63 32 == 0, permitted := anyQueue, inStop := true, inRemoval := true, silent := false,
    answers := false }

/-- The consumer index moves on, no further than the producer's (R453). -/
def ackEffect (m : CctMsg) (s : State) : CctEffect :=
  let pi := s.fld (Csr.hqIndex m.queue) 31 0
  let ci := s.fld (Csr.hqIndex m.queue) 63 32
  let new := payBits m 31 0
  if (new + 2 ^ 32 - ci) % 2 ^ 32 ≤ (pi + 2 ^ 32 - ci) % 2 ^ 32 then (s.setFld (Csr.hqIndex m.queue) 63 32 new, St.ok, []) else refuse s St.badArg

/-- RING_ACK. -/
def execRingAck (m : CctMsg) (s : State) : Host.Outcome State Fault Refusal := cctCommand opRingAck ackEffect m s

/-! ### CSR_READ, CSR_WRITE, CAPS (R449, R450) -/

/-- Registers that a CSR operation names. -/
def csrCount (m : CctMsg) : Nat := payBits m 34 32 + 1

/-- Whether the registers lie in CSR space (R449). -/
def csrInside (m : CctMsg) : Bool := payBits m 31 0 % 8 == 0 && decide (payBits m 31 0 + 8 * csrCount m ≤ 2 ^ 32)

/-- CSR_READ. -/
def opCsrRead : CctOp :=
  { op := 7, sequenced := true, fits := fun m => m.len == 8 && payBits m 63 35 == 0, permitted := csrQueue, inStop := true, inRemoval := true, silent := false,
    answers := true }

/-- Registers read in ascending order; each may draw a free value. -/
def csrReads : Nat → Nat → State → State × List Reg
  | 0, _, s => (s, [])
  | n + 1, off, s =>
    let (s1, l) := csrReads n (off + 8) (s.setFree (s.free + 1))
    (s1, regRead s off :: l)

/-- CSR_READ. -/
def readEffect (m : CctMsg) (s : State) : CctEffect :=
  if !csrInside m then refuse s St.badArg
  else
    let (s1, l) := csrReads (csrCount m) (payBits m 31 0) s
    (s1, St.ok, l)

/-- CSR_READ. -/
def execCsrRead (m : CctMsg) (s : State) : Host.Outcome State Fault Refusal := cctCommand opCsrRead readEffect m s

/-- CSR_WRITE. -/
def opCsrWrite : CctOp :=
  { op := 8, sequenced := true, fits := fun m => decide (8 ≤ m.len) && m.len == 8 + 8 * csrCount m && payBits m 63 35 == 0, permitted := csrQueue, inStop := true,
    inRemoval := true, silent := false, answers := false }

/-- The words of a CSR_WRITE, each with its offset. -/
def csrWords (m : CctMsg) : List (Nat × Reg) :=
  (List.range (csrCount m)).map (fun k => (payBits m 31 0 + 8 * k, BitVec.ofNat 64 (leNat ((m.payload.drop (8 + 8 * k)).take 8))))

/-- Registers written in ascending order. -/
def writeEffect (m : CctMsg) (s : State) : CctEffect :=
  if !csrInside m then refuse s St.badArg else ((csrWords m).foldl (fun s' p => regWrite s' p.1 p.2) s, St.ok, [])

/-- CSR_WRITE. -/
def execCsrWrite (m : CctMsg) (s : State) : Host.Outcome State Fault Refusal := cctCommand opCsrWrite writeEffect m s

/-- CAPS. -/
def opCaps : CctOp :=
  { op := 10, sequenced := false, fits := fun m => m.len == 0, permitted := anyQueue, inStop := true, inRemoval := true, silent := false, answers := true }

/-- DEV_CAP, ISA_CAP, and the highest CCT version accepted (R450). -/
def capsEffect (_m : CctMsg) (s : State) : CctEffect := (s, St.ok, [regRead s Csr.devCap, regRead s Csr.isaCap, 1])

/-- CAPS. -/
def execCaps (m : CctMsg) (s : State) : Host.Outcome State Fault Refusal := cctCommand opCaps capsEffect m s

/-! ### Any operation, by its code -/

/-- An operation that is undefined or sent to the host (R442). -/
def opUndefined (op : Nat) : CctOp :=
  { op := op, sequenced := true, fits := fun _ => false, permitted := anyQueue, inStop := true, inRemoval := true, silent := false, answers := false }

/-- The command that a message carries by its OP (R441). -/
def cctByOp (op : Nat) (m : CctMsg) (s : State) : State :=
  match op with
  | 1 => cctServe opDoorbell doorbellEffect m s
  | 2 => cctServe opBatchMember memberEffect m s
  | 3 => cctServe opResume (trayEffect resumeTray) m s
  | 4 => cctServe opAbort (trayEffect abortTray) m s
  | 5 => cctServe opQueueRestart restartEffect m s
  | 6 => cctServe opRingAck ackEffect m s
  | 7 => cctServe opCsrRead readEffect m s
  | 8 => cctServe opCsrWrite writeEffect m s
  | 9 => cctServe opQuickCall callEffect m s
  | 10 => cctServe opCaps capsEffect m s
  | _ => cctServe (opUndefined op) (fun _ s' => refuse s' St.badOp) m s

end Sys2Proof.Machine
end

