-- ==== Sys2Proof/Machine/LevainEng.lean ====
section
/-! DEFINITION. The Levain: its bitmap store, and the row steps of LEV.PRED (R166 to R174, R185 to R188). -/

namespace Sys2Proof.Machine

/-! ### The bitmap store (R185) -/

/-- The bitmap that a LEV.PRED holds. -/
def predMap (s : State) (t k : Nat) : Option LevMap := (s.core (coreOf t)).levain.maps.find? (fun m => m.tray == t && m.seq == k)

/-- A LEV.PRED takes a free bitmap: masked instructions that already issued under its arming use it. -/
def takeBitmap (s : State) (t : Nat) (i : Inst) : State :=
  let users := (s.tray t).insts.filter (fun j => j.mask.any (fun b => b.pred == i.seq))
  let m : LevMap := { id := s.ord, tray := t, seq := i.seq, layer := bf i.word 151 144, neurons := W.m i.word, e := 0, pred := 0, watched := 0, audited := 0,
                      strict := i.set.strict, ready := false, armed := (s.tray t).arming == some i.seq,
                      observer := (users.find? Inst.observes).map Inst.seq, users := users.map Inst.seq }
  (s.modLevain (coreOf t) (fun v => { v with maps := v.maps ++ [m] })).tick

/-- The step's LEV.PRED holds a bitmap, or one of the 16 is free. -/
def bitmapThere (s : State) (x : Step) : Bool := (predMap s x.tray x.seq).isSome || decide ((s.core (coreOf x.tray)).levain.maps.length < 16)

/-! ### Scores (R168) -/

/-- A vector converted to MXINT8 with blocks of 32, under RNE (R50, R51, R168). -/
def toMxInt8 (xs : List Num) : List El :=
  (chunks 32 xs).flatMap (fun l =>
    let (sc, cs, _) := mxBlock .mxInt8 (l.map (fun x => (Rnd.rne, x)))
    cs.map (fun c => ⟨c, sc, true⟩))

/-- The dot product of one block: exact, with the block's scales, in FP32. -/
def blockDot (d : Desc) (fs xs : List El) : F32 :=
  let ps := fs.zip xs
  let mx := d.fm.isMx
  if ps.any (fun p => p.2.scale == 255 || (mx && p.1.scale == 255)) then f32nan
  else
    let n : Int := ps.foldl (fun (a : Int) p => a + sext 8 p.1.code * sext 8 p.2.code) 0
    let e : Int := ((xs.headD ⟨0, 0, true⟩).scale : Int) - 133 + (if mx then ((fs.headD ⟨0, 0, true⟩).scale : Int) - 133 else 0)
    toF32 (.fin (decide (n < 0)) n.natAbs e)

/-- A factor row against a vector: the blocks' results added in ascending order. -/
def factorDot (d : Desc) (fs xs : List El) : F32 :=
  ((chunks 32 fs).zip (chunks 32 xs)).foldl (fun a p => (f32add a (blockDot d p.1 p.2)).1) f32zero

/-- Rows `r` to `r + n − 1` of a factor against a vector. -/
def factorRows (s : State) (t : Nat) (d : Desc) (xs : List El) : Nat → Nat → State × Except MemErr (List F32)
  | _, 0 => (s, .ok [])
  | r, n + 1 =>
    andThen (rowEls s (coreOf t) (spaceOf s t) d .tensor r 0 d.cols d.cols) (fun s1 fs =>
      andThen (factorRows s1 t d xs (r + 1) n) (fun s2 l => (s2, .ok (factorDot d fs xs :: l))))

/-- The scores of one row of SRCA. -/
def rowScores (s : State) (t : Nat) (i : Inst) (row : Nat) : State × Except MemErr (List F32) :=
  let a := i.desc .srca
  andThen (rowEls s (coreOf t) (spaceOf s t) a .tensor row 0 a.cols a.cols) (fun s1 x =>
    andThen (factorRows s1 t (i.desc .srcb) (toMxInt8 (x.map (El.val a))) 0 (bf i.word 137 128)) (fun s2 h =>
      factorRows s2 t (i.desc .srcb1) (toMxInt8 (h.map f32dec)) 0 (W.m i.word)))

/-- The indices of some entries that satisfy a test, as a bit set. -/
def bitsWhere {α : Type} (p : α → Bool) (l : List α) : Nat := l.zipIdx.foldl (fun a x => if p x.1 then a ||| 2 ^ x.2 else a) 0

/-- The neurons that a row predicts active (R170): a NaN score counts as greater. -/
def predictedBy (thresh : F32) (scores : List F32) : Nat := bitsWhere (fun x => (f32dec x).isNan || (f32dec thresh).lt (f32dec x)) scores

/-! ### Watched and audited neurons, and E (R171 to R174) -/

/-- The watch list's entries; none without WATCH_EN. -/
def watchList (s : State) (t : Nat) (i : Inst) : State × Except MemErr (List Int) :=
  if !bit i.word 138 then (s, .ok [])
  else
    let d := i.desc .srcc
    andThen (rowEls s (coreOf t) (spaceOf s t) d .tensor 0 0 d.cols d.cols) (fun s1 l => (s1, .ok (l.map (fun e => sext 32 e.code))))

/-- The draw of R172. -/
def auditDraw (seed : Reg) (layer call audk n : Nat) : Nat :=
  (mix (seed + BitVec.ofNat 64 n * 0x9E3779B97F4A7C15#64 + (BitVec.ofNat 64 layer <<< 40) + (BitVec.ofNat 64 call <<< 48))).toNat % 2 ^ audk

/-- How many LEV.PREDs of the task have completed, modulo 2^16 (R172, R175). -/
def callNumber (s : State) (t : Nat) : Nat := (s.tray t).levCalls

/-- The audited neurons (R172); none in STRICT mode (R173). -/
def auditedBy (s : State) (t : Nat) (i : Inst) (seen : Nat) : Nat :=
  if !i.set.audEn ∨ i.set.strict then 0
  else
    let call := callNumber s t
    ((List.range (W.m i.word)).filter (fun n => !seen.testBit n && auditDraw (s.tray t).snap.audSeed (bf i.word 151 144) call i.set.audK n == 0)).foldl (fun a n => a ||| 2 ^ n) 0

/-- The bitmap is decided and goes to DST (R173 to R175): at once into the Bench, or through the write channel. -/
def finishBitmap (s : State) (t : Nat) (i : Inst) (pred : Nat) (watch : List Int) : State :=
  let n := W.m i.word
  let c := coreOf t
  let watched := watch.foldl (fun a w => a ||| 2 ^ w.toNat) 0
  let audited := auditedBy s t i (pred ||| watched)
  let e := if i.set.strict then 2 ^ n - 1 else pred ||| watched ||| audited
  let s1 := s.modLevain c (fun v => { v with maps := v.maps.map (fun m =>
    if m.tray = t ∧ m.seq = i.seq then { m with e := e, pred := pred, watched := watched, audited := audited } else m) })
  let d := i.desc .dst
  let (a, bs) := wrAt d 0 (leBytes (4 * cdiv n 32) e)
  let s2 := wrote s1 6 c t
  if d.bench then (benchWrite s2 c (a % 0x10000000).toNat bs).modInst t i.seq (fun x => { x with done := true })
  else addRequest s2 t i.seq 1 (.commit 0 0 [(false, a, bs)])

/-! ### Steps (R186) -/

/-- A row step: its scores, and with the last row the watch list, the audit and the bitmap. -/
def levainStep (s0 : State) (x : Step) (i : Inst) : State :=
  let t := x.tray
  let c := coreOf t
  let s := readTray (readTray (if (predMap s0 t x.seq).isSome then s0 else takeBitmap s0 t i) 13 t 0) 6 t 0
  let done := fun (s' : State) => stepEnds (s'.modLevain c (fun v => { v with queue := v.queue.filter (fun z => z.ord != x.ord), lastTray := t })) t x.seq
  if !mayRun s t then s
  else
    match rowScores s t i x.k with
    | (s1, .error e) => memFault s1 t x.seq e
    | (s1, .ok scores) =>
      let pred := i.lev.pred ||| predictedBy (BitVec.ofNat 32 (bf i.word 183 152)) scores
      let s2 := done (s1.modInst t x.seq (fun y => { y with lev := { y.lev with row := x.k + 1, pred := pred } }))
      if x.k + 1 < i.lev.rows then s2
      else
        match watchList s2 t i with
        | (s3, .error e) => memFault s3 t x.seq e
        | (s3, .ok watch) =>
          if watch.any (fun w => decide (w < 0) || decide ((W.m i.word : Int) ≤ w)) then faultInst s3 t x.seq FC.sparseIndexRange 0 0
          else finishBitmap s3 t i pred watch

/-- Whether a step of the Levain is ready (R24, R28, R185). -/
def levainReady (s : State) (c : Nat) (x : Step) : Bool := mayStep s x && firstOfTray (s.core c).levain.queue x && bitmapThere s x

/-- The oldest ready step that satisfies `p` becomes current and runs (R29). -/
def levainRun (c : Nat) (p : Step → Bool) (s : State) : State :=
  let v := (s.core c).levain
  if s.stop.isSome || !allOn s (engDoms c .levain .predict) || !mayIssue s false then s
  else
    match argMin (stepOrder v.lastTray) (v.queue.filter (levainReady s c)) with
    | none => s
    | some x =>
      match s.inst x.tray x.seq with
      | none => s
      | some i => if p x then levainStep s x i else s

/-- LEVAIN_STEP_START (R186). -/
def execLevainStepStart (c : Nat) (s : State) : Host.Outcome State Fault Refusal := onCore c (levainRun c (fun _ => true)) s

/-- LEV_BITMAP_TAKE (R185): the step is a LEV.PRED's first, which waits for a bitmap. -/
def execLevBitmapTake (c : Nat) (s : State) : Host.Outcome State Fault Refusal :=
  onCore c (levainRun c (fun x => (predMap s x.tray x.seq).isNone)) s

end Sys2Proof.Machine
end

