-- ==== Sys2Proof/Machine/MgtCmd.lean ====
section
/-! DEFINITION. Management messages of the Staon fabric: register reads and writes from another module, and the replies that the mailbox receives (R478, R485, R486, R504). -/

namespace Sys2Proof.Machine

/-- Whether `n` registers from an offset lie in the Staon register space (R486). -/
def inStaonSpace (off n : Nat) : Bool := decide (off % 8 = 0) && decide (0x130000 ≤ off) && decide (off + 8 * n ≤ 0x200000)

/-- The MGT_REPLY of a message, back by its return path and out of the port that it came by (R485): words read and a status (R486). -/
def mgtAnswer (s : State) (port : Nat) (m : StnMsg) (status : Nat) (words : List Reg) : State :=
  let (s1, id) := takeMsgid s
  let x : StnMsg := { StnMsg.blank 0x12 with src := ownAddr s, dst := m.src, msgid := id, ackId := m.msgid, status := status, offset := m.offset,
                                             route := m.back ++ [15], words := words }
  if portUsable s1 port then portSend s1 port x else dropMsg s1

/-- Management messages: one whose route says "deliver here" is delivered, any other is sent on (R485). -/
def management (port type : Nat) (f : State → StnMsg → State) (m : StnMsg) (s : State) : Host.Outcome State Fault Refusal :=
  arrives port type m (fun s' m' =>
    if m'.route.head? = some 15 then f (freeBuffer s' port m') m' else forwardMgt s' port m') s

/-- Words of registers from an offset on, in ascending order. -/
def readWords (s : State) (off n : Nat) : List Reg := (List.range n).map (fun k => regRead s (off + 8 * k))

/-- Words written to registers from an offset on, in ascending order. -/
def writeWords : State → Nat → List Reg → State
  | s, _, [] => s
  | s, off, v :: t => writeWords (regWrite s off v) (off + 8) t

/-- A delivered MGT_READ: at most eight registers, as many as a mailbox holds (R486, R504). -/
def mgtRead (s : State) (port : Nat) (m : StnMsg) : State :=
  let n := min 8 m.first
  if inStaonSpace m.offset n then mgtAnswer s port m 0 (readWords s m.offset n) else mgtAnswer s port m 1 []

/-- MGT_READ. -/
def execMgtRead (port : Nat) (m : StnMsg) (s : State) : Host.Outcome State Fault Refusal :=
  management port 0x10 (fun s' x => mgtRead s' port x) m s

/-- A delivered MGT_WRITE, applied while STN_MGT_WR_EN is 1 (R486). The answer leaves by the port that the message came by, as it was before the write. -/
def mgtWrite (s : State) (port : Nat) (m : StnMsg) : State :=
  let ws := m.words.take 8
  if !inStaonSpace m.offset ws.length then mgtAnswer s port m 1 []
  else if !bit (s.reg Csr.stnCfg) 2 then mgtAnswer s port m 2 []
  else mgtAnswer (writeWords s m.offset ws) port m 0 []

/-- MGT_WRITE. -/
def execMgtWrite (port : Nat) (m : StnMsg) (s : State) : Host.Outcome State Fault Refusal :=
  management port 0x11 (fun s' x => mgtWrite s' port x) m s

/-- The receive words take a reply, unless one waits in them (R504). -/
def mailboxTake (s : State) (m : StnMsg) : State :=
  if bit (s.reg Csr.stnMbxCtl) 1 then s
  else
    let bs := msgBytes { m with words := m.words.take 8 }
    let s1 := (List.range 14).foldl (fun s' k => s'.setReg (Csr.stnMbxRx k) (BitVec.ofNat 64 (leNat ((bs.drop (8 * k)).take 8)))) s
    s1.setFld Csr.stnMbxCtl 1 1 1

/-- MGT_REPLY (R504). -/
def execMgtReply (port : Nat) (m : StnMsg) (s : State) : Host.Outcome State Fault Refusal :=
  management port 0x12 (fun s' x => mailboxTake s' x) m s

end Sys2Proof.Machine
end

