-- ==== Sys2Proof/Machine/PowerEvents.lean ====
section
/-! DEFINITION. The commands of the power domains, the wake governor, the envelope governor and the junction sensors (R511 to R532). -/

namespace Sys2Proof.Machine

/-- The Hearth's governors act while it runs (R533, R595). -/
def byHearth (s : State) (f : State → State) : State := if s.hearth.running then f s else s

/-- GOVERNOR_WINDOW (R521): the estimate, the caps and θ of the next window. -/
def execGovernorWindow (counts : List Nat) (s : State) : Host.Outcome State Fault Refusal :=
  .next (byHearth s (fun s' => governorStep s' counts))

/-- DOMAIN_IDLE_OFF (R514): an idle Auto domain begins to switch off. -/
def execDomainIdleOff (d : Nat) (s : State) : Host.Outcome State Fault Refusal :=
  if d < 125 then .next (byHearth s (fun s' => idleOff s' d)) else .fault (.noSuchUnit "domain" d)

/-- WAKE_TOKEN_DRAW (R518). -/
def execWakeTokenDraw (s : State) : Host.Outcome State Fault Refusal := .next (byHearth s drawTokens)

/-- What a Staon port or a half of the host port does when its domain has been switched on or off: the ports follow what allows them, and a host link whose lanes are off goes down. -/
def portsFollow (s : State) (d : Nat) : State :=
  if 100 ≤ d ∧ d < 112 then adjustPorts s
  else if d = 112 ∨ d = 113 then (List.range 2).foldl (fun s' p => if lanesOn s' p then s' else hostDown s' p) s
  else s

/-- WAKE_COMPLETE (R518). -/
def execWakeComplete (d : Nat) (s : State) : Host.Outcome State Fault Refusal :=
  if d < 125 then .next (byHearth s (fun s' => portsFollow (wakeDone s' d) d)) else .fault (.noSuchUnit "domain" d)

/-- SWITCH_OFF_COMPLETE (R519). -/
def execSwitchOffComplete (d : Nat) (s : State) : Host.Outcome State Fault Refusal :=
  if d < 125 then .next (byHearth s (fun s' => portsFollow (switchOffDone s' d) d)) else .fault (.noSuchUnit "domain" d)

/-- THERMAL_SAMPLE (R527, R528). -/
def execThermalSample (temps : List Int) (s : State) : Host.Outcome State Fault Refusal := .next (byHearth s (fun s' => thermalStep s' temps))

/-- EST_DRIFT_CHECK (R523). -/
def execEstDriftCheck (deciwatts : Nat) (s : State) : Host.Outcome State Fault Refusal := .next (byHearth s (fun s' => driftStep s' deciwatts))

end Sys2Proof.Machine
end

