-- ==== Sys2Proof/Machine/Roce.lean ====
section
/-! DEFINITION. RoCEv2 on the host port, its congestion reaction and flow control, its links, and frames dropped (R430 to R439, R463, R464, R570). -/

namespace Sys2Proof.Machine

/-! ### As responder (R436, R437) -/

/-- The path MTU of a queue pair in bytes (R463). -/
def qpMtu (s : State) (q : Nat) : Nat := match s.fld (Csr.qpCfg q) 61 59 with | 2 => 2048 | 3 => 4096 | _ => 1024

/-- ACLK cycles of 50 µs (R439, R509). -/
def cycles50us : Nat := 60000

/-- What a queue pair holds. -/
def qpOf (s : State) (q : Nat) : Qp := Tab.get Qp.empty s.host.qps q

/-- What a queue pair holds, changed by `f`. -/
def modQp (s : State) (q : Nat) (f : Qp → Qp) : State := s.setHost { s.host with qps := Tab.put Qp.empty s.host.qps q (f (qpOf s q)) }

/-- A packet marked CE answered by a CNP, at most one in 50 µs (R439). -/
def noteCe (s : State) (q : Nat) (ce : Bool) : State :=
  if !ce then s
  else
    let recent := match (qpOf s q).lastCnp with
      | some t => decide (s.now < t + cycles50us)
      | none => false
    if recent then s else sendQp (modQp s q (fun x => { x with lastCnp := some s.now })) q (.cnp q)

/-- Whether a request packet of a queue pair is taken: the pair exists and is in state 1, and the port that it names is up (R431, R436, R463). -/
def qpTakes (s : State) (q : Nat) : Bool := decide (q < 1024) && s.host.enabled && decide (qpState s q = 1) && Vec.get s.host.up (qpWay s q).1 false

/-- A request that arrives in `bytes` of payload: its frames counted and its congestion mark answered; any other is dropped. -/
def requestIn (r : RoceReq) (bytes : Nat) (f : State → State) (s : State) : State :=
  if !qpTakes s r.qp then s
  else
    match rxBuffer s with
    | (s1, true) => s1
    | (s1, false) => f (noteCe (countFrames s1 (max 1 (cdiv bytes (qpMtu s1 r.qp)))) r.qp r.ce)

/-- A request refused with a NAK Remote Access Error; one that the translation or the memory refused is counted (R378, R383, R437). -/
def refuseAccess (s : State) (q : Nat) (counted : Bool) : State := sendQp (if counted then s.count Csr.mmuRefused 1 else s) q (.nakAccess q)

/-- Whether a request may access memory: its R_Key is the context's, and the module has not stopped (R437, R570). -/
def keyOk (s : State) (r : RoceReq) : Bool := s.stop.isNone && r.rkey == s.fld (Csr.qpKey r.qp) 63 32

/-- QP_AS: the address space of incoming accesses (R463). -/
def qpSpace (s : State) (q : Nat) : Nat := s.fld (Csr.qpCfg q) 53 48

/-- An RDMA WRITE: written whole and acknowledged, or refused with nothing written (R437). -/
def rdmaWrite (r : RoceReq) (s : State) : State :=
  if !keyOk s r then refuseAccess s r.qp false
  else
    match writeThrough (finishRepart s) 4 (qpSpace s r.qp) r.va r.data with
    | (s1, .error _) => refuseAccess s1 r.qp true
    | (s1, .ok _) => sendQp s1 r.qp (.ack r.qp)

/-- RDMA_WRITE. -/
def execRdmaWrite (r : RoceReq) (s : State) : Host.Outcome State Fault Refusal := .next (requestIn r r.data.length (rdmaWrite r) s)

/-- An RDMA READ: answered with its bytes, or refused (R437). -/
def rdmaRead (r : RoceReq) (s : State) : State :=
  if !keyOk s r then refuseAccess s r.qp false
  else
    match readV (finishRepart s) 4 (qpSpace s r.qp) r.va r.len with
    | (s1, .error _) => refuseAccess s1 r.qp true
    | (s1, .ok bs) => sendQp s1 r.qp (.readData r.qp bs)

/-- RDMA_READ_REQUEST. -/
def execRdmaReadRequest (r : RoceReq) (s : State) : Host.Outcome State Fault Refusal := .next (requestIn r 0 (rdmaRead r) s)

/-- SEND: acknowledged, and its CCT message processed as if it had come by UDP, the reply going back on the same queue pair (R437). -/
def execSend (r : RoceReq) (op : Nat) (m : CctMsg) (s : State) : Host.Outcome State Fault Refusal :=
  if m.queue < 64 then
    .next (requestIn r (m.frameLen + 16) (fun s' => cctByOp op { m with src := .send r.qp } (sendQp s' r.qp (.ack r.qp))) s)
  else .fault (.noSuchUnit "queue" m.queue)

/-- INVALID_REQUEST_OPCODE (R436). -/
def execInvalidRequestOpcode (r : RoceReq) (s : State) : Host.Outcome State Fault Refusal :=
  .next (requestIn r r.data.length (fun s' => sendQp s' r.qp (.nakInvalid r.qp)) s)

/-! ### As requester (R382, R438) -/

/-- An outstanding request sent, or sent again. -/
def sendReq (s : State) (q : Nat) (x : HostReq) : State :=
  if x.write then hostWriteOut s (2 ^ 47 + x.off) (s.bytes (2 ^ 47 + x.off) x.len)
  else sendQp s q (.rdmaRead q (s.fld Csr.hcRkey 31 0) ((s.reg Csr.hcVa).toNat + x.off) x.len)

/-- An answer that arrives on a queue pair is a frame or several. -/
def answerIn (s : State) (q bytes : Nat) (f : State → State) : State :=
  if !qpTakes s q then s else f (countFrames s (max 1 (cdiv bytes (qpMtu s q))))

/-- The oldest outstanding request of a kind leaves the pair. -/
def dropReq (s : State) (q : Nat) (write : Bool) : State := modQp s q (fun x => { x with reqs := dropFirst (fun y => y.write == write) x.reqs })

/-- The READ that the end of another lets out, sixteen being outstanding at most (R438). -/
def nextRead (s : State) (q : Nat) : State :=
  match ((qpOf s q).reqs.filter (fun y => !y.write))[15]? with
  | some x => sendReq s q x
  | none => s

/-- RDMA_READ_RESPONSE: the bytes of the oldest outstanding READ have arrived; a response of another length answers none. -/
def readArrives (q : Nat) (data : List Byte) (s : State) : State :=
  match (qpOf s q).reqs.find? (fun y => !y.write) with
  | none => s
  | some x => if data.length = x.len then nextRead (dropReq (s.write (2 ^ 47 + x.off) data) q false) q else s

/-- RDMA_READ_RESPONSE (R382, R438). -/
def execRdmaReadResponse (q : Nat) (data : List Byte) (s : State) : Host.Outcome State Fault Refusal :=
  .next (answerIn s q data.length (readArrives q data))

/-- ACKNOWLEDGE (R438): an acknowledgement ends the oldest outstanding WRITE; a NAK puts the pair into the error state. -/
def execAcknowledge (q : Nat) (nak : Bool) (s : State) : Host.Outcome State Fault Refusal :=
  .next (answerIn s q 0 (fun s' => if nak then qpError s' q else dropReq s' q true))

/-- The transport timer expires (R438): every outstanding request is sent again, the oldest at most seven times. -/
def timeout (q : Nat) (s : State) : State :=
  match (qpOf s q).reqs with
  | [] => s
  | x :: rest =>
    if 7 ≤ x.tries then qpError s q
    else
      let all := { x with tries := x.tries + 1 } :: rest
      let reads := (all.filter (fun y => !y.write)).take 16
      (all.filter (fun y => y.write || reads.contains y)).foldl (fun s' y => sendReq s' q y) (modQp s q (fun z => { z with reqs := all }))

/-- TRANSPORT_TIMEOUT (R438). -/
def execTransportTimeout (q : Nat) (s : State) : Host.Outcome State Fault Refusal :=
  .next (if q < 1024 ∧ qpState s q = 1 then timeout q s else s)

/-! ### Congestion (R439) -/

/-- CNP received: the rate is halved down to 1 Gbit/s, once in 50 µs. -/
def cnpCut (q : Nat) (s : State) : State :=
  let recent := match (qpOf s q).lastCut with
    | some t => decide (s.now < t + cycles50us)
    | none => false
  if recent then s
  else (modQp s q (fun x => { x with lastCut := some s.now })).setFld (Csr.qpRate q) 31 0 (max 1000 (s.fld (Csr.qpRate q) 31 0 / 2))

/-- CNP (R439, R464). -/
def execCnp (q : Nat) (s : State) : Host.Outcome State Fault Refusal := .next (answerIn s q 0 (fun s' => cnpCut q (s'.count Csr.hpCnpRx 1)))

/-- RATE_INCREASE_TIMER (R439): 8 Gbit/s more, up to the port's rate. -/
def execRateIncreaseTimer (q : Nat) (s : State) : Host.Outcome State Fault Refusal :=
  .next (if q < 1024 ∧ qpState s q = 1 then s.setFld (Csr.qpRate q) 31 0 (min (portRate s) (s.fld (Csr.qpRate q) 31 0 + 8000)) else s)

/-! ### Flow control (R435) -/

/-- A port of the host links; there is none beyond 1 (R430). -/
def onHostPort (p : Nat) (f : State → State) (s : State) : Host.Outcome State Fault Refusal :=
  if p < 2 then .next (f s) else .fault (.noSuchUnit "host port" p)

/-- A priority's transmission resumes: what it held is sent in order. -/
def resumePrio (s : State) (port prio : Nat) : State :=
  let mine := fun (x : Nat × Nat × HostTx) => x.1 == port && x.2.1 == prio
  (s.host.held.filter mine).foldl (fun s' x => s'.sendHost x.2.2)
    (s.setHost { s.host with paused := s.host.paused.filter (fun p => !(p.1 == port && p.2.1 == prio)), held := s.host.held.filter (fun x => !mine x) })

/-- One priority of a PFC frame: paused for its quanta, or resumed by none. -/
def pausePrio (s : State) (port prio quanta : Nat) : State :=
  if !bit (s.reg Csr.hpCtl) (8 + prio) then s
  else if quanta = 0 then resumePrio s port prio
  else s.setHost { s.host with paused := s.host.paused.filter (fun p => !(p.1 == port && p.2.1 == prio)) ++ [(port, prio, quanta)] }

/-- PFC_FRAME (R435). -/
def execPfcFrame (port : Nat) (quanta : List (Nat × Nat)) (s : State) : Host.Outcome State Fault Refusal :=
  onHostPort port (fun s' => if s'.host.enabled && Vec.get s'.host.up port false then
    (quanta.filter (fun p => decide (p.1 < 8))).foldl (fun s2 p => pausePrio s2 port p.1 p.2) (countFrames s' 1) else s') s

/-- PFC_PAUSE_EXPIRE (R435). -/
def execPfcPauseExpire (port prio : Nat) (s : State) : Host.Outcome State Fault Refusal := onHostPort port (fun s' => resumePrio s' port prio) s

/-! ### Links (R430, R432) -/

/-- Whether a link of a port can come up in the mode selected (R430, R512, R536, R595). -/
def linkAllowed (s : State) (port : Nat) : Bool :=
  let mode := s.fld Csr.hpCtl 1 0
  s.host.enabled && s.host.ref && lanesOn s port && (decide (mode = 2) || (decide (mode < 2) && port == 0))

/-- HOST_LINK_UP (R430). -/
def execHostLinkUp (port : Nat) (s : State) : Host.Outcome State Fault Refusal :=
  onHostPort port (fun s' => if linkAllowed s' port then s'.setHost { s'.host with up := Vec.put s'.host.up port true } else s') s

/-- HOST_LINK_DOWN (R432). -/
def execHostLinkDown (port : Nat) (s : State) : Host.Outcome State Fault Refusal := onHostPort port (fun s' => hostDown s' port) s

/-! ### Frames dropped (R433) -/

/-- Whether an IP address, of version 6 with `v6`, is the local address of a port (R433, R461). -/
def localAddr (s : State) (port : Nat) (v6 : Bool) (ip : Nat) : Bool :=
  let w0 := s.reg (Csr.hpLocalAeW0 port)
  bit w0 63 && bit w0 62 == v6 &&
    ip == (if v6 then (s.reg (Csr.hpLocalAeW3 port)).toNat * 2 ^ 64 + (s.reg (Csr.hpLocalAeW2 port)).toNat else s.fld (Csr.hpLocalAeW1 port) 31 0)

/-- Whether a frame received on a port passes every check of R433. -/
def frameOk (s : State) (port : Nat) (f : Frame) : Bool :=
  decide (64 ≤ f.length) && decide (f.length ≤ 9216) && f.fcsOk && decide (f.vlanTags ≤ 1) && !f.pauseFrame &&
    (f.etherType == 0x8808 ||
      ((f.etherType == 0x0800 || f.etherType == 0x86DD) && f.l3ok && localAddr s port (f.etherType == 0x86DD) f.dst && (f.udpPort == 4791 || f.udpPort == s.fld Csr.hpCtl 63 48) && f.udpSumOk))

/-- A frame that fails a check is dropped and counted; one that passes them is no event of this kind. -/
def frameDrop (port : Nat) (f : Frame) (s : State) : State :=
  if !s.host.enabled || !Vec.get s.host.up port false || frameOk s port f then s
  else
    let s1 := s.count Csr.hpRxDrops 1
    if f.fcsOk then s1 else s1.count Csr.hpFcsErrs 1

/-- RECEIVED_FRAME_DROP (R433, R435). -/
def execReceivedFrameDrop (port : Nat) (f : Frame) (s : State) : Host.Outcome State Fault Refusal := onHostPort port (frameDrop port f) s

end Sys2Proof.Machine
end

