-- ==== Sys2Proof/Machine/SieveEng.lean ====
section
/-! DEFINITION. The Sieve: planes, the current step, the dealing of its work, accumulator slots with their drain and spill, and the conversions that use its expanders and encoder
(R134 to R165). -/

namespace Sys2Proof.Machine

/-- The Sieve of core `c`. -/
def sieve (s : State) (c : Nat) : Sieve := (s.core c).sieve

/-- Whether the Sieve's domains for a step are on, no module stop is in force, and the governor lets it issue (R515, R521). -/
def sieveRuns (s : State) (c : Nat) (k : StepKind) : Bool := s.stop.isNone && allOn s (engDoms c .sieve k) && mayIssue s false

/-! ### Planes (R138, R139) -/

/-- The plane that a step refers to, once it is built. -/
def planeOf (v : Sieve) (x : Step) : Option Plane := x.plane.bind (fun key => v.planes.find? (fun p => p.key == key))

/-- Whether a queued step's plane is to be built and can be: it has none, and its block is there. -/
def lacksPlane (s : State) (c : Nat) (x : Step) : Bool :=
  x.kind.product && mayStep s x && (planeOf (sieve s c) x).isNone && creditsHeld s x.tray x.seq [.srcb] ⟨x.tile, x.k⟩

/-- The plane of the first queued step that lacks one is built, when its block is there and plane slots are free: two for 16-bit values, one for all others. A failed check ends the
task (R138, R139, R155, R156). DESIGN CHOICE (log entry 50): a step whose block has not arrived is passed over, and a later step's plane is built first. -/
def buildPlane (c : Nat) (s : State) : State :=
  let v := sieve s c
  if !sieveRuns s c .scatter then s
  else
    match v.queue.find? (lacksPlane s c) with
    | none => s
    | some x =>
      match s.inst x.tray x.seq, x.plane with
      | some i, some key =>
        let need := if (i.desc .srcb).fm.bits = 16 then 2 else 1
        if 32 < v.planes.foldl (fun a p => a + p.slots) 0 + need then s
        else
          let g := gridNow s x.tray i
          let b := blockB i.word g (maskSel s x.tray i) (i.tile x.tile).n x.k
          match blockOfB s x.tray i b ⟨x.tile, x.k⟩ with
          | (s1, .error e) => memFault s1 x.tray x.seq e
          | (s1, .ok rows) =>
            let cols := (List.range key.cols).map (colOfB (i.desc .srcb) (W.trans i.word) g.kt rows)
            wrote (s1.modSieve c (fun y => { y with planes := y.planes ++ [{ key := key, slots := need, rows := cols }] })) 3 c x.tray
      | _, _ => s

/-- PLANE_READY (R138). -/
def execPlaneReady (c : Nat) (s : State) : Host.Outcome State Fault Refusal := onCore c (buildPlane c) s

/-! ### Accumulator slots (R147, R148) -/

/-- The slot that an output tile holds, unless it drains. -/
def slotOf (v : Sieve) (t k n : Nat) : Option Nat :=
  v.slots.toList.findIdx? (fun o => o.any (fun a => a.tray == t && a.seq == k && a.tile == n && !a.closed))

/-- Whether slot `j` is free for entries of 4 bytes, or with `comp` the pair of slots from `j` on for entries of 8 bytes. -/
def slotFree (v : Sieve) (comp : Bool) (j : Nat) : Bool :=
  let at' := fun (i : Nat) => Vec.get v.slots i none
  if comp then j % 2 == 0 && (at' j).isNone && (at' (j + 1)).isNone
  else (at' j).isNone && !(j % 2 == 1 && (at' (j - 1)).any (fun a => a.comp))

/-- The lowest-numbered free slot. -/
def freeSlot (v : Sieve) (comp : Bool) : Option Nat := (List.range 16).find? (slotFree v comp)

/-- The number of a slot held at `j` (R148): of 16 with 4-byte entries, or of 8 with 8-byte entries. -/
def slotNumber (comp : Bool) (j : Nat) : Nat := if comp then j / 2 else j

/-- The accumulator lane of an entry within its bank (R148). -/
def entryLane (n : Nat) : Nat := n % 128

/-- The bank of entry (`m`, `n`) of slot `j` (R148). -/
def entryBank (j m n : Nat) : Nat := ((m + 4 * j) % 64) ^^^ (n / 128 % 2 * 32)

/-- The lane row of entry (`m`, `n`) of slot `j`; with 8-byte entries the error term lies at the next one (R148). -/
def entryRow (comp : Bool) (j m n : Nat) : Nat :=
  if comp then j * 16 + (m / 64 % 4 * 2 + n / 128 % 2) * 2 else j * 8 + m / 64 % 4 * 2 + n / 128 % 2

/-- The accumulator lane, of 8,192, of entry (`m`, `n`) of a slot held at `j`. -/
def laneOf (comp : Bool) (j m n : Nat) : Nat := 128 * entryBank (slotNumber comp j) m n + entryLane n

/-- An output tile's closing step has been queued, and no group has any of its Sieve work left (R147). -/
def slotEnded (s : State) (c : Nat) (a : AccSlot) : Bool :=
  (s.inst a.tray a.seq).any (fun i => !sieveLater s a.tray i a.tile) &&
    (sieve s c).steps.all (fun x => x.tray != a.tray || x.seq != a.seq || x.tile != a.tile)

/-! ### Conversion and census (R99, R162 to R164) -/

/-- A row of SRCA as a conversion reads it: the extent's elements. -/
def rowIn (s : State) (x : Step) (i : Inst) (row : Nat) : State × Except MemErr (List El) :=
  let d := i.desc .srca
  let n := W.nV i.word
  rowEls s (coreOf x.tray) (spaceOf s x.tray) d (placeRow (stepPlace s x.tray x.seq .srca ⟨x.tile, x.k⟩) (row % 4)) (W.rowOffV i.word + row) 0 n (min n d.cols)

/-- The rows of a row block of SRCA. -/
def rowsIn (s : State) (x : Step) (i : Inst) : List Nat → State × Except MemErr (List (Nat × List El))
  | [] => (s, .ok [])
  | r :: rest => andThen (rowIn s x i r) (fun s1 l => andThen (rowsIn s1 x i rest) (fun s2 ls => (s2, .ok ((r, l) :: ls))))

/-- One tile's part of an expanded row block (R162). -/
def expandTile (s : State) (x : Step) (i : Inst) (n : Nat) : List (Nat × List El) → State × Except MemErr BlockOut
  | [] => (s, .ok ⟨[], .none, [], 0⟩)
  | (row, els) :: rest =>
    let o := i.tile n
    let d := i.desc .dst
    let src := i.desc .srca
    let r := W.rowOffV i.word + row
    let mine := (els.drop o.col0).take o.cols
    let ws : List WEl := mine.zipIdx.map (fun p => ⟨o.col0 + p.2, rndOf i (s.tray x.tray).snap.srSeed (linIndex d r (o.col0 + p.2)), p.1.val src, none⟩)
    let fl := readEls src mine
    andThen (writeRow s (coreOf x.tray) (spaceOf s x.tray) d r ws) (fun s1 w =>
      andThen (expandTile s1 x i n rest) (fun s2 b =>
        (s2, .ok ⟨w.1.map (fun y => (d.bench, y.1, y.2)) ++ b.writes, (fl.or w.2).or b.flags, [], 0⟩)))

/-- Every tile's part of an expanded row block. -/
def expandTiles (s : State) (x : Step) (i : Inst) (rows : List (Nat × List El)) : List Nat → State × Except MemErr (List (Nat × BlockOut))
  | [] => (s, .ok [])
  | n :: rest => andThen (expandTile s x i n rows) (fun s1 b => andThen (expandTiles s1 x i rows rest) (fun s2 bs => (s2, .ok ((n, b) :: bs))))

/-- Bytes that a tensor's crumbs may take in front of row block `b`'s first: those of its earlier row blocks, behind the place of the first segment (R163). -/
def crumbStart (i : Inst) (b : Nat) : Nat :=
  let d := i.desc .dst
  W.rowOffV i.word * d.segs * d.crumbMax + (i.marks.take b).foldl (fun a m => a + m.1) 0

/-- The segments of a row block encoded, in row-major order: the writes with the tile of each, the flags of each tile, the place behind the last crumb and the groups pruned. None when
a group holds too many values. -/
def encodeSegs (s : State) (x : Step) (i : Inst) : List (Nat × Nat × List El) → Nat → Nat → Option (List (Nat × List (Bool × Int × List Byte) × Flags) × Nat × Nat × Nat)
  | [], at', free => some ([], at', free, 0)
  | (row, u, els) :: rest, at', free =>
    let d := i.desc .dst
    let src := i.desc .srca
    let r := W.rowOffV i.word + row
    let xs := els.zipIdx.map (fun p => (rndOf i (s.tray x.tray).snap.srSeed (linIndex d r (256 * u + p.2)), p.1.val src))
    let (sc, codes, fl) := convertSegment d.fm xs
    let fl1 := fl.or (readEls src els)
    let tile := (x.k / 64) * cdiv (W.nV i.word) 256 + u
    if d.comp = 1 then
      let bs := encodeCrumb d sc codes
      let ws := [wrAt d (4 * (r * d.segs + u)) (leBytes 4 (at' / 8)), wrAt d (d.crumbArea + at') bs]
      match encodeSegs s x i rest (at' + bs.length) free with
      | none => none
      | some (l, e, f, p) => some ((tile, ws.map (fun w => (d.bench, w.1, w.2)), fl1) :: l, e, f, p)
    else
      match encodeNm d (W.prune i.word) free sc codes with
      | none => none
      | some (bs, pruned) =>
        match encodeSegs s x i rest at' (free + 512) with
        | none => none
        | some (l, e, f, p) => some ((tile, [(d.bench, (d.base + (r * d.segs + u) * d.nmSegBytes : Int), bs)], fl1) :: l, e, f, pruned + p)

/-- The parts of one tile gathered. -/
def gatherTile (l : List (Nat × List (Bool × Int × List Byte) × Flags)) (n : Nat) : BlockOut :=
  let mine := l.filter (fun p => p.1 == n)
  ⟨mine.flatMap (fun p => p.2.1), Flags.orAll (mine.map (fun p => p.2.2)), [], 0⟩

/-- The NZ_COUNT fields of crumbs, each header checked under the first row of R155 (R164). -/
def censusHeaders (s : State) (c space : Nat) (d : Desc) : List (Nat × Nat) → State × Except MemErr Nat
  | [] => (s, .ok 0)
  | (r, seg) :: rest =>
    andThen (fetchBytes s c space d (4 * (r * d.segs + seg)) 4) (fun s1 e =>
      andThen (fetchBytes s1 c space d (d.crumbArea + 8 * leNat e) 8) (fun s2 h =>
        if !crumbHeaderOk d.fmt h then (s2, .error ⟨FC.crumbHeaderBad, 0, 0⟩)
        else andThen (censusHeaders s2 c space d rest) (fun s3 n => (s3, .ok (crumbCount h + n)))))

/-- The census of block (`bi`, `bj`) (R99). -/
def censusOf (s : State) (x : Step) (i : Inst) (bi bj : Nat) : State × Except MemErr Nat :=
  let d := i.desc .srca
  let w := i.word
  let rows := (List.range (min 256 (W.m w - 256 * bi))).map (fun r => W.rowOffV w + 256 * bi + r)
  let c1 := min (256 * bj + 256) (W.nV w)
  if d.comp = 1 then censusHeaders s (coreOf x.tray) (spaceOf s x.tray) d (rows.map (fun r => (r, bj)))
  else if d.comp = 0 then (s, .ok (rows.length * (c1 - 256 * bj)))
  else (s, .ok (rows.length * groupsOver d.comp (256 * bj) c1 * (nmOf d.comp).1))

/-- Elements of a row of a census. -/
def censusRow (s : State) (x : Step) (i : Inst) (row : Nat) : List Nat → State × Except MemErr (List WEl)
  | [] => (s, .ok [])
  | j :: rest =>
    andThen (censusOf s x i row j) (fun s1 n =>
      andThen (censusRow s1 x i row rest) (fun s2 l => (s2, .ok (⟨j, .rne, .nan, some n⟩ :: l))))

/-- One tile's part of a row block of a census. -/
def censusTile (s : State) (x : Step) (i : Inst) (n : Nat) : List Nat → State × Except MemErr BlockOut
  | [] => (s, .ok ⟨[], .none, [], 0⟩)
  | row :: rest =>
    let o := i.tile n
    let d := i.desc .dst
    andThen (censusRow s x i row ((List.range o.cols).map (fun j => o.col0 + j))) (fun s1 els =>
      andThen (writeRow s1 (coreOf x.tray) (spaceOf s x.tray) d row els) (fun s2 w =>
        andThen (censusTile s2 x i n rest) (fun s3 b => (s3, .ok ⟨w.1.map (fun y => (d.bench, y.1, y.2)) ++ b.writes, .none, [], 0⟩))))

/-- Every tile's part of a row block of a census. -/
def censusTiles (s : State) (x : Step) (i : Inst) (rows : List Nat) : List Nat → State × Except MemErr (List (Nat × BlockOut))
  | [] => (s, .ok [])
  | n :: rest => andThen (censusTile s x i n rows) (fun s1 b => andThen (censusTiles s1 x i rows rest) (fun s2 bs => (s2, .ok ((n, b) :: bs))))

/-- A row-block step of SPX.EXP, SPX.CMP or SPX.CEN. -/
def convertStep (s : State) (x : Step) (i : Inst) : State :=
  let t := x.tray
  let b := x.k
  let tiles := rowTiles i b
  if x.kind = .census then
    match censusTiles s x i (blockRows (outShapeV i.mn i.word).1 b) tiles with
    | (s1, .error e) => memFault s1 t x.seq e
    | (s1, .ok parts) => outRow s1 t x.seq b parts
  else
    match rowsIn s x i (blockRows (W.m i.word) b) with
    | (s1, .error e) => memFault s1 t x.seq e
    | (s1, .ok rows) =>
      if x.kind = .expand then
        match expandTiles s1 x i rows tiles with
        | (s2, .error e) => memFault s2 t x.seq e
        | (s2, .ok parts) => outRow s2 t x.seq b parts
      else
        let segs := rows.flatMap (fun p => (chunks 256 p.2).zipIdx.map (fun q => (p.1, q.2, q.1)))
        let start := crumbStart i b
        match encodeSegs s1 x i segs start s1.free with
        | none => faultInst s1 t x.seq FC.sparseGroupOver 0 0
        | some (l, stop', free, pruned) =>
          let s2 := (s1.setFree free).modInst t x.seq (fun y => { y with marks := y.marks.take b ++ [(stop' - start, pruned)] })
          outRow s2 t x.seq b (tiles.map (fun n => (n, gatherTile l n)))

/-! ### The current step (R144, R146, R159) -/

/-- Whether a Sieve step is ready (R24, R28, R138): it is the next of its tray, its inputs are there, and its plane is built. -/
def sieveReady (s : State) (c : Nat) (x : Step) : Bool :=
  mayStep s x && firstOfTray (sieve s c).queue x && creditsHeld s x.tray x.seq [.srca] ⟨x.tile, x.k⟩ && allOn s (engDoms c .sieve x.kind) &&
    (!x.kind.product || (planeOf (sieve s c) x).isSome)

/-- The oldest ready step (R29). -/
def nextSieveStep (s : State) (c : Nat) : Option Step := argMin (stepOrder (sieve s c).lastTray) ((sieve s c).queue.filter (sieveReady s c))

/-- Rows of a step's A block: those inside the tensor, and the rest of M_t when the padding value counts as stored (R136, R303, R311). -/
def rowsOfStep (i : Inst) (g : Grid) (n : Nat) : Nat := if (padEl (i.desc .srca)).stored then g.mt else (i.tile n).rows

/-- The rows of A of a step; a row that fails its check is given by its code, and any other failure stops the reading. -/
def sieveRows (s : State) (t : Nat) (i : Inst) (g : Grid) (sel : Option (List Nat)) (p : PStep) : List Nat → State × Except MemErr (List (Except Nat (List El)) × Nat)
  | [] => (s, .ok ([], 0))
  | row :: rest =>
    let go := fun (s' : State) (r : Except Nat (List El)) (seen : Nat) =>
      andThen (sieveRows s' t i g sel p rest) (fun s2 l => (s2, .ok (r :: l.1, seen ||| l.2)))
    if (i.tile p.tile).rows ≤ row then go s (.ok (List.replicate g.kt (padEl (i.desc .srca)))) 0
    else match rowOfA s t i g sel p row with
    | (s1, .ok (l, seen)) => go s1 (.ok l) seen
    | (s1, .error e) =>
      if e.code = FC.crumbHeaderBad ∨ e.code = FC.crumbRunOver ∨ e.code = FC.crumbCountMismatch then go s1 (.error e.code) 0
      else (s1, .error e)

/-- The stored values of A, row-major, each as its row and reduction position; a row that fails its check stands as a cut. -/
def scatterItems (seg : Nat) (rows : List (Except Nat (List El))) : List SItem :=
  let vals := rows.zipIdx.flatMap (fun p =>
    match p.1 with
    | .ok l => (l.zipIdx.filter (fun e => e.1.stored)).map (fun e => (p.2, e.2))
    | .error _ => [])
  let bad := rows.zipIdx.filterMap (fun p => match p.1 with | .error code => some (p.2, code) | .ok _ => none)
  match bad with
  | [] => (chunks seg vals).map SItem.seg
  | (m, code) :: _ => (chunks seg (vals.filter (fun v => decide (v.1 < m)))).map SItem.seg ++ [.bad m code]

/-- The items of an intersect step: the rows that are not empty (R141). -/
def intersectItems (rows : List (Except Nat (List El))) : List SItem :=
  rows.zipIdx.filterMap (fun p =>
    match p.1 with
    | .ok l => if l.any El.stored then some (.row p.2) else none
    | .error code => some (.bad p.2 code))

/-- A product step becomes current in slot `j`, with its work in sequence. DESIGN CHOICE (log entry 50): the crumbs that R159 counts as non-empty are the rows of the A block and of the
plane that hold a stored value (R136), a row that fails its check among them: for a B read with TRANS = 1 the plane's rows, not the stored ones, and for an MX block of scale 0xFF
one that holds NaN. -/
def productStep (s : State) (c : Nat) (x : Step) (i : Inst) (pl : Plane) (j : Nat) : State :=
  let g := gridNow s x.tray i
  let sel := maskSel s x.tray i
  let p : PStep := ⟨x.tile, x.k⟩
  match sieveRows s x.tray i g sel p (List.range (rowsOfStep i g x.tile)) with
  | (s1, .error e) => memFault s1 x.tray x.seq e
  | (s1, .ok (rows, seen)) =>
    let snap := (s.tray x.tray).snap
    let ca := (tileCount i g sel .srca p).getD 0
    let live := fun (l : List El) => l.any El.stored
    let na := (rows.filter (fun r => match r with | .ok l => live l | .error _ => true)).length
    let nb := (pl.rows.filter live).length
    let scatter := i.mn == .sct || (i.mn != .int && (snap.mxmScatter || decide (ca ≤ na * nb)))
    let items := if scatter then scatterItems (max 1 (cdiv ca (clampN 1 1024 snap.segTarget))) rows else intersectItems rows
    let ok := rows.map (fun r => match r with | .ok l => l | .error _ => [])
    let s2 := s1.modInst x.tray x.seq (fun y => { y with lev := { y.lev with e := y.lev.e ||| seen } })
    let step := { x with kind := if scatter then .scatter else .intersect }
    readTray (readTray (s2.modSieve c (fun v => { v with cur := some { step := step, slot := j, aRows := ok, items := items } })) 13 x.tray 0) 3 x.tray 0

/-- The slot of a step's output tile: the one it holds, or a free one with every entry zero (R147). -/
def takeSlot (s : State) (c : Nat) (x : Step) (i : Inst) : Option (State × Nat) :=
  let v := sieve s c
  match slotOf v x.tray x.seq x.tile with
  | some j => some (s.modSieve c (fun y => { y with slots := Vec.put y.slots j ((Vec.get y.slots j none).map (fun a => { a with lastStep := s.ord })) }), j)
  | none =>
    match freeSlot v (W.comp i.word) with
    | none => none
    | some j =>
      let o := i.tile x.tile
      let a : AccSlot := { tray := x.tray, seq := x.seq, tile := x.tile, path := i.path, comp := W.comp i.word, closed := false,
                           rows := List.replicate o.rows (List.replicate o.cols (0, 0)), drained := 0, lastStep := s.ord, flags := .none }
      some (s.modSieve c (fun y => { y with slots := Vec.put y.slots j (some a) }), j)

/-- The current step's last work has been taken: the step is over. -/
def sieveStepEnds (s : State) (c : Nat) : State :=
  match (sieve s c).cur with
  | none => s
  | some x =>
    let st := x.step
    let s1 := s.modSieve c (fun v => { v with cur := none })
    let s2 := releaseBlock (releaseBlock s1 st.tray st.seq .srca ⟨st.tile, st.k⟩) st.tray st.seq .srcb ⟨st.tile, st.k⟩
    (stepEnds s2 st.tray st.seq).modSieve c Sieve.trim

/-- The Sieve is at a step boundary. -/
def sieveBoundary (s : State) (c : Nat) : Bool := (sieve s c).cur.isNone

/-- After a step boundary the oldest ready step becomes current (R146); a product step waits while no slot is free for its tile. -/
def nextCurrent (c : Nat) (s : State) : State :=
  if !sieveBoundary s c then s
  else
    match nextSieveStep s c with
    | none => s
    | some x =>
      if !sieveRuns s c x.kind then s
      else
        match s.inst x.tray x.seq with
        | none => s
        | some i =>
          let leave := fun (s' : State) => s'.modSieve c (fun v => { v with queue := v.queue.filter (fun z => z.ord != x.ord), lastTray := x.tray })
          if x.kind.product then
            match takeSlot s c x i, planeOf (sieve s c) x with
            | some (s1, j), some pl =>
              let s2 := productStep (leave s1).tick c x i pl j
              if ((sieve s2 c).cur).any (fun y => y.items.isEmpty) then sieveStepEnds s2 c else s2
            | _, _ => s
          else
            let s1 := convertStep (leave s) x i
            stepEnds (releaseBlock s1 x.tray x.seq .srca ⟨x.tile, x.k⟩) x.tray x.seq

/-- SIEVE_STEP_CURRENT (R146). -/
def execSieveStepCurrent (c : Nat) (s : State) : Host.Outcome State Fault Refusal := onCore c (nextCurrent c) s

/-! ### Work (R137, R141 to R145, R149, R150) -/

/-- A value added into entry (m, n) of a slot; one outside the tile's valid positions is never read. -/
def slotAdd (a : AccSlot) (m n x : Nat) (fl : Flags) : AccSlot :=
  if a.rows.length ≤ m ∨ (a.rows.getD m []).length ≤ n then a
  else
    let (v, f) := addEntry a.path a.comp ((a.rows.getD m []).getD n (0, 0)) (x, 0)
    { a with rows := modAt a.rows m (fun r => setAt r n v), flags := (a.flags.or fl).or f }

/-- The flags of reading the operands of matched products. -/
def matchFlags (dA dB : Desc) (l : List (El × El)) : Flags := (elFlags dA (l.map (fun x => x.1))).or (elFlags dB (l.map (fun x => x.2)))

/-- The cycles of the pair of row `m` with plane row `n`: sixteen matches a cycle, and the register added with the last (R141, R142). `x` is the step, `j` the place of its slot. -/
def pairCycles (p : Path) (dA dB : Desc) (x : Step) (comp : Bool) (j m n : Nat) (row col : List El) : List GroupCycle :=
  let hits := (row.zip col).filter (fun q => q.1.stored && q.2.stored)
  let (v, f) := pairSum p dA dB hits
  let reg : LaneProd := { lane := laneOf comp j m n, slot := j, m := m, n := n, val := v, flags := f.or (matchFlags dA dB hits), cyc := 0 }
  if hits.isEmpty then [⟨x, [], 0, 1⟩]
  else
    let parts := chunks 16 hits
    parts.zipIdx.map (fun q => ⟨x, if q.2 + 1 = parts.length then [reg] else [], q.1.length, b2n (decide (q.2 = 0))⟩)

/-- The cycles of stored value (`m`, `k`) of A: sixteen products a cycle, each to an entry of its own (R143). -/
def valueCycles (p : Path) (dA dB : Desc) (x : Step) (comp : Bool) (j m k : Nat) (e : El) (plane : List (List El)) : List GroupCycle :=
  let hits := plane.zipIdx.filterMap (fun q => let b := q.1.getD k ⟨0, 0, false⟩; if b.stored then some (q.2, b) else none)
  let prod := fun (h : Nat × El) =>
    let (v, f) := laneProduct p dA dB e h.2
    ({ lane := laneOf comp j m h.1, slot := j, m := m, n := h.1, val := v, flags := f.or (matchFlags dA dB [(e, h.2)]), cyc := 0 } : LaneProd)
  if hits.isEmpty then [⟨x, [], 0, 1⟩]
  else (chunks 16 hits).zipIdx.map (fun q => ⟨x, q.1.map prod, q.1.length, b2n (decide (q.2 = 0))⟩)

/-- The cycles of an item: the pairs of a row in ascending n, or the stored values of a segment in their order. -/
def itemCycles (p : Path) (dA dB : Desc) (x : Step) (comp : Bool) (j : Nat) (aRows plane : List (List El)) (it : SItem) : List GroupCycle :=
  match it with
  | .bad _ _ => []
  | .row m => plane.zipIdx.flatMap (fun q => if q.1.any El.stored then pairCycles p dA dB x comp j m q.2 (aRows.getD m []) q.1 else [])
  | .seg vals => vals.flatMap (fun v => valueCycles p dA dB x comp j v.1 v.2 ((aRows.getD v.1 []).getD v.2 ⟨0, 0, false⟩) plane)

/-- A product added into its entry. -/
def addProd (slots : Vector (Option AccSlot) 16) (p : LaneProd) : Vector (Option AccSlot) 16 :=
  match Vec.get slots p.slot none with
  | some a => Vec.put slots p.slot (some (slotAdd a p.m p.n p.val p.flags))
  | none => slots

/-- The adds that a lane completes in one cycle: two products for one entry are summed first (R149). -/
def addProds (slots : Vector (Option AccSlot) 16) (l : List LaneProd) : Vector (Option AccSlot) 16 :=
  match l, (l.head?.bind (fun p => Vec.get slots p.slot none)) with
  | [p, q], some a =>
    if p.slot = q.slot ∧ p.m = q.m ∧ p.n = q.n then
      let (v, f) := addEntry a.path false (p.val, 0) (q.val, 0)
      addProd slots { p with val := v.1, flags := (p.flags.or q.flags).or f }
    else addProd (addProd slots p) q
  | l, _ => l.foldl addProd slots

/-- The lanes' part of a cycle: each completes the adds of its first products that were multiplied four cycles ago, two of them, or one while a drain reads one of its entries (R149, R151). -/
def laneCycle (drains : Nat → Bool) (v : Sieve) : Sieve :=
  let due := fun (q : Nat × List LaneProd) => (q.2.take (if drains q.1 then 1 else 2)).takeWhile (fun p => decide (p.cyc + 4 ≤ v.clock))
  { v with slots := v.lanes.foldl (fun a q => addProds a (due q)) v.slots
           lanes := (v.lanes.map (fun q => (q.1, q.2.drop (due q).length))).filter (fun q => !q.2.isEmpty) }

/-- Whether every lane that a group's cycle sends to has a credit for each product: sixteen a lane (R150). -/
def creditsFree (lanes : List (Nat × List LaneProd)) (w : GroupCycle) : Bool :=
  w.prods.all (fun p => decide ((Tab.get [] lanes p.lane).length + (w.prods.filter (fun q => q.lane == p.lane)).length ≤ 16))

/-- What the groups have done in a cycle so far: the lanes, the groups with their new counts, and what the counters gain. -/
structure Issued where
  lanes : List (Nat × List LaneProd)
  groups : List SifterGroup := []
  pairs : Nat := 0
  products : Nat := 0
  cycles : Nat := 0
  stalls : Nat := 0
  deriving DecidableEq, Repr

/-- A group in its turn: it issues its cycle's products when the credits are there, and is held otherwise (R150). -/
def groupTurn (clock : Nat) (r : Issued) (g : SifterGroup) : Issued :=
  match g.work with
  | [] => r
  | w :: rest =>
    if clock < g.start then { r with groups := r.groups ++ [g] }
    else if creditsFree r.lanes w then
      { lanes := w.prods.foldl (fun l p => Tab.put [] l p.lane (Tab.get [] l p.lane ++ [{ p with cyc := clock }])) r.lanes
        groups := if rest.isEmpty then r.groups else r.groups ++ [{ g with held := 0, work := rest }]
        pairs := r.pairs + w.pairs, products := r.products + w.products, cycles := r.cycles + 1, stalls := r.stalls }
    else { r with groups := r.groups ++ [{ g with held := g.held + 1 }], stalls := r.stalls + 1 }

/-- The groups' part of a cycle: those held longest first, then in ascending index (R150). -/
def groupsCycle (v : Sieve) : Issued :=
  (sortBy (fun g => (2 ^ 40 - g.held) * 512 + g.group) v.groups).foldl (groupTurn v.clock) { lanes := v.lanes }

/-- The first slot whose task traps saturation and that saturated (R60). -/
def trapOf (s : State) (c : Nat) : Option AccSlot :=
  (sieve s c).slots.toList.findSome? (fun o => o.bind (fun a =>
    if a.flags.sat && (s.inst a.tray a.seq).any (fun i => W.satTrap i.word) then some a else none))

/-- One cycle of the Sieve's lanes and groups, while its power and its governor let it run. `drains` says which lanes a drain reads. -/
def sieveCycle (c : Nat) (drains : Nat → Bool) (s : State) : State :=
  let v := sieve s c
  if !sieveRuns s c .scatter || (v.groups.isEmpty && v.lanes.isEmpty) then s
  else
    let v1 := laneCycle drains v
    let r := groupsCycle v1
    let s1 := s.modSieve c (fun _ => Sieve.trim { v1 with lanes := r.lanes, groups := r.groups, clock := v1.clock + 1 })
    let s2 := (((s1.count (Csr.svePairs c) r.pairs).count (Csr.sveProducts c) r.products).count (Csr.sveGroupCycles c) r.cycles).count (Csr.sveCqStalls c) r.stalls
    match trapOf s2 c with
    | some a => faultInst s2 a.tray a.seq FC.numericSatTrap 0 0
    | none => s2

/-- Cycles of the Sieve until something holds of it. `fuel` bounds them. -/
def sieveUntil (c : Nat) (ends : Sieve → Bool) : Nat → State → State
  | 0, s => s
  | fuel + 1, s => if ends (sieve s c) then s else sieveUntil c ends fuel (sieveCycle c (fun _ => false) s)

/-- More cycles than the Sieve's present work can take: in every eight of them some product is added or issued. -/
def sieveFuel (v : Sieve) : Nat :=
  64 + 8 * (v.groups.foldl (fun a g => a + g.work.foldl (fun b w => b + 1 + w.prods.length) 0) 0 + v.lanes.foldl (fun a q => a + q.2.length) 0)

/-- Cycles that a group still has before it, at most two when it takes its next work (R145). -/
def groupNears (group : Nat) (v : Sieve) : Bool := v.groups.all (fun g => g.group != group || decide (g.work.length ≤ 2))

/-- Work put behind what a group has left; an idle group starts it two cycles later (R145). -/
def giveWork (group : Nat) (work : List GroupCycle) (v : Sieve) : Sieve :=
  if v.groups.any (fun g => g.group == group) then { v with groups := v.groups.map (fun g => if g.group = group then { g with work := g.work ++ work } else g) }
  else { v with groups := v.groups ++ [⟨group, v.clock + 2, 0, work⟩] }

/-- A sifter group takes the next segment or item (R141 to R145, R228). The Sieve's cycles pass until it is near the end of its work, and `wait` cycles more. -/
def takeWork (c group wait : Nat) (s0 : State) : State :=
  let s := sieveUntil c (fun _ => false) wait (sieveUntil c (groupNears group) (sieveFuel (sieve s0 c)) s0)
  match (sieve s c).cur with
  | none => s
  | some x =>
    let st := x.step
    if !sieveRuns s c .scatter || !mayRun s st.tray || !groupNears group (sieve s c) then s
    else
      match x.items, s.inst st.tray st.seq, Vec.get (sieve s c).slots x.slot none, planeOf (sieve s c) st with
      | .bad _ code :: _, some _, _, _ => faultInst s st.tray st.seq code 0 0
      | it :: rest, some i, some a, some pl =>
        let work := itemCycles a.path (i.desc .srca) (i.desc .srcb) st a.comp x.slot x.aRows pl.rows it
        let s1 := s.modSieve c (fun v => { giveWork group work v with cur := some { x with items := rest } })
        if rest.isEmpty then sieveStepEnds s1 c else wrote s1 3 c st.tray
      | _, _, _, _ => s

/-- GROUP_TAKE_WORK (R145). -/
def execGroupTakeWork (c group wait : Nat) (s : State) : Host.Outcome State Fault Refusal :=
  if 512 ≤ group then .fault (.noSuchUnit "sifter group" group) else onCore c (takeWork c group wait) s

/-! ### Close, drain, spill (R147, R151, R153) -/

/-- No group and no lane has a product for a slot. -/
def slotQuiet (slot : Nat) (v : Sieve) : Bool :=
  v.groups.all (fun g => g.work.all (fun w => w.prods.all (fun p => p.slot != slot))) && v.lanes.all (fun q => q.2.all (fun p => p.slot != slot))

/-- The Sieve's cycles pass until every product for a slot has been added. -/
def settleSlot (c slot : Nat) (s : State) : State := sieveUntil c (slotQuiet slot) (sieveFuel (sieve s c)) s

/-- A slot that drains from now on. -/
def beginDrain (s : State) (c slot : Nat) (a : AccSlot) : State :=
  (s.modSieve c (fun v => { v with slots := Vec.put v.slots slot (some { a with closed := true }), closed := v.closed ++ [slot] })).modTile a.tray a.seq a.tile (fun o =>
    { o with drains := o.drains + 1 })

/-- A slot closes once its closing step's last product is added. -/
def closeSlot (c slot : Nat) (s0 : State) : State :=
  let s := settleSlot c slot s0
  match Vec.get (sieve s c).slots slot none with
  | none => s
  | some a => if a.closed || !slotEnded s c a || !slotQuiet slot (sieve s c) || !mayRun s a.tray then s else beginDrain s c slot a

/-- SLOT_CLOSE (R147). -/
def execSlotClose (c slot : Nat) (s : State) : Host.Outcome State Fault Refusal :=
  if 16 ≤ slot then .fault (.noSuchUnit "accumulator slot" slot) else onCore c (closeSlot c slot) s

/-- Whether a lane holds an entry of four rows of a slot. -/
def drainLane (a : AccSlot) (j lane : Nat) : Bool :=
  (List.range 4).any (fun r => (List.range 256).any (fun n => laneOf a.comp j (a.drained + r) n == lane))

/-- The lanes that a drain of the first closed slot reads. -/
def drainLanes (s : State) (c lane : Nat) : Bool :=
  match (sieve s c).closed.head?.bind (fun j => (Vec.get (sieve s c).slots j none).map (fun a => (j, a))) with
  | some (j, a) => drainLane a j lane
  | none => false

/-- Four rows of the first closed slot go to port 2, and their entries are cleared; the slot is free after its last (R151). The drain takes one cycle, in which a lane that it reads
completes one add. -/
def drainSlot (c : Nat) (s0 : State) : State :=
  let s := sieveCycle c (drainLanes s0 c) s0
  let v := sieve s c
  match v.closed with
  | [] => s
  | j :: rest =>
    match Vec.get v.slots j none with
    | none => s.modSieve c (fun y => { y with closed := rest })
    | some a =>
      if !allOn s [coreDom c 4] || s.stop.isSome || !mayRun s a.tray || decide (48 ≤ (s.port c 2).length) then s
      else
        let arr : Arrival := { tray := a.tray, seq := a.seq, tile := a.tile, row := a.drained, rows := (a.rows.drop a.drained).take 4, fromSieve := true,
                               flags := if a.drained = 0 then a.flags else .none }
        let s1 := wrote (s.setPort c 2 (s.port c 2 ++ [arr])) 7 c a.tray
        if a.rows.length ≤ a.drained + 4 then s1.modSieve c (fun y => { y with slots := Vec.put y.slots j none, closed := rest })
        else s1.modSieve c (fun y => { y with slots := Vec.put y.slots j (some { a with drained := a.drained + 4, rows := clearRows a.drained a.rows }) })
where
  /-- Four rows from row `r` on with every entry zero. -/
  clearRows (r : Nat) (rows : List (List (Nat × Nat))) : List (List (Nat × Nat)) :=
    rows.zipIdx.map (fun p => if r ≤ p.2 ∧ p.2 < r + 4 then p.1.map (fun _ => (0, 0)) else p.1)

/-- SLOT_DRAIN (R151). -/
def execSlotDrain (c : Nat) (s : State) : Host.Outcome State Fault Refusal := onCore c (drainSlot c) s

/-- The slot that a spill takes: of the open ones whose tile has Sieve work to come, that whose most recent step is oldest (R153). -/
def spillVictim (s : State) (c : Nat) : Option (Nat × AccSlot) :=
  argMin (fun p => p.2.lastStep) ((List.range 16).filterMap (fun j =>
    (Vec.get (sieve s c).slots j none).bind (fun a => if a.closed || slotEnded s c a then none else some (j, a))))

/-- The oldest ready step waits for a slot, and none has been freed for the window: an open slot spills, draining as a pass that is not final (R153). -/
def spillSlot (c : Nat) (s : State) : State :=
  let v := sieve s c
  match nextSieveStep s c with
  | none => s
  | some x =>
    match s.inst x.tray x.seq, spillVictim s c with
    | some i, some (j, _) =>
      if !sieveBoundary s c || !x.kind.product || (slotOf v x.tray x.seq x.tile).isSome || (freeSlot v (W.comp i.word)).isSome then s
      else
        let s1 := settleSlot c j s
        match Vec.get (sieve s1 c).slots j none with
        | none => s1
        | some a =>
          if !slotQuiet j (sieve s1 c) then s1
          else ((beginDrain s1 c j a).modTile a.tray a.seq a.tile (fun o => { o with total := o.total.map (fun n => n + 1) })).count (Csr.sveSpillBreaks c) 1
    | _, _ => s

/-- SIEVE_SLOT_SPILL (R153). -/
def execSieveSlotSpill (c : Nat) (s : State) : Host.Outcome State Fault Refusal := onCore c (spillSlot c) s

end Sys2Proof.Machine
end

