-- ==== Sys2Proof/Machine/Func.lean ====
section
/-! DEFINITION. The FUNC operations of the vector engine's line whose results R277 bounds: the real values of R275 to more than two hundred bits, and the bound on the free result. -/

namespace Sys2Proof.Machine

/-! ### Reals in units of 2^-256 -/

/-- One. -/
def fxOne : Nat := 2 ^ 256

/-- A product. -/
def fxMul (a b : Nat) : Nat := (a * b) / fxOne

/-- A quotient. -/
def fxDiv (a b : Nat) : Nat := (a * fxOne) / b

/-- The magnitude `m × 2^e` of an FP32 value, at most `cap`; every FP32 value below it is exact. -/
def fxOf (m : Nat) (e : Int) (cap : Nat) : Nat := if 40 ≤ e then (if m = 0 then 0 else cap) else min cap (m <<< (e + 256).toNat)

/-- `term + term × y ÷ k + …`: the exponential series from its `k`-th term on. -/
def fxExpFrom (y : Nat) : Nat → Nat → Nat → Nat
  | 0, _, _ => 0
  | n + 1, k, term => term + fxExpFrom y n (k + 1) (fxMul term y / k)

/-- e^y for y below one. -/
def fxExp (y : Nat) : Nat := fxExpFrom y 70 1 fxOne

/-- `p ÷ k + p × t2 ÷ (k + 2) + …`: the series of the inverse hyperbolic tangent. -/
def fxAtanhFrom (t2 : Nat) : Nat → Nat → Nat → Nat
  | 0, _, _ => 0
  | n + 1, k, p => p / k + fxAtanhFrom t2 n (k + 2) (fxMul p t2)

/-- ln z for z from one to two. -/
def fxLn (z : Nat) : Nat :=
  let t := fxDiv (z - fxOne) (z + fxOne)
  2 * fxAtanhFrom (fxMul t t) 90 1 t

/-- ln 2. -/
def fxLn2 : Nat := fxLn (2 * fxOne)

/-- The series of arctan (1 ÷ q), terms alternating. -/
def fxAtanFrom (q : Nat) : Nat → Nat → Nat → Int
  | 0, _, _ => 0
  | n + 1, k, p => (p / k : Nat) - fxAtanFrom q n (k + 2) (p / (q * q))

/-- π. -/
def fxPi : Nat := (16 * fxAtanFrom 5 60 1 (fxOne / 5) - 4 * fxAtanFrom 239 60 1 (fxOne / 239)).toNat

/-- The series of the normal distribution's integral from 0 to x: the sum of (−1)^j × x^(2j+1) ÷ (2^j × j! × (2j+1)), from its `j`-th term on. -/
def fxErfFrom (x2 : Nat) : Nat → Nat → Nat → Int
  | 0, _, _ => 0
  | n + 1, j, p => (p / (2 * j + 1) : Nat) - fxErfFrom x2 n (j + 1) (fxMul p x2 / (2 * (j + 1)))

/-- Φ(x) for x = ±`x`, `x` at most 8. -/
def fxPhi (neg : Bool) (x : Nat) : Nat :=
  let root := isqrtBits (2 * fxPi * fxOne) 260 0
  let half := fxDiv (fxErfFrom (fxMul x x) 180 0 x).toNat root
  if neg then fxOne / 2 - half else fxOne / 2 + half

/-- 2^±(n + r ÷ ln 2), `r` below ln 2: a magnitude and its exponent. -/
def fxPower (neg : Bool) (n r : Nat) : Nat × Int :=
  let m := fxExp r
  if neg then (fxDiv fxOne m, -(n : Int) - 256) else (m, (n : Int) - 256)

/-- e^±x. -/
def fxExpOf (neg : Bool) (x : Nat) : Nat × Int := fxPower neg (x / fxLn2) (x % fxLn2)

/-- A signed fixed-point value. -/
def fxNum (x : Int) : Num := .fin (decide (x < 0)) x.natAbs (-256)

/-! ### The functions (R275) -/

/-- ln of `m × 2^e`, `m` not 0. -/
def fxLnOf (m : Nat) (e : Int) : Int := (e + Nat.log2 m) * fxLn2 + fxLn (m <<< (256 - Nat.log2 m))

/-- The value of 1 ÷ √(m × 2^e), `m` not 0. -/
def rsqrtReal (m : Nat) (e : Int) : Num :=
  let m' := if e % 2 = 0 then m else 2 * m
  let e' := if e % 2 = 0 then e else e - 1
  .fin false (isqrtBits (2 ^ 600 / m') 301 0) (-300 - e' / 2)

/-- The value of 1 ÷ (1 + e^−x). -/
def sigmoidReal (neg : Bool) (m : Nat) (e : Int) : Num :=
  let (t, k) := fxExpOf true (fxOf m e (1024 * fxOne))
  let low := t >>> (-(k + 256)).toNat
  if neg then .fin false (fxDiv t (fxOne + low)) k else .fin false (fxDiv fxOne (fxOne + low)) (-256)

/-- The value of tanh x. -/
def tanhReal (neg : Bool) (m : Nat) (e : Int) : Num :=
  let x := fxOf m e (1024 * fxOne)
  if x < 2 ^ 216 then .fin neg (m * fxOne * (3 * fxOne - fxMul x x) / (3 * fxOne)) (e - 256)
  else
    let (t, k) := fxExpOf true (2 * x)
    let low := t >>> (-(k + 256)).toNat
    .fin neg (fxDiv (fxOne - low) (fxOne + low)) (-256)

/-- The value of x × Φ(x); from 8 on, Φ is within 2^-40 of 0 or 1. -/
def geluReal (neg : Bool) (m : Nat) (e : Int) : Num :=
  let x := fxOf m e (9 * fxOne)
  if 8 * fxOne < x then (if neg then .fin true 0 0 else .fin false m e) else .fin neg (m * fxPhi neg x) (e - 256)

/-- The real value of a FUNC operation at ±`m × 2^e`, where it has one. -/
def funcReal (op : Nat) (neg : Bool) (m : Nat) (e : Int) : Num :=
  let x := fxOf m e (1024 * fxOne)
  match op with
  | 0x20 =>
    let p := fxPower neg (x / fxOne) (fxMul (x % fxOne) fxLn2)
    .fin false p.1 p.2
  | 0x21 => .fin false (fxExpOf neg x).1 (fxExpOf neg x).2
  | 0x22 => fxNum (fxLnOf m e * fxOne / fxLn2)
  | 0x23 => fxNum (fxLnOf m e)
  | 0x26 => rsqrtReal m e
  | 0x27 => sigmoidReal neg m e
  | 0x28 => tanhReal neg m e
  | _ => geluReal neg m e

/-! ### The bound (R277) -/

/-- The maximum error of a FUNC operation in units of the last place. -/
def funcUlps (op : Nat) : Nat := if op = 0x26 then 1 else if op ≤ 0x23 then 2 else 4

/-- Whether the difference of two values is at most `k × 2^q`. -/
def withinUnits (a b : Num) (k : Nat) (q : Int) : Bool :=
  match a.add b.neg with
  | .fin _ m e => !magLt k q m e
  | _ => false

/-- Whether R277 allows the result `y` where the real value is `v`. An exponential below the range's end may still round past it, as if its result were 2^128. -/
def funcAllows (op : Nat) (v y : Num) : Bool :=
  let q := match v with
    | .fin _ m e => if m = 0 then (-149 : Int) else quantum .fp32 m e
    | _ => -149
  let y' := match y with
    | .inf false => if op ≤ 0x21 then .fin false 1 128 else y
    | _ => y
  let over' := match v with
    | .fin _ m e => !magLt m e 1 128
    | _ => false
  !over' && (withinUnits y' v (funcUlps op) q || (op == 0x29 && withinUnits y' v 1 (-30)))

/-- A FUNC result for a finite input: the implementation's, which the bound of R277 holds; where it would not, the real value rounded stands in for it (R276). -/
def funcFree (op : Nat) (a : F32) : F32 × Flags :=
  match f32dec a with
  | .fin neg m e =>
    let v := funcReal op neg m e
    let y := f32dec (Config.funcBits op a)
    f32round (if funcAllows op v y then y else v)
  | _ => (f32nan, { nan := true })

end Sys2Proof.Machine
end

