-- ==== Sys2Proof/Machine/Knead.lean ====
section
/-! DEFINITION. Element programs and the Knead line: the checks of a program, the operations of a stage, and a strip's way through the eight stages (R273 to R286). -/

namespace Sys2Proof.Machine

/-! ### Programs (R274, R281, R282) -/

namespace KW
def op (w : Reg) : Nat := bf w 7 0
def d (w : Reg) : Nat := bf w 10 8
def sa (w : Reg) : Nat := bf w 14 12
def sb (w : Reg) : Nat := bf w 18 16
def sc (w : Reg) : Nat := bf w 22 20
def isel (w : Reg) : Nat := bf w 25 24
def imm (w : Reg) : Nat := bf w 63 32
end KW

/-- What an operation uses (R275, R281): its kind's stages, and whether it uses d, sa, sb, sc and IMM of its own. -/
structure OpUse where
  stages : List Nat
  d : Bool
  sa : Bool
  sb : Bool
  sc : Bool
  imm : Bool
  deriving DecidableEq, Repr

/-- The use of an operation code; none for an undefined one (R274, R275). -/
def opUse (op : Nat) : Option OpUse :=
  let all := List.range 8
  let func := [1, 3, 5, 7]
  let lane := [0, 4]
  match op with
  | 0x01 | 0x02 | 0x03 | 0x05 | 0x06 => some ⟨all, true, true, true, false, false⟩
  | 0x04 | 0x09 => some ⟨all, true, true, true, true, false⟩
  | 0x07 | 0x08 | 0x0A => some ⟨all, true, true, false, false, false⟩
  | 0x0B | 0x0C => some ⟨all, true, false, false, false, false⟩
  | 0x20 | 0x21 | 0x22 | 0x23 | 0x24 | 0x25 | 0x26 | 0x27 | 0x28 | 0x29 => some ⟨func, true, true, false, false, false⟩
  | 0x2A => some ⟨func, true, true, false, false, true⟩
  | 0x40 | 0x41 | 0x42 | 0x43 => some ⟨all, false, true, true, false, false⟩
  | 0x44 => some ⟨all, true, true, true, false, false⟩
  | 0x45 => some ⟨all, false, false, false, false, false⟩
  | 0x60 => some ⟨all, true, true, false, false, true⟩
  | 0x61 | 0x62 | 0x63 | 0x64 => some ⟨all, true, true, false, false, false⟩
  | 0x70 | 0x71 | 0x72 => some ⟨lane, true, true, false, false, true⟩
  | 0x73 => some ⟨lane, true, true, false, false, false⟩
  | 0xFF => some ⟨all, false, false, false, false, false⟩
  | _ => none

/-- Whether a stage word is legal at a stage (R274, R278, R281, R282). -/
def stageOk (stage : Nat) (w : Reg) : Bool :=
  match opUse (KW.op w) with
  | none => false
  | some u =>
    let sel := KW.isel w
    u.stages.contains stage && bf w 31 26 == 0 && !bit w 23 && !bit w 19 && !bit w 15 && !bit w 11 &&
    (sel == 0 || (sel == 1 && u.sb) || (sel == 2 && u.sc)) && (!u.imm || sel == 0) &&
    (u.d || KW.d w == 0) && (u.sa || KW.sa w == 0) && ((u.sb && sel != 1) || KW.sb w == 0) && ((u.sc && sel != 2) || KW.sc w == 0) &&
    (u.imm || sel != 0 || KW.imm w == 0) &&
    (KW.op w != 0x2A || decide (KW.imm w ≤ 16383)) &&
    (KW.op w != 0x60 || (decide (nbf (KW.imm w) 3 0 < 8) && decide (nbf (KW.imm w) 6 4 < 4) && nbf (KW.imm w) 31 7 == 0))

/-- Whether the nine words of a program are legal (R281, R282). -/
def programOk (ws : List Reg) : Bool :=
  let h := ws.getD 0 0
  bf h 63 5 == 0 && bf h 4 3 != 3 && (List.range 8).all (fun j => stageOk j (ws.getD (j + 1) 0))

/-- Whether a program has a LANE stage. -/
def hasLane (ws : List Reg) : Bool := (ws.drop 1).any (fun w => decide (0x70 ≤ KW.op w) && decide (KW.op w ≤ 0x73))

/-! ### Operations of one lane (R275 to R279) -/

/-- An element on the line (R273). -/
structure Lane where
  row : Nat
  col : Nat
  v : List F32
  p : Bool
  flags : Flags
  deriving DecidableEq, Repr

/-- A result that is some operand's value, canonical when it is a NaN (R45, R46). -/
def passF32 (a : F32) (r : F32) : F32 × Flags := if (f32dec a).isNan then (f32nan, { nan := true }) else (r, readFlags [f32dec a])

/-- A FUNC operation (R276, R277). -/
def funcOp (op : Nat) (a : F32) : F32 × Flags :=
  let x := f32dec a
  let bad : F32 × Flags := (f32nan, { nan := true })
  let seen := fun (r : F32) => (r, ({ inf := true } : Flags))
  match x with
  | .nan => bad
  | .inf neg =>
    match op with
    | 0x20 | 0x21 => seen (if neg then f32zero else f32inf false)
    | 0x22 | 0x23 => if neg then (f32nan, { nan := true, inf := true }) else seen (f32inf false)
    | 0x24 => f32div f32one a
    | 0x25 => f32sqrt a
    | 0x26 => if neg then (f32nan, { nan := true, inf := true }) else seen f32zero
    | 0x27 => seen (if neg then f32zero else f32one)
    | 0x28 => seen (if neg then 0xBF800000#32 else f32one)
    | _ => seen (if neg then 0x80000000#32 else f32inf false)
  | .fin neg m _ =>
    match op with
    | 0x22 | 0x23 => if m = 0 then seen (f32inf true) else if neg then bad else funcFree op a
    | 0x24 => f32div f32one a
    | 0x25 => f32sqrt a
    | 0x26 => if m = 0 then seen (f32inf neg) else if neg then bad else funcFree op a
    | _ => funcFree op a

/-- A value rounded to an integer value, its sign kept (R54, R275). -/
def integral (rm : Rnd) (a : F32) : F32 × Flags :=
  match f32dec a with
  | .fin neg m e => f32op [f32dec a] (.fin neg (roundInt rm neg m e).natAbs 0)
  | _ => passF32 a a

/-- QNT: a value rounded to a scalar format and back (R60, R281). -/
def quantize (ctl : Nat) (a : F32) : F32 × Flags :=
  let f := (Fmt.ofCode (nbf ctl 3 0)).getD .fp32
  let c := cvtScalar f ((Rnd.ofCode (nbf ctl 6 4)).getD .rne) (f32dec a)
  let (r, g) := f32round (decodeElem f c.code)
  (r, (c.flags.or g).or (readFlags [f32dec a]))

/-- The entry of TBL's index (R278). -/
def tableIndex (imm : Nat) (a : F32) : Nat :=
  match f32dec a with
  | .fin neg m e => (clampI 0 16383 (roundInt .rdn neg m e + imm)).toNat
  | .inf neg => if neg then 0 else 16383
  | .nan => 0

/-- The sources of a stage: registers, or the immediate where ISEL says so; a NaN immediate is canonical (R44, R281). -/
def sources (w : Reg) (v : List F32) : F32 × F32 × F32 :=
  let r := fun (j : Nat) => v.getD j f32zero
  let im := toF32 (f32dec (f32' (KW.imm w)))
  (r (KW.sa w), if KW.isel w = 1 then im else r (KW.sb w), if KW.isel w = 2 then im else r (KW.sc w))
where
  /-- FP32 bits of a number. -/
  f32' (x : Nat) : F32 := BitVec.ofNat 32 x

/-- A stage that is no LANE stage, on one lane (R275). `table` reads the tray's table entries, `rowOff` is ROW_OFF. -/
def laneStage (w : Reg) (table : Nat → F32) (rowOff : Nat) (l : Lane) : Lane :=
  let (a, b, c) := sources w l.v
  let x := f32dec a
  let y := f32dec b
  let put := fun (r : F32 × Flags) => { l with v := setAt l.v (KW.d w) r.1, flags := l.flags.or r.2 }
  let seen : Flags := { inf := x.isInf || y.isInf }
  let test := fun (p : Bool) => { l with p := p, flags := l.flags.or seen }
  match KW.op w with
  | 0x01 => put (f32add a b)
  | 0x02 => put (f32sub a b)
  | 0x03 => put (f32mul a b)
  | 0x04 => put (f32fma a b c)
  | 0x05 => put (f32min a b)
  | 0x06 => put (f32max a b)
  | 0x07 => put (passF32 a (a &&& 0x7FFFFFFF#32))
  | 0x08 => put (passF32 a (f32neg a))
  | 0x09 => let (r, f) := f32max a b; let (q, g) := f32min r c; put (q, f.or g)
  | 0x0A => put (passF32 a a)
  | 0x0B => put (toF32 (.ofInt l.col), .none)
  | 0x0C => put (toF32 (.ofInt (rowOff + l.row : Nat)), .none)
  | 0x2A => if x.isNan then put (f32nan, { nan := true }) else
      let e := f32dec (table (tableIndex (KW.imm w) a))
      put (toF32 e, (readFlags [x]).or (readFlags [e]))
  | 0x40 => test (x.lt y)
  | 0x41 => test (x.lt y || x.eq y)
  | 0x42 => test (x.eq y)
  | 0x43 => test (!x.eq y)
  | 0x44 => put (if l.p then a else b, seen)
  | 0x45 => { l with p := !l.p }
  | 0x60 => put (quantize (KW.imm w) a)
  | 0x61 => put (integral .rdn a)
  | 0x62 => put (integral .rup a)
  | 0x63 => put (integral .rtz a)
  | 0x64 => put (integral .rne a)
  | 0xFF => l
  | op => put (funcOp op a)

/-! ### Strips (R265, R280) -/

/-- The lane that lane `j` of a strip of `vl` lanes reads under a LANE operation; none for one beyond the strip (R275, R280). -/
def sourceLane (op imm vl j : Nat) : Option Nat :=
  match op with
  | 0x70 => if imm < vl then some imm else none
  | 0x71 => some ((j + imm) % max 1 vl)
  | 0x72 => if j ^^^ imm < vl then some (j ^^^ imm) else none
  | _ => some (vl - 1 - j)

/-- Whether a stage word is a LANE stage. -/
def isLane (w : Reg) : Bool := decide (0x70 ≤ KW.op w) && decide (KW.op w ≤ 0x73)

/-- A LANE stage on a strip, and the number of its lanes that read +0 for a lane beyond the strip (R280). -/
def crossStage (w : Reg) (vl : Nat) (ls : List Lane) : List Lane × Nat :=
  let src := ls.map (fun l => l.v.getD (KW.sa w) f32zero)
  let moved := ls.zipIdx.map (fun p =>
    match sourceLane (KW.op w) (KW.imm w) vl p.2 with
    | some j =>
      let x := src.getD j f32zero
      ({ p.1 with v := setAt p.1.v (KW.d w) x, flags := p.1.flags.or { inf := (f32dec x).isInf } }, 0)
    | none => ({ p.1 with v := setAt p.1.v (KW.d w) f32zero, flags := p.1.flags.or { permRange := true } }, 1))
  (moved.map (fun p => p.1), moved.foldl (fun a p => a + p.2) 0)

/-- A strip's way through the stages (R273). -/
def runStages (ws : List Reg) (vl : Nat) (table : Nat → F32) (rowOff : Nat) (ls : List Lane) : List Lane × Nat :=
  ws.foldl (fun (a : List Lane × Nat) w =>
    if isLane w then let (l, n) := crossStage w vl a.1; (l, a.2 + n)
    else (a.1.map (laneStage w table rowOff), a.2)) (ls, 0)

end Sys2Proof.Machine
end

