-- ==== Sys2Proof/Machine/Vector.lean ====
section
/-! DEFINITION. The vector engine: program loads, the broadcast area, and the row-block steps of VXP.RUN, VXP.PRM, VXP.CPR, VXP.EXD and VXP.RED (R263 to R295). -/

namespace Sys2Proof.Machine

/-! ### Program loads (R272, R282, R283) -/

/-- The program words of a VXP.LDP. -/
def ldpWords (s : State) (x : Step) (i : Inst) : State × Except MemErr (List Reg) :=
  let d := i.desc .srca
  andThen (rowEls s (coreOf x.tray) (spaceOf s x.tray) d .tensor (W.rowOffV i.word) 0 18 d.cols) (fun s1 l =>
    (s1, .ok ((chunks 2 l).map (fun p => BitVec.ofNat 64 ((p.getD 0 (padEl d)).code + (p.getD 1 (padEl d)).code * 2 ^ 32)))))

/-- The table entries of a VXP.LDP. -/
def ldpTable (s : State) (x : Step) (i : Inst) : State × Except MemErr (List F32) :=
  let n := W.nV i.word
  if n = 0 then (s, .ok [])
  else
    let d := i.desc .srcb
    andThen (rowEls s (coreOf x.tray) (spaceOf s x.tray) d .tensor (W.rowOffV i.word) 0 n d.cols) (fun s1 l =>
      (s1, .ok (l.map (fun e => if d.fmt = 7 then BitVec.ofNat 32 e.code else toF32 (e.val d)))))

/-- A program load: the words are checked before anything is written; then the slot and the table entries are written, and the streams of waiting runs of that slot start (R282, R283). -/
def loadProgram (s : State) (x : Step) (i : Inst) : State :=
  let t := x.tray
  let c := coreOf t
  let key := 16 * (t % 8) + W.prog i.word
  match ldpWords s x i with
  | (s1, .error e) => memFault s1 t x.seq e
  | (s1, .ok ws) =>
    if !programOk ws then faultInst (s1.modVec c (fun v => { v with programs := Tab.put [] v.programs key [], marks := Tab.put false v.marks key false })) t x.seq FC.vxpProgBad 0 0
    else
      match ldpTable s1 x i with
      | (s2, .error e) => memFault s2 t x.seq e
      | (s2, .ok es) =>
        let s3 := s2.modVec c (fun v =>
          { v with queue := v.queue.filter (fun z => z.ord != x.ord), lastTray := t, programs := Tab.put [] v.programs key ws
                   tables := es.zipIdx.foldl (fun m p => Tab.put 0 m (16384 * (t % 8) + W.m i.word + p.2) p.1) v.tables })
        let s4 := writeCache (stepEnds (s3.modInst t x.seq (fun y => { y with done := true })) t x.seq) t
        ((s4.tray t).insts.filter (fun j => j.mn == .run && j.released && !j.zeroShape && W.prog j.word == W.prog i.word && decide (x.seq < j.seq))).foldl
          (fun s' j => startStreams s' t j.seq) s4

/-! ### The broadcast area (R270, R271) -/

/-- The operands of an instruction that are not full, with the rows and columns that each reads. -/
def bcastRoles (i : Inst) : List (Role × List Nat × Nat) :=
  let w := i.word
  let operand := fun (r : Role) =>
    match classOf (i.desc r) (W.rowOffV w) (W.m w) (W.nV w) with
    | some .scalar => [(r, [0], 1)]
    | some .row => [(r, [0], W.nV w)]
    | some .column => [(r, (List.range (W.m w)).map (fun m => W.rowOffV w + m), 1)]
    | _ => []
  let mask : List (Role × List Nat × Nat) := if W.maskEn w && decide ((i.desc .maskd).rows = 1) then [(.maskd, [0], cdiv (W.nV w) 32)] else []
  match i.mn with
  | .run => (if 1 ≤ i.nin then operand .srcb else []) ++ (if 2 ≤ i.nin then operand .srcc else []) ++ mask
  | .prm => (if (i.desc .srcb).rows = 1 ∧ i.set.vl ≤ (i.desc .srcb).cols then [(.srcb, [0], i.set.vl)] else []) ++ mask
  | _ => mask

/-- Rows of an operand read from its own memory, as FP32; mask words and indices stay as they are. -/
def bcastRead (s : State) (t : Nat) (i : Inst) (role : Role) (cols : Nat) : List Nat → State × Except MemErr (List (F32 × Flags))
  | [] => (s, .ok [])
  | r :: rest =>
    let d := i.desc role
    let raw := role == .maskd || i.mn == .prm
    andThen (rowEls s (coreOf t) (spaceOf s t) d .tensor r 0 cols d.cols) (fun s1 l =>
      andThen (bcastRead s1 t i role cols rest) (fun s2 ls => (s2, .ok (l.map (fun e => if raw then (BitVec.ofNat 32 e.code, Flags.none) else e.read d) ++ ls))))

/-- The operands loaded, in order, each only when it fits in what remains of `room` bytes (R271). -/
def bcastLoad (s : State) (t : Nat) (i : Inst) : List (Role × List Nat × Nat) → Nat → State × Except MemErr (List (Role × List (F32 × Flags)))
  | [], _ => (s, .ok [])
  | (role, rows, cols) :: rest, room =>
    let n := 4 * (rows.length * cols)
    if room < n then bcastLoad s t i rest room
    else
      andThen (bcastRead s t i role cols rows) (fun s1 l =>
        andThen (bcastLoad s1 t i rest (room - n)) (fun s2 ls => (s2, .ok ((role, l) :: ls))))

/-- The broadcast area of an instruction, loaded before its first strip; the operands that did not fit are counted once it is (R271). -/
def withBcast (s : State) (x : Step) (i : Inst) : State × Except MemErr Inst :=
  match i.bcast with
  | some _ => (s, .ok i)
  | none =>
    andThen (bcastLoad s x.tray i (bcastRoles i) 65536) (fun s1 l =>
      let s2 := (s1.count (Csr.vxeOcSpills (coreOf x.tray)) ((bcastRoles i).length - l.length)).modInst x.tray x.seq (fun y => { y with bcast := some l })
      (if l.isEmpty then s2 else writeCache s2 x.tray, .ok { i with bcast := some l }))

/-- The values of an operand along a row of the instruction, each with the flags of reading it (R46, R49, R269, R286). -/
def operandRow (s : State) (x : Step) (i : Inst) (role : Role) (row : Nat) : State × Except MemErr (List (F32 × Flags)) :=
  let w := i.word
  let n := W.nV w
  let d := i.desc role
  let kept := ((i.bcast.getD []).find? (fun p => p.1 == role)).map (fun p => p.2)
  let spread := fun (cls : InClass) (l : List (F32 × Flags)) =>
    match cls with
    | .scalar => List.replicate n (l.getD 0 (f32zero, .none))
    | .column => List.replicate n (l.getD (if kept.isSome then row else 0) (f32zero, .none))
    | _ => l
  match (if role = .srca then some InClass.full else classOf d (W.rowOffV w) (W.m w) n) with
  | some .full =>
    andThen (rowEls s (coreOf x.tray) (spaceOf s x.tray) d (placeRow (stepPlace s x.tray x.seq role ⟨x.tile, x.k⟩) (row % 4)) (W.rowOffV w + row) 0 n (min n d.cols))
      (fun s1 l => (s1, .ok (l.map (El.read d))))
  | some cls =>
    match kept with
    | some l => (s, .ok (spread cls l))
    | none =>
      let rows := if cls = .column then [W.rowOffV w + row] else [0]
      andThen (bcastRead s x.tray i role (if cls = .row then n else 1) rows) (fun s1 l => (s1, .ok (spread cls l)))
  | none => (s, .ok [])

/-! ### Cells written (R285, R287, R293, R294) -/

/-- An element of DST that a step writes, the flags of its lane, and whether it was computed. -/
structure Cell where
  el : WEl
  flags : Flags
  live : Bool
  deriving DecidableEq, Repr

/-- A value written at a column under the instruction's rounding. -/
def valueCell (s : State) (x : Step) (i : Inst) (row col : Nat) (v : F32) (fl : Flags) : Cell :=
  ⟨⟨col, rndOf i (s.tray x.tray).snap.srSeed (linIndex (i.desc .dst) (W.rowOffV i.word + row) col), f32dec v, none⟩, fl, true⟩

/-- A zero written at a column under zero masking. -/
def zeroCell (col : Nat) : Cell := ⟨⟨col, .rne, .fin false 0 0, some 0⟩, .none, false⟩

/-- Lane values under the mask of their row (R285). -/
def maskedCells (s : State) (x : Step) (i : Inst) (row : Nat) (mask : List Bool) (vals : List (F32 × Flags)) : List Cell :=
  vals.zipIdx.filterMap (fun p =>
    if mask.getD p.2 true then some (valueCell s x i row p.2 p.1.1 p.1.2)
    else if W.zmask i.word then some (zeroCell p.2) else none)

/-- What a row's computation gives: cells, lanes that read +0 for a lane beyond the strip, and further writes. -/
structure RowOut where
  row : Nat
  cells : List Cell
  perms : Nat
  extra : List (Bool × Int × List Byte)
  deriving DecidableEq, Repr

/-! ### VXP.RUN (R265, R269, R273, R280, R286) -/

/-- A row through the Knead line, strip by strip. Tail lanes are followed only where a LANE stage may read them. -/
def runRow (words : List Reg) (table : Nat → F32) (i : Inst) (row : Nat) (a b c : List (F32 × Flags)) : List (F32 × Flags) × Nat :=
  let n := W.nV i.word
  let vl := max 1 i.set.vl
  let h := words.getD 0 0
  let stages := (words.drop 1).take 8
  let zero : F32 × Flags := (f32zero, .none)
  let at' := fun (r : Role) (l : List (F32 × Flags)) (col : Nat) => if col < n then l.getD col zero else (padEl (i.desc r)).read (i.desc r)
  let lane := fun (col : Nat) =>
    let v0 := at' .srca a col
    let v1 := if 1 ≤ bf h 4 3 then at' .srcb b col else zero
    let v2 := if 2 ≤ bf h 4 3 then at' .srcc c col else zero
    ({ row := row, col := col, v := [v0.1, v1.1, v2.1, f32zero, f32zero, f32zero, f32zero, f32zero], p := true, flags := (v0.2.or v1.2).or v2.2 } : Lane)
  let outs := (List.range (cdiv n vl)).map (fun st =>
    let len := if hasLane words then vl else min vl (n - st * vl)
    let (ls, k) := runStages stages vl table (W.rowOffV i.word) ((List.range len).map (fun j => lane (st * vl + j)))
    ((ls.take (n - st * vl)).map (fun (l : Lane) => (l.v.getD (bf h 2 0) f32zero, l.flags)), k))
  (outs.flatMap (fun o => o.1), outs.foldl (fun acc o => acc + o.2) 0)

/-- A row of VXP.RUN. -/
def runOne (s : State) (x : Step) (i : Inst) (row : Nat) : State × Except MemErr RowOut :=
  let c := coreOf x.tray
  let words := Tab.get [] (s.core c).vec.programs (16 * (x.tray % 8) + W.prog i.word)
  let nin := bf (words.getD 0 0) 4 3
  let tabs := (s.core c).vec.tables
  let none' := fun (s' : State) => ((s', .ok []) : State × Except MemErr (List (F32 × Flags)))
  andThen (operandRow s x i .srca row) (fun s1 a =>
    andThen (if 1 ≤ nin then operandRow s1 x i .srcb row else none' s1) (fun s2 b =>
      andThen (if 2 ≤ nin then operandRow s2 x i .srcc row else none' s2) (fun s3 d =>
        andThen (rowMask s3 x i row) (fun s4 m =>
          let (vals, k) := runRow words (fun e => Tab.get 0 tabs (16384 * (x.tray % 8) + e)) i row a b d
          (s4, .ok ⟨row, maskedCells s4 x i row m vals, k, []⟩)))))

/-! ### VXP.PRM, VXP.CPR, VXP.EXD (R292 to R294) -/

/-- The indices of a permuted row, over its lanes, tail lanes included. -/
def permIndices (s : State) (x : Step) (i : Inst) (row : Nat) : State × Except MemErr (List Int) :=
  let d := i.desc .srcb
  let n := W.nV i.word
  let vl := max 1 i.set.vl
  let lanes := cdiv n vl * vl
  if d.rows = 1 ∧ i.set.vl ≤ d.cols then
    let give := fun (s' : State) (l : List (F32 × Flags)) => ((s', .ok ((List.range lanes).map (fun j => sext 32 (l.getD (j % vl) (f32zero, .none)).1.toNat))) : State × Except MemErr (List Int))
    match (i.bcast.getD []).find? (fun p => p.1 == .srcb) with
    | some p => give s p.2
    | none => andThen (bcastRead s x.tray i .srcb i.set.vl [0]) give
  else
    andThen (rowEls s (coreOf x.tray) (spaceOf s x.tray) d (placeRow (stepPlace s x.tray x.seq .srcb ⟨x.tile, x.k⟩) (row % 4)) (W.rowOffV i.word + row) 0 n (min n d.cols))
      (fun s1 l => (s1, .ok ((List.range lanes).map (fun j => sext 32 ((l.getD j (padEl d)).code % 2 ^ 32)))))

/-- A row of VXP.PRM (R292). -/
def permOne (s : State) (x : Step) (i : Inst) (row : Nat) : State × Except MemErr RowOut :=
  let n := W.nV i.word
  let vl := max 1 i.set.vl
  let src := i.desc .srca
  andThen (operandRow s x i .srca row) (fun s1 a =>
    andThen (permIndices s1 x i row) (fun s2 ix =>
      andThen (rowMask s2 x i row) (fun s3 m =>
        let vals := ix.zipIdx.map (fun p =>
          let out := decide (p.1 < 0) || decide ((vl : Int) ≤ p.1)
          let from' := p.2 / vl * vl + p.1.toNat
          let v : F32 × Flags := if out then (f32zero, { permRange := true }) else if from' < n then a.getD from' (f32zero, .none) else (padEl src).read src
          (v.1, v.2, out))
        let k := (vals.filter (fun v => v.2.2)).length
        (s3, .ok ⟨row, maskedCells s3 x i row m ((vals.take n).map (fun v => (v.1, v.2.1))), k, []⟩))))

/-- A row of VXP.CPR: the unmasked elements in front, their count to SRCB (R293). -/
def compressOne (s : State) (x : Step) (i : Inst) (row : Nat) : State × Except MemErr RowOut :=
  let n := W.nV i.word
  let cd := i.desc .srcb
  andThen (operandRow s x i .srca row) (fun s1 a =>
    andThen (rowMask s1 x i row) (fun s2 m =>
      let kept := ((a.zip m).filter (fun p => p.2)).map (fun p => p.1)
      let cells := kept.zipIdx.map (fun p => valueCell s2 x i row p.2 p.1.1 p.1.2)
      let zeros := if W.zmask i.word then ((List.range n).drop kept.length).map zeroCell else []
      let (ad, bs) := wrAt cd (cd.rowOffset (W.rowOffV i.word + row)) (leBytes 4 kept.length)
      (s2, .ok ⟨row, cells ++ zeros, 0, [(cd.bench, ad, bs)]⟩)))

/-- A row of VXP.EXD: the source's elements in order to the columns whose mask bit is 1 (R294). -/
def expandOne (s : State) (x : Step) (i : Inst) (row : Nat) : State × Except MemErr RowOut :=
  andThen (operandRow s x i .srca row) (fun s1 a =>
    andThen (rowMask s1 x i row) (fun s2 m =>
      let vals := m.zipIdx.map (fun p => a.getD ((m.take p.2).filter id).length (f32zero, .none))
      (s2, .ok ⟨row, maskedCells s2 x i row m vals, 0, []⟩)))

/-! ### Row blocks -/

/-- One row of an instruction. -/
def vectorRow (s : State) (x : Step) (i : Inst) (row : Nat) : State × Except MemErr RowOut :=
  match i.mn with
  | .prm => permOne s x i row
  | .cpr => compressOne s x i row
  | .exd => expandOne s x i row
  | _ => runOne s x i row

/-- The rows of a row block. -/
def vectorRows (s : State) (x : Step) (i : Inst) : List Nat → State × Except MemErr (List RowOut)
  | [] => (s, .ok [])
  | r :: rest => andThen (vectorRow s x i r) (fun s1 o => andThen (vectorRows s1 x i rest) (fun s2 os => (s2, .ok (o :: os))))

/-- One tile's part of a row block: its cells written, further writes with the first tile of the row. -/
def cellTile (s : State) (x : Step) (i : Inst) (n : Nat) : List RowOut → State × Except MemErr BlockOut
  | [] => (s, .ok ⟨[], .none, [], 0⟩)
  | o :: rest =>
    let d := i.desc .dst
    let mine := o.cells.filter (fun q => q.el.col / 256 == (i.tile n).n)
    andThen (writeRow s (coreOf x.tray) (spaceOf s x.tray) d (W.rowOffV i.word + o.row) (mine.map (fun q => q.el))) (fun s1 w =>
      andThen (cellTile s1 x i n rest) (fun s2 b =>
        (s2, .ok ⟨w.1.map (fun y => (d.bench, y.1, y.2)) ++ (if (i.tile n).n = 0 then o.extra else []) ++ b.writes,
                  (w.2.or (Flags.orAll (mine.map (fun q => q.flags)))).or b.flags, [], mine.length + b.elems⟩)))

/-- Every tile's part of a row block. -/
def cellTiles (s : State) (x : Step) (i : Inst) (rows : List RowOut) : List Nat → State × Except MemErr (List (Nat × BlockOut))
  | [] => (s, .ok [])
  | n :: rest => andThen (cellTile s x i n rows) (fun s1 b => andThen (cellTiles s1 x i rows rest) (fun s2 bs => (s2, .ok ((n, b) :: bs))))

/-- The counters and sticky bits of a row block's lanes (R280, R292, R298, R300). -/
def countLanes (s : State) (x : Step) (i : Inst) (rows : List RowOut) : State :=
  let c := coreOf x.tray
  let vl := max 1 i.set.vl
  let strips := rows.length * cdiv (W.nV i.word) vl
  let perms := rows.foldl (fun a o => a + o.perms) 0
  let s2 := if i.mn = .run ∨ i.mn = .prm then s.count (Csr.vxeActiveCycles c) (cdiv strips (max 1 (2048 / vl))) else s
  let s3 := s2.count (Csr.vxePermLanes c) perms
  if perms = 0 then s3 else s3.setFld (Csr.vxeStatus c) (24 + x.tray % 8) (24 + x.tray % 8) 1

/-- How many cells of each tile a mask let through (R240). -/
def countLive (s : State) (x : Step) (tiles : List Nat) (i : Inst) (rows : List RowOut) : State :=
  tiles.foldl (fun s' n =>
    let k := rows.foldl (fun a o => a + (o.cells.filter (fun q => q.live && q.el.col / 256 == (i.tile n).n)).length) 0
    s'.modTile x.tray x.seq n (fun o => { o with computed := o.computed + k })) s

/-- A row-block step on the line. -/
def lineStep (s : State) (x : Step) (i : Inst) : State :=
  let t := x.tray
  let tiles := rowTiles i x.k
  match vectorRows s x i (blockRows (W.m i.word) x.k) with
  | (s1, .error e) => memFault s1 t x.seq e
  | (s1, .ok rows) =>
    match cellTiles s1 x i rows tiles with
    | (s2, .error e) => memFault s2 t x.seq e
    | (s2, .ok parts) => outRow (countLive (countLanes s2 x i rows) x tiles i rows) t x.seq x.k parts

/-- A row-block step of the vector engine, after the instruction's broadcast operands are loaded (R267, R271). -/
def vectorStep (s : State) (x : Step) (i : Inst) : State :=
  let t := x.tray
  let c := coreOf t
  match withBcast s x i with
  | (s1, .error e) => memFault s1 t x.seq e
  | (s1, .ok j) =>
    let s2 := readCache (readTray s1 13 t 0) t
    if !mayRun s2 t then s2
    else
      let s3 := if i.mn = .red then reduceStep s2 x j else lineStep s2 x j
      let s4 := s3.modVec c (fun v => { v with queue := v.queue.filter (fun z => z.ord != x.ord), lastTray := t })
      stepEnds ((streamedV i).foldl (fun s' r => releaseBlock s' t x.seq r ⟨x.tile, x.k⟩) s4) t x.seq

/-- Whether a vector step is ready (R24, R28). -/
def vectorReady (s : State) (c : Nat) (x : Step) : Bool :=
  mayStep s x && firstOfTray (s.core c).vec.queue x &&
    (match s.inst x.tray x.seq with
      | some i => creditsHeld s x.tray x.seq (streamedV i) ⟨x.tile, x.k⟩
      | none => false)

/-- The vector engine starts the oldest ready step (R29, R267). -/
def vectorStart (c : Nat) (s : State) : State :=
  let v := (s.core c).vec
  if s.stop.isSome || !allOn s (engDoms c .vector .vector) || !mayIssue s false then s
  else
    match argMin (stepOrder v.lastTray) (v.queue.filter (vectorReady s c)) with
    | none => s
    | some x =>
      match s.inst x.tray x.seq with
      | none => s
      | some i => if x.kind = .loadProgram then loadProgram s x i else vectorStep s x i

/-- VECTOR_STEP_START (R267). -/
def execVectorStepStart (c : Nat) (s : State) : Host.Outcome State Fault Refusal := onCore c (vectorStart c) s

end Sys2Proof.Machine
end

