-- ==== Sys2Proof/Machine/Dispatch.lean ====
section
/-! DEFINITION. One arm per command: a direct call of its meaning. -/

namespace Sys2Proof.Machine

open Sys2Proof

/-- The effect of a command on everything but the queue. -/
def exec (i : Instr) (s : State) : Host.Outcome State Fault Refusal :=
  match i with
  | .ctrlNop t => Sys2Proof.Machine.execCtrlNop t s
  | .ctrlLoop t => Sys2Proof.Machine.execCtrlLoop t s
  | .ctrlEnd t => Sys2Proof.Machine.execCtrlEnd t s
  | .ctrlSetvl t => Sys2Proof.Machine.execCtrlSetvl t s
  | .ctrlCfg t => Sys2Proof.Machine.execCtrlCfg t s
  | .xferLd t => Sys2Proof.Machine.execXferLd t s
  | .xferSt t => Sys2Proof.Machine.execXferSt t s
  | .xferGather t => Sys2Proof.Machine.execXferGather t s
  | .xferScatter t => Sys2Proof.Machine.execXferScatter t s
  | .xferRemote t => Sys2Proof.Machine.execXferRemote t s
  | .xferPref t => Sys2Proof.Machine.execXferPref t s
  | .mxmMm t => Sys2Proof.Machine.execMxmMm t s
  | .mxmMms t => Sys2Proof.Machine.execMxmMms t s
  | .mxmLdw t => Sys2Proof.Machine.execMxmLdw t s
  | .spxInt t => Sys2Proof.Machine.execSpxInt t s
  | .spxSct t => Sys2Proof.Machine.execSpxSct t s
  | .spxExp t => Sys2Proof.Machine.execSpxExp t s
  | .spxCmp t => Sys2Proof.Machine.execSpxCmp t s
  | .spxCen t => Sys2Proof.Machine.execSpxCen t s
  | .vxpLdp t => Sys2Proof.Machine.execVxpLdp t s
  | .vxpRun t => Sys2Proof.Machine.execVxpRun t s
  | .vxpCpr t => Sys2Proof.Machine.execVxpCpr t s
  | .vxpExd t => Sys2Proof.Machine.execVxpExd t s
  | .vxpPrm t => Sys2Proof.Machine.execVxpPrm t s
  | .vxpRed t => Sys2Proof.Machine.execVxpRed t s
  | .peelCfg t => Sys2Proof.Machine.execPeelCfg t s
  | .peelStat t => Sys2Proof.Machine.execPeelStat t s
  | .peelUpd t => Sys2Proof.Machine.execPeelUpd t s
  | .levPred t => Sys2Proof.Machine.execLevPred t s
  | .levAud t => Sys2Proof.Machine.execLevAud t s
  | .syncWait t => Sys2Proof.Machine.execSyncWait t s
  | .syncSig t => Sys2Proof.Machine.execSyncSig t s
  | .syncBar t => Sys2Proof.Machine.execSyncBar t s
  | .fabSend t => Sys2Proof.Machine.execFabSend t s
  | .fabMcast t => Sys2Proof.Machine.execFabMcast t s
  | .fabRed t => Sys2Proof.Machine.execFabRed t s
  | .instructionComplete t k => Sys2Proof.Machine.execInstructionComplete t k s
  | .dispatch => Sys2Proof.Machine.execDispatch s
  | .recordWrite q => Sys2Proof.Machine.execRecordWrite q s
  | .notifyTimerExpire q => Sys2Proof.Machine.execNotifyTimerExpire q s
  | .drainDone t => Sys2Proof.Machine.execDrainDone t s
  | .tileStepQueue t => Sys2Proof.Machine.execTileStepQueue t s
  | .headerCountReport t k role bi bj => Sys2Proof.Machine.execHeaderCountReport t k role bi bj s
  | .zeroPassGenerate t => Sys2Proof.Machine.execZeroPassGenerate t s
  | .readAheadAdvance t => Sys2Proof.Machine.execReadAheadAdvance t s
  | .transferDescIssue c ch => Sys2Proof.Machine.execTransferDescIssue c ch s
  | .transferDescDone c ch slot => Sys2Proof.Machine.execTransferDescDone c ch slot s
  | .streamSlotFilled c stream slot => Sys2Proof.Machine.execStreamSlotFilled c stream slot s
  | .translationWalkDone w => Sys2Proof.Machine.execTranslationWalkDone w s
  | .prfDeadlockExpire c => Sys2Proof.Machine.execPrfDeadlockExpire c s
  | .spillCopyDone c => Sys2Proof.Machine.execSpillCopyDone c s
  | .spillAreaMove c => Sys2Proof.Machine.execSpillAreaMove c s
  | .spillExhausted c => Sys2Proof.Machine.execSpillExhausted c s
  | .arbGrant site inst err => Sys2Proof.Machine.execArbGrant site inst err s
  | .arbHeadForced site inst requester => Sys2Proof.Machine.execArbHeadForced site inst requester s
  | .scrubPassStart ctrl => Sys2Proof.Machine.execScrubPassStart ctrl s
  | .arrayGroupInject c a sub holes => Sys2Proof.Machine.execArrayGroupInject c a sub holes s
  | .weightFillDone c a => Sys2Proof.Machine.execWeightFillDone c a s
  | .weightLaunch c a => Sys2Proof.Machine.execWeightLaunch c a s
  | .planeReady c => Sys2Proof.Machine.execPlaneReady c s
  | .sieveStepCurrent c => Sys2Proof.Machine.execSieveStepCurrent c s
  | .groupTakeWork c group wait => Sys2Proof.Machine.execGroupTakeWork c group wait s
  | .slotClose c slot => Sys2Proof.Machine.execSlotClose c slot s
  | .slotDrain c => Sys2Proof.Machine.execSlotDrain c s
  | .sieveSlotSpill c => Sys2Proof.Machine.execSieveSlotSpill c s
  | .levBitmapTake c => Sys2Proof.Machine.execLevBitmapTake c s
  | .vectorStepStart c => Sys2Proof.Machine.execVectorStepStart c s
  | .peelArrival c port => Sys2Proof.Machine.execPeelArrival c port s
  | .coucheOverflow c => Sys2Proof.Machine.execCoucheOverflow c s
  | .tileGroupAlloc c => Sys2Proof.Machine.execTileGroupAlloc c s
  | .updateBlockCommit t => Sys2Proof.Machine.execUpdateBlockCommit t s
  | .batTimerExpire q => Sys2Proof.Machine.execBatTimerExpire q s
  | .doorbell m => Sys2Proof.Machine.execDoorbell m s
  | .batchMember m => Sys2Proof.Machine.execBatchMember m s
  | .resume m => Sys2Proof.Machine.execResume m s
  | .abort m => Sys2Proof.Machine.execAbort m s
  | .queueRestart m => Sys2Proof.Machine.execQueueRestart m s
  | .ringAck m => Sys2Proof.Machine.execRingAck m s
  | .csrRead m => Sys2Proof.Machine.execCsrRead m s
  | .csrWrite m => Sys2Proof.Machine.execCsrWrite m s
  | .quickCall m => Sys2Proof.Machine.execQuickCall m s
  | .caps m => Sys2Proof.Machine.execCaps m s
  | .rdmaWrite r => Sys2Proof.Machine.execRdmaWrite r s
  | .rdmaReadRequest r => Sys2Proof.Machine.execRdmaReadRequest r s
  | .send r op m => Sys2Proof.Machine.execSend r op m s
  | .rdmaReadResponse qp data => Sys2Proof.Machine.execRdmaReadResponse qp data s
  | .acknowledge qp nak => Sys2Proof.Machine.execAcknowledge qp nak s
  | .cnp qp => Sys2Proof.Machine.execCnp qp s
  | .rateIncreaseTimer qp => Sys2Proof.Machine.execRateIncreaseTimer qp s
  | .transportTimeout qp => Sys2Proof.Machine.execTransportTimeout qp s
  | .pfcFrame port quanta => Sys2Proof.Machine.execPfcFrame port quanta s
  | .pfcPauseExpire port prio => Sys2Proof.Machine.execPfcPauseExpire port prio s
  | .hostLinkUp port => Sys2Proof.Machine.execHostLinkUp port s
  | .hostLinkDown port => Sys2Proof.Machine.execHostLinkDown port s
  | .hpModeWrite v => Sys2Proof.Machine.execHpModeWrite v s
  | .csrRegisterWrite off v => Sys2Proof.Machine.execCsrRegisterWrite off v s
  | .syncBarBreak v => Sys2Proof.Machine.execSyncBarBreak v s
  | .levCntClrAll c v => Sys2Proof.Machine.execLevCntClrAll c v s
  | .updClrAll c v => Sys2Proof.Machine.execUpdClrAll c v s
  | .peelDbgSnap c v => Sys2Proof.Machine.execPeelDbgSnap c v s
  | .peelDbgSnapDone c => Sys2Proof.Machine.execPeelDbgSnapDone c s
  | .mmuInvGo v => Sys2Proof.Machine.execMmuInvGo v s
  | .mmuInvDone => Sys2Proof.Machine.execMmuInvDone s
  | .larCfgWrite v => Sys2Proof.Machine.execLarCfgWrite v s
  | .larRepartDone => Sys2Proof.Machine.execLarRepartDone s
  | .lpcSplitWrite ctrl v => Sys2Proof.Machine.execLpcSplitWrite ctrl v s
  | .errInjArm v => Sys2Proof.Machine.execErrInjArm v s
  | .pwrDomOnWrite half v => Sys2Proof.Machine.execPwrDomOnWrite half v s
  | .pwrProfileWrite v => Sys2Proof.Machine.execPwrProfileWrite v s
  | .stnAddrWrite v => Sys2Proof.Machine.execStnAddrWrite v s
  | .stnMbxGo v => Sys2Proof.Machine.execStnMbxGo v s
  | .stnLeave v => Sys2Proof.Machine.execStnLeave v s
  | .leaveComplete => Sys2Proof.Machine.execLeaveComplete s
  | .linkTrainingTimeout port whole => Sys2Proof.Machine.execLinkTrainingTimeout port whole s
  | .flitLock port => Sys2Proof.Machine.execFlitLock port s
  | .hello port h => Sys2Proof.Machine.execHello port h s
  | .helloSendTimer port => Sys2Proof.Machine.execHelloSendTimer port s
  | .helloTimeout port => Sys2Proof.Machine.execHelloTimeout port s
  | .portRetrainTimer port => Sys2Proof.Machine.execPortRetrainTimer port s
  | .flitReceive port f => Sys2Proof.Machine.execFlitReceive port f s
  | .ackseqStallTimer port => Sys2Proof.Machine.execAckseqStallTimer port s
  | .messageForward port m => Sys2Proof.Machine.execMessageForward port m s
  | .write port m => Sys2Proof.Machine.execWrite port m s
  | .mcast port m => Sys2Proof.Machine.execMcast port m s
  | .red port m => Sys2Proof.Machine.execRed port m s
  | .ack port m => Sys2Proof.Machine.execAck port m s
  | .nack port m => Sys2Proof.Machine.execNack port m s
  | .notice port m => Sys2Proof.Machine.execNotice port m s
  | .mgtRead port m => Sys2Proof.Machine.execMgtRead port m s
  | .mgtWrite port m => Sys2Proof.Machine.execMgtWrite port m s
  | .mgtReply port m => Sys2Proof.Machine.execMgtReply port m s
  | .leave port => Sys2Proof.Machine.execLeave port s
  | .e2eResendTimer msgid => Sys2Proof.Machine.execE2eResendTimer msgid s
  | .busyRetryTimer msgid => Sys2Proof.Machine.execBusyRetryTimer msgid s
  | .mcastSkewExpire msgid => Sys2Proof.Machine.execMcastSkewExpire msgid s
  | .dedupPairExpire src msgid => Sys2Proof.Machine.execDedupPairExpire src msgid s
  | .governorWindow counts => Sys2Proof.Machine.execGovernorWindow counts s
  | .domainIdleOff d => Sys2Proof.Machine.execDomainIdleOff d s
  | .wakeTokenDraw => Sys2Proof.Machine.execWakeTokenDraw s
  | .wakeComplete d => Sys2Proof.Machine.execWakeComplete d s
  | .switchOffComplete d => Sys2Proof.Machine.execSwitchOffComplete d s
  | .thermalSample temps => Sys2Proof.Machine.execThermalSample temps s
  | .thermalShutdown => Sys2Proof.Machine.execThermalShutdown s
  | .thermalRestartTimer => Sys2Proof.Machine.execThermalRestartTimer s
  | .estDriftCheck deciwatts => Sys2Proof.Machine.execEstDriftCheck deciwatts s
  | .pllLock => Sys2Proof.Machine.execPllLock s
  | .pllUnlock => Sys2Proof.Machine.execPllUnlock s
  | .powerOn => Sys2Proof.Machine.execPowerOn s
  | .hearthWatchdog => Sys2Proof.Machine.execHearthWatchdog s
  | .boot env => Sys2Proof.Machine.execBoot env s
  | .bootBackoffExpire => Sys2Proof.Machine.execBootBackoffExpire s
  | .imageRequestResend => Sys2Proof.Machine.execImageRequestResend s
  | .sidebandTimeout => Sys2Proof.Machine.execSidebandTimeout s
  | .hmpStatus r => Sys2Proof.Machine.execHmpStatus r s
  | .telemetry r => Sys2Proof.Machine.execTelemetry r s
  | .objRead r => Sys2Proof.Machine.execObjRead r s
  | .attest r => Sys2Proof.Machine.execAttest r s
  | .hmpReset r => Sys2Proof.Machine.execHmpReset r s
  | .hmpPower r => Sys2Proof.Machine.execHmpPower r s
  | .imagePut r => Sys2Proof.Machine.execImagePut r s
  | .imageDone r => Sys2Proof.Machine.execImageDone r s
  | .timeSet r => Sys2Proof.Machine.execTimeSet r s
  | .svnCommit r => Sys2Proof.Machine.execSvnCommit r s
  | .policySet r => Sys2Proof.Machine.execPolicySet r s
  | .removePrep r => Sys2Proof.Machine.execRemovePrep r s
  | .keySet r => Sys2Proof.Machine.execKeySet r s
  | .netSet r => Sys2Proof.Machine.execNetSet r s
  | .arpRequest ipv4 => Sys2Proof.Machine.execArpRequest ipv4 s
  | .neighborSolicitation ipv6 => Sys2Proof.Machine.execNeighborSolicitation ipv6 s
  | .stnMgtWrEnRetry => Sys2Proof.Machine.execStnMgtWrEnRetry s
  | .smbFruOffsetSet off => Sys2Proof.Machine.execSmbFruOffsetSet off s
  | .smbFruBlockRead => Sys2Proof.Machine.execSmbFruBlockRead s
  | .smbReadVoltage => Sys2Proof.Machine.execSmbReadVoltage s
  | .smbReadPower => Sys2Proof.Machine.execSmbReadPower s
  | .smbReadTj => Sys2Proof.Machine.execSmbReadTj s
  | .smbReadHrtState => Sys2Proof.Machine.execSmbReadHrtState s
  | .smbReadLastFail => Sys2Proof.Machine.execSmbReadLastFail s
  | .attnRemoveHold => Sys2Proof.Machine.execAttnRemoveHold s
  | .drainTimeExpire => Sys2Proof.Machine.execDrainTimeExpire s
  | .removeReady => Sys2Proof.Machine.execRemoveReady s
  | .matedNOpen => Sys2Proof.Machine.execMatedNOpen s
  | .inputAdmit centivolts => Sys2Proof.Machine.execInputAdmit centivolts s
  | .hotSwapTrip causes => Sys2Proof.Machine.execHotSwapTrip causes s
  | .ref100Loss => Sys2Proof.Machine.execRef100Loss s
  | .ref100Return => Sys2Proof.Machine.execRef100Return s
  | .ref156hLoss => Sys2Proof.Machine.execRef156hLoss s
  | .ref156sLoss => Sys2Proof.Machine.execRef156sLoss s
  | .levainStepStart c => Sys2Proof.Machine.execLevainStepStart c s
  | .ref156hReturn => Sys2Proof.Machine.execRef156hReturn s
  | .ref156sReturn => Sys2Proof.Machine.execRef156sReturn s
  | .calOscillatorStop => Sys2Proof.Machine.execCalOscillatorStop s
  | .attestReportDone => Sys2Proof.Machine.execAttestReportDone s
  | .receivedFrameDrop port f => Sys2Proof.Machine.execReceivedFrameDrop port f s
  | .invalidRequestOpcode r => Sys2Proof.Machine.execInvalidRequestOpcode r s

end Sys2Proof.Machine
end

