-- ==== Sys2Proof/Machine/Tick.lean ====
section
/-! DEFINITION. What the block does while no command waits: one ACLK cycle passes (DESIGN CHOICE, see the assumption log). -/

namespace Sys2Proof.Machine

/-- ACLK cycles of one second (R509). -/
def aclkPerSecond : Nat := 1200000000

/-- The calendar of the Hearth counts seconds while it is valid (R549). -/
def tickCalendar (s : State) : State :=
  if s.hearth.calValid ∧ s.now % aclkPerSecond = 0 then s.setHearth { s.hearth with calSeconds := s.hearth.calSeconds + 1 } else s

/-- Whether some engine of core `c` has a queued step that waits only for a late block, and no step ready (R355). -/
def lateCore (s : State) (c : Nat) : Bool :=
  let k := s.core c
  let idles := fun (queue : List Step) (ready : Step → Bool) => queue.any (lateStep s c) && !queue.any ready
  (List.range 2).any (fun a => idles (s.array c a).queue (fun x => (List.range 16).any (fun u => stepReady s c a u x))) ||
    idles k.sieve.queue (sieveReady s c) || idles k.vec.queue (vectorReady s c) || idles (k.peel.stats ++ k.peel.updates) (tensorReady s c)

/-- PRF_LATE_CYCLES of every core after a cycle (R355). -/
def countLate (s : State) : State := (List.range 4).foldl (fun s' c => if lateCore s c then s'.count (Csr.prfLateCycles c) 1 else s') s

/-- Whether a step of core `c`'s vector engine waits for a block of an operand. -/
def vectorHeld (s : State) (c : Nat) : Bool :=
  let q := (s.core c).vec.queue
  q.any (fun x => mayStep s x && firstOfTray q x && (s.inst x.tray x.seq).any (fun i => !creditsHeld s x.tray x.seq (streamedV i) ⟨x.tile, x.k⟩))

/-- VXE_HOLDS of every core after a cycle (R300). -/
def countHolds (s : State) : State := (List.range 4).foldl (fun s' c => if vectorHeld s' c then s'.count (Csr.vxeHolds c) 1 else s') s

/-- One ACLK cycle without a command: late and held cycles are counted, and every Sieve drains its lanes and goes on with its groups' work (R149, R150, R300, R355). -/
def idleTick (s : State) : State :=
  tickCalendar ((List.range 4).foldl (fun s' c => sieveCycle c (fun _ => false) s') (countHolds (countLate (s.setNow (s.now + 1)))))

end Sys2Proof.Machine
end

