-- ==== Sys2Proof/Safety.lean ====
section
/-! DEFINITION. What a safe state is, and what a safe step is: every sparse table of the state stays in its one canonical form, and a command changes only the
parts of the state that are listed for it. -/

namespace Sys2Proof.Machine

/-- Memory is in its canonical form: addresses strictly rising, no entry equal to what an unlisted address reads as. -/
def Memory.wf (m : Tab Byte) : Bool := Tab.wf (fun _ => 0) m

/-- A poison table is in canonical form: unlisted lines or rows are sound. -/
def Poison.wf (p : Tab Bool) : Bool := Tab.wf (fun _ => false) p

/-- The registers of CSR space are in canonical form: offsets strictly rising, and a register is listed only while it differs from its reset value. -/
def Registers.wf (r : Tab Reg) : Bool := Tab.wf RegMap.resetOf r

/-- Memory, the poison tables and the registers are in canonical form: equal contents are equal data. -/
def State.Canonical (s : State) : Prop :=
  Memory.wf s.mem = true ∧ Poison.wf s.poison = true ∧ Poison.wf s.benchPoison = true ∧ Registers.wf s.regs = true

/-- Parts of the state. The queue of commands and what is fused at manufacture are no part: nothing may change them. -/
structure Parts where
  now : Bool := false
  ord : Bool := false
  free : Bool := false
  mem : Bool := false
  poison : Bool := false
  benchPoison : Bool := false
  regs : Bool := false
  trays : Bool := false
  barriers : Bool := false
  queues : Bool := false
  cores : Bool := false
  mmu : Bool := false
  larder : Bool := false
  arbs : Bool := false
  power : Bool := false
  errLog : Bool := false
  planted : Bool := false
  stop : Bool := false
  scrubbing : Bool := false
  trained : Bool := false
  host : Bool := false
  staon : Bool := false
  hearth : Bool := false
  modhw : Bool := false
  hostTx : Bool := false
  deriving DecidableEq, Repr

/-- From `st0` to `s` only the parts `F` may differ; the queue of commands, what is fused, what was sent to the host and the canonical form of the tables are kept. -/
structure Touch (F : Parts) (st0 s : State) : Prop where
  pending : s.pending = st0.pending
  part : s.part = st0.part
  serial : s.serial = st0.serial
  now : F.now = false → s.now = st0.now
  ord : F.ord = false → s.ord = st0.ord
  free : F.free = false → s.free = st0.free
  mem : F.mem = false → s.mem = st0.mem
  poison : F.poison = false → s.poison = st0.poison
  benchPoison : F.benchPoison = false → s.benchPoison = st0.benchPoison
  regs : F.regs = false → s.regs = st0.regs
  trays : F.trays = false → s.trays = st0.trays
  barriers : F.barriers = false → s.barriers = st0.barriers
  queues : F.queues = false → s.queues = st0.queues
  cores : F.cores = false → s.cores = st0.cores
  mmu : F.mmu = false → s.mmu = st0.mmu
  larder : F.larder = false → s.larder = st0.larder
  arbs : F.arbs = false → s.arbs = st0.arbs
  power : F.power = false → s.power = st0.power
  errLog : F.errLog = false → s.errLog = st0.errLog
  planted : F.planted = false → s.planted = st0.planted
  stop : F.stop = false → s.stop = st0.stop
  scrubbing : F.scrubbing = false → s.scrubbing = st0.scrubbing
  trained : F.trained = false → s.trained = st0.trained
  host : F.host = false → s.host = st0.host
  staon : F.staon = false → s.staon = st0.staon
  hearth : F.hearth = false → s.hearth = st0.hearth
  modhw : F.modhw = false → s.modhw = st0.modhw
  hostTx : F.hostTx = false → s.hostTx = st0.hostTx
  sent : st0.hostTx <+: s.hostTx
  canonical : st0.Canonical → s.Canonical

/-- Parts that the issue of an instruction may change: its tray and what it holds, the tokens and barriers, translations, poison met, and records of a fault. -/
def issueParts : Parts :=
  { ord := true, mem := true, poison := true, benchPoison := true, regs := true, trays := true, barriers := true, queues := true, cores := true,
    mmu := true, larder := true, arbs := true, errLog := true, planted := true, staon := true }

/-- Parts that work of the engines may change. -/
def workParts : Parts :=
  { ord := true, mem := true, poison := true, benchPoison := true, regs := true, trays := true, barriers := true, queues := true, cores := true,
    mmu := true, larder := true, arbs := true, errLog := true, planted := true, stop := true, staon := true, hearth := true }

/-- Parts that a fabric port going down or a fabric message undelivered may change: the messages of a core end with a fault of its task. -/
def portParts : Parts :=
  { regs := true, trays := true, queues := true, cores := true, mmu := true, arbs := true, errLog := true, staon := true }

/-- Parts that a CCT command that starts no work may change, with those of an error met in the command queue. -/
def cctParts : Parts :=
  { poison := true, benchPoison := true, regs := true, trays := true, barriers := true, queues := true, cores := true, mmu := true, larder := true,
    arbs := true, errLog := true, stop := true, host := true, staon := true, hearth := true, hostTx := true }

/-- Parts that the arrival of a fabric message that writes nothing may change. -/
def arrivalParts : Parts :=
  { ord := true, poison := true, benchPoison := true, regs := true, trays := true, barriers := true, queues := true, cores := true, mmu := true,
    larder := true, arbs := true, errLog := true, stop := true, staon := true, hearth := true }

/-- Parts that a reset of the module or a loss of its power may change. -/
def resetParts : Parts :=
  { mem := true, poison := true, benchPoison := true, regs := true, trays := true, barriers := true, queues := true, cores := true, mmu := true,
    larder := true, arbs := true, power := true, errLog := true, planted := true, stop := true, scrubbing := true, trained := true, host := true,
    staon := true, hearth := true, modhw := true }

/-- The Hearth alone. -/
def hearthParts : Parts :=
  { hearth := true }

/-- The parts of the state that a command may change. -/
def partsOf (i : Instr) : Parts :=
  match i with
  | .ctrlNop _ => issueParts
  | .ctrlLoop _ => issueParts
  | .ctrlEnd _ => issueParts
  | .ctrlSetvl _ => issueParts
  | .ctrlCfg _ => issueParts
  | .xferLd _ => issueParts
  | .xferSt _ => issueParts
  | .xferGather _ => issueParts
  | .xferScatter _ => issueParts
  | .xferRemote _ => issueParts
  | .xferPref _ => issueParts
  | .mxmMm _ => issueParts
  | .mxmMms _ => issueParts
  | .mxmLdw _ => issueParts
  | .spxInt _ => issueParts
  | .spxSct _ => issueParts
  | .spxExp _ => issueParts
  | .spxCmp _ => issueParts
  | .spxCen _ => issueParts
  | .vxpLdp _ => issueParts
  | .vxpRun _ => issueParts
  | .vxpCpr _ => issueParts
  | .vxpExd _ => issueParts
  | .vxpPrm _ => issueParts
  | .vxpRed _ => issueParts
  | .peelCfg _ => issueParts
  | .peelStat _ => issueParts
  | .peelUpd _ => issueParts
  | .levPred _ => issueParts
  | .levAud _ => issueParts
  | .syncWait _ => issueParts
  | .syncSig _ => issueParts
  | .syncBar _ => issueParts
  | .fabSend _ => issueParts
  | .fabMcast _ => issueParts
  | .fabRed _ => issueParts
  | .instructionComplete _ _ =>
    { ord := true, poison := true, benchPoison := true, regs := true, trays := true, barriers := true, queues := true, cores := true, mmu := true,
      larder := true, arbs := true, errLog := true, planted := true, stop := true, host := true, staon := true, hearth := true, hostTx := true }
  | .dispatch =>
    { mem := true, poison := true, benchPoison := true, regs := true, trays := true, queues := true, cores := true, mmu := true, larder := true,
      arbs := true, errLog := true, planted := true, staon := true }
  | .recordWrite _ =>
    { mem := true, poison := true, benchPoison := true, regs := true, trays := true, barriers := true, queues := true, cores := true, mmu := true,
      larder := true, arbs := true, errLog := true, planted := true, host := true, staon := true, hostTx := true }
  | .notifyTimerExpire _ => { queues := true, host := true, hostTx := true }
  | .drainDone _ =>
    { free := true, mem := true, poison := true, benchPoison := true, regs := true, trays := true, barriers := true, queues := true, cores := true,
      mmu := true, larder := true, arbs := true, errLog := true, planted := true, host := true, staon := true, hostTx := true }
  | .tileStepQueue _ =>
    { ord := true, mem := true, poison := true, benchPoison := true, regs := true, trays := true, queues := true, cores := true, mmu := true,
      larder := true, arbs := true, power := true, errLog := true, planted := true, staon := true }
  | .headerCountReport _ _ _ _ _ =>
    { mem := true, poison := true, benchPoison := true, regs := true, trays := true, queues := true, cores := true, mmu := true, larder := true,
      arbs := true, errLog := true, planted := true, staon := true }
  | .zeroPassGenerate _ =>
    { ord := true, mem := true, poison := true, benchPoison := true, regs := true, trays := true, queues := true, cores := true, mmu := true,
      larder := true, arbs := true, errLog := true, planted := true, staon := true }
  | .readAheadAdvance _ =>
    { ord := true, mem := true, poison := true, benchPoison := true, regs := true, trays := true, queues := true, cores := true, mmu := true,
      larder := true, arbs := true, planted := true }
  | .transferDescIssue _ _ => { regs := true, cores := true, mmu := true, arbs := true, planted := true, host := true, hostTx := true }
  | .transferDescDone _ _ _ =>
    { ord := true, free := true, mem := true, poison := true, benchPoison := true, regs := true, trays := true, barriers := true, queues := true,
      cores := true, mmu := true, larder := true, arbs := true, errLog := true, planted := true, stop := true, host := true, staon := true,
      hearth := true, hostTx := true }
  | .streamSlotFilled _ _ _ => { cores := true }
  | .translationWalkDone _ =>
    { mem := true, poison := true, benchPoison := true, regs := true, trays := true, queues := true, cores := true, mmu := true, larder := true,
      arbs := true, errLog := true, planted := true, host := true, staon := true, hostTx := true }
  | .prfDeadlockExpire _ => { ord := true, regs := true, trays := true, cores := true }
  | .spillCopyDone _ =>
    { ord := true, free := true, mem := true, poison := true, benchPoison := true, regs := true, trays := true, queues := true, cores := true,
      mmu := true, larder := true, arbs := true, errLog := true, planted := true, host := true, staon := true, hostTx := true }
  | .spillAreaMove _ => { ord := true, regs := true, trays := true, cores := true }
  | .spillExhausted _ => { ord := true, regs := true, trays := true, queues := true, cores := true, mmu := true, arbs := true, errLog := true, staon := true }
  | .arbGrant _ _ _ =>
    { free := true, mem := true, poison := true, benchPoison := true, regs := true, trays := true, barriers := true, queues := true, cores := true,
      mmu := true, larder := true, arbs := true, power := true, errLog := true, planted := true, stop := true, scrubbing := true, trained := true,
      host := true, staon := true, hearth := true, modhw := true }
  | .arbHeadForced _ _ _ => { arbs := true }
  | .scrubPassStart _ => { scrubbing := true }
  | .arrayGroupInject _ _ _ _ => workParts
  | .weightFillDone _ _ =>
    { ord := true, mem := true, poison := true, benchPoison := true, regs := true, trays := true, queues := true, cores := true, mmu := true,
      larder := true, arbs := true, errLog := true, planted := true, staon := true }
  | .weightLaunch _ _ => { cores := true }
  | .planeReady _ =>
    { mem := true, poison := true, benchPoison := true, regs := true, trays := true, queues := true, cores := true, mmu := true, larder := true,
      arbs := true, errLog := true, planted := true, staon := true }
  | .sieveStepCurrent _ =>
    { ord := true, free := true, mem := true, poison := true, benchPoison := true, regs := true, trays := true, barriers := true, queues := true,
      cores := true, mmu := true, larder := true, arbs := true, errLog := true, planted := true, stop := true, staon := true, hearth := true }
  | .groupTakeWork _ _ _ =>
    { ord := true, regs := true, trays := true, queues := true, cores := true, mmu := true, arbs := true, errLog := true, planted := true,
      staon := true }
  | .slotClose _ _ => portParts
  | .slotDrain _ => { regs := true, trays := true, queues := true, cores := true, mmu := true, arbs := true, errLog := true, planted := true, staon := true }
  | .sieveSlotSpill _ => portParts
  | .levBitmapTake _ => workParts
  | .vectorStepStart _ => workParts
  | .peelArrival _ _ =>
    { ord := true, free := true, mem := true, poison := true, benchPoison := true, regs := true, trays := true, barriers := true, queues := true,
      cores := true, mmu := true, larder := true, arbs := true, errLog := true, planted := true, stop := true, staon := true, hearth := true }
  | .coucheOverflow _ => { ord := true, regs := true, trays := true, cores := true }
  | .tileGroupAlloc _ => { regs := true, trays := true, cores := true, planted := true }
  | .updateBlockCommit _ =>
    { mem := true, poison := true, benchPoison := true, regs := true, trays := true, barriers := true, queues := true, cores := true, mmu := true,
      larder := true, arbs := true, errLog := true, planted := true, stop := true, staon := true, hearth := true }
  | .batTimerExpire _ => { ord := true, regs := true, queues := true }
  | .doorbell _ =>
    { ord := true, poison := true, benchPoison := true, regs := true, trays := true, barriers := true, queues := true, cores := true, mmu := true,
      larder := true, arbs := true, errLog := true, stop := true, host := true, staon := true, hearth := true, hostTx := true }
  | .batchMember _ =>
    { ord := true, poison := true, benchPoison := true, regs := true, trays := true, barriers := true, queues := true, cores := true, mmu := true,
      larder := true, arbs := true, errLog := true, stop := true, host := true, staon := true, hearth := true, hostTx := true }
  | .resume _ =>
    { ord := true, poison := true, benchPoison := true, regs := true, trays := true, barriers := true, queues := true, cores := true, mmu := true,
      larder := true, arbs := true, errLog := true, stop := true, host := true, staon := true, hearth := true, hostTx := true }
  | .abort _ => cctParts
  | .queueRestart _ => cctParts
  | .ringAck _ => cctParts
  | .csrRead _ =>
    { free := true, poison := true, benchPoison := true, regs := true, trays := true, barriers := true, queues := true, cores := true, mmu := true,
      larder := true, arbs := true, errLog := true, stop := true, host := true, staon := true, hearth := true, hostTx := true }
  | .csrWrite _ =>
    { mem := true, poison := true, benchPoison := true, regs := true, trays := true, barriers := true, queues := true, cores := true, mmu := true,
      larder := true, arbs := true, power := true, errLog := true, stop := true, host := true, staon := true, hearth := true, hostTx := true }
  | .quickCall _ =>
    { ord := true, poison := true, benchPoison := true, regs := true, trays := true, barriers := true, queues := true, cores := true, mmu := true,
      larder := true, arbs := true, errLog := true, stop := true, host := true, staon := true, hearth := true, hostTx := true }
  | .caps _ => cctParts
  | .rdmaWrite _ =>
    { mem := true, poison := true, benchPoison := true, regs := true, trays := true, barriers := true, queues := true, cores := true, mmu := true,
      larder := true, arbs := true, errLog := true, planted := true, stop := true, host := true, staon := true, hearth := true, hostTx := true }
  | .rdmaReadRequest _ =>
    { mem := true, poison := true, benchPoison := true, regs := true, trays := true, barriers := true, queues := true, cores := true, mmu := true,
      larder := true, arbs := true, errLog := true, planted := true, stop := true, host := true, staon := true, hearth := true, hostTx := true }
  | .send _ _ _ =>
    { ord := true, free := true, mem := true, poison := true, benchPoison := true, regs := true, trays := true, barriers := true, queues := true,
      cores := true, mmu := true, larder := true, arbs := true, power := true, errLog := true, stop := true, host := true, staon := true, hearth := true,
      hostTx := true }
  | .rdmaReadResponse _ _ => { mem := true, poison := true, benchPoison := true, regs := true, planted := true, host := true, hostTx := true }
  | .acknowledge _ _ => { regs := true, trays := true, queues := true, cores := true, mmu := true, arbs := true, errLog := true, host := true, staon := true }
  | .cnp _ => { regs := true, host := true }
  | .rateIncreaseTimer _ => { regs := true }
  | .transportTimeout _ =>
    { regs := true, trays := true, queues := true, cores := true, mmu := true, arbs := true, errLog := true, host := true, staon := true,
      hostTx := true }
  | .pfcFrame _ _ => { regs := true, host := true, hostTx := true }
  | .pfcPauseExpire _ _ => { host := true, hostTx := true }
  | .hostLinkUp _ => { host := true }
  | .hostLinkDown _ => { host := true }
  | .hpModeWrite _ => { regs := true, trays := true, host := true }
  | .csrRegisterWrite _ _ =>
    { mem := true, poison := true, regs := true, trays := true, barriers := true, queues := true, cores := true, mmu := true, larder := true,
      arbs := true, power := true, errLog := true, host := true, staon := true }
  | .syncBarBreak _ =>
    { regs := true, trays := true, barriers := true, queues := true, cores := true, mmu := true, arbs := true, errLog := true, staon := true }
  | .levCntClrAll _ _ => { cores := true }
  | .updClrAll _ _ => { cores := true }
  | .peelDbgSnap _ _ => { regs := true, cores := true }
  | .peelDbgSnapDone _ => { regs := true, cores := true }
  | .mmuInvGo _ => { regs := true, mmu := true }
  | .mmuInvDone => { cores := true, mmu := true }
  | .larCfgWrite _ => { mem := true, poison := true, regs := true, trays := true, larder := true, arbs := true }
  | .larRepartDone => { mem := true, poison := true, regs := true, larder := true, arbs := true }
  | .lpcSplitWrite _ _ => { regs := true }
  | .errInjArm _ => { regs := true, trays := true }
  | .pwrDomOnWrite _ _ => { regs := true, power := true }
  | .pwrProfileWrite _ => { regs := true, trays := true, power := true }
  | .stnAddrWrite _ => { regs := true, staon := true }
  | .stnMbxGo _ => { regs := true, staon := true }
  | .stnLeave _ => portParts
  | .leaveComplete =>
    { mem := true, poison := true, benchPoison := true, regs := true, trays := true, barriers := true, queues := true, cores := true, mmu := true,
      larder := true, arbs := true, power := true, errLog := true, planted := true, stop := true, scrubbing := true, trained := true, host := true,
      staon := true, hearth := true }
  | .linkTrainingTimeout _ _ => { regs := true, staon := true }
  | .flitLock _ => { staon := true }
  | .hello _ _ => { regs := true, queues := true, staon := true }
  | .helloSendTimer _ => { staon := true }
  | .helloTimeout _ => portParts
  | .portRetrainTimer _ => { staon := true }
  | .flitReceive _ _ => portParts
  | .ackseqStallTimer _ => portParts
  | .messageForward _ _ => arrivalParts
  | .write _ _ =>
    { ord := true, mem := true, poison := true, benchPoison := true, regs := true, trays := true, barriers := true, queues := true, cores := true,
      mmu := true, larder := true, arbs := true, errLog := true, planted := true, stop := true, host := true, staon := true, hearth := true,
      hostTx := true }
  | .mcast _ _ =>
    { ord := true, mem := true, poison := true, benchPoison := true, regs := true, trays := true, barriers := true, queues := true, cores := true,
      mmu := true, larder := true, arbs := true, errLog := true, planted := true, stop := true, host := true, staon := true, hearth := true,
      hostTx := true }
  | .red _ _ =>
    { ord := true, free := true, mem := true, poison := true, benchPoison := true, regs := true, trays := true, barriers := true, queues := true,
      cores := true, mmu := true, larder := true, arbs := true, errLog := true, planted := true, stop := true, staon := true, hearth := true }
  | .ack _ _ => arrivalParts
  | .nack _ _ => arrivalParts
  | .notice _ _ => arrivalParts
  | .mgtRead _ _ => arrivalParts
  | .mgtWrite _ _ =>
    { ord := true, mem := true, poison := true, benchPoison := true, regs := true, trays := true, barriers := true, queues := true, cores := true,
      mmu := true, larder := true, arbs := true, power := true, errLog := true, stop := true, host := true, staon := true, hearth := true }
  | .mgtReply _ _ => arrivalParts
  | .leave _ => portParts
  | .e2eResendTimer _ => portParts
  | .busyRetryTimer _ => { regs := true, staon := true }
  | .mcastSkewExpire _ => { regs := true, trays := true, staon := true }
  | .dedupPairExpire _ _ => { staon := true }
  | .governorWindow _ => { regs := true, power := true }
  | .domainIdleOff _ => { power := true }
  | .wakeTokenDraw => { power := true }
  | .wakeComplete _ =>
    { regs := true, trays := true, queues := true, cores := true, mmu := true, arbs := true, power := true, errLog := true, host := true,
      staon := true }
  | .switchOffComplete _ =>
    { free := true, mem := true, poison := true, benchPoison := true, regs := true, trays := true, queues := true, cores := true, mmu := true,
      larder := true, arbs := true, power := true, errLog := true, host := true, staon := true }
  | .thermalSample _ => { regs := true, power := true, hearth := true, modhw := true }
  | .thermalShutdown =>
    { mem := true, poison := true, benchPoison := true, regs := true, trays := true, barriers := true, queues := true, cores := true, mmu := true,
      larder := true, arbs := true, power := true, errLog := true, planted := true, stop := true, scrubbing := true, trained := true, host := true,
      staon := true, hearth := true }
  | .thermalRestartTimer => resetParts
  | .estDriftCheck _ => { regs := true, modhw := true }
  | .pllLock => { power := true }
  | .pllUnlock => resetParts
  | .powerOn => resetParts
  | .hearthWatchdog => resetParts
  | .boot _ => resetParts
  | .bootBackoffExpire => hearthParts
  | .imageRequestResend => hearthParts
  | .sidebandTimeout => hearthParts
  | .hmpStatus _ => hearthParts
  | .telemetry _ => hearthParts
  | .objRead _ => hearthParts
  | .attest _ => hearthParts
  | .hmpReset _ => resetParts
  | .hmpPower _ => resetParts
  | .imagePut _ => hearthParts
  | .imageDone _ => { power := true, hearth := true }
  | .timeSet _ => hearthParts
  | .svnCommit _ => hearthParts
  | .policySet _ => { regs := true, trays := true, hearth := true }
  | .removePrep _ =>
    { mem := true, poison := true, benchPoison := true, regs := true, trays := true, barriers := true, queues := true, cores := true, mmu := true,
      larder := true, arbs := true, power := true, errLog := true, planted := true, stop := true, scrubbing := true, trained := true, host := true,
      staon := true, hearth := true }
  | .keySet _ => hearthParts
  | .netSet _ => hearthParts
  | .arpRequest _ => hearthParts
  | .neighborSolicitation _ => hearthParts
  | .stnMgtWrEnRetry => { regs := true, trays := true, hearth := true }
  | .smbFruOffsetSet _ => hearthParts
  | .smbFruBlockRead => { free := true, hearth := true }
  | .smbReadVoltage => hearthParts
  | .smbReadPower => hearthParts
  | .smbReadTj => hearthParts
  | .smbReadHrtState => hearthParts
  | .smbReadLastFail => hearthParts
  | .attnRemoveHold => resetParts
  | .drainTimeExpire =>
    { mem := true, poison := true, benchPoison := true, regs := true, trays := true, barriers := true, queues := true, cores := true, mmu := true,
      larder := true, arbs := true, power := true, errLog := true, planted := true, stop := true, scrubbing := true, trained := true, host := true,
      staon := true, hearth := true }
  | .removeReady => { hearth := true, modhw := true }
  | .matedNOpen => resetParts
  | .inputAdmit _ => { modhw := true }
  | .hotSwapTrip _ => resetParts
  | .ref100Loss => resetParts
  | .ref100Return => resetParts
  | .ref156hLoss => { host := true }
  | .ref156sLoss => portParts
  | .levainStepStart _ => workParts
  | .ref156hReturn => { host := true }
  | .ref156sReturn => portParts
  | .calOscillatorStop => hearthParts
  | .attestReportDone => hearthParts
  | .receivedFrameDrop _ _ => { regs := true }
  | .invalidRequestOpcode _ => cctParts

end Sys2Proof.Machine
end

