-- ==== Sys2Proof/WellFormed.lean ====
section
/-! DEFINITION. Which commands name units that the module has: trays, cores, ports, queues, channels, descriptors, controllers, domains, queue pairs
(R3, R19, R332, R333, R353, R463, R465, R512). -/

namespace Sys2Proof

/-- A CCT message arrives on one of the two host ports with one of eight priorities, or on one of the 1,024 queue pairs (R430, R435, R463). -/
def CctSrc.wf : CctSrc → Bool
  | .udp port prio _ => decide (port < 2) && decide (prio < 8)
  | .send qp => decide (qp < 1024)

/-- A CCT message comes by a source that exists and names one of the 64 queues (R131, R440). -/
def CctMsg.wf (m : CctMsg) : Bool := m.src.wf && decide (m.queue < 64)

/-- Instances of an arbitration site (R405, R406): those of sites 0 to 5. -/
def sitePorts (site : Nat) : Nat := [2048, 2048, 16, 12, 16, 8].getD site 0

/-- The command names units that exist. -/
def Instr.wf (i : Instr) : Bool :=
  match i with
  | .ctrlNop t => decide (t < 32)
  | .ctrlLoop t => decide (t < 32)
  | .ctrlEnd t => decide (t < 32)
  | .ctrlSetvl t => decide (t < 32)
  | .ctrlCfg t => decide (t < 32)
  | .xferLd t => decide (t < 32)
  | .xferSt t => decide (t < 32)
  | .xferGather t => decide (t < 32)
  | .xferScatter t => decide (t < 32)
  | .xferRemote t => decide (t < 32)
  | .xferPref t => decide (t < 32)
  | .mxmMm t => decide (t < 32)
  | .mxmMms t => decide (t < 32)
  | .mxmLdw t => decide (t < 32)
  | .spxInt t => decide (t < 32)
  | .spxSct t => decide (t < 32)
  | .spxExp t => decide (t < 32)
  | .spxCmp t => decide (t < 32)
  | .spxCen t => decide (t < 32)
  | .vxpLdp t => decide (t < 32)
  | .vxpRun t => decide (t < 32)
  | .vxpCpr t => decide (t < 32)
  | .vxpExd t => decide (t < 32)
  | .vxpPrm t => decide (t < 32)
  | .vxpRed t => decide (t < 32)
  | .peelCfg t => decide (t < 32)
  | .peelStat t => decide (t < 32)
  | .peelUpd t => decide (t < 32)
  | .levPred t => decide (t < 32)
  | .levAud t => decide (t < 32)
  | .syncWait t => decide (t < 32)
  | .syncSig t => decide (t < 32)
  | .syncBar t => decide (t < 32)
  | .fabSend t => decide (t < 32)
  | .fabMcast t => decide (t < 32)
  | .fabRed t => decide (t < 32)
  | .instructionComplete t _ => decide (t < 32)
  | .dispatch => true
  | .recordWrite q => decide (q < 64)
  | .notifyTimerExpire q => decide (q < 64)
  | .drainDone t => decide (t < 32)
  | .tileStepQueue t => decide (t < 32)
  | .headerCountReport t _ _ _ _ => decide (t < 32)
  | .zeroPassGenerate t => decide (t < 32)
  | .readAheadAdvance t => decide (t < 32)
  | .transferDescIssue c ch => decide (c < 4) && decide (ch < 4)
  | .transferDescDone c ch slot => decide (c < 4) && decide (ch < 4) && decide (slot < 8)
  | .streamSlotFilled c _ _ => decide (c < 4)
  | .translationWalkDone _ => true
  | .prfDeadlockExpire c => decide (c < 4)
  | .spillCopyDone c => decide (c < 4)
  | .spillAreaMove c => decide (c < 4)
  | .spillExhausted c => decide (c < 4)
  | .arbGrant site inst _ => decide (inst < sitePorts site)
  | .arbHeadForced site inst _ => decide (inst < sitePorts site)
  | .scrubPassStart ctrl => decide (ctrl < 12)
  | .arrayGroupInject c a sub _ => decide (c < 4) && decide (a < 2) && decide (sub < 16)
  | .weightFillDone c a => decide (c < 4) && decide (a < 2)
  | .weightLaunch c a => decide (c < 4) && decide (a < 2)
  | .planeReady c => decide (c < 4)
  | .sieveStepCurrent c => decide (c < 4)
  | .groupTakeWork c group _ => decide (c < 4) && decide (group < 512)
  | .slotClose c slot => decide (c < 4) && decide (slot < 16)
  | .slotDrain c => decide (c < 4)
  | .sieveSlotSpill c => decide (c < 4)
  | .levBitmapTake c => decide (c < 4)
  | .vectorStepStart c => decide (c < 4)
  | .peelArrival c port => decide (c < 4) && decide (port < 4)
  | .coucheOverflow c => decide (c < 4)
  | .tileGroupAlloc c => decide (c < 4)
  | .updateBlockCommit t => decide (t < 32)
  | .batTimerExpire q => decide (q < 64)
  | .doorbell m => m.wf
  | .batchMember m => m.wf
  | .resume m => m.wf
  | .abort m => m.wf
  | .queueRestart m => m.wf
  | .ringAck m => m.wf
  | .csrRead m => m.wf
  | .csrWrite m => m.wf
  | .quickCall m => m.wf
  | .caps m => m.wf
  | .rdmaWrite r => decide (r.qp < 1024)
  | .rdmaReadRequest r => decide (r.qp < 1024)
  | .send r _ m => decide (r.qp < 1024) && m.wf
  | .rdmaReadResponse qp _ => decide (qp < 1024)
  | .acknowledge qp _ => decide (qp < 1024)
  | .cnp qp => decide (qp < 1024)
  | .rateIncreaseTimer qp => decide (qp < 1024)
  | .transportTimeout qp => decide (qp < 1024)
  | .pfcFrame port _ => decide (port < 2)
  | .pfcPauseExpire port prio => decide (port < 2) && decide (prio < 8)
  | .hostLinkUp port => decide (port < 2)
  | .hostLinkDown port => decide (port < 2)
  | .hpModeWrite _ => true
  | .csrRegisterWrite _ _ => true
  | .syncBarBreak _ => true
  | .levCntClrAll c _ => decide (c < 4)
  | .updClrAll c _ => decide (c < 4)
  | .peelDbgSnap c _ => decide (c < 4)
  | .peelDbgSnapDone c => decide (c < 4)
  | .mmuInvGo _ => true
  | .mmuInvDone => true
  | .larCfgWrite _ => true
  | .larRepartDone => true
  | .lpcSplitWrite ctrl _ => decide (ctrl < 12)
  | .errInjArm _ => true
  | .pwrDomOnWrite half _ => decide (half < 2)
  | .pwrProfileWrite _ => true
  | .stnAddrWrite _ => true
  | .stnMbxGo _ => true
  | .stnLeave _ => true
  | .leaveComplete => true
  | .linkTrainingTimeout port _ => decide (port < 12)
  | .flitLock port => decide (port < 12)
  | .hello port _ => decide (port < 12)
  | .helloSendTimer port => decide (port < 12)
  | .helloTimeout port => decide (port < 12)
  | .portRetrainTimer port => decide (port < 12)
  | .flitReceive port _ => decide (port < 12)
  | .ackseqStallTimer port => decide (port < 12)
  | .messageForward port _ => decide (port < 12)
  | .write port _ => decide (port < 12)
  | .mcast port _ => decide (port < 12)
  | .red port _ => decide (port < 12)
  | .ack port _ => decide (port < 12)
  | .nack port _ => decide (port < 12)
  | .notice port _ => decide (port < 12)
  | .mgtRead port _ => decide (port < 12)
  | .mgtWrite port _ => decide (port < 12)
  | .mgtReply port _ => decide (port < 12)
  | .leave port => decide (port < 12)
  | .e2eResendTimer _ => true
  | .busyRetryTimer _ => true
  | .mcastSkewExpire _ => true
  | .dedupPairExpire _ _ => true
  | .governorWindow _ => true
  | .domainIdleOff d => decide (d < 125)
  | .wakeTokenDraw => true
  | .wakeComplete d => decide (d < 125)
  | .switchOffComplete d => decide (d < 125)
  | .thermalSample _ => true
  | .thermalShutdown => true
  | .thermalRestartTimer => true
  | .estDriftCheck _ => true
  | .pllLock => true
  | .pllUnlock => true
  | .powerOn => true
  | .hearthWatchdog => true
  | .boot _ => true
  | .bootBackoffExpire => true
  | .imageRequestResend => true
  | .sidebandTimeout => true
  | .hmpStatus _ => true
  | .telemetry _ => true
  | .objRead _ => true
  | .attest _ => true
  | .hmpReset _ => true
  | .hmpPower _ => true
  | .imagePut _ => true
  | .imageDone _ => true
  | .timeSet _ => true
  | .svnCommit _ => true
  | .policySet _ => true
  | .removePrep _ => true
  | .keySet _ => true
  | .netSet _ => true
  | .arpRequest _ => true
  | .neighborSolicitation _ => true
  | .stnMgtWrEnRetry => true
  | .smbFruOffsetSet _ => true
  | .smbFruBlockRead => true
  | .smbReadVoltage => true
  | .smbReadPower => true
  | .smbReadTj => true
  | .smbReadHrtState => true
  | .smbReadLastFail => true
  | .attnRemoveHold => true
  | .drainTimeExpire => true
  | .removeReady => true
  | .matedNOpen => true
  | .inputAdmit _ => true
  | .hotSwapTrip _ => true
  | .ref100Loss => true
  | .ref100Return => true
  | .ref156hLoss => true
  | .ref156sLoss => true
  | .levainStepStart c => decide (c < 4)
  | .ref156hReturn => true
  | .ref156sReturn => true
  | .calOscillatorStop => true
  | .attestReportDone => true
  | .receivedFrameDrop port _ => decide (port < 2)
  | .invalidRequestOpcode r => decide (r.qp < 1024)

end Sys2Proof
end

