-- ==== Sys2Proof/Certificates/Slice0/Obligations.lean ====
section
/-! DEFINITION. The statements for the provers, and the words that they use. Each says that exec answers a next state, for every state and operands that meet its premises, and what that
state holds; what else a command leaves alone is CommandsChangeOnlyTheirParts. -/

namespace Sys2Proof.Claims

open Sys2Proof.Machine

/-- The command that issues an instruction of an opcode on tray `t`. -/
def issueCommand (mn : Mn) (t : Nat) : Instr :=
  match mn with
  | .nop => .ctrlNop t | .loop => .ctrlLoop t | .endTask => .ctrlEnd t | .setvl => .ctrlSetvl t | .cfg => .ctrlCfg t
  | .ld => .xferLd t | .st => .xferSt t | .gather => .xferGather t | .scatter => .xferScatter t | .remote => .xferRemote t | .pref => .xferPref t
  | .mm => .mxmMm t | .mms => .mxmMms t | .ldw => .mxmLdw t
  | .int => .spxInt t | .sct => .spxSct t | .exp => .spxExp t | .cmp => .spxCmp t | .cen => .spxCen t
  | .ldp => .vxpLdp t | .run => .vxpRun t | .cpr => .vxpCpr t | .exd => .vxpExd t | .prm => .vxpPrm t | .red => .vxpRed t
  | .pcfg => .peelCfg t | .stat => .peelStat t | .upd => .peelUpd t
  | .pred => .levPred t | .aud => .levAud t
  | .wait => .syncWait t | .sig => .syncSig t | .bar => .syncBar t
  | .fsend => .fabSend t | .fmcast => .fabMcast t | .fred => .fabRed t

/-- The next instruction of tray `t` is of opcode `mn`, and no check of R89, R105, R113 or the engine chapters refuses it: its word is `w` (after R329 in a batch), its
descriptors are `ds`, and reading them leaves the state `s1`. Those in flight have lower numbers. -/
structure Passes (s : State) (t : Nat) (mn : Mn) (w : IWord) (ds : List (Role × Nat × Desc)) (s1 : State) : Prop where
  unit : t < 32
  ready : canIssue s t = true
  fresh : ∀ i ∈ (s.tray t).insts, i.seq < (s.tray t).nextSeq
  opcode : wordFault w = none ∧ mnOfWord w = some mn
  fetched : ∃ s0 w0, nextWord s t = (s0, .ok w0) ∧ batchWord (s.tray t).kind w0 = w ∧ headerFault s0 t mn w = none ∧
    readDescs s0 t (s.tray t).pc (s.tray t).set.dtab (s.tray t).loops (namedDescs mn w (s.tray t).set.red (s.tray t).set.statd) = (s1, .ok ds)
  descs : descsFault s1 mn w (s.tray t).set ds = none
  relate : step8Fault s1 t (newInst (s.tray t) mn w ds) = none
  nest : mn = .loop → loopBad (s.tray t).pc w (s.tray t).loops = false
  late : lateFault s1 t (newInst (s.tray t) mn w ds) = none

/-- The tray has taken the instruction: it stands last of those in flight under the number that was next, with the settings that held before it. -/
def TakenBy (r r' : Tray) (mn : Mn) (w : IWord) (ds : List (Role × Nat × Desc)) (i : Inst) : Prop :=
  r'.insts.getLast? = some i ∧ r'.insts.length = r.insts.length + 1 ∧ i.seq = r.nextSeq ∧ i.index = r.pc ∧ i.mn = mn ∧ i.word = w ∧ i.descs = ds ∧ i.set = r.set

/-- What the wait of an instruction needs of each counter that its WAIT names: one token, or CNT for a SYNC.WAIT (R26, R116). -/
def waitNeed (mn : Mn) (w : IWord) : Nat := if mn = .wait then bf w 79 64 else 1

/-- The wait is met, and no earlier instruction holds the new one back by FENCE. -/
def FreeToGo (r : Tray) (mn : Mn) (w : IWord) : Prop := tokensMet r.tokens (W.wait w) (waitNeed mn w) = true ∧ (W.fence w = true → r.insts = [])

/-- A request of an instruction waits on a channel of its tray's core (R332). -/
def WaitsOn (s : State) (t seq ch : Nat) (work : XferWork) : Prop := ∃ r ∈ (s.channel (coreOf t) ch).waiting, r.tray = t ∧ r.seq = seq ∧ r.work = work ∧ r.issued = false

end Sys2Proof.Claims

open Sys2Proof Sys2Proof.Machine Sys2Proof.Claims

/-- Every opcode (R78, R89, R104, R107): an instruction that passes its checks issues. It is in flight under the next number, the stream goes on behind it, the settings
that it leaves are those of later instructions alone, and no byte of memory changes. -/
def Obligations.InstructionIssues : Prop :=
  ∀ (mn : Mn) (s s1 : State) (t : Nat) (w : IWord) (ds : List (Role × Nat × Desc)), Passes s t mn w ds s1 →
    ∃ s' i, exec (issueCommand mn t) s = .next s' ∧ TakenBy (s.tray t) (s'.tray t) mn w ds i ∧
      (s'.tray t).nextSeq = (s.tray t).nextSeq + 1 ∧ ((s'.tray t).pc, (s'.tray t).loops) = advance mn (s.tray t).pc w (s.tray t).loops ∧
      (s'.tray t).set = settingsAfter mn w (s.tray t).set ∧ (∀ a, Tab.get 0 s'.mem a = Tab.get 0 s.mem a)

/-- CTRL.NOP, CTRL.LOOP, CTRL.SETVL, CTRL.CFG, PEEL.CFG, LEV.AUD, SYNC.WAIT and SYNC.SIG (R26, R91, R115, R116): with their wait met and no FENCE to hold them they are
released as they issue, their tokens are taken in that cycle, and they are done. -/
def Sys2Proof.Claims.ControlInstructionsAreDoneAtRelease : Prop :=
  ∀ (mn : Mn) (s s1 : State) (t : Nat) (w : IWord) (ds : List (Role × Nat × Desc)), Passes s t mn w ds s1 →
    mn ∈ [Mn.nop, .loop, .setvl, .cfg, .pcfg, .aud, .wait, .sig] → FreeToGo (s.tray t) mn w →
    ∃ s' i, exec (issueCommand mn t) s = .next s' ∧ TakenBy (s.tray t) (s'.tray t) mn w ds i ∧ i.released = true ∧ i.done = true ∧ (s'.tray t).state = .run ∧
      (s'.tray t).tokens = takeTokens (s.tray t).tokens (W.wait w) (waitNeed mn w)

/-- Every opcode but CTRL.END (R83): an instruction whose wait is not met blocks its tray, unreleased, and takes no token. -/
def Sys2Proof.Claims.UnmetWaitBlocksTray : Prop :=
  ∀ (mn : Mn) (s s1 : State) (t : Nat) (w : IWord) (ds : List (Role × Nat × Desc)), Passes s t mn w ds s1 → mn ≠ .endTask →
    tokensMet (s.tray t).tokens (W.wait w) (waitNeed mn w) = false →
    ∃ s' i, exec (issueCommand mn t) s = .next s' ∧ TakenBy (s.tray t) (s'.tray t) mn w ds i ∧ i.released = false ∧ (s'.tray t).state = .blocked ∧
      (s'.tray t).tokens = (s.tray t).tokens ∧ canIssue s' t = false

/-- CTRL.SETVL, CTRL.CFG, PEEL.CFG and LEV.AUD (R106, R108, R264): the fields of the instruction become the tray's settings, and every other setting stays. -/
def Obligations.SettingsFollowTheirInstructions : Prop :=
  ∀ (mn : Mn) (s s1 : State) (t : Nat) (w : IWord) (ds : List (Role × Nat × Desc)), Passes s t mn w ds s1 →
    ∃ s', exec (issueCommand mn t) s = .next s' ∧
      (mn = .setvl → (s'.tray t).set = { (s.tray t).set with vl := bf w 79 64 } ∧ 1 ≤ bf w 79 64 ∧ bf w 79 64 ≤ 2048) ∧
      (mn = .cfg → bf w 71 64 = 0x10 → (s'.tray t).set = { (s.tray t).set with dtab := bf w 127 96 + 2 ^ 32 * bf w 143 128 }) ∧
      (mn = .cfg → bf w 71 64 < 0x10 →
        (s'.tray t).set = { (s.tray t).set with bregs := (s.tray t).set.bregs.set (bf w 71 64) (bf w 111 96, bf w 127 112) }) ∧
      (mn = .pcfg → (s'.tray t).set =
        { (s.tray t).set with outFmt := bf w 67 64, red := bf w 74 72, statd := bf w 87 80, scale := BitVec.ofNat 32 (bf w 127 96) }) ∧
      (mn = .aud → (s'.tray t).set = { (s.tray t).set with audK := bf w 67 64, audEn := bit w 68, strict := bit w 69 } ∧ (s'.tray t).arming = none)

/-- CTRL.LOOP (R104): it opens a loop over the LEN instructions behind it, or with COUNT = 0 (outside any loop) passes over them. The last instruction of a body turns back to its
first while iterations are left, and ends the loop with the last one. -/
def Obligations.LoopOpensAndTurnsBack : Prop :=
  (∀ (s s1 : State) (t : Nat) (w : IWord) (ds : List (Role × Nat × Desc)), Passes s t .loop w ds s1 →
    ∃ s', exec (.ctrlLoop t) s = .next s' ∧
      (0 < W.m w → (s'.tray t).pc = (s.tray t).pc + 1 ∧ ∃ l, (s'.tray t).loops = l :: (s.tray t).loops ∧ l.first = (s.tray t).pc + 1 ∧
        l.last = (s.tray t).pc + bf w 139 128 ∧ l.count = W.m w ∧ l.iter = 0) ∧
      (W.m w = 0 → (s.tray t).loops = [] → (s'.tray t).pc = (s.tray t).pc + 1 + bf w 139 128 ∧ (s'.tray t).loops = [])) ∧
  (∀ (mn : Mn) (s s1 : State) (t : Nat) (w : IWord) (ds : List (Role × Nat × Desc)) (l : Loop), Passes s t mn w ds s1 → mn ≠ .loop →
    (s.tray t).loops = [l] → l.last = (s.tray t).pc →
    ∃ s', exec (issueCommand mn t) s = .next s' ∧
      (l.iter + 1 < l.count → (s'.tray t).pc = l.first ∧ (s'.tray t).loops = [{ l with iter := l.iter + 1 }]) ∧
      (l.count ≤ l.iter + 1 → (s'.tray t).pc = (s.tray t).pc + 1 ∧ (s'.tray t).loops = []))

/-- CTRL.END (R80, R82): the tray enters ENDING and issues nothing more; the instruction is released at once only if its wait is met and no earlier instruction is in
flight. -/
def Obligations.EndEntersEnding : Prop :=
  ∀ (s s1 : State) (t : Nat) (w : IWord) (ds : List (Role × Nat × Desc)), Passes s t .endTask w ds s1 →
    ∃ s' i, exec (.ctrlEnd t) s = .next s' ∧ TakenBy (s.tray t) (s'.tray t) .endTask w ds i ∧ (s'.tray t).state = .ending ∧ canIssue s' t = false ∧
      (i.released = true ↔ tokensMet (s.tray t).tokens (W.wait w) 1 = true ∧ (s.tray t).insts = [])

/-- The XFER opcodes (R332, R344, R346, R348): the rows of the instruction are split into transfer descriptors, and with nothing to hold it back each waits at the end of
its channel: 0 for XFER.LD and XFER.PREF, 1 for XFER.ST, 2 for the messages of XFER.REMOTE; XFER.GATHER and XFER.SCATTER read their index tensor first, on channel 0. -/
def Obligations.TransfersAreRequestedOnTheirChannels : Prop :=
  ∀ (mn : Mn) (s s1 : State) (t : Nat) (w : IWord) (ds : List (Role × Nat × Desc)), Passes s t mn w ds s1 → mn.isX = true → FreeToGo (s.tray t) mn w →
    ∃ s' i, exec (issueCommand mn t) s = .next s' ∧ TakenBy (s.tray t) (s'.tray t) mn w ds i ∧ i.released = true ∧ i.xds = planXfer mn w (i.desc .srca) ∧
      (mn = .ld → ∀ n < i.xds.length, WaitsOn s' t i.seq 0 (.xfer n)) ∧ (mn = .st → ∀ n < i.xds.length, WaitsOn s' t i.seq 1 (.xfer n)) ∧
      (mn = .pref → ∀ n < i.xds.length, WaitsOn s' t i.seq 0 (.pref n)) ∧
      (mn = .remote → i.xds ≠ [] → WaitsOn s' t i.seq 2 (.fab 0)) ∧
      (mn = .gather ∨ mn = .scatter → i.xds ≠ [] → ∀ n < idxParts i, WaitsOn s' t i.seq 0 (.index n))

/-- MXM.MM, MXM.MMS, SPX.INT and SPX.SCT without a mask (R302, R303, R301): the output tiles of the plan lie inside M × N, none has more than 256 rows or columns, and every
element of the output lies in one; each tile waits for ⌈K / K_t⌉ passes. -/
def Obligations.ProductTilesCoverTheOutput : Prop :=
  ∀ (mn : Mn) (s s1 : State) (t : Nat) (w : IWord) (ds : List (Role × Nat × Desc)), Passes s t mn w ds s1 → mn.isProduct = true →
    maskBindOf s1 t mn w = none → 0 < W.m w → 0 < W.nT w →
    ∃ s' i, exec (issueCommand mn t) s = .next s' ∧ TakenBy (s.tray t) (s'.tray t) mn w ds i ∧ i.planned = true ∧
      (∀ o ∈ i.tiles, o.row0 + o.rows ≤ W.m w ∧ o.col0 + o.cols ≤ W.nT w ∧ 0 < o.rows ∧ o.rows ≤ 256 ∧ 0 < o.cols ∧ o.cols ≤ 256 ∧ o.stepsLeft = cdiv (W.k w) (tileK mn w)) ∧
      (∀ r < W.m w, ∀ c < W.nT w, ∃ o ∈ i.tiles, o.row0 ≤ r ∧ r < o.row0 + o.rows ∧ o.col0 ≤ c ∧ c < o.col0 + o.cols)

/-- SPX.EXP, SPX.CMP, SPX.CEN, VXP.RUN, VXP.CPR, VXP.EXD, VXP.PRM, VXP.RED and PEEL.STAT (R267, R288): one step for each block of four rows, or of the last rows, in ascending
order. MXM.LDW, VXP.LDP and PEEL.UPD are one step, LEV.PRED one for each row of SRCA. -/
def Obligations.StepsFollowTheRows : Prop :=
  ∀ (mn : Mn) (s s1 : State) (t : Nat) (w : IWord) (ds : List (Role × Nat × Desc)), Passes s t mn w ds s1 →
    ∃ s' i, exec (issueCommand mn t) s = .next s' ∧ TakenBy (s.tray t) (s'.tray t) mn w ds i ∧
      (mn ∈ [Mn.exp, .cmp, .run, .cpr, .exd, .prm, .red, .stat] → 0 < W.m w → 0 < W.nV w → i.steps.map PStep.k = List.range (cdiv (W.m w) 4)) ∧
      (mn ∈ [Mn.ldw, .ldp, .upd] → (mn = .ldw → 0 < W.nT w) → i.steps.length = 1) ∧
      (mn = .cen → 0 < W.m w → 0 < W.nV w → i.steps.map PStep.k = List.range (cdiv (cdiv (W.m w) 256) 4)) ∧
      (mn = .pred → i.steps.map PStep.k = List.range (i.desc .srca).rows ∧ (s'.tray t).arming = some i.seq) ∧
      (mn = .ldp → Tab.get false (s'.core (coreOf t)).vec.marks (16 * (t % 8) + W.prog w) = true) ∧
      (mn = .upd → i.upd.xst = sext 8 (bf (s1.updWord (coreOf t) (W.updLayer w) 0) 15 8))

/-- R314, R290: an instruction of layout T or V with M = 0 or N = 0 has no step and no output tile, and is done as its wait is met. -/
def Obligations.ZeroShapeIsDoneAtRelease : Prop :=
  ∀ (mn : Mn) (s s1 : State) (t : Nat) (w : IWord) (ds : List (Role × Nat × Desc)), Passes s t mn w ds s1 → FreeToGo (s.tray t) mn w →
    (mn.isProduct = true ∧ (W.m w = 0 ∨ W.nT w = 0)) ∨ (mn.isV = true ∧ mn ≠ .ldp ∧ (W.m w = 0 ∨ W.nV w = 0)) ∨ (mn = .ldw ∧ W.nT w = 0) →
    ∃ s' i, exec (issueCommand mn t) s = .next s' ∧ TakenBy (s.tray t) (s'.tray t) mn w ds i ∧ i.steps = [] ∧ i.tiles = [] ∧ i.released = true ∧ i.done = true ∧
      i.zeroShape = true

/-- SYNC.BAR (R120, R121): with nothing to hold it back it arrives as it issues. At a free barrier it opens it, or completes at once when its tray is the only participant; as the
last of an open barrier's trays it completes, and the barrier is free again. -/
def Obligations.BarrierOpensAndCompletes : Prop :=
  ∀ (s s1 : State) (t : Nat) (w : IWord) (ds : List (Role × Nat × Desc)), Passes s t .bar w ds s1 → FreeToGo (s.tray t) .bar w →
    let b := bf w 67 64
    let mask := bf w 127 96
    ∃ s' i, exec (.syncBar t) s = .next s' ∧ TakenBy (s.tray t) (s'.tray t) .bar w ds i ∧ i.released = true ∧
      (s1.barrier b = .free → 2 ^ t ≠ mask → s'.barrier b = { mask := some mask, arrived := 2 ^ t, waiters := [(t, i.seq)] } ∧ i.done = false) ∧
      (s1.barrier b = .free → 2 ^ t = mask → s'.barrier b = .free ∧ i.done = true) ∧
      ((s1.barrier b).mask = some mask → (s1.barrier b).arrived.testBit t = false → (s1.barrier b).arrived ||| 2 ^ t = mask → s'.barrier b = .free ∧ i.done = true)

/-- FAB.SEND, FAB.MCAST and FAB.RED (R109, R479, R491, R496): as they issue, every message of theirs is still to be sent, to the module or group named; a FAB.RED counts GRP_RSEQ modulo
65,536 and sends to each other member of its group. -/
def Obligations.FabricInstructionsPlanTheirMessages : Prop :=
  ∀ (mn : Mn) (s s1 : State) (t : Nat) (w : IWord) (ds : List (Role × Nat × Desc)), Passes s t mn w ds s1 → mn.isFab = true →
    ∃ s' i, exec (issueCommand mn t) s = .next s' ∧ TakenBy (s.tray t) (s'.tray t) mn w ds i ∧ (∀ m ∈ i.msgs, m.state = .waiting) ∧
      i.msgs.length = (if mn = .fred then i.xds.length else (i.xds.map (partsOfXd (i.desc .srca))).sum) ∧ (mn = .fsend → ∀ m ∈ i.msgs, m.dst = W.faddrF w) ∧ (mn = .fmcast → ∀ m ∈ i.msgs, m.dst = W.mgroup w) ∧
      (mn = .fred → s'.fld (Csr.group (W.mgroup w)) 47 32 = (s1.fld (Csr.group (W.mgroup w)) 47 32 + 1) % 65536 ∧ i.red.rseq = (s1.fld (Csr.group (W.mgroup w)) 47 32 + 1) % 65536 ∧
        ∀ m ∈ i.msgs, m.dst ∈ groupMembers s1 (W.mgroup w))

/-- Steps 1 and 2 of R89: a word whose GEN is not 1, or which no opcode has, ends the task at its issue, whichever opcode's command comes. The tray goes to DRAIN with a KIND 2
record of the code, its queue stops dispatching, the newest entry of the error log tells of it, and no byte of memory changes. -/
def Obligations.WrongWordsEndTheTask : Prop :=
  ∀ (mn : Mn) (s s0 : State) (t code : Nat) (w0 : IWord), t < 32 → canIssue s t = true → (s.tray t).queue < 64 → nextWord s t = (s0, .ok w0) →
    wordFault (batchWord (s.tray t).kind w0) = some code →
    (code = if W.gen (batchWord (s.tray t).kind w0) ≠ 1 then 0x0102 else 0x0101) ∧
    ∃ s' f, exec (issueCommand mn t) s = .next s' ∧ (s'.tray t).state = .drain ∧ (s'.tray t).faulted = some f ∧ f.code = code ∧ f.kind = 2 ∧ f.tray = t ∧
      f.queue = (s.tray t).queue ∧ f.index = (s.tray t).pc ∧ bit (s'.reg (Csr.hqState (s.tray t).queue)) 23 = true ∧
      (∃ e, s'.errLog.getLast? = some e ∧ e.code = code ∧ e.tray = t ∧ e.index = (s.tray t).pc) ∧ (∀ a, Tab.get 0 s'.mem a = Tab.get 0 s.mem a)

namespace Sys2Proof.Claims

/-- No injected error waits in a part of a structure (R581). -/
def Sound (s : State) (index place : Nat) : Prop := ∀ p ∈ s.planted, ¬ (p.index = index ∧ p.place = place)

/-- A tray whose task goes on: it has one that neither is paused nor has ended, and no module stop is in force. -/
def Runs (s : State) (t : Nat) : Prop := s.stop = none ∧ (s.tray t).live = true ∧ (s.tray t).state ≠ .paused

/-- A spill request stands at area `w.area`: it waits there, or has room there (R401). -/
def StandsAt (s : State) (c : Nat) (w : SpillWait) : Prop :=
  w ∈ (s.core c).proofer.spillWait ∨ ∃ a ∈ (s.core c).proofer.spillAlloc, a.tray = w.tray ∧ a.seq = w.seq ∧ a.area = w.area

/-- A request that copies a slot out to a spill area (R365). -/
def isSpill : XferWork → Bool
  | .spill _ _ _ _ => true
  | _ => false

/-- A request that copies a part of slot `slot` of a role. -/
def copies (role : Role) (slot : Nat) : XferWork → Bool
  | .spill q n _ _ => q == role && n == slot
  | _ => false

end Sys2Proof.Claims

/-- INSTRUCTION_COMPLETE (R26, R84, R127): an instruction whose last step has committed leaves its tray, and its SIG increments the counters that it names; a CTRL.END's waits for the
boundary cycle. Its record waits in its queue's order
if it has a TAG or is a CTRL.END: KIND 1 for the task's end, KIND 0 otherwise. (SYNC.SIG: the next statement.) -/
def Sys2Proof.Claims.CompletedInstructionLeavesItsTray : Prop :=
  ∀ (s : State) (t k : Nat) (i : Inst), t < 32 → (s.tray t).queue < 64 → Sound s 9 t → Runs s t → s.inst t k = some i → i.finished = true → i.mn ≠ .sig →
    (∀ j < 8, (W.sig i.word).testBit j = true → Vec.get (s.tray t).tokens j 0 < 65535) → (∀ j ∈ (s.tray t).insts, j.released = true) →
    ∃ s', exec (.instructionComplete t k) s = .next s' ∧ (s'.tray t).insts = (s.tray t).insts.filter (fun x => x.seq != k) ∧
      (i.mn ≠ .endTask → ∀ j < 8, Vec.get (s'.tray t).tokens j 0 = Vec.get (s.tray t).tokens j 0 + (if (W.sig i.word).testBit j then 1 else 0)) ∧
      (i.mn = .endTask → (s'.tray t).tokens = (s.tray t).tokens ∧ (s'.tray t).endSig = W.sig i.word) ∧
      (W.tag i.word ≠ 0 → i.mn ≠ .endTask → ∃ r, (s'.hq (s.tray t).queue).recs = (s.hq (s.tray t).queue).recs ++ [r] ∧ r.tag = W.tag i.word ∧ r.kind = 0 ∧
        r.code = 0 ∧ r.tray = t ∧ r.index = i.index) ∧
      (i.mn = .endTask → (s.tray t).kind = .doorbell → ∃ r, (s'.hq (s.tray t).queue).recs = (s.hq (s.tray t).queue).recs ++ [r] ∧ r.tag = W.tag i.word ∧
        r.kind = 1 ∧ r.code = 0 ∧ r.tray = t ∧ r.last = true) ∧
      (∀ a, Tab.get 0 s'.mem a = Tab.get 0 s.mem a)

/-- SYNC.SIG completes (R84, R117, R118): with TTRAY an idle tray, the counters of TMASK there advance and are held for its next task, and its own SIG advances those of its tray. -/
def Sys2Proof.Claims.SyncSigReachesAnotherTray : Prop :=
  ∀ (s : State) (t k : Nat) (i : Inst), t < 32 → (s.tray t).queue < 64 → Sound s 9 t → Runs s t → s.inst t k = some i → i.finished = true → i.mn = .sig →
    bit i.word 69 = true → bf i.word 68 64 ≠ t → (s.tray (bf i.word 68 64)).state = .idle →
    (∀ j < 8, Vec.get (s.tray t).tokens j 0 < 65535 ∧ Vec.get (s.tray (bf i.word 68 64)).tokens j 0 < 65535) → (∀ j ∈ (s.tray t).insts, j.released = true) →
    ∃ s', exec (.instructionComplete t k) s = .next s' ∧
      (∀ j < 8, Vec.get (s'.tray (bf i.word 68 64)).tokens j 0 = Vec.get (s.tray (bf i.word 68 64)).tokens j 0 + (if (bf i.word 79 72).testBit j then 1 else 0)) ∧
      (∀ j < 8, Vec.get (s'.tray t).tokens j 0 = Vec.get (s.tray t).tokens j 0 + (if (W.sig i.word).testBit j then 1 else 0)) ∧
      (s'.tray (bf i.word 68 64)).state = .idle ∧ (s'.tray t).insts = (s.tray t).insts.filter (fun x => x.seq != k)

/-- DISPATCH (R20): the oldest waiting stream takes the lowest-numbered idle tray of its queue's set, which starts at the stream's first instruction with the settings of a task's
start; the stream waits no more. -/
def Obligations.OldestStreamTakesLowestIdleTray : Prop :=
  ∀ (s : State) (q t : Nat) (x : Waiting) (rest : List (Nat × Waiting)), s.stop = none → s.hearth.removal = .none → waitingByAge s = (q, x) :: rest →
    t < 32 → (s.fld (Csr.hqCfg q) 31 0).testBit t = true → (s.tray t).state = .idle →
    (∀ u < t, (s.fld (Csr.hqCfg q) 31 0).testBit u = true → (s.tray u).state ≠ .idle) → x.stream % 32 = 0 → x.dtab % 64 = 0 →
    ∃ s', exec .dispatch s = .next s' ∧ (s'.tray t).state = .run ∧ (s'.tray t).queue = q ∧ (s'.tray t).stream = x.stream ∧ (s'.tray t).kind = x.kind ∧
      (s'.tray t).pc = 0 ∧ (s'.tray t).insts = [] ∧ (s'.tray t).tokens = (s.tray t).tokens ∧
      (s'.tray t).set = .start (t % 8) (x.dtab + if x.kind.isQuick then 16384 * trayPosition s q t else 0) ∧ (s'.hq q).waiting.length < (s.hq q).waiting.length

/-- RECORD_WRITE (R451, R452, R84): the oldest waiting record is written at slot HQ_PI mod 2^order and HQ_PI advances modulo 2^32; with a task's last record its tray enters IDLE, its counters
are cleared, and its CTRL.END's SIG is applied to them. While the ring is full the record waits and HQ_RING_FULL is set. A record that cannot be written is dropped, HQ_RING_FAULT is set and the queue's dispatch stops. -/
def Sys2Proof.Claims.OldestRecordGoesToItsRing : Prop :=
  ∀ (s : State) (q : Nat) (r : Rec) (rest : List Rec), q < 64 → (s.hq q).recs = r :: rest → r.tray < 32 →
    let pi := s.fld (Csr.hqIndex q) 31 0
    let full := (pi + 2 ^ 32 - s.fld (Csr.hqIndex q) 63 32) % 2 ^ 32 = ringSize s q
    let at' := s.fld (Csr.hqRing q) 47 5 * 32 + 32 * (pi % ringSize s q)
    let s0 := s.modHq q (fun x => { x with recs := rest })
    let bytes := recBytes r (decide (pi / ringSize s q % 2 = 0))
    ∃ s', exec (.recordWrite q) s = .next s' ∧
      (full → s' = s.setFld (Csr.hqState q) 0 0 1) ∧
      (¬ full → r.last = true → (s'.tray r.tray).state = .idle ∧ (s'.tray r.tray).insts = [] ∧ ((∀ b < 16, ∀ p ∈ (s.barrier b).waiters, p.1 ≠ r.tray) →
        (s'.tray r.tray).tokens = (bumpTokens (Vector.replicate 8 0) (s.tray r.tray).endSig).1)) ∧
      (¬ full → ∀ s1 pa, translate s0 4 (s.fld (Csr.hqCfg q) 55 50) at' false = (s1, .ok pa) → (ringWrite s0 (s.fld (Csr.hqCfg q) 55 50) at' bytes).2 = none →
        s'.fld (Csr.hqIndex q) 31 0 = (pi + 1) % 2 ^ 32 ∧ (∀ j < 32, Tab.get 0 s'.mem (pa + j) = bytes.getD j 0) ∧
        (∀ a, a < pa ∨ pa + 32 ≤ a → Tab.get 0 s'.mem a = Tab.get 0 s.mem a)) ∧
      (¬ full → r.last = false → ∀ s1 code, ringWrite s0 (s.fld (Csr.hqCfg q) 55 50) at' bytes = (s1, some code) →
        (s'.hq q).recs = rest ∧ s'.fld (Csr.hqIndex q) 31 0 = pi ∧ s'.fld (Csr.hqState q) 1 1 = 1 ∧ s'.fld (Csr.hqState q) 23 23 = 1)

/-- NOTIFY_TIMER_EXPIRE (R454): a NOTIFY of the queue's producer index goes to its endpoint over the queue's port, and no record is unnotified. -/
def Sys2Proof.Claims.NotifyTimerSendsProducerIndex : Prop :=
  ∀ (s : State) (q : Nat), q < 64 → (s.hq q).notifyOn = true → s.fld (Csr.hqParam q) 33 26 ≠ 0 → Vec.get s.host.up (s.fld (Csr.hqCfg q) 48 48) false = true →
    s.host.paused = [] →
    ∃ s', exec (.notifyTimerExpire q) s = .next s' ∧ s'.hostTx = s.hostTx ++ [.notify (s.fld (Csr.hqCfg q) 47 44) q (s.fld (Csr.hqIndex q) 31 0)] ∧
      (s'.hq q).unnotified = 0 ∧ (s'.hq q).notifyOn = false ∧ (s'.hq q).recs = (s.hq q).recs

/-- DRAIN_DONE (R82, R452): with room in the ring the tray enters IDLE; with none it stays in DRAIN, and its KIND 2 record waits. -/
def Obligations.DrainEndsInIdle : Prop :=
  ∀ (s : State) (t : Nat) (f : Rec), t < 32 → (s.tray t).state = .drain → (s.tray t).faulted = some f → f.tray = t → f.queue = (s.tray t).queue → f.queue < 64 →
    (s.tray t).kind = .doorbell → (s.tray t).cancelled = [] → (s.hq f.queue).recs = [] →
    let full := (s.fld (Csr.hqIndex f.queue) 31 0 + 2 ^ 32 - s.fld (Csr.hqIndex f.queue) 63 32) % 2 ^ 32 = ringSize s f.queue
    ∃ s', exec (.drainDone t) s = .next s' ∧ (s'.tray t).faulted = none ∧ (¬ full → (s'.tray t).state = .idle) ∧
      (full → (s'.tray t).state = .drain ∧ (s'.hq f.queue).recs = [{ f with last := true }] ∧ s'.fld (Csr.hqState f.queue) 0 0 = 1)

/-- TILE_STEP_QUEUE (R24, R25): the oldest instruction with steps left sends its next one to its engine's queue when that has room. Of a product, a dense tile that MXM.MM's ENG sends to
the arrays is queued at the array that the tiler chooses. -/
def Obligations.NextStepEntersItsEngine : Prop :=
  ∀ (s : State) (t : Nat) (i : Inst) (p : PStep) (ps : List PStep), t < 32 → Runs s t → (s.tray t).insts.find? Inst.toTile = some i → i.planned = true → i.steps = p :: ps →
    (∀ j ∈ (s.tray t).insts, j.seq = i.seq → j = i) →
    (i.mn.isProduct = false → (i.mn = .ldw → W.arr i.word < 3) → queueRoom s (coreOf t) t (plainEngine i).1 = true →
      ∃ s' x i', exec (.tileStepQueue t) s = .next s' ∧ x ∈ engSteps s' (coreOf t) (plainEngine i).1 ∧ x.tray = t ∧ x.seq = i.seq ∧ x.tile = p.tile ∧ x.k = p.k ∧
        x.kind = (plainEngine i).2 ∧ s'.inst t i.seq = some i' ∧ i'.steps = ps ∧ i'.running = i.running + 1) ∧
    (i.mn = .mm → W.eng i.word = 1 → (i.desc .srca).comp = 0 → (i.desc .srcb).comp = 0 → i.mask = none → (i.tile p.tile).opened = true → 2 ≤ (i.tile p.tile).stepsLeft →
      p.tile < i.tiles.length → 0 < W.m i.word → queueRoom s (coreOf t) t (.array (chooseArray s t i (gridNow s t i) p)) = true →
      chooseArray s t i (gridNow s t i) p < 2 →
      ∃ s' x i', exec (.tileStepQueue t) s = .next s' ∧ x ∈ engSteps s' (coreOf t) (.array (chooseArray s t i (gridNow s t i) p)) ∧ x.tray = t ∧ x.seq = i.seq ∧
        x.tile = p.tile ∧ x.k = p.k ∧ x.kind = .array ∧ s'.inst t i.seq = some i' ∧ i'.steps = ps ∧ (i'.tile p.tile).arrays = (i.tile p.tile).arrays + 1)

/-- HEADER_COUNT_REPORT (R338): with the headers of a crumb operand's block read, the tiler knows its count, and nothing is reported twice. (An operand that is not streamed.) -/
def Sys2Proof.Claims.HeaderCountReachesTheTiler : Prop :=
  ∀ (s s1 : State) (t role bi bj n : Nat) (i : Inst) (p : PStep), t < 32 → role < 2 → Runs s t → s.inst t i.seq = some i → i.released = true → i.planned = true →
    i.mn.isProduct = true →
    let r : Role := if role = 0 then .srca else .srcb
    (i.desc r).comp = 1 → i.reported r bi bj = none →
    i.steps.find? (fun p => (stepBlock i (gridNow s t i) (maskSel s t i) r p).bi == bi && (stepBlock i (gridNow s t i) (maskSel s t i) r p).bj == bj) = some p →
    (s.core (coreOf t)).proofer.streams.find? (fun x => x.tray == t && x.seq == i.seq && x.role == r) = none →
    sumHeaders s (coreOf t) (spaceOf s t) (i.desc r) (blockCrumbs i (gridNow s t i) (maskSel s t i) r p) = (s1, .ok n) →
    ∃ s' i', exec (.headerCountReport t i.seq role bi bj) s = .next s' ∧ s'.inst t i.seq = some i' ∧ i'.reported r bi bj = some n ∧
      exec (.headerCountReport t i.seq role bi bj) s' = .next s'

/-- ZERO_PASS_GENERATE (R232, R240): the oldest product with an output tile that no pass feeds learns that the tile has none. In add mode without statistics the tile ends at once, and its status
entry of 16 bytes, with MASKED_ALL for a tile wholly outside E, is all that is written. -/
def Sys2Proof.Claims.TileWithoutPassesEnds : Prop :=
  ∀ (s : State) (t : Nat) (i : Inst), t < 32 → Runs s t →
    (s.tray t).insts.find? (fun i => i.mn.isProduct && i.released && i.planned && i.tiles.any OTile.passless) = some i → s.inst t i.seq = some i →
    let n := i.tiles.findIdx OTile.passless
    let at' := benchAddr (coreOf t) ((dstRegion i + 16 * n) % 2 ^ 28)
    ∃ s' i', exec (.zeroPassGenerate t) s = .next s' ∧ s'.inst t i.seq = some i' ∧ (i'.tile n).total = some 0 ∧
      (W.acc i.word = true → i.set.red = 0 → (i.tile n).committed = (i.tile n).sent → (i.tile n).blocks ≤ 64 →
        (i'.tile n).done = true ∧ (i'.tile n).committed = (i.tile n).blocks ∧ i'.passIndex = 0 ∧
        (∀ j < 4, Tab.get 0 s'.mem (at' + j) = (leBytes 4 (tileStatusWord 0 (i.tile n).src (i.tile n).zeroShape
          (if (i.tile n).cols = 0 then { (i.tile n).flags with maskedAll := true } else (i.tile n).flags))).getD j 0) ∧
        (∀ a, a < at' ∨ at' + 16 ≤ a → Tab.get 0 s'.mem a = Tab.get 0 s.mem a))

/-- READ_AHEAD_ADVANCE (R339, R340): a tray that runs and has read nothing ahead reads its next instruction word. -/
def Obligations.ReadAheadFetchesTheNextWord : Prop :=
  ∀ (s s1 s2 : State) (t : Nat) (bs : List Byte), t < 32 → s.stop = none → (s.tray t).state = .run → (s.tray t).starting = false → (s.tray t).alignFault = false →
    (s.tray t).ending = false → (∀ i ∈ (s.tray t).insts, i.released = true) → (s.tray t).ahead = [] → (s.tray t).raSeq = (s.tray t).nextSeq →
    ((s.tray t).insts = [] ∨ ∃ i l, (s.tray t).insts = i :: l ∧ (s.tray t).raSeq ≤ i.seq + (s.tray t).snap.lookahead) →
    trayFetch s t (s.tray t).raPc ((s.tray t).stream + 32 * (s.tray t).raPc) 32 = (s1, .ok bs) → readNext s t = (s2, true) →
    ∃ s' a, exec (.readAheadAdvance t) s = .next s' ∧ a ∈ (s'.tray t).ahead ∧ a.seq = (s.tray t).nextSeq ∧ a.index = (s.tray t).raPc ∧ a.word = BitVec.ofNat 256 (leNat bs) ∧
      (s'.tray t).pc = (s.tray t).pc ∧ (s'.tray t).nextSeq = (s.tray t).nextSeq ∧ (∀ x, Tab.get 0 s'.mem x = Tab.get 0 s.mem x)

/-- TRANSFER_DESC_ISSUE (R333, R334): the channel's lowest free descriptor takes the chosen request, which waits no more; the walks of its untranslated pages begin. -/
def Sys2Proof.Claims.FreeDescriptorTakesTheChosenRequest : Prop :=
  ∀ (s : State) (c ch slot : Nat) (r : ChReq), c < 4 → ch < 4 → (s.channel c ch).active.toList.findIdx? Option.isNone = some slot → chooseRequest s c (s.channel c ch) = some r →
    ∃ s', exec (.transferDescIssue c ch) s = .next s' ∧ Vec.get (s'.channel c ch).active slot none = some { r with issued := true, walks := (missingPages s c r).length } ∧
      (s'.channel c ch).waiting = (s.channel c ch).waiting.filter (fun y => y.id != r.id) ∧
      s'.mmu.walks.length = s.mmu.walks.length + (missingPages s c r).length ∧ (∀ k, k ≠ ch → k < 4 → s'.channel c k = s.channel c k)

/-- TRANSFER_DESC_DONE (R333, R336, R338, R342): a fill whose bytes have moved brings its slot one part nearer, the last part leaving it written, or free when no step is left that it
serves; an XFER.PREF's transfer is done. Either way its descriptor is free. -/
def Sys2Proof.Claims.FinishedTransferFreesItsDescriptor : Prop :=
  ∀ (s s2 : State) (c ch slot : Nat) (r : ChReq), c < 4 → ch < 4 → slot < 8 → Vec.get (s.channel c ch).active slot none = some r → Sound s 8 r.tray → (s.tray r.tray).live = true →
    hostWaits s c r.id = false → r.moved = false → (∀ w ∈ s.mmu.walks, w.req ≠ r.id) →
    let s1 := serveOwned s c ch (r.id + 1)
    (∀ role sl part n st k f, r.work = .fill role sl part → streamOf s1 c r role = some (n, st) → st.spilled = [] → moveFill s1 c r ch sl part n st = (s2, .ok ()) →
      (st.slots[sl]? = some ⟨.filling k, f⟩) →
      ∃ s' st', exec (.transferDescDone c ch slot) s = .next s' ∧ Vec.get (s'.channel c ch).active slot none = none ∧ (s'.core c).proofer.streams[n]? = some st' ∧
        st'.slots[sl]? = some (if 1 < k then ⟨.filling (k - 1), f⟩ else if f.any (fun x => x.users.isEmpty) then ⟨.free, none⟩ else ⟨.written, f⟩)) ∧
    (∀ n i ps, r.work = .pref n → s.inst r.tray r.seq = some i → n < i.xds.length →
      translateAll s1 c (spaceOf s1 r.tray) false ((virtPieces (spansOf s1 c r)).map (fun p => (p.1, p.2.1))) = (s2, .ok ps) →
      ∃ s' i', exec (.transferDescDone c ch slot) s = .next s' ∧ Vec.get (s'.channel c ch).active slot none = none ∧ s'.inst r.tray r.seq = some i' ∧
        (i'.xds[n]?).any (fun x => x.done) = true ∧ (∀ a, Tab.get 0 s'.mem a = Tab.get 0 s.mem a))

/-- STREAM_SLOT_FILLED (R336): the credit of a slot whose last byte has been written is posted, and no other slot changes. -/
def Sys2Proof.Claims.WrittenSlotPostsItsCredit : Prop :=
  ∀ (s : State) (c stream slot : Nat) (st : Stream) (f : Option Fill), c < 4 → (s.core c).proofer.streams[stream]? = some st → st.slots[slot]? = some ⟨.written, f⟩ →
    ∃ s' st', exec (.streamSlotFilled c stream slot) s = .next s' ∧ (s'.core c).proofer.streams[stream]? = some st' ∧ st'.slots[slot]? = some ⟨.full, f⟩ ∧
      (∀ k, k ≠ slot → st'.slots[k]? = st.slots[k]?) ∧ (∀ n, n ≠ stream → (s'.core c).proofer.streams[n]? = (s.core c).proofer.streams[n]?)

/-- TRANSLATION_WALK_DONE (R379): a walk under way is over, and no table's bytes have changed. Where no walk writes, a walk that found a translation leaves every tray alone; its entry
has entered the walker's cache, unless the page was there already. -/
def Sys2Proof.Claims.WalkEndsWithItsTranslation : Prop :=
  ∀ (s : State) (w : Nat) (x : Walk), s.mmu.walks.find? (fun y => y.id == w) = some x →
    (walkRuns s x = false → exec (.translationWalkDone w) s = .next s) ∧
    (walkRuns s x = true → ∃ s', exec (.translationWalkDone w) s = .next s' ∧ x ∉ s'.mmu.walks ∧ (∀ a, Tab.get 0 s'.mem a = Tab.get 0 s.mem a) ∧
      ((∀ y ∈ s.mmu.walks, y.write = false) →
        (tFind (tBits x.walker) (tCacheOf s x.walker) x.space x.va = none → (∃ pa, (walkAndFill s x.walker x.space x.va false).2 = .ok pa) → s'.trays = s.trays ∧
          tCacheOf s' x.walker = tCacheOf (walkAndFill s x.walker x.space x.va false).1 x.walker) ∧
        (tFind (tBits x.walker) (tCacheOf s x.walker) x.space x.va ≠ none → s'.trays = s.trays ∧ tCacheOf s' x.walker = tCacheOf s x.walker)))

/-- PRF_DEADLOCK_EXPIRE (R365): of a closed chain of streams that block each other the youngest is spilled: its full slots that no running step has begun to read are being
copied out, and the break is counted. -/
def Sys2Proof.Claims.YoungestBlockedStreamIsSpilled : Prop :=
  ∀ (s : State) (c j : Nat) (y : Stream), c < 4 → youngestOf s c (blockChain s c) = some j → (s.core c).proofer.streams[j]? = some y →
    ∃ s' y', exec (.prfDeadlockExpire c) s = .next s' ∧ (s'.core c).proofer.streams[j]? = some y' ∧
      y'.slots = y.slots.map (fun z => if withdrawn s c y z then { z with state := .leaving } else z) ∧
      s'.reg (Csr.prfSpillBreaks c) = s.reg (Csr.prfSpillBreaks c) + 1 ∧ (∀ a, Tab.get 0 s'.mem a = Tab.get 0 s.mem a)

/-- SPILL_COPY_DONE (R333, R365): the last part of the core's oldest copy of a slot completes: its bytes stand in the spill area, no other byte changes, they are counted as written, and
the slot's block is remembered as spilled there, unless the host has still to acknowledge it (R382). -/
def Sys2Proof.Claims.SpilledSlotIsCopiedOut : Prop :=
  ∀ (s : State) (c n slot part addr : Nat) (role : Role) (r : ChReq) (x : Stream) (f : Fill), c < 4 →
    let all := ((s.channel c 1).active.toList.filterMap (fun o => o) ++ (s.channel c 1).waiting).filter (fun y => isSpill y.work)
    let o := (copyPart x part).1
    let len := (copyPart x part).2
    argMin (fun y => y.id) all = some r → r.work = .spill role slot part addr → all.filter (fun y => y.tray == r.tray && y.seq == r.seq && copies role slot y.work) = [r] →
    r.moved = false → hostWaits s c r.id = false → streamOf s c r role = some (n, x) → x.slots[slot]? = some ⟨.leaving, some f⟩ → physCheck s (addr + o) len true = none →
    ∃ s', exec (.spillCopyDone c) s = .next s' ∧
      (∀ j < len, Tab.get 0 s'.mem (addr + o + j) = (benchPeek s c (x.base + slot * x.slotBytes + o) len).getD j 0) ∧
      (∀ a, a < addr + o ∨ addr + o + len ≤ a → Tab.get 0 s'.mem a = Tab.get 0 s.mem a) ∧
      s'.reg (Csr.prfBytesWr c) = s.reg (Csr.prfBytesWr c) + BitVec.ofNat 64 len ∧
      ((addr + o).testBit 47 = false → ∃ x', (s'.core c).proofer.streams[n]? = some x' ∧ ⟨f, addr, x.slotBytes⟩ ∈ x'.spilled)

/-- SPILL_AREA_MOVE, SPILL_EXHAUSTED and COUCHE_OVERFLOW (R253, R401, R402): a spill request that waited out its window goes on to the next area, and is counted; at the last area its
task ends with SPILL_EXHAUSTED; a tile that waited out its window for Couche space waits for it no more, and asks for room in a spill area. -/
def Sys2Proof.Claims.SpillRequestsGoOnToTheNextArea : Prop :=
  (∀ (s : State) (c : Nat) (w : SpillWait), c < 4 → ((serveSpills s c).core c).proofer.spillWait.find? (fun w => decide (w.area < 2)) = some w →
    ∃ s', exec (.spillAreaMove c) s = .next s' ∧ StandsAt s' c { w with area := w.area + 1 } ∧
      s'.reg (if w.area = 0 then Csr.memSplToLpd c else Csr.memSplToHost c) = s.reg (if w.area = 0 then Csr.memSplToLpd c else Csr.memSplToHost c) + 1) ∧
  (∀ (s : State) (c : Nat) (w : SpillWait) (i : Inst), c < 4 → ((serveSpills s c).core c).proofer.spillWait.find? (fun w => w.area == 2) = some w → w.tray < 32 → (s.tray w.tray).queue < 64 →
    (s.tray w.tray).live = true → (serveSpills s c).inst w.tray w.seq = some i →
    ∃ s' f, exec (.spillExhausted c) s = .next s' ∧ (s'.tray w.tray).state = .drain ∧ (s'.tray w.tray).faulted = some f ∧ f.code = 0x0306 ∧ f.index = i.index ∧
      s'.reg (Csr.memSplExhausted c) = s.reg (Csr.memSplExhausted c) + 1) ∧
  (∀ (s : State) (c t k n : Nat) (rest : List (Nat × Nat × Nat)) (i : Inst), c < 4 → (s.core c).peel.coucheWait = (t, k, n) :: rest → s.inst t k = some i → i.mn ≠ .fred →
    (i.tile n).couche = none → (∀ w ∈ (s.core c).proofer.spillWait, ¬ (w.tray = t ∧ w.seq = k ∧ w.couche = true ∧ w.tile = n)) →
    ∃ s' w, exec (.coucheOverflow c) s = .next s' ∧ (s'.core c).peel.coucheWait = rest ∧ StandsAt s' c w ∧ w.tray = t ∧ w.seq = k ∧ w.area = 0 ∧
      s'.reg (Csr.peelCoucheOvf c) = s.reg (Csr.peelCoucheOvf c) + 1)

/-- TILE_GROUP_ALLOC (R237): the group at the head of the line receives all its open-tile entries once they are free, and the others move up; until then nothing changes. -/
def Sys2Proof.Claims.WaitingGroupOpensTogether : Prop :=
  ∀ (s : State) (c t k grp : Nat) (rest : List (Nat × Nat × Nat)) (i : Inst), c < 4 → (s.core c).peel.groupWait = (t, k, grp) :: rest → s.inst t k = some i →
    ∃ s', exec (.tileGroupAlloc c) s = .next s' ∧
      (groupFits s t (i.groupSize grp) = true → (s'.core c).peel.groupWait = rest ∧ ∃ i', s'.inst t k = some i' ∧ i'.tiles.length = i.tiles.length ∧
        (∀ o ∈ i'.tiles, o.group = grp → o.opened = true)) ∧
      (groupFits s t (i.groupSize grp) = false → s' = s)

/-- ARB_GRANT (R406, R407, R409, R411): an instance with a free port grants its highest-ranked head: a forced head first, then the older stamp, then the lower index. A request of one beat
leaves its queue; every head that was not granted waits one cycle more; a grant of a forced head is counted. (Sites other than the Larder's ports and the LPDDR5X controllers.) -/
def Sys2Proof.Claims.HighestRankedHeadIsGranted : Prop :=
  ∀ (s : State) (site inst : Nat) (h : Nat × Nat × Nat) (x : ArbReq), inst < arbInstances site → site ≠ 2 → site ≠ 3 →
    let a := arbOf s site inst
    a.holder = none → h ∈ a.heads → a.head h.1 = some x → x.beats ≤ 1 → a.backlog = [] →
    (∀ g ∈ a.heads, g = h ∨ headRank a.cyc (waitLimit s site) h < headRank a.cyc (waitLimit s site) g) →
    ∃ s', exec (.arbGrant site inst .none) s = .next s' ∧ (arbOf s' site inst).queue = dropFirst (fun y => y.requester == x.requester) a.queue ∧
      (∀ g ∈ a.heads, g.1 ≠ h.1 → (g.1, g.2.1, g.2.2 + 1) ∈ (arbOf s' site inst).heads) ∧ (arbOf s' site inst).holder = none ∧
      (arbOf s' site inst).cyc = (a.cyc + 1) % 4096 ∧
      s'.reg (Csr.arbForced site) = s.reg (Csr.arbForced site) + BitVec.ofNat 64 (if waitLimit s site ≤ h.2.2 then 1 else 0)

/-- ARB_GRANT at an LPDDR5X controller (R395, R397): a read that finds two flipped bits in a half of its line poisons the line, counts and logs the error. -/
def Sys2Proof.Claims.UncorrectableReadPoisonsItsLine : Prop :=
  ∀ (s : State) (ctrl : Nat) (x : ArbReq) (s1 : State), ctrl < 12 → arbCycle s 3 ctrl = (s1, some x) → x.write = false →
    ∃ s', exec (.arbGrant 3 ctrl (.line 2 0 false)) s = .next s' ∧ Tab.get false s'.poison x.line = true ∧ s'.reg (Csr.lpcEccUe ctrl) = s.reg (Csr.lpcEccUe ctrl) + 1 ∧
      (∃ e, s'.errLog.getLast? = some e ∧ e.code = 0x0901 ∧ e.addr = 128 * x.line) ∧ (∀ l, l ≠ x.line → Tab.get false s'.poison l = Tab.get false s.poison l) ∧
      (∀ a, Tab.get 0 s'.mem a = Tab.get 0 s.mem a)

/-- ARB_HEAD_FORCED (R409): the head's wait counter stands at ARB_WAIT_LIMIT or above, so that the head ranks first; no other head's counter changes. -/
def Sys2Proof.Claims.ForcedHeadReachesTheLimit : Prop :=
  ∀ (s : State) (site inst r : Nat), inst < arbInstances site →
    let a := arbOf s site inst
    a.holder = none → (∃ h ∈ a.heads, h.1 = r ∧ h.2.2 < waitLimit s site) →
    ∃ s', exec (.arbHeadForced site inst r) s = .next s' ∧ (∀ h ∈ (arbOf s' site inst).heads, h.1 = r → waitLimit s site ≤ h.2.2) ∧
      (arbOf s' site inst).heads.map (fun h => h.1) = a.heads.map (fun h => h.1) ∧ (∀ h ∈ a.heads, h.1 ≠ r → h ∈ (arbOf s' site inst).heads) ∧
      (arbOf s' site inst).queue = a.queue

/-- SCRUB_PASS_START and LPC_SPLIT_WRITE (R354, R398): a trained controller whose scrub is on begins its pass at its first data line; a split whose counts sum to 16 is taken, and any other
is ignored and sets LPC_SPLIT_BAD. -/
def Sys2Proof.Claims.ControllerScrubsAndSplits : Prop :=
  (∀ (s : State) (ctrl : Nat), ctrl < 12 → s.trained = true → s.fld (Csr.lpcScrub ctrl) 7 0 ≠ 0 → (∀ p ∈ s.scrubbing, p.1 ≠ ctrl) →
    ∃ s', exec (.scrubPassStart ctrl) s = .next s' ∧ s'.scrubbing = s.scrubbing ++ [(ctrl, 0)]) ∧
  (∀ (s : State) (ctrl : Nat) (v : Reg), ctrl < 12 →
    ∃ s', exec (.lpcSplitWrite ctrl v) s = .next s' ∧ (∀ off, off ≠ Csr.lpcSplit ctrl → s'.reg off = s.reg off) ∧
      (bf v 4 0 + bf v 12 8 + bf v 20 16 = 16 → s'.fld (Csr.lpcSplit ctrl) 4 0 = bf v 4 0 ∧ s'.fld (Csr.lpcSplit ctrl) 12 8 = bf v 12 8 ∧
        s'.fld (Csr.lpcSplit ctrl) 20 16 = bf v 20 16 ∧ s'.fld (Csr.lpcSplit ctrl) 31 31 = if bit v 31 then 0 else s.fld (Csr.lpcSplit ctrl) 31 31) ∧
      (bf v 4 0 + bf v 12 8 + bf v 20 16 ≠ 16 → s'.fld (Csr.lpcSplit ctrl) 4 0 = s.fld (Csr.lpcSplit ctrl) 4 0 ∧
        s'.fld (Csr.lpcSplit ctrl) 12 8 = s.fld (Csr.lpcSplit ctrl) 12 8 ∧ s'.fld (Csr.lpcSplit ctrl) 20 16 = s.fld (Csr.lpcSplit ctrl) 20 16 ∧
        s'.fld (Csr.lpcSplit ctrl) 31 31 = 1))

/-- LAR_CFG_WRITE and LAR_REPART_DONE (R390): while the Larder is idle a change of LAR_SCRATCH_WAYS starts a repartition to at most four ways, and while it is busy the write is ignored and
recorded; as the repartition completes the ways in use change, no line is left in them, and memory outside the scratch window is as before. -/
def Obligations.LarderIsRepartitioned : Prop :=
  (∀ (s : State) (v : Reg), s.larder.repart = none → bf v 2 0 ≠ s.fld Csr.larCfg 2 0 →
    ∃ s', exec (.larCfgWrite v) s = .next s' ∧
      (larBusy s = false → s'.fld Csr.larCfg 2 0 = bf v 2 0 ∧ s'.larder = { s.larder with repart := some (min 4 (bf v 2 0)) }) ∧
      (larBusy s = true → s'.fld Csr.larCfg 2 0 = s.fld Csr.larCfg 2 0 ∧ s'.larder = s.larder ∧ s'.reg Csr.cfgWhileBusy = s.reg Csr.cfgWhileBusy + 1 ∧
        s'.fld Csr.cfgBusyBlocks 13 13 = 1 ∧ s'.fld Csr.cfgLastRefused 31 0 = 0xF0000)) ∧
  (∀ (s : State) (w : Nat), s.larder.repart = some w →
    ∃ s', exec .larRepartDone s = .next s' ∧ s'.larder.ways = w ∧ s'.larder.repart = none ∧ (∀ p ∈ s'.larder.lines, p.1 % 16 < 16 - w) ∧
      (w ≤ s.larder.ways → ∀ a, a < scratchBase ∨ scratchBase + s.larder.ways * 0x4000000 ≤ a → Tab.get 0 s'.mem a = Tab.get 0 s.mem a))

/-- MMU_INV_GO and MMU_INV_DONE (R380): an invalidation starts, or while one runs the write is ignored and sets MMU_INV_LOST; no cache holds an entry in its scope any more, every other
entry stays, and MMU_INV_BUSY reads 0 once no request translated through such an entry is in flight. -/
def Sys2Proof.Claims.InvalidationEmptiesItsScope : Prop :=
  (∀ (s : State) (v : Reg), bit v 63 = true →
    ∃ s', exec (.mmuInvGo v) s = .next s' ∧ s'.cores = s.cores ∧ s'.mmu.cache = s.mmu.cache ∧
      (s.mmu.inv = none → bf v 57 56 ≠ 3 → s'.mmu.inv = some (bf v 57 56, bf v 53 48, bf v 47 16)) ∧
      (s.mmu.inv ≠ none → s'.mmu.inv = s.mmu.inv ∧ s'.fld Csr.mmuStatus 1 1 = 1)) ∧
  (∀ (s : State) (inv : Nat × Nat × Nat), s.mmu.inv = some inv →
    ∃ s', exec .mmuInvDone s = .next s' ∧
      ((∀ id ∈ s.mmu.invWaits, requestOf s id = none) → s'.mmu.inv = none ∧ bf (regRead s' Csr.mmuStatus) 0 0 = 0) ∧
      ((∃ id ∈ s.mmu.invWaits, requestOf s id ≠ none) → s'.mmu.inv = some inv ∧ bf (regRead s' Csr.mmuStatus) 0 0 = 1) ∧ (∀ c < 4, ∀ p ∈ (s'.core c).tcache.entries, inScope inv p.2 = false) ∧
      (∀ p ∈ s'.mmu.cache.entries, inScope inv p.2 = false) ∧
      (∀ c < 4, ∀ p ∈ (s.core c).tcache.entries, inScope inv p.2 = false → p ∈ (s'.core c).tcache.entries) ∧ s'.mmu.walks = s.mmu.walks)

namespace Sys2Proof.Claims

/-- Registers whose writes do more than store fields, or whose fields the device holds itself; they have statements of their own. -/
def ownEffect (base : Nat) : Bool :=
  [0xC0000, 0xE0200, 0xF0000, 0x110000, 0x130000, 0x130008, 0x130300, 0x200000, 0x200040, 0x200048, 0x200050, 0x200058, 0x220010, 0x10000, 0x10008, 0x10010, 0x10800, 0x50018,
   0x50020, 0x70010, 0x70058, 0x70060, 0x100000, 0x100028, 0x100030, 0x100038, 0x120000].contains base

end Sys2Proof.Claims

/-- CSR_REGISTER_WRITE (R11, R14, R16): each field of a register acts under its own access code: RW and RWS take the value written, RO and WO keep theirs, a W1C bit is cleared by a 1, and an
RWL field takes the value only while its block is idle. Where no register lies nothing changes. -/
def Obligations.FieldsActUnderTheirAccessCodes : Prop :=
  ∀ (s : State) (off : Nat) (v : Reg), ∃ s', exec (.csrRegisterWrite off v) s = .next s' ∧ (RegMap.find off = none → s' = s) ∧
    (∀ d i j, RegMap.find off = some (d, i, j) → ownEffect d.base = false → ∀ f ∈ d.fields,
      s'.fld off f.hi f.lo = match f.acc with
        | .rw | .rws => bf v f.hi f.lo
        | .ro | .wo => s.fld off f.hi f.lo
        | .w1c => nbf (s.reg off &&& ~~~v).toNat f.hi f.lo
        | .rwl => if busyNow s d.busy i then s.fld off f.hi f.lo else bf v f.hi f.lo)

/-- SYNC_BAR_BREAK (R122): every open barrier whose bit is 1 becomes free, and every tray that waited there with a task faults SYNC_BAR_BROKEN; every other barrier stays. -/
def Sys2Proof.Claims.BrokenBarriersFaultTheirTrays : Prop :=
  ∀ (s : State) (v : Reg), ∃ s', exec (.syncBarBreak v) s = .next s' ∧
    (∀ b < 16, bit v (32 + b) = true → (s'.barrier b).mask = none) ∧ (∀ b < 16, bit v (32 + b) = false → s'.barrier b = s.barrier b) ∧
    (∀ b < 16, bit v (32 + b) = true → (s.barrier b).mask.isSome = true → ∀ w ∈ (s.barrier b).waiters, w.1 < 32 → (s.tray w.1).live = true → (s.inst w.1 w.2).isSome = true →
      (s'.tray w.1).state = .drain ∧ ∃ f, (s'.tray w.1).faulted = some f ∧ f.code = 0x0109)

/-- LEV_CNT_CLR_ALL, UPD_CLR_ALL, PEEL_DBG_SNAP and ERR_INJ_ARM (R188, R261, R429, R581): every layer counter of the core is 0; every word of every monitor slot holds its reset value,
unless a PEEL.UPD is in flight; a snapshot starts, its request is held and PEEL_DBG_VALID clears; the injection's fields are stored, and it is armed for a structure that takes
injections. -/
def Sys2Proof.Claims.WriteOnceFieldsAct : Prop :=
  (∀ (s : State) (c : Nat) (v : Reg), c < 4 → bit v 0 = true →
    ∃ s', exec (.levCntClrAll c v) s = .next s' ∧ (∀ n, Tab.get 0 (s'.core c).levain.counters n = 0) ∧ (s'.core c).levain.maps = (s.core c).levain.maps ∧
      (∀ d < 4, d ≠ c → s'.core d = s.core d)) ∧
  (∀ (s : State) (c : Nat) (v : Reg), c < 4 → bit v 0 = true → (∀ i ∈ coreInsts s c, i.mn ≠ .upd) →
    ∃ s', exec (.updClrAll c v) s = .next s' ∧ (∀ n w, s'.updWord c n w = State.updReset w) ∧ (∀ d < 4, d ≠ c → s'.core d = s.core d)) ∧
  (∀ (s : State) (c : Nat) (v : Reg), c < 4 → bit v 63 = true →
    ∃ s', exec (.peelDbgSnap c v) s = .next s' ∧ (s'.core c).peel.snapPending = some v ∧ s'.fld (Csr.peelDbgStatus c) 0 0 = 0 ∧ s'.fld (Csr.peelDbgSel c) 2 0 = bf v 2 0 ∧
      s'.fld (Csr.peelDbgSel c) 20 6 = bf v 20 6) ∧
  (∀ (s : State) (v : Reg),
    ∃ s', exec (.errInjArm v) s = .next s' ∧ s'.fld Csr.errInj 3 0 = bf v 3 0 ∧ s'.fld Csr.errInj 7 6 = bf v 7 6 ∧ s'.fld Csr.errInj 8 8 = bf v 8 8 ∧
      s'.fld Csr.errInj 63 63 = (if bf v 3 0 < 14 then bf v 63 63 else 0) ∧ s'.planted = s.planted)

/-- HP_MODE_WRITE, PWR_PROFILE_WRITE and PWR_DOM_ON_WRITE (R460, R514, R526): a change of HP_MODE while the port is idle takes both links down; the profile written is in force for the next
issue; a write of PWR_DOM_ON while a tray has a task or a host or Staon access is in flight is ignored and sets PWR_DOM_REFUSED, and otherwise its bits are stored but for those of fused-off domains. -/
def Obligations.ModeProfileAndDomainsAreWritten : Prop :=
  (∀ (s : State) (v : Reg), hpBusy s = false → bf v 1 0 ≠ s.fld Csr.hpCtl 1 0 →
    ∃ s', exec (.hpModeWrite v) s = .next s' ∧ s'.fld Csr.hpCtl 1 0 = bf v 1 0 ∧ (∀ p < 2, Vec.get s'.host.up p false = false) ∧ (∀ x ∈ s'.host.paused, 2 ≤ x.1)) ∧
  (∀ (s : State) (v : Reg),
    ∃ s', exec (.pwrProfileWrite v) s = .next s' ∧ profileOf s' = (if bf v 2 0 < 5 then bf v 2 0 else 2) ∧
      (∀ d < 125, domState s d ≠ .on → domState s' d = domState s d) ∧
      (∀ d ∈ gatedDoms s', d < 125 → domState s d = .on → domIdle s d = true → heldByHost s d = false → domState s' d = .switchingOff)) ∧
  (∀ (s : State) (half : Nat) (v : Reg), half < 2 →
    ∃ s', exec (.pwrDomOnWrite half v) s = .next s' ∧
      (anyTask s = true ∨ accessInFlight s = true → s' = s.setFld Csr.pwrStatus 33 33 1) ∧
      (domOnBusy s = false → ∀ b < (if half = 0 then 64 else 61), fusedDomain s.arrayMask (64 * half + b) = false →
        s'.fld (if half = 0 then Csr.pwrDomOn0 else Csr.pwrDomOn1) b b = bf v b b))

namespace Sys2Proof.Claims

/-- No step of array `a` loads a tile that is there already (R207). -/
def NoIdleLoad (s : State) (c a : Nat) : Prop :=
  (s.array c a).queue.find? (fun x => x.kind == .loadWeights && mayStep s x &&
    (queuedKey s x).any (fun key => (residentAt s x.tray a key).isSome || (bufAt (s.array c a) key).isSome)) = none

/-- Bytes that the tile of a step takes in the load buffer. -/
def fillBytes (s : State) (x : Step) (i : Inst) : Nat :=
  tileBytes (i.desc .srcb) i.structured (loadBlock s x i).rows.length (loadBlock s x i).cols

/-- The columns of a pass's tile, padded beyond the step's extent (R311). -/
def passCols (s : State) (p : Pass) (i : Inst) : List (List El) :=
  let g := gridNow s p.step.tray i
  let d := i.desc .srcb
  (List.range (i.tile p.step.tile).cols).map (fun n => padTo d g.kt ((colOfB d (W.trans i.word) g.kt p.weights n).take (insideK g p.step.k)))

/-- A work item that is no failed check. -/
def SItem.sound : SItem → Bool
  | .bad _ _ => false
  | _ => true

end Sys2Proof.Claims

/-- WEIGHT_FILL_DONE, WEIGHT_LAUNCH and ARRAY_GROUP_INJECT (R195, R196, R200, R201, R202, R215): the next weight tile enters the load buffer when it has room, and MXA_WLOADS advances; the oldest
tile that can launches one more cube row; a pass injects the group at the head of its feeder queues when older groups leave it the cycle's outputs: its sums arrive at the array's port of
the Peel, MXA_GROUPS advances, and the queues fill again, to 32 groups at most; after its last group the pass is over. Where reading a further group fails, the task has ended instead. -/
def Obligations.ArraysFillLaunchAndInject : Prop :=
  (∀ (s s1 : State) (c a : Nat) (x : Step) (i : Inst) (key : WKey) (rows : List (List El)), c < 4 → a < 2 → arrayEnabled s c a = true → arrayPowered s c a = true →
    NoIdleLoad s c a → (s.array c a).queue.find? (needsFill s c a) = some x → s.inst x.tray x.seq = some i → queuedKey s x = some key → x.kind ≠ .loadWeights →
    bufUsed (s.array c a) + fillBytes s x i ≤ 524288 → blockOfB s x.tray i (loadBlock s x i) ⟨x.tile, x.k⟩ = (s1, .ok rows) →
    ∃ s' w, exec (.weightFillDone c a) s = .next s' ∧ (s'.array c a).buf.getLast? = some w ∧ w.key = key ∧ w.rows = rows ∧ w.launched = 0 ∧ w.swapped = false ∧
      s'.reg (Csr.mxaWloads c a) = s1.reg (Csr.mxaWloads c a) + 1 ∧ (∀ b, Tab.get 0 s'.mem b = Tab.get 0 s.mem b)) ∧
  (∀ (s : State) (c a n : Nat) (w : WTile), c < 4 → a < 2 → arrayEnabled s c a = true → arrayPowered s c a = true → s.stop = none →
    launchable (s.array c a) n = some w → (∀ m < n, launchable (s.array c a) m = none) →
    ∃ s', exec (.weightLaunch c a) s = .next s' ∧
      (w.swapped = false → (s'.array c a).buf[n]? = some { w with launched := w.launched + 1 } ∧ ∀ m, m ≠ n → (s'.array c a).buf[m]? = (s.array c a).buf[m]?) ∧
      (w.swapped = true → cubeRows w.key.pack ≤ w.launched + 1 → (s'.array c a).buf = (s.array c a).buf.eraseIdx n)) ∧
  (∀ (s : State) (c a u : Nat) (holes : InjectHoles) (p : Pass) (i : Inst) (group : RowGroup) (rest : List RowGroup) (l : List (Nat × Nat)), c < 4 → a < 2 → u < 16 →
    arrayEnabled s c a = true → arrayPowered s c a = true → s.stop = none → mayIssue s true = true → (s.port c a).length < 48 →
    Vec.get (s.array c a).pass u none = some p → p.feed = group :: rest → group.rows ≠ [] → s.inst p.step.tray p.step.seq = some i → W.satTrap i.word = false →
    injectRound s (s.array c a) u (p.width * faceOf (s.array c a).pack) p.since = some l → coreOf p.step.tray = c →
    ∃ s', exec (.arrayGroupInject c a u holes) s = .next s' ∧ s'.reg (Csr.mxaGroups c a) = s.reg (Csr.mxaGroups c a) + 1 ∧
      (mayRun s' p.step.tray = true → ∃ r, (s'.port c a).getLast? = some r ∧ r.tray = p.step.tray ∧ r.seq = p.step.seq ∧ r.tile = p.step.tile ∧ r.row = p.next * p.width ∧
        r.rows = (groupSums i (passCols s p i) (insideK (gridNow s p.step.tray i) p.step.k) group.rows).1 ∧ r.fromSieve = false) ∧
      (p.groups ≤ p.next + 1 → Vec.get (s'.array c a).pass u none = none) ∧
      (p.next + 1 < p.groups → mayRun s' p.step.tray = true → ∃ q, Vec.get (s'.array c a).pass u none = some q ∧ q.step = p.step ∧ q.next = p.next + 1 ∧ rest <+: q.feed ∧
        (rest.length ≤ 32 → q.feed.length ≤ 32)))

/-- PLANE_READY, SIEVE_STEP_CURRENT and GROUP_TAKE_WORK (R138, R145, R146): the plane of the first queued step that lacks one is built, in two plane slots for 16-bit values and else in one;
the oldest ready step becomes current in its tile's accumulator slot; a group near the end of its work takes the next item's cycles, after the cycles of the Sieve that the command
lets pass, and with the last item the step is over. -/
def Sys2Proof.Claims.SieveTakesItsWork : Prop :=
  (∀ (s s1 : State) (c : Nat) (x : Step) (i : Inst) (key : PlaneKey) (rows : List (List El)), c < 4 → sieveRuns s c .scatter = true → (sieve s c).queue.find? (lacksPlane s c) = some x →
    s.inst x.tray x.seq = some i → x.plane = some key →
    let need := if (i.desc .srcb).fm.bits = 16 then 2 else 1
    (sieve s c).planes.foldl (fun a p => a + p.slots) 0 + need ≤ 32 →
    blockOfB s x.tray i (blockB i.word (gridNow s x.tray i) (maskSel s x.tray i) (i.tile x.tile).n x.k) ⟨x.tile, x.k⟩ = (s1, .ok rows) →
    ∃ s' p, exec (.planeReady c) s = .next s' ∧ (sieve s' c).planes.getLast? = some p ∧ p.key = key ∧ p.slots = need ∧ p.rows.length = key.cols ∧
      (∀ b, Tab.get 0 s'.mem b = Tab.get 0 s.mem b)) ∧
  (∀ (s s1 s2 : State) (c j : Nat) (x : Step) (i : Inst) (pl : Plane) (rows : List (Except Nat (List El))) (seen : Nat) (l : List El), c < 4 → coreOf x.tray = c →
    (sieve s c).cur = none → nextSieveStep s c = some x → sieveRuns s c x.kind = true → s.inst x.tray x.seq = some i → x.kind.product = true →
    takeSlot s c x i = some (s1, j) → planeOf (sieve s c) x = some pl →
    let s0 := (s1.modSieve c (fun v => { v with queue := v.queue.filter (fun z => z.ord != x.ord), lastTray := x.tray })).tick
    sieveRows s0 x.tray i (gridNow s0 x.tray i) (maskSel s0 x.tray i) ⟨x.tile, x.k⟩ (List.range (rowsOfStep i (gridNow s0 x.tray i) x.tile)) = (s2, .ok (rows, seen)) →
    s2.planted = [] → .ok l ∈ rows → l.any El.stored = true →
    ∃ s' y, exec (.sieveStepCurrent c) s = .next s' ∧ (sieve s' c).cur = some y ∧ y.slot = j ∧ y.step.tray = x.tray ∧ y.step.seq = x.seq ∧ y.step.tile = x.tile ∧
      y.step.k = x.k ∧ y.items ≠ [] ∧ (sieve s' c).queue = (sieve s2 c).queue) ∧
  (∀ (s0 : State) (c group wait : Nat) (x : SieveCur) (i : Inst) (a : AccSlot) (pl : Plane) (it : SItem) (rest : List SItem), c < 4 → group < 512 →
    groupNears group (sieve s0 c) = true →
    let s := sieveUntil c (fun _ => false) wait s0
    (sieve s c).cur = some x → groupNears group (sieve s c) = true → sieveRuns s c .scatter = true → Runs s x.step.tray → coreOf x.step.tray = c → x.items = it :: rest →
    SItem.sound it = true → s.inst x.step.tray x.step.seq = some i → Vec.get (sieve s c).slots x.slot none = some a → planeOf (sieve s c) x.step = some pl →
    let work := itemCycles a.path (i.desc .srca) (i.desc .srcb) x.step a.comp x.slot x.aRows pl.rows it
    ∃ s', exec (.groupTakeWork c group wait) s0 = .next s' ∧ (sieve s' c).cur = (if rest = [] then none else some { x with items := rest }) ∧
      (mayRun s' x.step.tray = true → (sieve s' c).groups = (giveWork group work (sieve s c)).groups) ∧
      (rest ≠ [] → ∀ b, Tab.get 0 s'.mem b = Tab.get 0 s.mem b))

/-- SLOT_CLOSE, SLOT_DRAIN and SIEVE_SLOT_SPILL (R147, R151, R153): a slot whose tile has had its last product closes, behind those that closed before; in a cycle of the lanes four rows of
the first closed slot go to port 2 and are cleared, and the slot is free after its last; when the oldest ready step finds no slot, the open slot whose last step is oldest spills, and
is counted. -/
def Sys2Proof.Claims.SlotsCloseDrainAndSpill : Prop :=
  (∀ (s : State) (c slot : Nat) (a : AccSlot), c < 4 → slot < 16 → Vec.get (sieve s c).slots slot none = some a → a.closed = false → slotQuiet slot (sieve s c) = true →
    slotEnded s c a = true → Runs s a.tray →
    ∃ s', exec (.slotClose c slot) s = .next s' ∧ Vec.get (sieve s' c).slots slot none = some { a with closed := true } ∧ (sieve s' c).closed = (sieve s c).closed ++ [slot] ∧
      (∀ k < 16, k ≠ slot → Vec.get (sieve s' c).slots k none = Vec.get (sieve s c).slots k none)) ∧
  (∀ (s : State) (c j : Nat) (rest : List Nat) (a : AccSlot), c < 4 →
    let s1 := sieveCycle c (drainLanes s c) s
    (sieve s1 c).closed = j :: rest → Vec.get (sieve s1 c).slots j none = some a → allOn s1 [coreDom c 4] = true → Runs s1 a.tray → (s1.port c 2).length < 48 →
    ∃ s' r, exec (.slotDrain c) s = .next s' ∧ s'.port c 2 = s1.port c 2 ++ [r] ∧ r.tray = a.tray ∧ r.seq = a.seq ∧ r.tile = a.tile ∧ r.row = a.drained ∧
      r.rows = (a.rows.drop a.drained).take 4 ∧ r.fromSieve = true ∧
      Vec.get (sieve s' c).slots j none =
        (if a.rows.length ≤ a.drained + 4 then none else some { a with drained := a.drained + 4, rows := drainSlot.clearRows a.drained a.rows }) ∧
      (sieve s' c).closed = (if a.rows.length ≤ a.drained + 4 then rest else j :: rest)) ∧
  (∀ (s : State) (c j : Nat) (x : Step) (i : Inst) (a : AccSlot), c < 4 → nextSieveStep s c = some x → s.inst x.tray x.seq = some i → (sieve s c).cur = none →
    x.kind.product = true → slotOf (sieve s c) x.tray x.seq x.tile = none → freeSlot (sieve s c) (W.comp i.word) = none → spillVictim s c = some (j, a) →
    slotQuiet j (sieve s c) = true →
    ∃ s', exec (.sieveSlotSpill c) s = .next s' ∧ (sieve s' c).closed = (sieve s c).closed ++ [j] ∧ Vec.get (sieve s' c).slots j none = some { a with closed := true } ∧
      s'.reg (Csr.sveSpillBreaks c) = s.reg (Csr.sveSpillBreaks c) + 1)

/-- LEV_BITMAP_TAKE and LEVAIN_STEP_START (R170, R185, R186): the first step of a LEV.PRED takes a free bitmap; a step that is not the last adds the neurons that its row predicts active. -/
def Sys2Proof.Claims.PredictionsGatherRowByRow : Prop :=
  (∀ (s : State) (c : Nat) (x : Step) (i : Inst) (s1 : State) (scores : List F32), c < 4 → s.stop = none → allOn s (engDoms c .levain .predict) = true → mayIssue s false = true →
    argMin (stepOrder (s.core c).levain.lastTray) ((s.core c).levain.queue.filter (levainReady s c)) = some x → coreOf x.tray = c → s.inst x.tray x.seq = some i →
    s.planted = [] → x.k + 1 < i.lev.rows →
    let s0 := if (predMap s x.tray x.seq).isSome then s else takeBitmap s x.tray i
    rowScores s0 x.tray i x.k = (s1, .ok scores) → (s1.core c).levain = (s0.core c).levain →
    let after := fun (s' : State) => ∃ i', s'.inst x.tray x.seq = some i' ∧ i'.lev.row = x.k + 1 ∧
      i'.lev.pred = i.lev.pred ||| predictedBy (BitVec.ofNat 32 (bf i.word 183 152)) scores ∧ (s'.core c).levain.queue = (s.core c).levain.queue.filter (fun z => z.ord != x.ord)
    (∃ s', exec (.levainStepStart c) s = .next s' ∧ after s') ∧
    (predMap s x.tray x.seq = none → ∃ s' m, exec (.levBitmapTake c) s = .next s' ∧ after s' ∧ predMap s' x.tray x.seq = some m ∧ m.layer = bf i.word 151 144 ∧
      m.neurons = W.m i.word ∧ m.ready = false ∧ (s'.core c).levain.maps.length = (s.core c).levain.maps.length + 1))

/-- VECTOR_STEP_START (R267, R282): the oldest ready step runs: a VXP.LDP's program, once its words have passed their checks, stands in the tray's program slot and the instruction is done;
a row block of another instruction leaves the queue, and the memory it leaves is that of its own commit. -/
def Sys2Proof.Claims.VectorStepsRun : Prop :=
  ∀ (s : State) (c : Nat) (x : Step) (i : Inst), c < 4 → s.stop = none → allOn s (engDoms c .vector .vector) = true → mayIssue s false = true →
    argMin (stepOrder (s.core c).vec.lastTray) ((s.core c).vec.queue.filter (vectorReady s c)) = some x → coreOf x.tray = c → s.inst x.tray x.seq = some i →
    (x.kind = .loadProgram → (∀ j ∈ (s.tray x.tray).insts, j.mn = .run → j.seq ≤ x.seq) → ∀ (s1 s2 : State) (ws : List Reg) (es : List F32), ldpWords s x i = (s1, .ok ws) → programOk ws = true → ldpTable s1 x i = (s2, .ok es) →
      ∃ s' i', exec (.vectorStepStart c) s = .next s' ∧ Tab.get [] (s'.core c).vec.programs (16 * (x.tray % 8) + W.prog i.word) = ws ∧ s'.inst x.tray x.seq = some i' ∧
        i'.done = true ∧ (∀ b, Tab.get 0 s'.mem b = Tab.get 0 s.mem b)) ∧
    (x.kind = .vector → i.mn ≠ .red → ∀ (s1 s2 s3 : State) (j : Inst) (rows : List RowOut) (parts : List (Nat × BlockOut)), withBcast s x i = (s1, .ok j) → s1.planted = [] →
      mayRun s1 x.tray = true → vectorRows s1 x j (blockRows (W.m j.word) x.k) = (s2, .ok rows) → cellTiles s2 x j rows (rowTiles j x.k) = (s3, .ok parts) →
      ∃ s', exec (.vectorStepStart c) s = .next s' ∧ (∀ z ∈ (s'.core c).vec.queue, z.ord ≠ x.ord) ∧
        s'.mem = (outRow (countLive (countLanes s3 x j rows) x (rowTiles j x.k) j rows) x.tray x.seq x.k parts).mem)

/-- PEEL_ARRIVAL, UPDATE_BLOCK_COMMIT and PEEL_DBG_SNAP_DONE (R225, R248, R261, R425): the first pass to reach a row sets its partial sums, and the arrival leaves its port; the oldest block of a
PEEL.UPD whose operands are there commits, and adds to the running values of its instruction; a snapshot completes: of a slot that its tray holds it shows the entries, and of no
block a miss. -/
def Obligations.PeelTakesArrivalsBlocksAndSnapshots : Prop :=
  (∀ (s : State) (c port row : Nat) (a : Arrival) (rest : List Arrival) (i : Inst) (vals : List (Nat × Nat)), c < 4 → port < 3 → s.port c port = a :: rest →
    s.inst a.tray a.seq = some i → Runs s a.tray → coreOf a.tray = c → s.planted = [] → W.satTrap i.word = false → a.tile < i.tiles.length →
    let o := i.tile a.tile
    arrivalRows o a = [(row, vals)] → o.finals = [] → freshRow (s.tray a.tray).snap.coucheIvl (o.counts.getD row 0) = true → finalRow o (o.counts.getD row 0) = false →
    spillRow (s.tray a.tray).snap.coucheIvl o (o.counts.getD row 0) = false → row < o.counts.length →
    ∃ s' i', exec (.peelArrival c port) s = .next s' ∧ s'.port c port = rest ∧ s'.inst a.tray a.seq = some i' ∧ (i'.tile a.tile).counts.getD row 0 = o.counts.getD row 0 + 1 ∧
      s'.mem = (writePartial s c i (gridNow s a.tray i) a.tile row vals).mem ∧ s'.reg (Csr.peelPassAdds c) = s.reg (Csr.peelPassAdds c) + 1) ∧
  (∀ (s s1 : State) (t : Nat) (i : Inst), t < 32 → Runs s t → s.planted = [] → (s.tray t).insts.find? (fun i => i.mn == .upd && !i.upd.held.isEmpty) = some i →
    s.inst t i.seq = some i → W.satTrap i.word = false →
    let els := updBlock i (s.tray t).snap.srSeed i.upd.next (i.upd.held.headD [])
    let outs : List (Role × Nat) := [(.w, 0), (.m1, 1)] ++ (if bf i.word 218 216 = 1 then [(.m2, 2)] else [])
    commitMixed s (coreOf t) (spaceOf s t) (outs.flatMap (fun p => updWrites (i.desc p.1) (1024 * i.upd.next) (els.map (fun e => e.out.map (fun q => q.1.getD p.2 0))))) = (s1, .ok ()) →
    ∃ s' i', exec (.updateBlockCommit t) s = .next s' ∧ s'.inst t i.seq = some i' ∧ i'.upd = updAfter i.upd els ∧ s'.mem = s1.mem ∧
      (updBlocks i ≤ i.upd.next + 1 → i'.done = true)) ∧
  (∀ (s : State) (c : Nat) (v : Reg), c < 4 → (s.core c).peel.snapPending = some v →
    let row0 := 32 * bf v 5 3
    let col0 := 32 * bf v 2 0
    (bf v 25 24 = 1 → ∀ a, slotNumbered s c (bf v 20 6) = some a → a.tray = 8 * c + bf v 23 21 →
      ∃ s', exec (.peelDbgSnapDone c) s = .next s' ∧ (s'.core c).peel.snapPending = none ∧ s'.fld (Csr.peelDbgStatus c) 1 0 = 1 ∧
        s'.fld (Csr.peelDbgStatus c) 3 2 = (if a.path != .float then 0 else if a.comp then 3 else 1) ∧
        (∀ j < 1024, Tab.get 0 (s'.core c).peel.window j = BitVec.ofNat 32 ((a.rows.getD (row0 + j / 32) []).getD (col0 + j % 32) (0, 0)).1)) ∧
    (bf v 25 24 = 3 → ∃ s', exec (.peelDbgSnapDone c) s = .next s' ∧ (s'.core c).peel.snapPending = none ∧ s'.reg (Csr.peelDbgStatus c) = 3 ∧ (s'.core c).peel.window = []))

namespace Sys2Proof.Claims

/-- No error injection waits for the host port's receive buffers (R577, R581). -/
def RxSound (s : State) : Prop := bit (s.reg Csr.errInj) 63 = false ∨ bf (s.reg Csr.errInj) 3 0 ≠ 12

/-- A transport command arrives by UDP on a link that is up. -/
structure ByUdp (s : State) (m : CctMsg) (port prio : Nat) : Prop where
  unit : m.queue < 64
  source : ∃ sender, m.src = .udp port prio sender
  up : s.host.enabled = true ∧ Vec.get s.host.up port false = true
  buffer : RxSound s

/-- A command passes every check of R442 and has the number that its queue expects, and neither a module stop nor a removal is under way. -/
structure Accepted (o : CctOp) (m : CctMsg) (s : State) : Prop where
  kept : cctDropped s m = false
  version : m.ver = 1
  form : m.rsvd = false ∧ o.fits m = true
  number : if o.sequenced then m.seq = seqExp s m.queue ∧ m.seq ≠ 0 else m.seq = 0
  permitted : o.permitted s m.queue = 0
  calm : s.stop = none ∧ s.hearth.removal = .none

/-- The state in which an accepted command acts: its frame is counted, and its queue expects the next number if it is sequenced (R443, R464). -/
def accepting (o : CctOp) (m : CctMsg) (s : State) : State :=
  if o.sequenced then seqAdvance (s.count Csr.hpRxFrames 1) m.queue else s.count Csr.hpRxFrames 1

/-- The command of an OP (R441). -/
def cctCommandOf (op : Nat) (m : CctMsg) : Option Instr :=
  match op with
  | 1 => some (.doorbell m) | 2 => some (.batchMember m) | 3 => some (.resume m) | 4 => some (.abort m) | 5 => some (.queueRestart m) | 6 => some (.ringAck m)
  | 7 => some (.csrRead m) | 8 => some (.csrWrite m) | 9 => some (.quickCall m) | 10 => some (.caps m) | _ => none

/-- What the transport knows of an OP. -/
def cctOpOf (op : Nat) : CctOp :=
  match op with
  | 1 => opDoorbell | 2 => opBatchMember | 3 => opResume | 4 => opAbort | 5 => opQueueRestart | 6 => opRingAck
  | 7 => opCsrRead | 8 => opCsrWrite | 9 => opQuickCall | _ => opCaps

/-- A request arrives on a queue pair that takes it, unmarked, and no injection waits for it. -/
def RequestArrives (s : State) (r : RoceReq) : Prop := qpTakes s r.qp = true ∧ r.ce = false ∧ RxSound s ∧ s.host.paused = []

/-- The state in which a request of so many bytes acts: its frames are counted (R464). -/
def counting (s : State) (q bytes : Nat) : State := s.count Csr.hpRxFrames (max 1 (cdiv bytes (qpMtu s q)))

end Sys2Proof.Claims

/-- Every OP of the transport (R442 to R445): a command that fails the checks of length, queue or key is dropped and counted without an answer; one of another version, and one that is a
duplicate or out of sequence, leaves its queue as it was; a rejected one is counted and answered with its status, and a duplicate is answered when it asks to be. -/
def Obligations.TransportCommandsAreChecked : Prop :=
  ∀ (op : Nat) (m : CctMsg) (c : Instr) (s : State) (port prio : Nat), cctCommandOf op m = some c → ByUdp s m port prio → s.host.paused = [] →
    let s0 := s.count Csr.hpRxFrames 1
    (cctDropped s m = true → exec c s = .next (s0.count Csr.hpCctDrops 1)) ∧
    (cctDropped s m = false → m.ver ≠ 1 →
      exec c s = .next ((s0.count Csr.hpCctRejects 1).sendHost (.response m.src m.queue op 3 (seqExp s m.queue) []))) ∧
    (cctDropped s m = false → m.ver = 1 → m.rsvd = false → (cctOpOf op).fits m = true → (cctOpOf op).sequenced = true → m.seq ≠ 0 →
      (seqStatus (seqExp s m.queue) m.seq = 2 →
        exec c s = .next ((s0.count Csr.hpCctRejects 1).sendHost (.response m.src m.queue op 2 (seqExp s m.queue) []))) ∧
      (seqStatus (seqExp s m.queue) m.seq = 1 → (cctOpOf op).answers = false →
        exec c s = .next (if m.ackreq then s0.sendHost (.response m.src m.queue op 1 (seqExp s m.queue) []) else s0)))

/-- DOORBELL, BATCH_MEMBER, QUICK_CALL and BAT_TIMER_EXPIRE (R20, R325, R327, R443, R446, R455): an accepted one queues its stream, opens its queue's batch, or queues its call with its
operands; a member that the ring does not hold is counted and discarded; at the timer an open batch closes and waits for a tray. -/
def Obligations.AcceptedWorkWaitsForATray : Prop :=
  (∀ (m : CctMsg) (s : State) (port prio : Nat), ByUdp s m port prio → Accepted opDoorbell m s → s.fld (Csr.hqCfg m.queue) 31 0 ≠ 0 → (s.hq m.queue).waiting.length < 256 →
    ∃ s' w, exec (.doorbell m) s = .next s' ∧ (s'.hq m.queue).waiting = (s.hq m.queue).waiting ++ [w] ∧ w.stream = payBits m 47 0 ∧ w.dtab = payBits m 111 64 ∧ w.kind = .doorbell ∧
      seqExp s' m.queue = (if m.seq = 0xFFFFFFFF then 1 else m.seq + 1) ∧ s'.trays = s.trays) ∧
  (∀ (m : CctMsg) (s : State) (port prio : Nat), ByUdp s m port prio → Accepted opBatchMember m s → s.fld (Csr.hqCfg m.queue) 31 0 ≠ 0 →
    let first := payBits m 31 0
    let rows := payBits m 63 32
    let ctl := s.reg (Csr.batCtl m.queue)
    (rows = 0 ∨ s.fld (Csr.batCtl m.queue) 63 32 < first + rows →
      ∃ s', exec (.batchMember m) s = .next s' ∧ s'.reg (Csr.batRejects m.queue) = s.reg (Csr.batRejects m.queue) + 1 ∧ (s'.hq m.queue) = s.hq m.queue) ∧
    (0 < rows → first + rows ≤ s.fld (Csr.batCtl m.queue) 63 32 → (s.hq m.queue).batch = none → rows < bf ctl 15 8 → bf ctl 6 0 ≠ 1 → bf ctl 31 16 ≠ 0 →
      ∃ s', exec (.batchMember m) s = .next s' ∧ (s'.hq m.queue).batch = some ⟨first, rows, [⟨first, rows, payBits m 79 64⟩]⟩ ∧
        (s'.hq m.queue).waiting = (s.hq m.queue).waiting)) ∧
  (∀ (m : CctMsg) (s : State) (port prio : Nat), ByUdp s m port prio → Accepted opQuickCall m s → s.fld (Csr.hqCfg m.queue) 31 0 ≠ 0 → (s.hq m.queue).waiting.length < 256 →
    payBits m 45 32 ≤ 8192 →
    ∃ s' w, exec (.quickCall m) s = .next s' ∧ (s'.hq m.queue).waiting = (s.hq m.queue).waiting ++ [w] ∧ w.stream = s.fld (Csr.hqQcStream m.queue) 47 0 ∧
      w.dtab = s.fld (Csr.hqQcDtab m.queue) 47 0 ∧ w.kind = .quick (payBits m 31 0) m.src (m.payload.drop 8) ∧ s'.hostTx = s.hostTx) ∧
  (∀ (s : State) (q : Nat) (b : Batch), q < 64 → (s.hq q).batch = some b →
    ∃ s' w, exec (.batTimerExpire q) s = .next s' ∧ (s'.hq q).batch = none ∧ (s'.hq q).waiting = (s.hq q).waiting ++ [w] ∧ w.stream = s.fld (Csr.batStream q) 47 0 ∧
      w.dtab = s.fld (Csr.batDtab q) 47 0 ∧ w.kind = .batch b.members ∧ s'.reg (Csr.batCloseTime q) = s.reg (Csr.batCloseTime q) + 1)

/-- RESUME, ABORT, QUEUE_RESTART, RING_ACK, CSR_READ, CSR_WRITE and CAPS (R88, R361, R447, R448, R449, R450, R453), accepted: a paused tray whose cursor has no work left goes on; a paused
tray's task ends with TASK_ABORTED at its instruction; the queue's dispatch restarts; the consumer index takes a value that the producer has reached; registers are read, or written, in
ascending order; the capabilities are answered. -/
def Obligations.AcceptedControlsAct : Prop :=
  (∀ (m : CctMsg) (s : State) (port prio : Nat), ByUdp s m port prio → Accepted opResume m s → payBits m 7 0 < 32 → pausedFor s (payBits m 7 0) m.queue = true →
    (∀ i ∈ (s.tray (payBits m 7 0)).insts, i.released = true ∧ i.done = true ∧ i.mn ≠ .pred) →
    ∃ s', exec (.resume m) s = .next s' ∧ (s'.tray (payBits m 7 0)).insts = (s.tray (payBits m 7 0)).insts ∧ (s'.tray (payBits m 7 0)).pc = (s.tray (payBits m 7 0)).pc ∧
      (s'.tray (payBits m 7 0)).state = (if (s.tray (payBits m 7 0)).ending then .ending else .run)) ∧
  (∀ (m : CctMsg) (s : State) (port prio : Nat), ByUdp s m port prio → Accepted opAbort m s → payBits m 7 0 < 32 → pausedFor s (payBits m 7 0) m.queue = true →
    ∃ s' f, exec (.abort m) s = .next s' ∧ (s'.tray (payBits m 7 0)).state = .drain ∧ (s'.tray (payBits m 7 0)).faulted = some f ∧ f.code = 0x0701 ∧ f.kind = 2 ∧
      f.index = (s.tray (payBits m 7 0)).tryInstr ∧ s'.fld (Csr.hqState m.queue) 23 23 = 1) ∧
  (∀ (m : CctMsg) (s : State) (port prio : Nat), ByUdp s m port prio → Accepted opQueueRestart m s →
    ∃ s', exec (.queueRestart m) s = .next s' ∧ s'.fld (Csr.hqState m.queue) 23 23 = 0 ∧ (s'.hq m.queue).waiting = (s.hq m.queue).waiting ∧ s'.trays = s.trays) ∧
  (∀ (m : CctMsg) (s : State) (port prio : Nat), ByUdp s m port prio → Accepted opRingAck m s →
    let pi := s.fld (Csr.hqIndex m.queue) 31 0
    let ci := s.fld (Csr.hqIndex m.queue) 63 32
    (payBits m 31 0 + 2 ^ 32 - ci) % 2 ^ 32 ≤ (pi + 2 ^ 32 - ci) % 2 ^ 32 →
    ∃ s', exec (.ringAck m) s = .next s' ∧ s'.fld (Csr.hqIndex m.queue) 63 32 = payBits m 31 0 ∧ s'.fld (Csr.hqIndex m.queue) 31 0 = pi) ∧
  (∀ (m : CctMsg) (s : State) (port prio : Nat), ByUdp s m port prio → Accepted opCsrRead m s → csrInside m = true → payBits m 34 32 = 0 → s.host.paused = [] →
    ∃ s', exec (.csrRead m) s = .next s' ∧
      s'.hostTx = s.hostTx ++ [.response m.src m.queue 7 0 (seqExp s' m.queue) [regRead (accepting opCsrRead m s) (payBits m 31 0)]] ∧ s'.mem = s.mem) ∧
  (∀ (m : CctMsg) (s : State) (port prio : Nat), ByUdp s m port prio → Accepted opCsrWrite m s → csrInside m = true → m.ackreq = false →
    exec (.csrWrite m) s = .next ((csrWords m).foldl (fun s' p => regWrite s' p.1 p.2) (accepting opCsrWrite m s))) ∧
  (∀ (m : CctMsg) (s : State) (port prio : Nat), ByUdp s m port prio → Accepted opCaps m s → s.host.paused = [] →
    ∃ s', exec (.caps m) s = .next s' ∧ s'.regs = (s.count Csr.hpRxFrames 1).regs ∧
      s'.hostTx = s.hostTx ++ [.response m.src m.queue 10 0 (seqExp s m.queue) [regRead s Csr.devCap, regRead s Csr.isaCap, 1]])

/-- RDMA_WRITE, RDMA_READ_REQUEST, SEND and INVALID_REQUEST_OPCODE (R436, R437): with the context's R_Key a WRITE's bytes are written whole and acknowledged, and a READ is answered with the bytes
read; with another key, or where the translation or the memory refuses, nothing is written, and the NAK is Remote Access Error; a SEND is acknowledged and its command processed; any other
request opcode gets the NAK Invalid Request. -/
def Obligations.HostRequestsAreServed : Prop :=
  (∀ (s : State) (r : RoceReq), RequestArrives s r →
    let s0 := counting s r.qp r.data.length
    (keyOk s r = true → ∀ s1, writeThrough (finishRepart s0) 4 (qpSpace s r.qp) r.va r.data = (s1, .ok ()) → exec (.rdmaWrite r) s = .next (sendQp s1 r.qp (.ack r.qp))) ∧
    (keyOk s r = false → exec (.rdmaWrite r) s = .next (s0.sendHost (.nakAccess r.qp)))) ∧
  (∀ (s : State) (r : RoceReq), RequestArrives s r →
    let s0 := counting s r.qp 0
    (keyOk s r = true → ∀ s1 bs, readV (finishRepart s0) 4 (qpSpace s r.qp) r.va r.len = (s1, .ok bs) →
      exec (.rdmaReadRequest r) s = .next (sendQp s1 r.qp (.readData r.qp bs))) ∧
    (keyOk s r = true → ∀ s1 e, readV (finishRepart s0) 4 (qpSpace s r.qp) r.va r.len = (s1, .error e) →
      exec (.rdmaReadRequest r) s = .next (sendQp (s1.count Csr.mmuRefused 1) r.qp (.nakAccess r.qp))) ∧
    (keyOk s r = false → exec (.rdmaReadRequest r) s = .next (s0.sendHost (.nakAccess r.qp)))) ∧
  (∀ (s : State) (r : RoceReq) (op : Nat) (m : CctMsg), RequestArrives s r → m.queue < 64 →
    exec (.send r op m) s = .next (cctByOp op { m with src := .send r.qp } ((counting s r.qp (m.frameLen + 16)).sendHost (.ack r.qp)))) ∧
  (∀ (s : State) (r : RoceReq), RequestArrives s r → exec (.invalidRequestOpcode r) s = .next ((counting s r.qp r.data.length).sendHost (.nakInvalid r.qp)))

/-- RDMA_READ_RESPONSE, ACKNOWLEDGE, TRANSPORT_TIMEOUT, CNP and RATE_INCREASE_TIMER (R382, R438, R439): a response brings the oldest outstanding READ's bytes and ends it; an acknowledgement ends
the oldest WRITE, and a NAK puts the pair into the error state; the oldest request is sent again at most seven times; a CNP halves the rate, at most once in 50 µs and no lower than
1 Gbit/s; the timer adds 8 Gbit/s up to the port's rate. -/
def Obligations.QueuePairsKeepTheirRequests : Prop :=
  (∀ (s : State) (q : Nat) (x : HostReq) (data : List Byte), qpTakes s q = true → (qpOf s q).reqs.find? (fun y => !y.write) = some x → data.length = x.len →
    ∃ s', exec (.rdmaReadResponse q data) s = .next s' ∧ (qpOf s' q).reqs = dropFirst (fun y => y.write == false) (qpOf s q).reqs ∧
      (∀ j < x.len, Tab.get 0 s'.mem (2 ^ 47 + x.off + j) = data.getD j 0) ∧
      (∀ a, a < 2 ^ 47 + x.off ∨ 2 ^ 47 + x.off + x.len ≤ a → Tab.get 0 s'.mem a = Tab.get 0 s.mem a)) ∧
  (∀ (s : State) (q : Nat) (nak : Bool), qpTakes s q = true →
    ∃ s', exec (.acknowledge q nak) s = .next s' ∧
      (nak = false → (qpOf s' q).reqs = dropFirst (fun y => y.write == true) (qpOf s q).reqs ∧ s'.trays = s.trays) ∧ (nak = true → qpState s' q = 2)) ∧
  (∀ (s : State) (q : Nat) (x : HostReq) (rest : List HostReq), q < 1024 → qpState s q = 1 → (qpOf s q).reqs = x :: rest →
    ∃ s', exec (.transportTimeout q) s = .next s' ∧ (x.tries < 7 → (qpOf s' q).reqs = { x with tries := x.tries + 1 } :: rest ∧ qpState s' q = 1) ∧
      (7 ≤ x.tries → qpState s' q = 2)) ∧
  (∀ (s : State) (q : Nat), qpTakes s q = true →
    ∃ s', exec (.cnp q) s = .next s' ∧ s'.reg Csr.hpCnpRx = s.reg Csr.hpCnpRx + 1 ∧
      (∀ t, (qpOf s q).lastCut = some t → s.now < t + 60000 → s'.fld (Csr.qpRate q) 31 0 = s.fld (Csr.qpRate q) 31 0) ∧
      ((∀ t, (qpOf s q).lastCut = some t → t + 60000 ≤ s.now) → s'.fld (Csr.qpRate q) 31 0 = max 1000 (s.fld (Csr.qpRate q) 31 0 / 2))) ∧
  (∀ (s : State) (q : Nat), q < 1024 → qpState s q = 1 →
    ∃ s', exec (.rateIncreaseTimer q) s = .next s' ∧ s'.fld (Csr.qpRate q) 31 0 = min (portRate s) (s.fld (Csr.qpRate q) 31 0 + 8000) ∧
      (∀ off, off ≠ Csr.qpRate q → s'.reg off = s.reg off))

/-- PFC_FRAME, PFC_PAUSE_EXPIRE, HOST_LINK_UP, HOST_LINK_DOWN and RECEIVED_FRAME_DROP (R430, R432, R433, R435): a priority under PFC pauses for its quanta; when it resumes what it held is sent
in order; a link comes up where the mode has one, and goes down with its pauses; a frame that fails a check is counted and has no other effect. -/
def Obligations.HostLinksPauseAndCount : Prop :=
  (∀ (s : State) (port prio quanta : Nat), port < 2 → prio < 8 → 0 < quanta → s.host.enabled = true → Vec.get s.host.up port false = true → bit (s.reg Csr.hpCtl) (8 + prio) = true →
    ∃ s', exec (.pfcFrame port [(prio, quanta)]) s = .next s' ∧ (port, prio, quanta) ∈ s'.host.paused ∧ s'.reg Csr.hpRxFrames = s.reg Csr.hpRxFrames + 1 ∧
      (∀ p ∈ s'.host.paused, p.1 = port → p.2.1 = prio → p.2.2 = quanta) ∧ s'.hostTx = s.hostTx) ∧
  (∀ (s : State) (port prio : Nat), port < 2 →
    ∃ s', exec (.pfcPauseExpire port prio) s = .next s' ∧ (∀ p ∈ s'.host.paused, ¬ (p.1 = port ∧ p.2.1 = prio)) ∧
      s'.hostTx = s.hostTx ++ (s.host.held.filter (fun x => x.1 == port && x.2.1 == prio)).map (fun x => x.2.2) ∧
      s'.host.held = s.host.held.filter (fun x => !(x.1 == port && x.2.1 == prio))) ∧
  (∀ (s : State) (port : Nat), port < 2 → linkAllowed s port = true →
    ∃ s', exec (.hostLinkUp port) s = .next s' ∧ Vec.get s'.host.up port false = true ∧ (∀ p < 2, p ≠ port → Vec.get s'.host.up p false = Vec.get s.host.up p false)) ∧
  (∀ (s : State) (port : Nat), port < 2 →
    ∃ s', exec (.hostLinkDown port) s = .next s' ∧ Vec.get s'.host.up port false = false ∧ (∀ p ∈ s'.host.paused, p.1 ≠ port) ∧
      (∀ p < 2, p ≠ port → Vec.get s'.host.up p false = Vec.get s.host.up p false)) ∧
  (∀ (s : State) (port : Nat) (f : Frame), port < 2 → s.host.enabled = true → Vec.get s.host.up port false = true → frameOk s port f = false →
    exec (.receivedFrameDrop port f) s = .next (if f.fcsOk then s.count Csr.hpRxDrops 1 else (s.count Csr.hpRxDrops 1).count Csr.hpFcsErrs 1))

namespace Sys2Proof.Claims

/-- A message arrives on an UP port in its link's version, and no injection waits in the receive buffers (R468, R476, R577). -/
structure Reaches (s : State) (port : Nat) (m : StnMsg) : Prop where
  unit : port < 12
  up : (sport s port).state = 4
  version : m.ver = (sport s port).ver
  buffer : bit (s.reg Csr.errInj) 63 = false ∨ bf (s.reg Csr.errInj) 3 0 ≠ 11

/-- The state once the buffer of a message of a type is freed (R475). -/
def taken (s : State) (port type : Nat) (m : StnMsg) : State := freeBuffer s port { m with type := type }

/-- A fabric event stands last among the records of the event queue (R501). -/
def EventIs (s : State) (code aux addr : Nat) : Prop :=
  ∃ r, (s.hq (s.fld Csr.stnCfg 57 52)).recs.getLast? = some r ∧ r.kind = 4 ∧ r.code = code ∧ r.aux = aux ∧ r.addr = addr

end Sys2Proof.Claims

/-- LINK_TRAINING_TIMEOUT, FLIT_LOCK, HELLO_SEND_TIMER, HELLO, HELLO_TIMEOUT and PORT_RETRAIN_TIMER (R466 to R469, R501): a link that is not UP in time trains again; flit lock goes on to the
HELLOs; the second HELLO with a version in common brings the port UP with a FAB_PORT_UP event, and one without stops it in VERSION_FAIL; with no HELLO in time the port goes down and its
buffers are discarded; a port that may train then does. -/
def Obligations.FabricLinksFollowTheirHellos : Prop :=
  (∀ (s : State) (port : Nat) (whole : Bool), port < 12 → (sport s port).state ∈ [1, 2, 3] →
    ∃ s', exec (.linkTrainingTimeout port whole) s = .next s' ∧
      (whole = true → sport s' port = { SPort.reset with state := 1 } ∧ s'.reg Csr.stnLinkDowns = s.reg Csr.stnLinkDowns + 1) ∧
      (whole = false → (sport s port).state = 1 → sport s' port = { SPort.reset with state := 1 } ∧ s'.regs = s.regs) ∧
      (∀ p < 12, p ≠ port → sport s' p = sport s p)) ∧
  (∀ (s : State) (port : Nat), port < 12 → (sport s port).state = 1 →
    ∃ s', exec (.flitLock port) s = .next s' ∧ sport s' port = { sport s port with state := 2 } ∧ (∀ p < 12, p ≠ port → sport s' p = sport s p)) ∧
  (∀ (s : State) (port : Nat), port < 12 → (sport s port).state ∈ [2, 3, 4, 5] →
    ∃ s', exec (.helloSendTimer port) s = .next s' ∧ s'.staon.out = s.staon.out ++ [.flit port (ctrlFlit (sport s' port) (helloBytes s port) false)] ∧
      (sport s' port).state = (if (sport s port).state = 2 then 3 else (sport s port).state)) ∧
  (∀ (s : State) (port : Nat) (h : HelloBody), port < 12 →
    ((sport s port).state ∈ [2, 3, 5] → h.vmin ≤ 1 → 1 ≤ h.vmax → 1 ≤ (sport s port).hellos →
      ∃ s', exec (.hello port h) s = .next s' ∧ (sport s' port).state = 4 ∧ (sport s' port).peerAddr = h.addr ∧ (sport s' port).ver = 1 ∧ EventIs s' 0x0609 port h.addr) ∧
    ((sport s port).state ∈ [2, 3] → ¬ (h.vmin ≤ 1 ∧ 1 ≤ h.vmax) →
      ∃ s', exec (.hello port h) s = .next s' ∧ (sport s' port).state = 5 ∧ (sport s' port).ver = 0 ∧ EventIs s' 0x060A port h.addr)) ∧
  (∀ (s : State) (port : Nat), port < 12 → (sport s port).state = 4 →
    ∃ s', exec (.helloTimeout port) s = .next s' ∧ (sport s' port).state = 6 ∧ (sport s' port).unacked = [] ∧ (∀ v < 4, Vec.get (sport s' port).queues v [] = [])) ∧
  (∀ (s : State) (port : Nat), port < 12 → (sport s port).state = 6 →
    ∃ s', exec (.portRetrainTimer port) s = .next s' ∧ (sport s' port).state = (if portAllowed s port then 1 else 0) ∧ (sport s' port).peerAddr = (sport s port).peerAddr ∧
      (sport s' port).peerSn = (sport s port).peerSn)

/-- FLIT_RECEIVE and ACKSEQ_STALL_TIMER (R469, R471, R472): the expected data flit is accepted and counted, and the flits that it acknowledges leave the replay buffer; one out of sequence is
discarded; one whose CRC fails is counted, and the thirty-second in a row takes the port down; with flits unacknowledged the timer replays them, and the sixteenth replay takes the port
down. -/
def Obligations.FlitsAreAcceptedAcknowledgedAndReplayed : Prop :=
  (∀ (s : State) (port : Nat) (f : Flit), port < 12 → (sport s port).state ∈ [4, 5] →
    (f.crcOk = true → f.nak = false → f.ftype ∈ [1, 2] → (∀ v < 4, Vec.get (sport s port).queues v [] = []) →
      ∃ s', exec (.flitReceive port f) s = .next s' ∧ (sport s' port).unacked = (applyAck (sport s port) f.ackseq).unacked ∧
        (f.fseq % 4096 = (sport s port).rxNext →
          (sport s' port).rxNext = ((sport s port).rxNext + 1) % 4096 ∧ s'.reg Csr.stnFlitsRx = s.reg Csr.stnFlitsRx + 1 ∧ s'.staon.out = s.staon.out) ∧
        (f.fseq % 4096 ≠ (sport s port).rxNext → (sport s' port).rxNext = (sport s port).rxNext ∧ (sport s' port).discarding = true ∧ s'.regs = s.regs)) ∧
    (f.crcOk = false → (sport s port).badRun + 1 < 32 →
      ∃ s', exec (.flitReceive port f) s = .next s' ∧ s'.reg Csr.stnCrcErrs = s.reg Csr.stnCrcErrs + 1 ∧ (sport s' port).rxNext = (sport s port).rxNext ∧
        (sport s' port).discarding = true ∧ (sport s' port).badRun = (sport s port).badRun + 1) ∧
    (f.crcOk = false → 31 ≤ (sport s port).badRun → ∃ s', exec (.flitReceive port f) s = .next s' ∧ (sport s' port).state = 6)) ∧
  (∀ (s : State) (port : Nat), port < 12 → (sport s port).state = 4 → (sport s port).unacked ≠ [] →
    ∃ s', exec (.ackseqStallTimer port) s = .next s' ∧
      ((sport s port).replays + 1 < 16 → (sport s' port).replays = (sport s port).replays + 1 ∧ (sport s' port).unacked = (sport s port).unacked ∧
        s'.reg Csr.stnReplays = s.reg Csr.stnReplays + 1) ∧
      (15 ≤ (sport s port).replays → (sport s' port).state = 6))

/-- FLIT_RECEIVE and ACKSEQ_STALL_TIMER complete on every port that takes them (R469, R471, R472, R475). Of a flit whose CRC fails nothing is used; the first since the last good one is answered
by a NAK flit. Of any other the acknowledgements and credits apply; a data flit in sequence is accepted and counted, one out of sequence is discarded, and a flit of another type
counts no data; a NAK that is not ignored replays what is unacknowledged, and the sixteenth replay of one flit takes the port down, as the timer's does. -/
def Obligations.FlitsAndStallTimersComplete : Prop :=
  (∀ (s : State) (port : Nat) (f : Flit), port < 12 → (sport s port).state ∈ [4, 5] →
    let x := sport s port
    let y := applyCredits (applyAck { x with badRun := 0 } f.ackseq) f.cr
    let again := f.nak = true ∧ y.ignoreNak ≠ some f.ackseq ∧ y.unacked ≠ []
    ∃ s', exec (.flitReceive port f) s = .next s' ∧
      (f.crcOk = false → x.badRun + 1 < 32 → sport s' port = { x with badRun := x.badRun + 1, discarding := true } ∧ s'.reg Csr.stnCrcErrs = s.reg Csr.stnCrcErrs + 1 ∧
        s'.staon.out = s.staon.out ++ (if x.discarding then [] else [.flit port (ctrlFlit x [] true)])) ∧
      (f.crcOk = false → 31 ≤ x.badRun → (sport s' port).state = 6) ∧
      (f.crcOk = true → ¬ again →
        (f.ftype ∈ [1, 2] → f.fseq % 4096 = x.rxNext →
          (sport s' port).rxNext = (x.rxNext + 1) % 4096 ∧ (sport s' port).discarding = false ∧ s'.reg Csr.stnFlitsRx = s.reg Csr.stnFlitsRx + 1) ∧
        (f.ftype ∈ [1, 2] → f.fseq % 4096 ≠ x.rxNext →
          (sport s' port).rxNext = x.rxNext ∧ (sport s' port).discarding = true ∧ s'.reg Csr.stnFlitsRx = s.reg Csr.stnFlitsRx) ∧
        (f.ftype ∉ [1, 2] → (sport s' port).rxNext = x.rxNext ∧ (sport s' port).discarding = x.discarding ∧ s'.reg Csr.stnFlitsRx = s.reg Csr.stnFlitsRx)) ∧
      (f.crcOk = true → again → y.replays + 1 < 16 →
        s'.reg Csr.stnReplays = s.reg Csr.stnReplays + 1 ∧ (sport s' port).replays = y.replays + 1 ∧ (sport s' port).ignoreNak = some f.ackseq) ∧
      (f.crcOk = true → again → 15 ≤ y.replays → (sport s' port).state = 6)) ∧
  (∀ (s : State) (port : Nat), port < 12 → (sport s port).state = 4 → (sport s port).unacked ≠ [] →
    let x := sport s port
    ∃ s', exec (.ackseqStallTimer port) s = .next s' ∧
      (x.replays + 1 < 16 → s'.reg Csr.stnReplays = s.reg Csr.stnReplays + 1 ∧ (∀ p < 12, p ≠ port → sport s' p = sport s p) ∧
        sport s' port = { x with replays := x.replays + 1, ignoreNak := some (beforeOldest x) }) ∧
      (15 ≤ x.replays → (sport s' port).state = 6))

/-- WRITE, MCAST, RED and MESSAGE_FORWARD (R480, R481, R487 to R490, R497): data for this module is written once and acknowledged, or refused with its NACK; a duplicate is counted and
acknowledged without a write; data from or to a provisional address is dropped and counted; a message for another module goes on by its route with one hop less, and at hop count 0 it is
dropped and NACKed; a RED contribution of a reduction in flight is added, in the order of arrival, and signals its token; one that is ahead is held. -/
def Obligations.DataMessagesAreDeliveredOrForwarded : Prop :=
  (∀ (s : State) (port : Nat) (m : StnMsg), Reaches s port m →
    let s0 := taken s port 1 m
    (addrBad s m true = true → exec (.write port m) s = .next (s0.count Csr.stnDrops 1)) ∧
    (addrBad s m true = false → m.dst = ownAddr s → s.staon.leaving = false → ∀ s1 st, deliver s0 { m with type := 1 } = (s1, st) →
      (s.staon.dedup.contains (m.src, m.msgid) = true → st = none ∧ s1 = (finishRepart s0).count Csr.stnDups 1) ∧
      (st = none → exec (.write port m) s = .next (sendAck s1 { m with type := 1 })) ∧
      (∀ code, st = some code → exec (.write port m) s = .next (sendNack s1 { m with type := 1 } code))) ∧
    (addrBad s m true = false → m.dst ≠ ownAddr s → m.hops = 0 → exec (.write port m) s = .next (sendNack (s0.count Csr.stnDrops 1) { m with type := 1 } 2))) ∧
  (∀ (s : State) (port : Nat) (m : StnMsg), Reaches s port m →
    let s0 := taken s port 2 m
    let g := m.dst % 1024
    (bit (s.reg (Csr.group g)) 63 = false → exec (.mcast port m) s = .next (s0.count Csr.stnDrops 1)) ∧
    (addrBad s m false = false → bit (s.reg (Csr.group g)) 63 = true → bit (s.reg (Csr.group g)) 62 = true → s.staon.leaving = false →
      (∀ p ∈ groupPorts s0 g, p = port) → ∀ s1, deliver s0 { m with type := 2 } = (s1, none) → exec (.mcast port m) s = .next (sendAck s1 { m with type := 2 }))) ∧
  (∀ (s : State) (port : Nat) (m : StnMsg), Reaches s port m → addrBad s m true = false → m.dst = ownAddr s → s.staon.leaving = false →
    s.staon.dedup.contains (m.src, m.msgid) = false → s.staon.dedup.length < 8192 →
    let m' := { m with type := 3 }
    (∀ t i s1, redTarget s m' = some (t, i) → i.released = true → redBehind s port m' t i = false → redFits i m' = true →
      redAdd s t i.seq m.member m.first (redValues (i.desc .srca) m.pair (min (redLength (i.desc .srca) m.pair m.data.length) (i.red.slice - m.first)) m.data) = (s1, .added) →
      exec (.red port m) s = .next (sendAck (signalled (redLeave (s1.modStaon (fun b => { b with dedup := b.dedup ++ [(m.src, m.msgid)] })) port m') m') m')) ∧
    (redTarget s m' = none → redAhead s m' = true → ∃ s', exec (.red port m) s = .next s' ∧ (port, m') ∈ s'.staon.early ∧ s'.staon.out = s.staon.out ∧ s'.cores = s.cores)) ∧
  (∀ (s : State) (port q : Nat) (m : StnMsg), Reaches s port m →
    (m.type ∈ [1, 3] → addrBad s m true = false → m.dst ≠ ownAddr s → 0 < m.hops → routePort s m.dst = some q → q ≠ port →
      exec (.messageForward port m) s = .next (passOn s port [q] { m with hops := m.hops - 1 })) ∧
    (m.type ∈ [4, 5, 6] → m.dst ≠ ownAddr s → 0 < m.hops → routePort s m.dst = some q → q ≠ port →
      exec (.messageForward port m) s = .next (passOn s port [q] { m with hops := m.hops - 1 })) ∧
    (m.type ∈ [0x10, 0x11, 0x12] → ∀ rest, m.route = q :: rest → q ≠ 15 → portUsable s q = true →
      exec (.messageForward port m) s = .next (passOn s port [q] { m with route := rest, back := port :: m.back })))

/-- ACK, NACK, NOTICE, MGT_READ, MGT_WRITE and MGT_REPLY (R482, R485, R486, R494, R504): an acknowledgement settles its message; a BUSY makes it wait for a resend, and any other NACK ends it; a
notice is recorded as MCAST_LOST; delivered management messages read or write registers of the fabric block, a write only while STN_MGT_WR_EN is 1, and are answered; a reply fills the
receive words and sets their flag, unless one waits there. -/
def Obligations.ControlAndManagementMessagesAct : Prop :=
  (∀ (s : State) (port : Nat) (m : StnMsg), Reaches s port m → m.dst = ownAddr s →
    ∃ s', exec (.ack port m) s = .next s' ∧ (∀ x ∈ s'.staon.sent, ¬ (x.msg.msgid = m.ackId ∧ x.msg.type ≠ 2 ∧ x.copyOf = none))) ∧
  (∀ (s : State) (port : Nat) (m : StnMsg), Reaches s port m → m.dst = ownAddr s →
    ∃ s', exec (.nack port m) s = .next s' ∧
      (m.status = 3 → s'.staon.sent.length = s.staon.sent.length ∧ (∀ x ∈ s'.staon.sent, x.msg.msgid = m.ackId → x.copyOf = none → x.busy = true) ∧ s'.trays = s.trays) ∧
      (m.status ≠ 3 → ∀ x ∈ s'.staon.sent, ¬ (x.msg.msgid = m.ackId ∧ x.copyOf = none))) ∧
  (∀ (s : State) (port : Nat) (m : StnMsg), Reaches s port m → m.dst = ownAddr s →
    ∃ s', exec (.notice port m) s = .next s' ∧ EventIs s' 0x0605 m.rseq (m.addr % 2 ^ 48 + s.fld Csr.stnCfg 63 58 * 2 ^ 48)) ∧
  (∀ (s : State) (port : Nat) (m : StnMsg), Reaches s port m → m.route.head? = some 15 → inStaonSpace m.offset (min 8 m.first) = true →
    exec (.mgtRead port m) s = .next (mgtAnswer (taken s port 0x10 m) port { m with type := 0x10 } 0 (readWords (taken s port 0x10 m) m.offset (min 8 m.first)))) ∧
  (∀ (s : State) (port : Nat) (m : StnMsg), Reaches s port m → m.route.head? = some 15 → inStaonSpace m.offset (m.words.take 8).length = true →
    (bit (s.reg Csr.stnCfg) 2 = true →
      exec (.mgtWrite port m) s = .next (mgtAnswer (writeWords (taken s port 0x11 m) m.offset (m.words.take 8)) port { m with type := 0x11 } 0 [])) ∧
    (bit (s.reg Csr.stnCfg) 2 = false → exec (.mgtWrite port m) s = .next (mgtAnswer (taken s port 0x11 m) port { m with type := 0x11 } 2 []))) ∧
  (∀ (s : State) (port : Nat) (m : StnMsg), Reaches s port m → m.route.head? = some 15 →
    ∃ s', exec (.mgtReply port m) s = .next s' ∧ s'.fld Csr.stnMbxCtl 1 1 = 1 ∧
      (bit (s.reg Csr.stnMbxCtl) 1 = true → s'.regs = s.regs) ∧
      (bit (s.reg Csr.stnMbxCtl) 1 = false → ∀ k < min 8 m.words.length, s'.reg (Csr.stnMbxRx (6 + k)) = m.words.getD k 0))

/-- E2E_RESEND_TIMER, BUSY_RETRY_TIMER, MCAST_SKEW_EXPIRE and DEDUP_PAIR_EXPIRE (R481, R482, R493): an unacknowledged message is sent again at most three times, each counted, and is then given
up; a BUSY one is sent again uncounted; members that lag behind the first by MCAST_SKEW are detached and counted; an accepted pair is forgotten. -/
def Obligations.FabricTimersResendAndForget : Prop :=
  (∀ (s : State) (id : Nat) (x : SentMsg), s.staon.sent.filter (fun x => x.msg.msgid == id && x.firstAt.isSome && !x.busy && !stillQueued s x) = [x] → x.copyOf = none →
    ∃ s', exec (.e2eResendTimer id) s = .next s' ∧
      (x.tries < 3 → tooLate s x = false → s'.reg Csr.stnE2eRetx = s.reg Csr.stnE2eRetx + 1 ∧ ∃ y ∈ s'.staon.sent, y.msg = x.msg ∧ y.tries = x.tries + 1) ∧
      (3 ≤ x.tries → ∀ y ∈ s'.staon.sent, ¬ (y.msg.msgid = id ∧ y.copyOf = none))) ∧
  (∀ (s : State) (id : Nat) (x : SentMsg), s.staon.sent.filter (fun x => x.msg.msgid == id && x.busy) = [x] →
    ∃ s', exec (.busyRetryTimer id) s = .next s' ∧ (∀ y ∈ s'.staon.sent, y.msg.msgid = id → y.copyOf = x.copyOf → y.busy = false) ∧
      s'.reg Csr.stnE2eRetx = s.reg Csr.stnE2eRetx) ∧
  (∀ (s : State) (id : Nat) (k : Retained), s.staon.kept.find? (fun k => k.msg.msgid == id && k.skew) = some k → s.staon.kept.find? (fun k => k.msg.msgid == id) = some k → k.owed ≠ [] →
    ∃ s', exec (.mcastSkewExpire id) s = .next s' ∧ s'.reg Csr.stnMcastDetach = s.reg Csr.stnMcastDetach + BitVec.ofNat 64 k.owed.length ∧
      (∀ x ∈ s'.staon.kept, x.msg.msgid = id → ∀ a ∈ k.owed, a ∉ x.owed)) ∧
  (∀ (s : State) (src id : Nat),
    ∃ s', exec (.dedupPairExpire src id) s = .next s' ∧ s'.staon.dedup.contains (src, id) = false ∧
      (∀ p, p ≠ (src, id) → s'.staon.dedup.contains p = s.staon.dedup.contains p) ∧ s'.staon.sent = s.staon.sent)

/-- STN_LEAVE, LEAVE, LEAVE_COMPLETE, STN_ADDR_WRITE and STN_MBX_GO (R484, R485, R499, R500, R504): leaving begins once; a neighbour that leaves is skipped from then on; as leaving ends every
port is disabled and nothing is retained; an address is taken while the block is idle, and refused while it is busy; the mailbox's message takes the next MSGID. -/
def Obligations.FabricAddressesAndLeaving : Prop :=
  (∀ (s : State) (v : Reg), bit v 0 = true → bit (s.reg Csr.stnCfg) 0 = false → s.staon.leaving = false → s.staon.left = false →
    ∃ s', exec (.stnLeave v) s = .next s' ∧ s'.staon.leaving = true ∧ (∀ p < 12, (sport s p).state = 4 → StnTx.leave p ∈ s'.staon.out)) ∧
  (∀ (s : State) (port : Nat), port < 12 → (sport s port).state = 4 → (sport s port).peerLeaving = false →
    ∃ s', exec (.leave port) s = .next s' ∧ (sport s' port).peerLeaving = true ∧ portUsable s' port = false) ∧
  (∀ (s : State), s.staon.leaving = true → s.hearth.removal ≠ .leaving →
    ∃ s', exec .leaveComplete s = .next s' ∧ s'.staon.left = true ∧ s'.staon.leaving = false ∧ s'.staon.kept = [] ∧ (∀ p < 12, (sport s' p).state = 0)) ∧
  (∀ (s : State) (v : Reg),
    ∃ s', exec (.stnAddrWrite v) s = .next s' ∧
      (stnBusy s = false → s'.staon.assigned = (if 1 ≤ bf v 15 0 ∧ bf v 15 0 ≤ 0x7FFF then some (bf v 15 0) else none) ∧ s'.regs = s.regs) ∧
      (stnBusy s = true → bf v 15 0 ≠ ownAddr s → s'.staon = s.staon ∧ s'.reg Csr.cfgWhileBusy = s.reg Csr.cfgWhileBusy + 1)) ∧
  (∀ (s : State) (v : Reg) (p : Nat) (rest : List Nat), bit v 63 = true → bit v 1 = false → mbxBusy s = false → (mbxMessage s).type ∈ [0x10, 0x11] →
    (mbxMessage s).route = p :: rest → portUsable s p = true →
    ∃ s', exec (.stnMbxGo v) s = .next s' ∧ s'.staon.mbx = some s.staon.msgid ∧ s'.staon.msgid = (s.staon.msgid + 1) % 2 ^ 32)

/-- DOMAIN_IDLE_OFF, WAKE_TOKEN_DRAW, WAKE_COMPLETE and SWITCH_OFF_COMPLETE (R514, R517, R518, R519): an Auto domain with nothing to do begins to switch off, and no other domain changes; the head of
the wake queue draws every token there is, and leaves when it holds all of its own; a domain that has ramped up is on, and is counted; one that has switched off is off, or waits for its
wake if one was requested meanwhile. -/
def Obligations.DomainsSwitchInOrder : Prop :=
  (∀ (s : State) (d : Nat), s.hearth.running = true → d < 125 → isAuto d = true → domState s d = .on → domIdle s d = true → heldByHost s d = false →
    ∃ s', exec (.domainIdleOff d) s = .next s' ∧ domState s' d = .switchingOff ∧ (∀ e < 125, e ≠ d → domState s' e = domState s e) ∧ s'.mem = s.mem) ∧
  (∀ (s : State) (d got : Nat) (rest : List (Nat × Nat)), s.hearth.running = true → s.power.wakes = (d, got) :: rest →
    let held := if s.power.bucket < 6 ∧ 2 ≤ s.power.refill then s.power.bucket + 1 else s.power.bucket
    ∃ s', exec .wakeTokenDraw s = .next s' ∧
      (domTokens d ≤ got + held → got ≤ domTokens d → s'.power.wakes = rest ∧ d ∈ s'.power.ramped ∧ s'.power.bucket = held - (domTokens d - got)) ∧
      (got + held < domTokens d → s'.power.wakes = (d, got + held) :: rest ∧ s'.power.ramped = s.power.ramped ∧ s'.power.bucket = 0)) ∧
  (∀ (s : State) (d : Nat), s.hearth.running = true → d < 125 → s.power.ramped.contains d = true →
    ∃ s', exec (.wakeComplete d) s = .next s' ∧ domState s' d = .on ∧ s'.power.ramped.contains d = false ∧ s'.reg Csr.pwrWakes = s.reg Csr.pwrWakes + 1 ∧
      (∀ e < 125, e ≠ d → domState s' e = domState s e)) ∧
  (∀ (s : State) (d : Nat), s.hearth.running = true → d < 125 → domState s d = .switchingOff →
    ∃ s', exec (.switchOffComplete d) s = .next s' ∧ (s.power.again.contains d = false → domState s' d = .off ∧ s'.power.wakes = s.power.wakes) ∧
      (s.power.again.contains d = true → domState s' d = .waking ∧ s'.power.wakes = (s.power.enterWake (s.now / 12) d).wakes) ∧ (∀ e < 125, e ≠ d → domState s' e = domState s e))

/-- GOVERNOR_WINDOW, THERMAL_SAMPLE and EST_DRIFT_CHECK (R520, R521, R523, R527, R528): the next window's θ is the smallest of 100, θ + 10 and what the load allows, 1 at least, and 0 while the
junctions are critical; the hottest of the sensors sets the thermal cap and the sticky bits; an estimate off by more than 5 percent sets PWR_EST_DRIFT. -/
def Obligations.GovernorFollowsLoadAndHeat : Prop :=
  (∀ (s : State) (counts : List Nat), s.hearth.running = true →
    let engine := dynamicLoad counts 0 5
    let cap := min (hostCap s) (min (profileCap (profileOf s)) s.power.thermalCap)
    let allow : Int := ((cap - s.fld Csr.pwrCtl 41 36) * 1000 * 1052 : Nat) - ((dynamicLoad counts 6 10 + leakage s) * 1127 : Nat)
    let limit : Int := (s.power.theta : Int) * allow / ((1127 * engine : Nat) : Int)
    ∃ s', exec (.governorWindow counts) s = .next s' ∧ s'.power.capEff = cap ∧ s'.power.theta ≤ 100 ∧ s'.power.profile = profileOf s ∧
      (s.power.crit = true → s'.power.theta = 0) ∧ (s.power.crit = false → s.power.theta = 0 → s'.power.theta = 1) ∧
      (s.power.crit = false → 0 < s.power.theta → engine = 0 → s'.power.theta = min 100 (s.power.theta + 10)) ∧
      (s.power.crit = false → 0 < s.power.theta → 0 < engine → (s'.power.theta : Int) = max 1 (min 100 (min ((s.power.theta : Int) + 10) limit))) ∧
      s'.reg Csr.pwrThrottleWindows = s.reg Csr.pwrThrottleWindows + BitVec.ofNat 64 (if s.power.theta < 100 then 1 else 0)) ∧
  (∀ (s : State) (temps : List Int), s.hearth.running = true → temps.length = 34 →
    ∃ s', exec (.thermalSample temps) s = .next s' ∧ s'.power.tj ∈ temps.take 32 ∧ (∀ x ∈ temps.take 32, x ≤ s'.power.tj) ∧
      s'.power.thermalCap = (if s'.power.tj ≤ throttleAt s then 1000 else (max 300 (1000 - 25 * (s'.power.tj - throttleAt s))).toNat) ∧
      (105 ≤ s'.power.tj → s'.power.crit = true ∧ s'.fld Csr.thmStatus 9 9 = 1) ∧ (s'.power.tj < 100 → s'.power.crit = false) ∧
      ((throttleAt s : Int) < s'.power.tj → s'.fld Csr.thmStatus 8 8 = 1) ∧ s'.trays = s.trays) ∧
  (∀ (s : State) (deciwatts : Nat), s.hearth.running = true →
    ∃ s', exec (.estDriftCheck deciwatts) s = .next s' ∧
      (deciwatts < 20 * (if s.power.est ≤ deciwatts then deciwatts - s.power.est else s.power.est - deciwatts) → s'.fld Csr.pwrStatus 34 34 = 1) ∧
      (20 * (if s.power.est ≤ deciwatts then deciwatts - s.power.est else s.power.est - deciwatts) ≤ deciwatts → s'.regs = s.regs))

namespace Sys2Proof.Claims

/-- The main logic is at its reset values: no tray has a task, and every register outside the Hearth block reads its reset value (R511, R529, R534). -/
def MainIsReset (s : State) : Prop :=
  (∀ t < 32, (s.tray t).state = .idle) ∧ (∀ off, inHearthBlock off = false → s.reg off = RegMap.resetOf off) ∧ s.poison = [] ∧ s.errLog = []

/-- The Hearth kept what outlives every reset: the calendar, the flash and what it holds (R534). -/
def Keeps (s s' : State) : Prop :=
  s'.hearth.flash = s.hearth.flash ∧ s'.hearth.calSeconds = s.hearth.calSeconds ∧ s'.hearth.calValid = s.hearth.calValid ∧ s'.hearth.policy = s.hearth.policy ∧
    s'.hearth.svnMin = s.hearth.svnMin ∧ s'.hearth.hmpCtr = s.hearth.hmpCtr

end Sys2Proof.Claims

/-- PLL_LOCK, PLL_UNLOCK, THERMAL_SHUTDOWN, THERMAL_RESTART_TIMER, POWER_ON and HEARTH_WATCHDOG (R510, R511, R529, R534, R535): each reset clears the main logic and the boot counts, records its cause,
keeps the calendar and the flash, and begins the boot at its step: 1 after POWER_ON and the watchdog, 2 after a MODULE reset. -/
def Obligations.ResetsClearTheMainLogic : Prop :=
  (∀ (s : State), s.hearth.running = true → domState s 123 = .on → s.power.locked = false → s.hearth.stage ≠ 3 →
    ∃ s', exec .pllLock s = .next s' ∧ s'.power.locked = true ∧ s'.regs = s.regs) ∧
  (∀ (s : State), s.hearth.running = true → s.power.locked = true →
    ∃ s', exec .pllUnlock s = .next s' ∧ MainIsReset s' ∧ Keeps s s' ∧ s'.hearth.stage = 1 ∧ s'.hearth.cause = 4 ∧ s'.hearth.tries = 0) ∧
  (∀ (s : State), s.hearth.running = true → 110 ≤ s.power.tj → s.hearth.thermalStop = false →
    ∃ s', exec .thermalShutdown s = .next s' ∧ MainIsReset s' ∧ Keeps s s' ∧ s'.hearth.stage = 9 ∧ s'.hearth.thermalStop = true ∧ (∀ d < 125, domState s' d = .on → d = 122)) ∧
  (∀ (s : State), s.hearth.running = true → s.hearth.thermalStop = true → s.hearth.cooled = false → s.power.tj ≤ 60 →
    ∃ s', exec .thermalRestartTimer s = .next s' ∧
      (s.hearth.policy.testBit 2 = true → MainIsReset s' ∧ Keeps s s' ∧ s'.hearth.stage = 1 ∧ s'.hearth.cause = 5 ∧ s'.hearth.thermalStop = false) ∧
      (s.hearth.policy.testBit 2 = false → s'.hearth.cooled = true ∧ s'.hearth.stage = s.hearth.stage)) ∧
  (∀ (s : State), s.modhw.admitted = true → s.modhw.ref100 = true → s.hearth.running = false →
    ∃ s', exec .powerOn s = .next s' ∧ MainIsReset s' ∧ Keeps s s' ∧ s'.hearth.running = true ∧ s'.hearth.stage = 0 ∧ s'.hearth.cause = 0 ∧ s'.hearth.tries = 0) ∧
  (∀ (s : State), s.hearth.running = true →
    ∃ s', exec .hearthWatchdog s = .next s' ∧ MainIsReset s' ∧ Keeps s s' ∧ s'.hearth.running = true ∧ s'.hearth.stage = 0 ∧ s'.hearth.cause = 2)

/-- BOOT (R536, R539): step 1 ends in the first round; an image that passes counts as an attempt, and main power-up begins; one that fails counts, its code is kept, and the next source is
tried; powered up, the controllers train; trained, the firmware starts, the secret locks, and the module runs with its host port enabled and its fabric as the policy allows. -/
def Sys2Proof.Claims.BootRunsItsSteps : Prop :=
  ∀ (s : State) (env : BootEnv), s.hearth.running = true →
    (s.hearth.stage = 0 → env.stepOk = true →
      ∃ s', exec (.boot env) s = .next s' ∧ s'.hearth.stage = 1 ∧ s'.hearth.round = 1 ∧ s'.hearth.src = 0 ∧ s'.modhw.straps = env.straps % 4) ∧
    (s.hearth.stage = 1 → s.hearth.sideband = false → slotCode s s.hearth.src = 0 →
      ∃ s', exec (.boot env) s = .next s' ∧ s'.hearth.stage = 3 ∧ s'.hearth.tries = s.hearth.tries + 1 ∧ s'.hearth.bootSrc = s.hearth.src ∧ domState s' 123 = .on) ∧
    (s.hearth.stage = 1 → s.hearth.sideband = false → slotCode s s.hearth.src ≠ 0 →
      ∃ s', exec (.boot env) s = .next s' ∧ s'.hearth.tries = s.hearth.tries + 1 ∧ s'.hearth.lastFail = slotCode s s.hearth.src ∧
        (s.hearth.src = 0 → s'.hearth.stage = 1 ∧ s'.hearth.src = 1) ∧ (s.hearth.src = 1 → s'.hearth.sideband = true ∧ s'.hearth.src = 2)) ∧
    (s.hearth.stage = 3 → env.stepOk = true → s.power.locked = true → allOn s (bootDoms s) = true →
      ∃ s', exec (.boot env) s = .next s' ∧ s'.hearth.stage = 4 ∧ s'.regs = s.regs) ∧
    (s.hearth.stage = 4 → env.stepOk = true → ∃ s', exec (.boot env) s = .next s' ∧ s'.hearth.stage = 5 ∧ s'.trained = true) ∧
    (s.hearth.stage = 5 → env.stepOk = true →
      ∃ s', exec (.boot env) s = .next s' ∧ s'.hearth.stage = 6 ∧ s'.host.enabled = true ∧ s'.hearth.secretLocked = true ∧ s'.staon.enabled = !s.hearth.fabHeld) ∧
    (s.hearth.stage ∈ [3, 4, 5] → env.stepOk = false → ∃ s', exec (.boot env) s = .next s' ∧ MainIsReset s' ∧ s'.hearth.tries = s.hearth.tries)

/-- BOOT_BACKOFF_EXPIRE, IMAGE_REQUEST_RESEND, SIDEBAND_TIMEOUT, CAL_OSCILLATOR_STOP, ATTEST_REPORT_DONE and STN_MGT_WR_EN_RETRY (R539, R542, R548, R549, R556): the next round starts with slot A; the
request for an image is sent again; a side-band attempt without an answer fails and is counted; the calendar is no longer valid; the report is done; the refused write of
STN_MGT_WR_EN is tried again. -/
def Sys2Proof.Claims.HearthTimersAct : Prop :=
  (∀ (s : State), s.hearth.running = true → s.hearth.stage = 2 →
    ∃ s', exec .bootBackoffExpire s = .next s' ∧ s'.hearth.stage = 1 ∧ s'.hearth.src = 0 ∧ s'.hearth.round = s.hearth.round + 1) ∧
  (∀ (s : State), s.hearth.running = true → s.hearth.sideband = true → s.hearth.gotPut = false →
    ∃ s', exec .imageRequestResend s = .next s' ∧ s'.hearth.side = s.hearth.side ++ [.imageRequest s.hearth.peer s.hearth.svnMin s.hearth.lastFail]) ∧
  (∀ (s : State), s.hearth.running = true → s.hearth.sideband = true → s.hearth.src = 2 →
    ∃ s', exec .sidebandTimeout s = .next s' ∧ s'.hearth.sideband = false ∧ s'.hearth.stage = 2 ∧ s'.hearth.tries = s.hearth.tries + 1 ∧ s'.hearth.lastFail = 0x0A08) ∧
  (∀ (s : State), ∃ s', exec .calOscillatorStop s = .next s' ∧ s'.hearth.calValid = false ∧ s'.hearth.calLost = true ∧ s'.hearth.calSeconds = s.hearth.calSeconds) ∧
  (∀ (s : State), s.hearth.running = true → s.hearth.attesting = true → ∃ s', exec .attestReportDone s = .next s' ∧ s'.hearth.attesting = false ∧ s'.hearth.report = s.hearth.report) ∧
  (∀ (s : State), s.hearth.running = true → s.hearth.wrEnRetry = true →
    ∃ s', exec .stnMgtWrEnRetry s = .next s' ∧ (s'.hearth.wrEnRetry = false → s'.fld Csr.stnCfg 2 2 = b2n (s.hearth.policy.testBit 1)) ∧
      (stnBusy s = false → s'.hearth.wrEnRetry = false))

namespace Sys2Proof.Claims

/-- A request that the running Hearth takes: a request and no response, of version 1, with its reserved bits 0 and a payload that fits (R551, R553). -/
def Requests (s : State) (r : HmpReq) : Prop := s.hearth.running = true ∧ r.flags % 2 = 0 ∧ hmpHead r = 0

/-- A request whose tag is right and whose counter is new (R553). -/
def Authentic (s : State) (op : Nat) (r : HmpReq) : Prop := Requests s r ∧ tagOk s op r = true ∧ s.hearth.hmpCtr < r.ctr

/-- The answer to an accepted request is sent, and its counter and its peer are kept (R553). -/
def Answered (s s' : State) (op : Nat) (r : HmpReq) (out : List Byte) : Prop :=
  (s.hearth.side ++ [SideTx.response r.peer op 0 r.reqId out]) <+: s'.hearth.side ∧ s'.hearth.hmpCtr = r.ctr ∧ s'.hearth.peer = some r.peer

end Sys2Proof.Claims

/-- HMP_STATUS, TELEMETRY, OBJ_READ and ATTEST (R548, R551, R553): each is answered with its data; the report of an ATTEST is object 2 and takes its nonce. -/
def Obligations.OpenRequestsAreAnswered : Prop :=
  (∀ (s : State) (r : HmpReq), Requests s r → r.payload = [] →
    exec (.hmpStatus r) s = .next (hmpReply s 0x01 r 0 (leBytes 8 (hrtStatus s).toNat ++ leBytes 8 (hrtBoot s).toNat ++ leBytes 8 (hrtSvn s).toNat))) ∧
  (∀ (s : State) (r : HmpReq), Requests s r → r.payload = [] →
    exec (.telemetry r) s = .next (hmpReply s 0x02 r 0 (leBytes 4 (s.modhw.vin * 10) ++ leBytes 4 s.modhw.iin ++ leBytes 2 s.power.est ++ leBytes 1 (toCode 8 s.power.tj) ++
      leBytes 1 s.power.theta ++ leBytes 1 (s.fld Csr.pwrCtl 2 0)))) ∧
  (∀ (s : State) (r : HmpReq) (o : List Byte), Requests s r → r.payload.length = 7 → hmpObject s (arg r 0 1) = some o → arg r 5 2 ≤ 1024 → arg r 1 4 + arg r 5 2 ≤ o.length →
    (arg r 0 1 = 2 → s.hearth.attesting = false) → exec (.objRead r) s = .next (hmpReply s 0x03 r 0 ((o.drop (arg r 1 4)).take (arg r 5 2)))) ∧
  (∀ (s : State) (r : HmpReq), Requests s r → r.payload.length = 64 → s.hearth.attesting = false → s.hearth.atKey ≠ [] →
    (∀ i < 4, (Vec.get s.hearth.m i []).length = 64) →
    ∃ s', exec (.attest r) s = .next s' ∧ s'.hearth.side = s.hearth.side ++ [.response r.peer 0x04 0 r.reqId (leBytes 4 12202)] ∧ s'.hearth.attesting = true ∧
      s'.hearth.report.length = 12202 ∧ (s'.hearth.report.drop 16).take 64 = r.payload)

/-- HMP_RESET, HMP_POWER, IMAGE_PUT, IMAGE_DONE, TIME_SET, SVN_COMMIT, POLICY_SET, REMOVE_PREP, KEY_SET and NET_SET (R535, R542, R549, R552 to R554, R556, R558): a request with the right tag and a
new counter is answered, its counter is kept, and it has its effect; a wrong tag is answered AUTH_FAIL and changes nothing else of the Hearth but its event log. -/
def Obligations.AuthenticRequestsAct : Prop :=
  (∀ (s : State) (r : HmpReq) (k : Nat), Authentic s 0x10 r → resetState s = 0 → r.payload = [BitVec.ofNat 8 k] → k ∈ [1, 2] →
    ∃ s', exec (.hmpReset r) s = .next s' ∧ Answered s s' 0x10 r [] ∧ MainIsReset s' ∧ s'.hearth.stage = 2 - k ∧ s'.hearth.cause = (if k = 1 then 3 else 1)) ∧
  (∀ (s : State) (r : HmpReq) (k : Nat), Authentic s 0x11 r → resetState s = 0 → s.hearth.removal = .none → r.payload = [BitVec.ofNat 8 k] → k ≤ 1 →
    ∃ s', exec (.hmpPower r) s = .next s' ∧ Answered s s' 0x11 r [] ∧ MainIsReset s' ∧ s'.hearth.stage = (if k = 1 then 1 else 9)) ∧
  (∀ (s : State) (r : HmpReq), Authentic s 0x12 r → 5 ≤ r.payload.length → arg r 0 1 ≤ 1 → r.payload.length ≤ 1029 → arg r 1 4 + (r.payload.length - 5) ≤ slotSize →
    let at' := slotBase (arg r 0 1) + arg r 1 4
    ∃ s', exec (.imagePut r) s = .next s' ∧ Answered s s' 0x12 r [] ∧ flashBytes s' at' (r.payload.length - 5) = r.payload.drop 5 ∧
      (∀ a, a < at' ∨ at' + (r.payload.length - 5) ≤ a → Tab.get 0xFF s'.hearth.flash a = Tab.get 0xFF s.hearth.flash a)) ∧
  (∀ (s : State) (r : HmpReq), Authentic s 0x13 r → r.payload.length = 5 → arg r 0 1 ≤ 1 → arg r 1 4 ≤ slotSize → s.hearth.sideband = false →
    ∃ s', exec (.imageDone r) s = .next s' ∧ Answered s s' 0x13 r (leBytes 2 (announcedCode s (arg r 0 1) (arg r 1 4))) ∧ s'.hearth.stage = s.hearth.stage) ∧
  (∀ (s : State) (r : HmpReq), Authentic s 0x14 r → r.payload.length = 6 →
    ∃ s', exec (.timeSet r) s = .next s' ∧ Answered s s' 0x14 r [] ∧ s'.hearth.calSeconds = leNat r.payload ∧ s'.hearth.calValid = true) ∧
  (∀ (s : State) (r : HmpReq), Authentic s 0x15 r → r.payload = [] → s.hearth.stage ∈ [6, 7] →
    ∃ s', exec (.svnCommit r) s = .next s' ∧ Answered s s' 0x15 r [] ∧ s'.hearth.svnMin = max s.hearth.svnMin s.hearth.svnRun) ∧
  (∀ (s : State) (r : HmpReq) (p : Nat), Authentic s 0x16 r → r.payload = [BitVec.ofNat 8 p] → p < 16 →
    ∃ s', exec (.policySet r) s = .next s' ∧ Answered s s' 0x16 r [] ∧ s'.hearth.policy = p) ∧
  (∀ (s : State) (r : HmpReq), Authentic s 0x17 r → r.payload = [] → s.hearth.removal = .none → s.hearth.stage = 6 →
    ∃ s', exec (.removePrep r) s = .next s' ∧ Answered s s' 0x17 r [] ∧ s'.hearth.stage = 7 ∧ s'.hearth.removal = (if anyTask s then .draining else if s.staon.left then .off else .leaving) ∧
      (anyTask s = true ∨ s.staon.left = false → ∀ q < 64, s'.fld (Csr.hqState q) 23 23 = 1)) ∧
  (∀ (s : State) (r : HmpReq), Requests s r → s.hearth.hmpKey = none → r.flags.testBit 1 = false → r.payload.length = 32 →
    ∃ s', exec (.keySet r) s = .next s' ∧ s'.hearth.hmpKey = some r.payload ∧ s'.hearth.side = s.hearth.side ++ [.response r.peer 0x18 0 r.reqId []]) ∧
  (∀ (s : State) (r : HmpReq), Authentic s 0x18 r → s.hearth.hmpKey ≠ none → r.payload.length = 32 →
    ∃ s', exec (.keySet r) s = .next s' ∧ Answered s s' 0x18 r [] ∧ s'.hearth.hmpKey = some r.payload) ∧
  (∀ (s : State) (r : HmpReq), Authentic s 0x19 r → r.payload.length = 20 →
    ∃ s', exec (.netSet r) s = .next s' ∧ Answered s s' 0x19 r [] ∧ s'.hearth.ipv4 = arg r 0 4 ∧ s'.hearth.ipv6 = arg r 4 16) ∧
  (∀ (s : State) (r : HmpReq), Requests s r → tagOk s 0x14 r = false →
    ∃ s', exec (.timeSet r) s = .next s' ∧ s'.hearth.side = s.hearth.side ++ [.response r.peer 0x14 4 r.reqId []] ∧ s'.hearth.calSeconds = s.hearth.calSeconds ∧
      s'.hearth.hmpCtr = s.hearth.hmpCtr)

/-- ARP_REQUEST, NEIGHBOR_SOLICITATION and the SMBus commands (R550, R555): the Hearth answers for its own addresses with its MAC address; the SMBus reads are answered in their units, with the PEC, and a block read
moves the FRU offset on by 32. -/
def Obligations.SideBandReadsAreAnswered : Prop :=
  (∀ (s : State) (ip : Nat), s.hearth.running = true → s.hearth.ipv4 = ip → ip ≠ 0 →
    ∃ s', exec (.arpRequest ip) s = .next s' ∧ s'.hearth.side = s.hearth.side ++ [.arpReply ip (sideMac s)]) ∧
  (∀ (s : State) (ip : Nat), s.hearth.running = true → (linkLocal s = ip ∨ (s.hearth.ipv6 = ip ∧ ip ≠ 0)) →
    ∃ s', exec (.neighborSolicitation ip) s = .next s' ∧ s'.hearth.side = s.hearth.side ++ [.neighborAdvert ip (sideMac s)]) ∧
  (∀ (s : State) (off : Nat), s.hearth.running = true → off < 65536 → ∃ s', exec (.smbFruOffsetSet off) s = .next s' ∧ s'.hearth.fruOff = off ∧ s'.hearth.smb = s.hearth.smb) ∧
  (∀ (s : State), s.hearth.running = true → s.hearth.fruOff ≤ 480 →
    ∃ s', exec .smbFruBlockRead s = .next s' ∧ s'.hearth.fruOff = s.hearth.fruOff + 32 ∧
      s'.hearth.smb = s.hearth.smb ++ [(1, withPec s 1 (32#8 :: flashBytes s (idArea + 0x2000 + s.hearth.fruOff) 32))]) ∧
  (∀ (s : State), s.hearth.running = true →
    (∃ s', exec .smbReadVoltage s = .next s' ∧ s'.hearth.smb = s.hearth.smb ++ [(0x10, withPec s 0x10 (leBytes 2 s.modhw.vin))]) ∧
    (∃ s', exec .smbReadPower s = .next s' ∧ s'.hearth.smb = s.hearth.smb ++ [(0x11, withPec s 0x11 (leBytes 2 (s.modhw.vin * s.modhw.iin / 100000)))]) ∧
    (∃ s', exec .smbReadTj s = .next s' ∧ s'.hearth.smb = s.hearth.smb ++ [(0x12, withPec s 0x12 (leBytes 1 (toCode 8 s.power.tj)))]) ∧
    (∃ s', exec .smbReadHrtState s = .next s' ∧ s'.hearth.smb = s.hearth.smb ++ [(0x13, withPec s 0x13 (leBytes 1 s.hearth.stage))]) ∧
    (∃ s', exec .smbReadLastFail s = .next s' ∧ s'.hearth.smb = s.hearth.smb ++ [(0x14, withPec s 0x14 (leBytes 2 s.hearth.lastFail))]))

/-- ATTN_REMOVE_HOLD, DRAIN_TIME_EXPIRE, REMOVE_READY, MATED_N_OPEN, INPUT_ADMIT and HOT_SWAP_TRIP (R558, R588 to R592, R598): a button held while the policy allows it starts a removal, whose drain ends
every task left and begins leaving, or switches the main logic off when leaving is behind the module; with the main logic off the module reports ready and drives RDY_N; an input between its thresholds is admitted; an open pin or a trip ends the
input, and its cause is recorded. -/
def Sys2Proof.Claims.RemovalAndInputRunTheirCourse : Prop :=
  (∀ (s : State), s.hearth.running = true → s.hearth.policy.testBit 3 = true → s.hearth.stage = 6 → s.hearth.removal = .none →
    ∃ s', exec .attnRemoveHold s = .next s' ∧ s'.modhw.attn = true ∧ s'.hearth.stage = 7 ∧
      s'.hearth.removal = (if anyTask s then .draining else if s.staon.left then .off else .leaving)) ∧
  (∀ (s : State), s.hearth.running = true → s.hearth.removal = .draining →
    ∃ s', exec .drainTimeExpire s = .next s' ∧ (∀ t < 32, (s'.tray t).live = false) ∧
      (s.staon.left = false → s'.hearth.removal = .leaving ∧ s'.staon.leaving = true) ∧ (s.staon.left = true → s'.hearth.removal = .off ∧ MainIsReset s')) ∧
  (∀ (s : State), s.hearth.running = true → s.hearth.removal = .off →
    ∃ s', exec .removeReady s = .next s' ∧ s'.hearth.removal = .ready ∧ s'.hearth.stage = 8 ∧ s'.modhw.rdy = true) ∧
  (∀ (s : State), s.modhw.admitted = true →
    ∃ s', exec .matedNOpen s = .next s' ∧ s'.modhw.mated = false ∧ s'.modhw.admitted = false ∧ s'.modhw.cause = 1 ∧ s'.hearth.running = false ∧ MainIsReset s' ∧ Keeps s s') ∧
  (∀ (s : State) (centivolts : Nat), s.modhw.admitted = false → 3900 < centivolts → centivolts < 6200 →
    ∃ s', exec (.inputAdmit centivolts) s = .next s' ∧ s'.modhw.admitted = true ∧ s'.modhw.mated = true ∧ s'.modhw.vin = centivolts) ∧
  (∀ (s : State) (causes : List HscCause), s.modhw.admitted = true → causes ≠ [] →
    ∃ s', exec (.hotSwapTrip causes) s = .next s' ∧ s'.modhw.admitted = false ∧ s'.modhw.cause ∈ [1, 2, 3, 4] ∧ s'.hearth.running = false ∧ MainIsReset s' ∧ Keeps s s')

/-- REF100_LOSS, REF100_RETURN, REF156H_LOSS, REF156H_RETURN, REF156S_LOSS and REF156S_RETURN (R595): without its reference the Hearth is held in reset, and with it again an admitted module takes a
POWER_ON reset of cause 6; a reference of the host links or of the fabric takes its links down, and lets those train again whose domains are on. -/
def Sys2Proof.Claims.ReferencesHoldTheirClocks : Prop :=
  (∀ (s : State), s.modhw.ref100 = true → s.modhw.admitted = true →
    ∃ s', exec .ref100Loss s = .next s' ∧ s'.modhw.ref100 = false ∧ s'.modhw.refLoss = true ∧ s'.hearth.running = false ∧ MainIsReset s' ∧ Keeps s s') ∧
  (∀ (s : State), s.modhw.ref100 = false → s.modhw.admitted = true →
    ∃ s', exec .ref100Return s = .next s' ∧ s'.modhw.ref100 = true ∧ s'.modhw.refLoss = false ∧ s'.hearth.running = true ∧ s'.hearth.stage = 0 ∧ Keeps s s' ∧
      (s.modhw.refLoss = true → s'.hearth.cause = 6)) ∧
  (∀ (s : State), ∃ s', exec .ref156hLoss s = .next s' ∧ s'.host.ref = false ∧ (∀ p < 2, Vec.get s'.host.up p false = false) ∧ s'.regs = s.regs) ∧
  (∀ (s : State), ∃ s', exec .ref156hReturn s = .next s' ∧ s'.host = { s.host with ref := true } ∧ s'.regs = s.regs) ∧
  (∀ (s : State), ∃ s', exec .ref156sLoss s = .next s' ∧ s'.staon.ref = false ∧ (∀ p < 12, (sport s' p).state = (if (sport s p).state = 0 then 0 else 6))) ∧
  (∀ (s : State), s.staon.enabled = true → s.staon.left = false → (∀ p < 12, (sport s p).state = 0) →
    ∃ s', exec .ref156sReturn s = .next s' ∧ s'.staon.ref = true ∧ (∀ p < 12, (sport s' p).state = (if domOn s (100 + p) = true ∧ bit (s.reg Csr.stnCfg) (32 + p) = true then 1 else 0)))

namespace Sys2Proof.Claims

/-- What a fused-off array's domains keep to (R516): each reads fused off, and none waits for its wake or ramps up. -/
def FusedStayOff (s : State) : Prop :=
  ∀ d < 125, fusedDomain s.arrayMask d = true → domState s d = .fusedOff ∧ (∀ w ∈ s.power.wakes, w.1 ≠ d) ∧ d ∉ s.power.ramped

/-- A register that lists a domain, and the domain's bit in it (R531). -/
def domBitIn (on : Bool) (d : Nat) : Nat := if d < 64 then (if on then Csr.pwrDomOn0 else Csr.pwrDomHold0) else (if on then Csr.pwrDomOn1 else Csr.pwrDomHold1)

/-- The command names a unit beyond those of its kind: a tray, core, array, channel, Staon port, host port, queue, domain or controller (R3, R19, R20, R332, R430, R465, R512). -/
def NoSuchUnit (c : Instr) : Prop :=
  (∃ mn t, c = issueCommand mn t ∧ 32 ≤ t) ∨ (∃ t k, c = .instructionComplete t k ∧ 32 ≤ t) ∨ (∃ t, c = .tileStepQueue t ∧ 32 ≤ t) ∨ (∃ t, c = .drainDone t ∧ 32 ≤ t) ∨
    (∃ q, c = .recordWrite q ∧ 64 ≤ q) ∨ (∃ k, c = .planeReady k ∧ 4 ≤ k) ∨ (∃ k a, c = .weightLaunch k a ∧ k < 4 ∧ 2 ≤ a) ∨
    (∃ k ch, c = .transferDescIssue k ch ∧ k < 4 ∧ 4 ≤ ch) ∨ (∃ p, c = .flitLock p ∧ 12 ≤ p) ∨ (∃ p, c = .hostLinkUp p ∧ 2 ≤ p) ∨ (∃ d, c = .wakeComplete d ∧ 125 ≤ d) ∨
    (∃ k, c = .scrubPassStart k ∧ 12 ≤ k) ∨ (∃ m, c = .doorbell m ∧ 64 ≤ m.queue)

end Sys2Proof.Claims

/-- The oldest command of the queue is taken, and its effect is that of exec on the state with the queue's rest. With no command waiting one cycle passes: no byte of memory changes, and while no
Sieve has work in its groups or lanes no tray, core, queue or register does, but for the counts of late cycles (the model's choice, log entry 2). -/
def Obligations.StepRunsTheFrontCommand : Prop :=
  (∀ (s : State) (c : Instr) (rest : List Instr), s.pending = c :: rest → step s = exec c { s with pending := rest }) ∧
  (∀ (s : State), s.pending = [] → ∃ s', step s = .next s' ∧ s'.now = s.now + 1 ∧ s'.mem = s.mem ∧ s'.hostTx = s.hostTx ∧ s'.pending = [] ∧
    ((∀ c < 4, (sieve s c).groups = [] ∧ (sieve s c).lanes = []) → s'.trays = s.trays ∧ s'.cores = s.cores ∧ s'.queues = s.queues ∧
      ∀ off, (∀ c < 4, off ≠ Csr.prfLateCycles c) → s'.reg off = s.reg off))

/-- Every command that names units of the module answers a next state, and one that names a tray, core, array, channel, port, queue, domain or controller beyond them is a fault of the
model (its own stop, log entry 3). -/
def Obligations.CommandsOfTheModuleAnswerNext : Prop :=
  (∀ (c : Instr) (s : State), c.wf = true → ∃ s', exec c s = .next s') ∧
  (∀ (c : Instr) (s : State), NoSuchUnit c → ∃ k n, exec c s = .fault (.noSuchUnit k n))

/-- A command changes only the parts of the state that `partsOf` lists for it: every other part is as it was, and neither the queue of commands nor what is fused at manufacture changes; what was
sent to the host stays sent. A command that lists no memory keeps every byte. -/
def Obligations.CommandsChangeOnlyTheirParts : Prop :=
  ∀ (c : Instr) (s s' : State), exec c s = .next s' → Touch (partsOf c) s s' ∧ ((partsOf c).mem = false → ∀ a, Tab.get 0 s'.mem a = Tab.get 0 s.mem a)

/-- Every step keeps memory, the poison tables and the registers in their one canonical form, so that equal contents are equal states. -/
def Obligations.StepsKeepTheTablesCanonical : Prop :=
  ∀ (s s' : State), s.Canonical → step s = .next s' → s'.Canonical

/-- What reset leaves (R11, R84, R484, R513, R517, R534): no tray has a task, every register reads its reset value, the Bench reads zero, a provisional address, a full wake bucket, every
domain off but the Hearth's, and the Hearth in its ROM after POWER_ON; the tables are canonical. (That all memory reads zero is the model's choice, log entry 1.) -/
def Obligations.ResetIsAsTheRulesLeaveIt : Prop :=
  State.reset.pending = [] ∧ (∀ t < 32, (State.reset.tray t).state = .idle ∧ (State.reset.tray t).tokens = Vector.replicate 8 0) ∧ (∀ off, State.reset.reg off = RegMap.resetOf off) ∧
    (∀ a, Tab.get 0 State.reset.mem a = 0) ∧ State.reset.staon.assigned = none ∧ State.reset.power.bucket = 6 ∧ (∀ d < 125, domState State.reset d = .on ↔ d = 122) ∧
    State.reset.hearth.stage = 0 ∧ State.reset.hearth.cause = 0 ∧ State.reset.hearth.running = true ∧ State.reset.Canonical ∧ FusedStayOff State.reset

/-- R516: the domains of a fused-off array are never switched on, and their PWR_DOM_STATE reads 3, whatever the step; writes to their bits in PWR_DOM_ON and PWR_DOM_HOLD are ignored. -/
def Obligations.FusedOffDomainsAreNeverSwitchedOn : Prop :=
  (∀ (s s' : State), FusedStayOff s → step s = .next s' → FusedStayOff s') ∧
  (∀ (s : State) (d : Nat), FusedStayOff s → d < 125 → fusedDomain s.arrayMask d = true → bf (regRead s (Csr.pwrDomState (d / 32))) (2 * (d % 32) + 1) (2 * (d % 32)) = 3) ∧
  (∀ (s s' : State) (d : Nat) (on : Bool) (v : Reg), d < 125 → fusedDomain s.arrayMask d = true → exec (.csrRegisterWrite (domBitIn on d) v) s = .next s' →
    s'.fld (domBitIn on d) (d % 64) (d % 64) = s.fld (domBitIn on d) (d % 64) (d % 64)) ∧
  (∀ (s s' : State) (d half : Nat) (v : Reg), d < 125 → fusedDomain s.arrayMask d = true → exec (.pwrDomOnWrite half v) s = .next s' →
    s'.fld (domBitIn true d) (d % 64) (d % 64) = s.fld (domBitIn true d) (d % 64) (d % 64))

/-- R448: QUEUE_RESTART restarts dispatch on a queue that a fault stopped, and its status is OK; on a queue that is not stopped it has no effect beyond that of any accepted command (its
frame counted, its number taken). -/
def Obligations.QueueRestartRestartsDispatch : Prop :=
  ∀ (m : CctMsg) (s : State) (port prio : Nat), ByUdp s m port prio → Accepted opQueueRestart m s → s.host.paused = [] →
    ∃ s', exec (.queueRestart m) s = .next s' ∧ s'.fld (Csr.hqState m.queue) 23 23 = 0 ∧ (∀ off, off ≠ Csr.hqState m.queue → s'.reg off = (accepting opQueueRestart m s).reg off) ∧
      (s.fld (Csr.hqState m.queue) 23 23 = 0 → ∀ off, s'.reg off = (accepting opQueueRestart m s).reg off) ∧ s'.queues = s.queues ∧ s'.trays = s.trays ∧ s'.cores = s.cores ∧
      s'.hostTx = s.hostTx ++ (if m.ackreq then [.response m.src m.queue 5 0 (seqExp s' m.queue) []] else [])

/-- An instruction whose wait is met is released as it issues, and one whose wait is not met blocks its tray. -/
def Obligations.WaitsReleaseOrBlock : Prop := ControlInstructionsAreDoneAtRelease ∧ UnmetWaitBlocksTray

/-- INSTRUCTION_COMPLETE: tokens, records, and SYNC.SIG to another tray. -/
def Obligations.CompletedInstructionsSignalAndRecord : Prop := CompletedInstructionLeavesItsTray ∧ SyncSigReachesAnotherTray

/-- RECORD_WRITE and NOTIFY_TIMER_EXPIRE. -/
def Obligations.RecordsGoToTheirRings : Prop := OldestRecordGoesToItsRing ∧ NotifyTimerSendsProducerIndex

/-- HEADER_COUNT_REPORT, ZERO_PASS_GENERATE and TILE_GROUP_ALLOC. -/
def Obligations.TilesLearnTheirCountsAndOpen : Prop := HeaderCountReachesTheTiler ∧ TileWithoutPassesEnds ∧ WaitingGroupOpensTogether

/-- TRANSFER_DESC_ISSUE, TRANSFER_DESC_DONE and STREAM_SLOT_FILLED. -/
def Obligations.DescriptorsMoveTheirBytes : Prop := FreeDescriptorTakesTheChosenRequest ∧ FinishedTransferFreesItsDescriptor ∧ WrittenSlotPostsItsCredit

/-- TRANSLATION_WALK_DONE, MMU_INV_GO and MMU_INV_DONE. -/
def Obligations.WalksAndInvalidationsEnd : Prop := WalkEndsWithItsTranslation ∧ InvalidationEmptiesItsScope

/-- PRF_DEADLOCK_EXPIRE, SPILL_COPY_DONE, SPILL_AREA_MOVE, SPILL_EXHAUSTED and COUCHE_OVERFLOW. -/
def Obligations.SpillsBreakMutualWaits : Prop := YoungestBlockedStreamIsSpilled ∧ SpilledSlotIsCopiedOut ∧ SpillRequestsGoOnToTheNextArea

/-- ARB_GRANT and ARB_HEAD_FORCED. -/
def Obligations.ArbitersGrantByRank : Prop := HighestRankedHeadIsGranted ∧ ForcedHeadReachesTheLimit

/-- LPDDR5X controllers: uncorrectable reads, SCRUB_PASS_START and LPC_SPLIT_WRITE. -/
def Obligations.ControllersReadScrubAndSplit : Prop := UncorrectableReadPoisonsItsLine ∧ ControllerScrubsAndSplits

/-- SYNC_BAR_BREAK, LEV_CNT_CLR_ALL, UPD_CLR_ALL, PEEL_DBG_SNAP and ERR_INJ_ARM. -/
def Obligations.SpecialWritesAct : Prop := BrokenBarriersFaultTheirTrays ∧ WriteOnceFieldsAct

/-- PLANE_READY, SIEVE_STEP_CURRENT, GROUP_TAKE_WORK, SLOT_CLOSE, SLOT_DRAIN and SIEVE_SLOT_SPILL. -/
def Obligations.SieveWorksAndItsSlotsDrain : Prop := SieveTakesItsWork ∧ SlotsCloseDrainAndSpill

/-- LEV_BITMAP_TAKE, LEVAIN_STEP_START and VECTOR_STEP_START. -/
def Obligations.PredictionsAndVectorStepsRun : Prop := PredictionsGatherRowByRow ∧ VectorStepsRun

/-- BOOT, BOOT_BACKOFF_EXPIRE, IMAGE_REQUEST_RESEND, SIDEBAND_TIMEOUT, CAL_OSCILLATOR_STOP, ATTEST_REPORT_DONE, STN_MGT_WR_EN_RETRY. -/
def Obligations.BootAndHearthTimersAct : Prop := BootRunsItsSteps ∧ HearthTimersAct

/-- Removal, the input and its hot-swap controller, and the references. -/
def Obligations.RemovalInputAndReferences : Prop := RemovalAndInputRunTheirCourse ∧ ReferencesHoldTheirClocks
end

