-- ==== Sys2Proof/Laws/Tab.lean ====
section
/-! SUPPORT. Sparse tables and fixed vectors: reading after writing, and that every operation keeps the canonical form. -/

namespace Sys2Proof

variable {α : Type} {t : Tab α}

theorem Tab.get_insert_same (d : α) (t : Tab α) (k : Nat) (v : α) : Tab.get d (Tab.insert t k v) k = v := by
  induction t with
  | nil => simp [Tab.insert, Tab.get]
  | cons p t ih =>
    obtain ⟨j, x⟩ := p
    simp only [Tab.insert]
    split
    · simp [Tab.get]
    · split
      · simp [Tab.get]
      · next h => simp only [Tab.get]; rw [if_neg (fun e => h e.symm), ih]

theorem Tab.get_insert_other (d : α) (t : Tab α) {k j : Nat} (v : α) (h : k ≠ j) : Tab.get d (Tab.insert t k v) j = Tab.get d t j := by
  induction t with
  | nil => simp [Tab.insert, Tab.get, h]
  | cons p t ih =>
    obtain ⟨i, x⟩ := p
    simp only [Tab.insert]
    split
    · simp [Tab.get, h]
    · split
      · subst_vars; simp [Tab.get, h]
      · simp [Tab.get, ih]

theorem Tab.get_remove_same (d : α) (t : Tab α) (k : Nat) : Tab.get d (t.filter (fun p => p.1 != k)) k = d := by
  induction t with
  | nil => rfl
  | cons p t ih =>
    obtain ⟨i, x⟩ := p
    by_cases e : i = k <;> simp [e, Tab.get, ih]

theorem Tab.get_remove_other (d : α) (t : Tab α) {k j : Nat} (h : k ≠ j) : Tab.get d (t.filter (fun p => p.1 != k)) j = Tab.get d t j := by
  induction t with
  | nil => rfl
  | cons p t ih =>
    obtain ⟨i, x⟩ := p
    by_cases e : i = k
    · subst e; simp [Tab.get, h, ih]
    · simp [e, Tab.get, ih]

theorem Tab.above_insert {i k : Nat} {v : α} (h : Tab.above i t = true) (hk : i < k) : Tab.above i (Tab.insert t k v) = true := by
  cases t with
  | nil => simp [Tab.insert, Tab.above, hk]
  | cons p t =>
    obtain ⟨j, x⟩ := p
    simp only [Tab.above, decide_eq_true_eq] at h
    simp only [Tab.insert]
    split
    · simp [Tab.above, hk]
    · split <;> simp [Tab.above, h, hk]

theorem Tab.above_filter [DecidableEq α] {d : Nat → α} {i : Nat} (p : Nat × α → Bool) (h : Tab.wf d t = true) (ha : Tab.above i t = true) :
    Tab.above i (t.filter p) = true := by
  induction t with
  | nil => rfl
  | cons q t ih =>
    obtain ⟨j, x⟩ := q
    simp only [Tab.wf, Bool.and_eq_true] at h
    simp only [List.filter]
    split
    · exact ha
    · apply ih h.2
      cases t with
      | nil => rfl
      | cons r t => simp only [Tab.above, decide_eq_true_eq] at h ha ⊢; omega

variable [DecidableEq α] {d : Nat → α}

@[simp] theorem Tab.get_put_same (d : α) (t : Tab α) (k : Nat) (v : α) : Tab.get d (Tab.put d t k v) k = v := by
  unfold Tab.put
  split
  · next e => rw [Tab.get_remove_same, e]
  · exact Tab.get_insert_same d t k v

theorem Tab.get_put_other (d d' : α) (t : Tab α) {k j : Nat} (v : α) (h : k ≠ j) : Tab.get d (Tab.put d' t k v) j = Tab.get d t j := by
  unfold Tab.put
  split
  · exact Tab.get_remove_other d t h
  · exact Tab.get_insert_other d t v h

theorem Tab.wf_filter (p : Nat × α → Bool) (h : Tab.wf d t = true) : Tab.wf d (t.filter p) = true := by
  induction t with
  | nil => rfl
  | cons q t ih =>
    obtain ⟨j, x⟩ := q
    simp only [Tab.wf, Bool.and_eq_true, decide_eq_true_eq] at h
    simp only [List.filter]
    split
    · simp only [Tab.wf, Bool.and_eq_true, decide_eq_true_eq]; exact ⟨⟨Tab.above_filter p h.2 h.1.1, h.1.2⟩, ih h.2⟩
    · exact ih h.2

theorem Tab.wf_insert (h : Tab.wf d t = true) (k : Nat) {v : α} (hv : v ≠ d k) : Tab.wf d (Tab.insert t k v) = true := by
  induction t with
  | nil => simp [Tab.insert, Tab.wf, Tab.above, hv]
  | cons p t ih =>
    obtain ⟨i, x⟩ := p
    have h' := h
    simp only [Tab.wf, Bool.and_eq_true, decide_eq_true_eq] at h
    simp only [Tab.insert]
    split
    · next lt => simp only [Tab.wf, Bool.and_eq_true, decide_eq_true_eq, Tab.above]; exact ⟨⟨lt, hv⟩, h⟩
    · split
      · next e =>
        subst e
        simp only [Tab.wf, Bool.and_eq_true, decide_eq_true_eq]
        exact ⟨⟨h.1.1, hv⟩, h.2⟩
      · next n1 n2 =>
        simp only [Tab.wf, Bool.and_eq_true, decide_eq_true_eq]
        exact ⟨⟨Tab.above_insert h.1.1 (by omega), h.1.2⟩, ih h.2⟩

theorem Tab.wf_put (h : Tab.wf d t = true) (k : Nat) (v : α) : Tab.wf d (Tab.put (d k) t k v) = true := by
  unfold Tab.put
  split
  · exact Tab.wf_filter _ h
  · next hv => exact Tab.wf_insert h k hv

theorem Tab.wf_foldl {β : Type} (f : Tab α → β → Tab α) (hf : ∀ t x, Tab.wf d t = true → Tab.wf d (f t x) = true) (l : List β) (h : Tab.wf d t = true) :
    Tab.wf d (l.foldl f t) = true := by
  induction l generalizing t with
  | nil => exact h
  | cons x l ih => exact ih (hf _ _ h)

theorem Vec.get_put_same {β : Type} {n i : Nat} (v : Vector β n) (x d : β) (h : i < n) : Vec.get (Vec.put v i x) i d = x := by
  simp [Vec.get, Vec.put, h]

theorem Vec.get_put_other {β : Type} {n i j : Nat} (v : Vector β n) (x d : β) (h : i ≠ j) : Vec.get (Vec.put v i x) j d = Vec.get v j d := by
  unfold Vec.get Vec.put
  split
  · rw [Vector.getElem_setIfInBounds, if_neg h]
  · rfl

end Sys2Proof
end

