-- ==== Sys2Proof/Laws/Memory.lean ====
section
/-! SUPPORT. Operations over memory, the poison tables and the registers keep the canonical form; reading a byte after writing bytes. -/

namespace Sys2Proof.Machine

theorem memory_put_wf {m : Tab Byte} (h : Memory.wf m = true) (k : Nat) (v : Byte) : Memory.wf (Tab.put 0 m k v) = true := Tab.wf_put (d := fun _ => 0) h k v

theorem poison_put_wf {m : Tab Bool} (h : Poison.wf m = true) (k : Nat) (v : Bool) : Poison.wf (Tab.put false m k v) = true :=
  Tab.wf_put (d := fun _ => false) h k v

theorem registers_put_wf {m : Tab Reg} (h : Registers.wf m = true) (k : Nat) (v : Reg) : Registers.wf (Tab.put (RegMap.resetOf k) m k v) = true := Tab.wf_put h k v

theorem putBytes_wf {m : Tab Byte} {bs : List Byte} {a : Nat} (h : Memory.wf m = true) : Memory.wf (putBytes m a bs) = true := by
  induction bs generalizing m a with
  | nil => exact h
  | cons b t ih => exact ih (memory_put_wf h a b)

theorem clearUnits_wf {p : Tab Bool} {us : List Nat} (h : Poison.wf p = true) : Poison.wf (clearUnits p us) = true :=
  Tab.wf_foldl _ (fun _ _ c => poison_put_wf c _ _) us h

theorem moveScratch_wf {o n : Nat} {m : Tab Byte} (h : Memory.wf m = true) : Memory.wf (moveScratch o n m) = true :=
  Tab.wf_foldl _ (fun _ _ c => memory_put_wf c _ _) _ (Tab.wf_filter _ h)

theorem movePoison_wf {o n : Nat} {m : Tab Bool} (h : Poison.wf m = true) : Poison.wf (movePoison o n m) = true :=
  Tab.wf_foldl _ (fun _ _ c => poison_put_wf c _ _) _ (Tab.wf_filter _ h)

theorem putBytes_get_below {m : Tab Byte} {bs : List Byte} {a k : Nat} (h : k < a) : Tab.get 0 (putBytes m a bs) k = Tab.get 0 m k := by
  induction bs generalizing m a with
  | nil => rfl
  | cons b t ih => rw [putBytes, ih (by omega), Tab.get_put_other _ _ _ _ (by omega)]

theorem putBytes_get_outside {m : Tab Byte} {bs : List Byte} {a k : Nat} (h : k < a ∨ a + bs.length ≤ k) : Tab.get 0 (putBytes m a bs) k = Tab.get 0 m k := by
  induction bs generalizing m a with
  | nil => rfl
  | cons b t ih =>
    simp only [List.length_cons] at h
    rw [putBytes, ih (by omega), Tab.get_put_other _ _ _ _ (by omega)]

theorem putBytes_get_inside {m : Tab Byte} {bs : List Byte} {a j : Nat} (h : j < bs.length) : Tab.get 0 (putBytes m a bs) (a + j) = bs[j] := by
  induction bs generalizing m a j with
  | nil => simp at h
  | cons b t ih =>
    cases j with
    | zero => rw [putBytes, Nat.add_zero, putBytes_get_below (by omega)]; exact Tab.get_put_same 0 m a b
    | succ j =>
      have := ih (m := Tab.put 0 m a b) (a := a + 1) (j := j) (by simpa using h)
      rw [putBytes, show a + (j + 1) = a + 1 + j by omega, this]
      rfl

end Sys2Proof.Machine
end

