-- ==== Sys2Proof/Laws/State.lean ====
section
/-! SUPPORT. What a field holds after one field has been replaced, and reading a register, a tray, a core, a queue or a barrier after writing one. -/

namespace Sys2Proof.Machine

namespace State

/-! ### One field replaced -/

@[simp] theorem setNow_pending (s : State) (v : Nat) : (s.setNow v).pending = s.pending := rfl
@[simp] theorem setNow_now (s : State) (v : Nat) : (s.setNow v).now = v := rfl
@[simp] theorem setNow_ord (s : State) (v : Nat) : (s.setNow v).ord = s.ord := rfl
@[simp] theorem setNow_free (s : State) (v : Nat) : (s.setNow v).free = s.free := rfl
@[simp] theorem setNow_part (s : State) (v : Nat) : (s.setNow v).part = s.part := rfl
@[simp] theorem setNow_mem (s : State) (v : Nat) : (s.setNow v).mem = s.mem := rfl
@[simp] theorem setNow_poison (s : State) (v : Nat) : (s.setNow v).poison = s.poison := rfl
@[simp] theorem setNow_benchPoison (s : State) (v : Nat) : (s.setNow v).benchPoison = s.benchPoison := rfl
@[simp] theorem setNow_regs (s : State) (v : Nat) : (s.setNow v).regs = s.regs := rfl
@[simp] theorem setNow_trays (s : State) (v : Nat) : (s.setNow v).trays = s.trays := rfl
@[simp] theorem setNow_barriers (s : State) (v : Nat) : (s.setNow v).barriers = s.barriers := rfl
@[simp] theorem setNow_queues (s : State) (v : Nat) : (s.setNow v).queues = s.queues := rfl
@[simp] theorem setNow_cores (s : State) (v : Nat) : (s.setNow v).cores = s.cores := rfl
@[simp] theorem setNow_mmu (s : State) (v : Nat) : (s.setNow v).mmu = s.mmu := rfl
@[simp] theorem setNow_larder (s : State) (v : Nat) : (s.setNow v).larder = s.larder := rfl
@[simp] theorem setNow_arbs (s : State) (v : Nat) : (s.setNow v).arbs = s.arbs := rfl
@[simp] theorem setNow_power (s : State) (v : Nat) : (s.setNow v).power = s.power := rfl
@[simp] theorem setNow_errLog (s : State) (v : Nat) : (s.setNow v).errLog = s.errLog := rfl
@[simp] theorem setNow_planted (s : State) (v : Nat) : (s.setNow v).planted = s.planted := rfl
@[simp] theorem setNow_stop (s : State) (v : Nat) : (s.setNow v).stop = s.stop := rfl
@[simp] theorem setNow_scrubbing (s : State) (v : Nat) : (s.setNow v).scrubbing = s.scrubbing := rfl
@[simp] theorem setNow_trained (s : State) (v : Nat) : (s.setNow v).trained = s.trained := rfl
@[simp] theorem setNow_host (s : State) (v : Nat) : (s.setNow v).host = s.host := rfl
@[simp] theorem setNow_staon (s : State) (v : Nat) : (s.setNow v).staon = s.staon := rfl
@[simp] theorem setNow_hearth (s : State) (v : Nat) : (s.setNow v).hearth = s.hearth := rfl
@[simp] theorem setNow_modhw (s : State) (v : Nat) : (s.setNow v).modhw = s.modhw := rfl
@[simp] theorem setNow_serial (s : State) (v : Nat) : (s.setNow v).serial = s.serial := rfl
@[simp] theorem setNow_hostTx (s : State) (v : Nat) : (s.setNow v).hostTx = s.hostTx := rfl

@[simp] theorem setOrd_pending (s : State) (v : Nat) : (s.setOrd v).pending = s.pending := rfl
@[simp] theorem setOrd_now (s : State) (v : Nat) : (s.setOrd v).now = s.now := rfl
@[simp] theorem setOrd_ord (s : State) (v : Nat) : (s.setOrd v).ord = v := rfl
@[simp] theorem setOrd_free (s : State) (v : Nat) : (s.setOrd v).free = s.free := rfl
@[simp] theorem setOrd_part (s : State) (v : Nat) : (s.setOrd v).part = s.part := rfl
@[simp] theorem setOrd_mem (s : State) (v : Nat) : (s.setOrd v).mem = s.mem := rfl
@[simp] theorem setOrd_poison (s : State) (v : Nat) : (s.setOrd v).poison = s.poison := rfl
@[simp] theorem setOrd_benchPoison (s : State) (v : Nat) : (s.setOrd v).benchPoison = s.benchPoison := rfl
@[simp] theorem setOrd_regs (s : State) (v : Nat) : (s.setOrd v).regs = s.regs := rfl
@[simp] theorem setOrd_trays (s : State) (v : Nat) : (s.setOrd v).trays = s.trays := rfl
@[simp] theorem setOrd_barriers (s : State) (v : Nat) : (s.setOrd v).barriers = s.barriers := rfl
@[simp] theorem setOrd_queues (s : State) (v : Nat) : (s.setOrd v).queues = s.queues := rfl
@[simp] theorem setOrd_cores (s : State) (v : Nat) : (s.setOrd v).cores = s.cores := rfl
@[simp] theorem setOrd_mmu (s : State) (v : Nat) : (s.setOrd v).mmu = s.mmu := rfl
@[simp] theorem setOrd_larder (s : State) (v : Nat) : (s.setOrd v).larder = s.larder := rfl
@[simp] theorem setOrd_arbs (s : State) (v : Nat) : (s.setOrd v).arbs = s.arbs := rfl
@[simp] theorem setOrd_power (s : State) (v : Nat) : (s.setOrd v).power = s.power := rfl
@[simp] theorem setOrd_errLog (s : State) (v : Nat) : (s.setOrd v).errLog = s.errLog := rfl
@[simp] theorem setOrd_planted (s : State) (v : Nat) : (s.setOrd v).planted = s.planted := rfl
@[simp] theorem setOrd_stop (s : State) (v : Nat) : (s.setOrd v).stop = s.stop := rfl
@[simp] theorem setOrd_scrubbing (s : State) (v : Nat) : (s.setOrd v).scrubbing = s.scrubbing := rfl
@[simp] theorem setOrd_trained (s : State) (v : Nat) : (s.setOrd v).trained = s.trained := rfl
@[simp] theorem setOrd_host (s : State) (v : Nat) : (s.setOrd v).host = s.host := rfl
@[simp] theorem setOrd_staon (s : State) (v : Nat) : (s.setOrd v).staon = s.staon := rfl
@[simp] theorem setOrd_hearth (s : State) (v : Nat) : (s.setOrd v).hearth = s.hearth := rfl
@[simp] theorem setOrd_modhw (s : State) (v : Nat) : (s.setOrd v).modhw = s.modhw := rfl
@[simp] theorem setOrd_serial (s : State) (v : Nat) : (s.setOrd v).serial = s.serial := rfl
@[simp] theorem setOrd_hostTx (s : State) (v : Nat) : (s.setOrd v).hostTx = s.hostTx := rfl

@[simp] theorem setFree_pending (s : State) (v : Nat) : (s.setFree v).pending = s.pending := rfl
@[simp] theorem setFree_now (s : State) (v : Nat) : (s.setFree v).now = s.now := rfl
@[simp] theorem setFree_ord (s : State) (v : Nat) : (s.setFree v).ord = s.ord := rfl
@[simp] theorem setFree_free (s : State) (v : Nat) : (s.setFree v).free = v := rfl
@[simp] theorem setFree_part (s : State) (v : Nat) : (s.setFree v).part = s.part := rfl
@[simp] theorem setFree_mem (s : State) (v : Nat) : (s.setFree v).mem = s.mem := rfl
@[simp] theorem setFree_poison (s : State) (v : Nat) : (s.setFree v).poison = s.poison := rfl
@[simp] theorem setFree_benchPoison (s : State) (v : Nat) : (s.setFree v).benchPoison = s.benchPoison := rfl
@[simp] theorem setFree_regs (s : State) (v : Nat) : (s.setFree v).regs = s.regs := rfl
@[simp] theorem setFree_trays (s : State) (v : Nat) : (s.setFree v).trays = s.trays := rfl
@[simp] theorem setFree_barriers (s : State) (v : Nat) : (s.setFree v).barriers = s.barriers := rfl
@[simp] theorem setFree_queues (s : State) (v : Nat) : (s.setFree v).queues = s.queues := rfl
@[simp] theorem setFree_cores (s : State) (v : Nat) : (s.setFree v).cores = s.cores := rfl
@[simp] theorem setFree_mmu (s : State) (v : Nat) : (s.setFree v).mmu = s.mmu := rfl
@[simp] theorem setFree_larder (s : State) (v : Nat) : (s.setFree v).larder = s.larder := rfl
@[simp] theorem setFree_arbs (s : State) (v : Nat) : (s.setFree v).arbs = s.arbs := rfl
@[simp] theorem setFree_power (s : State) (v : Nat) : (s.setFree v).power = s.power := rfl
@[simp] theorem setFree_errLog (s : State) (v : Nat) : (s.setFree v).errLog = s.errLog := rfl
@[simp] theorem setFree_planted (s : State) (v : Nat) : (s.setFree v).planted = s.planted := rfl
@[simp] theorem setFree_stop (s : State) (v : Nat) : (s.setFree v).stop = s.stop := rfl
@[simp] theorem setFree_scrubbing (s : State) (v : Nat) : (s.setFree v).scrubbing = s.scrubbing := rfl
@[simp] theorem setFree_trained (s : State) (v : Nat) : (s.setFree v).trained = s.trained := rfl
@[simp] theorem setFree_host (s : State) (v : Nat) : (s.setFree v).host = s.host := rfl
@[simp] theorem setFree_staon (s : State) (v : Nat) : (s.setFree v).staon = s.staon := rfl
@[simp] theorem setFree_hearth (s : State) (v : Nat) : (s.setFree v).hearth = s.hearth := rfl
@[simp] theorem setFree_modhw (s : State) (v : Nat) : (s.setFree v).modhw = s.modhw := rfl
@[simp] theorem setFree_serial (s : State) (v : Nat) : (s.setFree v).serial = s.serial := rfl
@[simp] theorem setFree_hostTx (s : State) (v : Nat) : (s.setFree v).hostTx = s.hostTx := rfl

@[simp] theorem setMem_pending (s : State) (v : Tab Byte) : (s.setMem v).pending = s.pending := rfl
@[simp] theorem setMem_now (s : State) (v : Tab Byte) : (s.setMem v).now = s.now := rfl
@[simp] theorem setMem_ord (s : State) (v : Tab Byte) : (s.setMem v).ord = s.ord := rfl
@[simp] theorem setMem_free (s : State) (v : Tab Byte) : (s.setMem v).free = s.free := rfl
@[simp] theorem setMem_part (s : State) (v : Tab Byte) : (s.setMem v).part = s.part := rfl
@[simp] theorem setMem_mem (s : State) (v : Tab Byte) : (s.setMem v).mem = v := rfl
@[simp] theorem setMem_poison (s : State) (v : Tab Byte) : (s.setMem v).poison = s.poison := rfl
@[simp] theorem setMem_benchPoison (s : State) (v : Tab Byte) : (s.setMem v).benchPoison = s.benchPoison := rfl
@[simp] theorem setMem_regs (s : State) (v : Tab Byte) : (s.setMem v).regs = s.regs := rfl
@[simp] theorem setMem_trays (s : State) (v : Tab Byte) : (s.setMem v).trays = s.trays := rfl
@[simp] theorem setMem_barriers (s : State) (v : Tab Byte) : (s.setMem v).barriers = s.barriers := rfl
@[simp] theorem setMem_queues (s : State) (v : Tab Byte) : (s.setMem v).queues = s.queues := rfl
@[simp] theorem setMem_cores (s : State) (v : Tab Byte) : (s.setMem v).cores = s.cores := rfl
@[simp] theorem setMem_mmu (s : State) (v : Tab Byte) : (s.setMem v).mmu = s.mmu := rfl
@[simp] theorem setMem_larder (s : State) (v : Tab Byte) : (s.setMem v).larder = s.larder := rfl
@[simp] theorem setMem_arbs (s : State) (v : Tab Byte) : (s.setMem v).arbs = s.arbs := rfl
@[simp] theorem setMem_power (s : State) (v : Tab Byte) : (s.setMem v).power = s.power := rfl
@[simp] theorem setMem_errLog (s : State) (v : Tab Byte) : (s.setMem v).errLog = s.errLog := rfl
@[simp] theorem setMem_planted (s : State) (v : Tab Byte) : (s.setMem v).planted = s.planted := rfl
@[simp] theorem setMem_stop (s : State) (v : Tab Byte) : (s.setMem v).stop = s.stop := rfl
@[simp] theorem setMem_scrubbing (s : State) (v : Tab Byte) : (s.setMem v).scrubbing = s.scrubbing := rfl
@[simp] theorem setMem_trained (s : State) (v : Tab Byte) : (s.setMem v).trained = s.trained := rfl
@[simp] theorem setMem_host (s : State) (v : Tab Byte) : (s.setMem v).host = s.host := rfl
@[simp] theorem setMem_staon (s : State) (v : Tab Byte) : (s.setMem v).staon = s.staon := rfl
@[simp] theorem setMem_hearth (s : State) (v : Tab Byte) : (s.setMem v).hearth = s.hearth := rfl
@[simp] theorem setMem_modhw (s : State) (v : Tab Byte) : (s.setMem v).modhw = s.modhw := rfl
@[simp] theorem setMem_serial (s : State) (v : Tab Byte) : (s.setMem v).serial = s.serial := rfl
@[simp] theorem setMem_hostTx (s : State) (v : Tab Byte) : (s.setMem v).hostTx = s.hostTx := rfl

@[simp] theorem setPoison_pending (s : State) (v : Tab Bool) : (s.setPoison v).pending = s.pending := rfl
@[simp] theorem setPoison_now (s : State) (v : Tab Bool) : (s.setPoison v).now = s.now := rfl
@[simp] theorem setPoison_ord (s : State) (v : Tab Bool) : (s.setPoison v).ord = s.ord := rfl
@[simp] theorem setPoison_free (s : State) (v : Tab Bool) : (s.setPoison v).free = s.free := rfl
@[simp] theorem setPoison_part (s : State) (v : Tab Bool) : (s.setPoison v).part = s.part := rfl
@[simp] theorem setPoison_mem (s : State) (v : Tab Bool) : (s.setPoison v).mem = s.mem := rfl
@[simp] theorem setPoison_poison (s : State) (v : Tab Bool) : (s.setPoison v).poison = v := rfl
@[simp] theorem setPoison_benchPoison (s : State) (v : Tab Bool) : (s.setPoison v).benchPoison = s.benchPoison := rfl
@[simp] theorem setPoison_regs (s : State) (v : Tab Bool) : (s.setPoison v).regs = s.regs := rfl
@[simp] theorem setPoison_trays (s : State) (v : Tab Bool) : (s.setPoison v).trays = s.trays := rfl
@[simp] theorem setPoison_barriers (s : State) (v : Tab Bool) : (s.setPoison v).barriers = s.barriers := rfl
@[simp] theorem setPoison_queues (s : State) (v : Tab Bool) : (s.setPoison v).queues = s.queues := rfl
@[simp] theorem setPoison_cores (s : State) (v : Tab Bool) : (s.setPoison v).cores = s.cores := rfl
@[simp] theorem setPoison_mmu (s : State) (v : Tab Bool) : (s.setPoison v).mmu = s.mmu := rfl
@[simp] theorem setPoison_larder (s : State) (v : Tab Bool) : (s.setPoison v).larder = s.larder := rfl
@[simp] theorem setPoison_arbs (s : State) (v : Tab Bool) : (s.setPoison v).arbs = s.arbs := rfl
@[simp] theorem setPoison_power (s : State) (v : Tab Bool) : (s.setPoison v).power = s.power := rfl
@[simp] theorem setPoison_errLog (s : State) (v : Tab Bool) : (s.setPoison v).errLog = s.errLog := rfl
@[simp] theorem setPoison_planted (s : State) (v : Tab Bool) : (s.setPoison v).planted = s.planted := rfl
@[simp] theorem setPoison_stop (s : State) (v : Tab Bool) : (s.setPoison v).stop = s.stop := rfl
@[simp] theorem setPoison_scrubbing (s : State) (v : Tab Bool) : (s.setPoison v).scrubbing = s.scrubbing := rfl
@[simp] theorem setPoison_trained (s : State) (v : Tab Bool) : (s.setPoison v).trained = s.trained := rfl
@[simp] theorem setPoison_host (s : State) (v : Tab Bool) : (s.setPoison v).host = s.host := rfl
@[simp] theorem setPoison_staon (s : State) (v : Tab Bool) : (s.setPoison v).staon = s.staon := rfl
@[simp] theorem setPoison_hearth (s : State) (v : Tab Bool) : (s.setPoison v).hearth = s.hearth := rfl
@[simp] theorem setPoison_modhw (s : State) (v : Tab Bool) : (s.setPoison v).modhw = s.modhw := rfl
@[simp] theorem setPoison_serial (s : State) (v : Tab Bool) : (s.setPoison v).serial = s.serial := rfl
@[simp] theorem setPoison_hostTx (s : State) (v : Tab Bool) : (s.setPoison v).hostTx = s.hostTx := rfl

@[simp] theorem setBenchPoison_pending (s : State) (v : Tab Bool) : (s.setBenchPoison v).pending = s.pending := rfl
@[simp] theorem setBenchPoison_now (s : State) (v : Tab Bool) : (s.setBenchPoison v).now = s.now := rfl
@[simp] theorem setBenchPoison_ord (s : State) (v : Tab Bool) : (s.setBenchPoison v).ord = s.ord := rfl
@[simp] theorem setBenchPoison_free (s : State) (v : Tab Bool) : (s.setBenchPoison v).free = s.free := rfl
@[simp] theorem setBenchPoison_part (s : State) (v : Tab Bool) : (s.setBenchPoison v).part = s.part := rfl
@[simp] theorem setBenchPoison_mem (s : State) (v : Tab Bool) : (s.setBenchPoison v).mem = s.mem := rfl
@[simp] theorem setBenchPoison_poison (s : State) (v : Tab Bool) : (s.setBenchPoison v).poison = s.poison := rfl
@[simp] theorem setBenchPoison_benchPoison (s : State) (v : Tab Bool) : (s.setBenchPoison v).benchPoison = v := rfl
@[simp] theorem setBenchPoison_regs (s : State) (v : Tab Bool) : (s.setBenchPoison v).regs = s.regs := rfl
@[simp] theorem setBenchPoison_trays (s : State) (v : Tab Bool) : (s.setBenchPoison v).trays = s.trays := rfl
@[simp] theorem setBenchPoison_barriers (s : State) (v : Tab Bool) : (s.setBenchPoison v).barriers = s.barriers := rfl
@[simp] theorem setBenchPoison_queues (s : State) (v : Tab Bool) : (s.setBenchPoison v).queues = s.queues := rfl
@[simp] theorem setBenchPoison_cores (s : State) (v : Tab Bool) : (s.setBenchPoison v).cores = s.cores := rfl
@[simp] theorem setBenchPoison_mmu (s : State) (v : Tab Bool) : (s.setBenchPoison v).mmu = s.mmu := rfl
@[simp] theorem setBenchPoison_larder (s : State) (v : Tab Bool) : (s.setBenchPoison v).larder = s.larder := rfl
@[simp] theorem setBenchPoison_arbs (s : State) (v : Tab Bool) : (s.setBenchPoison v).arbs = s.arbs := rfl
@[simp] theorem setBenchPoison_power (s : State) (v : Tab Bool) : (s.setBenchPoison v).power = s.power := rfl
@[simp] theorem setBenchPoison_errLog (s : State) (v : Tab Bool) : (s.setBenchPoison v).errLog = s.errLog := rfl
@[simp] theorem setBenchPoison_planted (s : State) (v : Tab Bool) : (s.setBenchPoison v).planted = s.planted := rfl
@[simp] theorem setBenchPoison_stop (s : State) (v : Tab Bool) : (s.setBenchPoison v).stop = s.stop := rfl
@[simp] theorem setBenchPoison_scrubbing (s : State) (v : Tab Bool) : (s.setBenchPoison v).scrubbing = s.scrubbing := rfl
@[simp] theorem setBenchPoison_trained (s : State) (v : Tab Bool) : (s.setBenchPoison v).trained = s.trained := rfl
@[simp] theorem setBenchPoison_host (s : State) (v : Tab Bool) : (s.setBenchPoison v).host = s.host := rfl
@[simp] theorem setBenchPoison_staon (s : State) (v : Tab Bool) : (s.setBenchPoison v).staon = s.staon := rfl
@[simp] theorem setBenchPoison_hearth (s : State) (v : Tab Bool) : (s.setBenchPoison v).hearth = s.hearth := rfl
@[simp] theorem setBenchPoison_modhw (s : State) (v : Tab Bool) : (s.setBenchPoison v).modhw = s.modhw := rfl
@[simp] theorem setBenchPoison_serial (s : State) (v : Tab Bool) : (s.setBenchPoison v).serial = s.serial := rfl
@[simp] theorem setBenchPoison_hostTx (s : State) (v : Tab Bool) : (s.setBenchPoison v).hostTx = s.hostTx := rfl

@[simp] theorem setRegs_pending (s : State) (v : Tab Reg) : (s.setRegs v).pending = s.pending := rfl
@[simp] theorem setRegs_now (s : State) (v : Tab Reg) : (s.setRegs v).now = s.now := rfl
@[simp] theorem setRegs_ord (s : State) (v : Tab Reg) : (s.setRegs v).ord = s.ord := rfl
@[simp] theorem setRegs_free (s : State) (v : Tab Reg) : (s.setRegs v).free = s.free := rfl
@[simp] theorem setRegs_part (s : State) (v : Tab Reg) : (s.setRegs v).part = s.part := rfl
@[simp] theorem setRegs_mem (s : State) (v : Tab Reg) : (s.setRegs v).mem = s.mem := rfl
@[simp] theorem setRegs_poison (s : State) (v : Tab Reg) : (s.setRegs v).poison = s.poison := rfl
@[simp] theorem setRegs_benchPoison (s : State) (v : Tab Reg) : (s.setRegs v).benchPoison = s.benchPoison := rfl
@[simp] theorem setRegs_regs (s : State) (v : Tab Reg) : (s.setRegs v).regs = v := rfl
@[simp] theorem setRegs_trays (s : State) (v : Tab Reg) : (s.setRegs v).trays = s.trays := rfl
@[simp] theorem setRegs_barriers (s : State) (v : Tab Reg) : (s.setRegs v).barriers = s.barriers := rfl
@[simp] theorem setRegs_queues (s : State) (v : Tab Reg) : (s.setRegs v).queues = s.queues := rfl
@[simp] theorem setRegs_cores (s : State) (v : Tab Reg) : (s.setRegs v).cores = s.cores := rfl
@[simp] theorem setRegs_mmu (s : State) (v : Tab Reg) : (s.setRegs v).mmu = s.mmu := rfl
@[simp] theorem setRegs_larder (s : State) (v : Tab Reg) : (s.setRegs v).larder = s.larder := rfl
@[simp] theorem setRegs_arbs (s : State) (v : Tab Reg) : (s.setRegs v).arbs = s.arbs := rfl
@[simp] theorem setRegs_power (s : State) (v : Tab Reg) : (s.setRegs v).power = s.power := rfl
@[simp] theorem setRegs_errLog (s : State) (v : Tab Reg) : (s.setRegs v).errLog = s.errLog := rfl
@[simp] theorem setRegs_planted (s : State) (v : Tab Reg) : (s.setRegs v).planted = s.planted := rfl
@[simp] theorem setRegs_stop (s : State) (v : Tab Reg) : (s.setRegs v).stop = s.stop := rfl
@[simp] theorem setRegs_scrubbing (s : State) (v : Tab Reg) : (s.setRegs v).scrubbing = s.scrubbing := rfl
@[simp] theorem setRegs_trained (s : State) (v : Tab Reg) : (s.setRegs v).trained = s.trained := rfl
@[simp] theorem setRegs_host (s : State) (v : Tab Reg) : (s.setRegs v).host = s.host := rfl
@[simp] theorem setRegs_staon (s : State) (v : Tab Reg) : (s.setRegs v).staon = s.staon := rfl
@[simp] theorem setRegs_hearth (s : State) (v : Tab Reg) : (s.setRegs v).hearth = s.hearth := rfl
@[simp] theorem setRegs_modhw (s : State) (v : Tab Reg) : (s.setRegs v).modhw = s.modhw := rfl
@[simp] theorem setRegs_serial (s : State) (v : Tab Reg) : (s.setRegs v).serial = s.serial := rfl
@[simp] theorem setRegs_hostTx (s : State) (v : Tab Reg) : (s.setRegs v).hostTx = s.hostTx := rfl

@[simp] theorem setTrays_pending (s : State) (v : Vector Tray 32) : (s.setTrays v).pending = s.pending := rfl
@[simp] theorem setTrays_now (s : State) (v : Vector Tray 32) : (s.setTrays v).now = s.now := rfl
@[simp] theorem setTrays_ord (s : State) (v : Vector Tray 32) : (s.setTrays v).ord = s.ord := rfl
@[simp] theorem setTrays_free (s : State) (v : Vector Tray 32) : (s.setTrays v).free = s.free := rfl
@[simp] theorem setTrays_part (s : State) (v : Vector Tray 32) : (s.setTrays v).part = s.part := rfl
@[simp] theorem setTrays_mem (s : State) (v : Vector Tray 32) : (s.setTrays v).mem = s.mem := rfl
@[simp] theorem setTrays_poison (s : State) (v : Vector Tray 32) : (s.setTrays v).poison = s.poison := rfl
@[simp] theorem setTrays_benchPoison (s : State) (v : Vector Tray 32) : (s.setTrays v).benchPoison = s.benchPoison := rfl
@[simp] theorem setTrays_regs (s : State) (v : Vector Tray 32) : (s.setTrays v).regs = s.regs := rfl
@[simp] theorem setTrays_trays (s : State) (v : Vector Tray 32) : (s.setTrays v).trays = v := rfl
@[simp] theorem setTrays_barriers (s : State) (v : Vector Tray 32) : (s.setTrays v).barriers = s.barriers := rfl
@[simp] theorem setTrays_queues (s : State) (v : Vector Tray 32) : (s.setTrays v).queues = s.queues := rfl
@[simp] theorem setTrays_cores (s : State) (v : Vector Tray 32) : (s.setTrays v).cores = s.cores := rfl
@[simp] theorem setTrays_mmu (s : State) (v : Vector Tray 32) : (s.setTrays v).mmu = s.mmu := rfl
@[simp] theorem setTrays_larder (s : State) (v : Vector Tray 32) : (s.setTrays v).larder = s.larder := rfl
@[simp] theorem setTrays_arbs (s : State) (v : Vector Tray 32) : (s.setTrays v).arbs = s.arbs := rfl
@[simp] theorem setTrays_power (s : State) (v : Vector Tray 32) : (s.setTrays v).power = s.power := rfl
@[simp] theorem setTrays_errLog (s : State) (v : Vector Tray 32) : (s.setTrays v).errLog = s.errLog := rfl
@[simp] theorem setTrays_planted (s : State) (v : Vector Tray 32) : (s.setTrays v).planted = s.planted := rfl
@[simp] theorem setTrays_stop (s : State) (v : Vector Tray 32) : (s.setTrays v).stop = s.stop := rfl
@[simp] theorem setTrays_scrubbing (s : State) (v : Vector Tray 32) : (s.setTrays v).scrubbing = s.scrubbing := rfl
@[simp] theorem setTrays_trained (s : State) (v : Vector Tray 32) : (s.setTrays v).trained = s.trained := rfl
@[simp] theorem setTrays_host (s : State) (v : Vector Tray 32) : (s.setTrays v).host = s.host := rfl
@[simp] theorem setTrays_staon (s : State) (v : Vector Tray 32) : (s.setTrays v).staon = s.staon := rfl
@[simp] theorem setTrays_hearth (s : State) (v : Vector Tray 32) : (s.setTrays v).hearth = s.hearth := rfl
@[simp] theorem setTrays_modhw (s : State) (v : Vector Tray 32) : (s.setTrays v).modhw = s.modhw := rfl
@[simp] theorem setTrays_serial (s : State) (v : Vector Tray 32) : (s.setTrays v).serial = s.serial := rfl
@[simp] theorem setTrays_hostTx (s : State) (v : Vector Tray 32) : (s.setTrays v).hostTx = s.hostTx := rfl

@[simp] theorem setBarriers_pending (s : State) (v : Vector Barrier 16) : (s.setBarriers v).pending = s.pending := rfl
@[simp] theorem setBarriers_now (s : State) (v : Vector Barrier 16) : (s.setBarriers v).now = s.now := rfl
@[simp] theorem setBarriers_ord (s : State) (v : Vector Barrier 16) : (s.setBarriers v).ord = s.ord := rfl
@[simp] theorem setBarriers_free (s : State) (v : Vector Barrier 16) : (s.setBarriers v).free = s.free := rfl
@[simp] theorem setBarriers_part (s : State) (v : Vector Barrier 16) : (s.setBarriers v).part = s.part := rfl
@[simp] theorem setBarriers_mem (s : State) (v : Vector Barrier 16) : (s.setBarriers v).mem = s.mem := rfl
@[simp] theorem setBarriers_poison (s : State) (v : Vector Barrier 16) : (s.setBarriers v).poison = s.poison := rfl
@[simp] theorem setBarriers_benchPoison (s : State) (v : Vector Barrier 16) : (s.setBarriers v).benchPoison = s.benchPoison := rfl
@[simp] theorem setBarriers_regs (s : State) (v : Vector Barrier 16) : (s.setBarriers v).regs = s.regs := rfl
@[simp] theorem setBarriers_trays (s : State) (v : Vector Barrier 16) : (s.setBarriers v).trays = s.trays := rfl
@[simp] theorem setBarriers_barriers (s : State) (v : Vector Barrier 16) : (s.setBarriers v).barriers = v := rfl
@[simp] theorem setBarriers_queues (s : State) (v : Vector Barrier 16) : (s.setBarriers v).queues = s.queues := rfl
@[simp] theorem setBarriers_cores (s : State) (v : Vector Barrier 16) : (s.setBarriers v).cores = s.cores := rfl
@[simp] theorem setBarriers_mmu (s : State) (v : Vector Barrier 16) : (s.setBarriers v).mmu = s.mmu := rfl
@[simp] theorem setBarriers_larder (s : State) (v : Vector Barrier 16) : (s.setBarriers v).larder = s.larder := rfl
@[simp] theorem setBarriers_arbs (s : State) (v : Vector Barrier 16) : (s.setBarriers v).arbs = s.arbs := rfl
@[simp] theorem setBarriers_power (s : State) (v : Vector Barrier 16) : (s.setBarriers v).power = s.power := rfl
@[simp] theorem setBarriers_errLog (s : State) (v : Vector Barrier 16) : (s.setBarriers v).errLog = s.errLog := rfl
@[simp] theorem setBarriers_planted (s : State) (v : Vector Barrier 16) : (s.setBarriers v).planted = s.planted := rfl
@[simp] theorem setBarriers_stop (s : State) (v : Vector Barrier 16) : (s.setBarriers v).stop = s.stop := rfl
@[simp] theorem setBarriers_scrubbing (s : State) (v : Vector Barrier 16) : (s.setBarriers v).scrubbing = s.scrubbing := rfl
@[simp] theorem setBarriers_trained (s : State) (v : Vector Barrier 16) : (s.setBarriers v).trained = s.trained := rfl
@[simp] theorem setBarriers_host (s : State) (v : Vector Barrier 16) : (s.setBarriers v).host = s.host := rfl
@[simp] theorem setBarriers_staon (s : State) (v : Vector Barrier 16) : (s.setBarriers v).staon = s.staon := rfl
@[simp] theorem setBarriers_hearth (s : State) (v : Vector Barrier 16) : (s.setBarriers v).hearth = s.hearth := rfl
@[simp] theorem setBarriers_modhw (s : State) (v : Vector Barrier 16) : (s.setBarriers v).modhw = s.modhw := rfl
@[simp] theorem setBarriers_serial (s : State) (v : Vector Barrier 16) : (s.setBarriers v).serial = s.serial := rfl
@[simp] theorem setBarriers_hostTx (s : State) (v : Vector Barrier 16) : (s.setBarriers v).hostTx = s.hostTx := rfl

@[simp] theorem setQueues_pending (s : State) (v : Vector HQueue 64) : (s.setQueues v).pending = s.pending := rfl
@[simp] theorem setQueues_now (s : State) (v : Vector HQueue 64) : (s.setQueues v).now = s.now := rfl
@[simp] theorem setQueues_ord (s : State) (v : Vector HQueue 64) : (s.setQueues v).ord = s.ord := rfl
@[simp] theorem setQueues_free (s : State) (v : Vector HQueue 64) : (s.setQueues v).free = s.free := rfl
@[simp] theorem setQueues_part (s : State) (v : Vector HQueue 64) : (s.setQueues v).part = s.part := rfl
@[simp] theorem setQueues_mem (s : State) (v : Vector HQueue 64) : (s.setQueues v).mem = s.mem := rfl
@[simp] theorem setQueues_poison (s : State) (v : Vector HQueue 64) : (s.setQueues v).poison = s.poison := rfl
@[simp] theorem setQueues_benchPoison (s : State) (v : Vector HQueue 64) : (s.setQueues v).benchPoison = s.benchPoison := rfl
@[simp] theorem setQueues_regs (s : State) (v : Vector HQueue 64) : (s.setQueues v).regs = s.regs := rfl
@[simp] theorem setQueues_trays (s : State) (v : Vector HQueue 64) : (s.setQueues v).trays = s.trays := rfl
@[simp] theorem setQueues_barriers (s : State) (v : Vector HQueue 64) : (s.setQueues v).barriers = s.barriers := rfl
@[simp] theorem setQueues_queues (s : State) (v : Vector HQueue 64) : (s.setQueues v).queues = v := rfl
@[simp] theorem setQueues_cores (s : State) (v : Vector HQueue 64) : (s.setQueues v).cores = s.cores := rfl
@[simp] theorem setQueues_mmu (s : State) (v : Vector HQueue 64) : (s.setQueues v).mmu = s.mmu := rfl
@[simp] theorem setQueues_larder (s : State) (v : Vector HQueue 64) : (s.setQueues v).larder = s.larder := rfl
@[simp] theorem setQueues_arbs (s : State) (v : Vector HQueue 64) : (s.setQueues v).arbs = s.arbs := rfl
@[simp] theorem setQueues_power (s : State) (v : Vector HQueue 64) : (s.setQueues v).power = s.power := rfl
@[simp] theorem setQueues_errLog (s : State) (v : Vector HQueue 64) : (s.setQueues v).errLog = s.errLog := rfl
@[simp] theorem setQueues_planted (s : State) (v : Vector HQueue 64) : (s.setQueues v).planted = s.planted := rfl
@[simp] theorem setQueues_stop (s : State) (v : Vector HQueue 64) : (s.setQueues v).stop = s.stop := rfl
@[simp] theorem setQueues_scrubbing (s : State) (v : Vector HQueue 64) : (s.setQueues v).scrubbing = s.scrubbing := rfl
@[simp] theorem setQueues_trained (s : State) (v : Vector HQueue 64) : (s.setQueues v).trained = s.trained := rfl
@[simp] theorem setQueues_host (s : State) (v : Vector HQueue 64) : (s.setQueues v).host = s.host := rfl
@[simp] theorem setQueues_staon (s : State) (v : Vector HQueue 64) : (s.setQueues v).staon = s.staon := rfl
@[simp] theorem setQueues_hearth (s : State) (v : Vector HQueue 64) : (s.setQueues v).hearth = s.hearth := rfl
@[simp] theorem setQueues_modhw (s : State) (v : Vector HQueue 64) : (s.setQueues v).modhw = s.modhw := rfl
@[simp] theorem setQueues_serial (s : State) (v : Vector HQueue 64) : (s.setQueues v).serial = s.serial := rfl
@[simp] theorem setQueues_hostTx (s : State) (v : Vector HQueue 64) : (s.setQueues v).hostTx = s.hostTx := rfl

@[simp] theorem setCores_pending (s : State) (v : Vector Core 4) : (s.setCores v).pending = s.pending := rfl
@[simp] theorem setCores_now (s : State) (v : Vector Core 4) : (s.setCores v).now = s.now := rfl
@[simp] theorem setCores_ord (s : State) (v : Vector Core 4) : (s.setCores v).ord = s.ord := rfl
@[simp] theorem setCores_free (s : State) (v : Vector Core 4) : (s.setCores v).free = s.free := rfl
@[simp] theorem setCores_part (s : State) (v : Vector Core 4) : (s.setCores v).part = s.part := rfl
@[simp] theorem setCores_mem (s : State) (v : Vector Core 4) : (s.setCores v).mem = s.mem := rfl
@[simp] theorem setCores_poison (s : State) (v : Vector Core 4) : (s.setCores v).poison = s.poison := rfl
@[simp] theorem setCores_benchPoison (s : State) (v : Vector Core 4) : (s.setCores v).benchPoison = s.benchPoison := rfl
@[simp] theorem setCores_regs (s : State) (v : Vector Core 4) : (s.setCores v).regs = s.regs := rfl
@[simp] theorem setCores_trays (s : State) (v : Vector Core 4) : (s.setCores v).trays = s.trays := rfl
@[simp] theorem setCores_barriers (s : State) (v : Vector Core 4) : (s.setCores v).barriers = s.barriers := rfl
@[simp] theorem setCores_queues (s : State) (v : Vector Core 4) : (s.setCores v).queues = s.queues := rfl
@[simp] theorem setCores_cores (s : State) (v : Vector Core 4) : (s.setCores v).cores = v := rfl
@[simp] theorem setCores_mmu (s : State) (v : Vector Core 4) : (s.setCores v).mmu = s.mmu := rfl
@[simp] theorem setCores_larder (s : State) (v : Vector Core 4) : (s.setCores v).larder = s.larder := rfl
@[simp] theorem setCores_arbs (s : State) (v : Vector Core 4) : (s.setCores v).arbs = s.arbs := rfl
@[simp] theorem setCores_power (s : State) (v : Vector Core 4) : (s.setCores v).power = s.power := rfl
@[simp] theorem setCores_errLog (s : State) (v : Vector Core 4) : (s.setCores v).errLog = s.errLog := rfl
@[simp] theorem setCores_planted (s : State) (v : Vector Core 4) : (s.setCores v).planted = s.planted := rfl
@[simp] theorem setCores_stop (s : State) (v : Vector Core 4) : (s.setCores v).stop = s.stop := rfl
@[simp] theorem setCores_scrubbing (s : State) (v : Vector Core 4) : (s.setCores v).scrubbing = s.scrubbing := rfl
@[simp] theorem setCores_trained (s : State) (v : Vector Core 4) : (s.setCores v).trained = s.trained := rfl
@[simp] theorem setCores_host (s : State) (v : Vector Core 4) : (s.setCores v).host = s.host := rfl
@[simp] theorem setCores_staon (s : State) (v : Vector Core 4) : (s.setCores v).staon = s.staon := rfl
@[simp] theorem setCores_hearth (s : State) (v : Vector Core 4) : (s.setCores v).hearth = s.hearth := rfl
@[simp] theorem setCores_modhw (s : State) (v : Vector Core 4) : (s.setCores v).modhw = s.modhw := rfl
@[simp] theorem setCores_serial (s : State) (v : Vector Core 4) : (s.setCores v).serial = s.serial := rfl
@[simp] theorem setCores_hostTx (s : State) (v : Vector Core 4) : (s.setCores v).hostTx = s.hostTx := rfl

@[simp] theorem setMmu_pending (s : State) (v : Mmu) : (s.setMmu v).pending = s.pending := rfl
@[simp] theorem setMmu_now (s : State) (v : Mmu) : (s.setMmu v).now = s.now := rfl
@[simp] theorem setMmu_ord (s : State) (v : Mmu) : (s.setMmu v).ord = s.ord := rfl
@[simp] theorem setMmu_free (s : State) (v : Mmu) : (s.setMmu v).free = s.free := rfl
@[simp] theorem setMmu_part (s : State) (v : Mmu) : (s.setMmu v).part = s.part := rfl
@[simp] theorem setMmu_mem (s : State) (v : Mmu) : (s.setMmu v).mem = s.mem := rfl
@[simp] theorem setMmu_poison (s : State) (v : Mmu) : (s.setMmu v).poison = s.poison := rfl
@[simp] theorem setMmu_benchPoison (s : State) (v : Mmu) : (s.setMmu v).benchPoison = s.benchPoison := rfl
@[simp] theorem setMmu_regs (s : State) (v : Mmu) : (s.setMmu v).regs = s.regs := rfl
@[simp] theorem setMmu_trays (s : State) (v : Mmu) : (s.setMmu v).trays = s.trays := rfl
@[simp] theorem setMmu_barriers (s : State) (v : Mmu) : (s.setMmu v).barriers = s.barriers := rfl
@[simp] theorem setMmu_queues (s : State) (v : Mmu) : (s.setMmu v).queues = s.queues := rfl
@[simp] theorem setMmu_cores (s : State) (v : Mmu) : (s.setMmu v).cores = s.cores := rfl
@[simp] theorem setMmu_mmu (s : State) (v : Mmu) : (s.setMmu v).mmu = v := rfl
@[simp] theorem setMmu_larder (s : State) (v : Mmu) : (s.setMmu v).larder = s.larder := rfl
@[simp] theorem setMmu_arbs (s : State) (v : Mmu) : (s.setMmu v).arbs = s.arbs := rfl
@[simp] theorem setMmu_power (s : State) (v : Mmu) : (s.setMmu v).power = s.power := rfl
@[simp] theorem setMmu_errLog (s : State) (v : Mmu) : (s.setMmu v).errLog = s.errLog := rfl
@[simp] theorem setMmu_planted (s : State) (v : Mmu) : (s.setMmu v).planted = s.planted := rfl
@[simp] theorem setMmu_stop (s : State) (v : Mmu) : (s.setMmu v).stop = s.stop := rfl
@[simp] theorem setMmu_scrubbing (s : State) (v : Mmu) : (s.setMmu v).scrubbing = s.scrubbing := rfl
@[simp] theorem setMmu_trained (s : State) (v : Mmu) : (s.setMmu v).trained = s.trained := rfl
@[simp] theorem setMmu_host (s : State) (v : Mmu) : (s.setMmu v).host = s.host := rfl
@[simp] theorem setMmu_staon (s : State) (v : Mmu) : (s.setMmu v).staon = s.staon := rfl
@[simp] theorem setMmu_hearth (s : State) (v : Mmu) : (s.setMmu v).hearth = s.hearth := rfl
@[simp] theorem setMmu_modhw (s : State) (v : Mmu) : (s.setMmu v).modhw = s.modhw := rfl
@[simp] theorem setMmu_serial (s : State) (v : Mmu) : (s.setMmu v).serial = s.serial := rfl
@[simp] theorem setMmu_hostTx (s : State) (v : Mmu) : (s.setMmu v).hostTx = s.hostTx := rfl

@[simp] theorem setLarder_pending (s : State) (v : Larder) : (s.setLarder v).pending = s.pending := rfl
@[simp] theorem setLarder_now (s : State) (v : Larder) : (s.setLarder v).now = s.now := rfl
@[simp] theorem setLarder_ord (s : State) (v : Larder) : (s.setLarder v).ord = s.ord := rfl
@[simp] theorem setLarder_free (s : State) (v : Larder) : (s.setLarder v).free = s.free := rfl
@[simp] theorem setLarder_part (s : State) (v : Larder) : (s.setLarder v).part = s.part := rfl
@[simp] theorem setLarder_mem (s : State) (v : Larder) : (s.setLarder v).mem = s.mem := rfl
@[simp] theorem setLarder_poison (s : State) (v : Larder) : (s.setLarder v).poison = s.poison := rfl
@[simp] theorem setLarder_benchPoison (s : State) (v : Larder) : (s.setLarder v).benchPoison = s.benchPoison := rfl
@[simp] theorem setLarder_regs (s : State) (v : Larder) : (s.setLarder v).regs = s.regs := rfl
@[simp] theorem setLarder_trays (s : State) (v : Larder) : (s.setLarder v).trays = s.trays := rfl
@[simp] theorem setLarder_barriers (s : State) (v : Larder) : (s.setLarder v).barriers = s.barriers := rfl
@[simp] theorem setLarder_queues (s : State) (v : Larder) : (s.setLarder v).queues = s.queues := rfl
@[simp] theorem setLarder_cores (s : State) (v : Larder) : (s.setLarder v).cores = s.cores := rfl
@[simp] theorem setLarder_mmu (s : State) (v : Larder) : (s.setLarder v).mmu = s.mmu := rfl
@[simp] theorem setLarder_larder (s : State) (v : Larder) : (s.setLarder v).larder = v := rfl
@[simp] theorem setLarder_arbs (s : State) (v : Larder) : (s.setLarder v).arbs = s.arbs := rfl
@[simp] theorem setLarder_power (s : State) (v : Larder) : (s.setLarder v).power = s.power := rfl
@[simp] theorem setLarder_errLog (s : State) (v : Larder) : (s.setLarder v).errLog = s.errLog := rfl
@[simp] theorem setLarder_planted (s : State) (v : Larder) : (s.setLarder v).planted = s.planted := rfl
@[simp] theorem setLarder_stop (s : State) (v : Larder) : (s.setLarder v).stop = s.stop := rfl
@[simp] theorem setLarder_scrubbing (s : State) (v : Larder) : (s.setLarder v).scrubbing = s.scrubbing := rfl
@[simp] theorem setLarder_trained (s : State) (v : Larder) : (s.setLarder v).trained = s.trained := rfl
@[simp] theorem setLarder_host (s : State) (v : Larder) : (s.setLarder v).host = s.host := rfl
@[simp] theorem setLarder_staon (s : State) (v : Larder) : (s.setLarder v).staon = s.staon := rfl
@[simp] theorem setLarder_hearth (s : State) (v : Larder) : (s.setLarder v).hearth = s.hearth := rfl
@[simp] theorem setLarder_modhw (s : State) (v : Larder) : (s.setLarder v).modhw = s.modhw := rfl
@[simp] theorem setLarder_serial (s : State) (v : Larder) : (s.setLarder v).serial = s.serial := rfl
@[simp] theorem setLarder_hostTx (s : State) (v : Larder) : (s.setLarder v).hostTx = s.hostTx := rfl

@[simp] theorem setArbs_pending (s : State) (v : List Arbiter) : (s.setArbs v).pending = s.pending := rfl
@[simp] theorem setArbs_now (s : State) (v : List Arbiter) : (s.setArbs v).now = s.now := rfl
@[simp] theorem setArbs_ord (s : State) (v : List Arbiter) : (s.setArbs v).ord = s.ord := rfl
@[simp] theorem setArbs_free (s : State) (v : List Arbiter) : (s.setArbs v).free = s.free := rfl
@[simp] theorem setArbs_part (s : State) (v : List Arbiter) : (s.setArbs v).part = s.part := rfl
@[simp] theorem setArbs_mem (s : State) (v : List Arbiter) : (s.setArbs v).mem = s.mem := rfl
@[simp] theorem setArbs_poison (s : State) (v : List Arbiter) : (s.setArbs v).poison = s.poison := rfl
@[simp] theorem setArbs_benchPoison (s : State) (v : List Arbiter) : (s.setArbs v).benchPoison = s.benchPoison := rfl
@[simp] theorem setArbs_regs (s : State) (v : List Arbiter) : (s.setArbs v).regs = s.regs := rfl
@[simp] theorem setArbs_trays (s : State) (v : List Arbiter) : (s.setArbs v).trays = s.trays := rfl
@[simp] theorem setArbs_barriers (s : State) (v : List Arbiter) : (s.setArbs v).barriers = s.barriers := rfl
@[simp] theorem setArbs_queues (s : State) (v : List Arbiter) : (s.setArbs v).queues = s.queues := rfl
@[simp] theorem setArbs_cores (s : State) (v : List Arbiter) : (s.setArbs v).cores = s.cores := rfl
@[simp] theorem setArbs_mmu (s : State) (v : List Arbiter) : (s.setArbs v).mmu = s.mmu := rfl
@[simp] theorem setArbs_larder (s : State) (v : List Arbiter) : (s.setArbs v).larder = s.larder := rfl
@[simp] theorem setArbs_arbs (s : State) (v : List Arbiter) : (s.setArbs v).arbs = v := rfl
@[simp] theorem setArbs_power (s : State) (v : List Arbiter) : (s.setArbs v).power = s.power := rfl
@[simp] theorem setArbs_errLog (s : State) (v : List Arbiter) : (s.setArbs v).errLog = s.errLog := rfl
@[simp] theorem setArbs_planted (s : State) (v : List Arbiter) : (s.setArbs v).planted = s.planted := rfl
@[simp] theorem setArbs_stop (s : State) (v : List Arbiter) : (s.setArbs v).stop = s.stop := rfl
@[simp] theorem setArbs_scrubbing (s : State) (v : List Arbiter) : (s.setArbs v).scrubbing = s.scrubbing := rfl
@[simp] theorem setArbs_trained (s : State) (v : List Arbiter) : (s.setArbs v).trained = s.trained := rfl
@[simp] theorem setArbs_host (s : State) (v : List Arbiter) : (s.setArbs v).host = s.host := rfl
@[simp] theorem setArbs_staon (s : State) (v : List Arbiter) : (s.setArbs v).staon = s.staon := rfl
@[simp] theorem setArbs_hearth (s : State) (v : List Arbiter) : (s.setArbs v).hearth = s.hearth := rfl
@[simp] theorem setArbs_modhw (s : State) (v : List Arbiter) : (s.setArbs v).modhw = s.modhw := rfl
@[simp] theorem setArbs_serial (s : State) (v : List Arbiter) : (s.setArbs v).serial = s.serial := rfl
@[simp] theorem setArbs_hostTx (s : State) (v : List Arbiter) : (s.setArbs v).hostTx = s.hostTx := rfl

@[simp] theorem setPower_pending (s : State) (v : Power) : (s.setPower v).pending = s.pending := rfl
@[simp] theorem setPower_now (s : State) (v : Power) : (s.setPower v).now = s.now := rfl
@[simp] theorem setPower_ord (s : State) (v : Power) : (s.setPower v).ord = s.ord := rfl
@[simp] theorem setPower_free (s : State) (v : Power) : (s.setPower v).free = s.free := rfl
@[simp] theorem setPower_part (s : State) (v : Power) : (s.setPower v).part = s.part := rfl
@[simp] theorem setPower_mem (s : State) (v : Power) : (s.setPower v).mem = s.mem := rfl
@[simp] theorem setPower_poison (s : State) (v : Power) : (s.setPower v).poison = s.poison := rfl
@[simp] theorem setPower_benchPoison (s : State) (v : Power) : (s.setPower v).benchPoison = s.benchPoison := rfl
@[simp] theorem setPower_regs (s : State) (v : Power) : (s.setPower v).regs = s.regs := rfl
@[simp] theorem setPower_trays (s : State) (v : Power) : (s.setPower v).trays = s.trays := rfl
@[simp] theorem setPower_barriers (s : State) (v : Power) : (s.setPower v).barriers = s.barriers := rfl
@[simp] theorem setPower_queues (s : State) (v : Power) : (s.setPower v).queues = s.queues := rfl
@[simp] theorem setPower_cores (s : State) (v : Power) : (s.setPower v).cores = s.cores := rfl
@[simp] theorem setPower_mmu (s : State) (v : Power) : (s.setPower v).mmu = s.mmu := rfl
@[simp] theorem setPower_larder (s : State) (v : Power) : (s.setPower v).larder = s.larder := rfl
@[simp] theorem setPower_arbs (s : State) (v : Power) : (s.setPower v).arbs = s.arbs := rfl
@[simp] theorem setPower_power (s : State) (v : Power) : (s.setPower v).power = v := rfl
@[simp] theorem setPower_errLog (s : State) (v : Power) : (s.setPower v).errLog = s.errLog := rfl
@[simp] theorem setPower_planted (s : State) (v : Power) : (s.setPower v).planted = s.planted := rfl
@[simp] theorem setPower_stop (s : State) (v : Power) : (s.setPower v).stop = s.stop := rfl
@[simp] theorem setPower_scrubbing (s : State) (v : Power) : (s.setPower v).scrubbing = s.scrubbing := rfl
@[simp] theorem setPower_trained (s : State) (v : Power) : (s.setPower v).trained = s.trained := rfl
@[simp] theorem setPower_host (s : State) (v : Power) : (s.setPower v).host = s.host := rfl
@[simp] theorem setPower_staon (s : State) (v : Power) : (s.setPower v).staon = s.staon := rfl
@[simp] theorem setPower_hearth (s : State) (v : Power) : (s.setPower v).hearth = s.hearth := rfl
@[simp] theorem setPower_modhw (s : State) (v : Power) : (s.setPower v).modhw = s.modhw := rfl
@[simp] theorem setPower_serial (s : State) (v : Power) : (s.setPower v).serial = s.serial := rfl
@[simp] theorem setPower_hostTx (s : State) (v : Power) : (s.setPower v).hostTx = s.hostTx := rfl

@[simp] theorem setErrLog_pending (s : State) (v : List ErrEntry) : (s.setErrLog v).pending = s.pending := rfl
@[simp] theorem setErrLog_now (s : State) (v : List ErrEntry) : (s.setErrLog v).now = s.now := rfl
@[simp] theorem setErrLog_ord (s : State) (v : List ErrEntry) : (s.setErrLog v).ord = s.ord := rfl
@[simp] theorem setErrLog_free (s : State) (v : List ErrEntry) : (s.setErrLog v).free = s.free := rfl
@[simp] theorem setErrLog_part (s : State) (v : List ErrEntry) : (s.setErrLog v).part = s.part := rfl
@[simp] theorem setErrLog_mem (s : State) (v : List ErrEntry) : (s.setErrLog v).mem = s.mem := rfl
@[simp] theorem setErrLog_poison (s : State) (v : List ErrEntry) : (s.setErrLog v).poison = s.poison := rfl
@[simp] theorem setErrLog_benchPoison (s : State) (v : List ErrEntry) : (s.setErrLog v).benchPoison = s.benchPoison := rfl
@[simp] theorem setErrLog_regs (s : State) (v : List ErrEntry) : (s.setErrLog v).regs = s.regs := rfl
@[simp] theorem setErrLog_trays (s : State) (v : List ErrEntry) : (s.setErrLog v).trays = s.trays := rfl
@[simp] theorem setErrLog_barriers (s : State) (v : List ErrEntry) : (s.setErrLog v).barriers = s.barriers := rfl
@[simp] theorem setErrLog_queues (s : State) (v : List ErrEntry) : (s.setErrLog v).queues = s.queues := rfl
@[simp] theorem setErrLog_cores (s : State) (v : List ErrEntry) : (s.setErrLog v).cores = s.cores := rfl
@[simp] theorem setErrLog_mmu (s : State) (v : List ErrEntry) : (s.setErrLog v).mmu = s.mmu := rfl
@[simp] theorem setErrLog_larder (s : State) (v : List ErrEntry) : (s.setErrLog v).larder = s.larder := rfl
@[simp] theorem setErrLog_arbs (s : State) (v : List ErrEntry) : (s.setErrLog v).arbs = s.arbs := rfl
@[simp] theorem setErrLog_power (s : State) (v : List ErrEntry) : (s.setErrLog v).power = s.power := rfl
@[simp] theorem setErrLog_errLog (s : State) (v : List ErrEntry) : (s.setErrLog v).errLog = v := rfl
@[simp] theorem setErrLog_planted (s : State) (v : List ErrEntry) : (s.setErrLog v).planted = s.planted := rfl
@[simp] theorem setErrLog_stop (s : State) (v : List ErrEntry) : (s.setErrLog v).stop = s.stop := rfl
@[simp] theorem setErrLog_scrubbing (s : State) (v : List ErrEntry) : (s.setErrLog v).scrubbing = s.scrubbing := rfl
@[simp] theorem setErrLog_trained (s : State) (v : List ErrEntry) : (s.setErrLog v).trained = s.trained := rfl
@[simp] theorem setErrLog_host (s : State) (v : List ErrEntry) : (s.setErrLog v).host = s.host := rfl
@[simp] theorem setErrLog_staon (s : State) (v : List ErrEntry) : (s.setErrLog v).staon = s.staon := rfl
@[simp] theorem setErrLog_hearth (s : State) (v : List ErrEntry) : (s.setErrLog v).hearth = s.hearth := rfl
@[simp] theorem setErrLog_modhw (s : State) (v : List ErrEntry) : (s.setErrLog v).modhw = s.modhw := rfl
@[simp] theorem setErrLog_serial (s : State) (v : List ErrEntry) : (s.setErrLog v).serial = s.serial := rfl
@[simp] theorem setErrLog_hostTx (s : State) (v : List ErrEntry) : (s.setErrLog v).hostTx = s.hostTx := rfl

@[simp] theorem setPlanted_pending (s : State) (v : List Planted) : (s.setPlanted v).pending = s.pending := rfl
@[simp] theorem setPlanted_now (s : State) (v : List Planted) : (s.setPlanted v).now = s.now := rfl
@[simp] theorem setPlanted_ord (s : State) (v : List Planted) : (s.setPlanted v).ord = s.ord := rfl
@[simp] theorem setPlanted_free (s : State) (v : List Planted) : (s.setPlanted v).free = s.free := rfl
@[simp] theorem setPlanted_part (s : State) (v : List Planted) : (s.setPlanted v).part = s.part := rfl
@[simp] theorem setPlanted_mem (s : State) (v : List Planted) : (s.setPlanted v).mem = s.mem := rfl
@[simp] theorem setPlanted_poison (s : State) (v : List Planted) : (s.setPlanted v).poison = s.poison := rfl
@[simp] theorem setPlanted_benchPoison (s : State) (v : List Planted) : (s.setPlanted v).benchPoison = s.benchPoison := rfl
@[simp] theorem setPlanted_regs (s : State) (v : List Planted) : (s.setPlanted v).regs = s.regs := rfl
@[simp] theorem setPlanted_trays (s : State) (v : List Planted) : (s.setPlanted v).trays = s.trays := rfl
@[simp] theorem setPlanted_barriers (s : State) (v : List Planted) : (s.setPlanted v).barriers = s.barriers := rfl
@[simp] theorem setPlanted_queues (s : State) (v : List Planted) : (s.setPlanted v).queues = s.queues := rfl
@[simp] theorem setPlanted_cores (s : State) (v : List Planted) : (s.setPlanted v).cores = s.cores := rfl
@[simp] theorem setPlanted_mmu (s : State) (v : List Planted) : (s.setPlanted v).mmu = s.mmu := rfl
@[simp] theorem setPlanted_larder (s : State) (v : List Planted) : (s.setPlanted v).larder = s.larder := rfl
@[simp] theorem setPlanted_arbs (s : State) (v : List Planted) : (s.setPlanted v).arbs = s.arbs := rfl
@[simp] theorem setPlanted_power (s : State) (v : List Planted) : (s.setPlanted v).power = s.power := rfl
@[simp] theorem setPlanted_errLog (s : State) (v : List Planted) : (s.setPlanted v).errLog = s.errLog := rfl
@[simp] theorem setPlanted_planted (s : State) (v : List Planted) : (s.setPlanted v).planted = v := rfl
@[simp] theorem setPlanted_stop (s : State) (v : List Planted) : (s.setPlanted v).stop = s.stop := rfl
@[simp] theorem setPlanted_scrubbing (s : State) (v : List Planted) : (s.setPlanted v).scrubbing = s.scrubbing := rfl
@[simp] theorem setPlanted_trained (s : State) (v : List Planted) : (s.setPlanted v).trained = s.trained := rfl
@[simp] theorem setPlanted_host (s : State) (v : List Planted) : (s.setPlanted v).host = s.host := rfl
@[simp] theorem setPlanted_staon (s : State) (v : List Planted) : (s.setPlanted v).staon = s.staon := rfl
@[simp] theorem setPlanted_hearth (s : State) (v : List Planted) : (s.setPlanted v).hearth = s.hearth := rfl
@[simp] theorem setPlanted_modhw (s : State) (v : List Planted) : (s.setPlanted v).modhw = s.modhw := rfl
@[simp] theorem setPlanted_serial (s : State) (v : List Planted) : (s.setPlanted v).serial = s.serial := rfl
@[simp] theorem setPlanted_hostTx (s : State) (v : List Planted) : (s.setPlanted v).hostTx = s.hostTx := rfl

@[simp] theorem setStop_pending (s : State) (v : Option ModuleStop) : (s.setStop v).pending = s.pending := rfl
@[simp] theorem setStop_now (s : State) (v : Option ModuleStop) : (s.setStop v).now = s.now := rfl
@[simp] theorem setStop_ord (s : State) (v : Option ModuleStop) : (s.setStop v).ord = s.ord := rfl
@[simp] theorem setStop_free (s : State) (v : Option ModuleStop) : (s.setStop v).free = s.free := rfl
@[simp] theorem setStop_part (s : State) (v : Option ModuleStop) : (s.setStop v).part = s.part := rfl
@[simp] theorem setStop_mem (s : State) (v : Option ModuleStop) : (s.setStop v).mem = s.mem := rfl
@[simp] theorem setStop_poison (s : State) (v : Option ModuleStop) : (s.setStop v).poison = s.poison := rfl
@[simp] theorem setStop_benchPoison (s : State) (v : Option ModuleStop) : (s.setStop v).benchPoison = s.benchPoison := rfl
@[simp] theorem setStop_regs (s : State) (v : Option ModuleStop) : (s.setStop v).regs = s.regs := rfl
@[simp] theorem setStop_trays (s : State) (v : Option ModuleStop) : (s.setStop v).trays = s.trays := rfl
@[simp] theorem setStop_barriers (s : State) (v : Option ModuleStop) : (s.setStop v).barriers = s.barriers := rfl
@[simp] theorem setStop_queues (s : State) (v : Option ModuleStop) : (s.setStop v).queues = s.queues := rfl
@[simp] theorem setStop_cores (s : State) (v : Option ModuleStop) : (s.setStop v).cores = s.cores := rfl
@[simp] theorem setStop_mmu (s : State) (v : Option ModuleStop) : (s.setStop v).mmu = s.mmu := rfl
@[simp] theorem setStop_larder (s : State) (v : Option ModuleStop) : (s.setStop v).larder = s.larder := rfl
@[simp] theorem setStop_arbs (s : State) (v : Option ModuleStop) : (s.setStop v).arbs = s.arbs := rfl
@[simp] theorem setStop_power (s : State) (v : Option ModuleStop) : (s.setStop v).power = s.power := rfl
@[simp] theorem setStop_errLog (s : State) (v : Option ModuleStop) : (s.setStop v).errLog = s.errLog := rfl
@[simp] theorem setStop_planted (s : State) (v : Option ModuleStop) : (s.setStop v).planted = s.planted := rfl
@[simp] theorem setStop_stop (s : State) (v : Option ModuleStop) : (s.setStop v).stop = v := rfl
@[simp] theorem setStop_scrubbing (s : State) (v : Option ModuleStop) : (s.setStop v).scrubbing = s.scrubbing := rfl
@[simp] theorem setStop_trained (s : State) (v : Option ModuleStop) : (s.setStop v).trained = s.trained := rfl
@[simp] theorem setStop_host (s : State) (v : Option ModuleStop) : (s.setStop v).host = s.host := rfl
@[simp] theorem setStop_staon (s : State) (v : Option ModuleStop) : (s.setStop v).staon = s.staon := rfl
@[simp] theorem setStop_hearth (s : State) (v : Option ModuleStop) : (s.setStop v).hearth = s.hearth := rfl
@[simp] theorem setStop_modhw (s : State) (v : Option ModuleStop) : (s.setStop v).modhw = s.modhw := rfl
@[simp] theorem setStop_serial (s : State) (v : Option ModuleStop) : (s.setStop v).serial = s.serial := rfl
@[simp] theorem setStop_hostTx (s : State) (v : Option ModuleStop) : (s.setStop v).hostTx = s.hostTx := rfl

@[simp] theorem setScrubbing_pending (s : State) (v : List (Nat × Nat)) : (s.setScrubbing v).pending = s.pending := rfl
@[simp] theorem setScrubbing_now (s : State) (v : List (Nat × Nat)) : (s.setScrubbing v).now = s.now := rfl
@[simp] theorem setScrubbing_ord (s : State) (v : List (Nat × Nat)) : (s.setScrubbing v).ord = s.ord := rfl
@[simp] theorem setScrubbing_free (s : State) (v : List (Nat × Nat)) : (s.setScrubbing v).free = s.free := rfl
@[simp] theorem setScrubbing_part (s : State) (v : List (Nat × Nat)) : (s.setScrubbing v).part = s.part := rfl
@[simp] theorem setScrubbing_mem (s : State) (v : List (Nat × Nat)) : (s.setScrubbing v).mem = s.mem := rfl
@[simp] theorem setScrubbing_poison (s : State) (v : List (Nat × Nat)) : (s.setScrubbing v).poison = s.poison := rfl
@[simp] theorem setScrubbing_benchPoison (s : State) (v : List (Nat × Nat)) : (s.setScrubbing v).benchPoison = s.benchPoison := rfl
@[simp] theorem setScrubbing_regs (s : State) (v : List (Nat × Nat)) : (s.setScrubbing v).regs = s.regs := rfl
@[simp] theorem setScrubbing_trays (s : State) (v : List (Nat × Nat)) : (s.setScrubbing v).trays = s.trays := rfl
@[simp] theorem setScrubbing_barriers (s : State) (v : List (Nat × Nat)) : (s.setScrubbing v).barriers = s.barriers := rfl
@[simp] theorem setScrubbing_queues (s : State) (v : List (Nat × Nat)) : (s.setScrubbing v).queues = s.queues := rfl
@[simp] theorem setScrubbing_cores (s : State) (v : List (Nat × Nat)) : (s.setScrubbing v).cores = s.cores := rfl
@[simp] theorem setScrubbing_mmu (s : State) (v : List (Nat × Nat)) : (s.setScrubbing v).mmu = s.mmu := rfl
@[simp] theorem setScrubbing_larder (s : State) (v : List (Nat × Nat)) : (s.setScrubbing v).larder = s.larder := rfl
@[simp] theorem setScrubbing_arbs (s : State) (v : List (Nat × Nat)) : (s.setScrubbing v).arbs = s.arbs := rfl
@[simp] theorem setScrubbing_power (s : State) (v : List (Nat × Nat)) : (s.setScrubbing v).power = s.power := rfl
@[simp] theorem setScrubbing_errLog (s : State) (v : List (Nat × Nat)) : (s.setScrubbing v).errLog = s.errLog := rfl
@[simp] theorem setScrubbing_planted (s : State) (v : List (Nat × Nat)) : (s.setScrubbing v).planted = s.planted := rfl
@[simp] theorem setScrubbing_stop (s : State) (v : List (Nat × Nat)) : (s.setScrubbing v).stop = s.stop := rfl
@[simp] theorem setScrubbing_scrubbing (s : State) (v : List (Nat × Nat)) : (s.setScrubbing v).scrubbing = v := rfl
@[simp] theorem setScrubbing_trained (s : State) (v : List (Nat × Nat)) : (s.setScrubbing v).trained = s.trained := rfl
@[simp] theorem setScrubbing_host (s : State) (v : List (Nat × Nat)) : (s.setScrubbing v).host = s.host := rfl
@[simp] theorem setScrubbing_staon (s : State) (v : List (Nat × Nat)) : (s.setScrubbing v).staon = s.staon := rfl
@[simp] theorem setScrubbing_hearth (s : State) (v : List (Nat × Nat)) : (s.setScrubbing v).hearth = s.hearth := rfl
@[simp] theorem setScrubbing_modhw (s : State) (v : List (Nat × Nat)) : (s.setScrubbing v).modhw = s.modhw := rfl
@[simp] theorem setScrubbing_serial (s : State) (v : List (Nat × Nat)) : (s.setScrubbing v).serial = s.serial := rfl
@[simp] theorem setScrubbing_hostTx (s : State) (v : List (Nat × Nat)) : (s.setScrubbing v).hostTx = s.hostTx := rfl

@[simp] theorem setTrained_pending (s : State) (v : Bool) : (s.setTrained v).pending = s.pending := rfl
@[simp] theorem setTrained_now (s : State) (v : Bool) : (s.setTrained v).now = s.now := rfl
@[simp] theorem setTrained_ord (s : State) (v : Bool) : (s.setTrained v).ord = s.ord := rfl
@[simp] theorem setTrained_free (s : State) (v : Bool) : (s.setTrained v).free = s.free := rfl
@[simp] theorem setTrained_part (s : State) (v : Bool) : (s.setTrained v).part = s.part := rfl
@[simp] theorem setTrained_mem (s : State) (v : Bool) : (s.setTrained v).mem = s.mem := rfl
@[simp] theorem setTrained_poison (s : State) (v : Bool) : (s.setTrained v).poison = s.poison := rfl
@[simp] theorem setTrained_benchPoison (s : State) (v : Bool) : (s.setTrained v).benchPoison = s.benchPoison := rfl
@[simp] theorem setTrained_regs (s : State) (v : Bool) : (s.setTrained v).regs = s.regs := rfl
@[simp] theorem setTrained_trays (s : State) (v : Bool) : (s.setTrained v).trays = s.trays := rfl
@[simp] theorem setTrained_barriers (s : State) (v : Bool) : (s.setTrained v).barriers = s.barriers := rfl
@[simp] theorem setTrained_queues (s : State) (v : Bool) : (s.setTrained v).queues = s.queues := rfl
@[simp] theorem setTrained_cores (s : State) (v : Bool) : (s.setTrained v).cores = s.cores := rfl
@[simp] theorem setTrained_mmu (s : State) (v : Bool) : (s.setTrained v).mmu = s.mmu := rfl
@[simp] theorem setTrained_larder (s : State) (v : Bool) : (s.setTrained v).larder = s.larder := rfl
@[simp] theorem setTrained_arbs (s : State) (v : Bool) : (s.setTrained v).arbs = s.arbs := rfl
@[simp] theorem setTrained_power (s : State) (v : Bool) : (s.setTrained v).power = s.power := rfl
@[simp] theorem setTrained_errLog (s : State) (v : Bool) : (s.setTrained v).errLog = s.errLog := rfl
@[simp] theorem setTrained_planted (s : State) (v : Bool) : (s.setTrained v).planted = s.planted := rfl
@[simp] theorem setTrained_stop (s : State) (v : Bool) : (s.setTrained v).stop = s.stop := rfl
@[simp] theorem setTrained_scrubbing (s : State) (v : Bool) : (s.setTrained v).scrubbing = s.scrubbing := rfl
@[simp] theorem setTrained_trained (s : State) (v : Bool) : (s.setTrained v).trained = v := rfl
@[simp] theorem setTrained_host (s : State) (v : Bool) : (s.setTrained v).host = s.host := rfl
@[simp] theorem setTrained_staon (s : State) (v : Bool) : (s.setTrained v).staon = s.staon := rfl
@[simp] theorem setTrained_hearth (s : State) (v : Bool) : (s.setTrained v).hearth = s.hearth := rfl
@[simp] theorem setTrained_modhw (s : State) (v : Bool) : (s.setTrained v).modhw = s.modhw := rfl
@[simp] theorem setTrained_serial (s : State) (v : Bool) : (s.setTrained v).serial = s.serial := rfl
@[simp] theorem setTrained_hostTx (s : State) (v : Bool) : (s.setTrained v).hostTx = s.hostTx := rfl

@[simp] theorem setHost_pending (s : State) (v : HostPort) : (s.setHost v).pending = s.pending := rfl
@[simp] theorem setHost_now (s : State) (v : HostPort) : (s.setHost v).now = s.now := rfl
@[simp] theorem setHost_ord (s : State) (v : HostPort) : (s.setHost v).ord = s.ord := rfl
@[simp] theorem setHost_free (s : State) (v : HostPort) : (s.setHost v).free = s.free := rfl
@[simp] theorem setHost_part (s : State) (v : HostPort) : (s.setHost v).part = s.part := rfl
@[simp] theorem setHost_mem (s : State) (v : HostPort) : (s.setHost v).mem = s.mem := rfl
@[simp] theorem setHost_poison (s : State) (v : HostPort) : (s.setHost v).poison = s.poison := rfl
@[simp] theorem setHost_benchPoison (s : State) (v : HostPort) : (s.setHost v).benchPoison = s.benchPoison := rfl
@[simp] theorem setHost_regs (s : State) (v : HostPort) : (s.setHost v).regs = s.regs := rfl
@[simp] theorem setHost_trays (s : State) (v : HostPort) : (s.setHost v).trays = s.trays := rfl
@[simp] theorem setHost_barriers (s : State) (v : HostPort) : (s.setHost v).barriers = s.barriers := rfl
@[simp] theorem setHost_queues (s : State) (v : HostPort) : (s.setHost v).queues = s.queues := rfl
@[simp] theorem setHost_cores (s : State) (v : HostPort) : (s.setHost v).cores = s.cores := rfl
@[simp] theorem setHost_mmu (s : State) (v : HostPort) : (s.setHost v).mmu = s.mmu := rfl
@[simp] theorem setHost_larder (s : State) (v : HostPort) : (s.setHost v).larder = s.larder := rfl
@[simp] theorem setHost_arbs (s : State) (v : HostPort) : (s.setHost v).arbs = s.arbs := rfl
@[simp] theorem setHost_power (s : State) (v : HostPort) : (s.setHost v).power = s.power := rfl
@[simp] theorem setHost_errLog (s : State) (v : HostPort) : (s.setHost v).errLog = s.errLog := rfl
@[simp] theorem setHost_planted (s : State) (v : HostPort) : (s.setHost v).planted = s.planted := rfl
@[simp] theorem setHost_stop (s : State) (v : HostPort) : (s.setHost v).stop = s.stop := rfl
@[simp] theorem setHost_scrubbing (s : State) (v : HostPort) : (s.setHost v).scrubbing = s.scrubbing := rfl
@[simp] theorem setHost_trained (s : State) (v : HostPort) : (s.setHost v).trained = s.trained := rfl
@[simp] theorem setHost_host (s : State) (v : HostPort) : (s.setHost v).host = v := rfl
@[simp] theorem setHost_staon (s : State) (v : HostPort) : (s.setHost v).staon = s.staon := rfl
@[simp] theorem setHost_hearth (s : State) (v : HostPort) : (s.setHost v).hearth = s.hearth := rfl
@[simp] theorem setHost_modhw (s : State) (v : HostPort) : (s.setHost v).modhw = s.modhw := rfl
@[simp] theorem setHost_serial (s : State) (v : HostPort) : (s.setHost v).serial = s.serial := rfl
@[simp] theorem setHost_hostTx (s : State) (v : HostPort) : (s.setHost v).hostTx = s.hostTx := rfl

@[simp] theorem setStaon_pending (s : State) (v : Staon) : (s.setStaon v).pending = s.pending := rfl
@[simp] theorem setStaon_now (s : State) (v : Staon) : (s.setStaon v).now = s.now := rfl
@[simp] theorem setStaon_ord (s : State) (v : Staon) : (s.setStaon v).ord = s.ord := rfl
@[simp] theorem setStaon_free (s : State) (v : Staon) : (s.setStaon v).free = s.free := rfl
@[simp] theorem setStaon_part (s : State) (v : Staon) : (s.setStaon v).part = s.part := rfl
@[simp] theorem setStaon_mem (s : State) (v : Staon) : (s.setStaon v).mem = s.mem := rfl
@[simp] theorem setStaon_poison (s : State) (v : Staon) : (s.setStaon v).poison = s.poison := rfl
@[simp] theorem setStaon_benchPoison (s : State) (v : Staon) : (s.setStaon v).benchPoison = s.benchPoison := rfl
@[simp] theorem setStaon_regs (s : State) (v : Staon) : (s.setStaon v).regs = s.regs := rfl
@[simp] theorem setStaon_trays (s : State) (v : Staon) : (s.setStaon v).trays = s.trays := rfl
@[simp] theorem setStaon_barriers (s : State) (v : Staon) : (s.setStaon v).barriers = s.barriers := rfl
@[simp] theorem setStaon_queues (s : State) (v : Staon) : (s.setStaon v).queues = s.queues := rfl
@[simp] theorem setStaon_cores (s : State) (v : Staon) : (s.setStaon v).cores = s.cores := rfl
@[simp] theorem setStaon_mmu (s : State) (v : Staon) : (s.setStaon v).mmu = s.mmu := rfl
@[simp] theorem setStaon_larder (s : State) (v : Staon) : (s.setStaon v).larder = s.larder := rfl
@[simp] theorem setStaon_arbs (s : State) (v : Staon) : (s.setStaon v).arbs = s.arbs := rfl
@[simp] theorem setStaon_power (s : State) (v : Staon) : (s.setStaon v).power = s.power := rfl
@[simp] theorem setStaon_errLog (s : State) (v : Staon) : (s.setStaon v).errLog = s.errLog := rfl
@[simp] theorem setStaon_planted (s : State) (v : Staon) : (s.setStaon v).planted = s.planted := rfl
@[simp] theorem setStaon_stop (s : State) (v : Staon) : (s.setStaon v).stop = s.stop := rfl
@[simp] theorem setStaon_scrubbing (s : State) (v : Staon) : (s.setStaon v).scrubbing = s.scrubbing := rfl
@[simp] theorem setStaon_trained (s : State) (v : Staon) : (s.setStaon v).trained = s.trained := rfl
@[simp] theorem setStaon_host (s : State) (v : Staon) : (s.setStaon v).host = s.host := rfl
@[simp] theorem setStaon_staon (s : State) (v : Staon) : (s.setStaon v).staon = v := rfl
@[simp] theorem setStaon_hearth (s : State) (v : Staon) : (s.setStaon v).hearth = s.hearth := rfl
@[simp] theorem setStaon_modhw (s : State) (v : Staon) : (s.setStaon v).modhw = s.modhw := rfl
@[simp] theorem setStaon_serial (s : State) (v : Staon) : (s.setStaon v).serial = s.serial := rfl
@[simp] theorem setStaon_hostTx (s : State) (v : Staon) : (s.setStaon v).hostTx = s.hostTx := rfl

@[simp] theorem setHearth_pending (s : State) (v : Hearth) : (s.setHearth v).pending = s.pending := rfl
@[simp] theorem setHearth_now (s : State) (v : Hearth) : (s.setHearth v).now = s.now := rfl
@[simp] theorem setHearth_ord (s : State) (v : Hearth) : (s.setHearth v).ord = s.ord := rfl
@[simp] theorem setHearth_free (s : State) (v : Hearth) : (s.setHearth v).free = s.free := rfl
@[simp] theorem setHearth_part (s : State) (v : Hearth) : (s.setHearth v).part = s.part := rfl
@[simp] theorem setHearth_mem (s : State) (v : Hearth) : (s.setHearth v).mem = s.mem := rfl
@[simp] theorem setHearth_poison (s : State) (v : Hearth) : (s.setHearth v).poison = s.poison := rfl
@[simp] theorem setHearth_benchPoison (s : State) (v : Hearth) : (s.setHearth v).benchPoison = s.benchPoison := rfl
@[simp] theorem setHearth_regs (s : State) (v : Hearth) : (s.setHearth v).regs = s.regs := rfl
@[simp] theorem setHearth_trays (s : State) (v : Hearth) : (s.setHearth v).trays = s.trays := rfl
@[simp] theorem setHearth_barriers (s : State) (v : Hearth) : (s.setHearth v).barriers = s.barriers := rfl
@[simp] theorem setHearth_queues (s : State) (v : Hearth) : (s.setHearth v).queues = s.queues := rfl
@[simp] theorem setHearth_cores (s : State) (v : Hearth) : (s.setHearth v).cores = s.cores := rfl
@[simp] theorem setHearth_mmu (s : State) (v : Hearth) : (s.setHearth v).mmu = s.mmu := rfl
@[simp] theorem setHearth_larder (s : State) (v : Hearth) : (s.setHearth v).larder = s.larder := rfl
@[simp] theorem setHearth_arbs (s : State) (v : Hearth) : (s.setHearth v).arbs = s.arbs := rfl
@[simp] theorem setHearth_power (s : State) (v : Hearth) : (s.setHearth v).power = s.power := rfl
@[simp] theorem setHearth_errLog (s : State) (v : Hearth) : (s.setHearth v).errLog = s.errLog := rfl
@[simp] theorem setHearth_planted (s : State) (v : Hearth) : (s.setHearth v).planted = s.planted := rfl
@[simp] theorem setHearth_stop (s : State) (v : Hearth) : (s.setHearth v).stop = s.stop := rfl
@[simp] theorem setHearth_scrubbing (s : State) (v : Hearth) : (s.setHearth v).scrubbing = s.scrubbing := rfl
@[simp] theorem setHearth_trained (s : State) (v : Hearth) : (s.setHearth v).trained = s.trained := rfl
@[simp] theorem setHearth_host (s : State) (v : Hearth) : (s.setHearth v).host = s.host := rfl
@[simp] theorem setHearth_staon (s : State) (v : Hearth) : (s.setHearth v).staon = s.staon := rfl
@[simp] theorem setHearth_hearth (s : State) (v : Hearth) : (s.setHearth v).hearth = v := rfl
@[simp] theorem setHearth_modhw (s : State) (v : Hearth) : (s.setHearth v).modhw = s.modhw := rfl
@[simp] theorem setHearth_serial (s : State) (v : Hearth) : (s.setHearth v).serial = s.serial := rfl
@[simp] theorem setHearth_hostTx (s : State) (v : Hearth) : (s.setHearth v).hostTx = s.hostTx := rfl

@[simp] theorem setModhw_pending (s : State) (v : ModHw) : (s.setModhw v).pending = s.pending := rfl
@[simp] theorem setModhw_now (s : State) (v : ModHw) : (s.setModhw v).now = s.now := rfl
@[simp] theorem setModhw_ord (s : State) (v : ModHw) : (s.setModhw v).ord = s.ord := rfl
@[simp] theorem setModhw_free (s : State) (v : ModHw) : (s.setModhw v).free = s.free := rfl
@[simp] theorem setModhw_part (s : State) (v : ModHw) : (s.setModhw v).part = s.part := rfl
@[simp] theorem setModhw_mem (s : State) (v : ModHw) : (s.setModhw v).mem = s.mem := rfl
@[simp] theorem setModhw_poison (s : State) (v : ModHw) : (s.setModhw v).poison = s.poison := rfl
@[simp] theorem setModhw_benchPoison (s : State) (v : ModHw) : (s.setModhw v).benchPoison = s.benchPoison := rfl
@[simp] theorem setModhw_regs (s : State) (v : ModHw) : (s.setModhw v).regs = s.regs := rfl
@[simp] theorem setModhw_trays (s : State) (v : ModHw) : (s.setModhw v).trays = s.trays := rfl
@[simp] theorem setModhw_barriers (s : State) (v : ModHw) : (s.setModhw v).barriers = s.barriers := rfl
@[simp] theorem setModhw_queues (s : State) (v : ModHw) : (s.setModhw v).queues = s.queues := rfl
@[simp] theorem setModhw_cores (s : State) (v : ModHw) : (s.setModhw v).cores = s.cores := rfl
@[simp] theorem setModhw_mmu (s : State) (v : ModHw) : (s.setModhw v).mmu = s.mmu := rfl
@[simp] theorem setModhw_larder (s : State) (v : ModHw) : (s.setModhw v).larder = s.larder := rfl
@[simp] theorem setModhw_arbs (s : State) (v : ModHw) : (s.setModhw v).arbs = s.arbs := rfl
@[simp] theorem setModhw_power (s : State) (v : ModHw) : (s.setModhw v).power = s.power := rfl
@[simp] theorem setModhw_errLog (s : State) (v : ModHw) : (s.setModhw v).errLog = s.errLog := rfl
@[simp] theorem setModhw_planted (s : State) (v : ModHw) : (s.setModhw v).planted = s.planted := rfl
@[simp] theorem setModhw_stop (s : State) (v : ModHw) : (s.setModhw v).stop = s.stop := rfl
@[simp] theorem setModhw_scrubbing (s : State) (v : ModHw) : (s.setModhw v).scrubbing = s.scrubbing := rfl
@[simp] theorem setModhw_trained (s : State) (v : ModHw) : (s.setModhw v).trained = s.trained := rfl
@[simp] theorem setModhw_host (s : State) (v : ModHw) : (s.setModhw v).host = s.host := rfl
@[simp] theorem setModhw_staon (s : State) (v : ModHw) : (s.setModhw v).staon = s.staon := rfl
@[simp] theorem setModhw_hearth (s : State) (v : ModHw) : (s.setModhw v).hearth = s.hearth := rfl
@[simp] theorem setModhw_modhw (s : State) (v : ModHw) : (s.setModhw v).modhw = v := rfl
@[simp] theorem setModhw_serial (s : State) (v : ModHw) : (s.setModhw v).serial = s.serial := rfl
@[simp] theorem setModhw_hostTx (s : State) (v : ModHw) : (s.setModhw v).hostTx = s.hostTx := rfl

@[simp] theorem setHostTx_pending (s : State) (v : List HostTx) : (s.setHostTx v).pending = s.pending := rfl
@[simp] theorem setHostTx_now (s : State) (v : List HostTx) : (s.setHostTx v).now = s.now := rfl
@[simp] theorem setHostTx_ord (s : State) (v : List HostTx) : (s.setHostTx v).ord = s.ord := rfl
@[simp] theorem setHostTx_free (s : State) (v : List HostTx) : (s.setHostTx v).free = s.free := rfl
@[simp] theorem setHostTx_part (s : State) (v : List HostTx) : (s.setHostTx v).part = s.part := rfl
@[simp] theorem setHostTx_mem (s : State) (v : List HostTx) : (s.setHostTx v).mem = s.mem := rfl
@[simp] theorem setHostTx_poison (s : State) (v : List HostTx) : (s.setHostTx v).poison = s.poison := rfl
@[simp] theorem setHostTx_benchPoison (s : State) (v : List HostTx) : (s.setHostTx v).benchPoison = s.benchPoison := rfl
@[simp] theorem setHostTx_regs (s : State) (v : List HostTx) : (s.setHostTx v).regs = s.regs := rfl
@[simp] theorem setHostTx_trays (s : State) (v : List HostTx) : (s.setHostTx v).trays = s.trays := rfl
@[simp] theorem setHostTx_barriers (s : State) (v : List HostTx) : (s.setHostTx v).barriers = s.barriers := rfl
@[simp] theorem setHostTx_queues (s : State) (v : List HostTx) : (s.setHostTx v).queues = s.queues := rfl
@[simp] theorem setHostTx_cores (s : State) (v : List HostTx) : (s.setHostTx v).cores = s.cores := rfl
@[simp] theorem setHostTx_mmu (s : State) (v : List HostTx) : (s.setHostTx v).mmu = s.mmu := rfl
@[simp] theorem setHostTx_larder (s : State) (v : List HostTx) : (s.setHostTx v).larder = s.larder := rfl
@[simp] theorem setHostTx_arbs (s : State) (v : List HostTx) : (s.setHostTx v).arbs = s.arbs := rfl
@[simp] theorem setHostTx_power (s : State) (v : List HostTx) : (s.setHostTx v).power = s.power := rfl
@[simp] theorem setHostTx_errLog (s : State) (v : List HostTx) : (s.setHostTx v).errLog = s.errLog := rfl
@[simp] theorem setHostTx_planted (s : State) (v : List HostTx) : (s.setHostTx v).planted = s.planted := rfl
@[simp] theorem setHostTx_stop (s : State) (v : List HostTx) : (s.setHostTx v).stop = s.stop := rfl
@[simp] theorem setHostTx_scrubbing (s : State) (v : List HostTx) : (s.setHostTx v).scrubbing = s.scrubbing := rfl
@[simp] theorem setHostTx_trained (s : State) (v : List HostTx) : (s.setHostTx v).trained = s.trained := rfl
@[simp] theorem setHostTx_host (s : State) (v : List HostTx) : (s.setHostTx v).host = s.host := rfl
@[simp] theorem setHostTx_staon (s : State) (v : List HostTx) : (s.setHostTx v).staon = s.staon := rfl
@[simp] theorem setHostTx_hearth (s : State) (v : List HostTx) : (s.setHostTx v).hearth = s.hearth := rfl
@[simp] theorem setHostTx_modhw (s : State) (v : List HostTx) : (s.setHostTx v).modhw = s.modhw := rfl
@[simp] theorem setHostTx_serial (s : State) (v : List HostTx) : (s.setHostTx v).serial = s.serial := rfl
@[simp] theorem setHostTx_hostTx (s : State) (v : List HostTx) : (s.setHostTx v).hostTx = v := rfl

/-! ### Registers -/

@[simp] theorem setReg_regs (s : State) (off : Nat) (v : Reg) : (s.setReg off v).regs = Tab.put (RegMap.resetOf off) s.regs off v := rfl

@[simp] theorem setReg_pending (s : State) (off : Nat) (v : Reg) : (s.setReg off v).pending = s.pending := rfl
@[simp] theorem setReg_now (s : State) (off : Nat) (v : Reg) : (s.setReg off v).now = s.now := rfl
@[simp] theorem setReg_ord (s : State) (off : Nat) (v : Reg) : (s.setReg off v).ord = s.ord := rfl
@[simp] theorem setReg_free (s : State) (off : Nat) (v : Reg) : (s.setReg off v).free = s.free := rfl
@[simp] theorem setReg_part (s : State) (off : Nat) (v : Reg) : (s.setReg off v).part = s.part := rfl
@[simp] theorem setReg_mem (s : State) (off : Nat) (v : Reg) : (s.setReg off v).mem = s.mem := rfl
@[simp] theorem setReg_poison (s : State) (off : Nat) (v : Reg) : (s.setReg off v).poison = s.poison := rfl
@[simp] theorem setReg_benchPoison (s : State) (off : Nat) (v : Reg) : (s.setReg off v).benchPoison = s.benchPoison := rfl
@[simp] theorem setReg_trays (s : State) (off : Nat) (v : Reg) : (s.setReg off v).trays = s.trays := rfl
@[simp] theorem setReg_barriers (s : State) (off : Nat) (v : Reg) : (s.setReg off v).barriers = s.barriers := rfl
@[simp] theorem setReg_queues (s : State) (off : Nat) (v : Reg) : (s.setReg off v).queues = s.queues := rfl
@[simp] theorem setReg_cores (s : State) (off : Nat) (v : Reg) : (s.setReg off v).cores = s.cores := rfl
@[simp] theorem setReg_mmu (s : State) (off : Nat) (v : Reg) : (s.setReg off v).mmu = s.mmu := rfl
@[simp] theorem setReg_larder (s : State) (off : Nat) (v : Reg) : (s.setReg off v).larder = s.larder := rfl
@[simp] theorem setReg_arbs (s : State) (off : Nat) (v : Reg) : (s.setReg off v).arbs = s.arbs := rfl
@[simp] theorem setReg_power (s : State) (off : Nat) (v : Reg) : (s.setReg off v).power = s.power := rfl
@[simp] theorem setReg_errLog (s : State) (off : Nat) (v : Reg) : (s.setReg off v).errLog = s.errLog := rfl
@[simp] theorem setReg_planted (s : State) (off : Nat) (v : Reg) : (s.setReg off v).planted = s.planted := rfl
@[simp] theorem setReg_stop (s : State) (off : Nat) (v : Reg) : (s.setReg off v).stop = s.stop := rfl
@[simp] theorem setReg_scrubbing (s : State) (off : Nat) (v : Reg) : (s.setReg off v).scrubbing = s.scrubbing := rfl
@[simp] theorem setReg_trained (s : State) (off : Nat) (v : Reg) : (s.setReg off v).trained = s.trained := rfl
@[simp] theorem setReg_host (s : State) (off : Nat) (v : Reg) : (s.setReg off v).host = s.host := rfl
@[simp] theorem setReg_staon (s : State) (off : Nat) (v : Reg) : (s.setReg off v).staon = s.staon := rfl
@[simp] theorem setReg_hearth (s : State) (off : Nat) (v : Reg) : (s.setReg off v).hearth = s.hearth := rfl
@[simp] theorem setReg_modhw (s : State) (off : Nat) (v : Reg) : (s.setReg off v).modhw = s.modhw := rfl
@[simp] theorem setReg_serial (s : State) (off : Nat) (v : Reg) : (s.setReg off v).serial = s.serial := rfl
@[simp] theorem setReg_hostTx (s : State) (off : Nat) (v : Reg) : (s.setReg off v).hostTx = s.hostTx := rfl

@[simp] theorem reg_setReg_same (s : State) (off : Nat) (v : Reg) : (s.setReg off v).reg off = v := Tab.get_put_same _ _ _ _

theorem reg_setReg_other (s : State) {off off' : Nat} (v : Reg) (h : off ≠ off') : (s.setReg off v).reg off' = s.reg off' := Tab.get_put_other _ _ _ _ h

@[simp] theorem reg_setFld_same (s : State) (off hi lo v : Nat) : (s.setFld off hi lo v).reg off = setBf (s.reg off) hi lo v := reg_setReg_same _ _ _

theorem reg_setFld_other (s : State) {off off' : Nat} (hi lo v : Nat) (h : off ≠ off') : (s.setFld off hi lo v).reg off' = s.reg off' := reg_setReg_other _ _ h

@[simp] theorem reg_count_same (s : State) (off n : Nat) : (s.count off n).reg off = s.reg off + BitVec.ofNat 64 n := reg_setReg_same _ _ _

theorem reg_count_other (s : State) {off off' : Nat} (n : Nat) (h : off ≠ off') : (s.count off n).reg off' = s.reg off' := reg_setReg_other _ _ h

/-! ### Trays, cores, queues and barriers -/

@[simp] theorem tray_setTray_same (s : State) {t : Nat} (x : Tray) (h : t < 32) : (s.setTray t x).tray t = x := Vec.get_put_same _ _ _ h

theorem tray_setTray_other (s : State) {t u : Nat} (x : Tray) (h : t ≠ u) : (s.setTray t x).tray u = s.tray u := by
  exact Vec.get_put_other _ _ _ h

@[simp] theorem tray_modTray_same (s : State) {t : Nat} (f : Tray → Tray) (h : t < 32) : (s.modTray t f).tray t = f (s.tray t) := tray_setTray_same _ _ h

theorem tray_modTray_other (s : State) {t u : Nat} (f : Tray → Tray) (h : t ≠ u) : (s.modTray t f).tray u = s.tray u := tray_setTray_other _ _ h

@[simp] theorem core_modCore_same (s : State) {c : Nat} (f : Core → Core) (h : c < 4) : (s.modCore c f).core c = f (s.core c) := Vec.get_put_same _ _ _ h

theorem core_modCore_other (s : State) {c d : Nat} (f : Core → Core) (h : c ≠ d) : (s.modCore c f).core d = s.core d := Vec.get_put_other _ _ _ h

@[simp] theorem hq_modHq_same (s : State) {q : Nat} (f : HQueue → HQueue) (h : q < 64) : (s.modHq q f).hq q = f (s.hq q) := Vec.get_put_same _ _ _ h

theorem hq_modHq_other (s : State) {q r : Nat} (f : HQueue → HQueue) (h : q ≠ r) : (s.modHq q f).hq r = s.hq r := Vec.get_put_other _ _ _ h

@[simp] theorem barrier_setBarrier_same (s : State) {b : Nat} (x : Barrier) (h : b < 16) : (s.setBarrier b x).barrier b = x := Vec.get_put_same _ _ _ h

theorem barrier_setBarrier_other (s : State) {b d : Nat} (x : Barrier) (h : b ≠ d) : (s.setBarrier b x).barrier d = s.barrier d := Vec.get_put_other _ _ _ h

end State

end Sys2Proof.Machine
end

