-- ==== Sys2Proof/Laws/Touch.lean ====
section
/-! SUPPORT. What an operation may change: the relation that every operation of the model is proved to keep, with the parts of the state that it may write. -/

namespace Sys2Proof.Machine

variable {F : Parts} {st0 s : State}

theorem Touch.refl (F : Parts) (s : State) : Touch F s s :=
  ⟨rfl, rfl, rfl, fun _ => rfl, fun _ => rfl, fun _ => rfl, fun _ => rfl, fun _ => rfl, fun _ => rfl, fun _ => rfl, fun _ => rfl, fun _ => rfl, fun _ => rfl, fun _ => rfl, fun _ => rfl, fun _ => rfl, fun _ => rfl, fun _ => rfl, fun _ => rfl, fun _ => rfl, fun _ => rfl, fun _ => rfl, fun _ => rfl, fun _ => rfl, fun _ => rfl, fun _ => rfl, fun _ => rfl, fun _ => rfl, List.prefix_refl _, fun h => h⟩

theorem Touch.trans {s1 s2 : State} (a : Touch F st0 s1) (b : Touch F s1 s2) : Touch F st0 s2 where
  pending := b.pending.trans a.pending
  part := b.part.trans a.part
  serial := b.serial.trans a.serial
  now := fun h => (b.now h).trans (a.now h)
  ord := fun h => (b.ord h).trans (a.ord h)
  free := fun h => (b.free h).trans (a.free h)
  mem := fun h => (b.mem h).trans (a.mem h)
  poison := fun h => (b.poison h).trans (a.poison h)
  benchPoison := fun h => (b.benchPoison h).trans (a.benchPoison h)
  regs := fun h => (b.regs h).trans (a.regs h)
  trays := fun h => (b.trays h).trans (a.trays h)
  barriers := fun h => (b.barriers h).trans (a.barriers h)
  queues := fun h => (b.queues h).trans (a.queues h)
  cores := fun h => (b.cores h).trans (a.cores h)
  mmu := fun h => (b.mmu h).trans (a.mmu h)
  larder := fun h => (b.larder h).trans (a.larder h)
  arbs := fun h => (b.arbs h).trans (a.arbs h)
  power := fun h => (b.power h).trans (a.power h)
  errLog := fun h => (b.errLog h).trans (a.errLog h)
  planted := fun h => (b.planted h).trans (a.planted h)
  stop := fun h => (b.stop h).trans (a.stop h)
  scrubbing := fun h => (b.scrubbing h).trans (a.scrubbing h)
  trained := fun h => (b.trained h).trans (a.trained h)
  host := fun h => (b.host h).trans (a.host h)
  staon := fun h => (b.staon h).trans (a.staon h)
  hearth := fun h => (b.hearth h).trans (a.hearth h)
  modhw := fun h => (b.modhw h).trans (a.modhw h)
  hostTx := fun h => (b.hostTx h).trans (a.hostTx h)
  sent := a.sent.trans b.sent
  canonical := fun h => b.canonical (a.canonical h)

theorem touch_State_setNow (v : Nat) (h : Touch F st0 s) (hF : F.now = true) : Touch F st0 (s.setNow v) :=
  { h with now := fun e => by rw [hF] at e; cases e }

theorem touch_State_setOrd (v : Nat) (h : Touch F st0 s) (hF : F.ord = true) : Touch F st0 (s.setOrd v) :=
  { h with ord := fun e => by rw [hF] at e; cases e }

theorem touch_State_setFree (v : Nat) (h : Touch F st0 s) (hF : F.free = true) : Touch F st0 (s.setFree v) :=
  { h with free := fun e => by rw [hF] at e; cases e }

theorem touch_State_setTrays (v : Vector Tray 32) (h : Touch F st0 s) (hF : F.trays = true) : Touch F st0 (s.setTrays v) :=
  { h with trays := fun e => by rw [hF] at e; cases e }

theorem touch_State_setBarriers (v : Vector Barrier 16) (h : Touch F st0 s) (hF : F.barriers = true) : Touch F st0 (s.setBarriers v) :=
  { h with barriers := fun e => by rw [hF] at e; cases e }

theorem touch_State_setQueues (v : Vector HQueue 64) (h : Touch F st0 s) (hF : F.queues = true) : Touch F st0 (s.setQueues v) :=
  { h with queues := fun e => by rw [hF] at e; cases e }

theorem touch_State_setCores (v : Vector Core 4) (h : Touch F st0 s) (hF : F.cores = true) : Touch F st0 (s.setCores v) :=
  { h with cores := fun e => by rw [hF] at e; cases e }

theorem touch_State_setMmu (v : Mmu) (h : Touch F st0 s) (hF : F.mmu = true) : Touch F st0 (s.setMmu v) :=
  { h with mmu := fun e => by rw [hF] at e; cases e }

theorem touch_State_setLarder (v : Larder) (h : Touch F st0 s) (hF : F.larder = true) : Touch F st0 (s.setLarder v) :=
  { h with larder := fun e => by rw [hF] at e; cases e }

theorem touch_State_setArbs (v : List Arbiter) (h : Touch F st0 s) (hF : F.arbs = true) : Touch F st0 (s.setArbs v) :=
  { h with arbs := fun e => by rw [hF] at e; cases e }

theorem touch_State_setPower (v : Power) (h : Touch F st0 s) (hF : F.power = true) : Touch F st0 (s.setPower v) :=
  { h with power := fun e => by rw [hF] at e; cases e }

theorem touch_State_setErrLog (v : List ErrEntry) (h : Touch F st0 s) (hF : F.errLog = true) : Touch F st0 (s.setErrLog v) :=
  { h with errLog := fun e => by rw [hF] at e; cases e }

theorem touch_State_setPlanted (v : List Planted) (h : Touch F st0 s) (hF : F.planted = true) : Touch F st0 (s.setPlanted v) :=
  { h with planted := fun e => by rw [hF] at e; cases e }

theorem touch_State_setStop (v : Option ModuleStop) (h : Touch F st0 s) (hF : F.stop = true) : Touch F st0 (s.setStop v) :=
  { h with stop := fun e => by rw [hF] at e; cases e }

theorem touch_State_setScrubbing (v : List (Nat × Nat)) (h : Touch F st0 s) (hF : F.scrubbing = true) : Touch F st0 (s.setScrubbing v) :=
  { h with scrubbing := fun e => by rw [hF] at e; cases e }

theorem touch_State_setTrained (v : Bool) (h : Touch F st0 s) (hF : F.trained = true) : Touch F st0 (s.setTrained v) :=
  { h with trained := fun e => by rw [hF] at e; cases e }

theorem touch_State_setHost (v : HostPort) (h : Touch F st0 s) (hF : F.host = true) : Touch F st0 (s.setHost v) :=
  { h with host := fun e => by rw [hF] at e; cases e }

theorem touch_State_setStaon (v : Staon) (h : Touch F st0 s) (hF : F.staon = true) : Touch F st0 (s.setStaon v) :=
  { h with staon := fun e => by rw [hF] at e; cases e }

theorem touch_State_setHearth (v : Hearth) (h : Touch F st0 s) (hF : F.hearth = true) : Touch F st0 (s.setHearth v) :=
  { h with hearth := fun e => by rw [hF] at e; cases e }

theorem touch_State_setModhw (v : ModHw) (h : Touch F st0 s) (hF : F.modhw = true) : Touch F st0 (s.setModhw v) :=
  { h with modhw := fun e => by rw [hF] at e; cases e }

theorem touch_State_setMem (v : Tab Byte) (hv : Memory.wf s.mem = true → Memory.wf v = true) (h : Touch F st0 s) (hF : F.mem = true) :
    Touch F st0 (s.setMem v) :=
  { h with mem := fun e => by rw [hF] at e; cases e
           canonical := fun e => have c := h.canonical e; ⟨hv c.1, c.2⟩ }

theorem touch_State_setPoison (v : Tab Bool) (hv : Poison.wf s.poison = true → Poison.wf v = true) (h : Touch F st0 s) (hF : F.poison = true) :
    Touch F st0 (s.setPoison v) :=
  { h with poison := fun e => by rw [hF] at e; cases e
           canonical := fun e => have c := h.canonical e; ⟨c.1, hv c.2.1, c.2.2⟩ }

theorem touch_State_setBenchPoison (v : Tab Bool) (hv : Poison.wf s.benchPoison = true → Poison.wf v = true) (h : Touch F st0 s) (hF : F.benchPoison = true) :
    Touch F st0 (s.setBenchPoison v) :=
  { h with benchPoison := fun e => by rw [hF] at e; cases e
           canonical := fun e => have c := h.canonical e; ⟨c.1, c.2.1, hv c.2.2.1, c.2.2.2⟩ }

theorem touch_State_setRegs (v : Tab Reg) (hv : Registers.wf s.regs = true → Registers.wf v = true) (h : Touch F st0 s) (hF : F.regs = true) :
    Touch F st0 (s.setRegs v) :=
  { h with regs := fun e => by rw [hF] at e; cases e
           canonical := fun e => have c := h.canonical e; ⟨c.1, c.2.1, c.2.2.1, hv c.2.2.2⟩ }

theorem touch_State_setHostTx (v : List HostTx) (hv : s.hostTx <+: v) (h : Touch F st0 s) (hF : F.hostTx = true) : Touch F st0 (s.setHostTx v) :=
  { h with hostTx := fun e => by rw [hF] at e; cases e
           sent := h.sent.trans hv }

theorem touch_id (h : Touch F st0 s) : Touch F st0 (id s) := h

theorem touch_fst {α : Type} {p : State × α} {s1 : State} {r : α} (e : p = (s1, r)) (h : Touch F st0 p.1) : Touch F st0 s1 := by rw [e] at h; exact h

theorem touch_fst' {α : Type} {p : State × α} {s1 : State} {r : α} (e : (s1, r) = p) (h : Touch F st0 p.1) : Touch F st0 s1 := by rw [← e] at h; exact h

theorem touch_some {p : Option State} {s1 : State} (e : p = some s1) (h : ∀ x, p = some x → Touch F st0 x) : Touch F st0 s1 := h s1 e

/-- A next state touches only the parts `F`. -/
def Ends (F : Parts) (st0 : State) (o : Host.Outcome State Fault Refusal) : Prop := ∀ s', o = .next s' → Touch F st0 s'

theorem ends_next (h : Touch F st0 s) : Ends F st0 (.next s) := fun _ e => by cases e; exact h

theorem ends_fault (e : Fault) : Ends F st0 (.fault e) := fun _ x => by cases x

theorem touch_foldl {α : Type} {f : State → α → State} (hf : ∀ s x, Touch F st0 s → Touch F st0 (f s x)) (l : List α) : ∀ {s : State}, Touch F st0 s → Touch F st0 (l.foldl f s) := by
  induction l with
  | nil => exact fun h => h
  | cons x l ih => exact fun h => ih (hf _ x h)

theorem touch_foldl_fst {α β : Type} {f : State × β → α → State × β} (hf : ∀ p x, Touch F st0 p.1 → Touch F st0 (f p x).1) (l : List α) :
    ∀ {p : State × β}, Touch F st0 p.1 → Touch F st0 (l.foldl f p).1 := by
  induction l with
  | nil => exact fun h => h
  | cons x l ih => exact fun h => ih (hf _ x h)

theorem touch_ite {c : Prop} [Decidable c] {a b : State} (ha : Touch F st0 a) (hb : Touch F st0 b) : Touch F st0 (if c then a else b) := by split <;> assumption

end Sys2Proof.Machine
end

