-- ==== Sys2Proof/Laws/Touch1.lean ====
section
/-! SUPPORT. What each operation of Ops.lean, Ports.lean, Mem.lean, Tasks.lean, Tensor.lean, RegOps.lean, Power.lean, FabAddr.lean, Launch.lean, Release.lean and HostOps.lean may write: one lemma for each, by its own name. -/

namespace Sys2Proof.Machine

set_option linter.all false

variable {F : Parts} {st0 : State}

/-! ### Ops.lean -/

theorem touch_State_setReg (s : State) (off : Nat) (v : Reg) (hs : Touch F st0 s) (f_regs : F.regs = true) :
    Touch F st0 (State.setReg s off v) := by
  unfold State.setReg
  exact touch_State_setRegs _ (fun c => registers_put_wf c _ _) hs f_regs

theorem touch_State_setFld (s : State) (off hi lo v : Nat) (hs : Touch F st0 s) (f_regs : F.regs = true) :
    Touch F st0 (State.setFld s off hi lo v) := by
  unfold State.setFld
  repeat' (first | with_reducible (first | assumption  | apply touch_State_setReg) | refine touch_fst (by with_reducible assumption) ?_ | dsimp only | split | intro _)

theorem touch_State_count (s : State) (off n : Nat) (hs : Touch F st0 s) (f_regs : F.regs = true) :
    Touch F st0 (State.count s off n) := by
  unfold State.count
  repeat' (first | with_reducible (first | assumption  | apply touch_State_setReg) | refine touch_fst (by with_reducible assumption) ?_ | dsimp only | split | intro _)

theorem touch_State_setTray (s : State) (t : Nat) (x : Tray) (hs : Touch F st0 s) (f_trays : F.trays = true) :
    Touch F st0 (State.setTray s t x) := by
  unfold State.setTray
  repeat' (first | with_reducible (first | assumption  | apply touch_State_setTrays) | refine touch_fst (by with_reducible assumption) ?_ | dsimp only | split | intro _)

theorem touch_State_modTray (s : State) (t : Nat) (f : Tray → Tray) (hs : Touch F st0 s) (f_trays : F.trays = true) :
    Touch F st0 (State.modTray s t f) := by
  unfold State.modTray
  repeat' (first | with_reducible (first | assumption  | apply touch_State_setTray) | refine touch_fst (by with_reducible assumption) ?_ | dsimp only | split | intro _)

theorem touch_State_modCore (s : State) (c : Nat) (f : Core → Core) (hs : Touch F st0 s) (f_cores : F.cores = true) :
    Touch F st0 (State.modCore s c f) := by
  unfold State.modCore
  repeat' (first | with_reducible (first | assumption  | apply touch_State_setCores) | refine touch_fst (by with_reducible assumption) ?_ | dsimp only | split | intro _)

theorem touch_State_modArray (s : State) (c a : Nat) (f : MatArray → MatArray) (hs : Touch F st0 s) (f_cores : F.cores = true) :
    Touch F st0 (State.modArray s c a f) := by
  unfold State.modArray
  repeat' (first | with_reducible (first | assumption  | apply touch_State_modCore) | refine touch_fst (by with_reducible assumption) ?_ | dsimp only | split | intro _)

theorem touch_State_modSieve (s : State) (c : Nat) (f : Sieve → Sieve) (hs : Touch F st0 s) (f_cores : F.cores = true) :
    Touch F st0 (State.modSieve s c f) := by
  unfold State.modSieve
  repeat' (first | with_reducible (first | assumption  | apply touch_State_modCore) | refine touch_fst (by with_reducible assumption) ?_ | dsimp only | split | intro _)

theorem touch_State_modLevain (s : State) (c : Nat) (f : Levain → Levain) (hs : Touch F st0 s) (f_cores : F.cores = true) :
    Touch F st0 (State.modLevain s c f) := by
  unfold State.modLevain
  repeat' (first | with_reducible (first | assumption  | apply touch_State_modCore) | refine touch_fst (by with_reducible assumption) ?_ | dsimp only | split | intro _)

theorem touch_State_modVec (s : State) (c : Nat) (f : VecEngine → VecEngine) (hs : Touch F st0 s) (f_cores : F.cores = true) :
    Touch F st0 (State.modVec s c f) := by
  unfold State.modVec
  repeat' (first | with_reducible (first | assumption  | apply touch_State_modCore) | refine touch_fst (by with_reducible assumption) ?_ | dsimp only | split | intro _)

theorem touch_State_modPeel (s : State) (c : Nat) (f : Peel → Peel) (hs : Touch F st0 s) (f_cores : F.cores = true) :
    Touch F st0 (State.modPeel s c f) := by
  unfold State.modPeel
  repeat' (first | with_reducible (first | assumption  | apply touch_State_modCore) | refine touch_fst (by with_reducible assumption) ?_ | dsimp only | split | intro _)

theorem touch_State_modProofer (s : State) (c : Nat) (f : Proofer → Proofer) (hs : Touch F st0 s) (f_cores : F.cores = true) :
    Touch F st0 (State.modProofer s c f) := by
  unfold State.modProofer
  repeat' (first | with_reducible (first | assumption  | apply touch_State_modCore) | refine touch_fst (by with_reducible assumption) ?_ | dsimp only | split | intro _)

theorem touch_State_modChannel (s : State) (c ch : Nat) (f : Channel → Channel) (hs : Touch F st0 s) (f_cores : F.cores = true) :
    Touch F st0 (State.modChannel s c ch f) := by
  unfold State.modChannel
  repeat' (first | with_reducible (first | assumption  | apply touch_State_modProofer) | refine touch_fst (by with_reducible assumption) ?_ | dsimp only | split | intro _)

theorem touch_State_setPort (s : State) (c p : Nat) (l : List Arrival) (hs : Touch F st0 s) (f_cores : F.cores = true) :
    Touch F st0 (State.setPort s c p l) := by
  unfold State.setPort
  repeat' (first | with_reducible (first | assumption  | apply touch_State_modPeel) | refine touch_fst (by with_reducible assumption) ?_ | dsimp only | split | intro _)

theorem touch_State_setUpdWord (s : State) (c n w : Nat) (v : Reg) (hs : Touch F st0 s) (f_cores : F.cores = true) :
    Touch F st0 (State.setUpdWord s c n w v) := by
  unfold State.setUpdWord
  repeat' (first | with_reducible (first | assumption  | apply touch_State_modPeel) | refine touch_fst (by with_reducible assumption) ?_ | dsimp only | split | intro _)

theorem touch_State_modHq (s : State) (q : Nat) (f : HQueue → HQueue) (hs : Touch F st0 s) (f_queues : F.queues = true) :
    Touch F st0 (State.modHq s q f) := by
  unfold State.modHq
  repeat' (first | with_reducible (first | assumption  | apply touch_State_setQueues) | refine touch_fst (by with_reducible assumption) ?_ | dsimp only | split | intro _)

theorem touch_State_setBarrier (s : State) (b : Nat) (x : Barrier) (hs : Touch F st0 s) (f_barriers : F.barriers = true) :
    Touch F st0 (State.setBarrier s b x) := by
  unfold State.setBarrier
  repeat' (first | with_reducible (first | assumption  | apply touch_State_setBarriers) | refine touch_fst (by with_reducible assumption) ?_ | dsimp only | split | intro _)

theorem touch_State_tick (s : State) (hs : Touch F st0 s) (f_ord : F.ord = true) :
    Touch F st0 (State.tick s) := by
  unfold State.tick
  repeat' (first | with_reducible (first | assumption  | apply touch_State_setOrd) | refine touch_fst (by with_reducible assumption) ?_ | dsimp only | split | intro _)

theorem touch_State_sendHost (s : State) (m : HostTx) (hs : Touch F st0 s) (f_hostTx : F.hostTx = true) :
    Touch F st0 (State.sendHost s m) := by
  unfold State.sendHost
  exact touch_State_setHostTx _ (List.prefix_append _ _) hs f_hostTx

theorem touch_State_modInst (s : State) (t k : Nat) (f : Inst → Inst) (hs : Touch F st0 s) (f_trays : F.trays = true) :
    Touch F st0 (State.modInst s t k f) := by
  unfold State.modInst
  repeat' (first | with_reducible (first | assumption  | apply touch_State_modTray) | refine touch_fst (by with_reducible assumption) ?_ | dsimp only | split | intro _)

theorem touch_State_modTile (s : State) (t k n : Nat) (f : OTile → OTile) (hs : Touch F st0 s) (f_trays : F.trays = true) :
    Touch F st0 (State.modTile s t k n f) := by
  unfold State.modTile
  repeat' (first | with_reducible (first | assumption  | apply touch_State_modInst) | refine touch_fst (by with_reducible assumption) ?_ | dsimp only | split | intro _)

/-! ### Ports.lean -/

theorem touch_setArb (s : State) (a : Arbiter) (hs : Touch F st0 s) (f_arbs : F.arbs = true) :
    Touch F st0 (setArb s a) := by
  unfold setArb
  repeat' (first | with_reducible (first | assumption  | apply touch_State_setArbs) | refine touch_fst (by with_reducible assumption) ?_ | dsimp only | split | intro _)

theorem touch_pushArb (s : State) (site inst : Nat) (x : ArbReq) (hs : Touch F st0 s) (f_arbs : F.arbs = true) :
    Touch F st0 (pushArb s site inst x) := by
  unfold pushArb
  repeat' (first | with_reducible (first | assumption  | apply touch_setArb) | refine touch_fst (by with_reducible assumption) ?_ | dsimp only | split | intro _)

/-! ### Mem.lean -/

theorem touch_plantAt (s : State) (a n : Nat) (hs : Touch F st0 s) (f_regs : F.regs = true) (f_planted : F.planted = true) :
    Touch F st0 (plantAt s a n) := by
  unfold plantAt
  repeat' (first | with_reducible (first | assumption  | apply touch_State_setPlanted | apply touch_State_setFld) | refine touch_fst (by with_reducible assumption) ?_ | dsimp only | split | intro _)

theorem touch_State_write (s : State) (a : Nat) (bs : List Byte) (hs : Touch F st0 s) (f_mem : F.mem = true) (f_poison : F.poison = true) (f_benchPoison :
    F.benchPoison = true) (f_regs : F.regs = true) (f_planted : F.planted = true) :
    Touch F st0 (State.write s a bs) := by
  unfold State.write
  apply touch_plantAt
  · apply touch_State_setBenchPoison _ (fun c => clearUnits_wf c)
    · apply touch_State_setPoison _ (fun c => clearUnits_wf c)
      · exact touch_State_setMem _ (fun c => putBytes_wf c) hs f_mem
      · assumption
    · assumption
  · assumption
  · assumption

theorem touch_lineLeaves (s : State) (slice line : Nat) (dirty : Bool) (hs : Touch F st0 s) (f_poison : F.poison = true) (f_regs : F.regs = true) (f_larder :
    F.larder = true) (f_arbs : F.arbs = true) :
    Touch F st0 (lineLeaves s slice line dirty) := by
  unfold lineLeaves
  repeat' (first | with_reducible (first | assumption  | apply touch_State_setPoison | apply touch_State_setLarder | apply touch_State_count | apply touch_pushArb) | (refine Tab.wf_filter _ ?_; assumption) | (refine memory_put_wf ?_ _ _; assumption) | (refine poison_put_wf ?_ _ _; assumption) | refine touch_fst (by with_reducible assumption) ?_ | dsimp only | split | intro _)

theorem touch_lineUsed (s : State) (line w : Nat) (l : LLine) (hs : Touch F st0 s) (f_larder : F.larder = true) :
    Touch F st0 (lineUsed s line w l) := by
  unfold lineUsed
  repeat' (first | with_reducible (first | assumption  | apply touch_State_setLarder) | refine touch_fst (by with_reducible assumption) ?_ | dsimp only | split | intro _)

theorem touch_larderServe (s : State) (x : ArbReq) (hs : Touch F st0 s) (f_mem : F.mem = true) (f_poison : F.poison = true) (f_benchPoison : F.benchPoison = true)
    (f_regs : F.regs = true) (f_larder : F.larder = true) (f_arbs : F.arbs = true) (f_planted : F.planted = true) :
    Touch F st0 (larderServe s x) := by
  unfold larderServe
  repeat' (first | with_reducible (first | assumption  | apply touch_State_count | apply touch_pushArb | apply touch_State_write | apply touch_lineLeaves | apply touch_lineUsed) | refine touch_fst (by with_reducible assumption) ?_ | dsimp only | split | intro _)

theorem touch_larderTouch (s : State) (walker pa n : Nat) (write : Bool) (hs : Touch F st0 s) (f_mem : F.mem = true) (f_poison : F.poison = true) (f_benchPoison :
    F.benchPoison = true) (f_regs : F.regs = true) (f_larder : F.larder = true) (f_arbs : F.arbs = true) (f_planted : F.planted = true) :
    Touch F st0 (larderTouch s walker pa n write) := by
  unfold larderTouch
  repeat' (first | with_reducible (first | assumption  | apply touch_pushArb | apply touch_larderServe | apply touch_foldl | apply touch_foldl_fst) | refine touch_fst (by with_reducible assumption) ?_ | dsimp only | split | intro _)

theorem touch_quiet (s s' : State) (hs : Touch F st0 s) (hs' : Touch F st0 s') (f_regs : F.regs = true) (f_larder : F.larder = true) (f_arbs : F.arbs = true) :
    Touch F st0 (quiet s s') := by
  unfold quiet
  repeat' (first | with_reducible (first | assumption  | apply touch_State_setLarder | apply touch_State_setArbs | apply touch_State_setReg) | refine touch_fst (by with_reducible assumption) ?_ | dsimp only | split | intro _)

theorem touch_readPlanted (s : State) (p : Planted) (hs : Touch F st0 s) (f_poison : F.poison = true) (f_benchPoison : F.benchPoison = true) (f_regs : F.regs = true)
    (f_larder : F.larder = true) (f_arbs : F.arbs = true) (f_planted : F.planted = true) :
    Touch F st0 (readPlanted s p) := by
  unfold readPlanted
  dsimp only
  split
  · apply touch_State_count _ _ _ (touch_State_setPlanted _ hs f_planted) f_regs
  · split
    · exact touch_State_setBenchPoison _ (fun c => poison_put_wf c _ _) (touch_State_count _ _ _ (touch_State_setPlanted _ hs f_planted) f_regs) f_benchPoison
    · split
      · apply touch_lineLeaves
        all_goals first | assumption | exact touch_State_setLarder _ (touch_State_count _ _ _ (touch_State_setPlanted _ hs f_planted) f_regs) f_larder
      · exact touch_State_setPoison _ (fun c => poison_put_wf c _ _) (touch_State_count _ _ _ (touch_State_setPlanted _ hs f_planted) f_regs) f_poison

theorem touch_noteRead (s : State) (a n : Nat) (hs : Touch F st0 s) (f_poison : F.poison = true) (f_benchPoison : F.benchPoison = true) (f_regs : F.regs = true)
    (f_larder : F.larder = true) (f_arbs : F.arbs = true) (f_planted : F.planted = true) :
    Touch F st0 (noteRead s a n) := by
  unfold noteRead
  repeat' (first | with_reducible (first | assumption  | apply touch_readPlanted | apply touch_foldl | apply touch_foldl_fst) | refine touch_fst (by with_reducible assumption) ?_ | dsimp only | split | intro _)

theorem touch_finishRepart (s : State) (hs : Touch F st0 s) (f_mem : F.mem = true) (f_poison : F.poison = true) (f_regs : F.regs = true) (f_larder : F.larder = true)
    (f_arbs : F.arbs = true) :
    Touch F st0 (finishRepart s) := by
  unfold finishRepart
  split
  · exact hs
  · apply touch_State_setLarder _ _ f_larder
    apply touch_State_setPoison _ (fun c => movePoison_wf c) _ f_poison
    apply touch_State_setMem _ (fun c => moveScratch_wf c) _ f_mem
    refine touch_foldl (fun s x h => ?_) _ hs
    apply touch_lineLeaves <;> assumption

theorem touch_walkTouch (s : State) (walker space va : Nat) (hs : Touch F st0 s) (f_mem : F.mem = true) (f_poison : F.poison = true) (f_benchPoison : F.benchPoison =
    true) (f_regs : F.regs = true) (f_larder : F.larder = true) (f_arbs : F.arbs = true) (f_planted : F.planted = true) :
    Touch F st0 (walkTouch s walker space va) := by
  unfold walkTouch
  repeat' (first | with_reducible (first | assumption  | apply touch_larderTouch | apply touch_foldl | apply touch_foldl_fst) | refine touch_fst (by with_reducible assumption) ?_ | dsimp only | split | intro _)

theorem touch_setTCache (s : State) (walker : Nat) (c : TCache) (hs : Touch F st0 s) (f_cores : F.cores = true) (f_mmu : F.mmu = true) :
    Touch F st0 (setTCache s walker c) := by
  unfold setTCache
  repeat' (first | with_reducible (first | assumption  | apply touch_State_setMmu | apply touch_State_modCore) | refine touch_fst (by with_reducible assumption) ?_ | dsimp only | split | intro _)

theorem touch_plantEntry (s : State) (walker i : Nat) (hs : Touch F st0 s) (f_regs : F.regs = true) (f_planted : F.planted = true) :
    Touch F st0 (plantEntry s walker i) := by
  unfold plantEntry
  repeat' (first | with_reducible (first | assumption  | apply touch_State_setPlanted | apply touch_State_setFld) | refine touch_fst (by with_reducible assumption) ?_ | dsimp only | split | intro _)

theorem touch_dropEntry (s : State) (walker i : Nat) (hs : Touch F st0 s) (f_regs : F.regs = true) (f_cores : F.cores = true) (f_mmu : F.mmu = true) (f_planted :
    F.planted = true) :
    Touch F st0 (dropEntry s walker i) := by
  unfold dropEntry
  repeat' (first | with_reducible (first | assumption  | apply touch_State_setPlanted | apply touch_State_count | apply touch_setTCache) | refine touch_fst (by with_reducible assumption) ?_ | dsimp only | split | intro _)

theorem touch_walkAndFill (s : State) (walker space va : Nat) (write : Bool) (hs : Touch F st0 s) (f_mem : F.mem = true) (f_poison : F.poison = true) (f_benchPoison
    : F.benchPoison = true) (f_regs : F.regs = true) (f_cores : F.cores = true) (f_mmu : F.mmu = true) (f_larder : F.larder = true) (f_arbs : F.arbs = true) (f_planted :
    F.planted = true) :
    Touch F st0 (walkAndFill s walker space va write).1 := by
  unfold walkAndFill
  repeat' (first | with_reducible (first | assumption  | apply touch_State_count | apply touch_walkTouch | apply touch_setTCache | apply touch_plantEntry) | refine touch_fst (by with_reducible assumption) ?_ | dsimp only | split | intro _)

theorem touch_translate (s : State) (walker space : Nat) (va : Int) (write : Bool) (hs : Touch F st0 s) (f_mem : F.mem = true) (f_poison : F.poison = true)
    (f_benchPoison : F.benchPoison = true) (f_regs : F.regs = true) (f_cores : F.cores = true) (f_mmu : F.mmu = true) (f_larder : F.larder = true) (f_arbs : F.arbs =
    true) (f_planted : F.planted = true) :
    Touch F st0 (translate s walker space va write).1 := by
  unfold translate
  repeat' (first | with_reducible (first | assumption  | apply touch_setTCache | apply touch_dropEntry | apply touch_walkAndFill) | refine touch_fst (by with_reducible assumption) ?_ | dsimp only | split | intro _)

theorem touch_andThen {α β : Type} (r : State × Except MemErr α) (f : State → α → State × Except MemErr β) (hr : Touch F st0 r.1) (hf : ∀ x0 x1, Touch F st0 x0 →
    Touch F st0 (f x0 x1).1) :
    Touch F st0 (andThen r f).1 := by
  unfold andThen
  split
  · exact hr
  · exact hf _ _ hr

theorem touch_forEach {α : Type} (f : State → α → State × Except MemErr Unit) (hf : ∀ x0 x1, Touch F st0 x0 → Touch F st0 (f x0 x1).1) :
    ∀ (y0 : List α) (y1 : State), Touch F st0 y1 → Touch F st0 (forEach f y0 y1).1 := by
  intro y0
  induction y0 with
  | nil =>
    intros; unfold forEach
    repeat' (first | with_reducible (first | assumption  | apply touch_andThen | apply hf) | refine touch_fst (by with_reducible assumption) ?_ | dsimp only | split | intro _)
  | cons x l ih =>
    intros; unfold forEach
    repeat' (first | with_reducible (first | assumption | apply ih | apply touch_andThen | apply hf) | refine touch_fst (by with_reducible assumption) ?_ | dsimp only | split | intro _)

theorem touch_translateAll (s : State) (walker space : Nat) (write : Bool) (hs : Touch F st0 s) (f_mem : F.mem = true) (f_poison : F.poison = true) (f_benchPoison :
    F.benchPoison = true) (f_regs : F.regs = true) (f_cores : F.cores = true) (f_mmu : F.mmu = true) (f_larder : F.larder = true) (f_arbs : F.arbs = true) (f_planted :
    F.planted = true) :
    ∀ (y0 : List (Int × Nat)), Touch F st0 (translateAll s walker space write y0).1 := by
  intro y0
  induction y0 generalizing s with
  | nil =>
    unfold translateAll
    repeat' (first | with_reducible (first | assumption  | apply touch_noteRead | apply touch_translate) | refine touch_fst (by with_reducible assumption) ?_ | dsimp only | split | intro _)
  | cons x l ih =>
    unfold translateAll
    repeat' (first | with_reducible (first | assumption | apply ih | apply touch_noteRead | apply touch_translate) | refine touch_fst (by with_reducible assumption) ?_ | dsimp only | split | intro _)

theorem touch_readV (s : State) (walker space : Nat) (va : Int) (n : Nat) (hs : Touch F st0 s) (f_mem : F.mem = true) (f_poison : F.poison = true) (f_benchPoison :
    F.benchPoison = true) (f_regs : F.regs = true) (f_cores : F.cores = true) (f_mmu : F.mmu = true) (f_larder : F.larder = true) (f_arbs : F.arbs = true) (f_planted :
    F.planted = true) :
    Touch F st0 (readV s walker space va n).1 := by
  unfold readV
  repeat' (first | with_reducible (first | assumption  | apply touch_larderTouch | apply touch_translateAll | apply touch_foldl | apply touch_foldl_fst) | refine touch_fst (by with_reducible assumption) ?_ | dsimp only | split | intro _)

theorem touch_writePieces (s : State) (walker : Nat) (hs : Touch F st0 s) (f_mem : F.mem = true) (f_poison : F.poison = true) (f_benchPoison : F.benchPoison = true)
    (f_regs : F.regs = true) (f_larder : F.larder = true) (f_arbs : F.arbs = true) (f_planted : F.planted = true) :
    ∀ (y0 : List (Nat × Nat)) (y1 : List Byte), Touch F st0 (writePieces s walker y0 y1) := by
  intro y0
  induction y0 generalizing s with
  | nil =>
    intros; unfold writePieces
    repeat' (first | with_reducible (first | assumption  | apply touch_State_write | apply touch_larderTouch) | refine touch_fst (by with_reducible assumption) ?_ | dsimp only | split | intro _)
  | cons x l ih =>
    intros; unfold writePieces
    repeat' (first | with_reducible (first | assumption | apply ih | apply touch_State_write | apply touch_larderTouch) | refine touch_fst (by with_reducible assumption) ?_ | dsimp only | split | intro _)

theorem touch_writeV (s : State) (walker space : Nat) (va : Int) (bs : List Byte) (hs : Touch F st0 s) (f_mem : F.mem = true) (f_poison : F.poison = true)
    (f_benchPoison : F.benchPoison = true) (f_regs : F.regs = true) (f_cores : F.cores = true) (f_mmu : F.mmu = true) (f_larder : F.larder = true) (f_arbs : F.arbs =
    true) (f_planted : F.planted = true) :
    Touch F st0 (writeV s walker space va bs).1 := by
  unfold writeV
  repeat' (first | with_reducible (first | assumption  | apply touch_translateAll | apply touch_writePieces) | refine touch_fst (by with_reducible assumption) ?_ | dsimp only | split | intro _)

theorem touch_blurBytes (s : State) (pa n : Nat) (hs : Touch F st0 s) (f_free : F.free = true) (f_mem : F.mem = true) :
    Touch F st0 (blurBytes s pa n) := by
  unfold blurBytes
  repeat' (first | with_reducible (first | assumption  | apply touch_State_setFree | apply touch_State_setMem | apply touch_foldl | apply touch_foldl_fst) | (refine Tab.wf_filter _ ?_; assumption) | (refine memory_put_wf ?_ _ _; assumption) | (refine poison_put_wf ?_ _ _; assumption) | refine touch_fst (by with_reducible assumption) ?_ | dsimp only | split | intro _)

theorem touch_benchWrite (s : State) (c off : Nat) (bs : List Byte) (hs : Touch F st0 s) (f_mem : F.mem = true) (f_poison : F.poison = true) (f_benchPoison :
    F.benchPoison = true) (f_regs : F.regs = true) (f_planted : F.planted = true) :
    Touch F st0 (benchWrite s c off bs) := by
  unfold benchWrite
  repeat' (first | with_reducible (first | assumption  | apply touch_State_write) | refine touch_fst (by with_reducible assumption) ?_ | dsimp only | split | intro _)

/-! ### Tasks.lean -/

theorem touch_logError (s : State) (code scope queue tray index aux addr : Nat) (hs : Touch F st0 s) (f_regs : F.regs = true) (f_errLog : F.errLog = true) :
    Touch F st0 (logError s code scope queue tray index aux addr) := by
  unfold logError
  repeat' (first | with_reducible (first | assumption  | apply touch_State_setErrLog | apply touch_State_setFld) | refine touch_fst (by with_reducible assumption) ?_ | dsimp only | split | intro _)

theorem touch_discardTray (s : State) (t : Nat) (ends : Bool) (hs : Touch F st0 s) (f_cores : F.cores = true) (f_mmu : F.mmu = true) (f_arbs : F.arbs = true)
    (f_staon : F.staon = true) :
    Touch F st0 (discardTray s t ends) := by
  unfold discardTray
  repeat' (first | with_reducible (first | assumption  | apply touch_State_setMmu | apply touch_State_setArbs | apply touch_State_setStaon | apply touch_State_modCore | apply touch_id) | refine touch_fst (by with_reducible assumption) ?_ | dsimp only | split | intro _)

theorem touch_stopQueue (s : State) (q : Nat) (hs : Touch F st0 s) (f_regs : F.regs = true) :
    Touch F st0 (stopQueue s q) := by
  unfold stopQueue
  repeat' (first | with_reducible (first | assumption  | apply touch_State_setFld) | refine touch_fst (by with_reducible assumption) ?_ | dsimp only | split | intro _)

theorem touch_addRec (s : State) (r : Rec) (hs : Touch F st0 s) (f_queues : F.queues = true) :
    Touch F st0 (addRec s r) := by
  unfold addRec
  repeat' (first | with_reducible (first | assumption  | apply touch_State_modHq) | refine touch_fst (by with_reducible assumption) ?_ | dsimp only | split | intro _)

theorem touch_dropEnds (s : State) (t : Nat) (hs : Touch F st0 s) (f_trays : F.trays = true) (f_queues : F.queues = true) :
    Touch F st0 (dropEnds s t) := by
  unfold dropEnds
  repeat' (first | with_reducible (first | assumption  | apply touch_State_modTray | apply touch_State_modHq) | refine touch_fst (by with_reducible assumption) ?_ | dsimp only | split | intro _)

theorem touch_endTaskLog (s : State) (t code index pass rowBlk aux addr logAux logAddr : Nat) (hs : Touch F st0 s) (f_regs : F.regs = true) (f_trays : F.trays =
    true) (f_queues : F.queues = true) (f_cores : F.cores = true) (f_mmu : F.mmu = true) (f_arbs : F.arbs = true) (f_errLog : F.errLog = true) (f_staon : F.staon = true)
    :
    Touch F st0 (endTaskLog s t code index pass rowBlk aux addr logAux logAddr) := by
  unfold endTaskLog
  repeat' (first | with_reducible (first | assumption  | apply touch_State_count | apply touch_State_modTray | apply touch_logError | apply touch_discardTray | apply touch_stopQueue | apply touch_dropEnds) | refine touch_fst (by with_reducible assumption) ?_ | dsimp only | split | intro _)

theorem touch_endTask (s : State) (t code index pass rowBlk aux addr : Nat) (hs : Touch F st0 s) (f_regs : F.regs = true) (f_trays : F.trays = true) (f_queues :
    F.queues = true) (f_cores : F.cores = true) (f_mmu : F.mmu = true) (f_arbs : F.arbs = true) (f_errLog : F.errLog = true) (f_staon : F.staon = true) :
    Touch F st0 (endTask s t code index pass rowBlk aux addr) := by
  unfold endTask
  repeat' (first | with_reducible (first | assumption  | apply touch_endTaskLog) | refine touch_fst (by with_reducible assumption) ?_ | dsimp only | split | intro _)

theorem touch_faultInstLog (s : State) (t k code aux addr logAux logAddr : Nat) (hs : Touch F st0 s) (f_regs : F.regs = true) (f_trays : F.trays = true) (f_queues :
    F.queues = true) (f_cores : F.cores = true) (f_mmu : F.mmu = true) (f_arbs : F.arbs = true) (f_errLog : F.errLog = true) (f_staon : F.staon = true) :
    Touch F st0 (faultInstLog s t k code aux addr logAux logAddr) := by
  unfold faultInstLog
  repeat' (first | with_reducible (first | assumption  | apply touch_State_modTray | apply touch_endTaskLog) | refine touch_fst (by with_reducible assumption) ?_ | dsimp only | split | intro _)

theorem touch_faultInst (s : State) (t k code aux addr : Nat) (hs : Touch F st0 s) (f_regs : F.regs = true) (f_trays : F.trays = true) (f_queues : F.queues = true)
    (f_cores : F.cores = true) (f_mmu : F.mmu = true) (f_arbs : F.arbs = true) (f_errLog : F.errLog = true) (f_staon : F.staon = true) :
    Touch F st0 (faultInst s t k code aux addr) := by
  unfold faultInst
  repeat' (first | with_reducible (first | assumption  | apply touch_faultInstLog) | refine touch_fst (by with_reducible assumption) ?_ | dsimp only | split | intro _)

theorem touch_faultIssue (s : State) (t index code aux addr : Nat) (w : IWord) (hs : Touch F st0 s) (f_regs : F.regs = true) (f_trays : F.trays = true) (f_queues :
    F.queues = true) (f_cores : F.cores = true) (f_mmu : F.mmu = true) (f_arbs : F.arbs = true) (f_errLog : F.errLog = true) (f_staon : F.staon = true) :
    Touch F st0 (faultIssue s t index code aux addr w) := by
  unfold faultIssue
  repeat' (first | with_reducible (first | assumption  | apply touch_State_modTray | apply touch_endTask) | refine touch_fst (by with_reducible assumption) ?_ | dsimp only | split | intro _)

theorem touch_pauseTask (s : State) (t index pass rowBlk tag va : Nat) (stat : Bool) (hs : Touch F st0 s) (f_regs : F.regs = true) (f_trays : F.trays = true)
    (f_queues : F.queues = true) (f_cores : F.cores = true) (f_mmu : F.mmu = true) (f_arbs : F.arbs = true) (f_errLog : F.errLog = true) (f_staon : F.staon = true) :
    Touch F st0 (pauseTask s t index pass rowBlk tag va stat) := by
  unfold pauseTask
  repeat' (first | with_reducible (first | assumption  | apply touch_State_count | apply touch_State_modTray | apply touch_logError | apply touch_discardTray | apply touch_addRec) | refine touch_fst (by with_reducible assumption) ?_ | dsimp only | split | intro _)

theorem touch_memFault (s : State) (t k : Nat) (e : MemErr) (hs : Touch F st0 s) (f_regs : F.regs = true) (f_trays : F.trays = true) (f_queues : F.queues = true)
    (f_cores : F.cores = true) (f_mmu : F.mmu = true) (f_arbs : F.arbs = true) (f_errLog : F.errLog = true) (f_staon : F.staon = true) :
    Touch F st0 (memFault s t k e) := by
  unfold memFault
  repeat' (first | with_reducible (first | assumption  | apply touch_faultInstLog | apply touch_faultInst | apply touch_pauseTask) | refine touch_fst (by with_reducible assumption) ?_ | dsimp only | split | intro _)

theorem touch_breakBarrier (s : State) (b : Nat) (hs : Touch F st0 s) (f_regs : F.regs = true) (f_trays : F.trays = true) (f_barriers : F.barriers = true) (f_queues
    : F.queues = true) (f_cores : F.cores = true) (f_mmu : F.mmu = true) (f_arbs : F.arbs = true) (f_errLog : F.errLog = true) (f_staon : F.staon = true) :
    Touch F st0 (breakBarrier s b) := by
  unfold breakBarrier
  repeat' (first | with_reducible (first | assumption  | apply touch_State_setBarrier | apply touch_faultInst | apply touch_foldl | apply touch_foldl_fst) | refine touch_fst (by with_reducible assumption) ?_ | dsimp only | split | intro _)

theorem touch_arriveBarrier (s : State) (t k b mask : Nat) (hs : Touch F st0 s) (f_regs : F.regs = true) (f_trays : F.trays = true) (f_barriers : F.barriers = true)
    (f_queues : F.queues = true) (f_cores : F.cores = true) (f_mmu : F.mmu = true) (f_arbs : F.arbs = true) (f_errLog : F.errLog = true) (f_staon : F.staon = true) :
    Touch F st0 (arriveBarrier s t k b mask) := by
  unfold arriveBarrier
  repeat' (first | with_reducible (first | assumption  | apply touch_State_setBarrier | apply touch_State_modInst | apply touch_breakBarrier | apply touch_foldl | apply touch_foldl_fst) | refine touch_fst (by with_reducible assumption) ?_ | dsimp only | split | intro _)

theorem touch_endBarriers (s : State) (t : Nat) (hs : Touch F st0 s) (f_regs : F.regs = true) (f_trays : F.trays = true) (f_barriers : F.barriers = true) (f_queues :
    F.queues = true) (f_cores : F.cores = true) (f_mmu : F.mmu = true) (f_arbs : F.arbs = true) (f_errLog : F.errLog = true) (f_staon : F.staon = true) :
    Touch F st0 (endBarriers s t) := by
  unfold endBarriers
  repeat' (first | with_reducible (first | assumption  | apply touch_State_setBarrier | apply touch_breakBarrier | apply touch_foldl | apply touch_foldl_fst) | refine touch_fst (by with_reducible assumption) ?_ | dsimp only | split | intro _)

/-! ### Tensor.lean -/

theorem touch_fetchBytes (s : State) (c space : Nat) (d : Desc) (off n : Nat) (hs : Touch F st0 s) (f_mem : F.mem = true) (f_poison : F.poison = true) (f_benchPoison
    : F.benchPoison = true) (f_regs : F.regs = true) (f_cores : F.cores = true) (f_mmu : F.mmu = true) (f_larder : F.larder = true) (f_arbs : F.arbs = true) (f_planted :
    F.planted = true) :
    Touch F st0 (fetchBytes s c space d off n).1 := by
  unfold fetchBytes
  repeat' (first | with_reducible (first | assumption  | apply touch_noteRead | apply touch_readV) | refine touch_fst (by with_reducible assumption) ?_ | dsimp only | split | intro _)

theorem touch_fetchCrumb (s : State) (c space : Nat) (d : Desc) (r seg : Nat) (hs : Touch F st0 s) (f_mem : F.mem = true) (f_poison : F.poison = true) (f_benchPoison
    : F.benchPoison = true) (f_regs : F.regs = true) (f_cores : F.cores = true) (f_mmu : F.mmu = true) (f_larder : F.larder = true) (f_arbs : F.arbs = true) (f_planted :
    F.planted = true) :
    Touch F st0 (fetchCrumb s c space d r seg).1 := by
  unfold fetchCrumb
  repeat' (first | with_reducible (first | assumption  | apply touch_fetchBytes) | refine touch_fst (by with_reducible assumption) ?_ | dsimp only | split | intro _)

theorem touch_fetchUnit (s : State) (c space : Nat) (d : Desc) (r c0 lim u : Nat) (hs : Touch F st0 s) (f_mem : F.mem = true) (f_poison : F.poison = true)
    (f_benchPoison : F.benchPoison = true) (f_regs : F.regs = true) (f_cores : F.cores = true) (f_mmu : F.mmu = true) (f_larder : F.larder = true) (f_arbs : F.arbs =
    true) (f_planted : F.planted = true) :
    Touch F st0 (fetchUnit s c space d r c0 lim u).1 := by
  unfold fetchUnit
  repeat' (first | with_reducible (first | assumption  | apply touch_fetchBytes | apply touch_fetchCrumb) | refine touch_fst (by with_reducible assumption) ?_ | dsimp only | split | intro _)

theorem touch_fetchUnits (s : State) (c space : Nat) (d : Desc) (r c0 lim : Nat) (hs : Touch F st0 s) (f_mem : F.mem = true) (f_poison : F.poison = true)
    (f_benchPoison : F.benchPoison = true) (f_regs : F.regs = true) (f_cores : F.cores = true) (f_mmu : F.mmu = true) (f_larder : F.larder = true) (f_arbs : F.arbs =
    true) (f_planted : F.planted = true) :
    ∀ (y0 : List Nat), Touch F st0 (fetchUnits s c space d r c0 lim y0).1 := by
  intro y0
  induction y0 generalizing s with
  | nil =>
    unfold fetchUnits
    repeat' (first | with_reducible (first | assumption  | apply touch_fetchUnit) | refine touch_fst (by with_reducible assumption) ?_ | dsimp only | split | intro _)
  | cons x l ih =>
    unfold fetchUnits
    repeat' (first | with_reducible (first | assumption | apply ih | apply touch_fetchUnit) | refine touch_fst (by with_reducible assumption) ?_ | dsimp only | split | intro _)

theorem touch_rowEls (s : State) (c space : Nat) (d : Desc) (pl : Place) (r c0 cnt lim : Nat) (hs : Touch F st0 s) (f_mem : F.mem = true) (f_poison : F.poison =
    true) (f_benchPoison : F.benchPoison = true) (f_regs : F.regs = true) (f_cores : F.cores = true) (f_mmu : F.mmu = true) (f_larder : F.larder = true) (f_arbs : F.arbs
    = true) (f_planted : F.planted = true) :
    Touch F st0 (rowEls s c space d pl r c0 cnt lim).1 := by
  unfold rowEls
  repeat' (first | with_reducible (first | assumption  | apply touch_noteRead | apply touch_fetchUnits) | refine touch_fst (by with_reducible assumption) ?_ | dsimp only | split | intro _)

theorem touch_writeMx (s : State) (c space : Nat) (d : Desc) (r : Nat) (els : List WEl) (hs : Touch F st0 s) (f_mem : F.mem = true) (f_poison : F.poison = true)
    (f_benchPoison : F.benchPoison = true) (f_regs : F.regs = true) (f_cores : F.cores = true) (f_mmu : F.mmu = true) (f_larder : F.larder = true) (f_arbs : F.arbs =
    true) (f_planted : F.planted = true) :
    ∀ (y0 : List Nat), Touch F st0 (writeMx s c space d r els y0).1 := by
  intro y0
  induction y0 generalizing s with
  | nil =>
    unfold writeMx
    repeat' (first | with_reducible (first | assumption  | apply touch_fetchBytes) | refine touch_fst (by with_reducible assumption) ?_ | dsimp only | split | intro _)
  | cons x l ih =>
    unfold writeMx
    repeat' (first | with_reducible (first | assumption | apply ih | apply touch_fetchBytes) | refine touch_fst (by with_reducible assumption) ?_ | dsimp only | split | intro _)

theorem touch_writeRow (s : State) (c space : Nat) (d : Desc) (r : Nat) (els : List WEl) (hs : Touch F st0 s) (f_mem : F.mem = true) (f_poison : F.poison = true)
    (f_benchPoison : F.benchPoison = true) (f_regs : F.regs = true) (f_cores : F.cores = true) (f_mmu : F.mmu = true) (f_larder : F.larder = true) (f_arbs : F.arbs =
    true) (f_planted : F.planted = true) :
    Touch F st0 (writeRow s c space d r els).1 := by
  unfold writeRow
  repeat' (first | with_reducible (first | assumption  | apply touch_fetchBytes | apply touch_writeMx) | refine touch_fst (by with_reducible assumption) ?_ | dsimp only | split | intro _)

theorem touch_applyWrites (s : State) (c space : Nat) (bench : Bool) (hs : Touch F st0 s) (f_mem : F.mem = true) (f_poison : F.poison = true) (f_benchPoison :
    F.benchPoison = true) (f_regs : F.regs = true) (f_cores : F.cores = true) (f_mmu : F.mmu = true) (f_larder : F.larder = true) (f_arbs : F.arbs = true) (f_planted :
    F.planted = true) :
    ∀ (y0 : Writes), Touch F st0 (applyWrites s c space bench y0).1 := by
  intro y0
  induction y0 generalizing s with
  | nil =>
    unfold applyWrites
    repeat' (first | with_reducible (first | assumption  | apply touch_writeV | apply touch_benchWrite) | refine touch_fst (by with_reducible assumption) ?_ | dsimp only | split | intro _)
  | cons x l ih =>
    unfold applyWrites
    repeat' (first | with_reducible (first | assumption | apply ih | apply touch_writeV | apply touch_benchWrite) | refine touch_fst (by with_reducible assumption) ?_ | dsimp only | split | intro _)

theorem touch_probeWrites (s : State) (c space : Nat) (bench : Bool) (hs : Touch F st0 s) (f_mem : F.mem = true) (f_poison : F.poison = true) (f_benchPoison :
    F.benchPoison = true) (f_regs : F.regs = true) (f_cores : F.cores = true) (f_mmu : F.mmu = true) (f_larder : F.larder = true) (f_arbs : F.arbs = true) (f_planted :
    F.planted = true) :
    ∀ (y0 : Writes), Touch F st0 (probeWrites s c space bench y0).1 := by
  intro y0
  induction y0 generalizing s with
  | nil =>
    unfold probeWrites
    repeat' (first | with_reducible (first | assumption  | apply touch_translateAll) | refine touch_fst (by with_reducible assumption) ?_ | dsimp only | split | intro _)
  | cons x l ih =>
    unfold probeWrites
    repeat' (first | with_reducible (first | assumption | apply ih | apply touch_translateAll) | refine touch_fst (by with_reducible assumption) ?_ | dsimp only | split | intro _)

theorem touch_commitWrites (s : State) (c space : Nat) (bench : Bool) (ws : Writes) (hs : Touch F st0 s) (f_mem : F.mem = true) (f_poison : F.poison = true)
    (f_benchPoison : F.benchPoison = true) (f_regs : F.regs = true) (f_cores : F.cores = true) (f_mmu : F.mmu = true) (f_larder : F.larder = true) (f_arbs : F.arbs =
    true) (f_planted : F.planted = true) :
    Touch F st0 (commitWrites s c space bench ws).1 := by
  unfold commitWrites
  repeat' (first | with_reducible (first | assumption  | apply touch_applyWrites | apply touch_probeWrites) | refine touch_fst (by with_reducible assumption) ?_ | dsimp only | split | intro _)

/-! ### RegOps.lean -/

theorem touch_recordRefused (s : State) (off : Nat) (b : Busy) (i : Nat) (hs : Touch F st0 s) (f_regs : F.regs = true) :
    Touch F st0 (recordRefused s off b i) := by
  unfold recordRefused
  repeat' (first | with_reducible (first | assumption  | apply touch_State_setFld | apply touch_State_count) | refine touch_fst (by with_reducible assumption) ?_ | dsimp only | split | intro _)

theorem touch_stageRws (s : State) (c : Nat) (hs : Touch F st0 s) (f_trays : F.trays = true) :
    Touch F st0 (stageRws s c) := by
  unfold stageRws
  repeat' (first | with_reducible (first | assumption  | apply touch_State_modTray | apply touch_foldl | apply touch_foldl_fst) | refine touch_fst (by with_reducible assumption) ?_ | dsimp only | split | intro _)

theorem touch_storeWrite (s : State) (off : Nat) (d : RegDef) (i : Nat) (v : Reg) (hs : Touch F st0 s) (f_regs : F.regs = true) (f_trays : F.trays = true) :
    Touch F st0 (storeWrite s off d i v) := by
  unfold storeWrite
  repeat' (first | with_reducible (first | assumption  | apply touch_State_setReg | apply touch_recordRefused | apply touch_stageRws) | refine touch_fst (by with_reducible assumption) ?_ | dsimp only | split | intro _)

/-! ### Power.lean -/

theorem touch_State_modHearth (s : State) (f : Hearth → Hearth) (hs : Touch F st0 s) (f_hearth : F.hearth = true) :
    Touch F st0 (State.modHearth s f) := by
  unfold State.modHearth
  repeat' (first | with_reducible (first | assumption  | apply touch_State_setHearth) | refine touch_fst (by with_reducible assumption) ?_ | dsimp only | split | intro _)

theorem touch_State_modPower (s : State) (f : Power → Power) (hs : Touch F st0 s) (f_power : F.power = true) :
    Touch F st0 (State.modPower s f) := by
  unfold State.modPower
  repeat' (first | with_reducible (first | assumption  | apply touch_State_setPower) | refine touch_fst (by with_reducible assumption) ?_ | dsimp only | split | intro _)

theorem touch_hearthLog (s : State) (code detail : Nat) (hs : Touch F st0 s) (f_hearth : F.hearth = true) :
    Touch F st0 (hearthLog s code detail) := by
  unfold hearthLog
  repeat' (first | with_reducible (first | assumption  | apply touch_State_modHearth) | refine touch_fst (by with_reducible assumption) ?_ | dsimp only | split | intro _)

theorem touch_hearthEvent (s : State) (code detail : Nat) (hs : Touch F st0 s) (f_hearth : F.hearth = true) :
    Touch F st0 (hearthEvent s code detail) := by
  unfold hearthEvent
  repeat' (first | with_reducible (first | assumption  | apply touch_State_modHearth | apply touch_hearthLog) | refine touch_fst (by with_reducible assumption) ?_ | dsimp only | split | intro _)

theorem touch_setDom (s : State) (d : Nat) (x : DomState) (hs : Touch F st0 s) (f_power : F.power = true) :
    Touch F st0 (setDom s d x) := by
  unfold setDom
  repeat' (first | with_reducible (first | assumption  | apply touch_State_modPower) | refine touch_fst (by with_reducible assumption) ?_ | dsimp only | split | intro _)

theorem touch_requestWake (s : State) (d : Nat) (hs : Touch F st0 s) (f_power : F.power = true) :
    Touch F st0 (requestWake s d) := by
  unfold requestWake
  repeat' (first | with_reducible (first | assumption  | apply touch_State_modPower | apply touch_setDom) | refine touch_fst (by with_reducible assumption) ?_ | dsimp only | split | intro _)

theorem touch_stepNeeds (s : State) (ds : List Nat) (hs : Touch F st0 s) (f_power : F.power = true) :
    Touch F st0 (stepNeeds s ds) := by
  unfold stepNeeds
  repeat' (first | with_reducible (first | assumption  | apply touch_State_modPower | apply touch_requestWake | apply touch_foldl) | refine touch_fst (by with_reducible assumption) ?_ | dsimp only | split | intro _)

theorem touch_beginOff (s : State) (d : Nat) (hs : Touch F st0 s) (f_power : F.power = true) :
    Touch F st0 (beginOff s d) := by
  unfold beginOff
  repeat' (first | with_reducible (first | assumption  | apply touch_setDom) | refine touch_fst (by with_reducible assumption) ?_ | dsimp only | split | intro _)

theorem touch_idleOff (s : State) (d : Nat) (hs : Touch F st0 s) (f_power : F.power = true) :
    Touch F st0 (idleOff s d) := by
  unfold idleOff
  repeat' (first | with_reducible (first | assumption  | apply touch_beginOff) | refine touch_fst (by with_reducible assumption) ?_ | dsimp only | split | intro _)

theorem touch_gateDomains (s : State) (hs : Touch F st0 s) (f_power : F.power = true) :
    Touch F st0 (gateDomains s) := by
  unfold gateDomains
  repeat' (first | with_reducible (first | assumption  | apply touch_idleOff | apply touch_foldl | apply touch_foldl_fst) | refine touch_fst (by with_reducible assumption) ?_ | dsimp only | split | intro _)

theorem touch_loseBytes (s : State) (lost : Nat → Bool) (hs : Touch F st0 s) (f_mem : F.mem = true) :
    Touch F st0 (loseBytes s lost) := by
  unfold loseBytes
  repeat' (first | with_reducible (first | assumption  | apply touch_State_setMem) | (refine Tab.wf_filter _ ?_; assumption) | (refine memory_put_wf ?_ _ _; assumption) | (refine poison_put_wf ?_ _ _; assumption) | refine touch_fst (by with_reducible assumption) ?_ | dsimp only | split | intro _)

theorem touch_freeBytes (s : State) (as : List Nat) (hs : Touch F st0 s) (f_free : F.free = true) (f_mem : F.mem = true) :
    Touch F st0 (freeBytes s as) := by
  unfold freeBytes
  repeat' (first | with_reducible (first | assumption  | apply touch_State_setFree | apply touch_State_setMem | apply touch_foldl | apply touch_foldl_fst) | (refine Tab.wf_filter _ ?_; assumption) | (refine memory_put_wf ?_ _ _; assumption) | (refine poison_put_wf ?_ _ _; assumption) | refine touch_fst (by with_reducible assumption) ?_ | dsimp only | split | intro _)

theorem touch_loseReg (s : State) (d : RegDef) (off : Nat) (hs : Touch F st0 s) (f_free : F.free = true) (f_regs : F.regs = true) :
    Touch F st0 (loseReg s d off) := by
  unfold loseReg
  repeat' (first | with_reducible (first | assumption  | apply touch_State_setFree | apply touch_State_setReg | apply touch_foldl | apply touch_foldl_fst) | refine touch_fst (by with_reducible assumption) ?_ | dsimp only | split | intro _)

theorem touch_loseRegs (s : State) (c : Option Nat) (hs : Touch F st0 s) (f_free : F.free = true) (f_regs : F.regs = true) :
    Touch F st0 (loseRegs s c) := by
  unfold loseRegs
  repeat' (first | with_reducible (first | assumption  | apply touch_loseReg | apply touch_foldl | apply touch_foldl_fst) | refine touch_fst (by with_reducible assumption) ?_ | dsimp only | split | intro _)

theorem touch_domLoses (s : State) (d : Nat) (hs : Touch F st0 s) (f_free : F.free = true) (f_mem : F.mem = true) (f_poison : F.poison = true) (f_benchPoison :
    F.benchPoison = true) (f_regs : F.regs = true) (f_cores : F.cores = true) (f_larder : F.larder = true) (f_arbs : F.arbs = true) :
    Touch F st0 (domLoses s d) := by
  unfold domLoses
  repeat' (first | with_reducible (first | assumption  | apply touch_State_setPoison | apply touch_State_setBenchPoison | apply touch_State_setLarder | apply touch_State_setArbs | apply touch_State_modCore | apply touch_State_modArray | apply touch_State_modSieve | apply touch_State_modVec | apply touch_loseBytes | apply touch_freeBytes | apply touch_loseRegs | apply touch_foldl | apply touch_foldl_fst) | (refine Tab.wf_filter _ ?_; assumption) | (refine memory_put_wf ?_ _ _; assumption) | (refine poison_put_wf ?_ _ _; assumption) | (refine Tab.wf_foldl _ (fun _ _ c => poison_put_wf c _ _) _ ?_; assumption) | refine touch_fst (by with_reducible assumption) ?_ | dsimp only | split | intro _)

theorem touch_switchOffDone (s : State) (d : Nat) (hs : Touch F st0 s) (f_free : F.free = true) (f_mem : F.mem = true) (f_poison : F.poison = true) (f_benchPoison :
    F.benchPoison = true) (f_regs : F.regs = true) (f_cores : F.cores = true) (f_larder : F.larder = true) (f_arbs : F.arbs = true) (f_power : F.power = true) :
    Touch F st0 (switchOffDone s d) := by
  unfold switchOffDone
  repeat' (first | with_reducible (first | assumption  | apply touch_State_modPower | apply touch_setDom | apply touch_requestWake | apply touch_domLoses) | refine touch_fst (by with_reducible assumption) ?_ | dsimp only | split | intro _)

theorem touch_drawTokens (s : State) (hs : Touch F st0 s) (f_power : F.power = true) :
    Touch F st0 (drawTokens s) := by
  unfold drawTokens
  repeat' (first | with_reducible (first | assumption  | apply touch_State_modPower) | refine touch_fst (by with_reducible assumption) ?_ | dsimp only | split | intro _)

theorem touch_waitsEnd (s : State) (d : Nat) (hs : Touch F st0 s) (f_regs : F.regs = true) (f_power : F.power = true) :
    Touch F st0 (waitsEnd s d) := by
  unfold waitsEnd
  repeat' (first | with_reducible (first | assumption  | apply touch_State_count | apply touch_State_modPower | apply touch_foldl) | refine touch_fst (by with_reducible assumption) ?_ | dsimp only | split | intro _)

theorem touch_wakeDone (s : State) (d : Nat) (hs : Touch F st0 s) (f_regs : F.regs = true) (f_power : F.power = true) :
    Touch F st0 (wakeDone s d) := by
  unfold wakeDone
  repeat' (first | with_reducible (first | assumption  | apply touch_waitsEnd | apply touch_State_count | apply touch_State_modPower | apply touch_setDom) | refine touch_fst (by with_reducible assumption) ?_ | dsimp only | split | intro _)

theorem touch_writeDomOn (s : State) (half : Nat) (v : Reg) (hs : Touch F st0 s) (f_regs : F.regs = true) (f_power : F.power = true) :
    Touch F st0 (writeDomOn s half v) := by
  unfold writeDomOn
  repeat' (first | with_reducible (first | assumption  | apply touch_State_setFld | apply touch_requestWake | apply touch_beginOff | apply touch_foldl | apply touch_foldl_fst) | refine touch_fst (by with_reducible assumption) ?_ | dsimp only | split | intro _)

theorem touch_writeDomHold (s : State) (half : Nat) (v : Reg) (hs : Touch F st0 s) (f_regs : F.regs = true) :
    Touch F st0 (writeDomHold s half v) := by
  unfold writeDomHold
  repeat' (first | with_reducible (first | assumption  | apply touch_State_setFld | apply touch_foldl | apply touch_foldl_fst) | refine touch_fst (by with_reducible assumption) ?_ | dsimp only | split | intro _)

theorem touch_governorStep (s : State) (counts : List Nat) (hs : Touch F st0 s) (f_regs : F.regs = true) (f_power : F.power = true) :
    Touch F st0 (governorStep s counts) := by
  unfold governorStep
  repeat' (first | with_reducible (first | assumption  | apply touch_State_count | apply touch_State_modPower) | refine touch_fst (by with_reducible assumption) ?_ | dsimp only | split | intro _)

theorem touch_driftStep (s : State) (measured : Nat) (hs : Touch F st0 s) (f_regs : F.regs = true) (f_modhw : F.modhw = true) :
    Touch F st0 (driftStep s measured) := by
  unfold driftStep
  repeat' (first | with_reducible (first | assumption  | apply touch_State_setModhw | apply touch_State_setFld) | refine touch_fst (by with_reducible assumption) ?_ | dsimp only | split | intro _)

theorem touch_thermalStep (s : State) (temps : List Int) (hs : Touch F st0 s) (f_regs : F.regs = true) (f_power : F.power = true) (f_hearth : F.hearth = true)
    (f_modhw : F.modhw = true) :
    Touch F st0 (thermalStep s temps) := by
  unfold thermalStep
  repeat' (first | with_reducible (first | assumption  | apply touch_State_setModhw | apply touch_State_setFld | apply touch_State_modPower | apply touch_hearthEvent) | refine touch_fst (by with_reducible assumption) ?_ | dsimp only | split | intro _)

/-! ### FabAddr.lean -/

theorem touch_State_modStaon (s : State) (f : Staon → Staon) (hs : Touch F st0 s) (f_staon : F.staon = true) :
    Touch F st0 (State.modStaon s f) := by
  unfold State.modStaon
  repeat' (first | with_reducible (first | assumption  | apply touch_State_setStaon) | refine touch_fst (by with_reducible assumption) ?_ | dsimp only | split | intro _)

/-! ### Launch.lean -/

theorem touch_addRequest (s : State) (t seq ch : Nat) (work : XferWork) (hs : Touch F st0 s) (f_ord : F.ord = true) (f_cores : F.cores = true) :
    Touch F st0 (addRequest s t seq ch work) := by
  unfold addRequest
  repeat' (first | with_reducible (first | assumption  | apply touch_State_modChannel | apply touch_State_tick | apply touch_id) | refine touch_fst (by with_reducible assumption) ?_ | dsimp only | split | intro _)

theorem touch_modStream (s : State) (c n : Nat) (f : Stream → Stream) (hs : Touch F st0 s) (f_cores : F.cores = true) :
    Touch F st0 (modStream s c n f) := by
  unfold modStream
  repeat' (first | with_reducible (first | assumption  | apply touch_State_modProofer) | refine touch_fst (by with_reducible assumption) ?_ | dsimp only | split | intro _)

theorem touch_fillSlots (f_ord : F.ord = true) (f_cores : F.cores = true) :
    ∀ (y0 : Nat) (y1 : State) (y2 : Nat) (y3 : Nat), Touch F st0 y1 → Touch F st0 (fillSlots y0 y1 y2 y3) := by
  intro y0
  induction y0 with
  | zero =>
    intros; unfold fillSlots
    repeat' (first | with_reducible (first | assumption  | apply touch_State_modChannel | apply touch_addRequest | apply touch_modStream | apply touch_foldl | apply touch_foldl_fst | apply touch_id) | refine touch_fst (by with_reducible assumption) ?_ | dsimp only | split | intro _)
  | succ k ih =>
    intros; unfold fillSlots
    repeat' (first | with_reducible (first | assumption | apply ih | apply touch_State_modChannel | apply touch_addRequest | apply touch_modStream | apply touch_foldl | apply touch_foldl_fst | apply touch_id) | refine touch_fst (by with_reducible assumption) ?_ | dsimp only | split | intro _)

theorem touch_pumpStreams (s : State) (c : Nat) (hs : Touch F st0 s) (f_ord : F.ord = true) (f_cores : F.cores = true) :
    Touch F st0 (pumpStreams s c) := by
  unfold pumpStreams
  repeat' (first | with_reducible (first | assumption  | apply touch_fillSlots | apply touch_foldl | apply touch_foldl_fst) | refine touch_fst (by with_reducible assumption) ?_ | dsimp only | split | intro _)

theorem touch_startStream (s : State) (t seq : Nat) (st : Settings) (d : Desc) (x : Role × Nat × Nat × List Fill) (issued : Bool) (hs : Touch F st0 s) (f_ord : F.ord
    = true) (f_cores : F.cores = true) :
    Touch F st0 (startStream s t seq st d x issued) := by
  unfold startStream
  repeat' (first | with_reducible (first | assumption  | apply touch_State_modProofer | apply touch_State_tick) | refine touch_fst (by with_reducible assumption) ?_ | dsimp only | split | intro _)

theorem touch_startStreams (s : State) (t k : Nat) (hs : Touch F st0 s) (f_ord : F.ord = true) (f_trays : F.trays = true) (f_cores : F.cores = true) :
    Touch F st0 (startStreams s t k) := by
  unfold startStreams
  repeat' (first | with_reducible (first | assumption  | apply touch_State_modProofer | apply touch_State_modInst | apply touch_pumpStreams | apply touch_startStream | apply touch_foldl | apply touch_foldl_fst) | refine touch_fst (by with_reducible assumption) ?_ | dsimp only | split | intro _)

theorem touch_dropStreams (s : State) (t k : Nat) (hs : Touch F st0 s) (f_cores : F.cores = true) :
    Touch F st0 (dropStreams s t k) := by
  unfold dropStreams
  repeat' (first | with_reducible (first | assumption  | apply touch_State_modProofer) | refine touch_fst (by with_reducible assumption) ?_ | dsimp only | split | intro _)

theorem touch_releaseBlock (s : State) (t k : Nat) (role : Role) (step : PStep) (hs : Touch F st0 s) (f_ord : F.ord = true) (f_cores : F.cores = true) :
    Touch F st0 (releaseBlock s t k role step) := by
  unfold releaseBlock
  repeat' (first | with_reducible (first | assumption  | apply touch_State_modProofer | apply touch_pumpStreams) | refine touch_fst (by with_reducible assumption) ?_ | dsimp only | split | intro _)

/-! ### Release.lean -/

theorem touch_requestTransfers (s : State) (t : Nat) (i : Inst) (hs : Touch F st0 s) (f_ord : F.ord = true) (f_cores : F.cores = true) :
    Touch F st0 (requestTransfers s t i) := by
  unfold requestTransfers
  repeat' (first | with_reducible (first | assumption  | apply touch_addRequest | apply touch_foldl | apply touch_foldl_fst) | refine touch_fst (by with_reducible assumption) ?_ | dsimp only | split | intro _)

theorem touch_releaseInst (s : State) (t k : Nat) (hs : Touch F st0 s) (f_ord : F.ord = true) (f_regs : F.regs = true) (f_trays : F.trays = true) (f_barriers :
    F.barriers = true) (f_queues : F.queues = true) (f_cores : F.cores = true) (f_mmu : F.mmu = true) (f_arbs : F.arbs = true) (f_errLog : F.errLog = true) (f_staon :
    F.staon = true) :
    Touch F st0 (releaseInst s t k) := by
  unfold releaseInst
  repeat' (first | with_reducible (first | assumption  | apply touch_State_modInst | apply touch_arriveBarrier | apply touch_startStreams | apply touch_requestTransfers) | refine touch_fst (by with_reducible assumption) ?_ | dsimp only | split | intro _)

theorem touch_takeWait (s : State) (t : Nat) (i : Inst) (hs : Touch F st0 s) (f_trays : F.trays = true) :
    Touch F st0 (takeWait s t i) := by
  unfold takeWait
  repeat' (first | with_reducible (first | assumption  | apply touch_State_modTray | apply touch_State_modInst) | refine touch_fst (by with_reducible assumption) ?_ | dsimp only | split | intro _)

theorem touch_tryRelease (s : State) (t : Nat) (hs : Touch F st0 s) (f_ord : F.ord = true) (f_regs : F.regs = true) (f_trays : F.trays = true) (f_barriers :
    F.barriers = true) (f_queues : F.queues = true) (f_cores : F.cores = true) (f_mmu : F.mmu = true) (f_arbs : F.arbs = true) (f_errLog : F.errLog = true) (f_staon :
    F.staon = true) :
    Touch F st0 (tryRelease s t) := by
  unfold tryRelease
  repeat' (first | with_reducible (first | assumption  | apply touch_State_modTray | apply touch_releaseInst | apply touch_takeWait) | refine touch_fst (by with_reducible assumption) ?_ | dsimp only | split | intro _)

theorem touch_signal (s : State) (t mask : Nat) (own : Option Nat) (hs : Touch F st0 s) (f_ord : F.ord = true) (f_regs : F.regs = true) (f_trays : F.trays = true)
    (f_barriers : F.barriers = true) (f_queues : F.queues = true) (f_cores : F.cores = true) (f_mmu : F.mmu = true) (f_arbs : F.arbs = true) (f_errLog : F.errLog = true)
    (f_staon : F.staon = true) :
    Touch F st0 (signal s t mask own) := by
  unfold signal
  repeat' (first | with_reducible (first | assumption  | apply touch_State_modTray | apply touch_endTask | apply touch_faultInst | apply touch_tryRelease) | refine touch_fst (by with_reducible assumption) ?_ | dsimp only | split | intro _)

/-! ### HostOps.lean -/

theorem touch_sendOn (s : State) (way : Nat × Nat) (m : HostTx) (hs : Touch F st0 s) (f_host : F.host = true) (f_hostTx : F.hostTx = true) :
    Touch F st0 (sendOn s way m) := by
  unfold sendOn
  repeat' (first | with_reducible (first | assumption  | apply touch_State_setHost | apply touch_State_sendHost) | refine touch_fst (by with_reducible assumption) ?_ | dsimp only | split | intro _)

theorem touch_sendQp (s : State) (q : Nat) (m : HostTx) (hs : Touch F st0 s) (f_host : F.host = true) (f_hostTx : F.hostTx = true) :
    Touch F st0 (sendQp s q m) := by
  unfold sendQp
  repeat' (first | with_reducible (first | assumption  | apply touch_sendOn) | refine touch_fst (by with_reducible assumption) ?_ | dsimp only | split | intro _)

theorem touch_hostDown (s : State) (port : Nat) (hs : Touch F st0 s) (f_host : F.host = true) :
    Touch F st0 (hostDown s port) := by
  unfold hostDown
  repeat' (first | with_reducible (first | assumption  | apply touch_State_setHost) | refine touch_fst (by with_reducible assumption) ?_ | dsimp only | split | intro _)

theorem touch_notify (s : State) (q : Nat) (hs : Touch F st0 s) (f_queues : F.queues = true) (f_host : F.host = true) (f_hostTx : F.hostTx = true) :
    Touch F st0 (notify s q) := by
  unfold notify
  repeat' (first | with_reducible (first | assumption  | apply touch_State_modHq | apply touch_sendOn) | refine touch_fst (by with_reducible assumption) ?_ | dsimp only | split | intro _)

theorem touch_notifyRecord (s : State) (q kind : Nat) (hs : Touch F st0 s) (f_queues : F.queues = true) (f_host : F.host = true) (f_hostTx : F.hostTx = true) :
    Touch F st0 (notifyRecord s q kind) := by
  unfold notifyRecord
  repeat' (first | with_reducible (first | assumption  | apply touch_State_modHq | apply touch_notify) | refine touch_fst (by with_reducible assumption) ?_ | dsimp only | split | intro _)

theorem touch_dropMaps (s : State) (t : Nat) (hs : Touch F st0 s) (f_cores : F.cores = true) :
    Touch F st0 (dropMaps s t) := by
  unfold dropMaps
  repeat' (first | with_reducible (first | assumption  | apply touch_State_modLevain) | refine touch_fst (by with_reducible assumption) ?_ | dsimp only | split | intro _)

theorem touch_taskBoundary (s : State) (t : Nat) (hs : Touch F st0 s) (f_regs : F.regs = true) (f_trays : F.trays = true) (f_barriers : F.barriers = true) (f_queues
    : F.queues = true) (f_cores : F.cores = true) (f_mmu : F.mmu = true) (f_arbs : F.arbs = true) (f_errLog : F.errLog = true) (f_staon : F.staon = true) :
    Touch F st0 (taskBoundary s t) := by
  unfold taskBoundary
  repeat' (first | with_reducible (first | assumption  | apply touch_State_modTray | apply touch_State_modCore | apply touch_endBarriers | apply touch_dropMaps) | refine touch_fst (by with_reducible assumption) ?_ | dsimp only | split | intro _)

theorem touch_hostWriteOut (s : State) (pa : Nat) (bs : List Byte) (hs : Touch F st0 s) (f_host : F.host = true) (f_hostTx : F.hostTx = true) :
    Touch F st0 (hostWriteOut s pa bs) := by
  unfold hostWriteOut
  repeat' (first | with_reducible (first | assumption  | apply touch_sendQp) | refine touch_fst (by with_reducible assumption) ?_ | dsimp only | split | intro _)

theorem touch_writeThrough (s : State) (walker space : Nat) (va : Int) (bs : List Byte) (hs : Touch F st0 s) (f_mem : F.mem = true) (f_poison : F.poison = true)
    (f_benchPoison : F.benchPoison = true) (f_regs : F.regs = true) (f_cores : F.cores = true) (f_mmu : F.mmu = true) (f_larder : F.larder = true) (f_arbs : F.arbs =
    true) (f_planted : F.planted = true) (f_host : F.host = true) (f_hostTx : F.hostTx = true) :
    Touch F st0 (writeThrough s walker space va bs).1 := by
  unfold writeThrough
  repeat' (first | with_reducible (first | assumption  | apply touch_translateAll | apply touch_writePieces | apply touch_hostWriteOut | apply touch_foldl | apply touch_foldl_fst) | refine touch_fst (by with_reducible assumption) ?_ | dsimp only | split | intro _)

theorem touch_ringWrite (s : State) (space va : Nat) (bs : List Byte) (hs : Touch F st0 s) (f_mem : F.mem = true) (f_poison : F.poison = true) (f_benchPoison :
    F.benchPoison = true) (f_regs : F.regs = true) (f_cores : F.cores = true) (f_mmu : F.mmu = true) (f_larder : F.larder = true) (f_arbs : F.arbs = true) (f_planted :
    F.planted = true) (f_host : F.host = true) (f_hostTx : F.hostTx = true) :
    Touch F st0 (ringWrite s space va bs).1 := by
  unfold ringWrite
  repeat' (first | with_reducible (first | assumption  | apply touch_State_write | apply touch_larderTouch | apply touch_translate | apply touch_hostWriteOut) | refine touch_fst (by with_reducible assumption) ?_ | dsimp only | split | intro _)

theorem touch_recDone (s : State) (r : Rec) (hs : Touch F st0 s) (f_regs : F.regs = true) (f_trays : F.trays = true) (f_barriers : F.barriers = true) (f_queues :
    F.queues = true) (f_cores : F.cores = true) (f_mmu : F.mmu = true) (f_arbs : F.arbs = true) (f_errLog : F.errLog = true) (f_staon : F.staon = true) :
    Touch F st0 (recDone s r) := by
  unfold recDone
  repeat' (first | with_reducible (first | assumption  | apply touch_taskBoundary) | refine touch_fst (by with_reducible assumption) ?_ | dsimp only | split | intro _)

theorem touch_ringFailed (s : State) (q : Nat) (r : Rec) (code : Nat) (hs : Touch F st0 s) (f_regs : F.regs = true) (f_errLog : F.errLog = true) :
    Touch F st0 (ringFailed s q r code) := by
  unfold ringFailed
  repeat' (first | with_reducible (first | assumption  | apply touch_State_setFld | apply touch_logError | apply touch_stopQueue) | refine touch_fst (by with_reducible assumption) ?_ | dsimp only | split | intro _)

theorem touch_writeRecord (q : Nat) (s : State) (hs : Touch F st0 s) (f_mem : F.mem = true) (f_poison : F.poison = true) (f_benchPoison : F.benchPoison = true)
    (f_regs : F.regs = true) (f_trays : F.trays = true) (f_barriers : F.barriers = true) (f_queues : F.queues = true) (f_cores : F.cores = true) (f_mmu : F.mmu = true)
    (f_larder : F.larder = true) (f_arbs : F.arbs = true) (f_errLog : F.errLog = true) (f_planted : F.planted = true) (f_host : F.host = true) (f_staon : F.staon = true)
    (f_hostTx : F.hostTx = true) :
    Touch F st0 (writeRecord q s) := by
  unfold writeRecord
  repeat' (first | with_reducible (first | assumption  | apply touch_State_setFld | apply touch_State_modHq | apply touch_notifyRecord | apply touch_ringWrite | apply touch_recDone | apply touch_ringFailed) | refine touch_fst (by with_reducible assumption) ?_ | dsimp only | split | intro _)

theorem touch_quickResult (s : State) (t code : Nat) (hs : Touch F st0 s) (f_host : F.host = true) (f_hostTx : F.hostTx = true) :
    Touch F st0 (quickResult s t code) := by
  unfold quickResult
  repeat' (first | with_reducible (first | assumption  | apply touch_sendOn) | refine touch_fst (by with_reducible assumption) ?_ | dsimp only | split | intro _)

end Sys2Proof.Machine
end

