-- ==== Sys2Proof/Laws/Touch2.lean ====
section
/-! SUPPORT. What each operation of FabricOps.lean, Ecc.lean, Arb.lean, Commit.lean and Reduce.lean may write: one lemma for each, by its own name. -/

namespace Sys2Proof.Machine

set_option linter.all false

variable {F : Parts} {st0 : State}

/-! ### FabricOps.lean -/

theorem touch_modSport (s : State) (p : Nat) (f : SPort → SPort) (hs : Touch F st0 s) (f_staon : F.staon = true) :
    Touch F st0 (modSport s p f) := by
  unfold modSport
  repeat' (first | with_reducible (first | assumption  | apply touch_State_modStaon) | refine touch_fst (by with_reducible assumption) ?_ | dsimp only | split | intro _)

theorem touch_fabOut (s : State) (m : StnTx) (hs : Touch F st0 s) (f_staon : F.staon = true) :
    Touch F st0 (fabOut s m) := by
  unfold fabOut
  repeat' (first | with_reducible (first | assumption  | apply touch_State_modStaon) | refine touch_fst (by with_reducible assumption) ?_ | dsimp only | split | intro _)

theorem touch_fabEvent (s : State) (code aux addr : Nat) (hs : Touch F st0 s) (f_queues : F.queues = true) :
    Touch F st0 (fabEvent s code aux addr) := by
  unfold fabEvent
  repeat' (first | with_reducible (first | assumption  | apply touch_addRec) | refine touch_fst (by with_reducible assumption) ?_ | dsimp only | split | intro _)

theorem touch_firstFlit (s : State) (m : StnMsg) (hs : Touch F st0 s) (f_staon : F.staon = true) :
    Touch F st0 (firstFlit s m) := by
  unfold firstFlit
  repeat' (first | with_reducible (first | assumption  | apply touch_State_modStaon) | refine touch_fst (by with_reducible assumption) ?_ | dsimp only | split | intro _)

theorem touch_freeFlits (s : State) (p v n : Nat) (hs : Touch F st0 s) (f_staon : F.staon = true) :
    Touch F st0 (freeFlits s p v n) := by
  unfold freeFlits
  repeat' (first | with_reducible (first | assumption  | apply touch_modSport) | refine touch_fst (by with_reducible assumption) ?_ | dsimp only | split | intro _)

theorem touch_transitFree (before : State) (k : Nat × Nat × Nat) (s : State) (hbefore : Touch F st0 before) (hs : Touch F st0 s) (f_staon : F.staon = true) :
    Touch F st0 (transitFree before k s) := by
  unfold transitFree
  repeat' (first | with_reducible (first | assumption  | apply touch_freeFlits) | refine touch_fst (by with_reducible assumption) ?_ | dsimp only | split | intro _)

theorem touch_pumpPort (f_regs : F.regs = true) (f_staon : F.staon = true) :
    ∀ (y0 : Nat) (y1 : Nat) (y2 : State), Touch F st0 y2 → Touch F st0 (pumpPort y0 y1 y2) := by
  intro y0
  induction y0 with
  | zero =>
    intros; unfold pumpPort
    repeat' (first | with_reducible (first | assumption  | apply touch_State_count | apply touch_modSport | apply touch_fabOut | apply touch_firstFlit | apply touch_transitFree) | refine touch_fst (by with_reducible assumption) ?_ | dsimp only | split | intro _)
  | succ k ih =>
    intros; unfold pumpPort
    repeat' (first | with_reducible (first | assumption | apply ih | apply touch_State_count | apply touch_modSport | apply touch_fabOut | apply touch_firstFlit | apply touch_transitFree) | refine touch_fst (by with_reducible assumption) ?_ | dsimp only | split | intro _)

theorem touch_portQueue (s : State) (p : Nat) (m : StnMsg) (via : Option (Nat × Nat × Nat)) (hs : Touch F st0 s) (f_staon : F.staon = true) :
    Touch F st0 (portQueue s p m via) := by
  unfold portQueue
  repeat' (first | with_reducible (first | assumption  | apply touch_modSport) | refine touch_fst (by with_reducible assumption) ?_ | dsimp only | split | intro _)

theorem touch_portSend (s : State) (p : Nat) (m : StnMsg) (hs : Touch F st0 s) (f_regs : F.regs = true) (f_staon : F.staon = true) :
    Touch F st0 (portSend s p m) := by
  unfold portSend
  repeat' (first | with_reducible (first | assumption  | apply touch_pumpPort | apply touch_portQueue) | refine touch_fst (by with_reducible assumption) ?_ | dsimp only | split | intro _)

theorem touch_passOn (s : State) (q : Nat) (ps : List Nat) (m : StnMsg) (hs : Touch F st0 s) (f_ord : F.ord = true) (f_regs : F.regs = true) (f_staon : F.staon = true) :
    Touch F st0 (passOn s q ps m) := by
  unfold passOn
  repeat' (first | with_reducible (first | assumption  | apply touch_State_tick | apply touch_pumpPort | apply touch_portQueue | apply touch_foldl | apply touch_foldl_fst) | refine touch_fst (by with_reducible assumption) ?_ | dsimp only | split | intro _)

theorem touch_takeMsgid (s : State) (hs : Touch F st0 s) (f_staon : F.staon = true) :
    Touch F st0 (takeMsgid s).1 := by
  unfold takeMsgid
  repeat' (first | with_reducible (first | assumption  | apply touch_State_modStaon) | refine touch_fst (by with_reducible assumption) ?_ | dsimp only | split | intro _)

theorem touch_sendControl (s : State) (m : StnMsg) (hs : Touch F st0 s) (f_regs : F.regs = true) (f_staon : F.staon = true) :
    Touch F st0 (sendControl s m) := by
  unfold sendControl
  repeat' (first | with_reducible (first | assumption  | apply touch_State_count | apply touch_portSend | apply touch_takeMsgid | apply touch_id) | refine touch_fst (by with_reducible assumption) ?_ | dsimp only | split | intro _)

theorem touch_sendAck (s : State) (m : StnMsg) (hs : Touch F st0 s) (f_regs : F.regs = true) (f_staon : F.staon = true) :
    Touch F st0 (sendAck s m) := by
  unfold sendAck
  repeat' (first | with_reducible (first | assumption  | apply touch_sendControl) | refine touch_fst (by with_reducible assumption) ?_ | dsimp only | split | intro _)

theorem touch_sendNack (s : State) (m : StnMsg) (status : Nat) (hs : Touch F st0 s) (f_regs : F.regs = true) (f_staon : F.staon = true) :
    Touch F st0 (sendNack s m status) := by
  unfold sendNack
  repeat' (first | with_reducible (first | assumption  | apply touch_sendControl) | refine touch_fst (by with_reducible assumption) ?_ | dsimp only | split | intro _)

theorem touch_launch (s : State) (m : StnMsg) (owner : Option (Nat × Nat × Nat)) (copyOf : Option Nat) (p : Nat) (hs : Touch F st0 s) (f_regs : F.regs = true)
    (f_staon : F.staon = true) :
    Touch F st0 (launch s m owner copyOf p) := by
  unfold launch
  repeat' (first | with_reducible (first | assumption  | apply touch_State_modStaon | apply touch_portSend) | refine touch_fst (by with_reducible assumption) ?_ | dsimp only | split | intro _)

theorem touch_ackInst (s : State) (owner : Option (Nat × Nat × Nat)) (len : Nat) (hs : Touch F st0 s) (f_regs : F.regs = true) (f_trays : F.trays = true) :
    Touch F st0 (ackInst s owner len) := by
  unfold ackInst
  repeat' (first | with_reducible (first | assumption  | apply touch_State_count | apply touch_State_modInst) | refine touch_fst (by with_reducible assumption) ?_ | dsimp only | split | intro _)

theorem touch_faultOwner (s : State) (owner : Option (Nat × Nat × Nat)) (code : Nat) (hs : Touch F st0 s) (f_regs : F.regs = true) (f_trays : F.trays = true)
    (f_queues : F.queues = true) (f_cores : F.cores = true) (f_mmu : F.mmu = true) (f_arbs : F.arbs = true) (f_errLog : F.errLog = true) (f_staon : F.staon = true) :
    Touch F st0 (faultOwner s owner code) := by
  unfold faultOwner
  repeat' (first | with_reducible (first | assumption  | apply touch_faultInst) | refine touch_fst (by with_reducible assumption) ?_ | dsimp only | split | intro _)

theorem touch_freeKept (s : State) (hs : Touch F st0 s) (f_staon : F.staon = true) :
    Touch F st0 (freeKept s) := by
  unfold freeKept
  repeat' (first | with_reducible (first | assumption  | apply touch_State_modStaon) | refine touch_fst (by with_reducible assumption) ?_ | dsimp only | split | intro _)

theorem touch_settleKept (s : State) (id : Nat) (hs : Touch F st0 s) (f_regs : F.regs = true) (f_trays : F.trays = true) (f_staon : F.staon = true) :
    Touch F st0 (settleKept s id) := by
  unfold settleKept
  repeat' (first | with_reducible (first | assumption  | apply touch_State_modStaon | apply touch_ackInst | apply touch_freeKept | apply touch_foldl | apply touch_foldl_fst | apply touch_id) | refine touch_fst (by with_reducible assumption) ?_ | dsimp only | split | intro _)

theorem touch_loseLaggard (s : State) (k : Retained) (a : Nat) (hs : Touch F st0 s) (f_regs : F.regs = true) (f_staon : F.staon = true) :
    Touch F st0 (loseLaggard s k a) := by
  unfold loseLaggard
  repeat' (first | with_reducible (first | assumption  | apply touch_State_modStaon | apply touch_sendControl) | refine touch_fst (by with_reducible assumption) ?_ | dsimp only | split | intro _)

theorem touch_dropKept (s : State) (k : Retained) (hs : Touch F st0 s) (f_regs : F.regs = true) (f_staon : F.staon = true) :
    Touch F st0 (dropKept s k) := by
  unfold dropKept
  repeat' (first | with_reducible (first | assumption  | apply touch_State_count | apply touch_freeKept | apply touch_loseLaggard | apply touch_foldl | apply touch_foldl_fst) | refine touch_fst (by with_reducible assumption) ?_ | dsimp only | split | intro _)

theorem touch_makeRoom (f_regs : F.regs = true) (f_staon : F.staon = true) :
    ∀ (y0 : Nat) (y1 : State) (y2 : Nat), Touch F st0 y1 → Touch F st0 (makeRoom y0 y1 y2) := by
  intro y0
  induction y0 with
  | zero =>
    intros; unfold makeRoom
    repeat' (first | with_reducible (first | assumption  | apply touch_dropKept) | refine touch_fst (by with_reducible assumption) ?_ | dsimp only | split | intro _)
  | succ k ih =>
    intros; unfold makeRoom
    repeat' (first | with_reducible (first | assumption | apply ih | apply touch_dropKept) | refine touch_fst (by with_reducible assumption) ?_ | dsimp only | split | intro _)

theorem touch_sendCopy (s : State) (k : Retained) (a : Nat) (hs : Touch F st0 s) (f_regs : F.regs = true) (f_staon : F.staon = true) :
    Touch F st0 (sendCopy s k a) := by
  unfold sendCopy
  repeat' (first | with_reducible (first | assumption  | apply touch_State_count | apply touch_launch | apply touch_loseLaggard) | refine touch_fst (by with_reducible assumption) ?_ | dsimp only | split | intro _)

theorem touch_detach (s : State) (id : Nat) (who : List Nat) (hs : Touch F st0 s) (f_regs : F.regs = true) (f_trays : F.trays = true) (f_staon : F.staon = true) :
    Touch F st0 (detach s id who) := by
  unfold detach
  repeat' (first | with_reducible (first | assumption  | apply touch_State_count | apply touch_State_modStaon | apply touch_modSport | apply touch_settleKept | apply touch_sendCopy | apply touch_foldl | apply touch_foldl_fst | apply touch_id) | refine touch_fst (by with_reducible assumption) ?_ | dsimp only | split | intro _)

theorem touch_ackReceived (s : State) (src id : Nat) (hs : Touch F st0 s) (f_regs : F.regs = true) (f_trays : F.trays = true) (f_staon : F.staon = true) :
    Touch F st0 (ackReceived s src id) := by
  unfold ackReceived
  repeat' (first | with_reducible (first | assumption  | apply touch_State_modStaon | apply touch_ackInst | apply touch_settleKept | apply touch_foldl | apply touch_foldl_fst | apply touch_id) | refine touch_fst (by with_reducible assumption) ?_ | dsimp only | split | intro _)

theorem touch_nackReceived (s : State) (src id status : Nat) (hs : Touch F st0 s) (f_regs : F.regs = true) (f_trays : F.trays = true) (f_queues : F.queues = true)
    (f_cores : F.cores = true) (f_mmu : F.mmu = true) (f_arbs : F.arbs = true) (f_errLog : F.errLog = true) (f_staon : F.staon = true) :
    Touch F st0 (nackReceived s src id status) := by
  unfold nackReceived
  repeat' (first | with_reducible (first | assumption  | apply touch_State_count | apply touch_State_modStaon | apply touch_faultOwner | apply touch_freeKept | apply touch_loseLaggard | apply touch_foldl | apply touch_foldl_fst | apply touch_id) | refine touch_fst (by with_reducible assumption) ?_ | dsimp only | split | intro _)

theorem touch_resend (s : State) (x : SentMsg) (hs : Touch F st0 s) (f_regs : F.regs = true) (f_staon : F.staon = true) :
    Touch F st0 (resend s x) := by
  unfold resend
  repeat' (first | with_reducible (first | assumption  | apply touch_State_modStaon | apply touch_portSend | apply touch_foldl | apply touch_foldl_fst) | refine touch_fst (by with_reducible assumption) ?_ | dsimp only | split | intro _)

theorem touch_giveUp (s : State) (x : SentMsg) (hs : Touch F st0 s) (f_regs : F.regs = true) (f_trays : F.trays = true) (f_queues : F.queues = true) (f_cores :
    F.cores = true) (f_mmu : F.mmu = true) (f_arbs : F.arbs = true) (f_errLog : F.errLog = true) (f_staon : F.staon = true) :
    Touch F st0 (giveUp s x) := by
  unfold giveUp
  repeat' (first | with_reducible (first | assumption  | apply touch_State_count | apply touch_State_modStaon | apply touch_faultOwner | apply touch_freeKept | apply touch_loseLaggard) | refine touch_fst (by with_reducible assumption) ?_ | dsimp only | split | intro _)

theorem touch_writeRows (s : State) (space : Nat) (stride rowBytes : Nat) (hs : Touch F st0 s) (f_mem : F.mem = true) (f_poison : F.poison = true) (f_benchPoison :
    F.benchPoison = true) (f_regs : F.regs = true) (f_cores : F.cores = true) (f_mmu : F.mmu = true) (f_larder : F.larder = true) (f_arbs : F.arbs = true) (f_planted :
    F.planted = true) (f_host : F.host = true) (f_hostTx : F.hostTx = true) :
    ∀ (y0 : Nat) (y1 : Nat) (y2 : List Byte), Touch F st0 (writeRows s space stride rowBytes y0 y1 y2).1 := by
  intro y0
  induction y0 generalizing s with
  | zero =>
    intros; unfold writeRows
    repeat' (first | with_reducible (first | assumption  | apply touch_writeThrough) | refine touch_fst (by with_reducible assumption) ?_ | dsimp only | split | intro _)
  | succ k ih =>
    intros; unfold writeRows
    repeat' (first | with_reducible (first | assumption | apply ih | apply touch_writeThrough) | refine touch_fst (by with_reducible assumption) ?_ | dsimp only | split | intro _)

theorem touch_signalled (s : State) (m : StnMsg) (hs : Touch F st0 s) (f_ord : F.ord = true) (f_regs : F.regs = true) (f_trays : F.trays = true) (f_barriers :
    F.barriers = true) (f_queues : F.queues = true) (f_cores : F.cores = true) (f_mmu : F.mmu = true) (f_arbs : F.arbs = true) (f_errLog : F.errLog = true) (f_staon :
    F.staon = true) :
    Touch F st0 (signalled s m) := by
  unfold signalled
  repeat' (first | with_reducible (first | assumption  | apply touch_signal) | refine touch_fst (by with_reducible assumption) ?_ | dsimp only | split | intro _)

theorem touch_deliver (s0 : State) (m : StnMsg) (hs0 : Touch F st0 s0) (f_ord : F.ord = true) (f_mem : F.mem = true) (f_poison : F.poison = true) (f_benchPoison :
    F.benchPoison = true) (f_regs : F.regs = true) (f_trays : F.trays = true) (f_barriers : F.barriers = true) (f_queues : F.queues = true) (f_cores : F.cores = true)
    (f_mmu : F.mmu = true) (f_larder : F.larder = true) (f_arbs : F.arbs = true) (f_errLog : F.errLog = true) (f_planted : F.planted = true) (f_host : F.host = true)
    (f_staon : F.staon = true) (f_hostTx : F.hostTx = true) :
    Touch F st0 (deliver s0 m).1 := by
  unfold deliver
  repeat' (first | with_reducible (first | assumption  | apply touch_State_count | apply touch_finishRepart | apply touch_State_modStaon | apply touch_writeRows | apply touch_signalled) | refine touch_fst (by with_reducible assumption) ?_ | dsimp only | split | intro _)

theorem touch_deliverAndAnswer (s : State) (m : StnMsg) (hs : Touch F st0 s) (f_ord : F.ord = true) (f_mem : F.mem = true) (f_poison : F.poison = true)
    (f_benchPoison : F.benchPoison = true) (f_regs : F.regs = true) (f_trays : F.trays = true) (f_barriers : F.barriers = true) (f_queues : F.queues = true) (f_cores :
    F.cores = true) (f_mmu : F.mmu = true) (f_larder : F.larder = true) (f_arbs : F.arbs = true) (f_errLog : F.errLog = true) (f_planted : F.planted = true) (f_host :
    F.host = true) (f_staon : F.staon = true) (f_hostTx : F.hostTx = true) :
    Touch F st0 (deliverAndAnswer s m) := by
  unfold deliverAndAnswer
  repeat' (first | with_reducible (first | assumption  | apply touch_sendAck | apply touch_sendNack | apply touch_deliver) | refine touch_fst (by with_reducible assumption) ?_ | dsimp only | split | intro _)

theorem touch_freeBuffer (s : State) (p : Nat) (m : StnMsg) (hs : Touch F st0 s) (f_staon : F.staon = true) :
    Touch F st0 (freeBuffer s p m) := by
  unfold freeBuffer
  repeat' (first | with_reducible (first | assumption  | apply touch_freeFlits) | refine touch_fst (by with_reducible assumption) ?_ | dsimp only | split | intro _)

theorem touch_dropMsg (s : State) (hs : Touch F st0 s) (f_regs : F.regs = true) :
    Touch F st0 (dropMsg s) := by
  unfold dropMsg
  repeat' (first | with_reducible (first | assumption  | apply touch_State_count) | refine touch_fst (by with_reducible assumption) ?_ | dsimp only | split | intro _)

theorem touch_forward (s : State) (arrived : Nat) (m : StnMsg) (hs : Touch F st0 s) (f_ord : F.ord = true) (f_regs : F.regs = true) (f_staon : F.staon = true) :
    Touch F st0 (forward s arrived m) := by
  unfold forward
  repeat' (first | with_reducible (first | assumption  | apply touch_passOn | apply touch_sendNack | apply touch_freeBuffer | apply touch_dropMsg | apply touch_refuse) | refine touch_fst (by with_reducible assumption) ?_ | dsimp only | split | intro _)

theorem touch_forwardMgt (s : State) (arrived : Nat) (m : StnMsg) (hs : Touch F st0 s) (f_ord : F.ord = true) (f_regs : F.regs = true) (f_staon : F.staon = true) :
    Touch F st0 (forwardMgt s arrived m) := by
  unfold forwardMgt
  repeat' (first | with_reducible (first | assumption  | apply touch_passOn | apply touch_freeBuffer | apply touch_dropMsg) | refine touch_fst (by with_reducible assumption) ?_ | dsimp only | split | intro _)

theorem touch_sendHello (s : State) (p : Nat) (hs : Touch F st0 s) (f_staon : F.staon = true) :
    Touch F st0 (sendHello s p) := by
  unfold sendHello
  repeat' (first | with_reducible (first | assumption  | apply touch_fabOut) | refine touch_fst (by with_reducible assumption) ?_ | dsimp only | split | intro _)

theorem touch_loseMember (s : State) (a : Nat) (hs : Touch F st0 s) (f_regs : F.regs = true) (f_trays : F.trays = true) (f_queues : F.queues = true) (f_cores :
    F.cores = true) (f_mmu : F.mmu = true) (f_arbs : F.arbs = true) (f_errLog : F.errLog = true) (f_staon : F.staon = true) :
    Touch F st0 (loseMember s a) := by
  unfold loseMember
  repeat' (first | with_reducible (first | assumption  | apply touch_faultInst | apply touch_foldl | apply touch_foldl_fst) | refine touch_fst (by with_reducible assumption) ?_ | dsimp only | split | intro _)

theorem touch_portLost (s00 : State) (p : Nat) (left : Bool) (hs00 : Touch F st0 s00) (f_regs : F.regs = true) (f_trays : F.trays = true) (f_queues : F.queues =
    true) (f_cores : F.cores = true) (f_mmu : F.mmu = true) (f_arbs : F.arbs = true) (f_errLog : F.errLog = true) (f_staon : F.staon = true) :
    Touch F st0 (portLost s00 p left) := by
  unfold portLost
  repeat' (first | with_reducible (first | assumption  | apply touch_State_modStaon | apply touch_fabEvent | apply touch_detach | apply touch_loseMember | apply touch_foldl | apply touch_foldl_fst) | refine touch_fst (by with_reducible assumption) ?_ | dsimp only | split | intro _)

theorem touch_dropTransit (s : State) (p : Nat) (hs : Touch F st0 s) (f_staon : F.staon = true) :
    Touch F st0 (dropTransit s p) := by
  unfold dropTransit
  repeat' (first | with_reducible (first | assumption  | apply touch_State_modStaon) | refine touch_fst (by with_reducible assumption) ?_ | dsimp only | split | intro _)

theorem touch_clearQueues (s : State) (p : Nat) (hs : Touch F st0 s) (f_staon : F.staon = true) :
    Touch F st0 (clearQueues s p) := by
  unfold clearQueues
  repeat' (first | with_reducible (first | assumption  | apply touch_modSport | apply touch_transitFree | apply touch_foldl | apply touch_foldl_fst) | refine touch_fst (by with_reducible assumption) ?_ | dsimp only | split | intro _)

theorem touch_portDown (s : State) (p : Nat) (hs : Touch F st0 s) (f_regs : F.regs = true) (f_trays : F.trays = true) (f_queues : F.queues = true) (f_cores : F.cores
    = true) (f_mmu : F.mmu = true) (f_arbs : F.arbs = true) (f_errLog : F.errLog = true) (f_staon : F.staon = true) :
    Touch F st0 (portDown s p) := by
  unfold portDown
  repeat' (first | with_reducible (first | assumption  | apply touch_State_count | apply touch_modSport | apply touch_portLost | apply touch_dropTransit | apply touch_clearQueues) | refine touch_fst (by with_reducible assumption) ?_ | dsimp only | split | intro _)

theorem touch_portDisable (s : State) (p : Nat) (hs : Touch F st0 s) (f_regs : F.regs = true) (f_trays : F.trays = true) (f_queues : F.queues = true) (f_cores :
    F.cores = true) (f_mmu : F.mmu = true) (f_arbs : F.arbs = true) (f_errLog : F.errLog = true) (f_staon : F.staon = true) :
    Touch F st0 (portDisable s p) := by
  unfold portDisable
  repeat' (first | with_reducible (first | assumption  | apply touch_modSport | apply touch_portDown) | refine touch_fst (by with_reducible assumption) ?_ | dsimp only | split | intro _)

theorem touch_adjustPorts (s : State) (hs : Touch F st0 s) (f_regs : F.regs = true) (f_trays : F.trays = true) (f_queues : F.queues = true) (f_cores : F.cores =
    true) (f_mmu : F.mmu = true) (f_arbs : F.arbs = true) (f_errLog : F.errLog = true) (f_staon : F.staon = true) :
    Touch F st0 (adjustPorts s) := by
  unfold adjustPorts
  repeat' (first | with_reducible (first | assumption  | apply touch_modSport | apply touch_portDisable | apply touch_foldl | apply touch_foldl_fst) | refine touch_fst (by with_reducible assumption) ?_ | dsimp only | split | intro _)

theorem touch_replay (s : State) (p : Nat) (ackseq : Nat) (hs : Touch F st0 s) (f_regs : F.regs = true) (f_trays : F.trays = true) (f_queues : F.queues = true)
    (f_cores : F.cores = true) (f_mmu : F.mmu = true) (f_arbs : F.arbs = true) (f_errLog : F.errLog = true) (f_staon : F.staon = true) :
    Touch F st0 (replay s p ackseq) := by
  unfold replay
  repeat' (first | with_reducible (first | assumption  | apply touch_State_count | apply touch_modSport | apply touch_portDown | apply touch_fabOut | apply touch_foldl) | refine touch_fst (by with_reducible assumption) ?_ | dsimp only | split | intro _)

theorem touch_discardFlit (s : State) (p : Nat) (hs : Touch F st0 s) (f_staon : F.staon = true) :
    Touch F st0 (discardFlit s p) := by
  unfold discardFlit
  repeat' (first | with_reducible (first | assumption  | apply touch_modSport | apply touch_fabOut) | refine touch_fst (by with_reducible assumption) ?_ | dsimp only | split | intro _)

theorem touch_flitStep (s : State) (p : Nat) (f : Flit) (hs : Touch F st0 s) (f_regs : F.regs = true) (f_trays : F.trays = true) (f_queues : F.queues = true)
    (f_cores : F.cores = true) (f_mmu : F.mmu = true) (f_arbs : F.arbs = true) (f_errLog : F.errLog = true) (f_staon : F.staon = true) :
    Touch F st0 (flitStep s p f) := by
  unfold flitStep
  repeat' (first | with_reducible (first | assumption  | apply touch_State_count | apply touch_modSport | apply touch_pumpPort | apply touch_portDown | apply touch_replay | apply touch_discardFlit) | refine touch_fst (by with_reducible assumption) ?_ | dsimp only | split | intro _)

theorem touch_helloStep (s : State) (p : Nat) (h : HelloBody) (hs : Touch F st0 s) (f_regs : F.regs = true) (f_queues : F.queues = true) (f_staon : F.staon = true) :
    Touch F st0 (helloStep s p h) := by
  unfold helloStep
  repeat' (first | with_reducible (first | assumption  | apply touch_modSport | apply touch_fabEvent | apply touch_pumpPort) | refine touch_fst (by with_reducible assumption) ?_ | dsimp only | split | intro _)

theorem touch_startLeave (s : State) (hs : Touch F st0 s) (f_staon : F.staon = true) :
    Touch F st0 (startLeave s) := by
  unfold startLeave
  repeat' (first | with_reducible (first | assumption  | apply touch_State_modStaon | apply touch_fabOut | apply touch_foldl | apply touch_foldl_fst) | refine touch_fst (by with_reducible assumption) ?_ | dsimp only | split | intro _)

theorem touch_finishLeave (s : State) (hs : Touch F st0 s) (f_regs : F.regs = true) (f_trays : F.trays = true) (f_queues : F.queues = true) (f_cores : F.cores =
    true) (f_mmu : F.mmu = true) (f_arbs : F.arbs = true) (f_errLog : F.errLog = true) (f_staon : F.staon = true) :
    Touch F st0 (finishLeave s) := by
  unfold finishLeave
  repeat' (first | with_reducible (first | assumption  | apply touch_State_modStaon | apply touch_portDisable | apply touch_foldl | apply touch_foldl_fst) | refine touch_fst (by with_reducible assumption) ?_ | dsimp only | split | intro _)

/-! ### Ecc.lean -/

theorem touch_moduleStop (s : State) (index addr : Nat) (hs : Touch F st0 s) (f_regs : F.regs = true) (f_trays : F.trays = true) (f_barriers : F.barriers = true)
    (f_queues : F.queues = true) (f_cores : F.cores = true) (f_mmu : F.mmu = true) (f_arbs : F.arbs = true) (f_errLog : F.errLog = true) (f_stop : F.stop = true)
    (f_staon : F.staon = true) (f_hearth : F.hearth = true) :
    Touch F st0 (moduleStop s index addr) := by
  unfold moduleStop
  repeat' (first | with_reducible (first | assumption  | apply touch_State_setBarriers | apply touch_State_setStop | apply touch_State_setTray | apply touch_State_modHq | apply touch_logError | apply touch_discardTray | apply touch_stopQueue | apply touch_hearthEvent | apply touch_portDown | apply touch_foldl | apply touch_foldl_fst) | refine touch_fst (by with_reducible assumption) ?_ | dsimp only | split | intro _)

theorem touch_logUnowned (s : State) (code index addr : Nat) (hs : Touch F st0 s) (f_regs : F.regs = true) (f_errLog : F.errLog = true) :
    Touch F st0 (logUnowned s code index addr) := by
  unfold logUnowned
  repeat' (first | with_reducible (first | assumption  | apply touch_logError) | refine touch_fst (by with_reducible assumption) ?_ | dsimp only | split | intro _)

theorem touch_ownerUe (s : State) (tray : Option Nat) (code index addr : Nat) (hs : Touch F st0 s) (f_regs : F.regs = true) (f_trays : F.trays = true) (f_queues :
    F.queues = true) (f_cores : F.cores = true) (f_mmu : F.mmu = true) (f_arbs : F.arbs = true) (f_errLog : F.errLog = true) (f_staon : F.staon = true) :
    Touch F st0 (ownerUe s tray code index addr) := by
  unfold ownerUe
  repeat' (first | with_reducible (first | assumption  | apply touch_endTaskLog | apply touch_faultInstLog | apply touch_logUnowned) | refine touch_fst (by with_reducible assumption) ?_ | dsimp only | split | intro _)

theorem touch_lineUe (s : State) (line : Nat) (hs : Touch F st0 s) (f_poison : F.poison = true) (f_regs : F.regs = true) (f_larder : F.larder = true) (f_arbs :
    F.arbs = true) (f_errLog : F.errLog = true) :
    Touch F st0 (lineUe s line) := by
  unfold lineUe
  repeat' (first | with_reducible (first | assumption  | apply touch_State_setPoison | apply touch_State_setLarder | apply touch_State_count | apply touch_lineLeaves | apply touch_logUnowned) | (refine Tab.wf_filter _ ?_; assumption) | (refine memory_put_wf ?_ _ _; assumption) | (refine poison_put_wf ?_ _ _; assumption) | refine touch_fst (by with_reducible assumption) ?_ | dsimp only | split | intro _)

theorem touch_arrayTags (s : State) (c a : Nat) (hs : Touch F st0 s) (f_cores : F.cores = true) :
    Touch F st0 (arrayTags s c a) := by
  unfold arrayTags
  repeat' (first | with_reducible (first | assumption  | apply touch_State_modArray) | refine touch_fst (by with_reducible assumption) ?_ | dsimp only | split | intro _)

theorem touch_eccEffect (s : State) (index : Nat) (ue : Bool) (tray : Option Nat) (word : Nat) (hs : Touch F st0 s) (f_poison : F.poison = true) (f_benchPoison :
    F.benchPoison = true) (f_regs : F.regs = true) (f_trays : F.trays = true) (f_barriers : F.barriers = true) (f_queues : F.queues = true) (f_cores : F.cores = true)
    (f_mmu : F.mmu = true) (f_larder : F.larder = true) (f_arbs : F.arbs = true) (f_errLog : F.errLog = true) (f_stop : F.stop = true) (f_staon : F.staon = true)
    (f_hearth : F.hearth = true) :
    Touch F st0 (eccEffect s index ue tray word) := by
  unfold eccEffect
  repeat' (first | with_reducible (first | assumption  | apply touch_State_setBenchPoison | apply touch_State_count | apply touch_State_modVec | apply touch_State_modLevain | apply touch_setTCache | apply touch_State_modStaon | apply touch_settleKept | apply touch_dropKept | apply touch_moduleStop | apply touch_logUnowned | apply touch_ownerUe | apply touch_lineUe | apply touch_arrayTags) | (refine Tab.wf_filter _ ?_; assumption) | (refine memory_put_wf ?_ _ _; assumption) | (refine poison_put_wf ?_ _ _; assumption) | refine touch_fst (by with_reducible assumption) ?_ | dsimp only | split | intro _)

theorem touch_wrote (s : State) (index core place : Nat) (hs : Touch F st0 s) (f_regs : F.regs = true) (f_planted : F.planted = true) :
    Touch F st0 (wrote s index core place) := by
  unfold wrote
  repeat' (first | with_reducible (first | assumption  | apply touch_State_setPlanted | apply touch_State_setFld) | refine touch_fst (by with_reducible assumption) ?_ | dsimp only | split | intro _)

theorem touch_readBack (s : State) (index : Nat) (tray : Option Nat) (place word : Nat) (hs : Touch F st0 s) (f_poison : F.poison = true) (f_benchPoison :
    F.benchPoison = true) (f_regs : F.regs = true) (f_trays : F.trays = true) (f_barriers : F.barriers = true) (f_queues : F.queues = true) (f_cores : F.cores = true)
    (f_mmu : F.mmu = true) (f_larder : F.larder = true) (f_arbs : F.arbs = true) (f_errLog : F.errLog = true) (f_planted : F.planted = true) (f_stop : F.stop = true)
    (f_staon : F.staon = true) (f_hearth : F.hearth = true) :
    Touch F st0 (readBack s index tray place word) := by
  unfold readBack
  repeat' (first | with_reducible (first | assumption  | apply touch_State_setPlanted | apply touch_eccEffect) | refine touch_fst (by with_reducible assumption) ?_ | dsimp only | split | intro _)

theorem touch_readTray (s : State) (index t word : Nat) (hs : Touch F st0 s) (f_poison : F.poison = true) (f_benchPoison : F.benchPoison = true) (f_regs : F.regs =
    true) (f_trays : F.trays = true) (f_barriers : F.barriers = true) (f_queues : F.queues = true) (f_cores : F.cores = true) (f_mmu : F.mmu = true) (f_larder : F.larder
    = true) (f_arbs : F.arbs = true) (f_errLog : F.errLog = true) (f_planted : F.planted = true) (f_stop : F.stop = true) (f_staon : F.staon = true) (f_hearth : F.hearth
    = true) :
    Touch F st0 (readTray s index t word) := by
  unfold readTray
  repeat' (first | with_reducible (first | assumption  | apply touch_readBack) | refine touch_fst (by with_reducible assumption) ?_ | dsimp only | split | intro _)

theorem touch_readCache (s : State) (t : Nat) (hs : Touch F st0 s) (f_poison : F.poison = true) (f_benchPoison : F.benchPoison = true) (f_regs : F.regs = true)
    (f_trays : F.trays = true) (f_barriers : F.barriers = true) (f_queues : F.queues = true) (f_cores : F.cores = true) (f_mmu : F.mmu = true) (f_larder : F.larder = true)
    (f_arbs : F.arbs = true) (f_errLog : F.errLog = true) (f_planted : F.planted = true) (f_stop : F.stop = true) (f_staon : F.staon = true) (f_hearth : F.hearth = true) :
    Touch F st0 (readCache s t) := by
  unfold readCache
  repeat' (first | with_reducible (first | assumption  | apply touch_readTray | apply touch_ownerUe) | refine touch_fst (by with_reducible assumption) ?_ | dsimp only | split | intro _)

theorem touch_writeCache (s : State) (t : Nat) (hs : Touch F st0 s) (f_regs : F.regs = true) (f_cores : F.cores = true) (f_planted : F.planted = true) :
    Touch F st0 (writeCache s t) := by
  unfold writeCache
  repeat' (first | with_reducible (first | assumption  | apply touch_wrote | apply touch_State_modVec) | refine touch_fst (by with_reducible assumption) ?_ | dsimp only | split | intro _)

/-! ### Arb.lean -/

theorem touch_arbCycle (s : State) (site inst : Nat) (hs : Touch F st0 s) (f_regs : F.regs = true) (f_arbs : F.arbs = true) :
    Touch F st0 (arbCycle s site inst).1 := by
  unfold arbCycle
  repeat' (first | with_reducible (first | assumption  | apply touch_State_count | apply touch_setArb) | refine touch_fst (by with_reducible assumption) ?_ | dsimp only | split | intro _)

theorem touch_forceHead (s : State) (site inst r : Nat) (hs : Touch F st0 s) (f_arbs : F.arbs = true) :
    Touch F st0 (forceHead s site inst r) := by
  unfold forceHead
  repeat' (first | with_reducible (first | assumption  | apply touch_setArb) | refine touch_fst (by with_reducible assumption) ?_ | dsimp only | split | intro _)

theorem touch_lpcLast (s : State) (ctrl line : Nat) (ue : Bool) (hs : Touch F st0 s) (f_regs : F.regs = true) :
    Touch F st0 (lpcLast s ctrl line ue) := by
  unfold lpcLast
  repeat' (first | with_reducible (first | assumption  | apply touch_State_setReg) | refine touch_fst (by with_reducible assumption) ?_ | dsimp only | split | intro _)

theorem touch_lpcError (s : State) (ctrl line : Nat) (ue : Bool) (hs : Touch F st0 s) (f_regs : F.regs = true) :
    Touch F st0 (lpcError s ctrl line ue) := by
  unfold lpcError
  repeat' (first | with_reducible (first | assumption  | apply touch_State_count | apply touch_lpcLast) | refine touch_fst (by with_reducible assumption) ?_ | dsimp only | split | intro _)

theorem touch_lineCorrected (s : State) (ctrl requester line : Nat) (hs : Touch F st0 s) (f_regs : F.regs = true) (f_arbs : F.arbs = true) :
    Touch F st0 (lineCorrected s ctrl requester line) := by
  unfold lineCorrected
  repeat' (first | with_reducible (first | assumption  | apply touch_pushArb | apply touch_lpcError) | refine touch_fst (by with_reducible assumption) ?_ | dsimp only | split | intro _)

theorem touch_linePoisoned (s : State) (ctrl line : Nat) (hs : Touch F st0 s) (f_poison : F.poison = true) (f_regs : F.regs = true) (f_errLog : F.errLog = true) :
    Touch F st0 (linePoisoned s ctrl line) := by
  unfold linePoisoned
  repeat' (first | with_reducible (first | assumption  | apply touch_State_setPoison | apply touch_logUnowned | apply touch_lpcError) | (refine Tab.wf_filter _ ?_; assumption) | (refine memory_put_wf ?_ _ _; assumption) | (refine poison_put_wf ?_ _ _; assumption) | refine touch_fst (by with_reducible assumption) ?_ | dsimp only | split | intro _)

theorem touch_checkOutcome (s : State) (line : Nat) (e : ReadErr) (hs : Touch F st0 s) (f_free : F.free = true) (f_mem : F.mem = true) :
    Touch F st0 (checkOutcome s line e).1 := by
  unfold checkOutcome
  repeat' (first | with_reducible (first | assumption  | apply touch_State_setFree | apply touch_blurBytes) | refine touch_fst (by with_reducible assumption) ?_ | dsimp only | split | intro _)

theorem touch_lpddrRead (s0 : State) (ctrl requester line : Nat) (e : ReadErr) (hs0 : Touch F st0 s0) (f_free : F.free = true) (f_mem : F.mem = true) (f_poison :
    F.poison = true) (f_regs : F.regs = true) (f_arbs : F.arbs = true) (f_errLog : F.errLog = true) :
    Touch F st0 (lpddrRead s0 ctrl requester line e) := by
  unfold lpddrRead
  repeat' (first | with_reducible (first | assumption  | apply touch_lineCorrected | apply touch_linePoisoned | apply touch_checkOutcome) | refine touch_fst (by with_reducible assumption) ?_ | dsimp only | split | intro _)

theorem touch_scrubPoisons (s : State) (ctrl line : Nat) (hs : Touch F st0 s) (f_poison : F.poison = true) (f_regs : F.regs = true) (f_larder : F.larder = true)
    (f_arbs : F.arbs = true) (f_errLog : F.errLog = true) :
    Touch F st0 (scrubPoisons s ctrl line) := by
  unfold scrubPoisons
  repeat' (first | with_reducible (first | assumption  | apply touch_State_setPoison | apply touch_State_setLarder | apply touch_pushArb | apply touch_logUnowned | apply touch_lpcError) | (refine Tab.wf_filter _ ?_; assumption) | (refine memory_put_wf ?_ _ _; assumption) | (refine poison_put_wf ?_ _ _; assumption) | refine touch_fst (by with_reducible assumption) ?_ | dsimp only | split | intro _)

theorem touch_scrubLine (s0 : State) (ctrl line : Nat) (e : ReadErr) (hs0 : Touch F st0 s0) (f_free : F.free = true) (f_mem : F.mem = true) (f_poison : F.poison =
    true) (f_regs : F.regs = true) (f_larder : F.larder = true) (f_arbs : F.arbs = true) (f_errLog : F.errLog = true) :
    Touch F st0 (scrubLine s0 ctrl line e) := by
  unfold scrubLine
  repeat' (first | with_reducible (first | assumption  | apply touch_lineCorrected | apply touch_checkOutcome | apply touch_scrubPoisons) | refine touch_fst (by with_reducible assumption) ?_ | dsimp only | split | intro _)

theorem touch_serveOwned (s : State) (c ch owner : Nat) (hs : Touch F st0 s) (f_free : F.free = true) (f_mem : F.mem = true) (f_poison : F.poison = true)
    (f_benchPoison : F.benchPoison = true) (f_regs : F.regs = true) (f_cores : F.cores = true) (f_larder : F.larder = true) (f_arbs : F.arbs = true) (f_errLog : F.errLog
    = true) (f_planted : F.planted = true) :
    Touch F st0 (serveOwned s c ch owner) := by
  unfold serveOwned
  repeat' (first | with_reducible (first | assumption  | apply touch_State_setArbs | apply touch_State_modChannel | apply touch_State_write | apply touch_larderServe | apply touch_lpddrRead | apply touch_foldl | apply touch_foldl_fst) | refine touch_fst (by with_reducible assumption) ?_ | dsimp only | split | intro _)

/-! ### Commit.lean -/

theorem touch_writePartial (s : State) (c : Nat) (i : Inst) (g : Grid) (n r : Nat) (vals : List (Nat × Nat)) (hs : Touch F st0 s) (f_mem : F.mem = true) (f_poison :
    F.poison = true) (f_benchPoison : F.benchPoison = true) (f_regs : F.regs = true) (f_planted : F.planted = true) :
    Touch F st0 (writePartial s c i g n r vals) := by
  unfold writePartial
  repeat' (first | with_reducible (first | assumption  | apply touch_benchWrite) | refine touch_fst (by with_reducible assumption) ?_ | dsimp only | split | intro _)

theorem touch_writeCouche (s : State) (p : CouchePlace) (first : Nat) (vals : List (Nat × Nat)) (hs : Touch F st0 s) (f_mem : F.mem = true) (f_poison : F.poison =
    true) (f_benchPoison : F.benchPoison = true) (f_regs : F.regs = true) (f_planted : F.planted = true) :
    Touch F st0 (writeCouche s p first vals) := by
  unfold writeCouche
  repeat' (first | with_reducible (first | assumption  | apply touch_State_write) | refine touch_fst (by with_reducible assumption) ?_ | dsimp only | split | intro _)

theorem touch_waitCouche (s : State) (c t k n : Nat) (hs : Touch F st0 s) (f_cores : F.cores = true) :
    Touch F st0 (waitCouche s c t k n) := by
  unfold waitCouche
  repeat' (first | with_reducible (first | assumption  | apply touch_State_modPeel) | refine touch_fst (by with_reducible assumption) ?_ | dsimp only | split | intro _)

theorem touch_statRow (s : State) (t : Nat) (i : Inst) (row : Nat) (ch : List F32) (first last : Bool) (hs : Touch F st0 s) (f_mem : F.mem = true) (f_poison :
    F.poison = true) (f_benchPoison : F.benchPoison = true) (f_regs : F.regs = true) (f_cores : F.cores = true) (f_mmu : F.mmu = true) (f_larder : F.larder = true)
    (f_arbs : F.arbs = true) (f_planted : F.planted = true) :
    Touch F st0 (statRow s t i row ch first last).1 := by
  unfold statRow
  repeat' (first | with_reducible (first | assumption  | apply touch_benchWrite | apply touch_applyWrites) | refine touch_fst (by with_reducible assumption) ?_ | dsimp only | split | intro _)

theorem touch_tileEnds (s : State) (t k n : Nat) (hs : Touch F st0 s) (f_mem : F.mem = true) (f_poison : F.poison = true) (f_benchPoison : F.benchPoison = true)
    (f_regs : F.regs = true) (f_trays : F.trays = true) (f_cores : F.cores = true) (f_planted : F.planted = true) :
    Touch F st0 (tileEnds s t k n) := by
  unfold tileEnds
  repeat' (first | with_reducible (first | assumption  | apply touch_State_count | apply touch_State_modProofer | apply touch_State_modTile | apply touch_benchWrite) | refine touch_fst (by with_reducible assumption) ?_ | dsimp only | split | intro _)

theorem touch_blockCommitted (s : State) (t k n b : Nat) (hs : Touch F st0 s) (f_mem : F.mem = true) (f_poison : F.poison = true) (f_benchPoison : F.benchPoison =
    true) (f_regs : F.regs = true) (f_trays : F.trays = true) (f_cores : F.cores = true) (f_mmu : F.mmu = true) (f_larder : F.larder = true) (f_arbs : F.arbs = true)
    (f_planted : F.planted = true) :
    Touch F st0 (blockCommitted s t k n b) := by
  unfold blockCommitted
  repeat' (first | with_reducible (first | assumption  | apply touch_State_count | apply touch_State_modInst | apply touch_State_modTile | apply touch_statRow | apply touch_tileEnds | apply touch_foldl | apply touch_foldl_fst) | refine touch_fst (by with_reducible assumption) ?_ | dsimp only | split | intro _)

theorem touch_sendBlock (s : State) (t k n b : Nat) (r : BlockOut) (hs : Touch F st0 s) (f_ord : F.ord = true) (f_mem : F.mem = true) (f_poison : F.poison = true)
    (f_benchPoison : F.benchPoison = true) (f_regs : F.regs = true) (f_trays : F.trays = true) (f_cores : F.cores = true) (f_mmu : F.mmu = true) (f_larder : F.larder =
    true) (f_arbs : F.arbs = true) (f_planted : F.planted = true) :
    Touch F st0 (sendBlock s t k n b r) := by
  unfold sendBlock
  repeat' (first | with_reducible (first | assumption  | apply touch_State_modInst | apply touch_benchWrite | apply touch_addRequest | apply touch_blockCommitted | apply touch_foldl | apply touch_foldl_fst) | refine touch_fst (by with_reducible assumption) ?_ | dsimp only | split | intro _)

theorem touch_finishRow (s : State) (t : Nat) (i : Inst) (g : Grid) (n row : Nat) (sums : List (Nat × Nat)) (hs : Touch F st0 s) (f_mem : F.mem = true) (f_poison :
    F.poison = true) (f_benchPoison : F.benchPoison = true) (f_regs : F.regs = true) (f_cores : F.cores = true) (f_mmu : F.mmu = true) (f_larder : F.larder = true)
    (f_arbs : F.arbs = true) (f_planted : F.planted = true) :
    Touch F st0 (finishRow s t i g n row sums).1 := by
  unfold finishRow
  extract_lets c sp o p w d cols r ivl spilled lo len pick read
  have hread : ∀ s' u d', Touch F st0 s' → Touch F st0 (read s' u d').1 := by
    intro s' u d' h
    simp only [read]
    split
    · apply touch_rowEls <;> assumption
    · exact h
  refine touch_andThen _ _ (hread _ _ _ hs) fun s1 old h1 => touch_andThen _ _ (hread _ _ _ h1) fun s2 oldE h2 => touch_andThen _ _ (hread _ _ _ h2) fun s3 add h3 => ?_
  dsimp only
  split
  · exact h3
  · refine touch_andThen _ _ ?_ fun s4 wr h4 => h4
    apply touch_writeRow <;> assumption

theorem touch_finishRows (s : State) (t : Nat) (i : Inst) (g : Grid) (n : Nat) (hs : Touch F st0 s) (f_mem : F.mem = true) (f_poison : F.poison = true)
    (f_benchPoison : F.benchPoison = true) (f_regs : F.regs = true) (f_cores : F.cores = true) (f_mmu : F.mmu = true) (f_larder : F.larder = true) (f_arbs : F.arbs =
    true) (f_planted : F.planted = true) :
    ∀ (y0 : List (Nat × List (Nat × Nat))), Touch F st0 (finishRows s t i g n y0).1 := by
  intro y0
  induction y0 generalizing s with
  | nil =>
    unfold finishRows
    repeat' (first | with_reducible (first | assumption  | apply touch_andThen | apply touch_finishRow) | refine touch_fst (by with_reducible assumption) ?_ | dsimp only | split | intro _)
  | cons x l ih =>
    unfold finishRows
    repeat' (first | with_reducible (first | assumption | apply ih | apply touch_andThen | apply touch_finishRow) | refine touch_fst (by with_reducible assumption) ?_ | dsimp only | split | intro _)

theorem touch_probeBlock (s : State) (t : Nat) (i : Inst) (row0 : Nat) (r : BlockOut) (hs : Touch F st0 s) (f_mem : F.mem = true) (f_poison : F.poison = true)
    (f_benchPoison : F.benchPoison = true) (f_regs : F.regs = true) (f_cores : F.cores = true) (f_mmu : F.mmu = true) (f_larder : F.larder = true) (f_arbs : F.arbs =
    true) (f_planted : F.planted = true) :
    Touch F st0 (probeBlock s t i row0 r).1 := by
  unfold probeBlock
  repeat' (first | with_reducible (first | assumption  | apply touch_andThen | apply touch_probeWrites) | refine touch_fst (by with_reducible assumption) ?_ | dsimp only | split | intro _)

theorem touch_finishBlocks (f_ord : F.ord = true) (f_mem : F.mem = true) (f_poison : F.poison = true) (f_benchPoison : F.benchPoison = true) (f_regs : F.regs = true)
    (f_trays : F.trays = true) (f_queues : F.queues = true) (f_cores : F.cores = true) (f_mmu : F.mmu = true) (f_larder : F.larder = true) (f_arbs : F.arbs = true)
    (f_errLog : F.errLog = true) (f_planted : F.planted = true) (f_staon : F.staon = true) :
    ∀ (y0 : Nat) (y1 : State) (y2 : Nat) (y3 : Nat) (y4 : Nat), Touch F st0 y1 → Touch F st0 (finishBlocks y0 y1 y2 y3 y4) := by
  intro y0
  induction y0 with
  | zero =>
    intros; unfold finishBlocks
    repeat' (first | with_reducible (first | assumption  | apply touch_State_modTile | apply touch_faultInst | apply touch_memFault | apply touch_sendBlock | apply touch_finishRows | apply touch_probeBlock) | refine touch_fst (by with_reducible assumption) ?_ | dsimp only | split | intro _)
  | succ k ih =>
    intros; unfold finishBlocks
    repeat' (first | with_reducible (first | assumption | apply ih | apply touch_State_modTile | apply touch_faultInst | apply touch_memFault | apply touch_sendBlock | apply touch_finishRows | apply touch_probeBlock) | refine touch_fst (by with_reducible assumption) ?_ | dsimp only | split | intro _)

/-! ### Reduce.lean -/

theorem touch_redWrite (s : State) (t : Nat) (i : Inst) (xs : List (Nat × Num)) (hs : Touch F st0 s) (f_mem : F.mem = true) (f_poison : F.poison = true)
    (f_benchPoison : F.benchPoison = true) (f_regs : F.regs = true) (f_cores : F.cores = true) (f_mmu : F.mmu = true) (f_larder : F.larder = true) (f_arbs : F.arbs =
    true) (f_planted : F.planted = true) :
    Touch F st0 (redWrite s t i xs).1 := by
  unfold redWrite
  repeat' (first | with_reducible (first | assumption  | apply touch_andThen | apply touch_writeRow | apply touch_commitWrites | apply touch_foldl | apply touch_foldl_fst) | refine touch_fst (by with_reducible assumption) ?_ | dsimp only | split | intro _)

theorem touch_redKeep (s : State) (t : Nat) (i : Inst) (xs : List RedOne) (hs : Touch F st0 s) (f_mem : F.mem = true) (f_poison : F.poison = true) (f_benchPoison :
    F.benchPoison = true) (f_regs : F.regs = true) (f_planted : F.planted = true) :
    Touch F st0 (redKeep s t i xs).1 := by
  unfold redKeep
  repeat' (first | with_reducible (first | assumption  | apply touch_andThen | apply touch_benchWrite | apply touch_writeCouche | apply touch_foldl | apply touch_foldl_fst) | refine touch_fst (by with_reducible assumption) ?_ | dsimp only | split | intro _)

theorem touch_redAdd (s : State) (t k member e0 : Nat) (vals : List (Nat × Nat)) (hs : Touch F st0 s) (f_free : F.free = true) (f_mem : F.mem = true) (f_poison :
    F.poison = true) (f_benchPoison : F.benchPoison = true) (f_regs : F.regs = true) (f_trays : F.trays = true) (f_queues : F.queues = true) (f_cores : F.cores = true)
    (f_mmu : F.mmu = true) (f_larder : F.larder = true) (f_arbs : F.arbs = true) (f_errLog : F.errLog = true) (f_planted : F.planted = true) (f_staon : F.staon = true) :
    Touch F st0 (redAdd s t k member e0 vals).1 := by
  unfold redAdd
  repeat' (first | with_reducible (first | assumption  | apply touch_State_setFree | apply touch_State_count | apply touch_State_modPeel | apply touch_State_modInst | apply touch_andThen | apply touch_faultInst | apply touch_memFault | apply touch_waitCouche | apply touch_redWrite | apply touch_redKeep | apply touch_foldl | apply touch_foldl_fst) | refine touch_fst (by with_reducible assumption) ?_ | dsimp only | split | intro _)

end Sys2Proof.Machine
end

