-- ==== Sys2Proof/Laws/Touch3.lean ====
section
/-! SUPPORT. What each operation of Issue.lean, Spill.lean, Move.lean, Product.lean, Tiler.lean and RowOut.lean may write: one lemma for each, by its own name. -/

namespace Sys2Proof.Machine

set_option linter.all false

variable {F : Parts} {st0 : State}

/-! ### Issue.lean -/

theorem touch_keepBytes (s : State) (t idx va : Nat) (bs : List Byte) (hs : Touch F st0 s) (f_queues : F.queues = true) :
    Touch F st0 (keepBytes s t idx va bs) := by
  unfold keepBytes
  repeat' (first | with_reducible (first | assumption  | apply touch_State_modHq) | refine touch_fst (by with_reducible assumption) ?_ | dsimp only | split | intro _)

theorem touch_trayFetch (s : State) (t idx : Nat) (va n : Nat) (hs : Touch F st0 s) (f_mem : F.mem = true) (f_poison : F.poison = true) (f_benchPoison :
    F.benchPoison = true) (f_regs : F.regs = true) (f_queues : F.queues = true) (f_cores : F.cores = true) (f_mmu : F.mmu = true) (f_larder : F.larder = true) (f_arbs :
    F.arbs = true) (f_planted : F.planted = true) :
    Touch F st0 (trayFetch s t idx va n).1 := by
  unfold trayFetch
  repeat' (first | with_reducible (first | assumption  | apply touch_State_count | apply touch_readV | apply touch_keepBytes) | refine touch_fst (by with_reducible assumption) ?_ | dsimp only | split | intro _)

theorem touch_fetchFault (s : State) (t idx tag : Nat) (e : MemErr) (hs : Touch F st0 s) (f_regs : F.regs = true) (f_trays : F.trays = true) (f_queues : F.queues =
    true) (f_cores : F.cores = true) (f_mmu : F.mmu = true) (f_arbs : F.arbs = true) (f_errLog : F.errLog = true) (f_staon : F.staon = true) :
    Touch F st0 (fetchFault s t idx tag e) := by
  unfold fetchFault
  repeat' (first | with_reducible (first | assumption  | apply touch_State_modTray | apply touch_endTaskLog | apply touch_endTask | apply touch_pauseTask) | refine touch_fst (by with_reducible assumption) ?_ | dsimp only | split | intro _)

theorem touch_readDescs (s : State) (t idx dtab : Nat) (ls : List Loop) (hs : Touch F st0 s) (f_mem : F.mem = true) (f_poison : F.poison = true) (f_benchPoison :
    F.benchPoison = true) (f_regs : F.regs = true) (f_queues : F.queues = true) (f_cores : F.cores = true) (f_mmu : F.mmu = true) (f_larder : F.larder = true) (f_arbs :
    F.arbs = true) (f_planted : F.planted = true) :
    ∀ (y0 : List (Role × Nat)), Touch F st0 (readDescs s t idx dtab ls y0).1 := by
  intro y0
  induction y0 generalizing s with
  | nil =>
    unfold readDescs
    repeat' (first | with_reducible (first | assumption  | apply touch_trayFetch) | refine touch_fst (by with_reducible assumption) ?_ | dsimp only | split | intro _)
  | cons x l ih =>
    unfold readDescs
    repeat' (first | with_reducible (first | assumption | apply ih | apply touch_trayFetch) | refine touch_fst (by with_reducible assumption) ?_ | dsimp only | split | intro _)

theorem touch_freeMaps (s : State) (c : Nat) (hs : Touch F st0 s) (f_cores : F.cores = true) :
    Touch F st0 (freeMaps s c) := by
  unfold freeMaps
  repeat' (first | with_reducible (first | assumption  | apply touch_State_modLevain) | refine touch_fst (by with_reducible assumption) ?_ | dsimp only | split | intro _)

theorem touch_disarm (s : State) (t : Nat) (hs : Touch F st0 s) (f_trays : F.trays = true) (f_cores : F.cores = true) :
    Touch F st0 (disarm s t) := by
  unfold disarm
  repeat' (first | with_reducible (first | assumption  | apply touch_State_modTray | apply touch_State_modLevain | apply touch_freeMaps) | refine touch_fst (by with_reducible assumption) ?_ | dsimp only | split | intro _)

theorem touch_clearTags (s : State) (t : Nat) (hs : Touch F st0 s) (f_cores : F.cores = true) :
    Touch F st0 (clearTags s t) := by
  unfold clearTags
  repeat' (first | with_reducible (first | assumption  | apply touch_State_modCore) | refine touch_fst (by with_reducible assumption) ?_ | dsimp only | split | intro _)

theorem touch_countRed (s : State) (mn : Mn) (w : IWord) (hs : Touch F st0 s) (f_regs : F.regs = true) :
    Touch F st0 (countRed s mn w) := by
  unfold countRed
  repeat' (first | with_reducible (first | assumption  | apply touch_State_setFld) | refine touch_fst (by with_reducible assumption) ?_ | dsimp only | split | intro _)

theorem touch_takeMap (s : State) (t : Nat) (i : Inst) (hs : Touch F st0 s) (f_cores : F.cores = true) :
    Touch F st0 (takeMap s t i) := by
  unfold takeMap
  repeat' (first | with_reducible (first | assumption  | apply touch_State_modLevain) | refine touch_fst (by with_reducible assumption) ?_ | dsimp only | split | intro _)

theorem touch_issueInst (s : State) (t : Nat) (i0 : Inst) (hs : Touch F st0 s) (f_ord : F.ord = true) (f_regs : F.regs = true) (f_trays : F.trays = true) (f_barriers
    : F.barriers = true) (f_queues : F.queues = true) (f_cores : F.cores = true) (f_mmu : F.mmu = true) (f_arbs : F.arbs = true) (f_errLog : F.errLog = true) (f_planted
    : F.planted = true) (f_staon : F.staon = true) :
    Touch F st0 (issueInst s t i0) := by
  unfold issueInst
  repeat' (first | with_reducible (first | assumption  | apply touch_State_modTray | apply touch_State_modVec | apply touch_State_modProofer | apply touch_dropStreams | apply touch_tryRelease | apply touch_wrote | apply touch_disarm | apply touch_clearTags | apply touch_countRed | apply touch_takeMap) | refine touch_fst (by with_reducible assumption) ?_ | dsimp only | split | intro _)

theorem touch_nextWord (s : State) (t : Nat) (hs : Touch F st0 s) (f_mem : F.mem = true) (f_poison : F.poison = true) (f_benchPoison : F.benchPoison = true) (f_regs
    : F.regs = true) (f_queues : F.queues = true) (f_cores : F.cores = true) (f_mmu : F.mmu = true) (f_larder : F.larder = true) (f_arbs : F.arbs = true) (f_planted :
    F.planted = true) :
    Touch F st0 (nextWord s t).1 := by
  unfold nextWord
  repeat' (first | with_reducible (first | assumption  | apply touch_trayFetch) | refine touch_fst (by with_reducible assumption) ?_ | dsimp only | split | intro _)

theorem touch_issueWord (s : State) (t : Nat) (mn : Mn) (w : IWord) (hs : Touch F st0 s) (f_ord : F.ord = true) (f_mem : F.mem = true) (f_poison : F.poison = true)
    (f_benchPoison : F.benchPoison = true) (f_regs : F.regs = true) (f_trays : F.trays = true) (f_barriers : F.barriers = true) (f_queues : F.queues = true) (f_cores :
    F.cores = true) (f_mmu : F.mmu = true) (f_larder : F.larder = true) (f_arbs : F.arbs = true) (f_errLog : F.errLog = true) (f_planted : F.planted = true) (f_staon :
    F.staon = true) :
    Touch F st0 (issueWord s t mn w) := by
  unfold issueWord
  repeat' (first | with_reducible (first | assumption  | apply touch_faultIssue | apply touch_fetchFault | apply touch_readDescs | apply touch_issueInst) | refine touch_fst (by with_reducible assumption) ?_ | dsimp only | split | intro _)

theorem touch_issue (t : Nat) (mn : Mn) (s : State) (hs : Touch F st0 s) (f_ord : F.ord = true) (f_mem : F.mem = true) (f_poison : F.poison = true) (f_benchPoison :
    F.benchPoison = true) (f_regs : F.regs = true) (f_trays : F.trays = true) (f_barriers : F.barriers = true) (f_queues : F.queues = true) (f_cores : F.cores = true)
    (f_mmu : F.mmu = true) (f_larder : F.larder = true) (f_arbs : F.arbs = true) (f_errLog : F.errLog = true) (f_planted : F.planted = true) (f_staon : F.staon = true) :
    Touch F st0 (issue t mn s) := by
  unfold issue
  repeat' (first | with_reducible (first | assumption  | apply touch_faultIssue | apply touch_fetchFault | apply touch_nextWord | apply touch_issueWord) | refine touch_fst (by with_reducible assumption) ?_ | dsimp only | split | intro _)

theorem touch_onTray (t : Nat) (f : State → State) (s : State) (hf : ∀ x0, Touch F st0 x0 → Touch F st0 (f x0)) (hs : Touch F st0 s) :
    Ends F st0 (onTray t f s) := by
  unfold onTray
  repeat' (first | with_reducible (first | assumption  | apply hf | apply ends_next | apply ends_fault) | refine touch_fst (by with_reducible assumption) ?_ | dsimp only | split | intro _)

theorem touch_onCore (c : Nat) (f : State → State) (s : State) (hf : ∀ x0, Touch F st0 x0 → Touch F st0 (f x0)) (hs : Touch F st0 s) :
    Ends F st0 (onCore c f s) := by
  unfold onCore
  repeat' (first | with_reducible (first | assumption  | apply hf | apply ends_next | apply ends_fault) | refine touch_fst (by with_reducible assumption) ?_ | dsimp only | split | intro _)

theorem touch_onQueue (q : Nat) (f : State → State) (s : State) (hf : ∀ x0, Touch F st0 x0 → Touch F st0 (f x0)) (hs : Touch F st0 s) :
    Ends F st0 (onQueue q f s) := by
  unfold onQueue
  repeat' (first | with_reducible (first | assumption  | apply hf | apply ends_next | apply ends_fault) | refine touch_fst (by with_reducible assumption) ?_ | dsimp only | split | intro _)

theorem touch_execCtrlNop (t : Nat) (s : State) (hs : Touch F st0 s) (f_ord : F.ord = true) (f_mem : F.mem = true) (f_poison : F.poison = true) (f_benchPoison :
    F.benchPoison = true) (f_regs : F.regs = true) (f_trays : F.trays = true) (f_barriers : F.barriers = true) (f_queues : F.queues = true) (f_cores : F.cores = true)
    (f_mmu : F.mmu = true) (f_larder : F.larder = true) (f_arbs : F.arbs = true) (f_errLog : F.errLog = true) (f_planted : F.planted = true) (f_staon : F.staon = true) :
    Ends F st0 (execCtrlNop t s) := by
  unfold execCtrlNop
  repeat' (first | with_reducible (first | assumption  | apply touch_issue | apply touch_onTray | apply ends_next | apply ends_fault) | refine touch_fst (by with_reducible assumption) ?_ | dsimp only | split | intro _)

theorem touch_execCtrlLoop (t : Nat) (s : State) (hs : Touch F st0 s) (f_ord : F.ord = true) (f_mem : F.mem = true) (f_poison : F.poison = true) (f_benchPoison :
    F.benchPoison = true) (f_regs : F.regs = true) (f_trays : F.trays = true) (f_barriers : F.barriers = true) (f_queues : F.queues = true) (f_cores : F.cores = true)
    (f_mmu : F.mmu = true) (f_larder : F.larder = true) (f_arbs : F.arbs = true) (f_errLog : F.errLog = true) (f_planted : F.planted = true) (f_staon : F.staon = true) :
    Ends F st0 (execCtrlLoop t s) := by
  unfold execCtrlLoop
  repeat' (first | with_reducible (first | assumption  | apply touch_issue | apply touch_onTray | apply ends_next | apply ends_fault) | refine touch_fst (by with_reducible assumption) ?_ | dsimp only | split | intro _)

theorem touch_execCtrlEnd (t : Nat) (s : State) (hs : Touch F st0 s) (f_ord : F.ord = true) (f_mem : F.mem = true) (f_poison : F.poison = true) (f_benchPoison :
    F.benchPoison = true) (f_regs : F.regs = true) (f_trays : F.trays = true) (f_barriers : F.barriers = true) (f_queues : F.queues = true) (f_cores : F.cores = true)
    (f_mmu : F.mmu = true) (f_larder : F.larder = true) (f_arbs : F.arbs = true) (f_errLog : F.errLog = true) (f_planted : F.planted = true) (f_staon : F.staon = true) :
    Ends F st0 (execCtrlEnd t s) := by
  unfold execCtrlEnd
  repeat' (first | with_reducible (first | assumption  | apply touch_issue | apply touch_onTray | apply ends_next | apply ends_fault) | refine touch_fst (by with_reducible assumption) ?_ | dsimp only | split | intro _)

theorem touch_execCtrlSetvl (t : Nat) (s : State) (hs : Touch F st0 s) (f_ord : F.ord = true) (f_mem : F.mem = true) (f_poison : F.poison = true) (f_benchPoison :
    F.benchPoison = true) (f_regs : F.regs = true) (f_trays : F.trays = true) (f_barriers : F.barriers = true) (f_queues : F.queues = true) (f_cores : F.cores = true)
    (f_mmu : F.mmu = true) (f_larder : F.larder = true) (f_arbs : F.arbs = true) (f_errLog : F.errLog = true) (f_planted : F.planted = true) (f_staon : F.staon = true) :
    Ends F st0 (execCtrlSetvl t s) := by
  unfold execCtrlSetvl
  repeat' (first | with_reducible (first | assumption  | apply touch_issue | apply touch_onTray | apply ends_next | apply ends_fault) | refine touch_fst (by with_reducible assumption) ?_ | dsimp only | split | intro _)

theorem touch_execCtrlCfg (t : Nat) (s : State) (hs : Touch F st0 s) (f_ord : F.ord = true) (f_mem : F.mem = true) (f_poison : F.poison = true) (f_benchPoison :
    F.benchPoison = true) (f_regs : F.regs = true) (f_trays : F.trays = true) (f_barriers : F.barriers = true) (f_queues : F.queues = true) (f_cores : F.cores = true)
    (f_mmu : F.mmu = true) (f_larder : F.larder = true) (f_arbs : F.arbs = true) (f_errLog : F.errLog = true) (f_planted : F.planted = true) (f_staon : F.staon = true) :
    Ends F st0 (execCtrlCfg t s) := by
  unfold execCtrlCfg
  repeat' (first | with_reducible (first | assumption  | apply touch_issue | apply touch_onTray | apply ends_next | apply ends_fault) | refine touch_fst (by with_reducible assumption) ?_ | dsimp only | split | intro _)

theorem touch_execXferLd (t : Nat) (s : State) (hs : Touch F st0 s) (f_ord : F.ord = true) (f_mem : F.mem = true) (f_poison : F.poison = true) (f_benchPoison :
    F.benchPoison = true) (f_regs : F.regs = true) (f_trays : F.trays = true) (f_barriers : F.barriers = true) (f_queues : F.queues = true) (f_cores : F.cores = true)
    (f_mmu : F.mmu = true) (f_larder : F.larder = true) (f_arbs : F.arbs = true) (f_errLog : F.errLog = true) (f_planted : F.planted = true) (f_staon : F.staon = true) :
    Ends F st0 (execXferLd t s) := by
  unfold execXferLd
  repeat' (first | with_reducible (first | assumption  | apply touch_issue | apply touch_onTray | apply ends_next | apply ends_fault) | refine touch_fst (by with_reducible assumption) ?_ | dsimp only | split | intro _)

theorem touch_execXferSt (t : Nat) (s : State) (hs : Touch F st0 s) (f_ord : F.ord = true) (f_mem : F.mem = true) (f_poison : F.poison = true) (f_benchPoison :
    F.benchPoison = true) (f_regs : F.regs = true) (f_trays : F.trays = true) (f_barriers : F.barriers = true) (f_queues : F.queues = true) (f_cores : F.cores = true)
    (f_mmu : F.mmu = true) (f_larder : F.larder = true) (f_arbs : F.arbs = true) (f_errLog : F.errLog = true) (f_planted : F.planted = true) (f_staon : F.staon = true) :
    Ends F st0 (execXferSt t s) := by
  unfold execXferSt
  repeat' (first | with_reducible (first | assumption  | apply touch_issue | apply touch_onTray | apply ends_next | apply ends_fault) | refine touch_fst (by with_reducible assumption) ?_ | dsimp only | split | intro _)

theorem touch_execXferGather (t : Nat) (s : State) (hs : Touch F st0 s) (f_ord : F.ord = true) (f_mem : F.mem = true) (f_poison : F.poison = true) (f_benchPoison :
    F.benchPoison = true) (f_regs : F.regs = true) (f_trays : F.trays = true) (f_barriers : F.barriers = true) (f_queues : F.queues = true) (f_cores : F.cores = true)
    (f_mmu : F.mmu = true) (f_larder : F.larder = true) (f_arbs : F.arbs = true) (f_errLog : F.errLog = true) (f_planted : F.planted = true) (f_staon : F.staon = true) :
    Ends F st0 (execXferGather t s) := by
  unfold execXferGather
  repeat' (first | with_reducible (first | assumption  | apply touch_issue | apply touch_onTray | apply ends_next | apply ends_fault) | refine touch_fst (by with_reducible assumption) ?_ | dsimp only | split | intro _)

theorem touch_execXferScatter (t : Nat) (s : State) (hs : Touch F st0 s) (f_ord : F.ord = true) (f_mem : F.mem = true) (f_poison : F.poison = true) (f_benchPoison :
    F.benchPoison = true) (f_regs : F.regs = true) (f_trays : F.trays = true) (f_barriers : F.barriers = true) (f_queues : F.queues = true) (f_cores : F.cores = true)
    (f_mmu : F.mmu = true) (f_larder : F.larder = true) (f_arbs : F.arbs = true) (f_errLog : F.errLog = true) (f_planted : F.planted = true) (f_staon : F.staon = true) :
    Ends F st0 (execXferScatter t s) := by
  unfold execXferScatter
  repeat' (first | with_reducible (first | assumption  | apply touch_issue | apply touch_onTray | apply ends_next | apply ends_fault) | refine touch_fst (by with_reducible assumption) ?_ | dsimp only | split | intro _)

theorem touch_execXferRemote (t : Nat) (s : State) (hs : Touch F st0 s) (f_ord : F.ord = true) (f_mem : F.mem = true) (f_poison : F.poison = true) (f_benchPoison :
    F.benchPoison = true) (f_regs : F.regs = true) (f_trays : F.trays = true) (f_barriers : F.barriers = true) (f_queues : F.queues = true) (f_cores : F.cores = true)
    (f_mmu : F.mmu = true) (f_larder : F.larder = true) (f_arbs : F.arbs = true) (f_errLog : F.errLog = true) (f_planted : F.planted = true) (f_staon : F.staon = true) :
    Ends F st0 (execXferRemote t s) := by
  unfold execXferRemote
  repeat' (first | with_reducible (first | assumption  | apply touch_issue | apply touch_onTray | apply ends_next | apply ends_fault) | refine touch_fst (by with_reducible assumption) ?_ | dsimp only | split | intro _)

theorem touch_execXferPref (t : Nat) (s : State) (hs : Touch F st0 s) (f_ord : F.ord = true) (f_mem : F.mem = true) (f_poison : F.poison = true) (f_benchPoison :
    F.benchPoison = true) (f_regs : F.regs = true) (f_trays : F.trays = true) (f_barriers : F.barriers = true) (f_queues : F.queues = true) (f_cores : F.cores = true)
    (f_mmu : F.mmu = true) (f_larder : F.larder = true) (f_arbs : F.arbs = true) (f_errLog : F.errLog = true) (f_planted : F.planted = true) (f_staon : F.staon = true) :
    Ends F st0 (execXferPref t s) := by
  unfold execXferPref
  repeat' (first | with_reducible (first | assumption  | apply touch_issue | apply touch_onTray | apply ends_next | apply ends_fault) | refine touch_fst (by with_reducible assumption) ?_ | dsimp only | split | intro _)

theorem touch_execMxmMm (t : Nat) (s : State) (hs : Touch F st0 s) (f_ord : F.ord = true) (f_mem : F.mem = true) (f_poison : F.poison = true) (f_benchPoison :
    F.benchPoison = true) (f_regs : F.regs = true) (f_trays : F.trays = true) (f_barriers : F.barriers = true) (f_queues : F.queues = true) (f_cores : F.cores = true)
    (f_mmu : F.mmu = true) (f_larder : F.larder = true) (f_arbs : F.arbs = true) (f_errLog : F.errLog = true) (f_planted : F.planted = true) (f_staon : F.staon = true) :
    Ends F st0 (execMxmMm t s) := by
  unfold execMxmMm
  repeat' (first | with_reducible (first | assumption  | apply touch_issue | apply touch_onTray | apply ends_next | apply ends_fault) | refine touch_fst (by with_reducible assumption) ?_ | dsimp only | split | intro _)

theorem touch_execMxmMms (t : Nat) (s : State) (hs : Touch F st0 s) (f_ord : F.ord = true) (f_mem : F.mem = true) (f_poison : F.poison = true) (f_benchPoison :
    F.benchPoison = true) (f_regs : F.regs = true) (f_trays : F.trays = true) (f_barriers : F.barriers = true) (f_queues : F.queues = true) (f_cores : F.cores = true)
    (f_mmu : F.mmu = true) (f_larder : F.larder = true) (f_arbs : F.arbs = true) (f_errLog : F.errLog = true) (f_planted : F.planted = true) (f_staon : F.staon = true) :
    Ends F st0 (execMxmMms t s) := by
  unfold execMxmMms
  repeat' (first | with_reducible (first | assumption  | apply touch_issue | apply touch_onTray | apply ends_next | apply ends_fault) | refine touch_fst (by with_reducible assumption) ?_ | dsimp only | split | intro _)

theorem touch_execMxmLdw (t : Nat) (s : State) (hs : Touch F st0 s) (f_ord : F.ord = true) (f_mem : F.mem = true) (f_poison : F.poison = true) (f_benchPoison :
    F.benchPoison = true) (f_regs : F.regs = true) (f_trays : F.trays = true) (f_barriers : F.barriers = true) (f_queues : F.queues = true) (f_cores : F.cores = true)
    (f_mmu : F.mmu = true) (f_larder : F.larder = true) (f_arbs : F.arbs = true) (f_errLog : F.errLog = true) (f_planted : F.planted = true) (f_staon : F.staon = true) :
    Ends F st0 (execMxmLdw t s) := by
  unfold execMxmLdw
  repeat' (first | with_reducible (first | assumption  | apply touch_issue | apply touch_onTray | apply ends_next | apply ends_fault) | refine touch_fst (by with_reducible assumption) ?_ | dsimp only | split | intro _)

theorem touch_execSpxInt (t : Nat) (s : State) (hs : Touch F st0 s) (f_ord : F.ord = true) (f_mem : F.mem = true) (f_poison : F.poison = true) (f_benchPoison :
    F.benchPoison = true) (f_regs : F.regs = true) (f_trays : F.trays = true) (f_barriers : F.barriers = true) (f_queues : F.queues = true) (f_cores : F.cores = true)
    (f_mmu : F.mmu = true) (f_larder : F.larder = true) (f_arbs : F.arbs = true) (f_errLog : F.errLog = true) (f_planted : F.planted = true) (f_staon : F.staon = true) :
    Ends F st0 (execSpxInt t s) := by
  unfold execSpxInt
  repeat' (first | with_reducible (first | assumption  | apply touch_issue | apply touch_onTray | apply ends_next | apply ends_fault) | refine touch_fst (by with_reducible assumption) ?_ | dsimp only | split | intro _)

theorem touch_execSpxSct (t : Nat) (s : State) (hs : Touch F st0 s) (f_ord : F.ord = true) (f_mem : F.mem = true) (f_poison : F.poison = true) (f_benchPoison :
    F.benchPoison = true) (f_regs : F.regs = true) (f_trays : F.trays = true) (f_barriers : F.barriers = true) (f_queues : F.queues = true) (f_cores : F.cores = true)
    (f_mmu : F.mmu = true) (f_larder : F.larder = true) (f_arbs : F.arbs = true) (f_errLog : F.errLog = true) (f_planted : F.planted = true) (f_staon : F.staon = true) :
    Ends F st0 (execSpxSct t s) := by
  unfold execSpxSct
  repeat' (first | with_reducible (first | assumption  | apply touch_issue | apply touch_onTray | apply ends_next | apply ends_fault) | refine touch_fst (by with_reducible assumption) ?_ | dsimp only | split | intro _)

theorem touch_execSpxExp (t : Nat) (s : State) (hs : Touch F st0 s) (f_ord : F.ord = true) (f_mem : F.mem = true) (f_poison : F.poison = true) (f_benchPoison :
    F.benchPoison = true) (f_regs : F.regs = true) (f_trays : F.trays = true) (f_barriers : F.barriers = true) (f_queues : F.queues = true) (f_cores : F.cores = true)
    (f_mmu : F.mmu = true) (f_larder : F.larder = true) (f_arbs : F.arbs = true) (f_errLog : F.errLog = true) (f_planted : F.planted = true) (f_staon : F.staon = true) :
    Ends F st0 (execSpxExp t s) := by
  unfold execSpxExp
  repeat' (first | with_reducible (first | assumption  | apply touch_issue | apply touch_onTray | apply ends_next | apply ends_fault) | refine touch_fst (by with_reducible assumption) ?_ | dsimp only | split | intro _)

theorem touch_execSpxCmp (t : Nat) (s : State) (hs : Touch F st0 s) (f_ord : F.ord = true) (f_mem : F.mem = true) (f_poison : F.poison = true) (f_benchPoison :
    F.benchPoison = true) (f_regs : F.regs = true) (f_trays : F.trays = true) (f_barriers : F.barriers = true) (f_queues : F.queues = true) (f_cores : F.cores = true)
    (f_mmu : F.mmu = true) (f_larder : F.larder = true) (f_arbs : F.arbs = true) (f_errLog : F.errLog = true) (f_planted : F.planted = true) (f_staon : F.staon = true) :
    Ends F st0 (execSpxCmp t s) := by
  unfold execSpxCmp
  repeat' (first | with_reducible (first | assumption  | apply touch_issue | apply touch_onTray | apply ends_next | apply ends_fault) | refine touch_fst (by with_reducible assumption) ?_ | dsimp only | split | intro _)

theorem touch_execSpxCen (t : Nat) (s : State) (hs : Touch F st0 s) (f_ord : F.ord = true) (f_mem : F.mem = true) (f_poison : F.poison = true) (f_benchPoison :
    F.benchPoison = true) (f_regs : F.regs = true) (f_trays : F.trays = true) (f_barriers : F.barriers = true) (f_queues : F.queues = true) (f_cores : F.cores = true)
    (f_mmu : F.mmu = true) (f_larder : F.larder = true) (f_arbs : F.arbs = true) (f_errLog : F.errLog = true) (f_planted : F.planted = true) (f_staon : F.staon = true) :
    Ends F st0 (execSpxCen t s) := by
  unfold execSpxCen
  repeat' (first | with_reducible (first | assumption  | apply touch_issue | apply touch_onTray | apply ends_next | apply ends_fault) | refine touch_fst (by with_reducible assumption) ?_ | dsimp only | split | intro _)

theorem touch_execVxpLdp (t : Nat) (s : State) (hs : Touch F st0 s) (f_ord : F.ord = true) (f_mem : F.mem = true) (f_poison : F.poison = true) (f_benchPoison :
    F.benchPoison = true) (f_regs : F.regs = true) (f_trays : F.trays = true) (f_barriers : F.barriers = true) (f_queues : F.queues = true) (f_cores : F.cores = true)
    (f_mmu : F.mmu = true) (f_larder : F.larder = true) (f_arbs : F.arbs = true) (f_errLog : F.errLog = true) (f_planted : F.planted = true) (f_staon : F.staon = true) :
    Ends F st0 (execVxpLdp t s) := by
  unfold execVxpLdp
  repeat' (first | with_reducible (first | assumption  | apply touch_issue | apply touch_onTray | apply ends_next | apply ends_fault) | refine touch_fst (by with_reducible assumption) ?_ | dsimp only | split | intro _)

theorem touch_execVxpRun (t : Nat) (s : State) (hs : Touch F st0 s) (f_ord : F.ord = true) (f_mem : F.mem = true) (f_poison : F.poison = true) (f_benchPoison :
    F.benchPoison = true) (f_regs : F.regs = true) (f_trays : F.trays = true) (f_barriers : F.barriers = true) (f_queues : F.queues = true) (f_cores : F.cores = true)
    (f_mmu : F.mmu = true) (f_larder : F.larder = true) (f_arbs : F.arbs = true) (f_errLog : F.errLog = true) (f_planted : F.planted = true) (f_staon : F.staon = true) :
    Ends F st0 (execVxpRun t s) := by
  unfold execVxpRun
  repeat' (first | with_reducible (first | assumption  | apply touch_issue | apply touch_onTray | apply ends_next | apply ends_fault) | refine touch_fst (by with_reducible assumption) ?_ | dsimp only | split | intro _)

theorem touch_execVxpCpr (t : Nat) (s : State) (hs : Touch F st0 s) (f_ord : F.ord = true) (f_mem : F.mem = true) (f_poison : F.poison = true) (f_benchPoison :
    F.benchPoison = true) (f_regs : F.regs = true) (f_trays : F.trays = true) (f_barriers : F.barriers = true) (f_queues : F.queues = true) (f_cores : F.cores = true)
    (f_mmu : F.mmu = true) (f_larder : F.larder = true) (f_arbs : F.arbs = true) (f_errLog : F.errLog = true) (f_planted : F.planted = true) (f_staon : F.staon = true) :
    Ends F st0 (execVxpCpr t s) := by
  unfold execVxpCpr
  repeat' (first | with_reducible (first | assumption  | apply touch_issue | apply touch_onTray | apply ends_next | apply ends_fault) | refine touch_fst (by with_reducible assumption) ?_ | dsimp only | split | intro _)

theorem touch_execVxpExd (t : Nat) (s : State) (hs : Touch F st0 s) (f_ord : F.ord = true) (f_mem : F.mem = true) (f_poison : F.poison = true) (f_benchPoison :
    F.benchPoison = true) (f_regs : F.regs = true) (f_trays : F.trays = true) (f_barriers : F.barriers = true) (f_queues : F.queues = true) (f_cores : F.cores = true)
    (f_mmu : F.mmu = true) (f_larder : F.larder = true) (f_arbs : F.arbs = true) (f_errLog : F.errLog = true) (f_planted : F.planted = true) (f_staon : F.staon = true) :
    Ends F st0 (execVxpExd t s) := by
  unfold execVxpExd
  repeat' (first | with_reducible (first | assumption  | apply touch_issue | apply touch_onTray | apply ends_next | apply ends_fault) | refine touch_fst (by with_reducible assumption) ?_ | dsimp only | split | intro _)

theorem touch_execVxpPrm (t : Nat) (s : State) (hs : Touch F st0 s) (f_ord : F.ord = true) (f_mem : F.mem = true) (f_poison : F.poison = true) (f_benchPoison :
    F.benchPoison = true) (f_regs : F.regs = true) (f_trays : F.trays = true) (f_barriers : F.barriers = true) (f_queues : F.queues = true) (f_cores : F.cores = true)
    (f_mmu : F.mmu = true) (f_larder : F.larder = true) (f_arbs : F.arbs = true) (f_errLog : F.errLog = true) (f_planted : F.planted = true) (f_staon : F.staon = true) :
    Ends F st0 (execVxpPrm t s) := by
  unfold execVxpPrm
  repeat' (first | with_reducible (first | assumption  | apply touch_issue | apply touch_onTray | apply ends_next | apply ends_fault) | refine touch_fst (by with_reducible assumption) ?_ | dsimp only | split | intro _)

theorem touch_execVxpRed (t : Nat) (s : State) (hs : Touch F st0 s) (f_ord : F.ord = true) (f_mem : F.mem = true) (f_poison : F.poison = true) (f_benchPoison :
    F.benchPoison = true) (f_regs : F.regs = true) (f_trays : F.trays = true) (f_barriers : F.barriers = true) (f_queues : F.queues = true) (f_cores : F.cores = true)
    (f_mmu : F.mmu = true) (f_larder : F.larder = true) (f_arbs : F.arbs = true) (f_errLog : F.errLog = true) (f_planted : F.planted = true) (f_staon : F.staon = true) :
    Ends F st0 (execVxpRed t s) := by
  unfold execVxpRed
  repeat' (first | with_reducible (first | assumption  | apply touch_issue | apply touch_onTray | apply ends_next | apply ends_fault) | refine touch_fst (by with_reducible assumption) ?_ | dsimp only | split | intro _)

theorem touch_execPeelCfg (t : Nat) (s : State) (hs : Touch F st0 s) (f_ord : F.ord = true) (f_mem : F.mem = true) (f_poison : F.poison = true) (f_benchPoison :
    F.benchPoison = true) (f_regs : F.regs = true) (f_trays : F.trays = true) (f_barriers : F.barriers = true) (f_queues : F.queues = true) (f_cores : F.cores = true)
    (f_mmu : F.mmu = true) (f_larder : F.larder = true) (f_arbs : F.arbs = true) (f_errLog : F.errLog = true) (f_planted : F.planted = true) (f_staon : F.staon = true) :
    Ends F st0 (execPeelCfg t s) := by
  unfold execPeelCfg
  repeat' (first | with_reducible (first | assumption  | apply touch_issue | apply touch_onTray | apply ends_next | apply ends_fault) | refine touch_fst (by with_reducible assumption) ?_ | dsimp only | split | intro _)

theorem touch_execPeelStat (t : Nat) (s : State) (hs : Touch F st0 s) (f_ord : F.ord = true) (f_mem : F.mem = true) (f_poison : F.poison = true) (f_benchPoison :
    F.benchPoison = true) (f_regs : F.regs = true) (f_trays : F.trays = true) (f_barriers : F.barriers = true) (f_queues : F.queues = true) (f_cores : F.cores = true)
    (f_mmu : F.mmu = true) (f_larder : F.larder = true) (f_arbs : F.arbs = true) (f_errLog : F.errLog = true) (f_planted : F.planted = true) (f_staon : F.staon = true) :
    Ends F st0 (execPeelStat t s) := by
  unfold execPeelStat
  repeat' (first | with_reducible (first | assumption  | apply touch_issue | apply touch_onTray | apply ends_next | apply ends_fault) | refine touch_fst (by with_reducible assumption) ?_ | dsimp only | split | intro _)

theorem touch_execPeelUpd (t : Nat) (s : State) (hs : Touch F st0 s) (f_ord : F.ord = true) (f_mem : F.mem = true) (f_poison : F.poison = true) (f_benchPoison :
    F.benchPoison = true) (f_regs : F.regs = true) (f_trays : F.trays = true) (f_barriers : F.barriers = true) (f_queues : F.queues = true) (f_cores : F.cores = true)
    (f_mmu : F.mmu = true) (f_larder : F.larder = true) (f_arbs : F.arbs = true) (f_errLog : F.errLog = true) (f_planted : F.planted = true) (f_staon : F.staon = true) :
    Ends F st0 (execPeelUpd t s) := by
  unfold execPeelUpd
  repeat' (first | with_reducible (first | assumption  | apply touch_issue | apply touch_onTray | apply ends_next | apply ends_fault) | refine touch_fst (by with_reducible assumption) ?_ | dsimp only | split | intro _)

theorem touch_execLevPred (t : Nat) (s : State) (hs : Touch F st0 s) (f_ord : F.ord = true) (f_mem : F.mem = true) (f_poison : F.poison = true) (f_benchPoison :
    F.benchPoison = true) (f_regs : F.regs = true) (f_trays : F.trays = true) (f_barriers : F.barriers = true) (f_queues : F.queues = true) (f_cores : F.cores = true)
    (f_mmu : F.mmu = true) (f_larder : F.larder = true) (f_arbs : F.arbs = true) (f_errLog : F.errLog = true) (f_planted : F.planted = true) (f_staon : F.staon = true) :
    Ends F st0 (execLevPred t s) := by
  unfold execLevPred
  repeat' (first | with_reducible (first | assumption  | apply touch_issue | apply touch_onTray | apply ends_next | apply ends_fault) | refine touch_fst (by with_reducible assumption) ?_ | dsimp only | split | intro _)

theorem touch_execLevAud (t : Nat) (s : State) (hs : Touch F st0 s) (f_ord : F.ord = true) (f_mem : F.mem = true) (f_poison : F.poison = true) (f_benchPoison :
    F.benchPoison = true) (f_regs : F.regs = true) (f_trays : F.trays = true) (f_barriers : F.barriers = true) (f_queues : F.queues = true) (f_cores : F.cores = true)
    (f_mmu : F.mmu = true) (f_larder : F.larder = true) (f_arbs : F.arbs = true) (f_errLog : F.errLog = true) (f_planted : F.planted = true) (f_staon : F.staon = true) :
    Ends F st0 (execLevAud t s) := by
  unfold execLevAud
  repeat' (first | with_reducible (first | assumption  | apply touch_issue | apply touch_onTray | apply ends_next | apply ends_fault) | refine touch_fst (by with_reducible assumption) ?_ | dsimp only | split | intro _)

theorem touch_execSyncWait (t : Nat) (s : State) (hs : Touch F st0 s) (f_ord : F.ord = true) (f_mem : F.mem = true) (f_poison : F.poison = true) (f_benchPoison :
    F.benchPoison = true) (f_regs : F.regs = true) (f_trays : F.trays = true) (f_barriers : F.barriers = true) (f_queues : F.queues = true) (f_cores : F.cores = true)
    (f_mmu : F.mmu = true) (f_larder : F.larder = true) (f_arbs : F.arbs = true) (f_errLog : F.errLog = true) (f_planted : F.planted = true) (f_staon : F.staon = true) :
    Ends F st0 (execSyncWait t s) := by
  unfold execSyncWait
  repeat' (first | with_reducible (first | assumption  | apply touch_issue | apply touch_onTray | apply ends_next | apply ends_fault) | refine touch_fst (by with_reducible assumption) ?_ | dsimp only | split | intro _)

theorem touch_execSyncSig (t : Nat) (s : State) (hs : Touch F st0 s) (f_ord : F.ord = true) (f_mem : F.mem = true) (f_poison : F.poison = true) (f_benchPoison :
    F.benchPoison = true) (f_regs : F.regs = true) (f_trays : F.trays = true) (f_barriers : F.barriers = true) (f_queues : F.queues = true) (f_cores : F.cores = true)
    (f_mmu : F.mmu = true) (f_larder : F.larder = true) (f_arbs : F.arbs = true) (f_errLog : F.errLog = true) (f_planted : F.planted = true) (f_staon : F.staon = true) :
    Ends F st0 (execSyncSig t s) := by
  unfold execSyncSig
  repeat' (first | with_reducible (first | assumption  | apply touch_issue | apply touch_onTray | apply ends_next | apply ends_fault) | refine touch_fst (by with_reducible assumption) ?_ | dsimp only | split | intro _)

theorem touch_execSyncBar (t : Nat) (s : State) (hs : Touch F st0 s) (f_ord : F.ord = true) (f_mem : F.mem = true) (f_poison : F.poison = true) (f_benchPoison :
    F.benchPoison = true) (f_regs : F.regs = true) (f_trays : F.trays = true) (f_barriers : F.barriers = true) (f_queues : F.queues = true) (f_cores : F.cores = true)
    (f_mmu : F.mmu = true) (f_larder : F.larder = true) (f_arbs : F.arbs = true) (f_errLog : F.errLog = true) (f_planted : F.planted = true) (f_staon : F.staon = true) :
    Ends F st0 (execSyncBar t s) := by
  unfold execSyncBar
  repeat' (first | with_reducible (first | assumption  | apply touch_issue | apply touch_onTray | apply ends_next | apply ends_fault) | refine touch_fst (by with_reducible assumption) ?_ | dsimp only | split | intro _)

theorem touch_execFabSend (t : Nat) (s : State) (hs : Touch F st0 s) (f_ord : F.ord = true) (f_mem : F.mem = true) (f_poison : F.poison = true) (f_benchPoison :
    F.benchPoison = true) (f_regs : F.regs = true) (f_trays : F.trays = true) (f_barriers : F.barriers = true) (f_queues : F.queues = true) (f_cores : F.cores = true)
    (f_mmu : F.mmu = true) (f_larder : F.larder = true) (f_arbs : F.arbs = true) (f_errLog : F.errLog = true) (f_planted : F.planted = true) (f_staon : F.staon = true) :
    Ends F st0 (execFabSend t s) := by
  unfold execFabSend
  repeat' (first | with_reducible (first | assumption  | apply touch_issue | apply touch_onTray | apply ends_next | apply ends_fault) | refine touch_fst (by with_reducible assumption) ?_ | dsimp only | split | intro _)

theorem touch_execFabMcast (t : Nat) (s : State) (hs : Touch F st0 s) (f_ord : F.ord = true) (f_mem : F.mem = true) (f_poison : F.poison = true) (f_benchPoison :
    F.benchPoison = true) (f_regs : F.regs = true) (f_trays : F.trays = true) (f_barriers : F.barriers = true) (f_queues : F.queues = true) (f_cores : F.cores = true)
    (f_mmu : F.mmu = true) (f_larder : F.larder = true) (f_arbs : F.arbs = true) (f_errLog : F.errLog = true) (f_planted : F.planted = true) (f_staon : F.staon = true) :
    Ends F st0 (execFabMcast t s) := by
  unfold execFabMcast
  repeat' (first | with_reducible (first | assumption  | apply touch_issue | apply touch_onTray | apply ends_next | apply ends_fault) | refine touch_fst (by with_reducible assumption) ?_ | dsimp only | split | intro _)

theorem touch_execFabRed (t : Nat) (s : State) (hs : Touch F st0 s) (f_ord : F.ord = true) (f_mem : F.mem = true) (f_poison : F.poison = true) (f_benchPoison :
    F.benchPoison = true) (f_regs : F.regs = true) (f_trays : F.trays = true) (f_barriers : F.barriers = true) (f_queues : F.queues = true) (f_cores : F.cores = true)
    (f_mmu : F.mmu = true) (f_larder : F.larder = true) (f_arbs : F.arbs = true) (f_errLog : F.errLog = true) (f_planted : F.planted = true) (f_staon : F.staon = true) :
    Ends F st0 (execFabRed t s) := by
  unfold execFabRed
  repeat' (first | with_reducible (first | assumption  | apply touch_issue | apply touch_onTray | apply ends_next | apply ends_fault) | refine touch_fst (by with_reducible assumption) ?_ | dsimp only | split | intro _)

/-! ### Spill.lean -/

theorem touch_placeSpill (s : State) (c : Nat) (w : SpillWait) (first : Nat) (hs : Touch F st0 s) (f_ord : F.ord = true) (f_trays : F.trays = true) (f_cores :
    F.cores = true) :
    Touch F st0 (placeSpill s c w first) := by
  unfold placeSpill
  repeat' (first | with_reducible (first | assumption  | apply touch_State_modProofer | apply touch_State_modInst | apply touch_addRequest | apply touch_foldl | apply touch_foldl_fst) | refine touch_fst (by with_reducible assumption) ?_ | dsimp only | split | intro _)

theorem touch_serveSpillsFrom (f_ord : F.ord = true) (f_trays : F.trays = true) (f_cores : F.cores = true) :
    ∀ (y0 : Nat) (y1 : State) (y2 : Nat), Touch F st0 y1 → Touch F st0 (serveSpillsFrom y0 y1 y2) := by
  intro y0
  induction y0 with
  | zero =>
    intros; unfold serveSpillsFrom
    repeat' (first | with_reducible (first | assumption  | apply touch_State_modProofer | apply touch_placeSpill) | refine touch_fst (by with_reducible assumption) ?_ | dsimp only | split | intro _)
  | succ k ih =>
    intros; unfold serveSpillsFrom
    repeat' (first | with_reducible (first | assumption | apply ih | apply touch_State_modProofer | apply touch_placeSpill) | refine touch_fst (by with_reducible assumption) ?_ | dsimp only | split | intro _)

theorem touch_serveSpills (s : State) (c : Nat) (hs : Touch F st0 s) (f_ord : F.ord = true) (f_trays : F.trays = true) (f_cores : F.cores = true) :
    Touch F st0 (serveSpills s c) := by
  unfold serveSpills
  repeat' (first | with_reducible (first | assumption  | apply touch_serveSpillsFrom) | refine touch_fst (by with_reducible assumption) ?_ | dsimp only | split | intro _)

theorem touch_askSpill (s : State) (c : Nat) (w : SpillWait) (hs : Touch F st0 s) (f_ord : F.ord = true) (f_trays : F.trays = true) (f_cores : F.cores = true) :
    Touch F st0 (askSpill s c w) := by
  unfold askSpill
  repeat' (first | with_reducible (first | assumption  | apply touch_State_modProofer | apply touch_serveSpills) | refine touch_fst (by with_reducible assumption) ?_ | dsimp only | split | intro _)

theorem touch_deadlockExpire (c : Nat) (s : State) (hs : Touch F st0 s) (f_ord : F.ord = true) (f_regs : F.regs = true) (f_trays : F.trays = true) (f_cores : F.cores
    = true) :
    Touch F st0 (deadlockExpire c s) := by
  unfold deadlockExpire
  repeat' (first | with_reducible (first | assumption  | apply touch_State_count | apply touch_modStream | apply touch_askSpill) | refine touch_fst (by with_reducible assumption) ?_ | dsimp only | split | intro _)

theorem touch_freeSpill (s : State) (c : Nat) (x : Stream) (hs : Touch F st0 s) (f_ord : F.ord = true) (f_trays : F.trays = true) (f_cores : F.cores = true) :
    Touch F st0 (freeSpill s c x) := by
  unfold freeSpill
  repeat' (first | with_reducible (first | assumption  | apply touch_State_modProofer | apply touch_serveSpills) | refine touch_fst (by with_reducible assumption) ?_ | dsimp only | split | intro _)

theorem touch_slotCopied (s : State) (c : Nat) (r : ChReq) (role : Role) (slot addr : Nat) (hs : Touch F st0 s) (f_ord : F.ord = true) (f_cores : F.cores = true) :
    Touch F st0 (slotCopied s c r role slot addr) := by
  unfold slotCopied
  repeat' (first | with_reducible (first | assumption  | apply touch_modStream | apply touch_pumpStreams) | refine touch_fst (by with_reducible assumption) ?_ | dsimp only | split | intro _)

theorem touch_spillMoves (c : Nat) (s0 : State) (hs0 : Touch F st0 s0) (f_ord : F.ord = true) (f_regs : F.regs = true) (f_trays : F.trays = true) (f_cores : F.cores
    = true) :
    Touch F st0 (spillMoves c s0) := by
  unfold spillMoves
  repeat' (first | with_reducible (first | assumption  | apply touch_State_count | apply touch_State_modProofer | apply touch_serveSpills) | refine touch_fst (by with_reducible assumption) ?_ | dsimp only | split | intro _)

theorem touch_spillGivesUp (c : Nat) (s0 : State) (hs0 : Touch F st0 s0) (f_ord : F.ord = true) (f_regs : F.regs = true) (f_trays : F.trays = true) (f_queues :
    F.queues = true) (f_cores : F.cores = true) (f_mmu : F.mmu = true) (f_arbs : F.arbs = true) (f_errLog : F.errLog = true) (f_staon : F.staon = true) :
    Touch F st0 (spillGivesUp c s0) := by
  unfold spillGivesUp
  repeat' (first | with_reducible (first | assumption  | apply touch_State_count | apply touch_faultInst | apply touch_serveSpills) | refine touch_fst (by with_reducible assumption) ?_ | dsimp only | split | intro _)

theorem touch_coucheOverflows (c : Nat) (s : State) (hs : Touch F st0 s) (f_ord : F.ord = true) (f_regs : F.regs = true) (f_trays : F.trays = true) (f_cores :
    F.cores = true) :
    Touch F st0 (coucheOverflows c s) := by
  unfold coucheOverflows
  repeat' (first | with_reducible (first | assumption  | apply touch_State_count | apply touch_State_modPeel | apply touch_askSpill) | refine touch_fst (by with_reducible assumption) ?_ | dsimp only | split | intro _)

theorem touch_execPrfDeadlockExpire (c : Nat) (s : State) (hs : Touch F st0 s) (f_ord : F.ord = true) (f_regs : F.regs = true) (f_trays : F.trays = true) (f_cores :
    F.cores = true) :
    Ends F st0 (execPrfDeadlockExpire c s) := by
  unfold execPrfDeadlockExpire
  repeat' (first | with_reducible (first | assumption  | apply touch_onCore | apply touch_deadlockExpire | apply ends_next | apply ends_fault) | refine touch_fst (by with_reducible assumption) ?_ | dsimp only | split | intro _)

theorem touch_execSpillAreaMove (c : Nat) (s : State) (hs : Touch F st0 s) (f_ord : F.ord = true) (f_regs : F.regs = true) (f_trays : F.trays = true) (f_cores :
    F.cores = true) :
    Ends F st0 (execSpillAreaMove c s) := by
  unfold execSpillAreaMove
  repeat' (first | with_reducible (first | assumption  | apply touch_onCore | apply touch_spillMoves | apply ends_next | apply ends_fault) | refine touch_fst (by with_reducible assumption) ?_ | dsimp only | split | intro _)

theorem touch_execSpillExhausted (c : Nat) (s : State) (hs : Touch F st0 s) (f_ord : F.ord = true) (f_regs : F.regs = true) (f_trays : F.trays = true) (f_queues :
    F.queues = true) (f_cores : F.cores = true) (f_mmu : F.mmu = true) (f_arbs : F.arbs = true) (f_errLog : F.errLog = true) (f_staon : F.staon = true) :
    Ends F st0 (execSpillExhausted c s) := by
  unfold execSpillExhausted
  repeat' (first | with_reducible (first | assumption  | apply touch_onCore | apply touch_spillGivesUp | apply ends_next | apply ends_fault) | refine touch_fst (by with_reducible assumption) ?_ | dsimp only | split | intro _)

theorem touch_execCoucheOverflow (c : Nat) (s : State) (hs : Touch F st0 s) (f_ord : F.ord = true) (f_regs : F.regs = true) (f_trays : F.trays = true) (f_cores :
    F.cores = true) :
    Ends F st0 (execCoucheOverflow c s) := by
  unfold execCoucheOverflow
  repeat' (first | with_reducible (first | assumption  | apply touch_onCore | apply touch_coucheOverflows | apply ends_next | apply ends_fault) | refine touch_fst (by with_reducible assumption) ?_ | dsimp only | split | intro _)

/-! ### Move.lean -/

theorem touch_fillUnit (c space : Nat) (d : Desc) (b : Blk) (base : Nat) (store : Bool) (s : State) (iu : Nat × Nat) (hs : Touch F st0 s) (f_mem : F.mem = true)
    (f_poison : F.poison = true) (f_benchPoison : F.benchPoison = true) (f_regs : F.regs = true) (f_cores : F.cores = true) (f_mmu : F.mmu = true) (f_larder : F.larder =
    true) (f_arbs : F.arbs = true) (f_planted : F.planted = true) :
    Touch F st0 (fillUnit c space d b base store s iu).1 := by
  unfold fillUnit
  repeat' (first | with_reducible (first | assumption  | apply touch_State_count | apply touch_andThen | apply touch_benchWrite | apply touch_fetchUnit) | refine touch_fst (by with_reducible assumption) ?_ | dsimp only | split | intro _)

theorem touch_storeBytes (s : State) (c space : Nat) (d : Desc) (off : Nat) (bs : List Byte) (hs : Touch F st0 s) (f_mem : F.mem = true) (f_poison : F.poison = true)
    (f_benchPoison : F.benchPoison = true) (f_regs : F.regs = true) (f_cores : F.cores = true) (f_mmu : F.mmu = true) (f_larder : F.larder = true) (f_arbs : F.arbs =
    true) (f_planted : F.planted = true) :
    Touch F st0 (storeBytes s c space d off bs).1 := by
  unfold storeBytes
  repeat' (first | with_reducible (first | assumption  | apply touch_writeV | apply touch_benchWrite) | refine touch_fst (by with_reducible assumption) ?_ | dsimp only | split | intro _)

theorem touch_copyCrumb (c space : Nat) (src dst : Desc) (sr dr seg : Nat) (s : State) (hs : Touch F st0 s) (f_mem : F.mem = true) (f_poison : F.poison = true)
    (f_benchPoison : F.benchPoison = true) (f_regs : F.regs = true) (f_cores : F.cores = true) (f_mmu : F.mmu = true) (f_larder : F.larder = true) (f_arbs : F.arbs =
    true) (f_planted : F.planted = true) :
    Touch F st0 (copyCrumb c space src dst sr dr seg s).1 := by
  unfold copyCrumb
  repeat' (first | with_reducible (first | assumption  | apply touch_andThen | apply touch_fetchBytes | apply touch_fetchCrumb | apply touch_storeBytes) | refine touch_fst (by with_reducible assumption) ?_ | dsimp only | split | intro _)

theorem touch_copyRow (c space : Nat) (src dst : Desc) (x : Xd) (s : State) (p : Nat × Nat) (hs : Touch F st0 s) (f_mem : F.mem = true) (f_poison : F.poison = true)
    (f_benchPoison : F.benchPoison = true) (f_regs : F.regs = true) (f_cores : F.cores = true) (f_mmu : F.mmu = true) (f_larder : F.larder = true) (f_arbs : F.arbs =
    true) (f_planted : F.planted = true) :
    Touch F st0 (copyRow c space src dst x s p).1 := by
  unfold copyRow
  repeat' (first | with_reducible (first | assumption  | apply touch_andThen | apply touch_forEach | apply touch_fetchBytes | apply touch_storeBytes | apply touch_copyCrumb) | refine touch_fst (by with_reducible assumption) ?_ | dsimp only | split | intro _)

theorem touch_readIdx (s : State) (c space : Nat) (d : Desc) (hs : Touch F st0 s) (f_mem : F.mem = true) (f_poison : F.poison = true) (f_benchPoison : F.benchPoison
    = true) (f_regs : F.regs = true) (f_cores : F.cores = true) (f_mmu : F.mmu = true) (f_larder : F.larder = true) (f_arbs : F.arbs = true) (f_planted : F.planted =
    true) :
    ∀ (y0 : Nat) (y1 : Nat), Touch F st0 (readIdx s c space d y0 y1).1 := by
  intro y0 y1
  induction y1 generalizing s y0 with
  | zero =>
    unfold readIdx
    repeat' (first | with_reducible (first | assumption  | apply touch_andThen | apply touch_fetchBytes) | refine touch_fst (by with_reducible assumption) ?_ | dsimp only | split | intro _)
  | succ k ih =>
    unfold readIdx
    repeat' (first | with_reducible (first | assumption | apply ih | apply touch_andThen | apply touch_fetchBytes) | refine touch_fst (by with_reducible assumption) ?_ | dsimp only | split | intro _)

theorem touch_rowOfEntry (s : State) (c space : Nat) (i : Inst) (e : Nat) (hs : Touch F st0 s) (f_mem : F.mem = true) (f_poison : F.poison = true) (f_benchPoison :
    F.benchPoison = true) (f_regs : F.regs = true) (f_cores : F.cores = true) (f_mmu : F.mmu = true) (f_larder : F.larder = true) (f_arbs : F.arbs = true) (f_planted :
    F.planted = true) :
    Touch F st0 (rowOfEntry s c space i e).1 := by
  unfold rowOfEntry
  repeat' (first | with_reducible (first | assumption  | apply touch_State_count | apply touch_andThen | apply touch_readIdx) | refine touch_fst (by with_reducible assumption) ?_ | dsimp only | split | intro _)

theorem touch_poolRow (s : State) (c space : Nat) (d : Desc) (r : Nat) (hs : Touch F st0 s) (f_mem : F.mem = true) (f_poison : F.poison = true) (f_benchPoison :
    F.benchPoison = true) (f_regs : F.regs = true) (f_cores : F.cores = true) (f_mmu : F.mmu = true) (f_larder : F.larder = true) (f_arbs : F.arbs = true) (f_planted :
    F.planted = true) :
    Touch F st0 (poolRow s c space d r).1 := by
  unfold poolRow
  repeat' (first | with_reducible (first | assumption  | apply touch_andThen | apply touch_rowEls) | refine touch_fst (by with_reducible assumption) ?_ | dsimp only | split | intro _)

theorem touch_poolRows (s : State) (c space : Nat) (i : Inst) (e : Nat) (hs : Touch F st0 s) (f_mem : F.mem = true) (f_poison : F.poison = true) (f_benchPoison :
    F.benchPoison = true) (f_regs : F.regs = true) (f_cores : F.cores = true) (f_mmu : F.mmu = true) (f_larder : F.larder = true) (f_arbs : F.arbs = true) (f_planted :
    F.planted = true) :
    ∀ (y0 : Nat) (y1 : List F32) (y2 : Flags), Touch F st0 (poolRows s c space i e y0 y1 y2).1 := by
  intro y0
  induction y0 generalizing s e with
  | zero =>
    intros; unfold poolRows
    repeat' (first | with_reducible (first | assumption  | apply touch_andThen | apply touch_rowOfEntry | apply touch_poolRow) | refine touch_fst (by with_reducible assumption) ?_ | dsimp only | split | intro _)
  | succ k ih =>
    intros; unfold poolRows
    repeat' (first | with_reducible (first | assumption | apply ih | apply touch_andThen | apply touch_rowOfEntry | apply touch_poolRow) | refine touch_fst (by with_reducible assumption) ?_ | dsimp only | split | intro _)

theorem touch_poolOut (c space : Nat) (i : Inst) (seed : Reg) (s : State) (p : Nat × Nat) (hs : Touch F st0 s) (f_mem : F.mem = true) (f_poison : F.poison = true)
    (f_benchPoison : F.benchPoison = true) (f_regs : F.regs = true) (f_cores : F.cores = true) (f_mmu : F.mmu = true) (f_larder : F.larder = true) (f_arbs : F.arbs =
    true) (f_planted : F.planted = true) :
    Touch F st0 (poolOut c space i seed s p).1 := by
  unfold poolOut
  repeat' (first | with_reducible (first | assumption  | apply touch_andThen | apply touch_writeRow | apply touch_applyWrites | apply touch_poolRows) | refine touch_fst (by with_reducible assumption) ?_ | dsimp only | split | intro _)

theorem touch_moveXd (s : State) (t : Nat) (i : Inst) (x : Xd) (hs : Touch F st0 s) (f_mem : F.mem = true) (f_poison : F.poison = true) (f_benchPoison :
    F.benchPoison = true) (f_regs : F.regs = true) (f_cores : F.cores = true) (f_mmu : F.mmu = true) (f_larder : F.larder = true) (f_arbs : F.arbs = true) (f_planted :
    F.planted = true) :
    Touch F st0 (moveXd s t i x).1 := by
  unfold moveXd
  repeat' (first | with_reducible (first | assumption  | apply touch_andThen | apply touch_forEach | apply touch_copyRow | apply touch_rowOfEntry | apply touch_poolOut | apply touch_foldl | apply touch_foldl_fst) | refine touch_fst (by with_reducible assumption) ?_ | dsimp only | split | intro _)

theorem touch_elemAt (s : State) (c space : Nat) (d : Desc) (e : Nat) (hs : Touch F st0 s) (f_mem : F.mem = true) (f_poison : F.poison = true) (f_benchPoison :
    F.benchPoison = true) (f_regs : F.regs = true) (f_cores : F.cores = true) (f_mmu : F.mmu = true) (f_larder : F.larder = true) (f_arbs : F.arbs = true) (f_planted :
    F.planted = true) :
    Touch F st0 (elemAt s c space d e).1 := by
  unfold elemAt
  repeat' (first | with_reducible (first | assumption  | apply touch_andThen | apply touch_rowEls) | refine touch_fst (by with_reducible assumption) ?_ | dsimp only | split | intro _)

theorem touch_elemRun (s : State) (c space : Nat) (d : Desc) (hs : Touch F st0 s) (f_mem : F.mem = true) (f_poison : F.poison = true) (f_benchPoison : F.benchPoison
    = true) (f_regs : F.regs = true) (f_cores : F.cores = true) (f_mmu : F.mmu = true) (f_larder : F.larder = true) (f_arbs : F.arbs = true) (f_planted : F.planted =
    true) :
    ∀ (y0 : Nat) (y1 : Nat), Touch F st0 (elemRun s c space d y0 y1).1 := by
  intro y0 y1
  induction y1 generalizing s y0 with
  | zero =>
    unfold elemRun
    repeat' (first | with_reducible (first | assumption  | apply touch_andThen | apply touch_elemAt) | refine touch_fst (by with_reducible assumption) ?_ | dsimp only | split | intro _)
  | succ k ih =>
    unfold elemRun
    repeat' (first | with_reducible (first | assumption | apply ih | apply touch_andThen | apply touch_elemAt) | refine touch_fst (by with_reducible assumption) ?_ | dsimp only | split | intro _)

theorem touch_fabElems (s : State) (c space : Nat) (src dst : Desc) (src0 e0 n : Nat) (hs : Touch F st0 s) (f_mem : F.mem = true) (f_poison : F.poison = true)
    (f_benchPoison : F.benchPoison = true) (f_regs : F.regs = true) (f_cores : F.cores = true) (f_mmu : F.mmu = true) (f_larder : F.larder = true) (f_arbs : F.arbs =
    true) (f_planted : F.planted = true) :
    Touch F st0 (fabElems s c space src dst src0 e0 n).1 := by
  unfold fabElems
  repeat' (first | with_reducible (first | assumption  | apply touch_andThen | apply touch_elemRun) | refine touch_fst (by with_reducible assumption) ?_ | dsimp only | split | intro _)

theorem touch_fabStored (s : State) (c space : Nat) (src dst : Desc) (u v n part : Nat) (hs : Touch F st0 s) (f_mem : F.mem = true) (f_poison : F.poison = true)
    (f_benchPoison : F.benchPoison = true) (f_regs : F.regs = true) (f_cores : F.cores = true) (f_mmu : F.mmu = true) (f_larder : F.larder = true) (f_arbs : F.arbs =
    true) (f_planted : F.planted = true) :
    Touch F st0 (fabStored s c space src dst u v n part).1 := by
  unfold fabStored
  repeat' (first | with_reducible (first | assumption  | apply touch_andThen | apply touch_fetchBytes | apply touch_fetchCrumb) | refine touch_fst (by with_reducible assumption) ?_ | dsimp only | split | intro _)

theorem touch_remoteRows (s : State) (c space : Nat) (src dst : Desc) (x : Xd) (hs : Touch F st0 s) (f_mem : F.mem = true) (f_poison : F.poison = true)
    (f_benchPoison : F.benchPoison = true) (f_regs : F.regs = true) (f_cores : F.cores = true) (f_mmu : F.mmu = true) (f_larder : F.larder = true) (f_arbs : F.arbs =
    true) (f_planted : F.planted = true) :
    Touch F st0 (remoteRows s c space src dst x).1 := by
  unfold remoteRows
  repeat' (first | with_reducible (first | assumption  | apply touch_andThen | apply touch_fetchBytes | apply touch_foldl | apply touch_foldl_fst) | refine touch_fst (by with_reducible assumption) ?_ | dsimp only | split | intro _)

theorem touch_remoteCrumb (s : State) (c space : Nat) (src dst : Desc) (x : Xd) (part : Nat) (hs : Touch F st0 s) (f_mem : F.mem = true) (f_poison : F.poison = true)
    (f_benchPoison : F.benchPoison = true) (f_regs : F.regs = true) (f_cores : F.cores = true) (f_mmu : F.mmu = true) (f_larder : F.larder = true) (f_arbs : F.arbs =
    true) (f_planted : F.planted = true) :
    Touch F st0 (remoteCrumb s c space src dst x part).1 := by
  unfold remoteCrumb
  repeat' (first | with_reducible (first | assumption  | apply touch_andThen | apply touch_fetchBytes | apply touch_fetchCrumb | apply touch_foldl | apply touch_foldl_fst) | refine touch_fst (by with_reducible assumption) ?_ | dsimp only | split | intro _)

theorem touch_redData (s : State) (c space : Nat) (i : Inst) (e0 n : Nat) (hs : Touch F st0 s) (f_mem : F.mem = true) (f_poison : F.poison = true) (f_benchPoison :
    F.benchPoison = true) (f_regs : F.regs = true) (f_cores : F.cores = true) (f_mmu : F.mmu = true) (f_larder : F.larder = true) (f_arbs : F.arbs = true) (f_planted :
    F.planted = true) :
    Touch F st0 (redData s c space i e0 n).1 := by
  unfold redData
  repeat' (first | with_reducible (first | assumption  | apply touch_andThen | apply touch_elemRun) | refine touch_fst (by with_reducible assumption) ?_ | dsimp only | split | intro _)

/-! ### Product.lean -/

theorem touch_rowOfA (s : State) (t : Nat) (i : Inst) (g : Grid) (sel : Option (List Nat)) (p : PStep) (row : Nat) (hs : Touch F st0 s) (f_mem : F.mem = true)
    (f_poison : F.poison = true) (f_benchPoison : F.benchPoison = true) (f_regs : F.regs = true) (f_cores : F.cores = true) (f_mmu : F.mmu = true) (f_larder : F.larder =
    true) (f_arbs : F.arbs = true) (f_planted : F.planted = true) :
    Touch F st0 (rowOfA s t i g sel p row).1 := by
  unfold rowOfA
  repeat' (first | with_reducible (first | assumption  | apply touch_quiet | apply touch_andThen | apply touch_rowEls | apply touch_foldl | apply touch_foldl_fst) | refine touch_fst (by with_reducible assumption) ?_ | dsimp only | split | intro _)

theorem touch_rowsOfB (s : State) (t : Nat) (i : Inst) (b : Blk) (place : Option (Option Nat)) (hs : Touch F st0 s) (f_mem : F.mem = true) (f_poison : F.poison =
    true) (f_benchPoison : F.benchPoison = true) (f_regs : F.regs = true) (f_cores : F.cores = true) (f_mmu : F.mmu = true) (f_larder : F.larder = true) (f_arbs : F.arbs
    = true) (f_planted : F.planted = true) :
    ∀ (y0 : List (Nat × Nat)), Touch F st0 (rowsOfB s t i b place y0).1 := by
  intro y0
  induction y0 generalizing s with
  | nil =>
    unfold rowsOfB
    repeat' (first | with_reducible (first | assumption  | apply touch_andThen | apply touch_rowEls) | refine touch_fst (by with_reducible assumption) ?_ | dsimp only | split | intro _)
  | cons x l ih =>
    unfold rowsOfB
    repeat' (first | with_reducible (first | assumption | apply ih | apply touch_andThen | apply touch_rowEls) | refine touch_fst (by with_reducible assumption) ?_ | dsimp only | split | intro _)

theorem touch_blockOfB (s : State) (t : Nat) (i : Inst) (b : Blk) (p : PStep) (hs : Touch F st0 s) (f_mem : F.mem = true) (f_poison : F.poison = true) (f_benchPoison
    : F.benchPoison = true) (f_regs : F.regs = true) (f_cores : F.cores = true) (f_mmu : F.mmu = true) (f_larder : F.larder = true) (f_arbs : F.arbs = true) (f_planted :
    F.planted = true) :
    Touch F st0 (blockOfB s t i b p).1 := by
  unfold blockOfB
  repeat' (first | with_reducible (first | assumption  | apply touch_rowsOfB) | refine touch_fst (by with_reducible assumption) ?_ | dsimp only | split | intro _)

/-! ### Tiler.lean -/

theorem touch_putStep (s : State) (c : Nat) (e : Eng) (x : Step) (hs : Touch F st0 s) (f_cores : F.cores = true) :
    Touch F st0 (putStep s c e x) := by
  unfold putStep
  repeat' (first | with_reducible (first | assumption  | apply touch_State_modArray | apply touch_State_modSieve | apply touch_State_modLevain | apply touch_State_modVec | apply touch_State_modPeel) | refine touch_fst (by with_reducible assumption) ?_ | dsimp only | split | intro _)

theorem touch_needDoms (s : State) (ds : List Nat) (hs : Touch F st0 s) (f_power : F.power = true) :
    Touch F st0 (needDoms s ds).1 := by
  unfold needDoms
  repeat' (first | with_reducible (first | assumption  | apply touch_stepNeeds | apply touch_foldl | apply touch_foldl_fst) | refine touch_fst (by with_reducible assumption) ?_ | dsimp only | split | intro _)

theorem touch_stepEnds (s : State) (t k : Nat) (hs : Touch F st0 s) (f_trays : F.trays = true) :
    Touch F st0 (stepEnds s t k) := by
  unfold stepEnds
  repeat' (first | with_reducible (first | assumption  | apply touch_State_modInst) | refine touch_fst (by with_reducible assumption) ?_ | dsimp only | split | intro _)

theorem touch_openGroup (s : State) (t k grp : Nat) (hs : Touch F st0 s) (f_trays : F.trays = true) :
    Touch F st0 (openGroup s t k grp) := by
  unfold openGroup
  repeat' (first | with_reducible (first | assumption  | apply touch_State_modInst) | refine touch_fst (by with_reducible assumption) ?_ | dsimp only | split | intro _)

theorem touch_serveGroup (c : Nat) (s : State) (hs : Touch F st0 s) (f_regs : F.regs = true) (f_trays : F.trays = true) (f_cores : F.cores = true) (f_planted :
    F.planted = true) :
    Touch F st0 (serveGroup c s) := by
  unfold serveGroup
  repeat' (first | with_reducible (first | assumption  | apply touch_State_modPeel | apply touch_wrote | apply touch_openGroup) | refine touch_fst (by with_reducible assumption) ?_ | dsimp only | split | intro _)

theorem touch_execTileGroupAlloc (c : Nat) (s : State) (hs : Touch F st0 s) (f_regs : F.regs = true) (f_trays : F.trays = true) (f_cores : F.cores = true) (f_planted
    : F.planted = true) :
    Ends F st0 (execTileGroupAlloc c s) := by
  unfold execTileGroupAlloc
  repeat' (first | with_reducible (first | assumption  | apply touch_onCore | apply touch_serveGroup | apply ends_next | apply ends_fault) | refine touch_fst (by with_reducible assumption) ?_ | dsimp only | split | intro _)

theorem touch_askGroup (s : State) (t : Nat) (i : Inst) (grp : Nat) (hs : Touch F st0 s) (f_regs : F.regs = true) (f_trays : F.trays = true) (f_cores : F.cores =
    true) (f_planted : F.planted = true) :
    Touch F st0 (askGroup s t i grp).1 := by
  unfold askGroup
  repeat' (first | with_reducible (first | assumption  | apply touch_State_modPeel | apply touch_wrote | apply touch_openGroup) | refine touch_fst (by with_reducible assumption) ?_ | dsimp only | split | intro _)

theorem touch_sumHeaders (s : State) (c space : Nat) (d : Desc) (hs : Touch F st0 s) (f_mem : F.mem = true) (f_poison : F.poison = true) (f_benchPoison :
    F.benchPoison = true) (f_regs : F.regs = true) (f_cores : F.cores = true) (f_mmu : F.mmu = true) (f_larder : F.larder = true) (f_arbs : F.arbs = true) (f_planted :
    F.planted = true) :
    ∀ (y0 : List (Nat × Nat)), Touch F st0 (sumHeaders s c space d y0).1 := by
  intro y0
  induction y0 generalizing s with
  | nil =>
    unfold sumHeaders
    repeat' (first | with_reducible (first | assumption  | apply touch_andThen | apply touch_fetchBytes) | refine touch_fst (by with_reducible assumption) ?_ | dsimp only | split | intro _)
  | cons x l ih =>
    unfold sumHeaders
    repeat' (first | with_reducible (first | assumption | apply ih | apply touch_andThen | apply touch_fetchBytes) | refine touch_fst (by with_reducible assumption) ?_ | dsimp only | split | intro _)

theorem touch_quietReads {s s1 : State} (hs : Touch F st0 s) (h1 : Touch F st0 s1) (f_regs : F.regs = true) (f_larder : F.larder = true) :
    Touch F st0 (reportCount.quiet' s s1) := by
  unfold reportCount.quiet'
  have h := touch_State_setLarder s.larder h1 f_larder
  exact { h with
    regs := fun e => by rw [f_regs] at e; cases e
    canonical := fun e => ⟨(h.canonical e).1, (h.canonical e).2.1, (h.canonical e).2.2.1, (hs.canonical e).2.2.2⟩ }

theorem touch_reportCount (t k role bi bj : Nat) (s : State) (hs : Touch F st0 s) (f_mem : F.mem = true) (f_poison : F.poison = true) (f_benchPoison : F.benchPoison
    = true) (f_regs : F.regs = true) (f_trays : F.trays = true) (f_queues : F.queues = true) (f_cores : F.cores = true) (f_mmu : F.mmu = true) (f_larder : F.larder =
    true) (f_arbs : F.arbs = true) (f_errLog : F.errLog = true) (f_planted : F.planted = true) (f_staon : F.staon = true) :
    Touch F st0 (reportCount t k role bi bj s) := by
  unfold reportCount
  repeat' (first | with_reducible (first | assumption  | apply touch_State_setRegs | apply touch_State_setLarder | apply touch_State_modInst | apply touch_memFault | apply touch_sumHeaders | apply touch_quietReads) | refine touch_fst (by with_reducible assumption) ?_ | dsimp only | split | intro _)

theorem touch_execHeaderCountReport (t k role i j : Nat) (s : State) (hs : Touch F st0 s) (f_mem : F.mem = true) (f_poison : F.poison = true) (f_benchPoison :
    F.benchPoison = true) (f_regs : F.regs = true) (f_trays : F.trays = true) (f_queues : F.queues = true) (f_cores : F.cores = true) (f_mmu : F.mmu = true) (f_larder :
    F.larder = true) (f_arbs : F.arbs = true) (f_errLog : F.errLog = true) (f_planted : F.planted = true) (f_staon : F.staon = true) :
    Ends F st0 (execHeaderCountReport t k role i j s) := by
  unfold execHeaderCountReport
  repeat' (first | with_reducible (first | assumption  | apply touch_onTray | apply touch_reportCount | apply ends_next | apply ends_fault) | refine touch_fst (by with_reducible assumption) ?_ | dsimp only | split | intro _)

theorem touch_storedFinals (s : State) (t : Nat) (i : Inst) (g : Grid) (n total ivl : Nat) (hs : Touch F st0 s) :
    ∀ (y0 : List Nat), Touch F st0 (storedFinals s t i g n total ivl y0).1 := by
  intro y0
  induction y0 generalizing s with
  | nil =>
    unfold storedFinals
    repeat' (first | with_reducible (first | assumption  | apply touch_andThen) | refine touch_fst (by with_reducible assumption) ?_ | dsimp only | split | intro _)
  | cons x l ih =>
    unfold storedFinals
    repeat' (first | with_reducible (first | assumption | apply ih | apply touch_andThen) | refine touch_fst (by with_reducible assumption) ?_ | dsimp only | split | intro _)

theorem touch_settleTotal (s : State) (t k n : Nat) (hs : Touch F st0 s) (f_ord : F.ord = true) (f_mem : F.mem = true) (f_poison : F.poison = true) (f_benchPoison :
    F.benchPoison = true) (f_regs : F.regs = true) (f_trays : F.trays = true) (f_queues : F.queues = true) (f_cores : F.cores = true) (f_mmu : F.mmu = true) (f_larder :
    F.larder = true) (f_arbs : F.arbs = true) (f_errLog : F.errLog = true) (f_planted : F.planted = true) (f_staon : F.staon = true) :
    Touch F st0 (settleTotal s t k n) := by
  unfold settleTotal
  repeat' (first | with_reducible (first | assumption  | apply touch_State_modTile | apply touch_memFault | apply touch_finishBlocks | apply touch_storedFinals) | refine touch_fst (by with_reducible assumption) ?_ | dsimp only | split | intro _)

theorem touch_popStep (s : State) (t k : Nat) (hs : Touch F st0 s) (f_trays : F.trays = true) :
    Touch F st0 (popStep s t k) := by
  unfold popStep
  repeat' (first | with_reducible (first | assumption  | apply touch_State_modInst) | refine touch_fst (by with_reducible assumption) ?_ | dsimp only | split | intro _)

theorem touch_queueStep (s : State) (t : Nat) (i : Inst) (e : Eng) (kind : StepKind) (p : PStep) (hs : Touch F st0 s) (f_ord : F.ord = true) (f_regs : F.regs = true)
    (f_trays : F.trays = true) (f_cores : F.cores = true) (f_power : F.power = true) (f_planted : F.planted = true) :
    Touch F st0 (queueStep s t i e kind p) := by
  unfold queueStep
  repeat' (first | with_reducible (first | assumption  | apply touch_State_tick | apply touch_State_modInst | apply touch_wrote | apply touch_putStep | apply touch_needDoms | apply touch_popStep) | refine touch_fst (by with_reducible assumption) ?_ | dsimp only | split | intro _)

theorem touch_observeRows (s : State) (t : Nat) (i : Inst) (p : PStep) (g : Grid) (sel : Option (List Nat)) (hs : Touch F st0 s) (f_mem : F.mem = true) (f_poison :
    F.poison = true) (f_benchPoison : F.benchPoison = true) (f_regs : F.regs = true) (f_cores : F.cores = true) (f_mmu : F.mmu = true) (f_larder : F.larder = true)
    (f_arbs : F.arbs = true) (f_planted : F.planted = true) :
    ∀ (y0 : List Nat), Touch F st0 (observeRows s t i p g sel y0).1 := by
  intro y0
  induction y0 generalizing s with
  | nil =>
    unfold observeRows
    repeat' (first | with_reducible (first | assumption  | apply touch_andThen | apply touch_rowOfA) | refine touch_fst (by with_reducible assumption) ?_ | dsimp only | split | intro _)
  | cons x l ih =>
    unfold observeRows
    repeat' (first | with_reducible (first | assumption | apply ih | apply touch_andThen | apply touch_rowOfA) | refine touch_fst (by with_reducible assumption) ?_ | dsimp only | split | intro _)

theorem touch_skipPass (s : State) (t : Nat) (i : Inst) (p : PStep) (g : Grid) (sel : Option (List Nat)) (hs : Touch F st0 s) (f_ord : F.ord = true) (f_mem : F.mem =
    true) (f_poison : F.poison = true) (f_benchPoison : F.benchPoison = true) (f_regs : F.regs = true) (f_trays : F.trays = true) (f_queues : F.queues = true) (f_cores :
    F.cores = true) (f_mmu : F.mmu = true) (f_larder : F.larder = true) (f_arbs : F.arbs = true) (f_errLog : F.errLog = true) (f_planted : F.planted = true) (f_staon :
    F.staon = true) :
    Touch F st0 (skipPass s t i p g sel) := by
  unfold skipPass
  repeat' (first | with_reducible (first | assumption  | apply touch_State_modInst | apply touch_memFault | apply touch_releaseBlock | apply touch_settleTotal | apply touch_observeRows) | refine touch_fst (by with_reducible assumption) ?_ | dsimp only | split | intro _)

theorem touch_tileProduct (s : State) (t : Nat) (i : Inst) (p : PStep) (hs : Touch F st0 s) (f_ord : F.ord = true) (f_mem : F.mem = true) (f_poison : F.poison =
    true) (f_benchPoison : F.benchPoison = true) (f_regs : F.regs = true) (f_trays : F.trays = true) (f_queues : F.queues = true) (f_cores : F.cores = true) (f_mmu :
    F.mmu = true) (f_larder : F.larder = true) (f_arbs : F.arbs = true) (f_power : F.power = true) (f_errLog : F.errLog = true) (f_planted : F.planted = true) (f_staon :
    F.staon = true) :
    Touch F st0 (tileProduct s t i p) := by
  unfold tileProduct
  repeat' (first | with_reducible (first | assumption  | apply touch_State_modTile | apply touch_askGroup | apply touch_settleTotal | apply touch_popStep | apply touch_queueStep | apply touch_skipPass) | refine touch_fst (by with_reducible assumption) ?_ | dsimp only | split | intro _)

theorem touch_tileStep (t : Nat) (s : State) (hs : Touch F st0 s) (f_ord : F.ord = true) (f_mem : F.mem = true) (f_poison : F.poison = true) (f_benchPoison :
    F.benchPoison = true) (f_regs : F.regs = true) (f_trays : F.trays = true) (f_queues : F.queues = true) (f_cores : F.cores = true) (f_mmu : F.mmu = true) (f_larder :
    F.larder = true) (f_arbs : F.arbs = true) (f_power : F.power = true) (f_errLog : F.errLog = true) (f_planted : F.planted = true) (f_staon : F.staon = true) :
    Touch F st0 (tileStep t s) := by
  unfold tileStep
  repeat' (first | with_reducible (first | assumption  | apply touch_State_modInst | apply touch_startStreams | apply touch_queueStep | apply touch_tileProduct) | refine touch_fst (by with_reducible assumption) ?_ | dsimp only | split | intro _)

theorem touch_execTileStepQueue (t : Nat) (s : State) (hs : Touch F st0 s) (f_ord : F.ord = true) (f_mem : F.mem = true) (f_poison : F.poison = true) (f_benchPoison
    : F.benchPoison = true) (f_regs : F.regs = true) (f_trays : F.trays = true) (f_queues : F.queues = true) (f_cores : F.cores = true) (f_mmu : F.mmu = true) (f_larder
    : F.larder = true) (f_arbs : F.arbs = true) (f_power : F.power = true) (f_errLog : F.errLog = true) (f_planted : F.planted = true) (f_staon : F.staon = true) :
    Ends F st0 (execTileStepQueue t s) := by
  unfold execTileStepQueue
  repeat' (first | with_reducible (first | assumption  | apply touch_onTray | apply touch_tileStep | apply ends_next | apply ends_fault) | refine touch_fst (by with_reducible assumption) ?_ | dsimp only | split | intro _)

theorem touch_emptyBlocks (f_ord : F.ord = true) (f_mem : F.mem = true) (f_poison : F.poison = true) (f_benchPoison : F.benchPoison = true) (f_regs : F.regs = true)
    (f_trays : F.trays = true) (f_queues : F.queues = true) (f_cores : F.cores = true) (f_mmu : F.mmu = true) (f_larder : F.larder = true) (f_arbs : F.arbs = true)
    (f_errLog : F.errLog = true) (f_planted : F.planted = true) (f_staon : F.staon = true) :
    ∀ (y0 : Nat) (y1 : State) (y2 : Nat) (y3 : Nat) (y4 : Nat), Touch F st0 y1 → Touch F st0 (emptyBlocks y0 y1 y2 y3 y4) := by
  intro y0
  induction y0 with
  | zero =>
    intros; unfold emptyBlocks
    repeat' (first | with_reducible (first | assumption  | apply touch_memFault | apply touch_sendBlock | apply touch_probeBlock) | refine touch_fst (by with_reducible assumption) ?_ | dsimp only | split | intro _)
  | succ k ih =>
    intros; unfold emptyBlocks
    repeat' (first | with_reducible (first | assumption | apply ih | apply touch_memFault | apply touch_sendBlock | apply touch_probeBlock) | refine touch_fst (by with_reducible assumption) ?_ | dsimp only | split | intro _)

theorem touch_zeroPass (t : Nat) (s : State) (hs : Touch F st0 s) (f_ord : F.ord = true) (f_mem : F.mem = true) (f_poison : F.poison = true) (f_benchPoison :
    F.benchPoison = true) (f_regs : F.regs = true) (f_trays : F.trays = true) (f_queues : F.queues = true) (f_cores : F.cores = true) (f_mmu : F.mmu = true) (f_larder :
    F.larder = true) (f_arbs : F.arbs = true) (f_errLog : F.errLog = true) (f_planted : F.planted = true) (f_staon : F.staon = true) :
    Touch F st0 (zeroPass t s) := by
  unfold zeroPass
  repeat' (first | with_reducible (first | assumption  | apply touch_State_modTile | apply touch_finishBlocks | apply touch_emptyBlocks) | refine touch_fst (by with_reducible assumption) ?_ | dsimp only | split | intro _)

theorem touch_execZeroPassGenerate (t : Nat) (s : State) (hs : Touch F st0 s) (f_ord : F.ord = true) (f_mem : F.mem = true) (f_poison : F.poison = true)
    (f_benchPoison : F.benchPoison = true) (f_regs : F.regs = true) (f_trays : F.trays = true) (f_queues : F.queues = true) (f_cores : F.cores = true) (f_mmu : F.mmu =
    true) (f_larder : F.larder = true) (f_arbs : F.arbs = true) (f_errLog : F.errLog = true) (f_planted : F.planted = true) (f_staon : F.staon = true) :
    Ends F st0 (execZeroPassGenerate t s) := by
  unfold execZeroPassGenerate
  repeat' (first | with_reducible (first | assumption  | apply touch_onTray | apply touch_zeroPass | apply ends_next | apply ends_fault) | refine touch_fst (by with_reducible assumption) ?_ | dsimp only | split | intro _)

/-! ### RowOut.lean -/

theorem touch_outBlock (s : State) (t k n b : Nat) (r : BlockOut) (hs : Touch F st0 s) (f_ord : F.ord = true) (f_mem : F.mem = true) (f_poison : F.poison = true)
    (f_benchPoison : F.benchPoison = true) (f_regs : F.regs = true) (f_trays : F.trays = true) (f_queues : F.queues = true) (f_cores : F.cores = true) (f_mmu : F.mmu =
    true) (f_larder : F.larder = true) (f_arbs : F.arbs = true) (f_errLog : F.errLog = true) (f_planted : F.planted = true) (f_staon : F.staon = true) :
    Touch F st0 (outBlock s t k n b r) := by
  unfold outBlock
  repeat' (first | with_reducible (first | assumption  | apply touch_State_count | apply touch_faultInst | apply touch_memFault | apply touch_sendBlock | apply touch_probeBlock) | refine touch_fst (by with_reducible assumption) ?_ | dsimp only | split | intro _)

theorem touch_outRow (s : State) (t k b : Nat) (parts : List (Nat × BlockOut)) (hs : Touch F st0 s) (f_ord : F.ord = true) (f_mem : F.mem = true) (f_poison :
    F.poison = true) (f_benchPoison : F.benchPoison = true) (f_regs : F.regs = true) (f_trays : F.trays = true) (f_queues : F.queues = true) (f_cores : F.cores = true)
    (f_mmu : F.mmu = true) (f_larder : F.larder = true) (f_arbs : F.arbs = true) (f_errLog : F.errLog = true) (f_planted : F.planted = true) (f_staon : F.staon = true) :
    Touch F st0 (outRow s t k b parts) := by
  unfold outRow
  repeat' (first | with_reducible (first | assumption  | apply touch_outBlock | apply touch_foldl | apply touch_foldl_fst) | refine touch_fst (by with_reducible assumption) ?_ | dsimp only | split | intro _)

end Sys2Proof.Machine
end

