-- ==== Sys2Proof/Laws/Touch4.lean ====
section
/-! SUPPORT. What each operation of RowReduce.lean, Update.lean, Complete.lean, Xfer.lean, Hearth.lean and ArbCmd.lean may write: one lemma for each, by its own name. -/

namespace Sys2Proof.Machine

set_option linter.all false

variable {F : Parts} {st0 : State}

/-! ### RowReduce.lean -/

theorem touch_rowMask (s : State) (x : Step) (i : Inst) (row : Nat) (hs : Touch F st0 s) (f_mem : F.mem = true) (f_poison : F.poison = true) (f_benchPoison :
    F.benchPoison = true) (f_regs : F.regs = true) (f_cores : F.cores = true) (f_mmu : F.mmu = true) (f_larder : F.larder = true) (f_arbs : F.arbs = true) (f_planted :
    F.planted = true) :
    Touch F st0 (rowMask s x i row).1 := by
  unfold rowMask
  repeat' (first | with_reducible (first | assumption  | apply touch_andThen | apply touch_rowEls) | refine touch_fst (by with_reducible assumption) ?_ | dsimp only | split | intro _)

theorem touch_reduceOne (s : State) (x : Step) (i : Inst) (row : Nat) (els : List El) (mask : List Bool) (hs : Touch F st0 s) (f_mem : F.mem = true) (f_poison :
    F.poison = true) (f_benchPoison : F.benchPoison = true) (f_regs : F.regs = true) (f_cores : F.cores = true) (f_mmu : F.mmu = true) (f_larder : F.larder = true)
    (f_arbs : F.arbs = true) (f_planted : F.planted = true) :
    Touch F st0 (reduceOne s x i row els mask).1 := by
  unfold reduceOne
  repeat' (first | with_reducible (first | assumption  | apply touch_andThen | apply touch_rowEls | apply touch_writeRow) | refine touch_fst (by with_reducible assumption) ?_ | dsimp only | split | intro _)

theorem touch_maskedRows (s : State) (x : Step) (i : Inst) (hs : Touch F st0 s) (f_mem : F.mem = true) (f_poison : F.poison = true) (f_benchPoison : F.benchPoison =
    true) (f_regs : F.regs = true) (f_cores : F.cores = true) (f_mmu : F.mmu = true) (f_larder : F.larder = true) (f_arbs : F.arbs = true) (f_planted : F.planted = true)
    :
    ∀ (y0 : List Nat), Touch F st0 (maskedRows s x i y0).1 := by
  intro y0
  induction y0 generalizing s with
  | nil =>
    unfold maskedRows
    repeat' (first | with_reducible (first | assumption  | apply touch_andThen | apply touch_rowEls | apply touch_rowMask) | refine touch_fst (by with_reducible assumption) ?_ | dsimp only | split | intro _)
  | cons x l ih =>
    unfold maskedRows
    repeat' (first | with_reducible (first | assumption | apply ih | apply touch_andThen | apply touch_rowEls | apply touch_rowMask) | refine touch_fst (by with_reducible assumption) ?_ | dsimp only | split | intro _)

theorem touch_reduceAll (s : State) (x : Step) (i : Inst) (hs : Touch F st0 s) (f_mem : F.mem = true) (f_poison : F.poison = true) (f_benchPoison : F.benchPoison =
    true) (f_regs : F.regs = true) (f_cores : F.cores = true) (f_mmu : F.mmu = true) (f_larder : F.larder = true) (f_arbs : F.arbs = true) (f_planted : F.planted = true)
    :
    ∀ (y0 : List (Nat × List El × List Bool)), Touch F st0 (reduceAll s x i y0).1 := by
  intro y0
  induction y0 generalizing s with
  | nil =>
    unfold reduceAll
    repeat' (first | with_reducible (first | assumption  | apply touch_andThen | apply touch_reduceOne) | refine touch_fst (by with_reducible assumption) ?_ | dsimp only | split | intro _)
  | cons x l ih =>
    unfold reduceAll
    repeat' (first | with_reducible (first | assumption | apply ih | apply touch_andThen | apply touch_reduceOne) | refine touch_fst (by with_reducible assumption) ?_ | dsimp only | split | intro _)

theorem touch_reduceStep (s : State) (x : Step) (i : Inst) (hs : Touch F st0 s) (f_ord : F.ord = true) (f_mem : F.mem = true) (f_poison : F.poison = true)
    (f_benchPoison : F.benchPoison = true) (f_regs : F.regs = true) (f_trays : F.trays = true) (f_queues : F.queues = true) (f_cores : F.cores = true) (f_mmu : F.mmu =
    true) (f_larder : F.larder = true) (f_arbs : F.arbs = true) (f_errLog : F.errLog = true) (f_planted : F.planted = true) (f_staon : F.staon = true) :
    Touch F st0 (reduceStep s x i) := by
  unfold reduceStep
  repeat' (first | with_reducible (first | assumption  | apply touch_memFault | apply touch_outRow | apply touch_maskedRows | apply touch_reduceAll) | refine touch_fst (by with_reducible assumption) ?_ | dsimp only | split | intro _)

/-! ### Update.lean -/

theorem touch_pieceCodes (s : State) (c space : Nat) (d : Desc) (hs : Touch F st0 s) (f_mem : F.mem = true) (f_poison : F.poison = true) (f_benchPoison :
    F.benchPoison = true) (f_regs : F.regs = true) (f_cores : F.cores = true) (f_mmu : F.mmu = true) (f_larder : F.larder = true) (f_arbs : F.arbs = true) (f_planted :
    F.planted = true) :
    ∀ (y0 : List (Nat × Nat × Nat)), Touch F st0 (pieceCodes s c space d y0).1 := by
  intro y0
  induction y0 generalizing s with
  | nil =>
    unfold pieceCodes
    repeat' (first | with_reducible (first | assumption  | apply touch_State_count | apply touch_andThen | apply touch_rowEls) | refine touch_fst (by with_reducible assumption) ?_ | dsimp only | split | intro _)
  | cons x l ih =>
    unfold pieceCodes
    repeat' (first | with_reducible (first | assumption | apply ih | apply touch_State_count | apply touch_andThen | apply touch_rowEls) | refine touch_fst (by with_reducible assumption) ?_ | dsimp only | split | intro _)

theorem touch_blockCodes (s : State) (t : Nat) (i : Inst) (e n : Nat) (hs : Touch F st0 s) (f_mem : F.mem = true) (f_poison : F.poison = true) (f_benchPoison :
    F.benchPoison = true) (f_regs : F.regs = true) (f_cores : F.cores = true) (f_mmu : F.mmu = true) (f_larder : F.larder = true) (f_arbs : F.arbs = true) (f_planted :
    F.planted = true) :
    ∀ (y0 : List Role), Touch F st0 (blockCodes s t i e n y0).1 := by
  intro y0
  induction y0 generalizing s with
  | nil =>
    unfold blockCodes
    repeat' (first | with_reducible (first | assumption  | apply touch_andThen | apply touch_pieceCodes) | refine touch_fst (by with_reducible assumption) ?_ | dsimp only | split | intro _)
  | cons x l ih =>
    unfold blockCodes
    repeat' (first | with_reducible (first | assumption | apply ih | apply touch_andThen | apply touch_pieceCodes) | refine touch_fst (by with_reducible assumption) ?_ | dsimp only | split | intro _)

theorem touch_updArrive (s : State) (t : Nat) (i : Inst) (hs : Touch F st0 s) (f_mem : F.mem = true) (f_poison : F.poison = true) (f_benchPoison : F.benchPoison =
    true) (f_regs : F.regs = true) (f_trays : F.trays = true) (f_queues : F.queues = true) (f_cores : F.cores = true) (f_mmu : F.mmu = true) (f_larder : F.larder = true)
    (f_arbs : F.arbs = true) (f_errLog : F.errLog = true) (f_planted : F.planted = true) (f_staon : F.staon = true) :
    Touch F st0 (updArrive s t i) := by
  unfold updArrive
  repeat' (first | with_reducible (first | assumption  | apply touch_State_modInst | apply touch_memFault | apply touch_wrote | apply touch_blockCodes) | refine touch_fst (by with_reducible assumption) ?_ | dsimp only | split | intro _)

theorem touch_commitMixed (s : State) (c space : Nat) (ws : List (Bool × Int × List Byte)) (hs : Touch F st0 s) (f_mem : F.mem = true) (f_poison : F.poison = true)
    (f_benchPoison : F.benchPoison = true) (f_regs : F.regs = true) (f_cores : F.cores = true) (f_mmu : F.mmu = true) (f_larder : F.larder = true) (f_arbs : F.arbs =
    true) (f_planted : F.planted = true) :
    Touch F st0 (commitMixed s c space ws).1 := by
  unfold commitMixed
  repeat' (first | with_reducible (first | assumption  | apply touch_andThen | apply touch_applyWrites | apply touch_commitWrites) | refine touch_fst (by with_reducible assumption) ?_ | dsimp only | split | intro _)

theorem touch_updEnds (s : State) (t : Nat) (i : Inst) (next : Nat) (hs : Touch F st0 s) (f_trays : F.trays = true) (f_cores : F.cores = true) :
    Touch F st0 (updEnds s t i next) := by
  unfold updEnds
  repeat' (first | with_reducible (first | assumption  | apply touch_State_modPeel | apply touch_State_modInst | apply touch_stepEnds) | refine touch_fst (by with_reducible assumption) ?_ | dsimp only | split | intro _)

theorem touch_updCommit (s : State) (t : Nat) (i : Inst) (held : List (List Nat)) (hs : Touch F st0 s) (f_mem : F.mem = true) (f_poison : F.poison = true)
    (f_benchPoison : F.benchPoison = true) (f_regs : F.regs = true) (f_trays : F.trays = true) (f_queues : F.queues = true) (f_cores : F.cores = true) (f_mmu : F.mmu =
    true) (f_larder : F.larder = true) (f_arbs : F.arbs = true) (f_errLog : F.errLog = true) (f_planted : F.planted = true) (f_staon : F.staon = true) :
    Touch F st0 (updCommit s t i held) := by
  unfold updCommit
  repeat' (first | with_reducible (first | assumption  | apply touch_State_count | apply touch_State_modInst | apply touch_faultInst | apply touch_memFault | apply touch_commitMixed | apply touch_updEnds | apply touch_foldl | apply touch_foldl_fst) | refine touch_fst (by with_reducible assumption) ?_ | dsimp only | split | intro _)

theorem touch_updateCommit (t : Nat) (s : State) (hs : Touch F st0 s) (f_mem : F.mem = true) (f_poison : F.poison = true) (f_benchPoison : F.benchPoison = true)
    (f_regs : F.regs = true) (f_trays : F.trays = true) (f_barriers : F.barriers = true) (f_queues : F.queues = true) (f_cores : F.cores = true) (f_mmu : F.mmu = true)
    (f_larder : F.larder = true) (f_arbs : F.arbs = true) (f_errLog : F.errLog = true) (f_planted : F.planted = true) (f_stop : F.stop = true) (f_staon : F.staon = true)
    (f_hearth : F.hearth = true) :
    Touch F st0 (updateCommit t s) := by
  unfold updateCommit
  repeat' (first | with_reducible (first | assumption  | apply touch_readTray | apply touch_updCommit) | refine touch_fst (by with_reducible assumption) ?_ | dsimp only | split | intro _)

theorem touch_execUpdateBlockCommit (t : Nat) (s : State) (hs : Touch F st0 s) (f_mem : F.mem = true) (f_poison : F.poison = true) (f_benchPoison : F.benchPoison =
    true) (f_regs : F.regs = true) (f_trays : F.trays = true) (f_barriers : F.barriers = true) (f_queues : F.queues = true) (f_cores : F.cores = true) (f_mmu : F.mmu =
    true) (f_larder : F.larder = true) (f_arbs : F.arbs = true) (f_errLog : F.errLog = true) (f_planted : F.planted = true) (f_stop : F.stop = true) (f_staon : F.staon =
    true) (f_hearth : F.hearth = true) :
    Ends F st0 (execUpdateBlockCommit t s) := by
  unfold execUpdateBlockCommit
  repeat' (first | with_reducible (first | assumption  | apply touch_onTray | apply touch_updateCommit | apply ends_next | apply ends_fault) | refine touch_fst (by with_reducible assumption) ?_ | dsimp only | split | intro _)

theorem touch_updDone (s : State) (t : Nat) (i : Inst) (hs : Touch F st0 s) (f_cores : F.cores = true) :
    Touch F st0 (updDone s t i) := by
  unfold updDone
  repeat' (first | with_reducible (first | assumption  | apply touch_State_setUpdWord | apply touch_foldl | apply touch_foldl_fst) | refine touch_fst (by with_reducible assumption) ?_ | dsimp only | split | intro _)

/-! ### Complete.lean -/

theorem touch_countLev (s : State) (c slot idx n : Nat) (hs : Touch F st0 s) (f_cores : F.cores = true) :
    Touch F st0 (countLev s c slot idx n) := by
  unfold countLev
  repeat' (first | with_reducible (first | assumption  | apply touch_State_modLevain) | refine touch_fst (by with_reducible assumption) ?_ | dsimp only | split | intro _)

theorem touch_predDone (s : State) (t : Nat) (i : Inst) (hs : Touch F st0 s) (f_trays : F.trays = true) (f_cores : F.cores = true) :
    Touch F st0 (predDone s t i) := by
  unfold predDone
  repeat' (first | with_reducible (first | assumption  | apply touch_State_modTray | apply touch_State_modLevain | apply touch_freeMaps | apply touch_countLev | apply touch_foldl | apply touch_foldl_fst) | refine touch_fst (by with_reducible assumption) ?_ | dsimp only | split | intro _)

theorem touch_maskedDone (s : State) (t : Nat) (i : Inst) (hs : Touch F st0 s) (f_cores : F.cores = true) :
    Touch F st0 (maskedDone s t i) := by
  unfold maskedDone
  repeat' (first | with_reducible (first | assumption  | apply touch_State_modLevain | apply touch_freeMaps | apply touch_countLev | apply touch_id) | refine touch_fst (by with_reducible assumption) ?_ | dsimp only | split | intro _)

theorem touch_endDone (s : State) (t : Nat) (i : Inst) (hs : Touch F st0 s) (f_queues : F.queues = true) (f_host : F.host = true) (f_hostTx : F.hostTx = true) :
    Touch F st0 (endDone s t i) := by
  unfold endDone
  repeat' (first | with_reducible (first | assumption  | apply touch_addRec | apply touch_quickResult | apply touch_foldl | apply touch_foldl_fst) | refine touch_fst (by with_reducible assumption) ?_ | dsimp only | split | intro _)

theorem touch_endsOf (s : State) (t k : Nat) (i : Inst) (hs : Touch F st0 s) (f_trays : F.trays = true) (f_cores : F.cores = true) :
    Touch F st0 (endsOf s t k i) := by
  unfold endsOf
  repeat' (first | with_reducible (first | assumption  | apply touch_State_modTray | apply touch_State_modProofer | apply touch_dropStreams | apply touch_updDone | apply touch_predDone | apply touch_maskedDone) | refine touch_fst (by with_reducible assumption) ?_ | dsimp only | split | intro _)

theorem touch_signalsOf (s : State) (t k : Nat) (i : Inst) (hs : Touch F st0 s) (f_ord : F.ord = true) (f_regs : F.regs = true) (f_trays : F.trays = true)
    (f_barriers : F.barriers = true) (f_queues : F.queues = true) (f_cores : F.cores = true) (f_mmu : F.mmu = true) (f_arbs : F.arbs = true) (f_errLog : F.errLog = true)
    (f_staon : F.staon = true) :
    Touch F st0 (signalsOf s t k i) := by
  unfold signalsOf
  repeat' (first | with_reducible (first | assumption  | apply touch_State_modTray | apply touch_signal) | refine touch_fst (by with_reducible assumption) ?_ | dsimp only | split | intro _)

theorem touch_retire (s : State) (t k : Nat) (i : Inst) (rec' : Rec) (hs : Touch F st0 s) (f_ord : F.ord = true) (f_regs : F.regs = true) (f_trays : F.trays = true)
    (f_barriers : F.barriers = true) (f_queues : F.queues = true) (f_cores : F.cores = true) (f_mmu : F.mmu = true) (f_arbs : F.arbs = true) (f_errLog : F.errLog = true)
    (f_host : F.host = true) (f_staon : F.staon = true) (f_hostTx : F.hostTx = true) :
    Touch F st0 (retire s t k i rec') := by
  unfold retire
  repeat' (first | with_reducible (first | assumption  | apply touch_State_modTray | apply touch_addRec | apply touch_tryRelease | apply touch_endDone) | refine touch_fst (by with_reducible assumption) ?_ | dsimp only | split | intro _)

theorem touch_complete (t k : Nat) (s0 : State) (hs0 : Touch F st0 s0) (f_ord : F.ord = true) (f_poison : F.poison = true) (f_benchPoison : F.benchPoison = true)
    (f_regs : F.regs = true) (f_trays : F.trays = true) (f_barriers : F.barriers = true) (f_queues : F.queues = true) (f_cores : F.cores = true) (f_mmu : F.mmu = true)
    (f_larder : F.larder = true) (f_arbs : F.arbs = true) (f_errLog : F.errLog = true) (f_planted : F.planted = true) (f_stop : F.stop = true) (f_host : F.host = true)
    (f_staon : F.staon = true) (f_hearth : F.hearth = true) (f_hostTx : F.hostTx = true) :
    Touch F st0 (complete t k s0) := by
  unfold complete
  repeat' (first | with_reducible (first | assumption  | apply touch_readBack | apply touch_endsOf | apply touch_signalsOf | apply touch_retire) | refine touch_fst (by with_reducible assumption) ?_ | dsimp only | split | intro _)

theorem touch_execInstructionComplete (t k : Nat) (s : State) (hs : Touch F st0 s) (f_ord : F.ord = true) (f_poison : F.poison = true) (f_benchPoison : F.benchPoison
    = true) (f_regs : F.regs = true) (f_trays : F.trays = true) (f_barriers : F.barriers = true) (f_queues : F.queues = true) (f_cores : F.cores = true) (f_mmu : F.mmu =
    true) (f_larder : F.larder = true) (f_arbs : F.arbs = true) (f_errLog : F.errLog = true) (f_planted : F.planted = true) (f_stop : F.stop = true) (f_host : F.host =
    true) (f_staon : F.staon = true) (f_hearth : F.hearth = true) (f_hostTx : F.hostTx = true) :
    Ends F st0 (execInstructionComplete t k s) := by
  unfold execInstructionComplete
  repeat' (first | with_reducible (first | assumption  | apply touch_onTray | apply touch_complete | apply ends_next | apply ends_fault) | refine touch_fst (by with_reducible assumption) ?_ | dsimp only | split | intro _)

theorem touch_startTask (s0 : State) (t q : Nat) (x : Waiting) (hs0 : Touch F st0 s0) (f_mem : F.mem = true) (f_poison : F.poison = true) (f_benchPoison :
    F.benchPoison = true) (f_regs : F.regs = true) (f_trays : F.trays = true) (f_queues : F.queues = true) (f_cores : F.cores = true) (f_mmu : F.mmu = true) (f_larder :
    F.larder = true) (f_arbs : F.arbs = true) (f_errLog : F.errLog = true) (f_planted : F.planted = true) (f_staon : F.staon = true) :
    Touch F st0 (startTask s0 t q x) := by
  unfold startTask
  repeat' (first | with_reducible (first | assumption  | apply touch_State_modTray | apply touch_finishRepart | apply touch_benchWrite | apply touch_endTask) | refine touch_fst (by with_reducible assumption) ?_ | dsimp only | split | intro _)

theorem touch_dispatchOne (s : State) (q : Nat) (x : Waiting) (hs : Touch F st0 s) (f_mem : F.mem = true) (f_poison : F.poison = true) (f_benchPoison : F.benchPoison
    = true) (f_regs : F.regs = true) (f_trays : F.trays = true) (f_queues : F.queues = true) (f_cores : F.cores = true) (f_mmu : F.mmu = true) (f_larder : F.larder =
    true) (f_arbs : F.arbs = true) (f_errLog : F.errLog = true) (f_planted : F.planted = true) (f_staon : F.staon = true) :
    Touch F st0 (dispatchOne s q x) := by
  unfold dispatchOne
  repeat' (first | with_reducible (first | assumption  | apply touch_State_modHq | apply touch_startTask) | refine touch_fst (by with_reducible assumption) ?_ | dsimp only | split | intro _)

theorem touch_dispatchAll (s : State) (hs : Touch F st0 s) (f_mem : F.mem = true) (f_poison : F.poison = true) (f_benchPoison : F.benchPoison = true) (f_regs :
    F.regs = true) (f_trays : F.trays = true) (f_queues : F.queues = true) (f_cores : F.cores = true) (f_mmu : F.mmu = true) (f_larder : F.larder = true) (f_arbs :
    F.arbs = true) (f_errLog : F.errLog = true) (f_planted : F.planted = true) (f_staon : F.staon = true) :
    Touch F st0 (dispatchAll s) := by
  unfold dispatchAll
  repeat' (first | with_reducible (first | assumption  | apply touch_dispatchOne | apply touch_foldl | apply touch_foldl_fst) | refine touch_fst (by with_reducible assumption) ?_ | dsimp only | split | intro _)

theorem touch_execDispatch (s : State) (hs : Touch F st0 s) (f_mem : F.mem = true) (f_poison : F.poison = true) (f_benchPoison : F.benchPoison = true) (f_regs :
    F.regs = true) (f_trays : F.trays = true) (f_queues : F.queues = true) (f_cores : F.cores = true) (f_mmu : F.mmu = true) (f_larder : F.larder = true) (f_arbs :
    F.arbs = true) (f_errLog : F.errLog = true) (f_planted : F.planted = true) (f_staon : F.staon = true) :
    Ends F st0 (execDispatch s) := by
  unfold execDispatch
  repeat' (first | with_reducible (first | assumption  | apply touch_dispatchAll | apply ends_next | apply ends_fault) | refine touch_fst (by with_reducible assumption) ?_ | dsimp only | split | intro _)

theorem touch_execRecordWrite (q : Nat) (s : State) (hs : Touch F st0 s) (f_mem : F.mem = true) (f_poison : F.poison = true) (f_benchPoison : F.benchPoison = true)
    (f_regs : F.regs = true) (f_trays : F.trays = true) (f_barriers : F.barriers = true) (f_queues : F.queues = true) (f_cores : F.cores = true) (f_mmu : F.mmu = true)
    (f_larder : F.larder = true) (f_arbs : F.arbs = true) (f_errLog : F.errLog = true) (f_planted : F.planted = true) (f_host : F.host = true) (f_staon : F.staon = true)
    (f_hostTx : F.hostTx = true) :
    Ends F st0 (execRecordWrite q s) := by
  unfold execRecordWrite
  repeat' (first | with_reducible (first | assumption  | apply touch_writeRecord | apply touch_onQueue | apply ends_next | apply ends_fault) | refine touch_fst (by with_reducible assumption) ?_ | dsimp only | split | intro _)

theorem touch_notifyExpire (q : Nat) (s : State) (hs : Touch F st0 s) (f_queues : F.queues = true) (f_host : F.host = true) (f_hostTx : F.hostTx = true) :
    Touch F st0 (notifyExpire q s) := by
  unfold notifyExpire
  repeat' (first | with_reducible (first | assumption  | apply touch_notify) | refine touch_fst (by with_reducible assumption) ?_ | dsimp only | split | intro _)

theorem touch_execNotifyTimerExpire (q : Nat) (s : State) (hs : Touch F st0 s) (f_queues : F.queues = true) (f_host : F.host = true) (f_hostTx : F.hostTx = true) :
    Ends F st0 (execNotifyTimerExpire q s) := by
  unfold execNotifyTimerExpire
  repeat' (first | with_reducible (first | assumption  | apply touch_onQueue | apply touch_notifyExpire | apply ends_next | apply ends_fault) | refine touch_fst (by with_reducible assumption) ?_ | dsimp only | split | intro _)

/-! ### Xfer.lean -/

theorem touch_pushPhys (s : State) (c ch : Nat) (r : ChReq) (pa n : Nat) (write : Bool) (hs : Touch F st0 s) (f_cores : F.cores = true) (f_arbs : F.arbs = true) :
    Touch F st0 (pushPhys s c ch r pa n write) := by
  unfold pushPhys
  repeat' (first | with_reducible (first | assumption  | apply touch_State_modChannel | apply touch_pushArb | apply touch_foldl | apply touch_foldl_fst | apply touch_id) | refine touch_fst (by with_reducible assumption) ?_ | dsimp only | split | intro _)

theorem touch_pushBench (s : State) (c : Nat) (r : ChReq) (off n : Nat) (write : Bool) (hs : Touch F st0 s) (f_arbs : F.arbs = true) :
    Touch F st0 (pushBench s c r off n write) := by
  unfold pushBench
  repeat' (first | with_reducible (first | assumption  | apply touch_pushArb | apply touch_foldl | apply touch_foldl_fst | apply touch_id) | refine touch_fst (by with_reducible assumption) ?_ | dsimp only | split | intro _)

theorem touch_pushSpans (s : State) (c ch : Nat) (r : ChReq) (hs : Touch F st0 s) (f_cores : F.cores = true) (f_arbs : F.arbs = true) (f_host : F.host = true)
    (f_hostTx : F.hostTx = true) :
    Touch F st0 (pushSpans s c ch r) := by
  unfold pushSpans
  repeat' (first | with_reducible (first | assumption  | apply touch_State_setHost | apply touch_State_write | apply touch_sendQp | apply touch_pushPhys | apply touch_pushBench | apply touch_foldl | apply touch_foldl_fst | apply touch_id) | refine touch_fst (by with_reducible assumption) ?_ | dsimp only | split | intro _)

theorem touch_pumpTxns (s : State) (c ch : Nat) (hs : Touch F st0 s) (f_cores : F.cores = true) (f_arbs : F.arbs = true) :
    Touch F st0 (pumpTxns s c ch) := by
  unfold pumpTxns
  repeat' (first | with_reducible (first | assumption  | apply touch_State_modChannel | apply touch_pushArb | apply touch_foldl | apply touch_foldl_fst | apply touch_id) | refine touch_fst (by with_reducible assumption) ?_ | dsimp only | split | intro _)

theorem touch_pumpAll (s : State) (hs : Touch F st0 s) (f_cores : F.cores = true) (f_arbs : F.arbs = true) :
    Touch F st0 (pumpAll s) := by
  unfold pumpAll
  repeat' (first | with_reducible (first | assumption  | apply touch_pumpTxns | apply touch_foldl | apply touch_foldl_fst) | refine touch_fst (by with_reducible assumption) ?_ | dsimp only | split | intro _)

theorem touch_issueDesc (c ch : Nat) (s : State) (hs : Touch F st0 s) (f_regs : F.regs = true) (f_cores : F.cores = true) (f_mmu : F.mmu = true) (f_arbs : F.arbs =
    true) (f_planted : F.planted = true) (f_host : F.host = true) (f_hostTx : F.hostTx = true) :
    Touch F st0 (issueDesc c ch s) := by
  unfold issueDesc
  repeat' (first | with_reducible (first | assumption  | apply touch_State_setMmu | apply touch_State_modChannel | apply touch_wrote | apply touch_pushSpans | apply touch_pumpTxns | apply touch_foldl | apply touch_foldl_fst | apply touch_id) | refine touch_fst (by with_reducible assumption) ?_ | dsimp only | split | intro _)

theorem touch_onChannel (c ch : Nat) (f : State → State) (s : State) (hf : ∀ x0, Touch F st0 x0 → Touch F st0 (f x0)) (hs : Touch F st0 s) :
    Ends F st0 (onChannel c ch f s) := by
  unfold onChannel
  repeat' (first | with_reducible (first | assumption  | apply touch_onCore | apply hf | apply ends_next | apply ends_fault) | refine touch_fst (by with_reducible assumption) ?_ | dsimp only | split | intro _)

theorem touch_execTransferDescIssue (c ch : Nat) (s : State) (hs : Touch F st0 s) (f_regs : F.regs = true) (f_cores : F.cores = true) (f_mmu : F.mmu = true) (f_arbs
    : F.arbs = true) (f_planted : F.planted = true) (f_host : F.host = true) (f_hostTx : F.hostTx = true) :
    Ends F st0 (execTransferDescIssue c ch s) := by
  unfold execTransferDescIssue
  repeat' (first | with_reducible (first | assumption  | apply touch_issueDesc | apply touch_onChannel | apply ends_next | apply ends_fault) | refine touch_fst (by with_reducible assumption) ?_ | dsimp only | split | intro _)

theorem touch_dropRequest (s : State) (c ch id : Nat) (hs : Touch F st0 s) (f_cores : F.cores = true) (f_mmu : F.mmu = true) :
    Touch F st0 (dropRequest s c ch id) := by
  unfold dropRequest
  repeat' (first | with_reducible (first | assumption  | apply touch_State_setMmu | apply touch_State_modChannel | apply touch_id) | refine touch_fst (by with_reducible assumption) ?_ | dsimp only | split | intro _)

theorem touch_holdStream (s : State) (c ch : Nat) (r : ChReq) (n : Nat) (hs : Touch F st0 s) (f_cores : F.cores = true) (f_mmu : F.mmu = true) :
    Touch F st0 (holdStream s c ch r n) := by
  unfold holdStream
  repeat' (first | with_reducible (first | assumption  | apply touch_State_modChannel | apply touch_modStream | apply touch_dropRequest | apply touch_id) | refine touch_fst (by with_reducible assumption) ?_ | dsimp only | split | intro _)

theorem touch_xferFails (s : State) (c ch : Nat) (r : ChReq) (e : MemErr) (hs : Touch F st0 s) (f_regs : F.regs = true) (f_trays : F.trays = true) (f_queues :
    F.queues = true) (f_cores : F.cores = true) (f_mmu : F.mmu = true) (f_arbs : F.arbs = true) (f_errLog : F.errLog = true) (f_staon : F.staon = true) :
    Touch F st0 (xferFails s c ch r e) := by
  unfold xferFails
  repeat' (first | with_reducible (first | assumption  | apply touch_State_count | apply touch_State_modInst | apply touch_memFault | apply touch_dropRequest | apply touch_holdStream | apply touch_id) | refine touch_fst (by with_reducible assumption) ?_ | dsimp only | split | intro _)

theorem touch_moveFill (s : State) (c : Nat) (r : ChReq) (ch slot part n : Nat) (st : Stream) (hs : Touch F st0 s) (f_free : F.free = true) (f_mem : F.mem = true)
    (f_poison : F.poison = true) (f_benchPoison : F.benchPoison = true) (f_regs : F.regs = true) (f_cores : F.cores = true) (f_mmu : F.mmu = true) (f_larder : F.larder =
    true) (f_arbs : F.arbs = true) (f_planted : F.planted = true) :
    Touch F st0 (moveFill s c r ch slot part n st).1 := by
  unfold moveFill
  repeat' (first | with_reducible (first | assumption  | apply touch_State_setReg | apply touch_State_count | apply touch_larderTouch | apply touch_forEach | apply touch_blurBytes | apply touch_benchWrite | apply touch_modStream | apply touch_fillUnit) | refine touch_fst (by with_reducible assumption) ?_ | dsimp only | split | intro _)

theorem touch_partArrived (s : State) (c n slot : Nat) (hs : Touch F st0 s) (f_cores : F.cores = true) :
    Touch F st0 (partArrived s c n slot) := by
  unfold partArrived
  repeat' (first | with_reducible (first | assumption  | apply touch_modStream) | refine touch_fst (by with_reducible assumption) ?_ | dsimp only | split | intro _)

theorem touch_xdMoved (s : State) (c : Nat) (i : Inst) (t n : Nat) (x : Xd) (hs : Touch F st0 s) (f_regs : F.regs = true) (f_trays : F.trays = true) :
    Touch F st0 (xdMoved s c i t n x) := by
  unfold xdMoved
  repeat' (first | with_reducible (first | assumption  | apply touch_State_count | apply touch_State_modInst) | refine touch_fst (by with_reducible assumption) ?_ | dsimp only | split | intro _)

theorem touch_indexRead (s : State) (c t : Nat) (i : Inst) (part : Nat) (hs : Touch F st0 s) (f_ord : F.ord = true) (f_mem : F.mem = true) (f_poison : F.poison =
    true) (f_benchPoison : F.benchPoison = true) (f_regs : F.regs = true) (f_trays : F.trays = true) (f_cores : F.cores = true) (f_mmu : F.mmu = true) (f_larder :
    F.larder = true) (f_arbs : F.arbs = true) (f_planted : F.planted = true) :
    Touch F st0 (indexRead s c t i part).1 := by
  unfold indexRead
  repeat' (first | with_reducible (first | assumption  | apply touch_State_count | apply touch_State_modInst | apply touch_requestTransfers | apply touch_readIdx) | refine touch_fst (by with_reducible assumption) ?_ | dsimp only | split | intro _)

theorem touch_fabMessage (s : State) (t : Nat) (i : Inst) (m : FabMsg) (x : Xd) (hs : Touch F st0 s) (f_mem : F.mem = true) (f_poison : F.poison = true)
    (f_benchPoison : F.benchPoison = true) (f_regs : F.regs = true) (f_cores : F.cores = true) (f_mmu : F.mmu = true) (f_larder : F.larder = true) (f_arbs : F.arbs =
    true) (f_planted : F.planted = true) :
    Touch F st0 (fabMessage s t i m x).1 := by
  unfold fabMessage
  repeat' (first | with_reducible (first | assumption  | apply touch_andThen | apply touch_fabElems | apply touch_fabStored | apply touch_remoteRows | apply touch_remoteCrumb | apply touch_redData) | refine touch_fst (by with_reducible assumption) ?_ | dsimp only | split | intro _)

theorem touch_msgSent (s : State) (t k n id : Nat) (hs : Touch F st0 s) (f_trays : F.trays = true) :
    Touch F st0 (msgSent s t k n id) := by
  unfold msgSent
  repeat' (first | with_reducible (first | assumption  | apply touch_State_modInst | apply touch_id) | refine touch_fst (by with_reducible assumption) ?_ | dsimp only | split | intro _)

theorem touch_sendFab (s : State) (t : Nat) (i : Inst) (n : Nat) (m : FabMsg) (msg : StnMsg) (hs : Touch F st0 s) (f_free : F.free = true) (f_mem : F.mem = true)
    (f_poison : F.poison = true) (f_benchPoison : F.benchPoison = true) (f_regs : F.regs = true) (f_trays : F.trays = true) (f_queues : F.queues = true) (f_cores :
    F.cores = true) (f_mmu : F.mmu = true) (f_larder : F.larder = true) (f_arbs : F.arbs = true) (f_errLog : F.errLog = true) (f_planted : F.planted = true) (f_staon :
    F.staon = true) :
    Touch F st0 (sendFab s t i n m msg).1 := by
  unfold sendFab
  repeat' (first | with_reducible (first | assumption  | apply touch_State_modInst | apply touch_faultInst | apply touch_State_modStaon | apply touch_portSend | apply touch_takeMsgid | apply touch_launch | apply touch_settleKept | apply touch_makeRoom | apply touch_redAdd | apply touch_msgSent | apply touch_foldl | apply touch_foldl_fst | apply touch_id) | refine touch_fst (by with_reducible assumption) ?_ | dsimp only | split | intro _)

theorem touch_sendHostWrites (s : State) (c : Nat) (r : ChReq) (spans : List Span) (hs : Touch F st0 s) (f_host : F.host = true) (f_hostTx : F.hostTx = true) :
    Touch F st0 (sendHostWrites s c r spans) := by
  unfold sendHostWrites
  repeat' (first | with_reducible (first | assumption  | apply touch_State_setHost | apply touch_hostWriteOut | apply touch_foldl | apply touch_foldl_fst | apply touch_id) | refine touch_fst (by with_reducible assumption) ?_ | dsimp only | split | intro _)

theorem touch_endDesc (s : State) (c ch : Nat) (r : ChReq) (spans : List Span) (ends : State → State) (hs : Touch F st0 s) (hends : ∀ x0, Touch F st0 x0 → Touch F
    st0 (ends x0)) (f_cores : F.cores = true) (f_mmu : F.mmu = true) (f_host : F.host = true) (f_hostTx : F.hostTx = true) :
    Touch F st0 (endDesc s c ch r spans ends) := by
  unfold endDesc
  repeat' (first | with_reducible (first | assumption  | apply touch_State_modChannel | apply touch_dropRequest | apply touch_sendHostWrites | apply hends | apply touch_id) | refine touch_fst (by with_reducible assumption) ?_ | dsimp only | split | intro _)

theorem touch_copySlot (s : State) (c : Nat) (r : ChReq) (role : Role) (slot part addr : Nat) (hs : Touch F st0 s) (f_mem : F.mem = true) (f_poison : F.poison =
    true) (f_benchPoison : F.benchPoison = true) (f_regs : F.regs = true) (f_planted : F.planted = true) :
    Touch F st0 (copySlot s c r role slot part addr).1 := by
  unfold copySlot
  repeat' (first | with_reducible (first | assumption  | apply touch_State_count | apply touch_State_write) | refine touch_fst (by with_reducible assumption) ?_ | dsimp only | split | intro _)

theorem touch_commitDone (s : State) (c : Nat) (r : ChReq) (hs : Touch F st0 s) (f_mem : F.mem = true) (f_poison : F.poison = true) (f_benchPoison : F.benchPoison =
    true) (f_regs : F.regs = true) (f_trays : F.trays = true) (f_cores : F.cores = true) (f_mmu : F.mmu = true) (f_larder : F.larder = true) (f_arbs : F.arbs = true)
    (f_planted : F.planted = true) :
    Touch F st0 (commitDone s c r) := by
  unfold commitDone
  repeat' (first | with_reducible (first | assumption  | apply touch_State_count | apply touch_State_modInst | apply touch_blockCommitted | apply touch_foldl | apply touch_foldl_fst) | refine touch_fst (by with_reducible assumption) ?_ | dsimp only | split | intro _)

theorem touch_moveDesc (s : State) (c ch : Nat) (r : ChReq) (hs : Touch F st0 s) (f_ord : F.ord = true) (f_free : F.free = true) (f_mem : F.mem = true) (f_poison :
    F.poison = true) (f_benchPoison : F.benchPoison = true) (f_regs : F.regs = true) (f_trays : F.trays = true) (f_queues : F.queues = true) (f_cores : F.cores = true)
    (f_mmu : F.mmu = true) (f_larder : F.larder = true) (f_arbs : F.arbs = true) (f_errLog : F.errLog = true) (f_planted : F.planted = true) (f_host : F.host = true)
    (f_staon : F.staon = true) (f_hostTx : F.hostTx = true) :
    Touch F st0 (moveDesc s c ch r) := by
  unfold moveDesc
  repeat' (first | with_reducible (first | assumption  | apply touch_State_modInst | apply touch_quiet | apply touch_translateAll | apply touch_benchWrite | apply touch_faultInst | apply touch_memFault | apply touch_commitWrites | apply touch_freeSpill | apply touch_slotCopied | apply touch_moveXd | apply touch_dropRequest | apply touch_xferFails | apply touch_moveFill | apply touch_partArrived | apply touch_xdMoved | apply touch_indexRead | apply touch_fabMessage | apply touch_sendFab | apply touch_endDesc | apply touch_copySlot | apply touch_commitDone | apply touch_foldl | apply touch_foldl_fst | apply touch_id) | refine touch_fst (by with_reducible assumption) ?_ | dsimp only | split | intro _)

theorem touch_descDone (c ch slot : Nat) (s00 : State) (hs00 : Touch F st0 s00) (f_ord : F.ord = true) (f_free : F.free = true) (f_mem : F.mem = true) (f_poison :
    F.poison = true) (f_benchPoison : F.benchPoison = true) (f_regs : F.regs = true) (f_trays : F.trays = true) (f_barriers : F.barriers = true) (f_queues : F.queues =
    true) (f_cores : F.cores = true) (f_mmu : F.mmu = true) (f_larder : F.larder = true) (f_arbs : F.arbs = true) (f_errLog : F.errLog = true) (f_planted : F.planted =
    true) (f_stop : F.stop = true) (f_host : F.host = true) (f_staon : F.staon = true) (f_hearth : F.hearth = true) (f_hostTx : F.hostTx = true) :
    Touch F st0 (descDone c ch slot s00) := by
  unfold descDone
  repeat' (first | with_reducible (first | assumption  | apply touch_readTray | apply touch_serveOwned | apply touch_slotCopied | apply touch_pumpTxns | apply touch_dropRequest | apply touch_xdMoved | apply touch_commitDone | apply touch_moveDesc | apply touch_id) | refine touch_fst (by with_reducible assumption) ?_ | dsimp only | split | intro _)

theorem touch_spillCopied (c : Nat) (s : State) (hs : Touch F st0 s) (f_ord : F.ord = true) (f_free : F.free = true) (f_mem : F.mem = true) (f_poison : F.poison =
    true) (f_benchPoison : F.benchPoison = true) (f_regs : F.regs = true) (f_trays : F.trays = true) (f_queues : F.queues = true) (f_cores : F.cores = true) (f_mmu :
    F.mmu = true) (f_larder : F.larder = true) (f_arbs : F.arbs = true) (f_errLog : F.errLog = true) (f_planted : F.planted = true) (f_host : F.host = true) (f_staon :
    F.staon = true) (f_hostTx : F.hostTx = true) :
    Touch F st0 (spillCopied c s) := by
  unfold spillCopied
  repeat' (first | with_reducible (first | assumption  | apply touch_memFault | apply touch_serveOwned | apply touch_slotCopied | apply touch_dropRequest | apply touch_endDesc | apply touch_copySlot | apply touch_foldl | apply touch_foldl_fst | apply touch_id) | refine touch_fst (by with_reducible assumption) ?_ | dsimp only | split | intro _)

theorem touch_execSpillCopyDone (c : Nat) (s : State) (hs : Touch F st0 s) (f_ord : F.ord = true) (f_free : F.free = true) (f_mem : F.mem = true) (f_poison :
    F.poison = true) (f_benchPoison : F.benchPoison = true) (f_regs : F.regs = true) (f_trays : F.trays = true) (f_queues : F.queues = true) (f_cores : F.cores = true)
    (f_mmu : F.mmu = true) (f_larder : F.larder = true) (f_arbs : F.arbs = true) (f_errLog : F.errLog = true) (f_planted : F.planted = true) (f_host : F.host = true)
    (f_staon : F.staon = true) (f_hostTx : F.hostTx = true) :
    Ends F st0 (execSpillCopyDone c s) := by
  unfold execSpillCopyDone
  repeat' (first | with_reducible (first | assumption  | apply touch_onCore | apply touch_spillCopied | apply ends_next | apply ends_fault) | refine touch_fst (by with_reducible assumption) ?_ | dsimp only | split | intro _)

theorem touch_execTransferDescDone (c ch slot : Nat) (s : State) (hs : Touch F st0 s) (f_ord : F.ord = true) (f_free : F.free = true) (f_mem : F.mem = true)
    (f_poison : F.poison = true) (f_benchPoison : F.benchPoison = true) (f_regs : F.regs = true) (f_trays : F.trays = true) (f_barriers : F.barriers = true) (f_queues :
    F.queues = true) (f_cores : F.cores = true) (f_mmu : F.mmu = true) (f_larder : F.larder = true) (f_arbs : F.arbs = true) (f_errLog : F.errLog = true) (f_planted :
    F.planted = true) (f_stop : F.stop = true) (f_host : F.host = true) (f_staon : F.staon = true) (f_hearth : F.hearth = true) (f_hostTx : F.hostTx = true) :
    Ends F st0 (execTransferDescDone c ch slot s) := by
  unfold execTransferDescDone
  repeat' (first | with_reducible (first | assumption  | apply touch_onChannel | apply touch_descDone | apply ends_next | apply ends_fault) | refine touch_fst (by with_reducible assumption) ?_ | dsimp only | split | intro _)

theorem touch_slotFilled (c stream slot : Nat) (s : State) (hs : Touch F st0 s) (f_cores : F.cores = true) :
    Touch F st0 (slotFilled c stream slot s) := by
  unfold slotFilled
  repeat' (first | with_reducible (first | assumption  | apply touch_modStream) | refine touch_fst (by with_reducible assumption) ?_ | dsimp only | split | intro _)

theorem touch_execStreamSlotFilled (c stream slot : Nat) (s : State) (hs : Touch F st0 s) (f_cores : F.cores = true) :
    Ends F st0 (execStreamSlotFilled c stream slot s) := by
  unfold execStreamSlotFilled
  repeat' (first | with_reducible (first | assumption  | apply touch_onCore | apply touch_slotFilled | apply ends_next | apply ends_fault) | refine touch_fst (by with_reducible assumption) ?_ | dsimp only | split | intro _)

theorem touch_walkDone (w : Nat) (s : State) (hs : Touch F st0 s) (f_mem : F.mem = true) (f_poison : F.poison = true) (f_benchPoison : F.benchPoison = true) (f_regs
    : F.regs = true) (f_trays : F.trays = true) (f_queues : F.queues = true) (f_cores : F.cores = true) (f_mmu : F.mmu = true) (f_larder : F.larder = true) (f_arbs :
    F.arbs = true) (f_errLog : F.errLog = true) (f_planted : F.planted = true) (f_host : F.host = true) (f_staon : F.staon = true) (f_hostTx : F.hostTx = true) :
    Touch F st0 (walkDone w s) := by
  unfold walkDone
  repeat' (first | with_reducible (first | assumption  | apply touch_State_setMmu | apply touch_State_modChannel | apply touch_State_write | apply touch_walkAndFill | apply touch_pushSpans | apply touch_pumpTxns | apply touch_xferFails | apply touch_foldl | apply touch_foldl_fst | apply touch_id) | refine touch_fst (by with_reducible assumption) ?_ | dsimp only | split | intro _)

theorem touch_execTranslationWalkDone (w : Nat) (s : State) (hs : Touch F st0 s) (f_mem : F.mem = true) (f_poison : F.poison = true) (f_benchPoison : F.benchPoison =
    true) (f_regs : F.regs = true) (f_trays : F.trays = true) (f_queues : F.queues = true) (f_cores : F.cores = true) (f_mmu : F.mmu = true) (f_larder : F.larder = true)
    (f_arbs : F.arbs = true) (f_errLog : F.errLog = true) (f_planted : F.planted = true) (f_host : F.host = true) (f_staon : F.staon = true) (f_hostTx : F.hostTx = true)
    :
    Ends F st0 (execTranslationWalkDone w s) := by
  unfold execTranslationWalkDone
  repeat' (first | with_reducible (first | assumption  | apply touch_walkDone | apply ends_next | apply ends_fault) | refine touch_fst (by with_reducible assumption) ?_ | dsimp only | split | intro _)

theorem touch_startAhead (s : State) (t : Nat) (before : List Ahead) (a : Ahead) (hs : Touch F st0 s) (f_ord : F.ord = true) (f_cores : F.cores = true) :
    Touch F st0 (startAhead s t before a) := by
  unfold startAhead
  repeat' (first | with_reducible (first | assumption  | apply touch_pumpStreams | apply touch_startStream | apply touch_foldl | apply touch_foldl_fst) | refine touch_fst (by with_reducible assumption) ?_ | dsimp only | split | intro _)

theorem touch_readNext (s : State) (t : Nat) (hs : Touch F st0 s) (f_mem : F.mem = true) (f_poison : F.poison = true) (f_benchPoison : F.benchPoison = true) (f_regs
    : F.regs = true) (f_trays : F.trays = true) (f_queues : F.queues = true) (f_cores : F.cores = true) (f_mmu : F.mmu = true) (f_larder : F.larder = true) (f_arbs :
    F.arbs = true) (f_planted : F.planted = true) :
    Touch F st0 (readNext s t).1 := by
  unfold readNext
  repeat' (first | with_reducible (first | assumption  | apply touch_State_modTray | apply touch_trayFetch | apply touch_readDescs) | refine touch_fst (by with_reducible assumption) ?_ | dsimp only | split | intro _)

theorem touch_aheadMoves (s : State) (t : Nat) (a : Ahead) (hs : Touch F st0 s) (f_trays : F.trays = true) :
    Touch F st0 (aheadMoves s t a) := by
  unfold aheadMoves
  repeat' (first | with_reducible (first | assumption  | apply touch_State_modTray) | refine touch_fst (by with_reducible assumption) ?_ | dsimp only | split | intro _)

theorem touch_readAheadFrom (f_ord : F.ord = true) (f_mem : F.mem = true) (f_poison : F.poison = true) (f_benchPoison : F.benchPoison = true) (f_regs : F.regs =
    true) (f_trays : F.trays = true) (f_queues : F.queues = true) (f_cores : F.cores = true) (f_mmu : F.mmu = true) (f_larder : F.larder = true) (f_arbs : F.arbs = true)
    (f_planted : F.planted = true) :
    ∀ (y0 : Nat) (y1 : State) (y2 : Nat), Touch F st0 y1 → Touch F st0 (readAheadFrom y0 y1 y2) := by
  intro y0
  induction y0 with
  | zero =>
    intros; unfold readAheadFrom
    repeat' (first | with_reducible (first | assumption  | apply touch_startAhead | apply touch_readNext | apply touch_aheadMoves) | refine touch_fst (by with_reducible assumption) ?_ | dsimp only | split | intro _)
  | succ k ih =>
    intros; unfold readAheadFrom
    repeat' (first | with_reducible (first | assumption | apply ih | apply touch_startAhead | apply touch_readNext | apply touch_aheadMoves) | refine touch_fst (by with_reducible assumption) ?_ | dsimp only | split | intro _)

theorem touch_readAhead (t : Nat) (s : State) (hs : Touch F st0 s) (f_ord : F.ord = true) (f_mem : F.mem = true) (f_poison : F.poison = true) (f_benchPoison :
    F.benchPoison = true) (f_regs : F.regs = true) (f_trays : F.trays = true) (f_queues : F.queues = true) (f_cores : F.cores = true) (f_mmu : F.mmu = true) (f_larder :
    F.larder = true) (f_arbs : F.arbs = true) (f_planted : F.planted = true) :
    Touch F st0 (readAhead t s) := by
  unfold readAhead
  repeat' (first | with_reducible (first | assumption  | apply touch_State_modTray | apply touch_readAheadFrom) | refine touch_fst (by with_reducible assumption) ?_ | dsimp only | split | intro _)

theorem touch_execReadAheadAdvance (t : Nat) (s : State) (hs : Touch F st0 s) (f_ord : F.ord = true) (f_mem : F.mem = true) (f_poison : F.poison = true)
    (f_benchPoison : F.benchPoison = true) (f_regs : F.regs = true) (f_trays : F.trays = true) (f_queues : F.queues = true) (f_cores : F.cores = true) (f_mmu : F.mmu =
    true) (f_larder : F.larder = true) (f_arbs : F.arbs = true) (f_planted : F.planted = true) :
    Ends F st0 (execReadAheadAdvance t s) := by
  unfold execReadAheadAdvance
  repeat' (first | with_reducible (first | assumption  | apply touch_onTray | apply touch_readAhead | apply ends_next | apply ends_fault) | refine touch_fst (by with_reducible assumption) ?_ | dsimp only | split | intro _)

theorem touch_spoilSpan (s : State) (c space : Nat) (x : Span) (hs : Touch F st0 s) (f_free : F.free = true) (f_mem : F.mem = true) :
    Touch F st0 (spoilSpan s c space x) := by
  unfold spoilSpan
  repeat' (first | with_reducible (first | assumption  | apply touch_blurBytes | apply touch_foldl | apply touch_foldl_fst) | refine touch_fst (by with_reducible assumption) ?_ | dsimp only | split | intro _)

theorem touch_writeRecords (f_mem : F.mem = true) (f_poison : F.poison = true) (f_benchPoison : F.benchPoison = true) (f_regs : F.regs = true) (f_trays : F.trays =
    true) (f_barriers : F.barriers = true) (f_queues : F.queues = true) (f_cores : F.cores = true) (f_mmu : F.mmu = true) (f_larder : F.larder = true) (f_arbs : F.arbs =
    true) (f_errLog : F.errLog = true) (f_planted : F.planted = true) (f_host : F.host = true) (f_staon : F.staon = true) (f_hostTx : F.hostTx = true) :
    ∀ (y0 : Nat) (y1 : Nat) (y2 : State), Touch F st0 y2 → Touch F st0 (writeRecords y0 y1 y2) := by
  intro y0
  induction y0 with
  | zero =>
    intros; unfold writeRecords
    repeat' (first | with_reducible (first | assumption  | apply touch_writeRecord) | refine touch_fst (by with_reducible assumption) ?_ | dsimp only | split | intro _)
  | succ k ih =>
    intros; unfold writeRecords
    repeat' (first | with_reducible (first | assumption | apply ih | apply touch_writeRecord) | refine touch_fst (by with_reducible assumption) ?_ | dsimp only | split | intro _)

theorem touch_drainDone (t : Nat) (s : State) (hs : Touch F st0 s) (f_free : F.free = true) (f_mem : F.mem = true) (f_poison : F.poison = true) (f_benchPoison :
    F.benchPoison = true) (f_regs : F.regs = true) (f_trays : F.trays = true) (f_barriers : F.barriers = true) (f_queues : F.queues = true) (f_cores : F.cores = true)
    (f_mmu : F.mmu = true) (f_larder : F.larder = true) (f_arbs : F.arbs = true) (f_errLog : F.errLog = true) (f_planted : F.planted = true) (f_host : F.host = true)
    (f_staon : F.staon = true) (f_hostTx : F.hostTx = true) :
    Touch F st0 (drainDone t s) := by
  unfold drainDone
  repeat' (first | with_reducible (first | assumption  | apply touch_State_modTray | apply touch_addRec | apply touch_quickResult | apply touch_spoilSpan | apply touch_writeRecords | apply touch_foldl | apply touch_foldl_fst) | refine touch_fst (by with_reducible assumption) ?_ | dsimp only | split | intro _)

theorem touch_execDrainDone (t : Nat) (s : State) (hs : Touch F st0 s) (f_free : F.free = true) (f_mem : F.mem = true) (f_poison : F.poison = true) (f_benchPoison :
    F.benchPoison = true) (f_regs : F.regs = true) (f_trays : F.trays = true) (f_barriers : F.barriers = true) (f_queues : F.queues = true) (f_cores : F.cores = true)
    (f_mmu : F.mmu = true) (f_larder : F.larder = true) (f_arbs : F.arbs = true) (f_errLog : F.errLog = true) (f_planted : F.planted = true) (f_host : F.host = true)
    (f_staon : F.staon = true) (f_hostTx : F.hostTx = true) :
    Ends F st0 (execDrainDone t s) := by
  unfold execDrainDone
  repeat' (first | with_reducible (first | assumption  | apply touch_onTray | apply touch_drainDone | apply ends_next | apply ends_fault) | refine touch_fst (by with_reducible assumption) ?_ | dsimp only | split | intro _)

/-! ### Hearth.lean -/

theorem touch_flashWrite (s : State) (off : Nat) (bs : List Byte) (hs : Touch F st0 s) (f_hearth : F.hearth = true) :
    Touch F st0 (flashWrite s off bs) := by
  unfold flashWrite
  repeat' (first | with_reducible (first | assumption  | apply touch_State_modHearth | apply touch_foldl | apply touch_foldl_fst) | refine touch_fst (by with_reducible assumption) ?_ | dsimp only | split | intro _)

theorem touch_extendM (s : State) (i : Nat) (v : List Byte) (hs : Touch F st0 s) (f_hearth : F.hearth = true) :
    Touch F st0 (extendM s i v) := by
  unfold extendM
  repeat' (first | with_reducible (first | assumption  | apply touch_State_modHearth) | refine touch_fst (by with_reducible assumption) ?_ | dsimp only | split | intro _)

theorem touch_mainOff (s : State) (keepPll : Bool) (hs : Touch F st0 s) (f_mem : F.mem = true) (f_poison : F.poison = true) (f_benchPoison : F.benchPoison = true)
    (f_regs : F.regs = true) (f_trays : F.trays = true) (f_barriers : F.barriers = true) (f_queues : F.queues = true) (f_cores : F.cores = true) (f_mmu : F.mmu = true)
    (f_larder : F.larder = true) (f_arbs : F.arbs = true) (f_power : F.power = true) (f_errLog : F.errLog = true) (f_planted : F.planted = true) (f_stop : F.stop = true)
    (f_scrubbing : F.scrubbing = true) (f_trained : F.trained = true) (f_host : F.host = true) (f_staon : F.staon = true) :
    Touch F st0 (mainOff s keepPll) := by
  unfold mainOff
  exact { hs with
    mem := fun e => by rw [f_mem] at e; cases e
    poison := fun e => by rw [f_poison] at e; cases e
    benchPoison := fun e => by rw [f_benchPoison] at e; cases e
    regs := fun e => by rw [f_regs] at e; cases e
    trays := fun e => by rw [f_trays] at e; cases e
    barriers := fun e => by rw [f_barriers] at e; cases e
    queues := fun e => by rw [f_queues] at e; cases e
    cores := fun e => by rw [f_cores] at e; cases e
    mmu := fun e => by rw [f_mmu] at e; cases e
    larder := fun e => by rw [f_larder] at e; cases e
    arbs := fun e => by rw [f_arbs] at e; cases e
    power := fun e => by rw [f_power] at e; cases e
    errLog := fun e => by rw [f_errLog] at e; cases e
    planted := fun e => by rw [f_planted] at e; cases e
    stop := fun e => by rw [f_stop] at e; cases e
    scrubbing := fun e => by rw [f_scrubbing] at e; cases e
    trained := fun e => by rw [f_trained] at e; cases e
    host := fun e => by rw [f_host] at e; cases e
    staon := fun e => by rw [f_staon] at e; cases e
    canonical := fun e => ⟨Tab.wf_filter _ (hs.canonical e).1, rfl, rfl, Tab.wf_filter _ (hs.canonical e).2.2.2⟩ }

theorem touch_hearthClear (s : State) (cause : Nat) (hs : Touch F st0 s) (f_power : F.power = true) (f_hearth : F.hearth = true) (f_modhw : F.modhw = true) :
    Touch F st0 (hearthClear s cause) := by
  unfold hearthClear
  repeat' (first | with_reducible (first | assumption  | apply touch_State_setModhw | apply touch_State_modHearth | apply touch_State_modPower) | refine touch_fst (by with_reducible assumption) ?_ | dsimp only | split | intro _)

theorem touch_logCalLost (s : State) (hs : Touch F st0 s) (f_hearth : F.hearth = true) :
    Touch F st0 (logCalLost s) := by
  unfold logCalLost
  repeat' (first | with_reducible (first | assumption  | apply touch_State_modHearth | apply touch_hearthLog) | refine touch_fst (by with_reducible assumption) ?_ | dsimp only | split | intro _)

theorem touch_romStart (s : State) (cause : Nat) (hs : Touch F st0 s) (f_mem : F.mem = true) (f_poison : F.poison = true) (f_benchPoison : F.benchPoison = true)
    (f_regs : F.regs = true) (f_trays : F.trays = true) (f_barriers : F.barriers = true) (f_queues : F.queues = true) (f_cores : F.cores = true) (f_mmu : F.mmu = true)
    (f_larder : F.larder = true) (f_arbs : F.arbs = true) (f_power : F.power = true) (f_errLog : F.errLog = true) (f_planted : F.planted = true) (f_stop : F.stop = true)
    (f_scrubbing : F.scrubbing = true) (f_trained : F.trained = true) (f_host : F.host = true) (f_staon : F.staon = true) (f_hearth : F.hearth = true) (f_modhw : F.modhw
    = true) :
    Touch F st0 (romStart s cause) := by
  unfold romStart
  repeat' (first | with_reducible (first | assumption  | apply touch_State_modHearth | apply touch_mainOff | apply touch_hearthClear) | refine touch_fst (by with_reducible assumption) ?_ | dsimp only | split | intro _)

theorem touch_startImages (s : State) (hs : Touch F st0 s) (f_hearth : F.hearth = true) :
    Touch F st0 (startImages s) := by
  unfold startImages
  repeat' (first | with_reducible (first | assumption  | apply touch_State_modHearth | apply touch_extendM) | refine touch_fst (by with_reducible assumption) ?_ | dsimp only | split | intro _)

theorem touch_powerOnReset (s : State) (cause : Nat) (hs : Touch F st0 s) (f_mem : F.mem = true) (f_poison : F.poison = true) (f_benchPoison : F.benchPoison = true)
    (f_regs : F.regs = true) (f_trays : F.trays = true) (f_barriers : F.barriers = true) (f_queues : F.queues = true) (f_cores : F.cores = true) (f_mmu : F.mmu = true)
    (f_larder : F.larder = true) (f_arbs : F.arbs = true) (f_power : F.power = true) (f_errLog : F.errLog = true) (f_planted : F.planted = true) (f_stop : F.stop = true)
    (f_scrubbing : F.scrubbing = true) (f_trained : F.trained = true) (f_host : F.host = true) (f_staon : F.staon = true) (f_hearth : F.hearth = true) (f_modhw : F.modhw
    = true) :
    Touch F st0 (powerOnReset s cause) := by
  unfold powerOnReset
  repeat' (first | with_reducible (first | assumption  | apply touch_State_setPower | apply touch_romStart) | refine touch_fst (by with_reducible assumption) ?_ | dsimp only | split | intro _)

theorem touch_hearthReset (s : State) (cause : Nat) (hs : Touch F st0 s) (f_mem : F.mem = true) (f_poison : F.poison = true) (f_benchPoison : F.benchPoison = true)
    (f_regs : F.regs = true) (f_trays : F.trays = true) (f_barriers : F.barriers = true) (f_queues : F.queues = true) (f_cores : F.cores = true) (f_mmu : F.mmu = true)
    (f_larder : F.larder = true) (f_arbs : F.arbs = true) (f_power : F.power = true) (f_errLog : F.errLog = true) (f_planted : F.planted = true) (f_stop : F.stop = true)
    (f_scrubbing : F.scrubbing = true) (f_trained : F.trained = true) (f_host : F.host = true) (f_staon : F.staon = true) (f_hearth : F.hearth = true) (f_modhw : F.modhw
    = true) :
    Touch F st0 (hearthReset s cause) := by
  unfold hearthReset
  repeat' (first | with_reducible (first | assumption  | apply touch_romStart) | refine touch_fst (by with_reducible assumption) ?_ | dsimp only | split | intro _)

theorem touch_moduleReset (s : State) (cause : Nat) (hs : Touch F st0 s) (f_mem : F.mem = true) (f_poison : F.poison = true) (f_benchPoison : F.benchPoison = true)
    (f_regs : F.regs = true) (f_trays : F.trays = true) (f_barriers : F.barriers = true) (f_queues : F.queues = true) (f_cores : F.cores = true) (f_mmu : F.mmu = true)
    (f_larder : F.larder = true) (f_arbs : F.arbs = true) (f_power : F.power = true) (f_errLog : F.errLog = true) (f_planted : F.planted = true) (f_stop : F.stop = true)
    (f_scrubbing : F.scrubbing = true) (f_trained : F.trained = true) (f_host : F.host = true) (f_staon : F.staon = true) (f_hearth : F.hearth = true) (f_modhw : F.modhw
    = true) :
    Touch F st0 (moduleReset s cause) := by
  unfold moduleReset
  repeat' (first | with_reducible (first | assumption  | apply touch_mainOff | apply touch_hearthClear | apply touch_logCalLost | apply touch_startImages) | refine touch_fst (by with_reducible assumption) ?_ | dsimp only | split | intro _)

theorem touch_holdAll (s : State) (hs : Touch F st0 s) (f_mem : F.mem = true) (f_poison : F.poison = true) (f_benchPoison : F.benchPoison = true) (f_regs : F.regs =
    true) (f_trays : F.trays = true) (f_barriers : F.barriers = true) (f_queues : F.queues = true) (f_cores : F.cores = true) (f_mmu : F.mmu = true) (f_larder : F.larder
    = true) (f_arbs : F.arbs = true) (f_power : F.power = true) (f_errLog : F.errLog = true) (f_planted : F.planted = true) (f_stop : F.stop = true) (f_scrubbing :
    F.scrubbing = true) (f_trained : F.trained = true) (f_host : F.host = true) (f_staon : F.staon = true) (f_hearth : F.hearth = true) (f_modhw : F.modhw = true) :
    Touch F st0 (holdAll s) := by
  unfold holdAll
  repeat' (first | with_reducible (first | assumption  | apply touch_State_modHearth | apply touch_romStart) | refine touch_fst (by with_reducible assumption) ?_ | dsimp only | split | intro _)

theorem touch_askImage (s : State) (hs : Touch F st0 s) (f_hearth : F.hearth = true) :
    Touch F st0 (askImage s) := by
  unfold askImage
  repeat' (first | with_reducible (first | assumption  | apply touch_State_modHearth) | refine touch_fst (by with_reducible assumption) ?_ | dsimp only | split | intro _)

theorem touch_nextSource (s : State) (hs : Touch F st0 s) (f_hearth : F.hearth = true) :
    Touch F st0 (nextSource s) := by
  unfold nextSource
  repeat' (first | with_reducible (first | assumption  | apply touch_State_modHearth | apply touch_askImage) | refine touch_fst (by with_reducible assumption) ?_ | dsimp only | split | intro _)

theorem touch_attemptFails (s : State) (code : Nat) (hs : Touch F st0 s) (f_hearth : F.hearth = true) :
    Touch F st0 (attemptFails s code) := by
  unfold attemptFails
  repeat' (first | with_reducible (first | assumption  | apply touch_State_modHearth | apply touch_hearthEvent | apply touch_nextSource) | refine touch_fst (by with_reducible assumption) ?_ | dsimp only | split | intro _)

theorem touch_startFails (s : State) (code : Nat) (hs : Touch F st0 s) (f_mem : F.mem = true) (f_poison : F.poison = true) (f_benchPoison : F.benchPoison = true)
    (f_regs : F.regs = true) (f_trays : F.trays = true) (f_barriers : F.barriers = true) (f_queues : F.queues = true) (f_cores : F.cores = true) (f_mmu : F.mmu = true)
    (f_larder : F.larder = true) (f_arbs : F.arbs = true) (f_power : F.power = true) (f_errLog : F.errLog = true) (f_planted : F.planted = true) (f_stop : F.stop = true)
    (f_scrubbing : F.scrubbing = true) (f_trained : F.trained = true) (f_host : F.host = true) (f_staon : F.staon = true) (f_hearth : F.hearth = true) :
    Touch F st0 (startFails s code) := by
  unfold startFails
  repeat' (first | with_reducible (first | assumption  | apply touch_State_modHearth | apply touch_hearthEvent | apply touch_mainOff | apply touch_nextSource) | refine touch_fst (by with_reducible assumption) ?_ | dsimp only | split | intro _)

theorem touch_releaseDividers (s : State) (hs : Touch F st0 s) (f_power : F.power = true) :
    Touch F st0 (releaseDividers s) := by
  unfold releaseDividers
  repeat' (first | with_reducible (first | assumption  | apply touch_requestWake | apply touch_foldl | apply touch_foldl_fst) | refine touch_fst (by with_reducible assumption) ?_ | dsimp only | split | intro _)

theorem touch_imagePasses (s : State) (slot src : Nat) (hs : Touch F st0 s) (f_power : F.power = true) (f_hearth : F.hearth = true) :
    Touch F st0 (imagePasses s slot src) := by
  unfold imagePasses
  repeat' (first | with_reducible (first | assumption  | apply touch_State_modHearth | apply touch_setDom | apply touch_releaseDividers) | refine touch_fst (by with_reducible assumption) ?_ | dsimp only | split | intro _)

theorem touch_attemptSlot (s : State) (slot src : Nat) (hs : Touch F st0 s) (f_power : F.power = true) (f_hearth : F.hearth = true) :
    Touch F st0 (attemptSlot s slot src) := by
  unfold attemptSlot
  repeat' (first | with_reducible (first | assumption  | apply touch_State_modHearth | apply touch_attemptFails | apply touch_imagePasses) | refine touch_fst (by with_reducible assumption) ?_ | dsimp only | split | intro _)

theorem touch_writeMgtEn (s : State) (hs : Touch F st0 s) (f_regs : F.regs = true) (f_trays : F.trays = true) (f_hearth : F.hearth = true) :
    Touch F st0 (writeMgtEn s) := by
  unfold writeMgtEn
  repeat' (first | with_reducible (first | assumption  | apply touch_storeWrite | apply touch_State_modHearth) | refine touch_fst (by with_reducible assumption) ?_ | dsimp only | split | intro _)

theorem touch_firmwareStarts (s : State) (hs : Touch F st0 s) (f_regs : F.regs = true) (f_trays : F.trays = true) (f_queues : F.queues = true) (f_cores : F.cores =
    true) (f_mmu : F.mmu = true) (f_arbs : F.arbs = true) (f_errLog : F.errLog = true) (f_host : F.host = true) (f_staon : F.staon = true) (f_hearth : F.hearth = true) :
    Touch F st0 (firmwareStarts s) := by
  unfold firmwareStarts
  repeat' (first | with_reducible (first | assumption  | apply touch_State_setHost | apply touch_State_setStaon | apply touch_State_modHearth | apply touch_hearthEvent | apply touch_adjustPorts | apply touch_extendM | apply touch_writeMgtEn) | refine touch_fst (by with_reducible assumption) ?_ | dsimp only | split | intro _)

theorem touch_sampleStep1 (s : State) (env : BootEnv) (hs : Touch F st0 s) (f_modhw : F.modhw = true) :
    Touch F st0 (sampleStep1 s env) := by
  unfold sampleStep1
  repeat' (first | with_reducible (first | assumption  | apply touch_State_setModhw) | refine touch_fst (by with_reducible assumption) ?_ | dsimp only | split | intro _)

theorem touch_bootStep (s : State) (env : BootEnv) (hs : Touch F st0 s) (f_mem : F.mem = true) (f_poison : F.poison = true) (f_benchPoison : F.benchPoison = true)
    (f_regs : F.regs = true) (f_trays : F.trays = true) (f_barriers : F.barriers = true) (f_queues : F.queues = true) (f_cores : F.cores = true) (f_mmu : F.mmu = true)
    (f_larder : F.larder = true) (f_arbs : F.arbs = true) (f_power : F.power = true) (f_errLog : F.errLog = true) (f_planted : F.planted = true) (f_stop : F.stop = true)
    (f_scrubbing : F.scrubbing = true) (f_trained : F.trained = true) (f_host : F.host = true) (f_staon : F.staon = true) (f_hearth : F.hearth = true) (f_modhw : F.modhw
    = true) :
    Touch F st0 (bootStep s env) := by
  unfold bootStep
  repeat' (first | with_reducible (first | assumption  | apply touch_State_setTrained | apply touch_State_modHearth | apply touch_logCalLost | apply touch_startImages | apply touch_startFails | apply touch_attemptSlot | apply touch_firmwareStarts | apply touch_sampleStep1) | refine touch_fst (by with_reducible assumption) ?_ | dsimp only | split | intro _)

theorem touch_afterLeft (s : State) (hs : Touch F st0 s) (f_mem : F.mem = true) (f_poison : F.poison = true) (f_benchPoison : F.benchPoison = true) (f_regs : F.regs
    = true) (f_trays : F.trays = true) (f_barriers : F.barriers = true) (f_queues : F.queues = true) (f_cores : F.cores = true) (f_mmu : F.mmu = true) (f_larder :
    F.larder = true) (f_arbs : F.arbs = true) (f_power : F.power = true) (f_errLog : F.errLog = true) (f_planted : F.planted = true) (f_stop : F.stop = true)
    (f_scrubbing : F.scrubbing = true) (f_trained : F.trained = true) (f_host : F.host = true) (f_staon : F.staon = true) (f_hearth : F.hearth = true) :
    Touch F st0 (afterLeft s) := by
  unfold afterLeft
  repeat' (first | with_reducible (first | assumption  | apply touch_State_modHearth | apply touch_mainOff) | refine touch_fst (by with_reducible assumption) ?_ | dsimp only | split | intro _)

theorem touch_endDrain (s : State) (hs : Touch F st0 s) (f_mem : F.mem = true) (f_poison : F.poison = true) (f_benchPoison : F.benchPoison = true) (f_regs : F.regs =
    true) (f_trays : F.trays = true) (f_barriers : F.barriers = true) (f_queues : F.queues = true) (f_cores : F.cores = true) (f_mmu : F.mmu = true) (f_larder : F.larder
    = true) (f_arbs : F.arbs = true) (f_power : F.power = true) (f_errLog : F.errLog = true) (f_planted : F.planted = true) (f_stop : F.stop = true) (f_scrubbing :
    F.scrubbing = true) (f_trained : F.trained = true) (f_host : F.host = true) (f_staon : F.staon = true) (f_hearth : F.hearth = true) :
    Touch F st0 (endDrain s) := by
  unfold endDrain
  repeat' (first | with_reducible (first | assumption  | apply touch_State_setFld | apply touch_endTask | apply touch_State_modHearth | apply touch_startLeave | apply touch_afterLeft | apply touch_foldl | apply touch_foldl_fst) | refine touch_fst (by with_reducible assumption) ?_ | dsimp only | split | intro _)

theorem touch_startRemoval (s : State) (hs : Touch F st0 s) (f_mem : F.mem = true) (f_poison : F.poison = true) (f_benchPoison : F.benchPoison = true) (f_regs :
    F.regs = true) (f_trays : F.trays = true) (f_barriers : F.barriers = true) (f_queues : F.queues = true) (f_cores : F.cores = true) (f_mmu : F.mmu = true) (f_larder :
    F.larder = true) (f_arbs : F.arbs = true) (f_power : F.power = true) (f_errLog : F.errLog = true) (f_planted : F.planted = true) (f_stop : F.stop = true)
    (f_scrubbing : F.scrubbing = true) (f_trained : F.trained = true) (f_host : F.host = true) (f_staon : F.staon = true) (f_hearth : F.hearth = true) :
    Touch F st0 (startRemoval s) := by
  unfold startRemoval
  repeat' (first | with_reducible (first | assumption  | apply touch_stopQueue | apply touch_State_modHearth | apply touch_endDrain | apply touch_foldl | apply touch_foldl_fst) | refine touch_fst (by with_reducible assumption) ?_ | dsimp only | split | intro _)

/-! ### ArbCmd.lean -/

theorem touch_hearthSram (s : State) (ue : Bool) (hs : Touch F st0 s) (f_mem : F.mem = true) (f_poison : F.poison = true) (f_benchPoison : F.benchPoison = true)
    (f_regs : F.regs = true) (f_trays : F.trays = true) (f_barriers : F.barriers = true) (f_queues : F.queues = true) (f_cores : F.cores = true) (f_mmu : F.mmu = true)
    (f_larder : F.larder = true) (f_arbs : F.arbs = true) (f_power : F.power = true) (f_errLog : F.errLog = true) (f_planted : F.planted = true) (f_stop : F.stop = true)
    (f_scrubbing : F.scrubbing = true) (f_trained : F.trained = true) (f_host : F.host = true) (f_staon : F.staon = true) (f_hearth : F.hearth = true) (f_modhw : F.modhw
    = true) :
    Touch F st0 (hearthSram s ue) := by
  unfold hearthSram
  repeat' (first | with_reducible (first | assumption  | apply touch_State_count | apply touch_hearthLog | apply touch_logUnowned | apply touch_hearthReset) | refine touch_fst (by with_reducible assumption) ?_ | dsimp only | split | intro _)

theorem touch_storageError (s : State) (e : ReadErr) (hs : Touch F st0 s) (f_mem : F.mem = true) (f_poison : F.poison = true) (f_benchPoison : F.benchPoison = true)
    (f_regs : F.regs = true) (f_trays : F.trays = true) (f_barriers : F.barriers = true) (f_queues : F.queues = true) (f_cores : F.cores = true) (f_mmu : F.mmu = true)
    (f_larder : F.larder = true) (f_arbs : F.arbs = true) (f_power : F.power = true) (f_errLog : F.errLog = true) (f_planted : F.planted = true) (f_stop : F.stop = true)
    (f_scrubbing : F.scrubbing = true) (f_trained : F.trained = true) (f_host : F.host = true) (f_staon : F.staon = true) (f_hearth : F.hearth = true) (f_modhw : F.modhw
    = true) :
    Touch F st0 (storageError s e) := by
  unfold storageError
  repeat' (first | with_reducible (first | assumption  | apply touch_eccEffect | apply touch_hearthSram) | refine touch_fst (by with_reducible assumption) ?_ | dsimp only | split | intro _)

theorem touch_scrubRead (s : State) (ctrl : Nat) (e : ReadErr) (hs : Touch F st0 s) (f_free : F.free = true) (f_mem : F.mem = true) (f_poison : F.poison = true)
    (f_regs : F.regs = true) (f_larder : F.larder = true) (f_arbs : F.arbs = true) (f_errLog : F.errLog = true) (f_scrubbing : F.scrubbing = true) :
    Touch F st0 (scrubRead s ctrl e) := by
  unfold scrubRead
  repeat' (first | with_reducible (first | assumption  | apply touch_State_setScrubbing | apply touch_setArb | apply touch_scrubLine) | refine touch_fst (by with_reducible assumption) ?_ | dsimp only | split | intro _)

theorem touch_larderBeat (s00 : State) (x : ArbReq) (hs00 : Touch F st0 s00) (f_mem : F.mem = true) (f_poison : F.poison = true) (f_benchPoison : F.benchPoison =
    true) (f_regs : F.regs = true) (f_trays : F.trays = true) (f_barriers : F.barriers = true) (f_queues : F.queues = true) (f_cores : F.cores = true) (f_mmu : F.mmu =
    true) (f_larder : F.larder = true) (f_arbs : F.arbs = true) (f_errLog : F.errLog = true) (f_planted : F.planted = true) (f_stop : F.stop = true) (f_staon : F.staon =
    true) (f_hearth : F.hearth = true) :
    Touch F st0 (larderBeat s00 x) := by
  unfold larderBeat
  repeat' (first | with_reducible (first | assumption  | apply touch_larderServe | apply touch_wrote | apply touch_readBack) | refine touch_fst (by with_reducible assumption) ?_ | dsimp only | split | intro _)

theorem touch_grantEffect (s : State) (site inst : Nat) (err : ReadErr) (hs : Touch F st0 s) (f_free : F.free = true) (f_mem : F.mem = true) (f_poison : F.poison =
    true) (f_benchPoison : F.benchPoison = true) (f_regs : F.regs = true) (f_trays : F.trays = true) (f_barriers : F.barriers = true) (f_queues : F.queues = true)
    (f_cores : F.cores = true) (f_mmu : F.mmu = true) (f_larder : F.larder = true) (f_arbs : F.arbs = true) (f_errLog : F.errLog = true) (f_planted : F.planted = true)
    (f_stop : F.stop = true) (f_scrubbing : F.scrubbing = true) (f_staon : F.staon = true) (f_hearth : F.hearth = true) :
    Touch F st0 (grantEffect s site inst err) := by
  unfold grantEffect
  repeat' (first | with_reducible (first | assumption  | apply touch_State_write | apply touch_arbCycle | apply touch_lpddrRead | apply touch_scrubRead | apply touch_larderBeat) | refine touch_fst (by with_reducible assumption) ?_ | dsimp only | split | intro _)

theorem touch_execArbGrant (site inst : Nat) (err : ReadErr) (s : State) (hs : Touch F st0 s) (f_free : F.free = true) (f_mem : F.mem = true) (f_poison : F.poison =
    true) (f_benchPoison : F.benchPoison = true) (f_regs : F.regs = true) (f_trays : F.trays = true) (f_barriers : F.barriers = true) (f_queues : F.queues = true)
    (f_cores : F.cores = true) (f_mmu : F.mmu = true) (f_larder : F.larder = true) (f_arbs : F.arbs = true) (f_power : F.power = true) (f_errLog : F.errLog = true)
    (f_planted : F.planted = true) (f_stop : F.stop = true) (f_scrubbing : F.scrubbing = true) (f_trained : F.trained = true) (f_host : F.host = true) (f_staon : F.staon
    = true) (f_hearth : F.hearth = true) (f_modhw : F.modhw = true) :
    Ends F st0 (execArbGrant site inst err s) := by
  unfold execArbGrant
  repeat' (first | with_reducible (first | assumption  | apply touch_pumpAll | apply touch_storageError | apply touch_grantEffect | apply ends_next | apply ends_fault) | refine touch_fst (by with_reducible assumption) ?_ | dsimp only | split | intro _)

theorem touch_execArbHeadForced (site inst requester : Nat) (s : State) (hs : Touch F st0 s) (f_arbs : F.arbs = true) :
    Ends F st0 (execArbHeadForced site inst requester s) := by
  unfold execArbHeadForced
  repeat' (first | with_reducible (first | assumption  | apply touch_forceHead | apply ends_next | apply ends_fault) | refine touch_fst (by with_reducible assumption) ?_ | dsimp only | split | intro _)

theorem touch_execScrubPassStart (ctrl : Nat) (s : State) (hs : Touch F st0 s) (f_scrubbing : F.scrubbing = true) :
    Ends F st0 (execScrubPassStart ctrl s) := by
  unfold execScrubPassStart
  repeat' (first | with_reducible (first | assumption  | apply touch_State_setScrubbing | apply ends_next | apply ends_fault) | refine touch_fst (by with_reducible assumption) ?_ | dsimp only | split | intro _)

theorem touch_lpcSplitStore (s : State) (ctrl : Nat) (v : Reg) (hs : Touch F st0 s) (f_regs : F.regs = true) :
    Touch F st0 (lpcSplitStore s ctrl v) := by
  unfold lpcSplitStore
  repeat' (first | with_reducible (first | assumption  | apply touch_State_setFld) | refine touch_fst (by with_reducible assumption) ?_ | dsimp only | split | intro _)

theorem touch_execLpcSplitWrite (ctrl : Nat) (v : Reg) (s : State) (hs : Touch F st0 s) (f_regs : F.regs = true) :
    Ends F st0 (execLpcSplitWrite ctrl v s) := by
  unfold execLpcSplitWrite
  repeat' (first | with_reducible (first | assumption  | apply touch_lpcSplitStore | apply ends_next | apply ends_fault) | refine touch_fst (by with_reducible assumption) ?_ | dsimp only | split | intro _)

theorem touch_larCfgStore (s : State) (v : Reg) (hs : Touch F st0 s) (f_mem : F.mem = true) (f_poison : F.poison = true) (f_regs : F.regs = true) (f_trays : F.trays
    = true) (f_larder : F.larder = true) (f_arbs : F.arbs = true) :
    Touch F st0 (larCfgStore s v) := by
  unfold larCfgStore
  repeat' (first | with_reducible (first | assumption  | apply touch_State_setLarder | apply touch_finishRepart | apply touch_storeWrite) | refine touch_fst (by with_reducible assumption) ?_ | dsimp only | split | intro _)

theorem touch_execLarCfgWrite (v : Reg) (s : State) (hs : Touch F st0 s) (f_mem : F.mem = true) (f_poison : F.poison = true) (f_regs : F.regs = true) (f_trays :
    F.trays = true) (f_larder : F.larder = true) (f_arbs : F.arbs = true) :
    Ends F st0 (execLarCfgWrite v s) := by
  unfold execLarCfgWrite
  repeat' (first | with_reducible (first | assumption  | apply touch_larCfgStore | apply ends_next | apply ends_fault) | refine touch_fst (by with_reducible assumption) ?_ | dsimp only | split | intro _)

theorem touch_execLarRepartDone (s : State) (hs : Touch F st0 s) (f_mem : F.mem = true) (f_poison : F.poison = true) (f_regs : F.regs = true) (f_larder : F.larder =
    true) (f_arbs : F.arbs = true) :
    Ends F st0 (execLarRepartDone s) := by
  unfold execLarRepartDone
  repeat' (first | with_reducible (first | assumption  | apply touch_finishRepart | apply ends_next | apply ends_fault) | refine touch_fst (by with_reducible assumption) ?_ | dsimp only | split | intro _)

theorem touch_mmuInvStore (s : State) (v : Reg) (hs : Touch F st0 s) (f_regs : F.regs = true) (f_mmu : F.mmu = true) :
    Touch F st0 (mmuInvStore s v) := by
  unfold mmuInvStore
  repeat' (first | with_reducible (first | assumption  | apply touch_State_setMmu | apply touch_State_setFld) | refine touch_fst (by with_reducible assumption) ?_ | dsimp only | split | intro _)

theorem touch_execMmuInvGo (v : Reg) (s : State) (hs : Touch F st0 s) (f_regs : F.regs = true) (f_mmu : F.mmu = true) :
    Ends F st0 (execMmuInvGo v s) := by
  unfold execMmuInvGo
  repeat' (first | with_reducible (first | assumption  | apply touch_mmuInvStore | apply ends_next | apply ends_fault) | refine touch_fst (by with_reducible assumption) ?_ | dsimp only | split | intro _)

theorem touch_execMmuInvDone (s : State) (hs : Touch F st0 s) (f_cores : F.cores = true) (f_mmu : F.mmu = true) :
    Ends F st0 (execMmuInvDone s) := by
  unfold execMmuInvDone
  repeat' (first | with_reducible (first | assumption  | apply touch_State_setCores | apply touch_State_setMmu | apply touch_id | apply ends_next | apply ends_fault) | refine touch_fst (by with_reducible assumption) ?_ | dsimp only | split | intro _)

end Sys2Proof.Machine
end

