-- ==== Sys2Proof/Laws/Touch5.lean ====
section
/-! SUPPORT. What each operation of Arrays.lean, RedIn.lean, Fabric.lean, HearthCmd.lean and Hmp.lean may write: one lemma for each, by its own name. -/

namespace Sys2Proof.Machine

set_option linter.all false

variable {F : Parts} {st0 : State}

/-! ### Arrays.lean -/

theorem touch_onArray (c a : Nat) (f : State → State) (s : State) (hf : ∀ x0, Touch F st0 x0 → Touch F st0 (f x0)) (hs : Touch F st0 s) :
    Ends F st0 (onArray c a f s) := by
  unfold onArray
  repeat' (first | with_reducible (first | assumption  | apply hf | apply ends_next | apply ends_fault) | refine touch_fst (by with_reducible assumption) ?_ | dsimp only | split | intro _)

theorem touch_leaveQueue (s : State) (c a : Nat) (x : Step) (hs : Touch F st0 s) (f_cores : F.cores = true) :
    Touch F st0 (leaveQueue s c a x) := by
  unfold leaveQueue
  repeat' (first | with_reducible (first | assumption  | apply touch_State_modArray) | refine touch_fst (by with_reducible assumption) ?_ | dsimp only | split | intro _)

theorem touch_ldwDone (s : State) (c a : Nat) (x : Step) (hs : Touch F st0 s) (f_trays : F.trays = true) (f_cores : F.cores = true) :
    Touch F st0 (ldwDone s c a x) := by
  unfold ldwDone
  repeat' (first | with_reducible (first | assumption  | apply touch_State_modInst | apply touch_stepEnds | apply touch_leaveQueue) | refine touch_fst (by with_reducible assumption) ?_ | dsimp only | split | intro _)

theorem touch_fillTile (c a : Nat) (s : State) (hs : Touch F st0 s) (f_ord : F.ord = true) (f_mem : F.mem = true) (f_poison : F.poison = true) (f_benchPoison :
    F.benchPoison = true) (f_regs : F.regs = true) (f_trays : F.trays = true) (f_queues : F.queues = true) (f_cores : F.cores = true) (f_mmu : F.mmu = true) (f_larder :
    F.larder = true) (f_arbs : F.arbs = true) (f_errLog : F.errLog = true) (f_planted : F.planted = true) (f_staon : F.staon = true) :
    Touch F st0 (fillTile c a s) := by
  unfold fillTile
  repeat' (first | with_reducible (first | assumption  | apply touch_State_count | apply touch_State_modArray | apply touch_State_tick | apply touch_memFault | apply touch_releaseBlock | apply touch_wrote | apply touch_blockOfB | apply touch_ldwDone) | refine touch_fst (by with_reducible assumption) ?_ | dsimp only | split | intro _)

theorem touch_execWeightFillDone (c a : Nat) (s : State) (hs : Touch F st0 s) (f_ord : F.ord = true) (f_mem : F.mem = true) (f_poison : F.poison = true)
    (f_benchPoison : F.benchPoison = true) (f_regs : F.regs = true) (f_trays : F.trays = true) (f_queues : F.queues = true) (f_cores : F.cores = true) (f_mmu : F.mmu =
    true) (f_larder : F.larder = true) (f_arbs : F.arbs = true) (f_errLog : F.errLog = true) (f_planted : F.planted = true) (f_staon : F.staon = true) :
    Ends F st0 (execWeightFillDone c a s) := by
  unfold execWeightFillDone
  repeat' (first | with_reducible (first | assumption  | apply touch_onArray | apply touch_fillTile | apply ends_next | apply ends_fault) | refine touch_fst (by with_reducible assumption) ?_ | dsimp only | split | intro _)

theorem touch_launchRow (c a : Nat) (s : State) (hs : Touch F st0 s) (f_cores : F.cores = true) :
    Touch F st0 (launchRow c a s) := by
  unfold launchRow
  repeat' (first | with_reducible (first | assumption  | apply touch_State_modArray) | refine touch_fst (by with_reducible assumption) ?_ | dsimp only | split | intro _)

theorem touch_execWeightLaunch (c a : Nat) (s : State) (hs : Touch F st0 s) (f_cores : F.cores = true) :
    Ends F st0 (execWeightLaunch c a s) := by
  unfold execWeightLaunch
  repeat' (first | with_reducible (first | assumption  | apply touch_onArray | apply touch_launchRow | apply ends_next | apply ends_fault) | refine touch_fst (by with_reducible assumption) ?_ | dsimp only | split | intro _)

theorem touch_groupRowsOfA (s : State) (t : Nat) (i : Inst) (g : Grid) (sel : Option (List Nat)) (p : PStep) (hs : Touch F st0 s) (f_mem : F.mem = true) (f_poison :
    F.poison = true) (f_benchPoison : F.benchPoison = true) (f_regs : F.regs = true) (f_cores : F.cores = true) (f_mmu : F.mmu = true) (f_larder : F.larder = true)
    (f_arbs : F.arbs = true) (f_planted : F.planted = true) :
    ∀ (y0 : List Nat), Touch F st0 (groupRowsOfA s t i g sel p y0).1 := by
  intro y0
  induction y0 generalizing s with
  | nil =>
    unfold groupRowsOfA
    repeat' (first | with_reducible (first | assumption  | apply touch_andThen | apply touch_rowOfA) | refine touch_fst (by with_reducible assumption) ?_ | dsimp only | split | intro _)
  | cons x l ih =>
    unfold groupRowsOfA
    repeat' (first | with_reducible (first | assumption | apply ih | apply touch_andThen | apply touch_rowOfA) | refine touch_fst (by with_reducible assumption) ?_ | dsimp only | split | intro _)

theorem touch_feedPass (c a u : Nat) (f_ord : F.ord = true) (f_mem : F.mem = true) (f_poison : F.poison = true) (f_benchPoison : F.benchPoison = true) (f_regs :
    F.regs = true) (f_trays : F.trays = true) (f_queues : F.queues = true) (f_cores : F.cores = true) (f_mmu : F.mmu = true) (f_larder : F.larder = true) (f_arbs :
    F.arbs = true) (f_errLog : F.errLog = true) (f_planted : F.planted = true) (f_staon : F.staon = true) :
    ∀ (y0 : Nat) (y1 : State), Touch F st0 y1 → Touch F st0 (feedPass c a u y0 y1) := by
  intro y0
  induction y0 with
  | zero =>
    intros; unfold feedPass
    repeat' (first | with_reducible (first | assumption  | apply touch_State_modArray | apply touch_memFault | apply touch_releaseBlock | apply touch_groupRowsOfA) | refine touch_fst (by with_reducible assumption) ?_ | dsimp only | split | intro _)
  | succ k ih =>
    intros; unfold feedPass
    repeat' (first | with_reducible (first | assumption | apply ih | apply touch_State_modArray | apply touch_memFault | apply touch_releaseBlock | apply touch_groupRowsOfA) | refine touch_fst (by with_reducible assumption) ?_ | dsimp only | split | intro _)

theorem touch_startPass (s : State) (c a u : Nat) (x : Step) (i : Inst) (w : WTile) (resident : Bool) (holes : InjectHoles) (hs : Touch F st0 s) (f_ord : F.ord =
    true) (f_mem : F.mem = true) (f_poison : F.poison = true) (f_benchPoison : F.benchPoison = true) (f_regs : F.regs = true) (f_trays : F.trays = true) (f_barriers :
    F.barriers = true) (f_queues : F.queues = true) (f_cores : F.cores = true) (f_mmu : F.mmu = true) (f_larder : F.larder = true) (f_arbs : F.arbs = true) (f_errLog :
    F.errLog = true) (f_planted : F.planted = true) (f_stop : F.stop = true) (f_staon : F.staon = true) (f_hearth : F.hearth = true) :
    Touch F st0 (startPass s c a u x i w resident holes) := by
  unfold startPass
  repeat' (first | with_reducible (first | assumption  | apply touch_State_count | apply touch_State_modArray | apply touch_State_tick | apply touch_releaseBlock | apply touch_readTray | apply touch_feedPass) | refine touch_fst (by with_reducible assumption) ?_ | dsimp only | split | intro _)

theorem touch_endPass (s : State) (c a u : Nat) (x : Step) (hs : Touch F st0 s) (f_trays : F.trays = true) (f_cores : F.cores = true) :
    Touch F st0 (endPass s c a u x) := by
  unfold endPass
  repeat' (first | with_reducible (first | assumption  | apply touch_State_modArray | apply touch_stepEnds | apply touch_leaveQueue) | refine touch_fst (by with_reducible assumption) ?_ | dsimp only | split | intro _)

theorem touch_injectGroup (s : State) (c a u : Nat) (p : Pass) (hs : Touch F st0 s) (f_ord : F.ord = true) (f_mem : F.mem = true) (f_poison : F.poison = true)
    (f_benchPoison : F.benchPoison = true) (f_regs : F.regs = true) (f_trays : F.trays = true) (f_queues : F.queues = true) (f_cores : F.cores = true) (f_mmu : F.mmu =
    true) (f_larder : F.larder = true) (f_arbs : F.arbs = true) (f_errLog : F.errLog = true) (f_planted : F.planted = true) (f_staon : F.staon = true) :
    Touch F st0 (injectGroup s c a u p) := by
  unfold injectGroup
  repeat' (first | with_reducible (first | assumption  | apply touch_State_count | apply touch_State_modArray | apply touch_State_setPort | apply touch_State_tick | apply touch_State_modInst | apply touch_faultInst | apply touch_wrote | apply touch_feedPass | apply touch_endPass) | refine touch_fst (by with_reducible assumption) ?_ | dsimp only | split | intro _)

theorem touch_arrayInject (c a u : Nat) (holes : InjectHoles) (s : State) (hs : Touch F st0 s) (f_ord : F.ord = true) (f_mem : F.mem = true) (f_poison : F.poison =
    true) (f_benchPoison : F.benchPoison = true) (f_regs : F.regs = true) (f_trays : F.trays = true) (f_barriers : F.barriers = true) (f_queues : F.queues = true)
    (f_cores : F.cores = true) (f_mmu : F.mmu = true) (f_larder : F.larder = true) (f_arbs : F.arbs = true) (f_errLog : F.errLog = true) (f_planted : F.planted = true)
    (f_stop : F.stop = true) (f_staon : F.staon = true) (f_hearth : F.hearth = true) :
    Touch F st0 (arrayInject c a u holes s) := by
  unfold arrayInject
  repeat' (first | with_reducible (first | assumption  | apply touch_State_count | apply touch_State_modArray | apply touch_startPass | apply touch_injectGroup) | refine touch_fst (by with_reducible assumption) ?_ | dsimp only | split | intro _)

theorem touch_execArrayGroupInject (c a sub : Nat) (holes : InjectHoles) (s : State) (hs : Touch F st0 s) (f_ord : F.ord = true) (f_mem : F.mem = true) (f_poison :
    F.poison = true) (f_benchPoison : F.benchPoison = true) (f_regs : F.regs = true) (f_trays : F.trays = true) (f_barriers : F.barriers = true) (f_queues : F.queues =
    true) (f_cores : F.cores = true) (f_mmu : F.mmu = true) (f_larder : F.larder = true) (f_arbs : F.arbs = true) (f_errLog : F.errLog = true) (f_planted : F.planted =
    true) (f_stop : F.stop = true) (f_staon : F.staon = true) (f_hearth : F.hearth = true) :
    Ends F st0 (execArrayGroupInject c a sub holes s) := by
  unfold execArrayGroupInject
  repeat' (first | with_reducible (first | assumption  | apply touch_onArray | apply touch_arrayInject | apply ends_next | apply ends_fault) | refine touch_fst (by with_reducible assumption) ?_ | dsimp only | split | intro _)

/-! ### RedIn.lean -/

theorem touch_redHold (s : State) (p : Nat) (m : StnMsg) (hs : Touch F st0 s) (f_staon : F.staon = true) :
    Touch F st0 (redHold s p m) := by
  unfold redHold
  repeat' (first | with_reducible (first | assumption  | apply touch_State_modStaon) | refine touch_fst (by with_reducible assumption) ?_ | dsimp only | split | intro _)

theorem touch_redLeave (s : State) (p : Nat) (m : StnMsg) (hs : Touch F st0 s) (f_staon : F.staon = true) :
    Touch F st0 (redLeave s p m) := by
  unfold redLeave
  repeat' (first | with_reducible (first | assumption  | apply touch_State_modStaon | apply touch_freeBuffer) | refine touch_fst (by with_reducible assumption) ?_ | dsimp only | split | intro _)

theorem touch_redInto (s : State) (p : Nat) (m : StnMsg) (t : Nat) (i : Inst) (hs : Touch F st0 s) (f_ord : F.ord = true) (f_free : F.free = true) (f_mem : F.mem =
    true) (f_poison : F.poison = true) (f_benchPoison : F.benchPoison = true) (f_regs : F.regs = true) (f_trays : F.trays = true) (f_barriers : F.barriers = true)
    (f_queues : F.queues = true) (f_cores : F.cores = true) (f_mmu : F.mmu = true) (f_larder : F.larder = true) (f_arbs : F.arbs = true) (f_errLog : F.errLog = true)
    (f_planted : F.planted = true) (f_staon : F.staon = true) :
    Touch F st0 (redInto s p m t i) := by
  unfold redInto
  repeat' (first | with_reducible (first | assumption  | apply touch_State_modStaon | apply touch_sendAck | apply touch_sendNack | apply touch_signalled | apply touch_redAdd | apply touch_redHold | apply touch_redLeave) | refine touch_fst (by with_reducible assumption) ?_ | dsimp only | split | intro _)

theorem touch_redTake (s : State) (p : Nat) (m : StnMsg) (hs : Touch F st0 s) (f_ord : F.ord = true) (f_free : F.free = true) (f_mem : F.mem = true) (f_poison :
    F.poison = true) (f_benchPoison : F.benchPoison = true) (f_regs : F.regs = true) (f_trays : F.trays = true) (f_barriers : F.barriers = true) (f_queues : F.queues =
    true) (f_cores : F.cores = true) (f_mmu : F.mmu = true) (f_larder : F.larder = true) (f_arbs : F.arbs = true) (f_errLog : F.errLog = true) (f_planted : F.planted =
    true) (f_staon : F.staon = true) :
    Touch F st0 (redTake s p m) := by
  unfold redTake
  repeat' (first | with_reducible (first | assumption  | apply touch_State_count | apply touch_sendAck | apply touch_sendNack | apply touch_redHold | apply touch_redLeave | apply touch_redInto) | refine touch_fst (by with_reducible assumption) ?_ | dsimp only | split | intro _)

theorem touch_redServe (s : State) (c : Nat) (hs : Touch F st0 s) (f_ord : F.ord = true) (f_free : F.free = true) (f_mem : F.mem = true) (f_poison : F.poison = true)
    (f_benchPoison : F.benchPoison = true) (f_regs : F.regs = true) (f_trays : F.trays = true) (f_barriers : F.barriers = true) (f_queues : F.queues = true) (f_cores :
    F.cores = true) (f_mmu : F.mmu = true) (f_larder : F.larder = true) (f_arbs : F.arbs = true) (f_errLog : F.errLog = true) (f_planted : F.planted = true) (f_staon :
    F.staon = true) :
    Touch F st0 (redServe s c) := by
  unfold redServe
  repeat' (first | with_reducible (first | assumption  | apply touch_redTake) | refine touch_fst (by with_reducible assumption) ?_ | dsimp only | split | intro _)

/-! ### Fabric.lean -/

theorem touch_onPort (p : Nat) (ok : State → Bool) (f : State → State) (s : State) (hf : ∀ x0, Touch F st0 x0 → Touch F st0 (f x0)) (hs : Touch F st0 s) :
    Ends F st0 (onPort p ok f s) := by
  unfold onPort
  repeat' (first | with_reducible (first | assumption  | apply hf | apply ends_next | apply ends_fault) | refine touch_fst (by with_reducible assumption) ?_ | dsimp only | split | intro _)

theorem touch_trainAgain (s : State) (p : Nat) (hs : Touch F st0 s) (f_staon : F.staon = true) :
    Touch F st0 (trainAgain s p) := by
  unfold trainAgain
  repeat' (first | with_reducible (first | assumption  | apply touch_modSport) | refine touch_fst (by with_reducible assumption) ?_ | dsimp only | split | intro _)

theorem touch_execLinkTrainingTimeout (port : Nat) (whole : Bool) (s : State) (hs : Touch F st0 s) (f_regs : F.regs = true) (f_staon : F.staon = true) :
    Ends F st0 (execLinkTrainingTimeout port whole s) := by
  unfold execLinkTrainingTimeout
  repeat' (first | with_reducible (first | assumption  | apply touch_State_count | apply touch_onPort | apply touch_trainAgain | apply ends_next | apply ends_fault) | refine touch_fst (by with_reducible assumption) ?_ | dsimp only | split | intro _)

theorem touch_execFlitLock (port : Nat) (s : State) (hs : Touch F st0 s) (f_staon : F.staon = true) :
    Ends F st0 (execFlitLock port s) := by
  unfold execFlitLock
  repeat' (first | with_reducible (first | assumption  | apply touch_modSport | apply touch_onPort | apply ends_next | apply ends_fault) | refine touch_fst (by with_reducible assumption) ?_ | dsimp only | split | intro _)

theorem touch_execHello (port : Nat) (h : HelloBody) (s : State) (hs : Touch F st0 s) (f_regs : F.regs = true) (f_queues : F.queues = true) (f_staon : F.staon = true) :
    Ends F st0 (execHello port h s) := by
  unfold execHello
  repeat' (first | with_reducible (first | assumption  | apply touch_helloStep | apply touch_onPort | apply ends_next | apply ends_fault) | refine touch_fst (by with_reducible assumption) ?_ | dsimp only | split | intro _)

theorem touch_execHelloSendTimer (port : Nat) (s : State) (hs : Touch F st0 s) (f_staon : F.staon = true) :
    Ends F st0 (execHelloSendTimer port s) := by
  unfold execHelloSendTimer
  repeat' (first | with_reducible (first | assumption  | apply touch_modSport | apply touch_sendHello | apply touch_onPort | apply ends_next | apply ends_fault) | refine touch_fst (by with_reducible assumption) ?_ | dsimp only | split | intro _)

theorem touch_execHelloTimeout (port : Nat) (s : State) (hs : Touch F st0 s) (f_regs : F.regs = true) (f_trays : F.trays = true) (f_queues : F.queues = true)
    (f_cores : F.cores = true) (f_mmu : F.mmu = true) (f_arbs : F.arbs = true) (f_errLog : F.errLog = true) (f_staon : F.staon = true) :
    Ends F st0 (execHelloTimeout port s) := by
  unfold execHelloTimeout
  repeat' (first | with_reducible (first | assumption  | apply touch_portDown | apply touch_onPort | apply ends_next | apply ends_fault) | refine touch_fst (by with_reducible assumption) ?_ | dsimp only | split | intro _)

theorem touch_execPortRetrainTimer (port : Nat) (s : State) (hs : Touch F st0 s) (f_staon : F.staon = true) :
    Ends F st0 (execPortRetrainTimer port s) := by
  unfold execPortRetrainTimer
  repeat' (first | with_reducible (first | assumption  | apply touch_modSport | apply touch_onPort | apply ends_next | apply ends_fault) | refine touch_fst (by with_reducible assumption) ?_ | dsimp only | split | intro _)

theorem touch_execFlitReceive (port : Nat) (f : Flit) (s : State) (hs : Touch F st0 s) (f_regs : F.regs = true) (f_trays : F.trays = true) (f_queues : F.queues =
    true) (f_cores : F.cores = true) (f_mmu : F.mmu = true) (f_arbs : F.arbs = true) (f_errLog : F.errLog = true) (f_staon : F.staon = true) :
    Ends F st0 (execFlitReceive port f s) := by
  unfold execFlitReceive
  repeat' (first | with_reducible (first | assumption  | apply touch_flitStep | apply touch_onPort | apply ends_next | apply ends_fault) | refine touch_fst (by with_reducible assumption) ?_ | dsimp only | split | intro _)

theorem touch_execAckseqStallTimer (port : Nat) (s : State) (hs : Touch F st0 s) (f_regs : F.regs = true) (f_trays : F.trays = true) (f_queues : F.queues = true)
    (f_cores : F.cores = true) (f_mmu : F.mmu = true) (f_arbs : F.arbs = true) (f_errLog : F.errLog = true) (f_staon : F.staon = true) :
    Ends F st0 (execAckseqStallTimer port s) := by
  unfold execAckseqStallTimer
  repeat' (first | with_reducible (first | assumption  | apply touch_replay | apply touch_onPort | apply ends_next | apply ends_fault) | refine touch_fst (by with_reducible assumption) ?_ | dsimp only | split | intro _)

theorem touch_stnBuffer (s : State) (hs : Touch F st0 s) (f_poison : F.poison = true) (f_benchPoison : F.benchPoison = true) (f_regs : F.regs = true) (f_trays :
    F.trays = true) (f_barriers : F.barriers = true) (f_queues : F.queues = true) (f_cores : F.cores = true) (f_mmu : F.mmu = true) (f_larder : F.larder = true) (f_arbs
    : F.arbs = true) (f_errLog : F.errLog = true) (f_stop : F.stop = true) (f_staon : F.staon = true) (f_hearth : F.hearth = true) :
    Touch F st0 (stnBuffer s).1 := by
  unfold stnBuffer
  repeat' (first | with_reducible (first | assumption  | apply touch_State_setFld | apply touch_eccEffect) | refine touch_fst (by with_reducible assumption) ?_ | dsimp only | split | intro _)

theorem touch_arrives (port type : Nat) (m : StnMsg) (f : State → StnMsg → State) (s : State) (hf : ∀ x0 x1, Touch F st0 x0 → Touch F st0 (f x0 x1)) (hs : Touch F
    st0 s) (f_poison : F.poison = true) (f_benchPoison : F.benchPoison = true) (f_regs : F.regs = true) (f_trays : F.trays = true) (f_barriers : F.barriers = true)
    (f_queues : F.queues = true) (f_cores : F.cores = true) (f_mmu : F.mmu = true) (f_larder : F.larder = true) (f_arbs : F.arbs = true) (f_errLog : F.errLog = true)
    (f_stop : F.stop = true) (f_staon : F.staon = true) (f_hearth : F.hearth = true) :
    Ends F st0 (arrives port type m f s) := by
  unfold arrives
  repeat' (first | with_reducible (first | assumption  | apply touch_freeBuffer | apply touch_dropMsg | apply touch_onPort | apply touch_stnBuffer | apply hf | apply ends_next | apply ends_fault) | refine touch_fst (by with_reducible assumption) ?_ | dsimp only | split | intro _)

theorem touch_unicast (port : Nat) (f : State → StnMsg → State) (s : State) (m : StnMsg) (hf : ∀ x0 x1, Touch F st0 x0 → Touch F st0 (f x0 x1)) (hs : Touch F st0 s)
    (f_ord : F.ord = true) (f_regs : F.regs = true) (f_staon : F.staon = true) :
    Touch F st0 (unicast port f s m) := by
  unfold unicast
  repeat' (first | with_reducible (first | assumption  | apply touch_freeBuffer | apply touch_forward | apply hf) | refine touch_fst (by with_reducible assumption) ?_ | dsimp only | split | intro _)

theorem touch_execMessageForward (port : Nat) (m : StnMsg) (s : State) (hs : Touch F st0 s) (f_ord : F.ord = true) (f_poison : F.poison = true) (f_benchPoison :
    F.benchPoison = true) (f_regs : F.regs = true) (f_trays : F.trays = true) (f_barriers : F.barriers = true) (f_queues : F.queues = true) (f_cores : F.cores = true)
    (f_mmu : F.mmu = true) (f_larder : F.larder = true) (f_arbs : F.arbs = true) (f_errLog : F.errLog = true) (f_stop : F.stop = true) (f_staon : F.staon = true)
    (f_hearth : F.hearth = true) :
    Ends F st0 (execMessageForward port m s) := by
  unfold execMessageForward
  repeat' (first | with_reducible (first | assumption  | apply touch_freeBuffer | apply touch_dropMsg | apply touch_forward | apply touch_forwardMgt | apply touch_arrives | apply ends_next | apply ends_fault) | refine touch_fst (by with_reducible assumption) ?_ | dsimp only | split | intro _)

theorem touch_execWrite (port : Nat) (m : StnMsg) (s : State) (hs : Touch F st0 s) (f_ord : F.ord = true) (f_mem : F.mem = true) (f_poison : F.poison = true)
    (f_benchPoison : F.benchPoison = true) (f_regs : F.regs = true) (f_trays : F.trays = true) (f_barriers : F.barriers = true) (f_queues : F.queues = true) (f_cores :
    F.cores = true) (f_mmu : F.mmu = true) (f_larder : F.larder = true) (f_arbs : F.arbs = true) (f_errLog : F.errLog = true) (f_planted : F.planted = true) (f_stop :
    F.stop = true) (f_host : F.host = true) (f_staon : F.staon = true) (f_hearth : F.hearth = true) (f_hostTx : F.hostTx = true) :
    Ends F st0 (execWrite port m s) := by
  unfold execWrite
  repeat' (first | with_reducible (first | assumption  | apply touch_sendNack | apply touch_deliverAndAnswer | apply touch_freeBuffer | apply touch_dropMsg | apply touch_arrives | apply touch_unicast | apply ends_next | apply ends_fault) | refine touch_fst (by with_reducible assumption) ?_ | dsimp only | split | intro _)

theorem touch_forwardMcast (s : State) (port : Nat) (m : StnMsg) (hs : Touch F st0 s) (f_ord : F.ord = true) (f_regs : F.regs = true) (f_staon : F.staon = true) :
    Touch F st0 (forwardMcast s port m) := by
  unfold forwardMcast
  repeat' (first | with_reducible (first | assumption  | apply touch_passOn | apply touch_sendNack | apply touch_freeBuffer | apply touch_dropMsg) | refine touch_fst (by with_reducible assumption) ?_ | dsimp only | split | intro _)

theorem touch_execMcast (port : Nat) (m : StnMsg) (s : State) (hs : Touch F st0 s) (f_ord : F.ord = true) (f_mem : F.mem = true) (f_poison : F.poison = true)
    (f_benchPoison : F.benchPoison = true) (f_regs : F.regs = true) (f_trays : F.trays = true) (f_barriers : F.barriers = true) (f_queues : F.queues = true) (f_cores :
    F.cores = true) (f_mmu : F.mmu = true) (f_larder : F.larder = true) (f_arbs : F.arbs = true) (f_errLog : F.errLog = true) (f_planted : F.planted = true) (f_stop :
    F.stop = true) (f_host : F.host = true) (f_staon : F.staon = true) (f_hearth : F.hearth = true) (f_hostTx : F.hostTx = true) :
    Ends F st0 (execMcast port m s) := by
  unfold execMcast
  repeat' (first | with_reducible (first | assumption  | apply touch_sendNack | apply touch_deliverAndAnswer | apply touch_freeBuffer | apply touch_dropMsg | apply touch_arrives | apply touch_forwardMcast | apply ends_next | apply ends_fault) | refine touch_fst (by with_reducible assumption) ?_ | dsimp only | split | intro _)

theorem touch_execRed (port : Nat) (m : StnMsg) (s : State) (hs : Touch F st0 s) (f_ord : F.ord = true) (f_free : F.free = true) (f_mem : F.mem = true) (f_poison :
    F.poison = true) (f_benchPoison : F.benchPoison = true) (f_regs : F.regs = true) (f_trays : F.trays = true) (f_barriers : F.barriers = true) (f_queues : F.queues =
    true) (f_cores : F.cores = true) (f_mmu : F.mmu = true) (f_larder : F.larder = true) (f_arbs : F.arbs = true) (f_errLog : F.errLog = true) (f_planted : F.planted =
    true) (f_stop : F.stop = true) (f_staon : F.staon = true) (f_hearth : F.hearth = true) :
    Ends F st0 (execRed port m s) := by
  unfold execRed
  repeat' (first | with_reducible (first | assumption  | apply touch_sendNack | apply touch_freeBuffer | apply touch_dropMsg | apply touch_forward | apply touch_redTake | apply touch_arrives | apply ends_next | apply ends_fault) | refine touch_fst (by with_reducible assumption) ?_ | dsimp only | split | intro _)

theorem touch_execAck (port : Nat) (m : StnMsg) (s : State) (hs : Touch F st0 s) (f_ord : F.ord = true) (f_poison : F.poison = true) (f_benchPoison : F.benchPoison =
    true) (f_regs : F.regs = true) (f_trays : F.trays = true) (f_barriers : F.barriers = true) (f_queues : F.queues = true) (f_cores : F.cores = true) (f_mmu : F.mmu =
    true) (f_larder : F.larder = true) (f_arbs : F.arbs = true) (f_errLog : F.errLog = true) (f_stop : F.stop = true) (f_staon : F.staon = true) (f_hearth : F.hearth =
    true) :
    Ends F st0 (execAck port m s) := by
  unfold execAck
  repeat' (first | with_reducible (first | assumption  | apply touch_ackReceived | apply touch_arrives | apply touch_unicast | apply ends_next | apply ends_fault) | refine touch_fst (by with_reducible assumption) ?_ | dsimp only | split | intro _)

theorem touch_execNack (port : Nat) (m : StnMsg) (s : State) (hs : Touch F st0 s) (f_ord : F.ord = true) (f_poison : F.poison = true) (f_benchPoison : F.benchPoison
    = true) (f_regs : F.regs = true) (f_trays : F.trays = true) (f_barriers : F.barriers = true) (f_queues : F.queues = true) (f_cores : F.cores = true) (f_mmu : F.mmu =
    true) (f_larder : F.larder = true) (f_arbs : F.arbs = true) (f_errLog : F.errLog = true) (f_stop : F.stop = true) (f_staon : F.staon = true) (f_hearth : F.hearth =
    true) :
    Ends F st0 (execNack port m s) := by
  unfold execNack
  repeat' (first | with_reducible (first | assumption  | apply touch_nackReceived | apply touch_arrives | apply touch_unicast | apply ends_next | apply ends_fault) | refine touch_fst (by with_reducible assumption) ?_ | dsimp only | split | intro _)

theorem touch_execNotice (port : Nat) (m : StnMsg) (s : State) (hs : Touch F st0 s) (f_ord : F.ord = true) (f_poison : F.poison = true) (f_benchPoison :
    F.benchPoison = true) (f_regs : F.regs = true) (f_trays : F.trays = true) (f_barriers : F.barriers = true) (f_queues : F.queues = true) (f_cores : F.cores = true)
    (f_mmu : F.mmu = true) (f_larder : F.larder = true) (f_arbs : F.arbs = true) (f_errLog : F.errLog = true) (f_stop : F.stop = true) (f_staon : F.staon = true)
    (f_hearth : F.hearth = true) :
    Ends F st0 (execNotice port m s) := by
  unfold execNotice
  repeat' (first | with_reducible (first | assumption  | apply touch_fabEvent | apply touch_arrives | apply touch_unicast | apply ends_next | apply ends_fault) | refine touch_fst (by with_reducible assumption) ?_ | dsimp only | split | intro _)

theorem touch_execLeave (port : Nat) (s : State) (hs : Touch F st0 s) (f_regs : F.regs = true) (f_trays : F.trays = true) (f_queues : F.queues = true) (f_cores :
    F.cores = true) (f_mmu : F.mmu = true) (f_arbs : F.arbs = true) (f_errLog : F.errLog = true) (f_staon : F.staon = true) :
    Ends F st0 (execLeave port s) := by
  unfold execLeave
  repeat' (first | with_reducible (first | assumption  | apply touch_modSport | apply touch_portLost | apply touch_onPort | apply ends_next | apply ends_fault) | refine touch_fst (by with_reducible assumption) ?_ | dsimp only | split | intro _)

theorem touch_e2eExpire (id : Nat) (s : State) (hs : Touch F st0 s) (f_regs : F.regs = true) (f_trays : F.trays = true) (f_queues : F.queues = true) (f_cores :
    F.cores = true) (f_mmu : F.mmu = true) (f_arbs : F.arbs = true) (f_errLog : F.errLog = true) (f_staon : F.staon = true) :
    Touch F st0 (e2eExpire id s) := by
  unfold e2eExpire
  repeat' (first | with_reducible (first | assumption  | apply touch_State_count | apply touch_State_modStaon | apply touch_resend | apply touch_giveUp | apply touch_foldl | apply touch_foldl_fst | apply touch_id) | refine touch_fst (by with_reducible assumption) ?_ | dsimp only | split | intro _)

theorem touch_execE2eResendTimer (msgid : Nat) (s : State) (hs : Touch F st0 s) (f_regs : F.regs = true) (f_trays : F.trays = true) (f_queues : F.queues = true)
    (f_cores : F.cores = true) (f_mmu : F.mmu = true) (f_arbs : F.arbs = true) (f_errLog : F.errLog = true) (f_staon : F.staon = true) :
    Ends F st0 (execE2eResendTimer msgid s) := by
  unfold execE2eResendTimer
  repeat' (first | with_reducible (first | assumption  | apply touch_e2eExpire | apply ends_next | apply ends_fault) | refine touch_fst (by with_reducible assumption) ?_ | dsimp only | split | intro _)

theorem touch_busyRetry (id : Nat) (s : State) (hs : Touch F st0 s) (f_regs : F.regs = true) (f_staon : F.staon = true) :
    Touch F st0 (busyRetry id s) := by
  unfold busyRetry
  repeat' (first | with_reducible (first | assumption  | apply touch_State_modStaon | apply touch_resend | apply touch_foldl | apply touch_foldl_fst | apply touch_id) | refine touch_fst (by with_reducible assumption) ?_ | dsimp only | split | intro _)

theorem touch_execBusyRetryTimer (msgid : Nat) (s : State) (hs : Touch F st0 s) (f_regs : F.regs = true) (f_staon : F.staon = true) :
    Ends F st0 (execBusyRetryTimer msgid s) := by
  unfold execBusyRetryTimer
  repeat' (first | with_reducible (first | assumption  | apply touch_busyRetry | apply ends_next | apply ends_fault) | refine touch_fst (by with_reducible assumption) ?_ | dsimp only | split | intro _)

theorem touch_skewExpire (id : Nat) (s : State) (hs : Touch F st0 s) (f_regs : F.regs = true) (f_trays : F.trays = true) (f_staon : F.staon = true) :
    Touch F st0 (skewExpire id s) := by
  unfold skewExpire
  repeat' (first | with_reducible (first | assumption  | apply touch_detach | apply touch_id) | refine touch_fst (by with_reducible assumption) ?_ | dsimp only | split | intro _)

theorem touch_execMcastSkewExpire (msgid : Nat) (s : State) (hs : Touch F st0 s) (f_regs : F.regs = true) (f_trays : F.trays = true) (f_staon : F.staon = true) :
    Ends F st0 (execMcastSkewExpire msgid s) := by
  unfold execMcastSkewExpire
  repeat' (first | with_reducible (first | assumption  | apply touch_skewExpire | apply ends_next | apply ends_fault) | refine touch_fst (by with_reducible assumption) ?_ | dsimp only | split | intro _)

theorem touch_execDedupPairExpire (src msgid : Nat) (s : State) (hs : Touch F st0 s) (f_staon : F.staon = true) :
    Ends F st0 (execDedupPairExpire src msgid s) := by
  unfold execDedupPairExpire
  repeat' (first | with_reducible (first | assumption  | apply touch_State_modStaon | apply ends_next | apply ends_fault) | refine touch_fst (by with_reducible assumption) ?_ | dsimp only | split | intro _)

theorem touch_execLeaveComplete (s : State) (hs : Touch F st0 s) (f_mem : F.mem = true) (f_poison : F.poison = true) (f_benchPoison : F.benchPoison = true) (f_regs :
    F.regs = true) (f_trays : F.trays = true) (f_barriers : F.barriers = true) (f_queues : F.queues = true) (f_cores : F.cores = true) (f_mmu : F.mmu = true) (f_larder :
    F.larder = true) (f_arbs : F.arbs = true) (f_power : F.power = true) (f_errLog : F.errLog = true) (f_planted : F.planted = true) (f_stop : F.stop = true)
    (f_scrubbing : F.scrubbing = true) (f_trained : F.trained = true) (f_host : F.host = true) (f_staon : F.staon = true) (f_hearth : F.hearth = true) :
    Ends F st0 (execLeaveComplete s) := by
  unfold execLeaveComplete
  repeat' (first | with_reducible (first | assumption  | apply touch_finishLeave | apply touch_afterLeft | apply ends_next | apply ends_fault) | refine touch_fst (by with_reducible assumption) ?_ | dsimp only | split | intro _)

theorem touch_stnCfgStore (s : State) (v : Reg) (hs : Touch F st0 s) (f_regs : F.regs = true) (f_trays : F.trays = true) (f_queues : F.queues = true) (f_cores :
    F.cores = true) (f_mmu : F.mmu = true) (f_arbs : F.arbs = true) (f_errLog : F.errLog = true) (f_staon : F.staon = true) :
    Touch F st0 (stnCfgStore s v) := by
  unfold stnCfgStore
  repeat' (first | with_reducible (first | assumption  | apply touch_storeWrite | apply touch_adjustPorts | apply touch_startLeave) | refine touch_fst (by with_reducible assumption) ?_ | dsimp only | split | intro _)

theorem touch_execStnLeave (v : Reg) (s : State) (hs : Touch F st0 s) (f_regs : F.regs = true) (f_trays : F.trays = true) (f_queues : F.queues = true) (f_cores :
    F.cores = true) (f_mmu : F.mmu = true) (f_arbs : F.arbs = true) (f_errLog : F.errLog = true) (f_staon : F.staon = true) :
    Ends F st0 (execStnLeave v s) := by
  unfold execStnLeave
  repeat' (first | with_reducible (first | assumption  | apply touch_stnCfgStore | apply ends_next | apply ends_fault) | refine touch_fst (by with_reducible assumption) ?_ | dsimp only | split | intro _)

theorem touch_stnAddrStore (s : State) (v : Reg) (hs : Touch F st0 s) (f_regs : F.regs = true) (f_staon : F.staon = true) :
    Touch F st0 (stnAddrStore s v) := by
  unfold stnAddrStore
  repeat' (first | with_reducible (first | assumption  | apply touch_recordRefused | apply touch_State_modStaon | apply touch_sendHello | apply touch_foldl | apply touch_foldl_fst) | refine touch_fst (by with_reducible assumption) ?_ | dsimp only | split | intro _)

theorem touch_execStnAddrWrite (v : Reg) (s : State) (hs : Touch F st0 s) (f_regs : F.regs = true) (f_staon : F.staon = true) :
    Ends F st0 (execStnAddrWrite v s) := by
  unfold execStnAddrWrite
  repeat' (first | with_reducible (first | assumption  | apply touch_stnAddrStore | apply ends_next | apply ends_fault) | refine touch_fst (by with_reducible assumption) ?_ | dsimp only | split | intro _)

theorem touch_mbxSend (s : State) (hs : Touch F st0 s) (f_regs : F.regs = true) (f_staon : F.staon = true) :
    Touch F st0 (mbxSend s) := by
  unfold mbxSend
  repeat' (first | with_reducible (first | assumption  | apply touch_State_modStaon | apply touch_portSend | apply touch_takeMsgid | apply touch_dropMsg | apply touch_id) | refine touch_fst (by with_reducible assumption) ?_ | dsimp only | split | intro _)

theorem touch_mbxStore (s : State) (v : Reg) (hs : Touch F st0 s) (f_regs : F.regs = true) (f_staon : F.staon = true) :
    Touch F st0 (mbxStore s v) := by
  unfold mbxStore
  repeat' (first | with_reducible (first | assumption  | apply touch_State_setFld | apply touch_mbxSend) | refine touch_fst (by with_reducible assumption) ?_ | dsimp only | split | intro _)

theorem touch_execStnMbxGo (v : Reg) (s : State) (hs : Touch F st0 s) (f_regs : F.regs = true) (f_staon : F.staon = true) :
    Ends F st0 (execStnMbxGo v s) := by
  unfold execStnMbxGo
  repeat' (first | with_reducible (first | assumption  | apply touch_mbxStore | apply ends_next | apply ends_fault) | refine touch_fst (by with_reducible assumption) ?_ | dsimp only | split | intro _)

/-! ### HearthCmd.lean -/

theorem touch_hearthWhen (s : State) (ok : Bool) (f : State → State) (hs : Touch F st0 s) (hf : ∀ x0, Touch F st0 x0 → Touch F st0 (f x0)) :
    Ends F st0 (hearthWhen s ok f) := by
  unfold hearthWhen
  repeat' (first | with_reducible (first | assumption  | apply hf | apply ends_next | apply ends_fault) | refine touch_fst (by with_reducible assumption) ?_ | dsimp only | split | intro _)

theorem touch_execPllLock (s : State) (hs : Touch F st0 s) (f_power : F.power = true) :
    Ends F st0 (execPllLock s) := by
  unfold execPllLock
  repeat' (first | with_reducible (first | assumption  | apply touch_State_modPower | apply touch_releaseDividers | apply touch_hearthWhen | apply ends_next | apply ends_fault) | refine touch_fst (by with_reducible assumption) ?_ | dsimp only | split | intro _)

theorem touch_execPllUnlock (s : State) (hs : Touch F st0 s) (f_mem : F.mem = true) (f_poison : F.poison = true) (f_benchPoison : F.benchPoison = true) (f_regs :
    F.regs = true) (f_trays : F.trays = true) (f_barriers : F.barriers = true) (f_queues : F.queues = true) (f_cores : F.cores = true) (f_mmu : F.mmu = true) (f_larder :
    F.larder = true) (f_arbs : F.arbs = true) (f_power : F.power = true) (f_errLog : F.errLog = true) (f_planted : F.planted = true) (f_stop : F.stop = true)
    (f_scrubbing : F.scrubbing = true) (f_trained : F.trained = true) (f_host : F.host = true) (f_staon : F.staon = true) (f_hearth : F.hearth = true) (f_modhw : F.modhw
    = true) :
    Ends F st0 (execPllUnlock s) := by
  unfold execPllUnlock
  repeat' (first | with_reducible (first | assumption  | apply touch_State_count | apply touch_State_modPower | apply touch_hearthEvent | apply touch_moduleReset | apply touch_hearthWhen | apply ends_next | apply ends_fault) | refine touch_fst (by with_reducible assumption) ?_ | dsimp only | split | intro _)

theorem touch_execThermalShutdown (s : State) (hs : Touch F st0 s) (f_mem : F.mem = true) (f_poison : F.poison = true) (f_benchPoison : F.benchPoison = true) (f_regs
    : F.regs = true) (f_trays : F.trays = true) (f_barriers : F.barriers = true) (f_queues : F.queues = true) (f_cores : F.cores = true) (f_mmu : F.mmu = true) (f_larder
    : F.larder = true) (f_arbs : F.arbs = true) (f_power : F.power = true) (f_errLog : F.errLog = true) (f_planted : F.planted = true) (f_stop : F.stop = true)
    (f_scrubbing : F.scrubbing = true) (f_trained : F.trained = true) (f_host : F.host = true) (f_staon : F.staon = true) (f_hearth : F.hearth = true) :
    Ends F st0 (execThermalShutdown s) := by
  unfold execThermalShutdown
  repeat' (first | with_reducible (first | assumption  | apply touch_State_modHearth | apply touch_hearthEvent | apply touch_mainOff | apply touch_hearthWhen | apply ends_next | apply ends_fault) | refine touch_fst (by with_reducible assumption) ?_ | dsimp only | split | intro _)

theorem touch_execThermalRestartTimer (s : State) (hs : Touch F st0 s) (f_mem : F.mem = true) (f_poison : F.poison = true) (f_benchPoison : F.benchPoison = true)
    (f_regs : F.regs = true) (f_trays : F.trays = true) (f_barriers : F.barriers = true) (f_queues : F.queues = true) (f_cores : F.cores = true) (f_mmu : F.mmu = true)
    (f_larder : F.larder = true) (f_arbs : F.arbs = true) (f_power : F.power = true) (f_errLog : F.errLog = true) (f_planted : F.planted = true) (f_stop : F.stop = true)
    (f_scrubbing : F.scrubbing = true) (f_trained : F.trained = true) (f_host : F.host = true) (f_staon : F.staon = true) (f_hearth : F.hearth = true) (f_modhw : F.modhw
    = true) :
    Ends F st0 (execThermalRestartTimer s) := by
  unfold execThermalRestartTimer
  repeat' (first | with_reducible (first | assumption  | apply touch_State_modHearth | apply touch_moduleReset | apply touch_hearthWhen | apply ends_next | apply ends_fault) | refine touch_fst (by with_reducible assumption) ?_ | dsimp only | split | intro _)

theorem touch_execPowerOn (s : State) (hs : Touch F st0 s) (f_mem : F.mem = true) (f_poison : F.poison = true) (f_benchPoison : F.benchPoison = true) (f_regs :
    F.regs = true) (f_trays : F.trays = true) (f_barriers : F.barriers = true) (f_queues : F.queues = true) (f_cores : F.cores = true) (f_mmu : F.mmu = true) (f_larder :
    F.larder = true) (f_arbs : F.arbs = true) (f_power : F.power = true) (f_errLog : F.errLog = true) (f_planted : F.planted = true) (f_stop : F.stop = true)
    (f_scrubbing : F.scrubbing = true) (f_trained : F.trained = true) (f_host : F.host = true) (f_staon : F.staon = true) (f_hearth : F.hearth = true) (f_modhw : F.modhw
    = true) :
    Ends F st0 (execPowerOn s) := by
  unfold execPowerOn
  repeat' (first | with_reducible (first | assumption  | apply touch_powerOnReset | apply ends_next | apply ends_fault) | refine touch_fst (by with_reducible assumption) ?_ | dsimp only | split | intro _)

theorem touch_execHearthWatchdog (s : State) (hs : Touch F st0 s) (f_mem : F.mem = true) (f_poison : F.poison = true) (f_benchPoison : F.benchPoison = true) (f_regs
    : F.regs = true) (f_trays : F.trays = true) (f_barriers : F.barriers = true) (f_queues : F.queues = true) (f_cores : F.cores = true) (f_mmu : F.mmu = true) (f_larder
    : F.larder = true) (f_arbs : F.arbs = true) (f_power : F.power = true) (f_errLog : F.errLog = true) (f_planted : F.planted = true) (f_stop : F.stop = true)
    (f_scrubbing : F.scrubbing = true) (f_trained : F.trained = true) (f_host : F.host = true) (f_staon : F.staon = true) (f_hearth : F.hearth = true) (f_modhw : F.modhw
    = true) :
    Ends F st0 (execHearthWatchdog s) := by
  unfold execHearthWatchdog
  repeat' (first | with_reducible (first | assumption  | apply touch_hearthReset | apply touch_hearthWhen | apply ends_next | apply ends_fault) | refine touch_fst (by with_reducible assumption) ?_ | dsimp only | split | intro _)

theorem touch_execBoot (env : BootEnv) (s : State) (hs : Touch F st0 s) (f_mem : F.mem = true) (f_poison : F.poison = true) (f_benchPoison : F.benchPoison = true)
    (f_regs : F.regs = true) (f_trays : F.trays = true) (f_barriers : F.barriers = true) (f_queues : F.queues = true) (f_cores : F.cores = true) (f_mmu : F.mmu = true)
    (f_larder : F.larder = true) (f_arbs : F.arbs = true) (f_power : F.power = true) (f_errLog : F.errLog = true) (f_planted : F.planted = true) (f_stop : F.stop = true)
    (f_scrubbing : F.scrubbing = true) (f_trained : F.trained = true) (f_host : F.host = true) (f_staon : F.staon = true) (f_hearth : F.hearth = true) (f_modhw : F.modhw
    = true) :
    Ends F st0 (execBoot env s) := by
  unfold execBoot
  repeat' (first | with_reducible (first | assumption  | apply touch_bootStep | apply touch_hearthWhen | apply ends_next | apply ends_fault) | refine touch_fst (by with_reducible assumption) ?_ | dsimp only | split | intro _)

theorem touch_execBootBackoffExpire (s : State) (hs : Touch F st0 s) (f_hearth : F.hearth = true) :
    Ends F st0 (execBootBackoffExpire s) := by
  unfold execBootBackoffExpire
  repeat' (first | with_reducible (first | assumption  | apply touch_State_modHearth | apply touch_hearthWhen | apply ends_next | apply ends_fault) | refine touch_fst (by with_reducible assumption) ?_ | dsimp only | split | intro _)

theorem touch_execImageRequestResend (s : State) (hs : Touch F st0 s) (f_hearth : F.hearth = true) :
    Ends F st0 (execImageRequestResend s) := by
  unfold execImageRequestResend
  repeat' (first | with_reducible (first | assumption  | apply touch_askImage | apply touch_hearthWhen | apply ends_next | apply ends_fault) | refine touch_fst (by with_reducible assumption) ?_ | dsimp only | split | intro _)

theorem touch_execSidebandTimeout (s : State) (hs : Touch F st0 s) (f_hearth : F.hearth = true) :
    Ends F st0 (execSidebandTimeout s) := by
  unfold execSidebandTimeout
  repeat' (first | with_reducible (first | assumption  | apply touch_State_modHearth | apply touch_hearthLog | apply touch_nextSource | apply touch_hearthWhen | apply ends_next | apply ends_fault) | refine touch_fst (by with_reducible assumption) ?_ | dsimp only | split | intro _)

theorem touch_execAttestReportDone (s : State) (hs : Touch F st0 s) (f_hearth : F.hearth = true) :
    Ends F st0 (execAttestReportDone s) := by
  unfold execAttestReportDone
  repeat' (first | with_reducible (first | assumption  | apply touch_State_modHearth | apply touch_hearthWhen | apply ends_next | apply ends_fault) | refine touch_fst (by with_reducible assumption) ?_ | dsimp only | split | intro _)

theorem touch_execCalOscillatorStop (s : State) (hs : Touch F st0 s) (f_hearth : F.hearth = true) :
    Ends F st0 (execCalOscillatorStop s) := by
  unfold execCalOscillatorStop
  repeat' (first | with_reducible (first | assumption  | apply touch_State_modHearth | apply ends_next | apply ends_fault) | refine touch_fst (by with_reducible assumption) ?_ | dsimp only | split | intro _)

theorem touch_execStnMgtWrEnRetry (s : State) (hs : Touch F st0 s) (f_regs : F.regs = true) (f_trays : F.trays = true) (f_hearth : F.hearth = true) :
    Ends F st0 (execStnMgtWrEnRetry s) := by
  unfold execStnMgtWrEnRetry
  repeat' (first | with_reducible (first | assumption  | apply touch_writeMgtEn | apply touch_hearthWhen | apply ends_next | apply ends_fault) | refine touch_fst (by with_reducible assumption) ?_ | dsimp only | split | intro _)

theorem touch_execArpRequest (ipv4 : Nat) (s : State) (hs : Touch F st0 s) (f_hearth : F.hearth = true) :
    Ends F st0 (execArpRequest ipv4 s) := by
  unfold execArpRequest
  repeat' (first | with_reducible (first | assumption  | apply touch_State_modHearth | apply touch_hearthWhen | apply ends_next | apply ends_fault) | refine touch_fst (by with_reducible assumption) ?_ | dsimp only | split | intro _)

theorem touch_execNeighborSolicitation (ipv6 : Nat) (s : State) (hs : Touch F st0 s) (f_hearth : F.hearth = true) :
    Ends F st0 (execNeighborSolicitation ipv6 s) := by
  unfold execNeighborSolicitation
  repeat' (first | with_reducible (first | assumption  | apply touch_State_modHearth | apply touch_hearthWhen | apply ends_next | apply ends_fault) | refine touch_fst (by with_reducible assumption) ?_ | dsimp only | split | intro _)

theorem touch_smbAnswer (s : State) (cmd : Nat) (bs : List Byte) (hs : Touch F st0 s) (f_hearth : F.hearth = true) :
    Touch F st0 (smbAnswer s cmd bs) := by
  unfold smbAnswer
  repeat' (first | with_reducible (first | assumption  | apply touch_State_modHearth) | refine touch_fst (by with_reducible assumption) ?_ | dsimp only | split | intro _)

theorem touch_execSmbFruOffsetSet (off : Nat) (s : State) (hs : Touch F st0 s) (f_hearth : F.hearth = true) :
    Ends F st0 (execSmbFruOffsetSet off s) := by
  unfold execSmbFruOffsetSet
  repeat' (first | with_reducible (first | assumption  | apply touch_State_modHearth | apply touch_hearthWhen | apply ends_next | apply ends_fault) | refine touch_fst (by with_reducible assumption) ?_ | dsimp only | split | intro _)

theorem touch_execSmbFruBlockRead (s : State) (hs : Touch F st0 s) (f_free : F.free = true) (f_hearth : F.hearth = true) :
    Ends F st0 (execSmbFruBlockRead s) := by
  unfold execSmbFruBlockRead
  repeat' (first | with_reducible (first | assumption  | apply touch_State_setFree | apply touch_State_modHearth | apply touch_hearthWhen | apply touch_smbAnswer | apply ends_next | apply ends_fault) | refine touch_fst (by with_reducible assumption) ?_ | dsimp only | split | intro _)

theorem touch_execSmbReadVoltage (s : State) (hs : Touch F st0 s) (f_hearth : F.hearth = true) :
    Ends F st0 (execSmbReadVoltage s) := by
  unfold execSmbReadVoltage
  repeat' (first | with_reducible (first | assumption  | apply touch_hearthWhen | apply touch_smbAnswer | apply ends_next | apply ends_fault) | refine touch_fst (by with_reducible assumption) ?_ | dsimp only | split | intro _)

theorem touch_execSmbReadPower (s : State) (hs : Touch F st0 s) (f_hearth : F.hearth = true) :
    Ends F st0 (execSmbReadPower s) := by
  unfold execSmbReadPower
  repeat' (first | with_reducible (first | assumption  | apply touch_hearthWhen | apply touch_smbAnswer | apply ends_next | apply ends_fault) | refine touch_fst (by with_reducible assumption) ?_ | dsimp only | split | intro _)

theorem touch_execSmbReadTj (s : State) (hs : Touch F st0 s) (f_hearth : F.hearth = true) :
    Ends F st0 (execSmbReadTj s) := by
  unfold execSmbReadTj
  repeat' (first | with_reducible (first | assumption  | apply touch_hearthWhen | apply touch_smbAnswer | apply ends_next | apply ends_fault) | refine touch_fst (by with_reducible assumption) ?_ | dsimp only | split | intro _)

theorem touch_execSmbReadHrtState (s : State) (hs : Touch F st0 s) (f_hearth : F.hearth = true) :
    Ends F st0 (execSmbReadHrtState s) := by
  unfold execSmbReadHrtState
  repeat' (first | with_reducible (first | assumption  | apply touch_hearthWhen | apply touch_smbAnswer | apply ends_next | apply ends_fault) | refine touch_fst (by with_reducible assumption) ?_ | dsimp only | split | intro _)

theorem touch_execSmbReadLastFail (s : State) (hs : Touch F st0 s) (f_hearth : F.hearth = true) :
    Ends F st0 (execSmbReadLastFail s) := by
  unfold execSmbReadLastFail
  repeat' (first | with_reducible (first | assumption  | apply touch_hearthWhen | apply touch_smbAnswer | apply ends_next | apply ends_fault) | refine touch_fst (by with_reducible assumption) ?_ | dsimp only | split | intro _)

theorem touch_execAttnRemoveHold (s : State) (hs : Touch F st0 s) (f_mem : F.mem = true) (f_poison : F.poison = true) (f_benchPoison : F.benchPoison = true) (f_regs
    : F.regs = true) (f_trays : F.trays = true) (f_barriers : F.barriers = true) (f_queues : F.queues = true) (f_cores : F.cores = true) (f_mmu : F.mmu = true) (f_larder
    : F.larder = true) (f_arbs : F.arbs = true) (f_power : F.power = true) (f_errLog : F.errLog = true) (f_planted : F.planted = true) (f_stop : F.stop = true)
    (f_scrubbing : F.scrubbing = true) (f_trained : F.trained = true) (f_host : F.host = true) (f_staon : F.staon = true) (f_hearth : F.hearth = true) (f_modhw : F.modhw
    = true) :
    Ends F st0 (execAttnRemoveHold s) := by
  unfold execAttnRemoveHold
  repeat' (first | with_reducible (first | assumption  | apply touch_State_setModhw | apply touch_startRemoval | apply touch_hearthWhen | apply ends_next | apply ends_fault) | refine touch_fst (by with_reducible assumption) ?_ | dsimp only | split | intro _)

theorem touch_execDrainTimeExpire (s : State) (hs : Touch F st0 s) (f_mem : F.mem = true) (f_poison : F.poison = true) (f_benchPoison : F.benchPoison = true) (f_regs
    : F.regs = true) (f_trays : F.trays = true) (f_barriers : F.barriers = true) (f_queues : F.queues = true) (f_cores : F.cores = true) (f_mmu : F.mmu = true) (f_larder
    : F.larder = true) (f_arbs : F.arbs = true) (f_power : F.power = true) (f_errLog : F.errLog = true) (f_planted : F.planted = true) (f_stop : F.stop = true)
    (f_scrubbing : F.scrubbing = true) (f_trained : F.trained = true) (f_host : F.host = true) (f_staon : F.staon = true) (f_hearth : F.hearth = true) :
    Ends F st0 (execDrainTimeExpire s) := by
  unfold execDrainTimeExpire
  repeat' (first | with_reducible (first | assumption  | apply touch_endDrain | apply touch_hearthWhen | apply ends_next | apply ends_fault) | refine touch_fst (by with_reducible assumption) ?_ | dsimp only | split | intro _)

theorem touch_execRemoveReady (s : State) (hs : Touch F st0 s) (f_hearth : F.hearth = true) (f_modhw : F.modhw = true) :
    Ends F st0 (execRemoveReady s) := by
  unfold execRemoveReady
  repeat' (first | with_reducible (first | assumption  | apply touch_State_setModhw | apply touch_State_modHearth | apply touch_hearthEvent | apply touch_hearthWhen | apply ends_next | apply ends_fault) | refine touch_fst (by with_reducible assumption) ?_ | dsimp only | split | intro _)

theorem touch_inputOpens (s : State) (cause : Nat) (hs : Touch F st0 s) (f_mem : F.mem = true) (f_poison : F.poison = true) (f_benchPoison : F.benchPoison = true)
    (f_regs : F.regs = true) (f_trays : F.trays = true) (f_barriers : F.barriers = true) (f_queues : F.queues = true) (f_cores : F.cores = true) (f_mmu : F.mmu = true)
    (f_larder : F.larder = true) (f_arbs : F.arbs = true) (f_power : F.power = true) (f_errLog : F.errLog = true) (f_planted : F.planted = true) (f_stop : F.stop = true)
    (f_scrubbing : F.scrubbing = true) (f_trained : F.trained = true) (f_host : F.host = true) (f_staon : F.staon = true) (f_hearth : F.hearth = true) (f_modhw : F.modhw
    = true) :
    Touch F st0 (inputOpens s cause) := by
  unfold inputOpens
  repeat' (first | with_reducible (first | assumption  | apply touch_State_setModhw | apply touch_holdAll) | refine touch_fst (by with_reducible assumption) ?_ | dsimp only | split | intro _)

theorem touch_execMatedNOpen (s : State) (hs : Touch F st0 s) (f_mem : F.mem = true) (f_poison : F.poison = true) (f_benchPoison : F.benchPoison = true) (f_regs :
    F.regs = true) (f_trays : F.trays = true) (f_barriers : F.barriers = true) (f_queues : F.queues = true) (f_cores : F.cores = true) (f_mmu : F.mmu = true) (f_larder :
    F.larder = true) (f_arbs : F.arbs = true) (f_power : F.power = true) (f_errLog : F.errLog = true) (f_planted : F.planted = true) (f_stop : F.stop = true)
    (f_scrubbing : F.scrubbing = true) (f_trained : F.trained = true) (f_host : F.host = true) (f_staon : F.staon = true) (f_hearth : F.hearth = true) (f_modhw : F.modhw
    = true) :
    Ends F st0 (execMatedNOpen s) := by
  unfold execMatedNOpen
  repeat' (first | with_reducible (first | assumption  | apply touch_State_setModhw | apply touch_inputOpens | apply ends_next | apply ends_fault) | refine touch_fst (by with_reducible assumption) ?_ | dsimp only | split | intro _)

theorem touch_execInputAdmit (centivolts : Nat) (s : State) (hs : Touch F st0 s) (f_modhw : F.modhw = true) :
    Ends F st0 (execInputAdmit centivolts s) := by
  unfold execInputAdmit
  repeat' (first | with_reducible (first | assumption  | apply touch_State_setModhw | apply ends_next | apply ends_fault) | refine touch_fst (by with_reducible assumption) ?_ | dsimp only | split | intro _)

theorem touch_execHotSwapTrip (causes : List HscCause) (s : State) (hs : Touch F st0 s) (f_mem : F.mem = true) (f_poison : F.poison = true) (f_benchPoison :
    F.benchPoison = true) (f_regs : F.regs = true) (f_trays : F.trays = true) (f_barriers : F.barriers = true) (f_queues : F.queues = true) (f_cores : F.cores = true)
    (f_mmu : F.mmu = true) (f_larder : F.larder = true) (f_arbs : F.arbs = true) (f_power : F.power = true) (f_errLog : F.errLog = true) (f_planted : F.planted = true)
    (f_stop : F.stop = true) (f_scrubbing : F.scrubbing = true) (f_trained : F.trained = true) (f_host : F.host = true) (f_staon : F.staon = true) (f_hearth : F.hearth =
    true) (f_modhw : F.modhw = true) :
    Ends F st0 (execHotSwapTrip causes s) := by
  unfold execHotSwapTrip
  repeat' (first | with_reducible (first | assumption  | apply touch_inputOpens | apply ends_next | apply ends_fault) | refine touch_fst (by with_reducible assumption) ?_ | dsimp only | split | intro _)

theorem touch_execRef100Loss (s : State) (hs : Touch F st0 s) (f_mem : F.mem = true) (f_poison : F.poison = true) (f_benchPoison : F.benchPoison = true) (f_regs :
    F.regs = true) (f_trays : F.trays = true) (f_barriers : F.barriers = true) (f_queues : F.queues = true) (f_cores : F.cores = true) (f_mmu : F.mmu = true) (f_larder :
    F.larder = true) (f_arbs : F.arbs = true) (f_power : F.power = true) (f_errLog : F.errLog = true) (f_planted : F.planted = true) (f_stop : F.stop = true)
    (f_scrubbing : F.scrubbing = true) (f_trained : F.trained = true) (f_host : F.host = true) (f_staon : F.staon = true) (f_hearth : F.hearth = true) (f_modhw : F.modhw
    = true) :
    Ends F st0 (execRef100Loss s) := by
  unfold execRef100Loss
  repeat' (first | with_reducible (first | assumption  | apply touch_State_setModhw | apply touch_holdAll | apply ends_next | apply ends_fault) | refine touch_fst (by with_reducible assumption) ?_ | dsimp only | split | intro _)

theorem touch_execRef100Return (s : State) (hs : Touch F st0 s) (f_mem : F.mem = true) (f_poison : F.poison = true) (f_benchPoison : F.benchPoison = true) (f_regs :
    F.regs = true) (f_trays : F.trays = true) (f_barriers : F.barriers = true) (f_queues : F.queues = true) (f_cores : F.cores = true) (f_mmu : F.mmu = true) (f_larder :
    F.larder = true) (f_arbs : F.arbs = true) (f_power : F.power = true) (f_errLog : F.errLog = true) (f_planted : F.planted = true) (f_stop : F.stop = true)
    (f_scrubbing : F.scrubbing = true) (f_trained : F.trained = true) (f_host : F.host = true) (f_staon : F.staon = true) (f_hearth : F.hearth = true) (f_modhw : F.modhw
    = true) :
    Ends F st0 (execRef100Return s) := by
  unfold execRef100Return
  repeat' (first | with_reducible (first | assumption  | apply touch_State_setModhw | apply touch_powerOnReset | apply ends_next | apply ends_fault) | refine touch_fst (by with_reducible assumption) ?_ | dsimp only | split | intro _)

theorem touch_execRef156hLoss (s : State) (hs : Touch F st0 s) (f_host : F.host = true) :
    Ends F st0 (execRef156hLoss s) := by
  unfold execRef156hLoss
  repeat' (first | with_reducible (first | assumption  | apply touch_State_setHost | apply touch_hostDown | apply ends_next | apply ends_fault) | refine touch_fst (by with_reducible assumption) ?_ | dsimp only | split | intro _)

theorem touch_execRef156hReturn (s : State) (hs : Touch F st0 s) (f_host : F.host = true) :
    Ends F st0 (execRef156hReturn s) := by
  unfold execRef156hReturn
  repeat' (first | with_reducible (first | assumption  | apply touch_State_setHost | apply ends_next | apply ends_fault) | refine touch_fst (by with_reducible assumption) ?_ | dsimp only | split | intro _)

theorem touch_execRef156sLoss (s : State) (hs : Touch F st0 s) (f_regs : F.regs = true) (f_trays : F.trays = true) (f_queues : F.queues = true) (f_cores : F.cores =
    true) (f_mmu : F.mmu = true) (f_arbs : F.arbs = true) (f_errLog : F.errLog = true) (f_staon : F.staon = true) :
    Ends F st0 (execRef156sLoss s) := by
  unfold execRef156sLoss
  repeat' (first | with_reducible (first | assumption  | apply touch_State_modStaon | apply touch_portDown | apply touch_foldl | apply touch_foldl_fst | apply ends_next | apply ends_fault) | refine touch_fst (by with_reducible assumption) ?_ | dsimp only | split | intro _)

theorem touch_execRef156sReturn (s : State) (hs : Touch F st0 s) (f_regs : F.regs = true) (f_trays : F.trays = true) (f_queues : F.queues = true) (f_cores : F.cores
    = true) (f_mmu : F.mmu = true) (f_arbs : F.arbs = true) (f_errLog : F.errLog = true) (f_staon : F.staon = true) :
    Ends F st0 (execRef156sReturn s) := by
  unfold execRef156sReturn
  repeat' (first | with_reducible (first | assumption  | apply touch_State_modStaon | apply touch_adjustPorts | apply ends_next | apply ends_fault) | refine touch_fst (by with_reducible assumption) ?_ | dsimp only | split | intro _)

/-! ### Hmp.lean -/

theorem touch_hmpReply (s : State) (op : Nat) (r : HmpReq) (status : Nat) (payload : List Byte) (hs : Touch F st0 s) (f_hearth : F.hearth = true) :
    Touch F st0 (hmpReply s op r status payload) := by
  unfold hmpReply
  repeat' (first | with_reducible (first | assumption  | apply touch_State_modHearth) | refine touch_fst (by with_reducible assumption) ?_ | dsimp only | split | intro _)

theorem touch_hmpOpen (op : Nat) (r : HmpReq) (chk : Nat) (out : List Byte) (eff : State → State) (s : State) (heff : ∀ x0, Touch F st0 x0 → Touch F st0 (eff x0))
    (hs : Touch F st0 s) (f_hearth : F.hearth = true) :
    Touch F st0 (hmpOpen op r chk out eff s) := by
  unfold hmpOpen
  repeat' (first | with_reducible (first | assumption  | apply touch_hmpReply | apply heff) | refine touch_fst (by with_reducible assumption) ?_ | dsimp only | split | intro _)

theorem touch_hmpAuth (op : Nat) (r : HmpReq) (chk : Nat) (out : List Byte) (eff : State → State) (s : State) (heff : ∀ x0, Touch F st0 x0 → Touch F st0 (eff x0))
    (hs : Touch F st0 s) (f_hearth : F.hearth = true) :
    Touch F st0 (hmpAuth op r chk out eff s) := by
  unfold hmpAuth
  repeat' (first | with_reducible (first | assumption  | apply touch_State_modHearth | apply touch_hearthLog | apply touch_hmpReply | apply heff) | refine touch_fst (by with_reducible assumption) ?_ | dsimp only | split | intro _)

theorem touch_execHmpStatus (r : HmpReq) (s : State) (hs : Touch F st0 s) (f_hearth : F.hearth = true) :
    Ends F st0 (execHmpStatus r s) := by
  unfold execHmpStatus
  repeat' (first | with_reducible (first | assumption  | apply touch_hmpOpen | apply touch_id | apply ends_next | apply ends_fault) | refine touch_fst (by with_reducible assumption) ?_ | dsimp only | split | intro _)

theorem touch_execTelemetry (r : HmpReq) (s : State) (hs : Touch F st0 s) (f_hearth : F.hearth = true) :
    Ends F st0 (execTelemetry r s) := by
  unfold execTelemetry
  repeat' (first | with_reducible (first | assumption  | apply touch_hmpOpen | apply touch_id | apply ends_next | apply ends_fault) | refine touch_fst (by with_reducible assumption) ?_ | dsimp only | split | intro _)

theorem touch_execObjRead (r : HmpReq) (s : State) (hs : Touch F st0 s) (f_hearth : F.hearth = true) :
    Ends F st0 (execObjRead r s) := by
  unfold execObjRead
  repeat' (first | with_reducible (first | assumption  | apply touch_hmpOpen | apply touch_id | apply ends_next | apply ends_fault) | refine touch_fst (by with_reducible assumption) ?_ | dsimp only | split | intro _)

theorem touch_execAttest (r : HmpReq) (s : State) (hs : Touch F st0 s) (f_hearth : F.hearth = true) :
    Ends F st0 (execAttest r s) := by
  unfold execAttest
  repeat' (first | with_reducible (first | assumption  | apply touch_State_modHearth | apply touch_hmpOpen | apply ends_next | apply ends_fault) | refine touch_fst (by with_reducible assumption) ?_ | dsimp only | split | intro _)

theorem touch_execHmpReset (r : HmpReq) (s : State) (hs : Touch F st0 s) (f_mem : F.mem = true) (f_poison : F.poison = true) (f_benchPoison : F.benchPoison = true)
    (f_regs : F.regs = true) (f_trays : F.trays = true) (f_barriers : F.barriers = true) (f_queues : F.queues = true) (f_cores : F.cores = true) (f_mmu : F.mmu = true)
    (f_larder : F.larder = true) (f_arbs : F.arbs = true) (f_power : F.power = true) (f_errLog : F.errLog = true) (f_planted : F.planted = true) (f_stop : F.stop = true)
    (f_scrubbing : F.scrubbing = true) (f_trained : F.trained = true) (f_host : F.host = true) (f_staon : F.staon = true) (f_hearth : F.hearth = true) (f_modhw : F.modhw
    = true) :
    Ends F st0 (execHmpReset r s) := by
  unfold execHmpReset
  repeat' (first | with_reducible (first | assumption  | apply touch_hearthReset | apply touch_moduleReset | apply touch_hmpAuth | apply ends_next | apply ends_fault) | refine touch_fst (by with_reducible assumption) ?_ | dsimp only | split | intro _)

theorem touch_execHmpPower (r : HmpReq) (s : State) (hs : Touch F st0 s) (f_mem : F.mem = true) (f_poison : F.poison = true) (f_benchPoison : F.benchPoison = true)
    (f_regs : F.regs = true) (f_trays : F.trays = true) (f_barriers : F.barriers = true) (f_queues : F.queues = true) (f_cores : F.cores = true) (f_mmu : F.mmu = true)
    (f_larder : F.larder = true) (f_arbs : F.arbs = true) (f_power : F.power = true) (f_errLog : F.errLog = true) (f_planted : F.planted = true) (f_stop : F.stop = true)
    (f_scrubbing : F.scrubbing = true) (f_trained : F.trained = true) (f_host : F.host = true) (f_staon : F.staon = true) (f_hearth : F.hearth = true) (f_modhw : F.modhw
    = true) :
    Ends F st0 (execHmpPower r s) := by
  unfold execHmpPower
  repeat' (first | with_reducible (first | assumption  | apply touch_State_modHearth | apply touch_mainOff | apply touch_moduleReset | apply touch_hmpAuth | apply ends_next | apply ends_fault) | refine touch_fst (by with_reducible assumption) ?_ | dsimp only | split | intro _)

theorem touch_execImagePut (r : HmpReq) (s : State) (hs : Touch F st0 s) (f_hearth : F.hearth = true) :
    Ends F st0 (execImagePut r s) := by
  unfold execImagePut
  repeat' (first | with_reducible (first | assumption  | apply touch_State_modHearth | apply touch_flashWrite | apply touch_hmpAuth | apply ends_next | apply ends_fault) | refine touch_fst (by with_reducible assumption) ?_ | dsimp only | split | intro _)

theorem touch_execImageDone (r : HmpReq) (s : State) (hs : Touch F st0 s) (f_power : F.power = true) (f_hearth : F.hearth = true) :
    Ends F st0 (execImageDone r s) := by
  unfold execImageDone
  repeat' (first | with_reducible (first | assumption  | apply touch_attemptFails | apply touch_attemptSlot | apply touch_hmpAuth | apply ends_next | apply ends_fault) | refine touch_fst (by with_reducible assumption) ?_ | dsimp only | split | intro _)

theorem touch_execTimeSet (r : HmpReq) (s : State) (hs : Touch F st0 s) (f_hearth : F.hearth = true) :
    Ends F st0 (execTimeSet r s) := by
  unfold execTimeSet
  repeat' (first | with_reducible (first | assumption  | apply touch_State_modHearth | apply touch_hmpAuth | apply ends_next | apply ends_fault) | refine touch_fst (by with_reducible assumption) ?_ | dsimp only | split | intro _)

theorem touch_execSvnCommit (r : HmpReq) (s : State) (hs : Touch F st0 s) (f_hearth : F.hearth = true) :
    Ends F st0 (execSvnCommit r s) := by
  unfold execSvnCommit
  repeat' (first | with_reducible (first | assumption  | apply touch_State_modHearth | apply touch_hmpAuth | apply ends_next | apply ends_fault) | refine touch_fst (by with_reducible assumption) ?_ | dsimp only | split | intro _)

theorem touch_execPolicySet (r : HmpReq) (s : State) (hs : Touch F st0 s) (f_regs : F.regs = true) (f_trays : F.trays = true) (f_hearth : F.hearth = true) :
    Ends F st0 (execPolicySet r s) := by
  unfold execPolicySet
  repeat' (first | with_reducible (first | assumption  | apply touch_State_modHearth | apply touch_writeMgtEn | apply touch_hmpAuth | apply ends_next | apply ends_fault) | refine touch_fst (by with_reducible assumption) ?_ | dsimp only | split | intro _)

theorem touch_execRemovePrep (r : HmpReq) (s : State) (hs : Touch F st0 s) (f_mem : F.mem = true) (f_poison : F.poison = true) (f_benchPoison : F.benchPoison = true)
    (f_regs : F.regs = true) (f_trays : F.trays = true) (f_barriers : F.barriers = true) (f_queues : F.queues = true) (f_cores : F.cores = true) (f_mmu : F.mmu = true)
    (f_larder : F.larder = true) (f_arbs : F.arbs = true) (f_power : F.power = true) (f_errLog : F.errLog = true) (f_planted : F.planted = true) (f_stop : F.stop = true)
    (f_scrubbing : F.scrubbing = true) (f_trained : F.trained = true) (f_host : F.host = true) (f_staon : F.staon = true) (f_hearth : F.hearth = true) :
    Ends F st0 (execRemovePrep r s) := by
  unfold execRemovePrep
  repeat' (first | with_reducible (first | assumption  | apply touch_startRemoval | apply touch_hmpAuth | apply ends_next | apply ends_fault) | refine touch_fst (by with_reducible assumption) ?_ | dsimp only | split | intro _)

theorem touch_execKeySet (r : HmpReq) (s : State) (hs : Touch F st0 s) (f_hearth : F.hearth = true) :
    Ends F st0 (execKeySet r s) := by
  unfold execKeySet
  repeat' (first | with_reducible (first | assumption  | apply touch_State_modHearth | apply touch_hmpOpen | apply touch_hmpAuth | apply ends_next | apply ends_fault) | refine touch_fst (by with_reducible assumption) ?_ | dsimp only | split | intro _)

theorem touch_execNetSet (r : HmpReq) (s : State) (hs : Touch F st0 s) (f_hearth : F.hearth = true) :
    Ends F st0 (execNetSet r s) := by
  unfold execNetSet
  repeat' (first | with_reducible (first | assumption  | apply touch_State_modHearth | apply touch_hmpAuth | apply ends_next | apply ends_fault) | refine touch_fst (by with_reducible assumption) ?_ | dsimp only | split | intro _)

end Sys2Proof.Machine
end

