-- ==== Sys2Proof/Laws/Touch6.lean ====
section
/-! SUPPORT. What each operation of PeelEng.lean, Regs.lean, Cct.lean, LevainEng.lean, MgtCmd.lean and PowerEvents.lean may write: one lemma for each, by its own name. -/

namespace Sys2Proof.Machine

set_option linter.all false

variable {F : Parts} {st0 : State}

/-! ### PeelEng.lean -/

theorem touch_spillSums (s : State) (i : Inst) (pl : CouchePlace) (row cols : Nat) (first : Bool) (sums : List (Nat × Nat)) (hs : Touch F st0 s) (f_mem : F.mem =
    true) (f_poison : F.poison = true) (f_benchPoison : F.benchPoison = true) (f_regs : F.regs = true) (f_planted : F.planted = true) :
    Touch F st0 (spillSums s i pl row cols first sums).1 := by
  unfold spillSums
  repeat' (first | with_reducible (first | assumption  | apply touch_writeCouche) | refine touch_fst (by with_reducible assumption) ?_ | dsimp only | split | intro _)

theorem touch_rowSums (s : State) (t : Nat) (i : Inst) (g : Grid) (n row : Nat) (vals : List (Nat × Nat)) (hs : Touch F st0 s) (f_poison : F.poison = true)
    (f_benchPoison : F.benchPoison = true) (f_regs : F.regs = true) (f_larder : F.larder = true) (f_arbs : F.arbs = true) (f_planted : F.planted = true) :
    Touch F st0 (rowSums s t i g n row vals).1 := by
  unfold rowSums
  repeat' (first | with_reducible (first | assumption  | apply touch_noteRead | apply touch_andThen) | refine touch_fst (by with_reducible assumption) ?_ | dsimp only | split | intro _)

theorem touch_addRow (s : State) (t : Nat) (i : Inst) (g : Grid) (n row : Nat) (vals : List (Nat × Nat)) (hs : Touch F st0 s) (f_mem : F.mem = true) (f_poison :
    F.poison = true) (f_benchPoison : F.benchPoison = true) (f_regs : F.regs = true) (f_trays : F.trays = true) (f_larder : F.larder = true) (f_arbs : F.arbs = true)
    (f_planted : F.planted = true) :
    Touch F st0 (addRow s t i g n row vals).1 := by
  unfold addRow
  repeat' (first | with_reducible (first | assumption  | apply touch_State_modTile | apply touch_andThen | apply touch_writePartial | apply touch_spillSums | apply touch_rowSums) | refine touch_fst (by with_reducible assumption) ?_ | dsimp only | split | intro _)

theorem touch_addRows (s : State) (t k : Nat) (g : Grid) (n : Nat) (hs : Touch F st0 s) (f_mem : F.mem = true) (f_poison : F.poison = true) (f_benchPoison :
    F.benchPoison = true) (f_regs : F.regs = true) (f_trays : F.trays = true) (f_larder : F.larder = true) (f_arbs : F.arbs = true) (f_planted : F.planted = true) :
    ∀ (y0 : List (Nat × List (Nat × Nat))), Touch F st0 (addRows s t k g n y0).1 := by
  intro y0
  induction y0 generalizing s with
  | nil =>
    unfold addRows
    repeat' (first | with_reducible (first | assumption  | apply touch_andThen | apply touch_addRow) | refine touch_fst (by with_reducible assumption) ?_ | dsimp only | split | intro _)
  | cons x l ih =>
    unfold addRows
    repeat' (first | with_reducible (first | assumption | apply ih | apply touch_andThen | apply touch_addRow) | refine touch_fst (by with_reducible assumption) ?_ | dsimp only | split | intro _)

theorem touch_placeCouche (s : State) (t : Nat) (i : Inst) (n : Nat) (hs : Touch F st0 s) (f_trays : F.trays = true) (f_cores : F.cores = true) :
    Touch F st0 (placeCouche s t i n).1 := by
  unfold placeCouche
  repeat' (first | with_reducible (first | assumption  | apply touch_State_modPeel | apply touch_State_modTile | apply touch_waitCouche) | refine touch_fst (by with_reducible assumption) ?_ | dsimp only | split | intro _)

theorem touch_addArrival (s : State) (a : Arrival) (i : Inst) (g : Grid) (hs : Touch F st0 s) (f_ord : F.ord = true) (f_mem : F.mem = true) (f_poison : F.poison =
    true) (f_benchPoison : F.benchPoison = true) (f_regs : F.regs = true) (f_trays : F.trays = true) (f_barriers : F.barriers = true) (f_queues : F.queues = true)
    (f_cores : F.cores = true) (f_mmu : F.mmu = true) (f_larder : F.larder = true) (f_arbs : F.arbs = true) (f_errLog : F.errLog = true) (f_planted : F.planted = true)
    (f_stop : F.stop = true) (f_staon : F.staon = true) (f_hearth : F.hearth = true) :
    Touch F st0 (addArrival s a i g) := by
  unfold addArrival
  repeat' (first | with_reducible (first | assumption  | apply touch_State_count | apply touch_State_modTile | apply touch_faultInst | apply touch_memFault | apply touch_wrote | apply touch_readTray | apply touch_finishBlocks | apply touch_addRows) | refine touch_fst (by with_reducible assumption) ?_ | dsimp only | split | intro _)

theorem touch_portArrival (c port : Nat) (s : State) (hs : Touch F st0 s) (f_ord : F.ord = true) (f_mem : F.mem = true) (f_poison : F.poison = true) (f_benchPoison :
    F.benchPoison = true) (f_regs : F.regs = true) (f_trays : F.trays = true) (f_barriers : F.barriers = true) (f_queues : F.queues = true) (f_cores : F.cores = true)
    (f_mmu : F.mmu = true) (f_larder : F.larder = true) (f_arbs : F.arbs = true) (f_errLog : F.errLog = true) (f_planted : F.planted = true) (f_stop : F.stop = true)
    (f_staon : F.staon = true) (f_hearth : F.hearth = true) :
    Touch F st0 (portArrival c port s) := by
  unfold portArrival
  repeat' (first | with_reducible (first | assumption  | apply touch_State_setPort | apply touch_placeCouche | apply touch_addArrival) | refine touch_fst (by with_reducible assumption) ?_ | dsimp only | split | intro _)

theorem touch_statStep (s : State) (x : Step) (i : Inst) (hs : Touch F st0 s) (f_ord : F.ord = true) (f_mem : F.mem = true) (f_poison : F.poison = true)
    (f_benchPoison : F.benchPoison = true) (f_regs : F.regs = true) (f_trays : F.trays = true) (f_queues : F.queues = true) (f_cores : F.cores = true) (f_mmu : F.mmu =
    true) (f_larder : F.larder = true) (f_arbs : F.arbs = true) (f_errLog : F.errLog = true) (f_planted : F.planted = true) (f_staon : F.staon = true) :
    Touch F st0 (statStep s x i) := by
  unfold statStep
  repeat' (first | with_reducible (first | assumption  | apply touch_State_count | apply touch_State_modPeel | apply touch_releaseBlock | apply touch_stepEnds | apply touch_reduceStep | apply touch_foldl | apply touch_foldl_fst) | refine touch_fst (by with_reducible assumption) ?_ | dsimp only | split | intro _)

theorem touch_tensorArrival (c : Nat) (s0 : State) (hs0 : Touch F st0 s0) (f_ord : F.ord = true) (f_free : F.free = true) (f_mem : F.mem = true) (f_poison : F.poison
    = true) (f_benchPoison : F.benchPoison = true) (f_regs : F.regs = true) (f_trays : F.trays = true) (f_barriers : F.barriers = true) (f_queues : F.queues = true)
    (f_cores : F.cores = true) (f_mmu : F.mmu = true) (f_larder : F.larder = true) (f_arbs : F.arbs = true) (f_errLog : F.errLog = true) (f_planted : F.planted = true)
    (f_staon : F.staon = true) :
    Touch F st0 (tensorArrival c s0) := by
  unfold tensorArrival
  repeat' (first | with_reducible (first | assumption  | apply touch_State_modPeel | apply touch_updArrive | apply touch_redServe | apply touch_statStep) | refine touch_fst (by with_reducible assumption) ?_ | dsimp only | split | intro _)

theorem touch_execPeelArrival (c port : Nat) (s : State) (hs : Touch F st0 s) (f_ord : F.ord = true) (f_free : F.free = true) (f_mem : F.mem = true) (f_poison :
    F.poison = true) (f_benchPoison : F.benchPoison = true) (f_regs : F.regs = true) (f_trays : F.trays = true) (f_barriers : F.barriers = true) (f_queues : F.queues =
    true) (f_cores : F.cores = true) (f_mmu : F.mmu = true) (f_larder : F.larder = true) (f_arbs : F.arbs = true) (f_errLog : F.errLog = true) (f_planted : F.planted =
    true) (f_stop : F.stop = true) (f_staon : F.staon = true) (f_hearth : F.hearth = true) :
    Ends F st0 (execPeelArrival c port s) := by
  unfold execPeelArrival
  repeat' (first | with_reducible (first | assumption  | apply touch_onCore | apply touch_portArrival | apply touch_tensorArrival | apply ends_next | apply ends_fault) | refine touch_fst (by with_reducible assumption) ?_ | dsimp only | split | intro _)

theorem touch_snapStart (c : Nat) (v : Reg) (s : State) (hs : Touch F st0 s) (f_regs : F.regs = true) (f_cores : F.cores = true) :
    Touch F st0 (snapStart c v s) := by
  unfold snapStart
  repeat' (first | with_reducible (first | assumption  | apply touch_State_setFld | apply touch_State_modPeel | apply touch_foldl | apply touch_foldl_fst) | refine touch_fst (by with_reducible assumption) ?_ | dsimp only | split | intro _)

theorem touch_execPeelDbgSnap (c : Nat) (v : Reg) (s : State) (hs : Touch F st0 s) (f_regs : F.regs = true) (f_cores : F.cores = true) :
    Ends F st0 (execPeelDbgSnap c v s) := by
  unfold execPeelDbgSnap
  repeat' (first | with_reducible (first | assumption  | apply touch_onCore | apply touch_snapStart | apply ends_next | apply ends_fault) | refine touch_fst (by with_reducible assumption) ?_ | dsimp only | split | intro _)

theorem touch_snapDone (c : Nat) (s : State) (hs : Touch F st0 s) (f_regs : F.regs = true) (f_cores : F.cores = true) :
    Touch F st0 (snapDone c s) := by
  unfold snapDone
  repeat' (first | with_reducible (first | assumption  | apply touch_State_setReg | apply touch_State_modPeel | apply touch_foldl | apply touch_foldl_fst) | refine touch_fst (by with_reducible assumption) ?_ | dsimp only | split | intro _)

theorem touch_execPeelDbgSnapDone (c : Nat) (s : State) (hs : Touch F st0 s) (f_regs : F.regs = true) (f_cores : F.cores = true) :
    Ends F st0 (execPeelDbgSnapDone c s) := by
  unfold execPeelDbgSnapDone
  repeat' (first | with_reducible (first | assumption  | apply touch_onCore | apply touch_snapDone | apply ends_next | apply ends_fault) | refine touch_fst (by with_reducible assumption) ?_ | dsimp only | split | intro _)

/-! ### Regs.lean -/

theorem touch_liveWrite (s : State) (off : Nat) (b : Busy) (i : Nat) (v : Reg) (f : State → State) (hs : Touch F st0 s) (hf : ∀ x0, Touch F st0 x0 → Touch F st0 (f
    x0)) (f_regs : F.regs = true) :
    Touch F st0 (liveWrite s off b i v f) := by
  unfold liveWrite
  repeat' (first | with_reducible (first | assumption  | apply touch_recordRefused | apply hf) | refine touch_fst (by with_reducible assumption) ?_ | dsimp only | split | intro _)

theorem touch_tokensStore (s : State) (off t first : Nat) (v : Reg) (hs : Touch F st0 s) (f_regs : F.regs = true) (f_trays : F.trays = true) :
    Touch F st0 (tokensStore s off t first v) := by
  unfold tokensStore
  repeat' (first | with_reducible (first | assumption  | apply touch_State_modTray | apply touch_liveWrite | apply touch_foldl | apply touch_foldl_fst) | refine touch_fst (by with_reducible assumption) ?_ | dsimp only | split | intro _)

theorem touch_barBreakStore (s : State) (v : Reg) (hs : Touch F st0 s) (f_regs : F.regs = true) (f_trays : F.trays = true) (f_barriers : F.barriers = true) (f_queues
    : F.queues = true) (f_cores : F.cores = true) (f_mmu : F.mmu = true) (f_arbs : F.arbs = true) (f_errLog : F.errLog = true) (f_staon : F.staon = true) :
    Touch F st0 (barBreakStore s v) := by
  unfold barBreakStore
  repeat' (first | with_reducible (first | assumption  | apply touch_breakBarrier | apply touch_foldl | apply touch_foldl_fst) | refine touch_fst (by with_reducible assumption) ?_ | dsimp only | split | intro _)

theorem touch_levCntStore (s : State) (c : Nat) (v : Reg) (hs : Touch F st0 s) (f_cores : F.cores = true) :
    Touch F st0 (levCntStore s c v) := by
  unfold levCntStore
  repeat' (first | with_reducible (first | assumption  | apply touch_State_modLevain) | refine touch_fst (by with_reducible assumption) ?_ | dsimp only | split | intro _)

theorem touch_levClear (c : Nat) (v : Reg) (s : State) (hs : Touch F st0 s) (f_cores : F.cores = true) :
    Touch F st0 (levClear c v s) := by
  unfold levClear
  repeat' (first | with_reducible (first | assumption  | apply touch_State_modLevain) | refine touch_fst (by with_reducible assumption) ?_ | dsimp only | split | intro _)

theorem touch_updStore (s : State) (off c : Nat) (v : Reg) (hs : Touch F st0 s) (f_regs : F.regs = true) (f_cores : F.cores = true) :
    Touch F st0 (updStore s off c v) := by
  unfold updStore
  repeat' (first | with_reducible (first | assumption  | apply touch_State_setUpdWord | apply touch_liveWrite) | refine touch_fst (by with_reducible assumption) ?_ | dsimp only | split | intro _)

theorem touch_updClear (c : Nat) (v : Reg) (s : State) (hs : Touch F st0 s) (f_cores : F.cores = true) :
    Touch F st0 (updClear c v s) := by
  unfold updClear
  repeat' (first | with_reducible (first | assumption  | apply touch_State_modPeel) | refine touch_fst (by with_reducible assumption) ?_ | dsimp only | split | intro _)

theorem touch_hqStore (s : State) (off q : Nat) (d : RegDef) (v : Reg) (hs : Touch F st0 s) (f_regs : F.regs = true) (f_trays : F.trays = true) (f_queues : F.queues
    = true) :
    Touch F st0 (hqStore s off q d v) := by
  unfold hqStore
  repeat' (first | with_reducible (first | assumption  | apply touch_State_setReg | apply touch_State_setFld | apply touch_State_modHq | apply touch_storeWrite) | refine touch_fst (by with_reducible assumption) ?_ | dsimp only | split | intro _)

theorem touch_hpCtlStore (s : State) (v : Reg) (hs : Touch F st0 s) (f_regs : F.regs = true) (f_trays : F.trays = true) (f_host : F.host = true) :
    Touch F st0 (hpCtlStore s v) := by
  unfold hpCtlStore
  repeat' (first | with_reducible (first | assumption  | apply touch_storeWrite | apply touch_hostDown) | refine touch_fst (by with_reducible assumption) ?_ | dsimp only | split | intro _)

theorem touch_endAccesses (s : State) (q : Nat) (hs : Touch F st0 s) (f_regs : F.regs = true) (f_trays : F.trays = true) (f_queues : F.queues = true) (f_cores :
    F.cores = true) (f_mmu : F.mmu = true) (f_arbs : F.arbs = true) (f_errLog : F.errLog = true) (f_host : F.host = true) (f_staon : F.staon = true) :
    Touch F st0 (endAccesses s q) := by
  unfold endAccesses
  repeat' (first | with_reducible (first | assumption  | apply touch_State_setHost | apply touch_xferFails | apply touch_foldl | apply touch_foldl_fst) | refine touch_fst (by with_reducible assumption) ?_ | dsimp only | split | intro _)

theorem touch_qpError (s : State) (q : Nat) (hs : Touch F st0 s) (f_regs : F.regs = true) (f_trays : F.trays = true) (f_queues : F.queues = true) (f_cores : F.cores
    = true) (f_mmu : F.mmu = true) (f_arbs : F.arbs = true) (f_errLog : F.errLog = true) (f_host : F.host = true) (f_staon : F.staon = true) :
    Touch F st0 (qpError s q) := by
  unfold qpError
  repeat' (first | with_reducible (first | assumption  | apply touch_State_setFld | apply touch_endAccesses) | refine touch_fst (by with_reducible assumption) ?_ | dsimp only | split | intro _)

theorem touch_qpStore (s : State) (q : Nat) (d : RegDef) (v : Reg) (hs : Touch F st0 s) (f_regs : F.regs = true) (f_trays : F.trays = true) (f_queues : F.queues =
    true) (f_cores : F.cores = true) (f_mmu : F.mmu = true) (f_arbs : F.arbs = true) (f_errLog : F.errLog = true) (f_host : F.host = true) (f_staon : F.staon = true) :
    Touch F st0 (qpStore s q d v) := by
  unfold qpStore
  repeat' (first | with_reducible (first | assumption  | apply touch_State_setHost | apply touch_State_setReg | apply touch_storeWrite | apply touch_endAccesses) | refine touch_fst (by with_reducible assumption) ?_ | dsimp only | split | intro _)

theorem touch_pwrCtlStore (s : State) (v : Reg) (hs : Touch F st0 s) (f_regs : F.regs = true) (f_trays : F.trays = true) (f_power : F.power = true) :
    Touch F st0 (pwrCtlStore s v) := by
  unfold pwrCtlStore
  repeat' (first | with_reducible (first | assumption  | apply touch_storeWrite | apply touch_gateDomains) | refine touch_fst (by with_reducible assumption) ?_ | dsimp only | split | intro _)

theorem touch_errInjStore (s : State) (v : Reg) (hs : Touch F st0 s) (f_regs : F.regs = true) (f_trays : F.trays = true) :
    Touch F st0 (errInjStore s v) := by
  unfold errInjStore
  repeat' (first | with_reducible (first | assumption  | apply touch_State_setFld | apply touch_storeWrite) | refine touch_fst (by with_reducible assumption) ?_ | dsimp only | split | intro _)

theorem touch_coreWrite (s : State) (off : Nat) (d : RegDef) (i : Nat) (v : Reg) (hs : Touch F st0 s) (f_regs : F.regs = true) (f_trays : F.trays = true) (f_barriers
    : F.barriers = true) (f_queues : F.queues = true) (f_cores : F.cores = true) (f_mmu : F.mmu = true) (f_arbs : F.arbs = true) (f_errLog : F.errLog = true) (f_host :
    F.host = true) (f_staon : F.staon = true) :
    Touch F st0 (coreWrite s off d i v) := by
  unfold coreWrite
  repeat' (first | with_reducible (first | assumption  | apply touch_State_modTray | apply touch_storeWrite | apply touch_snapStart | apply touch_tokensStore | apply touch_barBreakStore | apply touch_levCntStore | apply touch_levClear | apply touch_updStore | apply touch_updClear | apply touch_hqStore | apply touch_qpStore) | refine touch_fst (by with_reducible assumption) ?_ | dsimp only | split | intro _)

theorem touch_regWrite (s : State) (off : Nat) (v : Reg) (hs : Touch F st0 s) (f_mem : F.mem = true) (f_poison : F.poison = true) (f_regs : F.regs = true) (f_trays :
    F.trays = true) (f_barriers : F.barriers = true) (f_queues : F.queues = true) (f_cores : F.cores = true) (f_mmu : F.mmu = true) (f_larder : F.larder = true) (f_arbs
    : F.arbs = true) (f_power : F.power = true) (f_errLog : F.errLog = true) (f_host : F.host = true) (f_staon : F.staon = true) :
    Touch F st0 (regWrite s off v) := by
  unfold regWrite
  repeat' (first | with_reducible (first | assumption  | apply touch_writeDomOn | apply touch_writeDomHold | apply touch_lpcSplitStore | apply touch_larCfgStore | apply touch_mmuInvStore | apply touch_stnCfgStore | apply touch_stnAddrStore | apply touch_mbxStore | apply touch_hpCtlStore | apply touch_pwrCtlStore | apply touch_errInjStore | apply touch_coreWrite) | refine touch_fst (by with_reducible assumption) ?_ | dsimp only | split | intro _)

theorem touch_execCsrRegisterWrite (off : Nat) (v : Reg) (s : State) (hs : Touch F st0 s) (f_mem : F.mem = true) (f_poison : F.poison = true) (f_regs : F.regs =
    true) (f_trays : F.trays = true) (f_barriers : F.barriers = true) (f_queues : F.queues = true) (f_cores : F.cores = true) (f_mmu : F.mmu = true) (f_larder : F.larder
    = true) (f_arbs : F.arbs = true) (f_power : F.power = true) (f_errLog : F.errLog = true) (f_host : F.host = true) (f_staon : F.staon = true) :
    Ends F st0 (execCsrRegisterWrite off v s) := by
  unfold execCsrRegisterWrite
  repeat' (first | with_reducible (first | assumption  | apply touch_regWrite | apply ends_next | apply ends_fault) | refine touch_fst (by with_reducible assumption) ?_ | dsimp only | split | intro _)

theorem touch_execSyncBarBreak (v : Reg) (s : State) (hs : Touch F st0 s) (f_regs : F.regs = true) (f_trays : F.trays = true) (f_barriers : F.barriers = true)
    (f_queues : F.queues = true) (f_cores : F.cores = true) (f_mmu : F.mmu = true) (f_arbs : F.arbs = true) (f_errLog : F.errLog = true) (f_staon : F.staon = true) :
    Ends F st0 (execSyncBarBreak v s) := by
  unfold execSyncBarBreak
  repeat' (first | with_reducible (first | assumption  | apply touch_barBreakStore | apply ends_next | apply ends_fault) | refine touch_fst (by with_reducible assumption) ?_ | dsimp only | split | intro _)

theorem touch_execLevCntClrAll (c : Nat) (v : Reg) (s : State) (hs : Touch F st0 s) (f_cores : F.cores = true) :
    Ends F st0 (execLevCntClrAll c v s) := by
  unfold execLevCntClrAll
  repeat' (first | with_reducible (first | assumption  | apply touch_onCore | apply touch_levClear | apply ends_next | apply ends_fault) | refine touch_fst (by with_reducible assumption) ?_ | dsimp only | split | intro _)

theorem touch_execUpdClrAll (c : Nat) (v : Reg) (s : State) (hs : Touch F st0 s) (f_cores : F.cores = true) :
    Ends F st0 (execUpdClrAll c v s) := by
  unfold execUpdClrAll
  repeat' (first | with_reducible (first | assumption  | apply touch_onCore | apply touch_updClear | apply ends_next | apply ends_fault) | refine touch_fst (by with_reducible assumption) ?_ | dsimp only | split | intro _)

theorem touch_execHpModeWrite (v : Reg) (s : State) (hs : Touch F st0 s) (f_regs : F.regs = true) (f_trays : F.trays = true) (f_host : F.host = true) :
    Ends F st0 (execHpModeWrite v s) := by
  unfold execHpModeWrite
  repeat' (first | with_reducible (first | assumption  | apply touch_hpCtlStore | apply ends_next | apply ends_fault) | refine touch_fst (by with_reducible assumption) ?_ | dsimp only | split | intro _)

theorem touch_execErrInjArm (v : Reg) (s : State) (hs : Touch F st0 s) (f_regs : F.regs = true) (f_trays : F.trays = true) :
    Ends F st0 (execErrInjArm v s) := by
  unfold execErrInjArm
  repeat' (first | with_reducible (first | assumption  | apply touch_errInjStore | apply ends_next | apply ends_fault) | refine touch_fst (by with_reducible assumption) ?_ | dsimp only | split | intro _)

theorem touch_execPwrDomOnWrite (half : Nat) (v : Reg) (s : State) (hs : Touch F st0 s) (f_regs : F.regs = true) (f_power : F.power = true) :
    Ends F st0 (execPwrDomOnWrite half v s) := by
  unfold execPwrDomOnWrite
  repeat' (first | with_reducible (first | assumption  | apply touch_writeDomOn | apply ends_next | apply ends_fault) | refine touch_fst (by with_reducible assumption) ?_ | dsimp only | split | intro _)

theorem touch_execPwrProfileWrite (v : Reg) (s : State) (hs : Touch F st0 s) (f_regs : F.regs = true) (f_trays : F.trays = true) (f_power : F.power = true) :
    Ends F st0 (execPwrProfileWrite v s) := by
  unfold execPwrProfileWrite
  repeat' (first | with_reducible (first | assumption  | apply touch_pwrCtlStore | apply ends_next | apply ends_fault) | refine touch_fst (by with_reducible assumption) ?_ | dsimp only | split | intro _)

/-! ### Cct.lean -/

theorem touch_refuse (s : State) (status : Nat) (hs : Touch F st0 s) :
    Touch F st0 (refuse s status).1 := by
  unfold refuse
  repeat' (first | with_reducible (first | assumption ) | refine touch_fst (by with_reducible assumption) ?_ | dsimp only | split | intro _)

theorem touch_seqAdvance (s : State) (q : Nat) (hs : Touch F st0 s) (f_regs : F.regs = true) :
    Touch F st0 (seqAdvance s q) := by
  unfold seqAdvance
  repeat' (first | with_reducible (first | assumption  | apply touch_State_setFld) | refine touch_fst (by with_reducible assumption) ?_ | dsimp only | split | intro _)

theorem touch_cctAccept (o : CctOp) (m : CctMsg) (s : State) (hs : Touch F st0 s) (f_regs : F.regs = true) :
    Touch F st0 (cctAccept o m s).1 := by
  unfold cctAccept
  repeat' (first | with_reducible (first | assumption  | apply touch_seqAdvance) | refine touch_fst (by with_reducible assumption) ?_ | dsimp only | split | intro _)

theorem touch_cctAnswer (o : CctOp) (m : CctMsg) (r : CctEffect) (hr : Touch F st0 r.1) (f_regs : F.regs = true) (f_host : F.host = true) (f_hostTx : F.hostTx = true) :
    Touch F st0 (cctAnswer o m r) := by
  unfold cctAnswer
  repeat' (first | with_reducible (first | assumption  | apply touch_State_count | apply touch_sendOn) | refine touch_fst (by with_reducible assumption) ?_ | dsimp only | split | intro _)

theorem touch_cctServe (o : CctOp) (eff : CctMsg → State → CctEffect) (m : CctMsg) (s : State) (heff : ∀ x0 x1, Touch F st0 x1 → Touch F st0 (eff x0 x1).1) (hs :
    Touch F st0 s) (f_regs : F.regs = true) (f_host : F.host = true) (f_hostTx : F.hostTx = true) :
    Touch F st0 (cctServe o eff m s) := by
  unfold cctServe
  repeat' (first | with_reducible (first | assumption  | apply touch_State_count | apply touch_cctAccept | apply touch_cctAnswer | apply heff) | refine touch_fst (by with_reducible assumption) ?_ | dsimp only | split | intro _)

theorem touch_countFrames (s : State) (n : Nat) (hs : Touch F st0 s) (f_regs : F.regs = true) :
    Touch F st0 (countFrames s n) := by
  unfold countFrames
  repeat' (first | with_reducible (first | assumption  | apply touch_State_count) | refine touch_fst (by with_reducible assumption) ?_ | dsimp only | split | intro _)

theorem touch_rxBuffer (s : State) (hs : Touch F st0 s) (f_poison : F.poison = true) (f_benchPoison : F.benchPoison = true) (f_regs : F.regs = true) (f_trays :
    F.trays = true) (f_barriers : F.barriers = true) (f_queues : F.queues = true) (f_cores : F.cores = true) (f_mmu : F.mmu = true) (f_larder : F.larder = true) (f_arbs
    : F.arbs = true) (f_errLog : F.errLog = true) (f_stop : F.stop = true) (f_staon : F.staon = true) (f_hearth : F.hearth = true) :
    Touch F st0 (rxBuffer s).1 := by
  unfold rxBuffer
  repeat' (first | with_reducible (first | assumption  | apply touch_State_setFld | apply touch_eccEffect) | refine touch_fst (by with_reducible assumption) ?_ | dsimp only | split | intro _)

theorem touch_cctFrame (m : CctMsg) (f : State → State) (s : State) (hf : ∀ x0, Touch F st0 x0 → Touch F st0 (f x0)) (hs : Touch F st0 s) (f_poison : F.poison =
    true) (f_benchPoison : F.benchPoison = true) (f_regs : F.regs = true) (f_trays : F.trays = true) (f_barriers : F.barriers = true) (f_queues : F.queues = true)
    (f_cores : F.cores = true) (f_mmu : F.mmu = true) (f_larder : F.larder = true) (f_arbs : F.arbs = true) (f_errLog : F.errLog = true) (f_stop : F.stop = true)
    (f_staon : F.staon = true) (f_hearth : F.hearth = true) :
    Touch F st0 (cctFrame m f s) := by
  unfold cctFrame
  repeat' (first | with_reducible (first | assumption  | apply touch_countFrames | apply touch_rxBuffer | apply hf) | refine touch_fst (by with_reducible assumption) ?_ | dsimp only | split | intro _)

theorem touch_cctCommand (o : CctOp) (eff : CctMsg → State → CctEffect) (m : CctMsg) (s : State) (heff : ∀ x0 x1, Touch F st0 x1 → Touch F st0 (eff x0 x1).1) (hs :
    Touch F st0 s) (f_poison : F.poison = true) (f_benchPoison : F.benchPoison = true) (f_regs : F.regs = true) (f_trays : F.trays = true) (f_barriers : F.barriers =
    true) (f_queues : F.queues = true) (f_cores : F.cores = true) (f_mmu : F.mmu = true) (f_larder : F.larder = true) (f_arbs : F.arbs = true) (f_errLog : F.errLog =
    true) (f_stop : F.stop = true) (f_host : F.host = true) (f_staon : F.staon = true) (f_hearth : F.hearth = true) (f_hostTx : F.hostTx = true) :
    Ends F st0 (cctCommand o eff m s) := by
  unfold cctCommand
  repeat' (first | with_reducible (first | assumption  | apply touch_cctServe | apply touch_cctFrame | apply heff | apply ends_next | apply ends_fault) | refine touch_fst (by with_reducible assumption) ?_ | dsimp only | split | intro _)

theorem touch_enqueue (s : State) (q stream dtab : Nat) (k : TaskKind) (hs : Touch F st0 s) (f_ord : F.ord = true) (f_queues : F.queues = true) :
    Touch F st0 (enqueue s q stream dtab k) := by
  unfold enqueue
  repeat' (first | with_reducible (first | assumption  | apply touch_State_modHq | apply touch_State_tick) | refine touch_fst (by with_reducible assumption) ?_ | dsimp only | split | intro _)

theorem touch_doorbellEffect (m : CctMsg) (s : State) (hs : Touch F st0 s) (f_ord : F.ord = true) (f_queues : F.queues = true) :
    Touch F st0 (doorbellEffect m s).1 := by
  unfold doorbellEffect
  repeat' (first | with_reducible (first | assumption  | apply touch_refuse | apply touch_enqueue) | refine touch_fst (by with_reducible assumption) ?_ | dsimp only | split | intro _)

theorem touch_execDoorbell (m : CctMsg) (s : State) (hs : Touch F st0 s) (f_ord : F.ord = true) (f_poison : F.poison = true) (f_benchPoison : F.benchPoison = true)
    (f_regs : F.regs = true) (f_trays : F.trays = true) (f_barriers : F.barriers = true) (f_queues : F.queues = true) (f_cores : F.cores = true) (f_mmu : F.mmu = true)
    (f_larder : F.larder = true) (f_arbs : F.arbs = true) (f_errLog : F.errLog = true) (f_stop : F.stop = true) (f_host : F.host = true) (f_staon : F.staon = true)
    (f_hearth : F.hearth = true) (f_hostTx : F.hostTx = true) :
    Ends F st0 (execDoorbell m s) := by
  unfold execDoorbell
  repeat' (first | with_reducible (first | assumption  | apply touch_cctCommand | apply touch_doorbellEffect | apply ends_next | apply ends_fault) | refine touch_fst (by with_reducible assumption) ?_ | dsimp only | split | intro _)

theorem touch_closeBatch (s : State) (q : Nat) (hs : Touch F st0 s) (f_ord : F.ord = true) (f_queues : F.queues = true) :
    Touch F st0 (closeBatch s q) := by
  unfold closeBatch
  repeat' (first | with_reducible (first | assumption  | apply touch_State_modHq | apply touch_enqueue) | refine touch_fst (by with_reducible assumption) ?_ | dsimp only | split | intro _)

theorem touch_closeIfFull (s : State) (q : Nat) (hs : Touch F st0 s) (f_ord : F.ord = true) (f_regs : F.regs = true) (f_queues : F.queues = true) :
    Touch F st0 (closeIfFull s q) := by
  unfold closeIfFull
  repeat' (first | with_reducible (first | assumption  | apply touch_State_count | apply touch_closeBatch) | refine touch_fst (by with_reducible assumption) ?_ | dsimp only | split | intro _)

theorem touch_joinBatch (s : State) (q : Nat) (x : Member) (hs : Touch F st0 s) (f_ord : F.ord = true) (f_regs : F.regs = true) (f_queues : F.queues = true) :
    Touch F st0 (joinBatch s q x) := by
  unfold joinBatch
  repeat' (first | with_reducible (first | assumption  | apply touch_State_count | apply touch_State_modHq | apply touch_closeBatch | apply touch_closeIfFull) | refine touch_fst (by with_reducible assumption) ?_ | dsimp only | split | intro _)

theorem touch_memberEffect (m : CctMsg) (s : State) (hs : Touch F st0 s) (f_ord : F.ord = true) (f_regs : F.regs = true) (f_queues : F.queues = true) :
    Touch F st0 (memberEffect m s).1 := by
  unfold memberEffect
  repeat' (first | with_reducible (first | assumption  | apply touch_State_count | apply touch_refuse | apply touch_joinBatch) | refine touch_fst (by with_reducible assumption) ?_ | dsimp only | split | intro _)

theorem touch_execBatchMember (m : CctMsg) (s : State) (hs : Touch F st0 s) (f_ord : F.ord = true) (f_poison : F.poison = true) (f_benchPoison : F.benchPoison =
    true) (f_regs : F.regs = true) (f_trays : F.trays = true) (f_barriers : F.barriers = true) (f_queues : F.queues = true) (f_cores : F.cores = true) (f_mmu : F.mmu =
    true) (f_larder : F.larder = true) (f_arbs : F.arbs = true) (f_errLog : F.errLog = true) (f_stop : F.stop = true) (f_host : F.host = true) (f_staon : F.staon = true)
    (f_hearth : F.hearth = true) (f_hostTx : F.hostTx = true) :
    Ends F st0 (execBatchMember m s) := by
  unfold execBatchMember
  repeat' (first | with_reducible (first | assumption  | apply touch_cctCommand | apply touch_memberEffect | apply ends_next | apply ends_fault) | refine touch_fst (by with_reducible assumption) ?_ | dsimp only | split | intro _)

theorem touch_batExpire (q : Nat) (s : State) (hs : Touch F st0 s) (f_ord : F.ord = true) (f_regs : F.regs = true) (f_queues : F.queues = true) :
    Touch F st0 (batExpire q s) := by
  unfold batExpire
  repeat' (first | with_reducible (first | assumption  | apply touch_State_count | apply touch_closeBatch) | refine touch_fst (by with_reducible assumption) ?_ | dsimp only | split | intro _)

theorem touch_execBatTimerExpire (q : Nat) (s : State) (hs : Touch F st0 s) (f_ord : F.ord = true) (f_regs : F.regs = true) (f_queues : F.queues = true) :
    Ends F st0 (execBatTimerExpire q s) := by
  unfold execBatTimerExpire
  repeat' (first | with_reducible (first | assumption  | apply touch_onQueue | apply touch_batExpire | apply ends_next | apply ends_fault) | refine touch_fst (by with_reducible assumption) ?_ | dsimp only | split | intro _)

theorem touch_callEffect (m : CctMsg) (s : State) (hs : Touch F st0 s) (f_ord : F.ord = true) (f_queues : F.queues = true) :
    Touch F st0 (callEffect m s).1 := by
  unfold callEffect
  repeat' (first | with_reducible (first | assumption  | apply touch_refuse | apply touch_enqueue) | refine touch_fst (by with_reducible assumption) ?_ | dsimp only | split | intro _)

theorem touch_execQuickCall (m : CctMsg) (s : State) (hs : Touch F st0 s) (f_ord : F.ord = true) (f_poison : F.poison = true) (f_benchPoison : F.benchPoison = true)
    (f_regs : F.regs = true) (f_trays : F.trays = true) (f_barriers : F.barriers = true) (f_queues : F.queues = true) (f_cores : F.cores = true) (f_mmu : F.mmu = true)
    (f_larder : F.larder = true) (f_arbs : F.arbs = true) (f_errLog : F.errLog = true) (f_stop : F.stop = true) (f_host : F.host = true) (f_staon : F.staon = true)
    (f_hearth : F.hearth = true) (f_hostTx : F.hostTx = true) :
    Ends F st0 (execQuickCall m s) := by
  unfold execQuickCall
  repeat' (first | with_reducible (first | assumption  | apply touch_cctCommand | apply touch_callEffect | apply ends_next | apply ends_fault) | refine touch_fst (by with_reducible assumption) ?_ | dsimp only | split | intro _)

theorem touch_restartWork (s : State) (t : Nat) (i : Inst) (hs : Touch F st0 s) (f_ord : F.ord = true) (f_trays : F.trays = true) (f_cores : F.cores = true) :
    Touch F st0 (restartWork s t i) := by
  unfold restartWork
  repeat' (first | with_reducible (first | assumption  | apply touch_startStreams | apply touch_requestTransfers) | refine touch_fst (by with_reducible assumption) ?_ | dsimp only | split | intro _)

theorem touch_resumeTray (s : State) (t : Nat) (hs : Touch F st0 s) (f_ord : F.ord = true) (f_regs : F.regs = true) (f_trays : F.trays = true) (f_barriers :
    F.barriers = true) (f_queues : F.queues = true) (f_cores : F.cores = true) (f_mmu : F.mmu = true) (f_arbs : F.arbs = true) (f_errLog : F.errLog = true) (f_staon :
    F.staon = true) :
    Touch F st0 (resumeTray s t) := by
  unfold resumeTray
  repeat' (first | with_reducible (first | assumption  | apply touch_State_modTray | apply touch_tryRelease | apply touch_restartWork | apply touch_foldl | apply touch_foldl_fst) | refine touch_fst (by with_reducible assumption) ?_ | dsimp only | split | intro _)

theorem touch_trayEffect (f : State → Nat → State) (m : CctMsg) (s : State) (hf : ∀ x0 x1, Touch F st0 x0 → Touch F st0 (f x0 x1)) (hs : Touch F st0 s) :
    Touch F st0 (trayEffect f m s).1 := by
  unfold trayEffect
  repeat' (first | with_reducible (first | assumption  | apply touch_refuse | apply hf) | refine touch_fst (by with_reducible assumption) ?_ | dsimp only | split | intro _)

theorem touch_execResume (m : CctMsg) (s : State) (hs : Touch F st0 s) (f_ord : F.ord = true) (f_poison : F.poison = true) (f_benchPoison : F.benchPoison = true)
    (f_regs : F.regs = true) (f_trays : F.trays = true) (f_barriers : F.barriers = true) (f_queues : F.queues = true) (f_cores : F.cores = true) (f_mmu : F.mmu = true)
    (f_larder : F.larder = true) (f_arbs : F.arbs = true) (f_errLog : F.errLog = true) (f_stop : F.stop = true) (f_host : F.host = true) (f_staon : F.staon = true)
    (f_hearth : F.hearth = true) (f_hostTx : F.hostTx = true) :
    Ends F st0 (execResume m s) := by
  unfold execResume
  repeat' (first | with_reducible (first | assumption  | apply touch_cctCommand | apply touch_resumeTray | apply touch_trayEffect | apply ends_next | apply ends_fault) | refine touch_fst (by with_reducible assumption) ?_ | dsimp only | split | intro _)

theorem touch_abortTray (s : State) (t : Nat) (hs : Touch F st0 s) (f_regs : F.regs = true) (f_trays : F.trays = true) (f_queues : F.queues = true) (f_cores :
    F.cores = true) (f_mmu : F.mmu = true) (f_arbs : F.arbs = true) (f_errLog : F.errLog = true) (f_staon : F.staon = true) :
    Touch F st0 (abortTray s t) := by
  unfold abortTray
  repeat' (first | with_reducible (first | assumption  | apply touch_endTask) | refine touch_fst (by with_reducible assumption) ?_ | dsimp only | split | intro _)

theorem touch_execAbort (m : CctMsg) (s : State) (hs : Touch F st0 s) (f_poison : F.poison = true) (f_benchPoison : F.benchPoison = true) (f_regs : F.regs = true)
    (f_trays : F.trays = true) (f_barriers : F.barriers = true) (f_queues : F.queues = true) (f_cores : F.cores = true) (f_mmu : F.mmu = true) (f_larder : F.larder =
    true) (f_arbs : F.arbs = true) (f_errLog : F.errLog = true) (f_stop : F.stop = true) (f_host : F.host = true) (f_staon : F.staon = true) (f_hearth : F.hearth = true)
    (f_hostTx : F.hostTx = true) :
    Ends F st0 (execAbort m s) := by
  unfold execAbort
  repeat' (first | with_reducible (first | assumption  | apply touch_cctCommand | apply touch_trayEffect | apply touch_abortTray | apply ends_next | apply ends_fault) | refine touch_fst (by with_reducible assumption) ?_ | dsimp only | split | intro _)

theorem touch_restartEffect (m : CctMsg) (s : State) (hs : Touch F st0 s) (f_regs : F.regs = true) :
    Touch F st0 (restartEffect m s).1 := by
  unfold restartEffect
  repeat' (first | with_reducible (first | assumption  | apply touch_State_setFld) | refine touch_fst (by with_reducible assumption) ?_ | dsimp only | split | intro _)

theorem touch_execQueueRestart (m : CctMsg) (s : State) (hs : Touch F st0 s) (f_poison : F.poison = true) (f_benchPoison : F.benchPoison = true) (f_regs : F.regs =
    true) (f_trays : F.trays = true) (f_barriers : F.barriers = true) (f_queues : F.queues = true) (f_cores : F.cores = true) (f_mmu : F.mmu = true) (f_larder : F.larder
    = true) (f_arbs : F.arbs = true) (f_errLog : F.errLog = true) (f_stop : F.stop = true) (f_host : F.host = true) (f_staon : F.staon = true) (f_hearth : F.hearth =
    true) (f_hostTx : F.hostTx = true) :
    Ends F st0 (execQueueRestart m s) := by
  unfold execQueueRestart
  repeat' (first | with_reducible (first | assumption  | apply touch_cctCommand | apply touch_restartEffect | apply ends_next | apply ends_fault) | refine touch_fst (by with_reducible assumption) ?_ | dsimp only | split | intro _)

theorem touch_ackEffect (m : CctMsg) (s : State) (hs : Touch F st0 s) (f_regs : F.regs = true) :
    Touch F st0 (ackEffect m s).1 := by
  unfold ackEffect
  extract_lets pi ci new
  generalize (2 ^ 32 : Nat) = k
  split
  · exact touch_State_setFld _ _ _ _ _ hs f_regs
  · exact hs

theorem touch_execRingAck (m : CctMsg) (s : State) (hs : Touch F st0 s) (f_poison : F.poison = true) (f_benchPoison : F.benchPoison = true) (f_regs : F.regs = true)
    (f_trays : F.trays = true) (f_barriers : F.barriers = true) (f_queues : F.queues = true) (f_cores : F.cores = true) (f_mmu : F.mmu = true) (f_larder : F.larder =
    true) (f_arbs : F.arbs = true) (f_errLog : F.errLog = true) (f_stop : F.stop = true) (f_host : F.host = true) (f_staon : F.staon = true) (f_hearth : F.hearth = true)
    (f_hostTx : F.hostTx = true) :
    Ends F st0 (execRingAck m s) := by
  unfold execRingAck
  repeat' (first | with_reducible (first | assumption  | apply touch_cctCommand | apply touch_ackEffect | apply ends_next | apply ends_fault) | refine touch_fst (by with_reducible assumption) ?_ | dsimp only | split | intro _)

theorem touch_csrReads (f_free : F.free = true) :
    ∀ (y0 : Nat) (y1 : Nat) (y2 : State), Touch F st0 y2 → Touch F st0 (csrReads y0 y1 y2).1 := by
  intro y0
  induction y0 with
  | zero =>
    intros; unfold csrReads
    repeat' (first | with_reducible (first | assumption  | apply touch_State_setFree) | refine touch_fst (by with_reducible assumption) ?_ | dsimp only | split | intro _)
  | succ k ih =>
    intros; unfold csrReads
    repeat' (first | with_reducible (first | assumption | apply ih | apply touch_State_setFree) | refine touch_fst (by with_reducible assumption) ?_ | dsimp only | split | intro _)

theorem touch_readEffect (m : CctMsg) (s : State) (hs : Touch F st0 s) (f_free : F.free = true) :
    Touch F st0 (readEffect m s).1 := by
  unfold readEffect
  repeat' (first | with_reducible (first | assumption  | apply touch_refuse | apply touch_csrReads) | refine touch_fst (by with_reducible assumption) ?_ | dsimp only | split | intro _)

theorem touch_execCsrRead (m : CctMsg) (s : State) (hs : Touch F st0 s) (f_free : F.free = true) (f_poison : F.poison = true) (f_benchPoison : F.benchPoison = true)
    (f_regs : F.regs = true) (f_trays : F.trays = true) (f_barriers : F.barriers = true) (f_queues : F.queues = true) (f_cores : F.cores = true) (f_mmu : F.mmu = true)
    (f_larder : F.larder = true) (f_arbs : F.arbs = true) (f_errLog : F.errLog = true) (f_stop : F.stop = true) (f_host : F.host = true) (f_staon : F.staon = true)
    (f_hearth : F.hearth = true) (f_hostTx : F.hostTx = true) :
    Ends F st0 (execCsrRead m s) := by
  unfold execCsrRead
  repeat' (first | with_reducible (first | assumption  | apply touch_cctCommand | apply touch_readEffect | apply ends_next | apply ends_fault) | refine touch_fst (by with_reducible assumption) ?_ | dsimp only | split | intro _)

theorem touch_writeEffect (m : CctMsg) (s : State) (hs : Touch F st0 s) (f_mem : F.mem = true) (f_poison : F.poison = true) (f_regs : F.regs = true) (f_trays :
    F.trays = true) (f_barriers : F.barriers = true) (f_queues : F.queues = true) (f_cores : F.cores = true) (f_mmu : F.mmu = true) (f_larder : F.larder = true) (f_arbs
    : F.arbs = true) (f_power : F.power = true) (f_errLog : F.errLog = true) (f_host : F.host = true) (f_staon : F.staon = true) :
    Touch F st0 (writeEffect m s).1 := by
  unfold writeEffect
  repeat' (first | with_reducible (first | assumption  | apply touch_regWrite | apply touch_refuse | apply touch_foldl | apply touch_foldl_fst) | refine touch_fst (by with_reducible assumption) ?_ | dsimp only | split | intro _)

theorem touch_execCsrWrite (m : CctMsg) (s : State) (hs : Touch F st0 s) (f_mem : F.mem = true) (f_poison : F.poison = true) (f_benchPoison : F.benchPoison = true)
    (f_regs : F.regs = true) (f_trays : F.trays = true) (f_barriers : F.barriers = true) (f_queues : F.queues = true) (f_cores : F.cores = true) (f_mmu : F.mmu = true)
    (f_larder : F.larder = true) (f_arbs : F.arbs = true) (f_power : F.power = true) (f_errLog : F.errLog = true) (f_stop : F.stop = true) (f_host : F.host = true)
    (f_staon : F.staon = true) (f_hearth : F.hearth = true) (f_hostTx : F.hostTx = true) :
    Ends F st0 (execCsrWrite m s) := by
  unfold execCsrWrite
  repeat' (first | with_reducible (first | assumption  | apply touch_cctCommand | apply touch_writeEffect | apply ends_next | apply ends_fault) | refine touch_fst (by with_reducible assumption) ?_ | dsimp only | split | intro _)

theorem touch_capsEffect (_m : CctMsg) (s : State) (hs : Touch F st0 s) :
    Touch F st0 (capsEffect _m s).1 := by
  unfold capsEffect
  repeat' (first | with_reducible (first | assumption ) | refine touch_fst (by with_reducible assumption) ?_ | dsimp only | split | intro _)

theorem touch_execCaps (m : CctMsg) (s : State) (hs : Touch F st0 s) (f_poison : F.poison = true) (f_benchPoison : F.benchPoison = true) (f_regs : F.regs = true)
    (f_trays : F.trays = true) (f_barriers : F.barriers = true) (f_queues : F.queues = true) (f_cores : F.cores = true) (f_mmu : F.mmu = true) (f_larder : F.larder =
    true) (f_arbs : F.arbs = true) (f_errLog : F.errLog = true) (f_stop : F.stop = true) (f_host : F.host = true) (f_staon : F.staon = true) (f_hearth : F.hearth = true)
    (f_hostTx : F.hostTx = true) :
    Ends F st0 (execCaps m s) := by
  unfold execCaps
  repeat' (first | with_reducible (first | assumption  | apply touch_cctCommand | apply touch_capsEffect | apply ends_next | apply ends_fault) | refine touch_fst (by with_reducible assumption) ?_ | dsimp only | split | intro _)

theorem touch_cctByOp (op : Nat) (m : CctMsg) (s : State) (hs : Touch F st0 s) (f_ord : F.ord = true) (f_free : F.free = true) (f_mem : F.mem = true) (f_poison :
    F.poison = true) (f_regs : F.regs = true) (f_trays : F.trays = true) (f_barriers : F.barriers = true) (f_queues : F.queues = true) (f_cores : F.cores = true) (f_mmu
    : F.mmu = true) (f_larder : F.larder = true) (f_arbs : F.arbs = true) (f_power : F.power = true) (f_errLog : F.errLog = true) (f_host : F.host = true) (f_staon :
    F.staon = true) (f_hostTx : F.hostTx = true) :
    Touch F st0 (cctByOp op m s) := by
  unfold cctByOp
  repeat' (first | with_reducible (first | assumption  | apply touch_refuse | apply touch_cctServe | apply touch_doorbellEffect | apply touch_memberEffect | apply touch_callEffect | apply touch_resumeTray | apply touch_trayEffect | apply touch_abortTray | apply touch_restartEffect | apply touch_ackEffect | apply touch_readEffect | apply touch_writeEffect | apply touch_capsEffect) | refine touch_fst (by with_reducible assumption) ?_ | dsimp only | split | intro _)

/-! ### LevainEng.lean -/

theorem touch_takeBitmap (s : State) (t : Nat) (i : Inst) (hs : Touch F st0 s) (f_ord : F.ord = true) (f_cores : F.cores = true) :
    Touch F st0 (takeBitmap s t i) := by
  unfold takeBitmap
  repeat' (first | with_reducible (first | assumption  | apply touch_State_modLevain | apply touch_State_tick | apply touch_id) | refine touch_fst (by with_reducible assumption) ?_ | dsimp only | split | intro _)

theorem touch_factorRows (s : State) (t : Nat) (d : Desc) (xs : List El) (hs : Touch F st0 s) (f_mem : F.mem = true) (f_poison : F.poison = true) (f_benchPoison :
    F.benchPoison = true) (f_regs : F.regs = true) (f_cores : F.cores = true) (f_mmu : F.mmu = true) (f_larder : F.larder = true) (f_arbs : F.arbs = true) (f_planted :
    F.planted = true) :
    ∀ (y0 : Nat) (y1 : Nat), Touch F st0 (factorRows s t d xs y0 y1).1 := by
  intro y0 y1
  induction y1 generalizing s y0 with
  | zero =>
    unfold factorRows
    repeat' (first | with_reducible (first | assumption  | apply touch_andThen | apply touch_rowEls) | refine touch_fst (by with_reducible assumption) ?_ | dsimp only | split | intro _)
  | succ k ih =>
    unfold factorRows
    repeat' (first | with_reducible (first | assumption | apply ih | apply touch_andThen | apply touch_rowEls) | refine touch_fst (by with_reducible assumption) ?_ | dsimp only | split | intro _)

theorem touch_rowScores (s : State) (t : Nat) (i : Inst) (row : Nat) (hs : Touch F st0 s) (f_mem : F.mem = true) (f_poison : F.poison = true) (f_benchPoison :
    F.benchPoison = true) (f_regs : F.regs = true) (f_cores : F.cores = true) (f_mmu : F.mmu = true) (f_larder : F.larder = true) (f_arbs : F.arbs = true) (f_planted :
    F.planted = true) :
    Touch F st0 (rowScores s t i row).1 := by
  unfold rowScores
  repeat' (first | with_reducible (first | assumption  | apply touch_andThen | apply touch_rowEls | apply touch_factorRows) | refine touch_fst (by with_reducible assumption) ?_ | dsimp only | split | intro _)

theorem touch_watchList (s : State) (t : Nat) (i : Inst) (hs : Touch F st0 s) (f_mem : F.mem = true) (f_poison : F.poison = true) (f_benchPoison : F.benchPoison =
    true) (f_regs : F.regs = true) (f_cores : F.cores = true) (f_mmu : F.mmu = true) (f_larder : F.larder = true) (f_arbs : F.arbs = true) (f_planted : F.planted = true)
    :
    Touch F st0 (watchList s t i).1 := by
  unfold watchList
  repeat' (first | with_reducible (first | assumption  | apply touch_andThen | apply touch_rowEls) | refine touch_fst (by with_reducible assumption) ?_ | dsimp only | split | intro _)

theorem touch_finishBitmap (s : State) (t : Nat) (i : Inst) (pred : Nat) (watch : List Int) (hs : Touch F st0 s) (f_ord : F.ord = true) (f_mem : F.mem = true)
    (f_poison : F.poison = true) (f_benchPoison : F.benchPoison = true) (f_regs : F.regs = true) (f_trays : F.trays = true) (f_cores : F.cores = true) (f_planted :
    F.planted = true) :
    Touch F st0 (finishBitmap s t i pred watch) := by
  unfold finishBitmap
  repeat' (first | with_reducible (first | assumption  | apply touch_State_modLevain | apply touch_State_modInst | apply touch_benchWrite | apply touch_addRequest | apply touch_wrote | apply touch_foldl | apply touch_foldl_fst) | refine touch_fst (by with_reducible assumption) ?_ | dsimp only | split | intro _)

theorem touch_levainStep (s0 : State) (x : Step) (i : Inst) (hs0 : Touch F st0 s0) (f_ord : F.ord = true) (f_mem : F.mem = true) (f_poison : F.poison = true)
    (f_benchPoison : F.benchPoison = true) (f_regs : F.regs = true) (f_trays : F.trays = true) (f_barriers : F.barriers = true) (f_queues : F.queues = true) (f_cores :
    F.cores = true) (f_mmu : F.mmu = true) (f_larder : F.larder = true) (f_arbs : F.arbs = true) (f_errLog : F.errLog = true) (f_planted : F.planted = true) (f_stop :
    F.stop = true) (f_staon : F.staon = true) (f_hearth : F.hearth = true) :
    Touch F st0 (levainStep s0 x i) := by
  unfold levainStep
  repeat' (first | with_reducible (first | assumption  | apply touch_State_modLevain | apply touch_State_modInst | apply touch_faultInst | apply touch_memFault | apply touch_readTray | apply touch_stepEnds | apply touch_takeBitmap | apply touch_rowScores | apply touch_watchList | apply touch_finishBitmap) | refine touch_fst (by with_reducible assumption) ?_ | dsimp only | split | intro _)

theorem touch_levainRun (c : Nat) (p : Step → Bool) (s : State) (hs : Touch F st0 s) (f_ord : F.ord = true) (f_mem : F.mem = true) (f_poison : F.poison = true)
    (f_benchPoison : F.benchPoison = true) (f_regs : F.regs = true) (f_trays : F.trays = true) (f_barriers : F.barriers = true) (f_queues : F.queues = true) (f_cores :
    F.cores = true) (f_mmu : F.mmu = true) (f_larder : F.larder = true) (f_arbs : F.arbs = true) (f_errLog : F.errLog = true) (f_planted : F.planted = true) (f_stop :
    F.stop = true) (f_staon : F.staon = true) (f_hearth : F.hearth = true) :
    Touch F st0 (levainRun c p s) := by
  unfold levainRun
  repeat' (first | with_reducible (first | assumption  | apply touch_levainStep) | refine touch_fst (by with_reducible assumption) ?_ | dsimp only | split | intro _)

theorem touch_execLevainStepStart (c : Nat) (s : State) (hs : Touch F st0 s) (f_ord : F.ord = true) (f_mem : F.mem = true) (f_poison : F.poison = true)
    (f_benchPoison : F.benchPoison = true) (f_regs : F.regs = true) (f_trays : F.trays = true) (f_barriers : F.barriers = true) (f_queues : F.queues = true) (f_cores :
    F.cores = true) (f_mmu : F.mmu = true) (f_larder : F.larder = true) (f_arbs : F.arbs = true) (f_errLog : F.errLog = true) (f_planted : F.planted = true) (f_stop :
    F.stop = true) (f_staon : F.staon = true) (f_hearth : F.hearth = true) :
    Ends F st0 (execLevainStepStart c s) := by
  unfold execLevainStepStart
  repeat' (first | with_reducible (first | assumption  | apply touch_onCore | apply touch_levainRun | apply ends_next | apply ends_fault) | refine touch_fst (by with_reducible assumption) ?_ | dsimp only | split | intro _)

theorem touch_execLevBitmapTake (c : Nat) (s : State) (hs : Touch F st0 s) (f_ord : F.ord = true) (f_mem : F.mem = true) (f_poison : F.poison = true) (f_benchPoison
    : F.benchPoison = true) (f_regs : F.regs = true) (f_trays : F.trays = true) (f_barriers : F.barriers = true) (f_queues : F.queues = true) (f_cores : F.cores = true)
    (f_mmu : F.mmu = true) (f_larder : F.larder = true) (f_arbs : F.arbs = true) (f_errLog : F.errLog = true) (f_planted : F.planted = true) (f_stop : F.stop = true)
    (f_staon : F.staon = true) (f_hearth : F.hearth = true) :
    Ends F st0 (execLevBitmapTake c s) := by
  unfold execLevBitmapTake
  repeat' (first | with_reducible (first | assumption  | apply touch_onCore | apply touch_levainRun | apply ends_next | apply ends_fault) | refine touch_fst (by with_reducible assumption) ?_ | dsimp only | split | intro _)

/-! ### MgtCmd.lean -/

theorem touch_mgtAnswer (s : State) (port : Nat) (m : StnMsg) (status : Nat) (words : List Reg) (hs : Touch F st0 s) (f_regs : F.regs = true) (f_staon : F.staon = true) :
    Touch F st0 (mgtAnswer s port m status words) := by
  unfold mgtAnswer
  repeat' (first | with_reducible (first | assumption  | apply touch_portSend | apply touch_takeMsgid | apply touch_dropMsg | apply touch_id) | refine touch_fst (by with_reducible assumption) ?_ | dsimp only | split | intro _)

theorem touch_management (port type : Nat) (f : State → StnMsg → State) (m : StnMsg) (s : State) (hf : ∀ x0 x1, Touch F st0 x0 → Touch F st0 (f x0 x1)) (hs : Touch F
    st0 s) (f_ord : F.ord = true) (f_poison : F.poison = true) (f_benchPoison : F.benchPoison = true) (f_regs : F.regs = true) (f_trays : F.trays = true) (f_barriers :
    F.barriers = true) (f_queues : F.queues = true) (f_cores : F.cores = true) (f_mmu : F.mmu = true) (f_larder : F.larder = true) (f_arbs : F.arbs = true) (f_errLog :
    F.errLog = true) (f_stop : F.stop = true) (f_staon : F.staon = true) (f_hearth : F.hearth = true) :
    Ends F st0 (management port type f m s) := by
  unfold management
  repeat' (first | with_reducible (first | assumption  | apply touch_freeBuffer | apply touch_forwardMgt | apply touch_arrives | apply hf | apply ends_next | apply ends_fault) | refine touch_fst (by with_reducible assumption) ?_ | dsimp only | split | intro _)

theorem touch_writeWords (f_mem : F.mem = true) (f_poison : F.poison = true) (f_regs : F.regs = true) (f_trays : F.trays = true) (f_barriers : F.barriers = true)
    (f_queues : F.queues = true) (f_cores : F.cores = true) (f_mmu : F.mmu = true) (f_larder : F.larder = true) (f_arbs : F.arbs = true) (f_power : F.power = true)
    (f_errLog : F.errLog = true) (f_host : F.host = true) (f_staon : F.staon = true) :
    ∀ (y0 : State) (y1 : Nat) (y2 : List Reg), Touch F st0 y0 → Touch F st0 (writeWords y0 y1 y2) := by
  intro y0 y1 y2
  induction y2 generalizing y0 y1 with
  | nil =>
    unfold writeWords
    repeat' (first | with_reducible (first | assumption  | apply touch_regWrite) | refine touch_fst (by with_reducible assumption) ?_ | dsimp only | split | intro _)
  | cons x l ih =>
    unfold writeWords
    repeat' (first | with_reducible (first | assumption | apply ih | apply touch_regWrite) | refine touch_fst (by with_reducible assumption) ?_ | dsimp only | split | intro _)

theorem touch_mgtRead (s : State) (port : Nat) (m : StnMsg) (hs : Touch F st0 s) (f_regs : F.regs = true) (f_staon : F.staon = true) :
    Touch F st0 (mgtRead s port m) := by
  unfold mgtRead
  repeat' (first | with_reducible (first | assumption  | apply touch_mgtAnswer) | refine touch_fst (by with_reducible assumption) ?_ | dsimp only | split | intro _)

theorem touch_execMgtRead (port : Nat) (m : StnMsg) (s : State) (hs : Touch F st0 s) (f_ord : F.ord = true) (f_poison : F.poison = true) (f_benchPoison :
    F.benchPoison = true) (f_regs : F.regs = true) (f_trays : F.trays = true) (f_barriers : F.barriers = true) (f_queues : F.queues = true) (f_cores : F.cores = true)
    (f_mmu : F.mmu = true) (f_larder : F.larder = true) (f_arbs : F.arbs = true) (f_errLog : F.errLog = true) (f_stop : F.stop = true) (f_staon : F.staon = true)
    (f_hearth : F.hearth = true) :
    Ends F st0 (execMgtRead port m s) := by
  unfold execMgtRead
  repeat' (first | with_reducible (first | assumption  | apply touch_management | apply touch_mgtRead | apply ends_next | apply ends_fault) | refine touch_fst (by with_reducible assumption) ?_ | dsimp only | split | intro _)

theorem touch_mgtWrite (s : State) (port : Nat) (m : StnMsg) (hs : Touch F st0 s) (f_mem : F.mem = true) (f_poison : F.poison = true) (f_regs : F.regs = true)
    (f_trays : F.trays = true) (f_barriers : F.barriers = true) (f_queues : F.queues = true) (f_cores : F.cores = true) (f_mmu : F.mmu = true) (f_larder : F.larder =
    true) (f_arbs : F.arbs = true) (f_power : F.power = true) (f_errLog : F.errLog = true) (f_host : F.host = true) (f_staon : F.staon = true) :
    Touch F st0 (mgtWrite s port m) := by
  unfold mgtWrite
  repeat' (first | with_reducible (first | assumption  | apply touch_mgtAnswer | apply touch_writeWords) | refine touch_fst (by with_reducible assumption) ?_ | dsimp only | split | intro _)

theorem touch_execMgtWrite (port : Nat) (m : StnMsg) (s : State) (hs : Touch F st0 s) (f_ord : F.ord = true) (f_mem : F.mem = true) (f_poison : F.poison = true)
    (f_benchPoison : F.benchPoison = true) (f_regs : F.regs = true) (f_trays : F.trays = true) (f_barriers : F.barriers = true) (f_queues : F.queues = true) (f_cores :
    F.cores = true) (f_mmu : F.mmu = true) (f_larder : F.larder = true) (f_arbs : F.arbs = true) (f_power : F.power = true) (f_errLog : F.errLog = true) (f_stop : F.stop
    = true) (f_host : F.host = true) (f_staon : F.staon = true) (f_hearth : F.hearth = true) :
    Ends F st0 (execMgtWrite port m s) := by
  unfold execMgtWrite
  repeat' (first | with_reducible (first | assumption  | apply touch_management | apply touch_mgtWrite | apply ends_next | apply ends_fault) | refine touch_fst (by with_reducible assumption) ?_ | dsimp only | split | intro _)

theorem touch_mailboxTake (s : State) (m : StnMsg) (hs : Touch F st0 s) (f_regs : F.regs = true) :
    Touch F st0 (mailboxTake s m) := by
  unfold mailboxTake
  repeat' (first | with_reducible (first | assumption  | apply touch_State_setReg | apply touch_State_setFld | apply touch_foldl | apply touch_foldl_fst) | refine touch_fst (by with_reducible assumption) ?_ | dsimp only | split | intro _)

theorem touch_execMgtReply (port : Nat) (m : StnMsg) (s : State) (hs : Touch F st0 s) (f_ord : F.ord = true) (f_poison : F.poison = true) (f_benchPoison :
    F.benchPoison = true) (f_regs : F.regs = true) (f_trays : F.trays = true) (f_barriers : F.barriers = true) (f_queues : F.queues = true) (f_cores : F.cores = true)
    (f_mmu : F.mmu = true) (f_larder : F.larder = true) (f_arbs : F.arbs = true) (f_errLog : F.errLog = true) (f_stop : F.stop = true) (f_staon : F.staon = true)
    (f_hearth : F.hearth = true) :
    Ends F st0 (execMgtReply port m s) := by
  unfold execMgtReply
  repeat' (first | with_reducible (first | assumption  | apply touch_management | apply touch_mailboxTake | apply ends_next | apply ends_fault) | refine touch_fst (by with_reducible assumption) ?_ | dsimp only | split | intro _)

/-! ### PowerEvents.lean -/

theorem touch_byHearth (s : State) (f : State → State) (hs : Touch F st0 s) (hf : ∀ x0, Touch F st0 x0 → Touch F st0 (f x0)) :
    Touch F st0 (byHearth s f) := by
  unfold byHearth
  repeat' (first | with_reducible (first | assumption  | apply hf) | refine touch_fst (by with_reducible assumption) ?_ | dsimp only | split | intro _)

theorem touch_execGovernorWindow (counts : List Nat) (s : State) (hs : Touch F st0 s) (f_regs : F.regs = true) (f_power : F.power = true) :
    Ends F st0 (execGovernorWindow counts s) := by
  unfold execGovernorWindow
  repeat' (first | with_reducible (first | assumption  | apply touch_governorStep | apply touch_byHearth | apply ends_next | apply ends_fault) | refine touch_fst (by with_reducible assumption) ?_ | dsimp only | split | intro _)

theorem touch_execDomainIdleOff (d : Nat) (s : State) (hs : Touch F st0 s) (f_power : F.power = true) :
    Ends F st0 (execDomainIdleOff d s) := by
  unfold execDomainIdleOff
  repeat' (first | with_reducible (first | assumption  | apply touch_idleOff | apply touch_byHearth | apply ends_next | apply ends_fault) | refine touch_fst (by with_reducible assumption) ?_ | dsimp only | split | intro _)

theorem touch_execWakeTokenDraw (s : State) (hs : Touch F st0 s) (f_power : F.power = true) :
    Ends F st0 (execWakeTokenDraw s) := by
  unfold execWakeTokenDraw
  repeat' (first | with_reducible (first | assumption  | apply touch_drawTokens | apply touch_byHearth | apply ends_next | apply ends_fault) | refine touch_fst (by with_reducible assumption) ?_ | dsimp only | split | intro _)

theorem touch_portsFollow (s : State) (d : Nat) (hs : Touch F st0 s) (f_regs : F.regs = true) (f_trays : F.trays = true) (f_queues : F.queues = true) (f_cores :
    F.cores = true) (f_mmu : F.mmu = true) (f_arbs : F.arbs = true) (f_errLog : F.errLog = true) (f_host : F.host = true) (f_staon : F.staon = true) :
    Touch F st0 (portsFollow s d) := by
  unfold portsFollow
  repeat' (first | with_reducible (first | assumption  | apply touch_hostDown | apply touch_adjustPorts | apply touch_foldl | apply touch_foldl_fst) | refine touch_fst (by with_reducible assumption) ?_ | dsimp only | split | intro _)

theorem touch_execWakeComplete (d : Nat) (s : State) (hs : Touch F st0 s) (f_regs : F.regs = true) (f_trays : F.trays = true) (f_queues : F.queues = true) (f_cores :
    F.cores = true) (f_mmu : F.mmu = true) (f_arbs : F.arbs = true) (f_power : F.power = true) (f_errLog : F.errLog = true) (f_host : F.host = true) (f_staon : F.staon =
    true) :
    Ends F st0 (execWakeComplete d s) := by
  unfold execWakeComplete
  repeat' (first | with_reducible (first | assumption  | apply touch_wakeDone | apply touch_byHearth | apply touch_portsFollow | apply ends_next | apply ends_fault) | refine touch_fst (by with_reducible assumption) ?_ | dsimp only | split | intro _)

theorem touch_execSwitchOffComplete (d : Nat) (s : State) (hs : Touch F st0 s) (f_free : F.free = true) (f_mem : F.mem = true) (f_poison : F.poison = true)
    (f_benchPoison : F.benchPoison = true) (f_regs : F.regs = true) (f_trays : F.trays = true) (f_queues : F.queues = true) (f_cores : F.cores = true) (f_mmu : F.mmu =
    true) (f_larder : F.larder = true) (f_arbs : F.arbs = true) (f_power : F.power = true) (f_errLog : F.errLog = true) (f_host : F.host = true) (f_staon : F.staon =
    true) :
    Ends F st0 (execSwitchOffComplete d s) := by
  unfold execSwitchOffComplete
  repeat' (first | with_reducible (first | assumption  | apply touch_switchOffDone | apply touch_byHearth | apply touch_portsFollow | apply ends_next | apply ends_fault) | refine touch_fst (by with_reducible assumption) ?_ | dsimp only | split | intro _)

theorem touch_execThermalSample (temps : List Int) (s : State) (hs : Touch F st0 s) (f_regs : F.regs = true) (f_power : F.power = true) (f_hearth : F.hearth = true)
    (f_modhw : F.modhw = true) :
    Ends F st0 (execThermalSample temps s) := by
  unfold execThermalSample
  repeat' (first | with_reducible (first | assumption  | apply touch_thermalStep | apply touch_byHearth | apply ends_next | apply ends_fault) | refine touch_fst (by with_reducible assumption) ?_ | dsimp only | split | intro _)

theorem touch_execEstDriftCheck (deciwatts : Nat) (s : State) (hs : Touch F st0 s) (f_regs : F.regs = true) (f_modhw : F.modhw = true) :
    Ends F st0 (execEstDriftCheck deciwatts s) := by
  unfold execEstDriftCheck
  repeat' (first | with_reducible (first | assumption  | apply touch_driftStep | apply touch_byHearth | apply ends_next | apply ends_fault) | refine touch_fst (by with_reducible assumption) ?_ | dsimp only | split | intro _)

end Sys2Proof.Machine
end

