-- ==== Sys2Proof/Laws/Touch7.lean ====
section
/-! SUPPORT. What each operation of Roce.lean, SieveEng.lean, Vector.lean and Tick.lean may write: one lemma for each, by its own name. -/

namespace Sys2Proof.Machine

set_option linter.all false

variable {F : Parts} {st0 : State}

/-! ### Roce.lean -/

theorem touch_modQp (s : State) (q : Nat) (f : Qp → Qp) (hs : Touch F st0 s) (f_host : F.host = true) :
    Touch F st0 (modQp s q f) := by
  unfold modQp
  repeat' (first | with_reducible (first | assumption  | apply touch_State_setHost) | refine touch_fst (by with_reducible assumption) ?_ | dsimp only | split | intro _)

theorem touch_noteCe (s : State) (q : Nat) (ce : Bool) (hs : Touch F st0 s) (f_host : F.host = true) (f_hostTx : F.hostTx = true) :
    Touch F st0 (noteCe s q ce) := by
  unfold noteCe
  repeat' (first | with_reducible (first | assumption  | apply touch_sendQp | apply touch_modQp) | refine touch_fst (by with_reducible assumption) ?_ | dsimp only | split | intro _)

theorem touch_requestIn (r : RoceReq) (bytes : Nat) (f : State → State) (s : State) (hf : ∀ x0, Touch F st0 x0 → Touch F st0 (f x0)) (hs : Touch F st0 s) (f_poison :
    F.poison = true) (f_benchPoison : F.benchPoison = true) (f_regs : F.regs = true) (f_trays : F.trays = true) (f_barriers : F.barriers = true) (f_queues : F.queues =
    true) (f_cores : F.cores = true) (f_mmu : F.mmu = true) (f_larder : F.larder = true) (f_arbs : F.arbs = true) (f_errLog : F.errLog = true) (f_stop : F.stop = true)
    (f_host : F.host = true) (f_staon : F.staon = true) (f_hearth : F.hearth = true) (f_hostTx : F.hostTx = true) :
    Touch F st0 (requestIn r bytes f s) := by
  unfold requestIn
  repeat' (first | with_reducible (first | assumption  | apply touch_countFrames | apply touch_rxBuffer | apply touch_noteCe | apply hf) | refine touch_fst (by with_reducible assumption) ?_ | dsimp only | split | intro _)

theorem touch_refuseAccess (s : State) (q : Nat) (counted : Bool) (hs : Touch F st0 s) (f_regs : F.regs = true) (f_host : F.host = true) (f_hostTx : F.hostTx = true) :
    Touch F st0 (refuseAccess s q counted) := by
  unfold refuseAccess
  repeat' (first | with_reducible (first | assumption  | apply touch_State_count | apply touch_sendQp) | refine touch_fst (by with_reducible assumption) ?_ | dsimp only | split | intro _)

theorem touch_rdmaWrite (r : RoceReq) (s : State) (hs : Touch F st0 s) (f_mem : F.mem = true) (f_poison : F.poison = true) (f_benchPoison : F.benchPoison = true)
    (f_regs : F.regs = true) (f_cores : F.cores = true) (f_mmu : F.mmu = true) (f_larder : F.larder = true) (f_arbs : F.arbs = true) (f_planted : F.planted = true)
    (f_host : F.host = true) (f_hostTx : F.hostTx = true) :
    Touch F st0 (rdmaWrite r s) := by
  unfold rdmaWrite
  repeat' (first | with_reducible (first | assumption  | apply touch_finishRepart | apply touch_sendQp | apply touch_writeThrough | apply touch_refuseAccess) | refine touch_fst (by with_reducible assumption) ?_ | dsimp only | split | intro _)

theorem touch_execRdmaWrite (r : RoceReq) (s : State) (hs : Touch F st0 s) (f_mem : F.mem = true) (f_poison : F.poison = true) (f_benchPoison : F.benchPoison = true)
    (f_regs : F.regs = true) (f_trays : F.trays = true) (f_barriers : F.barriers = true) (f_queues : F.queues = true) (f_cores : F.cores = true) (f_mmu : F.mmu = true)
    (f_larder : F.larder = true) (f_arbs : F.arbs = true) (f_errLog : F.errLog = true) (f_planted : F.planted = true) (f_stop : F.stop = true) (f_host : F.host = true)
    (f_staon : F.staon = true) (f_hearth : F.hearth = true) (f_hostTx : F.hostTx = true) :
    Ends F st0 (execRdmaWrite r s) := by
  unfold execRdmaWrite
  repeat' (first | with_reducible (first | assumption  | apply touch_requestIn | apply touch_rdmaWrite | apply ends_next | apply ends_fault) | refine touch_fst (by with_reducible assumption) ?_ | dsimp only | split | intro _)

theorem touch_rdmaRead (r : RoceReq) (s : State) (hs : Touch F st0 s) (f_mem : F.mem = true) (f_poison : F.poison = true) (f_benchPoison : F.benchPoison = true)
    (f_regs : F.regs = true) (f_cores : F.cores = true) (f_mmu : F.mmu = true) (f_larder : F.larder = true) (f_arbs : F.arbs = true) (f_planted : F.planted = true)
    (f_host : F.host = true) (f_hostTx : F.hostTx = true) :
    Touch F st0 (rdmaRead r s) := by
  unfold rdmaRead
  repeat' (first | with_reducible (first | assumption  | apply touch_finishRepart | apply touch_readV | apply touch_sendQp | apply touch_refuseAccess) | refine touch_fst (by with_reducible assumption) ?_ | dsimp only | split | intro _)

theorem touch_execRdmaReadRequest (r : RoceReq) (s : State) (hs : Touch F st0 s) (f_mem : F.mem = true) (f_poison : F.poison = true) (f_benchPoison : F.benchPoison =
    true) (f_regs : F.regs = true) (f_trays : F.trays = true) (f_barriers : F.barriers = true) (f_queues : F.queues = true) (f_cores : F.cores = true) (f_mmu : F.mmu =
    true) (f_larder : F.larder = true) (f_arbs : F.arbs = true) (f_errLog : F.errLog = true) (f_planted : F.planted = true) (f_stop : F.stop = true) (f_host : F.host =
    true) (f_staon : F.staon = true) (f_hearth : F.hearth = true) (f_hostTx : F.hostTx = true) :
    Ends F st0 (execRdmaReadRequest r s) := by
  unfold execRdmaReadRequest
  repeat' (first | with_reducible (first | assumption  | apply touch_requestIn | apply touch_rdmaRead | apply ends_next | apply ends_fault) | refine touch_fst (by with_reducible assumption) ?_ | dsimp only | split | intro _)

theorem touch_execSend (r : RoceReq) (op : Nat) (m : CctMsg) (s : State) (hs : Touch F st0 s) (f_ord : F.ord = true) (f_free : F.free = true) (f_mem : F.mem = true)
    (f_poison : F.poison = true) (f_benchPoison : F.benchPoison = true) (f_regs : F.regs = true) (f_trays : F.trays = true) (f_barriers : F.barriers = true) (f_queues :
    F.queues = true) (f_cores : F.cores = true) (f_mmu : F.mmu = true) (f_larder : F.larder = true) (f_arbs : F.arbs = true) (f_power : F.power = true) (f_errLog :
    F.errLog = true) (f_stop : F.stop = true) (f_host : F.host = true) (f_staon : F.staon = true) (f_hearth : F.hearth = true) (f_hostTx : F.hostTx = true) :
    Ends F st0 (execSend r op m s) := by
  unfold execSend
  repeat' (first | with_reducible (first | assumption  | apply touch_sendQp | apply touch_cctByOp | apply touch_requestIn | apply ends_next | apply ends_fault) | refine touch_fst (by with_reducible assumption) ?_ | dsimp only | split | intro _)

theorem touch_execInvalidRequestOpcode (r : RoceReq) (s : State) (hs : Touch F st0 s) (f_poison : F.poison = true) (f_benchPoison : F.benchPoison = true) (f_regs :
    F.regs = true) (f_trays : F.trays = true) (f_barriers : F.barriers = true) (f_queues : F.queues = true) (f_cores : F.cores = true) (f_mmu : F.mmu = true) (f_larder :
    F.larder = true) (f_arbs : F.arbs = true) (f_errLog : F.errLog = true) (f_stop : F.stop = true) (f_host : F.host = true) (f_staon : F.staon = true) (f_hearth :
    F.hearth = true) (f_hostTx : F.hostTx = true) :
    Ends F st0 (execInvalidRequestOpcode r s) := by
  unfold execInvalidRequestOpcode
  repeat' (first | with_reducible (first | assumption  | apply touch_sendQp | apply touch_requestIn | apply ends_next | apply ends_fault) | refine touch_fst (by with_reducible assumption) ?_ | dsimp only | split | intro _)

theorem touch_sendReq (s : State) (q : Nat) (x : HostReq) (hs : Touch F st0 s) (f_host : F.host = true) (f_hostTx : F.hostTx = true) :
    Touch F st0 (sendReq s q x) := by
  unfold sendReq
  repeat' (first | with_reducible (first | assumption  | apply touch_State_write | apply touch_sendQp | apply touch_hostWriteOut) | refine touch_fst (by with_reducible assumption) ?_ | dsimp only | split | intro _)

theorem touch_answerIn (s : State) (q bytes : Nat) (f : State → State) (hs : Touch F st0 s) (hf : ∀ x0, Touch F st0 x0 → Touch F st0 (f x0)) (f_regs : F.regs = true) :
    Touch F st0 (answerIn s q bytes f) := by
  unfold answerIn
  repeat' (first | with_reducible (first | assumption  | apply touch_countFrames | apply hf) | refine touch_fst (by with_reducible assumption) ?_ | dsimp only | split | intro _)

theorem touch_dropReq (s : State) (q : Nat) (write : Bool) (hs : Touch F st0 s) (f_host : F.host = true) :
    Touch F st0 (dropReq s q write) := by
  unfold dropReq
  repeat' (first | with_reducible (first | assumption  | apply touch_State_write | apply touch_modQp) | refine touch_fst (by with_reducible assumption) ?_ | dsimp only | split | intro _)

theorem touch_nextRead (s : State) (q : Nat) (hs : Touch F st0 s) (f_host : F.host = true) (f_hostTx : F.hostTx = true) :
    Touch F st0 (nextRead s q) := by
  unfold nextRead
  repeat' (first | with_reducible (first | assumption  | apply touch_State_write | apply touch_sendReq) | refine touch_fst (by with_reducible assumption) ?_ | dsimp only | split | intro _)

theorem touch_readArrives (q : Nat) (data : List Byte) (s : State) (hs : Touch F st0 s) (f_mem : F.mem = true) (f_poison : F.poison = true) (f_benchPoison :
    F.benchPoison = true) (f_regs : F.regs = true) (f_planted : F.planted = true) (f_host : F.host = true) (f_hostTx : F.hostTx = true) :
    Touch F st0 (readArrives q data s) := by
  unfold readArrives
  repeat' (first | with_reducible (first | assumption  | apply touch_State_write | apply touch_dropReq | apply touch_nextRead) | refine touch_fst (by with_reducible assumption) ?_ | dsimp only | split | intro _)

theorem touch_execRdmaReadResponse (q : Nat) (data : List Byte) (s : State) (hs : Touch F st0 s) (f_mem : F.mem = true) (f_poison : F.poison = true) (f_benchPoison :
    F.benchPoison = true) (f_regs : F.regs = true) (f_planted : F.planted = true) (f_host : F.host = true) (f_hostTx : F.hostTx = true) :
    Ends F st0 (execRdmaReadResponse q data s) := by
  unfold execRdmaReadResponse
  repeat' (first | with_reducible (first | assumption  | apply touch_answerIn | apply touch_readArrives | apply ends_next | apply ends_fault) | refine touch_fst (by with_reducible assumption) ?_ | dsimp only | split | intro _)

theorem touch_execAcknowledge (q : Nat) (nak : Bool) (s : State) (hs : Touch F st0 s) (f_regs : F.regs = true) (f_trays : F.trays = true) (f_queues : F.queues =
    true) (f_cores : F.cores = true) (f_mmu : F.mmu = true) (f_arbs : F.arbs = true) (f_errLog : F.errLog = true) (f_host : F.host = true) (f_staon : F.staon = true) :
    Ends F st0 (execAcknowledge q nak s) := by
  unfold execAcknowledge
  repeat' (first | with_reducible (first | assumption  | apply touch_qpError | apply touch_answerIn | apply touch_dropReq | apply ends_next | apply ends_fault) | refine touch_fst (by with_reducible assumption) ?_ | dsimp only | split | intro _)

theorem touch_timeout (q : Nat) (s : State) (hs : Touch F st0 s) (f_regs : F.regs = true) (f_trays : F.trays = true) (f_queues : F.queues = true) (f_cores : F.cores
    = true) (f_mmu : F.mmu = true) (f_arbs : F.arbs = true) (f_errLog : F.errLog = true) (f_host : F.host = true) (f_staon : F.staon = true) (f_hostTx : F.hostTx = true)
    :
    Touch F st0 (timeout q s) := by
  unfold timeout
  repeat' (first | with_reducible (first | assumption  | apply touch_State_write | apply touch_qpError | apply touch_modQp | apply touch_sendReq | apply touch_foldl | apply touch_foldl_fst) | refine touch_fst (by with_reducible assumption) ?_ | dsimp only | split | intro _)

theorem touch_execTransportTimeout (q : Nat) (s : State) (hs : Touch F st0 s) (f_regs : F.regs = true) (f_trays : F.trays = true) (f_queues : F.queues = true)
    (f_cores : F.cores = true) (f_mmu : F.mmu = true) (f_arbs : F.arbs = true) (f_errLog : F.errLog = true) (f_host : F.host = true) (f_staon : F.staon = true) (f_hostTx
    : F.hostTx = true) :
    Ends F st0 (execTransportTimeout q s) := by
  unfold execTransportTimeout
  repeat' (first | with_reducible (first | assumption  | apply touch_timeout | apply ends_next | apply ends_fault) | refine touch_fst (by with_reducible assumption) ?_ | dsimp only | split | intro _)

theorem touch_cnpCut (q : Nat) (s : State) (hs : Touch F st0 s) (f_regs : F.regs = true) (f_host : F.host = true) :
    Touch F st0 (cnpCut q s) := by
  unfold cnpCut
  repeat' (first | with_reducible (first | assumption  | apply touch_State_setFld | apply touch_modQp) | refine touch_fst (by with_reducible assumption) ?_ | dsimp only | split | intro _)

theorem touch_execCnp (q : Nat) (s : State) (hs : Touch F st0 s) (f_regs : F.regs = true) (f_host : F.host = true) :
    Ends F st0 (execCnp q s) := by
  unfold execCnp
  repeat' (first | with_reducible (first | assumption  | apply touch_State_count | apply touch_answerIn | apply touch_cnpCut | apply ends_next | apply ends_fault) | refine touch_fst (by with_reducible assumption) ?_ | dsimp only | split | intro _)

theorem touch_execRateIncreaseTimer (q : Nat) (s : State) (hs : Touch F st0 s) (f_regs : F.regs = true) :
    Ends F st0 (execRateIncreaseTimer q s) := by
  unfold execRateIncreaseTimer
  repeat' (first | with_reducible (first | assumption  | apply touch_State_setFld | apply ends_next | apply ends_fault) | refine touch_fst (by with_reducible assumption) ?_ | dsimp only | split | intro _)

theorem touch_onHostPort (p : Nat) (f : State → State) (s : State) (hf : ∀ x0, Touch F st0 x0 → Touch F st0 (f x0)) (hs : Touch F st0 s) :
    Ends F st0 (onHostPort p f s) := by
  unfold onHostPort
  repeat' (first | with_reducible (first | assumption  | apply hf | apply ends_next | apply ends_fault) | refine touch_fst (by with_reducible assumption) ?_ | dsimp only | split | intro _)

theorem touch_resumePrio (s : State) (port prio : Nat) (hs : Touch F st0 s) (f_host : F.host = true) (f_hostTx : F.hostTx = true) :
    Touch F st0 (resumePrio s port prio) := by
  unfold resumePrio
  repeat' (first | with_reducible (first | assumption  | apply touch_State_setHost | apply touch_State_sendHost | apply touch_foldl | apply touch_foldl_fst) | refine touch_fst (by with_reducible assumption) ?_ | dsimp only | split | intro _)

theorem touch_pausePrio (s : State) (port prio quanta : Nat) (hs : Touch F st0 s) (f_host : F.host = true) (f_hostTx : F.hostTx = true) :
    Touch F st0 (pausePrio s port prio quanta) := by
  unfold pausePrio
  repeat' (first | with_reducible (first | assumption  | apply touch_State_setHost | apply touch_resumePrio) | refine touch_fst (by with_reducible assumption) ?_ | dsimp only | split | intro _)

theorem touch_execPfcFrame (port : Nat) (quanta : List (Nat × Nat)) (s : State) (hs : Touch F st0 s) (f_regs : F.regs = true) (f_host : F.host = true) (f_hostTx :
    F.hostTx = true) :
    Ends F st0 (execPfcFrame port quanta s) := by
  unfold execPfcFrame
  repeat' (first | with_reducible (first | assumption  | apply touch_countFrames | apply touch_onHostPort | apply touch_pausePrio | apply touch_foldl | apply touch_foldl_fst | apply ends_next | apply ends_fault) | refine touch_fst (by with_reducible assumption) ?_ | dsimp only | split | intro _)

theorem touch_execPfcPauseExpire (port prio : Nat) (s : State) (hs : Touch F st0 s) (f_host : F.host = true) (f_hostTx : F.hostTx = true) :
    Ends F st0 (execPfcPauseExpire port prio s) := by
  unfold execPfcPauseExpire
  repeat' (first | with_reducible (first | assumption  | apply touch_onHostPort | apply touch_resumePrio | apply ends_next | apply ends_fault) | refine touch_fst (by with_reducible assumption) ?_ | dsimp only | split | intro _)

theorem touch_execHostLinkUp (port : Nat) (s : State) (hs : Touch F st0 s) (f_host : F.host = true) :
    Ends F st0 (execHostLinkUp port s) := by
  unfold execHostLinkUp
  repeat' (first | with_reducible (first | assumption  | apply touch_State_setHost | apply touch_onHostPort | apply ends_next | apply ends_fault) | refine touch_fst (by with_reducible assumption) ?_ | dsimp only | split | intro _)

theorem touch_execHostLinkDown (port : Nat) (s : State) (hs : Touch F st0 s) (f_host : F.host = true) :
    Ends F st0 (execHostLinkDown port s) := by
  unfold execHostLinkDown
  repeat' (first | with_reducible (first | assumption  | apply touch_hostDown | apply touch_onHostPort | apply ends_next | apply ends_fault) | refine touch_fst (by with_reducible assumption) ?_ | dsimp only | split | intro _)

theorem touch_frameDrop (port : Nat) (f : Frame) (s : State) (hs : Touch F st0 s) (f_regs : F.regs = true) :
    Touch F st0 (frameDrop port f s) := by
  unfold frameDrop
  repeat' (first | with_reducible (first | assumption  | apply touch_State_count) | refine touch_fst (by with_reducible assumption) ?_ | dsimp only | split | intro _)

theorem touch_execReceivedFrameDrop (port : Nat) (f : Frame) (s : State) (hs : Touch F st0 s) (f_regs : F.regs = true) :
    Ends F st0 (execReceivedFrameDrop port f s) := by
  unfold execReceivedFrameDrop
  repeat' (first | with_reducible (first | assumption  | apply touch_onHostPort | apply touch_frameDrop | apply ends_next | apply ends_fault) | refine touch_fst (by with_reducible assumption) ?_ | dsimp only | split | intro _)

/-! ### SieveEng.lean -/

theorem touch_buildPlane (c : Nat) (s : State) (hs : Touch F st0 s) (f_mem : F.mem = true) (f_poison : F.poison = true) (f_benchPoison : F.benchPoison = true)
    (f_regs : F.regs = true) (f_trays : F.trays = true) (f_queues : F.queues = true) (f_cores : F.cores = true) (f_mmu : F.mmu = true) (f_larder : F.larder = true)
    (f_arbs : F.arbs = true) (f_errLog : F.errLog = true) (f_planted : F.planted = true) (f_staon : F.staon = true) :
    Touch F st0 (buildPlane c s) := by
  unfold buildPlane
  repeat' (first | with_reducible (first | assumption  | apply touch_State_modSieve | apply touch_memFault | apply touch_wrote | apply touch_blockOfB | apply touch_foldl | apply touch_foldl_fst) | refine touch_fst (by with_reducible assumption) ?_ | dsimp only | split | intro _)

theorem touch_execPlaneReady (c : Nat) (s : State) (hs : Touch F st0 s) (f_mem : F.mem = true) (f_poison : F.poison = true) (f_benchPoison : F.benchPoison = true)
    (f_regs : F.regs = true) (f_trays : F.trays = true) (f_queues : F.queues = true) (f_cores : F.cores = true) (f_mmu : F.mmu = true) (f_larder : F.larder = true)
    (f_arbs : F.arbs = true) (f_errLog : F.errLog = true) (f_planted : F.planted = true) (f_staon : F.staon = true) :
    Ends F st0 (execPlaneReady c s) := by
  unfold execPlaneReady
  repeat' (first | with_reducible (first | assumption  | apply touch_onCore | apply touch_buildPlane | apply ends_next | apply ends_fault) | refine touch_fst (by with_reducible assumption) ?_ | dsimp only | split | intro _)

theorem touch_rowIn (s : State) (x : Step) (i : Inst) (row : Nat) (hs : Touch F st0 s) (f_mem : F.mem = true) (f_poison : F.poison = true) (f_benchPoison :
    F.benchPoison = true) (f_regs : F.regs = true) (f_cores : F.cores = true) (f_mmu : F.mmu = true) (f_larder : F.larder = true) (f_arbs : F.arbs = true) (f_planted :
    F.planted = true) :
    Touch F st0 (rowIn s x i row).1 := by
  unfold rowIn
  repeat' (first | with_reducible (first | assumption  | apply touch_rowEls) | refine touch_fst (by with_reducible assumption) ?_ | dsimp only | split | intro _)

theorem touch_rowsIn (s : State) (x : Step) (i : Inst) (hs : Touch F st0 s) (f_mem : F.mem = true) (f_poison : F.poison = true) (f_benchPoison : F.benchPoison =
    true) (f_regs : F.regs = true) (f_cores : F.cores = true) (f_mmu : F.mmu = true) (f_larder : F.larder = true) (f_arbs : F.arbs = true) (f_planted : F.planted = true)
    :
    ∀ (y0 : List Nat), Touch F st0 (rowsIn s x i y0).1 := by
  intro y0
  induction y0 generalizing s with
  | nil =>
    unfold rowsIn
    repeat' (first | with_reducible (first | assumption  | apply touch_andThen | apply touch_rowIn) | refine touch_fst (by with_reducible assumption) ?_ | dsimp only | split | intro _)
  | cons x l ih =>
    unfold rowsIn
    repeat' (first | with_reducible (first | assumption | apply ih | apply touch_andThen | apply touch_rowIn) | refine touch_fst (by with_reducible assumption) ?_ | dsimp only | split | intro _)

theorem touch_expandTile (s : State) (x : Step) (i : Inst) (n : Nat) (hs : Touch F st0 s) (f_mem : F.mem = true) (f_poison : F.poison = true) (f_benchPoison :
    F.benchPoison = true) (f_regs : F.regs = true) (f_cores : F.cores = true) (f_mmu : F.mmu = true) (f_larder : F.larder = true) (f_arbs : F.arbs = true) (f_planted :
    F.planted = true) :
    ∀ (y0 : List (Nat × List El)), Touch F st0 (expandTile s x i n y0).1 := by
  intro y0
  induction y0 generalizing s with
  | nil =>
    unfold expandTile
    repeat' (first | with_reducible (first | assumption  | apply touch_andThen | apply touch_writeRow) | refine touch_fst (by with_reducible assumption) ?_ | dsimp only | split | intro _)
  | cons x l ih =>
    unfold expandTile
    repeat' (first | with_reducible (first | assumption | apply ih | apply touch_andThen | apply touch_writeRow) | refine touch_fst (by with_reducible assumption) ?_ | dsimp only | split | intro _)

theorem touch_expandTiles (s : State) (x : Step) (i : Inst) (rows : List (Nat × List El)) (hs : Touch F st0 s) (f_mem : F.mem = true) (f_poison : F.poison = true)
    (f_benchPoison : F.benchPoison = true) (f_regs : F.regs = true) (f_cores : F.cores = true) (f_mmu : F.mmu = true) (f_larder : F.larder = true) (f_arbs : F.arbs =
    true) (f_planted : F.planted = true) :
    ∀ (y0 : List Nat), Touch F st0 (expandTiles s x i rows y0).1 := by
  intro y0
  induction y0 generalizing s with
  | nil =>
    unfold expandTiles
    repeat' (first | with_reducible (first | assumption  | apply touch_andThen | apply touch_expandTile) | refine touch_fst (by with_reducible assumption) ?_ | dsimp only | split | intro _)
  | cons x l ih =>
    unfold expandTiles
    repeat' (first | with_reducible (first | assumption | apply ih | apply touch_andThen | apply touch_expandTile) | refine touch_fst (by with_reducible assumption) ?_ | dsimp only | split | intro _)

theorem touch_censusHeaders (s : State) (c space : Nat) (d : Desc) (hs : Touch F st0 s) (f_mem : F.mem = true) (f_poison : F.poison = true) (f_benchPoison :
    F.benchPoison = true) (f_regs : F.regs = true) (f_cores : F.cores = true) (f_mmu : F.mmu = true) (f_larder : F.larder = true) (f_arbs : F.arbs = true) (f_planted :
    F.planted = true) :
    ∀ (y0 : List (Nat × Nat)), Touch F st0 (censusHeaders s c space d y0).1 := by
  intro y0
  induction y0 generalizing s with
  | nil =>
    unfold censusHeaders
    repeat' (first | with_reducible (first | assumption  | apply touch_andThen | apply touch_fetchBytes) | refine touch_fst (by with_reducible assumption) ?_ | dsimp only | split | intro _)
  | cons x l ih =>
    unfold censusHeaders
    repeat' (first | with_reducible (first | assumption | apply ih | apply touch_andThen | apply touch_fetchBytes) | refine touch_fst (by with_reducible assumption) ?_ | dsimp only | split | intro _)

theorem touch_censusOf (s : State) (x : Step) (i : Inst) (bi bj : Nat) (hs : Touch F st0 s) (f_mem : F.mem = true) (f_poison : F.poison = true) (f_benchPoison :
    F.benchPoison = true) (f_regs : F.regs = true) (f_cores : F.cores = true) (f_mmu : F.mmu = true) (f_larder : F.larder = true) (f_arbs : F.arbs = true) (f_planted :
    F.planted = true) :
    Touch F st0 (censusOf s x i bi bj).1 := by
  unfold censusOf
  repeat' (first | with_reducible (first | assumption  | apply touch_censusHeaders) | refine touch_fst (by with_reducible assumption) ?_ | dsimp only | split | intro _)

theorem touch_censusRow (s : State) (x : Step) (i : Inst) (row : Nat) (hs : Touch F st0 s) (f_mem : F.mem = true) (f_poison : F.poison = true) (f_benchPoison :
    F.benchPoison = true) (f_regs : F.regs = true) (f_cores : F.cores = true) (f_mmu : F.mmu = true) (f_larder : F.larder = true) (f_arbs : F.arbs = true) (f_planted :
    F.planted = true) :
    ∀ (y0 : List Nat), Touch F st0 (censusRow s x i row y0).1 := by
  intro y0
  induction y0 generalizing s with
  | nil =>
    unfold censusRow
    repeat' (first | with_reducible (first | assumption  | apply touch_andThen | apply touch_censusOf) | refine touch_fst (by with_reducible assumption) ?_ | dsimp only | split | intro _)
  | cons x l ih =>
    unfold censusRow
    repeat' (first | with_reducible (first | assumption | apply ih | apply touch_andThen | apply touch_censusOf) | refine touch_fst (by with_reducible assumption) ?_ | dsimp only | split | intro _)

theorem touch_censusTile (s : State) (x : Step) (i : Inst) (n : Nat) (hs : Touch F st0 s) (f_mem : F.mem = true) (f_poison : F.poison = true) (f_benchPoison :
    F.benchPoison = true) (f_regs : F.regs = true) (f_cores : F.cores = true) (f_mmu : F.mmu = true) (f_larder : F.larder = true) (f_arbs : F.arbs = true) (f_planted :
    F.planted = true) :
    ∀ (y0 : List Nat), Touch F st0 (censusTile s x i n y0).1 := by
  intro y0
  induction y0 generalizing s with
  | nil =>
    unfold censusTile
    repeat' (first | with_reducible (first | assumption  | apply touch_andThen | apply touch_writeRow | apply touch_censusRow) | refine touch_fst (by with_reducible assumption) ?_ | dsimp only | split | intro _)
  | cons x l ih =>
    unfold censusTile
    repeat' (first | with_reducible (first | assumption | apply ih | apply touch_andThen | apply touch_writeRow | apply touch_censusRow) | refine touch_fst (by with_reducible assumption) ?_ | dsimp only | split | intro _)

theorem touch_censusTiles (s : State) (x : Step) (i : Inst) (rows : List Nat) (hs : Touch F st0 s) (f_mem : F.mem = true) (f_poison : F.poison = true) (f_benchPoison
    : F.benchPoison = true) (f_regs : F.regs = true) (f_cores : F.cores = true) (f_mmu : F.mmu = true) (f_larder : F.larder = true) (f_arbs : F.arbs = true) (f_planted :
    F.planted = true) :
    ∀ (y0 : List Nat), Touch F st0 (censusTiles s x i rows y0).1 := by
  intro y0
  induction y0 generalizing s with
  | nil =>
    unfold censusTiles
    repeat' (first | with_reducible (first | assumption  | apply touch_andThen | apply touch_censusTile) | refine touch_fst (by with_reducible assumption) ?_ | dsimp only | split | intro _)
  | cons x l ih =>
    unfold censusTiles
    repeat' (first | with_reducible (first | assumption | apply ih | apply touch_andThen | apply touch_censusTile) | refine touch_fst (by with_reducible assumption) ?_ | dsimp only | split | intro _)

theorem touch_convertStep (s : State) (x : Step) (i : Inst) (hs : Touch F st0 s) (f_ord : F.ord = true) (f_free : F.free = true) (f_mem : F.mem = true) (f_poison :
    F.poison = true) (f_benchPoison : F.benchPoison = true) (f_regs : F.regs = true) (f_trays : F.trays = true) (f_queues : F.queues = true) (f_cores : F.cores = true)
    (f_mmu : F.mmu = true) (f_larder : F.larder = true) (f_arbs : F.arbs = true) (f_errLog : F.errLog = true) (f_planted : F.planted = true) (f_staon : F.staon = true) :
    Touch F st0 (convertStep s x i) := by
  unfold convertStep
  repeat' (first | with_reducible (first | assumption  | apply touch_State_setFree | apply touch_State_modInst | apply touch_faultInst | apply touch_memFault | apply touch_outRow | apply touch_rowsIn | apply touch_expandTiles | apply touch_censusTiles) | refine touch_fst (by with_reducible assumption) ?_ | dsimp only | split | intro _)

theorem touch_sieveRows (s : State) (t : Nat) (i : Inst) (g : Grid) (sel : Option (List Nat)) (p : PStep) (hs : Touch F st0 s) (f_mem : F.mem = true) (f_poison :
    F.poison = true) (f_benchPoison : F.benchPoison = true) (f_regs : F.regs = true) (f_cores : F.cores = true) (f_mmu : F.mmu = true) (f_larder : F.larder = true)
    (f_arbs : F.arbs = true) (f_planted : F.planted = true) :
    ∀ (y0 : List Nat), Touch F st0 (sieveRows s t i g sel p y0).1 := by
  intro y0
  induction y0 generalizing s with
  | nil =>
    unfold sieveRows
    repeat' (first | with_reducible (first | assumption  | apply touch_andThen | apply touch_rowOfA) | refine touch_fst (by with_reducible assumption) ?_ | dsimp only | split | intro _)
  | cons x l ih =>
    unfold sieveRows
    repeat' (first | with_reducible (first | assumption | apply ih | apply touch_andThen | apply touch_rowOfA) | refine touch_fst (by with_reducible assumption) ?_ | dsimp only | split | intro _)

theorem touch_productStep (s : State) (c : Nat) (x : Step) (i : Inst) (pl : Plane) (j : Nat) (hs : Touch F st0 s) (f_mem : F.mem = true) (f_poison : F.poison = true)
    (f_benchPoison : F.benchPoison = true) (f_regs : F.regs = true) (f_trays : F.trays = true) (f_barriers : F.barriers = true) (f_queues : F.queues = true) (f_cores :
    F.cores = true) (f_mmu : F.mmu = true) (f_larder : F.larder = true) (f_arbs : F.arbs = true) (f_errLog : F.errLog = true) (f_planted : F.planted = true) (f_stop :
    F.stop = true) (f_staon : F.staon = true) (f_hearth : F.hearth = true) :
    Touch F st0 (productStep s c x i pl j) := by
  unfold productStep
  repeat' (first | with_reducible (first | assumption  | apply touch_State_modSieve | apply touch_State_modInst | apply touch_memFault | apply touch_readTray | apply touch_sieveRows) | refine touch_fst (by with_reducible assumption) ?_ | dsimp only | split | intro _)

theorem touch_takeSlot (s : State) (c : Nat) (x : Step) (i : Inst) (hs : Touch F st0 s) (f_cores : F.cores = true) :
    ∀ p, takeSlot s c x i = some p → Touch F st0 p.1 := by
  unfold takeSlot
  dsimp only
  intro p e
  split at e
  · cases e
    dsimp only
    exact touch_State_modSieve _ _ _ hs f_cores
  · split at e
    · cases e
    · cases e
      dsimp only
      exact touch_State_modSieve _ _ _ hs f_cores

theorem touch_sieveStepEnds (s : State) (c : Nat) (hs : Touch F st0 s) (f_ord : F.ord = true) (f_trays : F.trays = true) (f_cores : F.cores = true) :
    Touch F st0 (sieveStepEnds s c) := by
  unfold sieveStepEnds
  repeat' (first | with_reducible (first | assumption  | apply touch_State_modSieve | apply touch_releaseBlock | apply touch_stepEnds) | refine touch_fst (by with_reducible assumption) ?_ | dsimp only | split | intro _)

theorem touch_nextCurrent (c : Nat) (s : State) (hs : Touch F st0 s) (f_ord : F.ord = true) (f_free : F.free = true) (f_mem : F.mem = true) (f_poison : F.poison =
    true) (f_benchPoison : F.benchPoison = true) (f_regs : F.regs = true) (f_trays : F.trays = true) (f_barriers : F.barriers = true) (f_queues : F.queues = true)
    (f_cores : F.cores = true) (f_mmu : F.mmu = true) (f_larder : F.larder = true) (f_arbs : F.arbs = true) (f_errLog : F.errLog = true) (f_planted : F.planted = true)
    (f_stop : F.stop = true) (f_staon : F.staon = true) (f_hearth : F.hearth = true) :
    Touch F st0 (nextCurrent c s) := by
  unfold nextCurrent
  repeat' (first | with_reducible (first | assumption  | apply touch_State_modSieve | apply touch_State_tick | apply touch_releaseBlock | apply touch_stepEnds | apply touch_convertStep | apply touch_productStep | apply touch_takeSlot | apply touch_sieveStepEnds) | (refine touch_takeSlot s c _ _ hs f_cores (_, _) (by assumption)) | refine touch_fst (by with_reducible assumption) ?_ | dsimp only | split | intro _)

theorem touch_execSieveStepCurrent (c : Nat) (s : State) (hs : Touch F st0 s) (f_ord : F.ord = true) (f_free : F.free = true) (f_mem : F.mem = true) (f_poison :
    F.poison = true) (f_benchPoison : F.benchPoison = true) (f_regs : F.regs = true) (f_trays : F.trays = true) (f_barriers : F.barriers = true) (f_queues : F.queues =
    true) (f_cores : F.cores = true) (f_mmu : F.mmu = true) (f_larder : F.larder = true) (f_arbs : F.arbs = true) (f_errLog : F.errLog = true) (f_planted : F.planted =
    true) (f_stop : F.stop = true) (f_staon : F.staon = true) (f_hearth : F.hearth = true) :
    Ends F st0 (execSieveStepCurrent c s) := by
  unfold execSieveStepCurrent
  repeat' (first | with_reducible (first | assumption  | apply touch_onCore | apply touch_nextCurrent | apply ends_next | apply ends_fault) | refine touch_fst (by with_reducible assumption) ?_ | dsimp only | split | intro _)

theorem touch_sieveCycle (c : Nat) (drains : Nat → Bool) (s : State) (hs : Touch F st0 s) (f_regs : F.regs = true) (f_trays : F.trays = true) (f_queues : F.queues =
    true) (f_cores : F.cores = true) (f_mmu : F.mmu = true) (f_arbs : F.arbs = true) (f_errLog : F.errLog = true) (f_staon : F.staon = true) :
    Touch F st0 (sieveCycle c drains s) := by
  unfold sieveCycle
  repeat' (first | with_reducible (first | assumption  | apply touch_State_count | apply touch_State_modSieve | apply touch_faultInst) | refine touch_fst (by with_reducible assumption) ?_ | dsimp only | split | intro _)

theorem touch_sieveUntil (c : Nat) (ends : Sieve → Bool) (f_regs : F.regs = true) (f_trays : F.trays = true) (f_queues : F.queues = true) (f_cores : F.cores = true)
    (f_mmu : F.mmu = true) (f_arbs : F.arbs = true) (f_errLog : F.errLog = true) (f_staon : F.staon = true) :
    ∀ (y0 : Nat) (y1 : State), Touch F st0 y1 → Touch F st0 (sieveUntil c ends y0 y1) := by
  intro y0
  induction y0 with
  | zero =>
    intros; unfold sieveUntil
    repeat' (first | with_reducible (first | assumption  | apply touch_sieveCycle) | refine touch_fst (by with_reducible assumption) ?_ | dsimp only | split | intro _)
  | succ k ih =>
    intros; unfold sieveUntil
    repeat' (first | with_reducible (first | assumption | apply ih | apply touch_sieveCycle) | refine touch_fst (by with_reducible assumption) ?_ | dsimp only | split | intro _)

theorem touch_takeWork (c group wait : Nat) (s0 : State) (hs0 : Touch F st0 s0) (f_ord : F.ord = true) (f_regs : F.regs = true) (f_trays : F.trays = true) (f_queues :
    F.queues = true) (f_cores : F.cores = true) (f_mmu : F.mmu = true) (f_arbs : F.arbs = true) (f_errLog : F.errLog = true) (f_planted : F.planted = true) (f_staon :
    F.staon = true) :
    Touch F st0 (takeWork c group wait s0) := by
  unfold takeWork
  repeat' (first | with_reducible (first | assumption  | apply touch_State_modSieve | apply touch_faultInst | apply touch_wrote | apply touch_sieveStepEnds | apply touch_sieveUntil) | refine touch_fst (by with_reducible assumption) ?_ | dsimp only | split | intro _)

theorem touch_execGroupTakeWork (c group wait : Nat) (s : State) (hs : Touch F st0 s) (f_ord : F.ord = true) (f_regs : F.regs = true) (f_trays : F.trays = true) (f_queues
    : F.queues = true) (f_cores : F.cores = true) (f_mmu : F.mmu = true) (f_arbs : F.arbs = true) (f_errLog : F.errLog = true) (f_planted : F.planted = true) (f_staon :
    F.staon = true) :
    Ends F st0 (execGroupTakeWork c group wait s) := by
  unfold execGroupTakeWork
  repeat' (first | with_reducible (first | assumption  | apply touch_onCore | apply touch_takeWork | apply ends_next | apply ends_fault) | refine touch_fst (by with_reducible assumption) ?_ | dsimp only | split | intro _)

theorem touch_settleSlot (c slot : Nat) (s : State) (hs : Touch F st0 s) (f_regs : F.regs = true) (f_trays : F.trays = true) (f_queues : F.queues = true) (f_cores :
    F.cores = true) (f_mmu : F.mmu = true) (f_arbs : F.arbs = true) (f_errLog : F.errLog = true) (f_staon : F.staon = true) :
    Touch F st0 (settleSlot c slot s) := by
  unfold settleSlot
  repeat' (first | with_reducible (first | assumption  | apply touch_sieveUntil) | refine touch_fst (by with_reducible assumption) ?_ | dsimp only | split | intro _)

theorem touch_beginDrain (s : State) (c slot : Nat) (a : AccSlot) (hs : Touch F st0 s) (f_trays : F.trays = true) (f_cores : F.cores = true) :
    Touch F st0 (beginDrain s c slot a) := by
  unfold beginDrain
  repeat' (first | with_reducible (first | assumption  | apply touch_State_modSieve | apply touch_State_modTile) | refine touch_fst (by with_reducible assumption) ?_ | dsimp only | split | intro _)

theorem touch_closeSlot (c slot : Nat) (s0 : State) (hs0 : Touch F st0 s0) (f_regs : F.regs = true) (f_trays : F.trays = true) (f_queues : F.queues = true) (f_cores
    : F.cores = true) (f_mmu : F.mmu = true) (f_arbs : F.arbs = true) (f_errLog : F.errLog = true) (f_staon : F.staon = true) :
    Touch F st0 (closeSlot c slot s0) := by
  unfold closeSlot
  repeat' (first | with_reducible (first | assumption  | apply touch_settleSlot | apply touch_beginDrain) | refine touch_fst (by with_reducible assumption) ?_ | dsimp only | split | intro _)

theorem touch_execSlotClose (c slot : Nat) (s : State) (hs : Touch F st0 s) (f_regs : F.regs = true) (f_trays : F.trays = true) (f_queues : F.queues = true) (f_cores
    : F.cores = true) (f_mmu : F.mmu = true) (f_arbs : F.arbs = true) (f_errLog : F.errLog = true) (f_staon : F.staon = true) :
    Ends F st0 (execSlotClose c slot s) := by
  unfold execSlotClose
  repeat' (first | with_reducible (first | assumption  | apply touch_onCore | apply touch_closeSlot | apply ends_next | apply ends_fault) | refine touch_fst (by with_reducible assumption) ?_ | dsimp only | split | intro _)

theorem touch_drainSlot (c : Nat) (s0 : State) (hs0 : Touch F st0 s0) (f_regs : F.regs = true) (f_trays : F.trays = true) (f_queues : F.queues = true) (f_cores :
    F.cores = true) (f_mmu : F.mmu = true) (f_arbs : F.arbs = true) (f_errLog : F.errLog = true) (f_planted : F.planted = true) (f_staon : F.staon = true) :
    Touch F st0 (drainSlot c s0) := by
  unfold drainSlot
  repeat' (first | with_reducible (first | assumption  | apply touch_State_modSieve | apply touch_State_setPort | apply touch_wrote | apply touch_sieveCycle) | refine touch_fst (by with_reducible assumption) ?_ | dsimp only | split | intro _)

theorem touch_execSlotDrain (c : Nat) (s : State) (hs : Touch F st0 s) (f_regs : F.regs = true) (f_trays : F.trays = true) (f_queues : F.queues = true) (f_cores :
    F.cores = true) (f_mmu : F.mmu = true) (f_arbs : F.arbs = true) (f_errLog : F.errLog = true) (f_planted : F.planted = true) (f_staon : F.staon = true) :
    Ends F st0 (execSlotDrain c s) := by
  unfold execSlotDrain
  repeat' (first | with_reducible (first | assumption  | apply touch_onCore | apply touch_drainSlot | apply ends_next | apply ends_fault) | refine touch_fst (by with_reducible assumption) ?_ | dsimp only | split | intro _)

theorem touch_spillSlot (c : Nat) (s : State) (hs : Touch F st0 s) (f_regs : F.regs = true) (f_trays : F.trays = true) (f_queues : F.queues = true) (f_cores :
    F.cores = true) (f_mmu : F.mmu = true) (f_arbs : F.arbs = true) (f_errLog : F.errLog = true) (f_staon : F.staon = true) :
    Touch F st0 (spillSlot c s) := by
  unfold spillSlot
  repeat' (first | with_reducible (first | assumption  | apply touch_State_count | apply touch_State_modTile | apply touch_settleSlot | apply touch_beginDrain) | refine touch_fst (by with_reducible assumption) ?_ | dsimp only | split | intro _)

theorem touch_execSieveSlotSpill (c : Nat) (s : State) (hs : Touch F st0 s) (f_regs : F.regs = true) (f_trays : F.trays = true) (f_queues : F.queues = true) (f_cores
    : F.cores = true) (f_mmu : F.mmu = true) (f_arbs : F.arbs = true) (f_errLog : F.errLog = true) (f_staon : F.staon = true) :
    Ends F st0 (execSieveSlotSpill c s) := by
  unfold execSieveSlotSpill
  repeat' (first | with_reducible (first | assumption  | apply touch_onCore | apply touch_spillSlot | apply ends_next | apply ends_fault) | refine touch_fst (by with_reducible assumption) ?_ | dsimp only | split | intro _)

/-! ### Vector.lean -/

theorem touch_ldpWords (s : State) (x : Step) (i : Inst) (hs : Touch F st0 s) (f_mem : F.mem = true) (f_poison : F.poison = true) (f_benchPoison : F.benchPoison =
    true) (f_regs : F.regs = true) (f_cores : F.cores = true) (f_mmu : F.mmu = true) (f_larder : F.larder = true) (f_arbs : F.arbs = true) (f_planted : F.planted = true)
    :
    Touch F st0 (ldpWords s x i).1 := by
  unfold ldpWords
  repeat' (first | with_reducible (first | assumption  | apply touch_andThen | apply touch_rowEls) | refine touch_fst (by with_reducible assumption) ?_ | dsimp only | split | intro _)

theorem touch_ldpTable (s : State) (x : Step) (i : Inst) (hs : Touch F st0 s) (f_mem : F.mem = true) (f_poison : F.poison = true) (f_benchPoison : F.benchPoison =
    true) (f_regs : F.regs = true) (f_cores : F.cores = true) (f_mmu : F.mmu = true) (f_larder : F.larder = true) (f_arbs : F.arbs = true) (f_planted : F.planted = true)
    :
    Touch F st0 (ldpTable s x i).1 := by
  unfold ldpTable
  repeat' (first | with_reducible (first | assumption  | apply touch_andThen | apply touch_rowEls) | refine touch_fst (by with_reducible assumption) ?_ | dsimp only | split | intro _)

theorem touch_loadProgram (s : State) (x : Step) (i : Inst) (hs : Touch F st0 s) (f_ord : F.ord = true) (f_mem : F.mem = true) (f_poison : F.poison = true)
    (f_benchPoison : F.benchPoison = true) (f_regs : F.regs = true) (f_trays : F.trays = true) (f_queues : F.queues = true) (f_cores : F.cores = true) (f_mmu : F.mmu =
    true) (f_larder : F.larder = true) (f_arbs : F.arbs = true) (f_errLog : F.errLog = true) (f_planted : F.planted = true) (f_staon : F.staon = true) :
    Touch F st0 (loadProgram s x i) := by
  unfold loadProgram
  repeat' (first | with_reducible (first | assumption  | apply touch_State_modVec | apply touch_State_modInst | apply touch_faultInst | apply touch_memFault | apply touch_startStreams | apply touch_writeCache | apply touch_stepEnds | apply touch_ldpWords | apply touch_ldpTable | apply touch_foldl | apply touch_foldl_fst) | refine touch_fst (by with_reducible assumption) ?_ | dsimp only | split | intro _)

theorem touch_bcastRead (s : State) (t : Nat) (i : Inst) (role : Role) (cols : Nat) (hs : Touch F st0 s) (f_mem : F.mem = true) (f_poison : F.poison = true)
    (f_benchPoison : F.benchPoison = true) (f_regs : F.regs = true) (f_cores : F.cores = true) (f_mmu : F.mmu = true) (f_larder : F.larder = true) (f_arbs : F.arbs =
    true) (f_planted : F.planted = true) :
    ∀ (y0 : List Nat), Touch F st0 (bcastRead s t i role cols y0).1 := by
  intro y0
  induction y0 generalizing s with
  | nil =>
    unfold bcastRead
    repeat' (first | with_reducible (first | assumption  | apply touch_andThen | apply touch_rowEls) | refine touch_fst (by with_reducible assumption) ?_ | dsimp only | split | intro _)
  | cons x l ih =>
    unfold bcastRead
    repeat' (first | with_reducible (first | assumption | apply ih | apply touch_andThen | apply touch_rowEls) | refine touch_fst (by with_reducible assumption) ?_ | dsimp only | split | intro _)

theorem touch_bcastLoad (s : State) (t : Nat) (i : Inst) (hs : Touch F st0 s) (f_mem : F.mem = true) (f_poison : F.poison = true) (f_benchPoison : F.benchPoison =
    true) (f_regs : F.regs = true) (f_cores : F.cores = true) (f_mmu : F.mmu = true) (f_larder : F.larder = true) (f_arbs : F.arbs = true) (f_planted : F.planted = true)
    :
    ∀ (y0 : List (Role × List Nat × Nat)) (y1 : Nat), Touch F st0 (bcastLoad s t i y0 y1).1 := by
  intro y0
  induction y0 generalizing s with
  | nil =>
    intros; unfold bcastLoad
    repeat' (first | with_reducible (first | assumption  | apply touch_andThen | apply touch_bcastRead) | refine touch_fst (by with_reducible assumption) ?_ | dsimp only | split | intro _)
  | cons x l ih =>
    intros; unfold bcastLoad
    repeat' (first | with_reducible (first | assumption | apply ih | apply touch_andThen | apply touch_bcastRead) | refine touch_fst (by with_reducible assumption) ?_ | dsimp only | split | intro _)

theorem touch_withBcast (s : State) (x : Step) (i : Inst) (hs : Touch F st0 s) (f_mem : F.mem = true) (f_poison : F.poison = true) (f_benchPoison : F.benchPoison =
    true) (f_regs : F.regs = true) (f_trays : F.trays = true) (f_cores : F.cores = true) (f_mmu : F.mmu = true) (f_larder : F.larder = true) (f_arbs : F.arbs = true)
    (f_planted : F.planted = true) :
    Touch F st0 (withBcast s x i).1 := by
  unfold withBcast
  repeat' (first | with_reducible (first | assumption  | apply touch_State_count | apply touch_State_modInst | apply touch_andThen | apply touch_writeCache | apply touch_bcastLoad) | refine touch_fst (by with_reducible assumption) ?_ | dsimp only | split | intro _)

theorem touch_operandRow (s : State) (x : Step) (i : Inst) (role : Role) (row : Nat) (hs : Touch F st0 s) (f_mem : F.mem = true) (f_poison : F.poison = true)
    (f_benchPoison : F.benchPoison = true) (f_regs : F.regs = true) (f_cores : F.cores = true) (f_mmu : F.mmu = true) (f_larder : F.larder = true) (f_arbs : F.arbs =
    true) (f_planted : F.planted = true) :
    Touch F st0 (operandRow s x i role row).1 := by
  unfold operandRow
  repeat' (first | with_reducible (first | assumption  | apply touch_andThen | apply touch_rowEls | apply touch_bcastRead) | refine touch_fst (by with_reducible assumption) ?_ | dsimp only | split | intro _)

theorem touch_runOne (s : State) (x : Step) (i : Inst) (row : Nat) (hs : Touch F st0 s) (f_mem : F.mem = true) (f_poison : F.poison = true) (f_benchPoison :
    F.benchPoison = true) (f_regs : F.regs = true) (f_cores : F.cores = true) (f_mmu : F.mmu = true) (f_larder : F.larder = true) (f_arbs : F.arbs = true) (f_planted :
    F.planted = true) :
    Touch F st0 (runOne s x i row).1 := by
  unfold runOne
  repeat' (first | with_reducible (first | assumption  | apply touch_andThen | apply touch_rowMask | apply touch_operandRow) | refine touch_fst (by with_reducible assumption) ?_ | dsimp only | split | intro _)

theorem touch_permIndices (s : State) (x : Step) (i : Inst) (row : Nat) (hs : Touch F st0 s) (f_mem : F.mem = true) (f_poison : F.poison = true) (f_benchPoison :
    F.benchPoison = true) (f_regs : F.regs = true) (f_cores : F.cores = true) (f_mmu : F.mmu = true) (f_larder : F.larder = true) (f_arbs : F.arbs = true) (f_planted :
    F.planted = true) :
    Touch F st0 (permIndices s x i row).1 := by
  unfold permIndices
  repeat' (first | with_reducible (first | assumption  | apply touch_andThen | apply touch_rowEls | apply touch_bcastRead) | refine touch_fst (by with_reducible assumption) ?_ | dsimp only | split | intro _)

theorem touch_permOne (s : State) (x : Step) (i : Inst) (row : Nat) (hs : Touch F st0 s) (f_mem : F.mem = true) (f_poison : F.poison = true) (f_benchPoison :
    F.benchPoison = true) (f_regs : F.regs = true) (f_cores : F.cores = true) (f_mmu : F.mmu = true) (f_larder : F.larder = true) (f_arbs : F.arbs = true) (f_planted :
    F.planted = true) :
    Touch F st0 (permOne s x i row).1 := by
  unfold permOne
  repeat' (first | with_reducible (first | assumption  | apply touch_andThen | apply touch_rowMask | apply touch_operandRow | apply touch_permIndices) | refine touch_fst (by with_reducible assumption) ?_ | dsimp only | split | intro _)

theorem touch_compressOne (s : State) (x : Step) (i : Inst) (row : Nat) (hs : Touch F st0 s) (f_mem : F.mem = true) (f_poison : F.poison = true) (f_benchPoison :
    F.benchPoison = true) (f_regs : F.regs = true) (f_cores : F.cores = true) (f_mmu : F.mmu = true) (f_larder : F.larder = true) (f_arbs : F.arbs = true) (f_planted :
    F.planted = true) :
    Touch F st0 (compressOne s x i row).1 := by
  unfold compressOne
  repeat' (first | with_reducible (first | assumption  | apply touch_andThen | apply touch_rowMask | apply touch_operandRow) | refine touch_fst (by with_reducible assumption) ?_ | dsimp only | split | intro _)

theorem touch_expandOne (s : State) (x : Step) (i : Inst) (row : Nat) (hs : Touch F st0 s) (f_mem : F.mem = true) (f_poison : F.poison = true) (f_benchPoison :
    F.benchPoison = true) (f_regs : F.regs = true) (f_cores : F.cores = true) (f_mmu : F.mmu = true) (f_larder : F.larder = true) (f_arbs : F.arbs = true) (f_planted :
    F.planted = true) :
    Touch F st0 (expandOne s x i row).1 := by
  unfold expandOne
  repeat' (first | with_reducible (first | assumption  | apply touch_andThen | apply touch_rowMask | apply touch_operandRow | apply touch_id) | refine touch_fst (by with_reducible assumption) ?_ | dsimp only | split | intro _)

theorem touch_vectorRow (s : State) (x : Step) (i : Inst) (row : Nat) (hs : Touch F st0 s) (f_mem : F.mem = true) (f_poison : F.poison = true) (f_benchPoison :
    F.benchPoison = true) (f_regs : F.regs = true) (f_cores : F.cores = true) (f_mmu : F.mmu = true) (f_larder : F.larder = true) (f_arbs : F.arbs = true) (f_planted :
    F.planted = true) :
    Touch F st0 (vectorRow s x i row).1 := by
  unfold vectorRow
  repeat' (first | with_reducible (first | assumption  | apply touch_runOne | apply touch_permOne | apply touch_compressOne | apply touch_expandOne) | refine touch_fst (by with_reducible assumption) ?_ | dsimp only | split | intro _)

theorem touch_vectorRows (s : State) (x : Step) (i : Inst) (hs : Touch F st0 s) (f_mem : F.mem = true) (f_poison : F.poison = true) (f_benchPoison : F.benchPoison =
    true) (f_regs : F.regs = true) (f_cores : F.cores = true) (f_mmu : F.mmu = true) (f_larder : F.larder = true) (f_arbs : F.arbs = true) (f_planted : F.planted = true)
    :
    ∀ (y0 : List Nat), Touch F st0 (vectorRows s x i y0).1 := by
  intro y0
  induction y0 generalizing s with
  | nil =>
    unfold vectorRows
    repeat' (first | with_reducible (first | assumption  | apply touch_andThen | apply touch_vectorRow) | refine touch_fst (by with_reducible assumption) ?_ | dsimp only | split | intro _)
  | cons x l ih =>
    unfold vectorRows
    repeat' (first | with_reducible (first | assumption | apply ih | apply touch_andThen | apply touch_vectorRow) | refine touch_fst (by with_reducible assumption) ?_ | dsimp only | split | intro _)

theorem touch_cellTile (s : State) (x : Step) (i : Inst) (n : Nat) (hs : Touch F st0 s) (f_mem : F.mem = true) (f_poison : F.poison = true) (f_benchPoison :
    F.benchPoison = true) (f_regs : F.regs = true) (f_cores : F.cores = true) (f_mmu : F.mmu = true) (f_larder : F.larder = true) (f_arbs : F.arbs = true) (f_planted :
    F.planted = true) :
    ∀ (y0 : List RowOut), Touch F st0 (cellTile s x i n y0).1 := by
  intro y0
  induction y0 generalizing s with
  | nil =>
    unfold cellTile
    repeat' (first | with_reducible (first | assumption  | apply touch_andThen | apply touch_writeRow) | refine touch_fst (by with_reducible assumption) ?_ | dsimp only | split | intro _)
  | cons x l ih =>
    unfold cellTile
    repeat' (first | with_reducible (first | assumption | apply ih | apply touch_andThen | apply touch_writeRow) | refine touch_fst (by with_reducible assumption) ?_ | dsimp only | split | intro _)

theorem touch_cellTiles (s : State) (x : Step) (i : Inst) (rows : List RowOut) (hs : Touch F st0 s) (f_mem : F.mem = true) (f_poison : F.poison = true)
    (f_benchPoison : F.benchPoison = true) (f_regs : F.regs = true) (f_cores : F.cores = true) (f_mmu : F.mmu = true) (f_larder : F.larder = true) (f_arbs : F.arbs =
    true) (f_planted : F.planted = true) :
    ∀ (y0 : List Nat), Touch F st0 (cellTiles s x i rows y0).1 := by
  intro y0
  induction y0 generalizing s with
  | nil =>
    unfold cellTiles
    repeat' (first | with_reducible (first | assumption  | apply touch_andThen | apply touch_cellTile) | refine touch_fst (by with_reducible assumption) ?_ | dsimp only | split | intro _)
  | cons x l ih =>
    unfold cellTiles
    repeat' (first | with_reducible (first | assumption | apply ih | apply touch_andThen | apply touch_cellTile) | refine touch_fst (by with_reducible assumption) ?_ | dsimp only | split | intro _)

theorem touch_countLanes (s : State) (x : Step) (i : Inst) (rows : List RowOut) (hs : Touch F st0 s) (f_regs : F.regs = true) :
    Touch F st0 (countLanes s x i rows) := by
  unfold countLanes
  repeat' (first | with_reducible (first | assumption  | apply touch_State_setFld | apply touch_State_count | apply touch_foldl | apply touch_foldl_fst) | refine touch_fst (by with_reducible assumption) ?_ | dsimp only | split | intro _)

theorem touch_countLive (s : State) (x : Step) (tiles : List Nat) (i : Inst) (rows : List RowOut) (hs : Touch F st0 s) (f_trays : F.trays = true) :
    Touch F st0 (countLive s x tiles i rows) := by
  unfold countLive
  repeat' (first | with_reducible (first | assumption  | apply touch_State_modTile | apply touch_foldl | apply touch_foldl_fst) | refine touch_fst (by with_reducible assumption) ?_ | dsimp only | split | intro _)

theorem touch_lineStep (s : State) (x : Step) (i : Inst) (hs : Touch F st0 s) (f_ord : F.ord = true) (f_mem : F.mem = true) (f_poison : F.poison = true)
    (f_benchPoison : F.benchPoison = true) (f_regs : F.regs = true) (f_trays : F.trays = true) (f_queues : F.queues = true) (f_cores : F.cores = true) (f_mmu : F.mmu =
    true) (f_larder : F.larder = true) (f_arbs : F.arbs = true) (f_errLog : F.errLog = true) (f_planted : F.planted = true) (f_staon : F.staon = true) :
    Touch F st0 (lineStep s x i) := by
  unfold lineStep
  repeat' (first | with_reducible (first | assumption  | apply touch_memFault | apply touch_outRow | apply touch_vectorRows | apply touch_cellTiles | apply touch_countLanes | apply touch_countLive) | refine touch_fst (by with_reducible assumption) ?_ | dsimp only | split | intro _)

theorem touch_vectorStep (s : State) (x : Step) (i : Inst) (hs : Touch F st0 s) (f_ord : F.ord = true) (f_mem : F.mem = true) (f_poison : F.poison = true)
    (f_benchPoison : F.benchPoison = true) (f_regs : F.regs = true) (f_trays : F.trays = true) (f_barriers : F.barriers = true) (f_queues : F.queues = true) (f_cores :
    F.cores = true) (f_mmu : F.mmu = true) (f_larder : F.larder = true) (f_arbs : F.arbs = true) (f_errLog : F.errLog = true) (f_planted : F.planted = true) (f_stop :
    F.stop = true) (f_staon : F.staon = true) (f_hearth : F.hearth = true) :
    Touch F st0 (vectorStep s x i) := by
  unfold vectorStep
  repeat' (first | with_reducible (first | assumption  | apply touch_State_modVec | apply touch_memFault | apply touch_releaseBlock | apply touch_readTray | apply touch_readCache | apply touch_stepEnds | apply touch_reduceStep | apply touch_withBcast | apply touch_lineStep | apply touch_foldl | apply touch_foldl_fst) | refine touch_fst (by with_reducible assumption) ?_ | dsimp only | split | intro _)

theorem touch_vectorStart (c : Nat) (s : State) (hs : Touch F st0 s) (f_ord : F.ord = true) (f_mem : F.mem = true) (f_poison : F.poison = true) (f_benchPoison :
    F.benchPoison = true) (f_regs : F.regs = true) (f_trays : F.trays = true) (f_barriers : F.barriers = true) (f_queues : F.queues = true) (f_cores : F.cores = true)
    (f_mmu : F.mmu = true) (f_larder : F.larder = true) (f_arbs : F.arbs = true) (f_errLog : F.errLog = true) (f_planted : F.planted = true) (f_stop : F.stop = true)
    (f_staon : F.staon = true) (f_hearth : F.hearth = true) :
    Touch F st0 (vectorStart c s) := by
  unfold vectorStart
  repeat' (first | with_reducible (first | assumption  | apply touch_loadProgram | apply touch_vectorStep) | refine touch_fst (by with_reducible assumption) ?_ | dsimp only | split | intro _)

theorem touch_execVectorStepStart (c : Nat) (s : State) (hs : Touch F st0 s) (f_ord : F.ord = true) (f_mem : F.mem = true) (f_poison : F.poison = true)
    (f_benchPoison : F.benchPoison = true) (f_regs : F.regs = true) (f_trays : F.trays = true) (f_barriers : F.barriers = true) (f_queues : F.queues = true) (f_cores :
    F.cores = true) (f_mmu : F.mmu = true) (f_larder : F.larder = true) (f_arbs : F.arbs = true) (f_errLog : F.errLog = true) (f_planted : F.planted = true) (f_stop :
    F.stop = true) (f_staon : F.staon = true) (f_hearth : F.hearth = true) :
    Ends F st0 (execVectorStepStart c s) := by
  unfold execVectorStepStart
  repeat' (first | with_reducible (first | assumption  | apply touch_onCore | apply touch_vectorStart | apply ends_next | apply ends_fault) | refine touch_fst (by with_reducible assumption) ?_ | dsimp only | split | intro _)

/-! ### Tick.lean -/

theorem touch_tickCalendar (s : State) (hs : Touch F st0 s) (f_hearth : F.hearth = true) :
    Touch F st0 (tickCalendar s) := by
  unfold tickCalendar
  repeat' (first | with_reducible (first | assumption  | apply touch_State_setHearth) | refine touch_fst (by with_reducible assumption) ?_ | dsimp only | split | intro _)

theorem touch_countLate (s : State) (hs : Touch F st0 s) (f_regs : F.regs = true) :
    Touch F st0 (countLate s) := by
  unfold countLate
  repeat' (first | with_reducible (first | assumption  | apply touch_State_count | apply touch_foldl | apply touch_foldl_fst) | refine touch_fst (by with_reducible assumption) ?_ | dsimp only | split | intro _)

theorem touch_countHolds (s : State) (hs : Touch F st0 s) (f_regs : F.regs = true) :
    Touch F st0 (countHolds s) := by
  unfold countHolds
  repeat' (first | with_reducible (first | assumption  | apply touch_State_count | apply touch_foldl) | refine touch_fst (by with_reducible assumption) ?_ | dsimp only | split | intro _)

theorem touch_idleTick (s : State) (hs : Touch F st0 s) (f_now : F.now = true) (f_regs : F.regs = true) (f_trays : F.trays = true) (f_queues : F.queues = true)
    (f_cores : F.cores = true) (f_mmu : F.mmu = true) (f_arbs : F.arbs = true) (f_errLog : F.errLog = true) (f_staon : F.staon = true) (f_hearth : F.hearth = true) :
    Touch F st0 (idleTick s) := by
  unfold idleTick
  repeat' (first | with_reducible (first | assumption  | apply touch_State_setNow | apply touch_sieveCycle | apply touch_tickCalendar | apply touch_countLate | apply touch_countHolds | apply touch_foldl | apply touch_foldl_fst) | refine touch_fst (by with_reducible assumption) ?_ | dsimp only | split | intro _)

end Sys2Proof.Machine
end

