-- ==== Sys2Proof/Tests/Base.lean ====
section
/-! SUPPORT. The small states and words that the tests share. -/

namespace Sys2Proof.Tests

set_option Elab.async false

open Sys2Proof Sys2Proof.Machine Sys2Proof.Claims

/-- A translation cache that maps the first 64 KiB of space 0 to the same physical addresses, in the entry of its set. -/
def mapped : TCache := { entries := [(0, ⟨true, 0, 0, 16, 0, true, true⟩)], plru := [] }

/-- A module that has booted: every domain on, its controllers trained, its host links up, in a cycle in which the governor lets steps issue. -/
def booted : State :=
  { State.reset with
    now := 1
    trained := true
    power := { State.reset.power with doms := Vector.replicate 125 .on, locked := true }
    hearth := { State.reset.hearth with stage := 6 }
    host := { State.reset.host with enabled := true, up := Vector.replicate 2 true }
    cores := Vector.replicate 4 { Core.reset with tcache := mapped }
    mmu := { State.reset.mmu with cache := mapped } }

/-- A word of a class and an opcode in generation 1, with values at bit places. -/
def word (cls opc : Nat) (fields : List (Nat × Nat)) : IWord :=
  BitVec.ofNat 256 (fields.foldl (fun a p => a + p.2 * 2 ^ p.1) (opc + cls * 2 ^ 8 + 2 ^ 12))

/-- A descriptor of a matrix in two dimensions (R110): format, compression, rows, columns, row stride, base, and whether it lies in the Bench. -/
def matrix (fmt comp rows cols stride base : Nat) (bench : Bool) : Nat :=
  base + fmt * 2 ^ 64 + comp * 2 ^ 68 + 2 * 2 ^ 72 + b2n bench * 2 ^ 75 + cols * 2 ^ 128 + rows * 2 ^ 160 + stride * 2 ^ 288

/-- Memory that holds bytes from an address on, and nothing else. -/
def bytesAt (a : Nat) (bs : List Byte) : Tab Byte := bs.zipIdx.filterMap (fun p => if p.1 = 0 then none else some (a + p.2, p.1))

/-- Memory with descriptors one after another from address 0x1000. -/
def table (ds : List Nat) : Tab Byte := bytesAt 0x1000 (ds.flatMap (leBytes 64))

/-- Tray 0 of queue 0 runs, its descriptor table at 0x1000, and its next instruction word has been read ahead. -/
def running (w : IWord) : Tray :=
  { Tray.reset 0 with state := .run, set := .start 0 0x1000, ahead := [⟨0, 0, w, []⟩] }

/-- A booted module whose tray 0 comes to a word with descriptors. -/
def at0 (w : IWord) (ds : List Nat) : State := { booted.setTray 0 (running w) with mem := table ds }

/-- The premises of Passes as one Bool, with a further premise on the word and on the state that reading the descriptors leaves. -/
def passes (s : State) (t : Nat) (mn : Mn) (p : IWord → State → Bool) : Bool :=
  match nextWord s t with
  | (_, .error _) => false
  | (s0, .ok w0) =>
    let w := batchWord (s.tray t).kind w0
    match readDescs s0 t (s.tray t).pc (s.tray t).set.dtab (s.tray t).loops (namedDescs mn w (s.tray t).set.red (s.tray t).set.statd) with
    | (_, .error _) => false
    | (s1, .ok ds) =>
      decide (t < 32) && canIssue s t && (s.tray t).insts.all (fun i => decide (i.seq < (s.tray t).nextSeq)) && decide (wordFault w = none ∧ mnOfWord w = some mn) &&
        decide (headerFault s0 t mn w = none) && decide (descsFault s1 mn w (s.tray t).set ds = none) && decide (step8Fault s1 t (newInst (s.tray t) mn w ds) = none) &&
        (mn != .loop || !loopBad (s.tray t).pc w (s.tray t).loops) && decide (lateFault s1 t (newInst (s.tray t) mn w ds) = none) && p w s1

theorem passes_sound {s : State} {t : Nat} {mn : Mn} {p : IWord → State → Bool} (h : passes s t mn p = true) :
    ∃ w ds s1, Passes s t mn w ds s1 ∧ p w s1 = true := by
  unfold passes at h
  split at h
  · cases h
  · rename_i s0 w0 hw
    dsimp only at h
    split at h
    · cases h
    · rename_i s1 ds hd
      simp only [Bool.and_eq_true, decide_eq_true_eq, List.all_eq_true, Bool.or_eq_true, bne_iff_ne, ne_eq, Bool.not_eq_true'] at h
      obtain ⟨⟨⟨⟨⟨⟨⟨⟨⟨h1, h2⟩, h3⟩, h4⟩, h5⟩, h6⟩, h7⟩, h8⟩, h9⟩, hp⟩ := h
      exact ⟨_, ds, s1, ⟨h1, h2, h3, h4, ⟨s0, w0, hw, rfl, h5, hd⟩, h6, h7, fun hm => h8.resolve_left (fun hn => hn hm), h9⟩, hp⟩

/-- A present value that meets a premise. -/
theorem some_with {α : Type} {o : Option α} {P : α → Prop} [DecidablePred P] (h : o.any (fun a => decide (P a)) = true) : ∃ a, o = some a ∧ P a := by
  cases o with
  | none => cases h
  | some a => exact ⟨a, rfl, of_decide_eq_true h⟩

/-- A result that is not an error, with a premise on it. -/
def okWith {ε α : Type} (r : State × Except ε α) (p : State → α → Bool) : Bool :=
  match r with
  | (s, .ok a) => p s a
  | _ => false

theorem ok_with {ε α : Type} {r : State × Except ε α} {P : State → α → Prop} [∀ s a, Decidable (P s a)] (h : okWith r (fun s a => decide (P s a)) = true) :
    ∃ s a, r = (s, .ok a) ∧ P s a := by
  obtain ⟨s, e | a⟩ := r
  · cases h
  · exact ⟨s, a, rfl, of_decide_eq_true h⟩

theorem ok_result {ε α : Type} {r : State × Except ε α} (h : okWith r (fun _ _ => true) = true) : ∃ s a, r = (s, .ok a) := by
  obtain ⟨s, e | a⟩ := r
  · cases h
  · exact ⟨s, a, rfl⟩

theorem err_result {ε α : Type} {r : State × Except ε α} (h : (match r.2 with | .error _ => true | .ok _ => false) = true) : ∃ s e, r = (s, .error e) := by
  obtain ⟨s, e | a⟩ := r
  · exact ⟨s, e, rfl⟩
  · cases h

theorem sound_of {s : State} {i p : Nat} (h : s.planted = []) : Sound s i p := by intro x hx; simp [h] at hx

theorem runs_of {s : State} {t : Nat} (h : s.stop = none ∧ (s.tray t).live = true ∧ (s.tray t).state ≠ .paused) : Runs s t := h

/-- An outcome is a next state. -/
def isNext {σ φ ρ : Type} (o : Host.Outcome σ φ ρ) : Bool :=
  match o with
  | .next _ => true
  | _ => false

/-- The state that a few commands leave. -/
def after (s : State) (cs : List Instr) : State := cs.foldl (fun s c => match exec c s with | .next s' => s' | _ => s) s

end Sys2Proof.Tests
end

