-- ==== Sys2Proof/Tests/Issuing.lean ====
section
/-! SUPPORT. The premises of the statements about issue hold somewhere: every opcode has a word that passes its checks, and each clause has its case. -/

namespace Sys2Proof.Tests

set_option Elab.async false

open Sys2Proof Sys2Proof.Machine Sys2Proof.Claims

/-- A word of each opcode, with the descriptors that it names. -/
def sample : Mn → IWord × List Nat
  | .nop => (word 0 0 [], [])
  | .loop => (word 0 1 [(96, 2), (128, 1)], [])
  | .endTask => (word 0 2 [], [])
  | .setvl => (word 0 3 [(64, 2048)], [])
  | .cfg => (word 0 4 [(64, 0x10), (96, 0x2000)], [])
  | .ld => (word 1 0 [(72, 1), (96, 4)], [matrix 0 0 4 8 8 0x4000 false, matrix 0 0 4 8 8 0x5000 false])
  | .st => (word 1 1 [(72, 1), (96, 4)], [matrix 0 0 4 8 8 0x4000 false, matrix 0 0 4 8 8 0x5000 false])
  | .gather => (word 1 2 [(72, 1), (80, 2), (96, 4)], [matrix 0 0 4 8 8 0x4000 false, matrix 0 0 4 8 8 0x5000 false, matrix 2 0 1 4 16 0x6000 false])
  | .scatter => (word 1 3 [(72, 1), (80, 2), (96, 4)], [matrix 0 0 4 8 8 0x4000 false, matrix 0 0 4 8 8 0x5000 false, matrix 2 0 1 4 16 0x6000 false])
  | .remote => (word 1 4 [(72, 1), (96, 4), (216, 6)], [matrix 0 0 4 8 8 0x4000 false, matrix 0 0 4 8 8 0x5000 false])
  | .pref => (word 1 5 [(96, 4)], [matrix 0 0 4 8 8 0x4000 false])
  | .mm => (word 2 0 [(72, 1), (80, 2), (96, 4), (128, 8), (152, 4)], [matrix 2 0 4 4 16 0x4000 false, matrix 0 0 4 8 8 0x5000 false, matrix 0 0 4 8 8 0x6000 false])
  | .mms => (word 2 1 [(72, 1), (80, 2), (96, 4), (128, 8), (152, 4)], [matrix 2 0 4 4 16 0x4000 false, matrix 0 0 4 8 8 0x5000 false, matrix 0 2 4 8 0 0x6000 false])
  | .ldw => (word 2 2 [(128, 8), (152, 4), (237, 1)], [matrix 0 0 4 8 8 0x6000 false])
  | .int => (word 3 0 [(72, 1), (80, 2), (96, 4), (128, 8), (152, 4)], [matrix 2 0 4 4 16 0x4000 false, matrix 0 0 4 8 8 0x5000 false, matrix 0 0 4 8 8 0x6000 false])
  | .sct => (word 3 1 [(72, 1), (80, 2), (96, 4), (128, 8), (152, 4)], [matrix 2 0 4 4 16 0x4000 false, matrix 0 0 4 8 8 0x5000 false, matrix 0 0 4 8 8 0x6000 false])
  | .exp => (word 3 2 [(72, 1), (96, 5), (128, 8)], [matrix 0 0 5 8 8 0x4000 false, matrix 0 1 5 8 0 0x5000 false])
  | .cmp => (word 3 3 [(72, 1), (96, 5), (128, 8)], [matrix 0 1 5 8 0 0x4000 false, matrix 0 0 5 8 8 0x5000 false])
  | .cen => (word 3 4 [(72, 1), (96, 5), (128, 8)], [matrix 2 0 1 1 8 0x4000 false, matrix 0 0 5 8 8 0x5000 false])
  | .ldp => (word 4 0 [(72, 1), (196, 15)], [0, matrix 2 0 1 18 72 0x5000 false])
  | .run => (word 4 1 [(72, 1), (80, 1), (88, 1), (96, 5), (128, 8)], [matrix 0 0 5 8 8 0x4000 false, matrix 0 0 5 8 8 0x5000 false])
  | .cpr => (word 4 2 [(72, 1), (80, 2), (96, 5), (128, 8), (204, 2), (212, 1)], [matrix 0 0 5 8 8 0x4000 false, matrix 0 0 5 8 8 0x5000 false, matrix 2 0 5 1 8 0x6000 false])
  | .exd => (word 4 3 [(72, 1), (96, 5), (128, 8), (204, 2), (212, 1)], [matrix 0 0 5 8 8 0x4000 false, matrix 0 0 5 8 8 0x5000 false, matrix 2 0 5 1 8 0x6000 false])
  | .prm => (word 4 4 [(72, 1), (80, 2), (96, 5), (128, 8)], [matrix 0 0 5 8 8 0x4000 false, matrix 0 0 5 8 8 0x5000 false, matrix 2 0 5 8 32 0x6000 false])
  | .red => (word 4 5 [(72, 1), (96, 5), (128, 8)], [matrix 7 0 5 1 8 0x4000 false, matrix 0 0 5 8 8 0x5000 false])
  | .pcfg => (word 5 0 [(64, 15), (96, 0x3F800000)], [])
  | .stat => (word 5 1 [(72, 1), (96, 5), (128, 8), (200, 1)], [matrix 7 0 5 1 8 0x4000 false, matrix 0 0 5 8 8 0x5000 false])
  | .upd => (word 5 2 [(72, 1), (80, 2), (96, 8)], [matrix 6 0 1 8 16 0x4000 false, matrix 7 0 1 8 32 0x5000 true, matrix 6 0 1 8 16 0x6000 false])
  | .pred => (word 6 0 [(72, 1), (80, 2), (96, 32), (128, 4), (144, 7)],
      [matrix 2 0 1 1 8 0x4000 false, matrix 0 0 2 8 8 0x5000 false, matrix 0 0 4 8 8 0x6000 false, matrix 0 0 32 4 8 0x7000 false])
  | .aud => (word 6 1 [(64, 3), (68, 1)], [])
  | .wait => (word 7 0 [(64, 1)], [])
  | .sig => (word 7 1 [(40, 0xFF)], [])
  | .bar => (word 7 2 [(96, 3)], [])
  | .fsend => (word 7 0x10 [(72, 1), (96, 8), (160, 6)], [matrix 0 0 1 8 8 0x4000 false, matrix 0 0 1 8 8 0x5000 false])
  | .fmcast => (word 7 0x11 [(72, 1), (96, 8), (176, 3)], [matrix 0 0 1 8 8 0x4000 false, matrix 0 0 1 8 8 0x5000 false])
  | .fred => (word 7 0x12 [(72, 1), (96, 8), (176, 3)], [matrix 7 0 1 8 32 0x4000 false, matrix 7 0 1 8 32 0x5000 false])

/-- The module has address 5, its neighbor 6 beyond port 0, a route there, and both make up group 3. -/
def fabricOn (s : State) : State :=
  { ((s.setReg (Csr.route 6) (1#64 <<< 63)).setReg (Csr.group 3) ((1#64 <<< 63) ||| (1#64 <<< 62) ||| 2#64)).setReg (Csr.groupMembers 3 0) 0x60005#64 with
    staon := { Staon.reset with assigned := some 5, ports := Vec.put Staon.reset.ports 0 { SPort.reset with state := 4, ver := 1, peerAddr := 6 } } }

/-- Tray 0 comes to the word of an opcode. -/
def atSample (mn : Mn) : State :=
  (fabricOn (at0 (sample mn).1 (sample mn).2)).modVec 0 (fun v => { v with marks := [(0, true)] })

/-- Every opcode. -/
def opcodes : List Mn :=
  [.nop, .loop, .endTask, .setvl, .cfg, .ld, .st, .gather, .scatter, .remote, .pref, .mm, .mms, .ldw, .int, .sct, .exp, .cmp, .cen, .ldp, .run, .cpr, .exd, .prm, .red, .pcfg, .stat,
   .upd, .pred, .aud, .wait, .sig, .bar, .fsend, .fmcast, .fred]

/-- Of the premises of the statements about issue: the wait is met, no FENCE, no mask, and the counts of the operands are not 0. -/
def plain (mn : Mn) (w : IWord) (s1 : State) : Bool :=
  tokensMet ((atSample mn).tray 0).tokens (W.wait w) (waitNeed mn w) && !W.fence w && (maskBindOf s1 0 mn w).isNone &&
    (!mn.isProduct || (decide (0 < W.m w) && decide (0 < W.nT w))) && (mn == .ldp || !mn.isV || (decide (0 < W.m w) && decide (0 < W.nV w))) && (mn != .ldw || decide (0 < W.nT w)) &&
    (mn != .loop || decide (0 < W.m w))

theorem opcodes_all (mn : Mn) : mn ∈ opcodes := by cases mn <;> decide

theorem samples_pass : opcodes.all (fun mn => passes (atSample mn) 0 mn (plain mn)) = true := by decide +kernel

/-- InstructionIssues, ControlInstructionsAreDoneAtRelease, SettingsFollowTheirInstructions, the first clause of LoopOpensAndTurnsBack, EndEntersEnding, TransfersAreRequestedOnTheirChannels,
ProductTilesCoverTheOutput, StepsFollowTheRows and FabricInstructionsPlanTheirMessages: every opcode issues somewhere, free to go, unmasked, with counts that are not 0. -/
theorem test_every_opcode_passes (mn : Mn) : ∃ (s : State) (w : IWord) (ds : List (Role × Nat × Desc)) (s1 : State), Passes s 0 mn w ds s1 ∧ FreeToGo (s.tray 0) mn w ∧
    maskBindOf s1 0 mn w = none ∧ (mn.isProduct = true → 0 < W.m w ∧ 0 < W.nT w) ∧ (mn.isV = true → mn ≠ .ldp → 0 < W.m w ∧ 0 < W.nV w) ∧ (mn = .ldw → 0 < W.nT w) ∧
    (mn = .loop → 0 < W.m w) := by
  obtain ⟨w, ds, s1, h, hp⟩ := passes_sound (List.all_eq_true.mp samples_pass mn (opcodes_all mn))
  refine ⟨atSample mn, w, ds, s1, h, ?_⟩
  simp only [plain, Bool.and_eq_true, Bool.or_eq_true, decide_eq_true_eq, Bool.not_eq_true', Option.isNone_iff_eq_none, bne_iff_ne, ne_eq, beq_iff_eq] at hp
  obtain ⟨⟨⟨⟨⟨⟨h1, h2⟩, h3⟩, h4⟩, h5⟩, h6⟩, h7⟩ := hp
  refine ⟨⟨h1, fun hf => by simp [hf] at h2⟩, h3, fun hm => ?_, fun hm hn => ?_, fun hm => ?_, fun hm => ?_⟩
  · simpa [hm] using h4
  · simpa [hm, hn] using h5
  · simpa [hm] using h6
  · simpa [hm] using h7

/-- UnmetWaitBlocksTray. -/
theorem test_unmet_wait : ∃ w ds s1, Passes (at0 (word 0 0 [(32, 0x80)]) []) 0 .nop w ds s1 ∧ tokensMet ((at0 (word 0 0 [(32, 0x80)]) []).tray 0).tokens (W.wait w) (waitNeed .nop w) = false := by
  obtain ⟨w, ds, s1, h, hp⟩ := passes_sound (s := at0 (word 0 0 [(32, 0x80)]) []) (t := 0) (mn := .nop)
    (p := fun w _ => !tokensMet ((at0 (word 0 0 [(32, 0x80)]) []).tray 0).tokens (W.wait w) (waitNeed .nop w)) (by decide +kernel)
  exact ⟨w, ds, s1, h, by simpa using hp⟩

/-- A word passes on tray 0 of a state, and meets a further premise. -/
def Comes (s : State) (mn : Mn) (p : IWord → State → Bool) : Prop := ∃ w ds s1, Passes s 0 mn w ds s1 ∧ p w s1 = true

/-- SettingsFollowTheirInstructions at its bounds: vector lengths 1 and 2048, the last region, and the descriptor table base. -/
theorem test_settings_at_their_bounds :
    Comes (at0 (word 0 3 [(64, 1)]) []) .setvl (fun w _ => bf w 79 64 == 1) ∧ Comes (at0 (word 0 3 [(64, 2048)]) []) .setvl (fun w _ => bf w 79 64 == 2048) ∧
    Comes (at0 (word 0 4 [(64, 15), (96, 4095), (112, 1)]) []) .cfg (fun w _ => decide (bf w 71 64 < 0x10)) ∧
    Comes (at0 (word 0 4 [(64, 16), (96, 0xFFFFFFC0), (128, 0xFFFF)]) []) .cfg (fun w _ => bf w 71 64 == 0x10) :=
  ⟨passes_sound (by decide +kernel), passes_sound (by decide +kernel), passes_sound (by decide +kernel), passes_sound (by decide +kernel)⟩

/-- A tray in the loop of one instruction at index 0, in an iteration of two. -/
def looping (iter : Nat) : State := (at0 (word 0 0 []) []).modTray 0 (fun r => { r with loops := [⟨0, 0, 2, iter, none, none⟩] })

/-- LoopOpensAndTurnsBack: a loop passed over, and the last instruction of a body in its first and in its last iteration. -/
theorem test_loops :
    Comes (at0 (word 0 1 [(128, 1)]) []) .loop (fun w _ => W.m w == 0) ∧ Comes (looping 0) .nop (fun _ _ => (((looping 0).tray 0).loops.all (fun l => l.last == ((looping 0).tray 0).pc && decide (l.iter + 1 < l.count)))) ∧
    Comes (looping 1) .nop (fun _ _ => (((looping 1).tray 0).loops.all (fun l => l.last == ((looping 1).tray 0).pc && decide (l.count ≤ l.iter + 1)))) :=
  ⟨passes_sound (by decide +kernel), passes_sound (by decide +kernel), passes_sound (by decide +kernel)⟩

/-- ZeroShapeIsDoneAtRelease: a product with M = 0, one with N = 0, a row operation with M = 0, one with N = 0, and an MXM.LDW with N = 0. -/
theorem test_zero_shapes :
    Comes (at0 (word 2 0 [(72, 1), (80, 2), (128, 8), (152, 4)]) (sample .mm).2) .mm (fun w _ => W.m w == 0) ∧
    Comes (at0 (word 2 0 [(72, 1), (80, 2), (96, 4), (128, 8)]) (sample .mm).2) .mm (fun w _ => W.nT w == 0) ∧
    Comes (at0 (word 4 5 [(72, 1), (128, 8)]) (sample .red).2) .red (fun w _ => W.m w == 0) ∧
    Comes (at0 (word 3 2 [(72, 1), (96, 5)]) (sample .exp).2) .exp (fun w _ => W.nV w == 0) ∧
    Comes (at0 (word 2 2 [(128, 8), (237, 2)]) (sample .ldw).2) .ldw (fun w _ => W.nT w == 0) :=
  ⟨passes_sound (by decide +kernel), passes_sound (by decide +kernel), passes_sound (by decide +kernel), passes_sound (by decide +kernel), passes_sound (by decide +kernel)⟩

/-- A SYNC.BAR of tray 0 at barrier 15, whose other participant, tray 1, waits there. -/
def lastAtBarrier : State := (at0 (word 7 2 [(64, 15), (96, 3)]) []).setBarrier 15 { mask := some 3, arrived := 2, waiters := [] }

/-- BarrierOpensAndCompletes: a free barrier for two trays, one for tray 0 alone, and an open one whose last tray comes. -/
theorem test_barriers :
    Comes (at0 (word 7 2 [(96, 3)]) []) .bar (fun w s1 => s1.barrier (bf w 67 64) == .free && bf w 127 96 != 1) ∧
    Comes (at0 (word 7 2 [(96, 1)]) []) .bar (fun w s1 => s1.barrier (bf w 67 64) == .free && bf w 127 96 == 1) ∧
    Comes lastAtBarrier .bar (fun w s1 => (s1.barrier (bf w 67 64)).mask == some (bf w 127 96) && !(s1.barrier (bf w 67 64)).arrived.testBit 0 &&
      (s1.barrier (bf w 67 64)).arrived ||| 1 == bf w 127 96) :=
  ⟨passes_sound (by decide +kernel), passes_sound (by decide +kernel), passes_sound (by decide +kernel)⟩

/-- WrongWordsEndTheTask: a word of generation 0, and one of an undefined opcode, are fetched by a tray that can issue. -/
theorem test_wrong_words :
    ∃ s0 w0 s1 w1, nextWord (at0 0#256 []) 0 = (s0, .ok w0) ∧ wordFault (batchWord ((at0 0#256 []).tray 0).kind w0) = some 0x0102 ∧ canIssue (at0 0#256 []) 0 = true ∧
      nextWord (at0 (word 8 0 []) []) 0 = (s1, .ok w1) ∧ wordFault (batchWord ((at0 (word 8 0 []) []).tray 0).kind w1) = some 0x0101 ∧ canIssue (at0 (word 8 0 []) []) 0 = true :=
  ⟨_, _, _, _, rfl, by decide +kernel, by decide +kernel, rfl, by decide +kernel, by decide +kernel⟩

end Sys2Proof.Tests
end

