-- ==== Sys2Proof/Tests/Tasks.lean ====
section
/-! SUPPORT. The premises of the statements about tasks, records, the tiler and the read-ahead hold somewhere, clause by clause. -/

namespace Sys2Proof.Tests

set_option Elab.async false

open Sys2Proof Sys2Proof.Machine Sys2Proof.Claims

/-- A CTRL.NOP, a CTRL.END and a SYNC.SIG to tray 5 that have been released and are done; the counters stand one below their limit. -/
def doneNop : State := after ((at0 (word 0 0 [(40, 0xFF), (48, 7)]) []).modTray 0 (fun r => { r with tokens := Vector.replicate 8 65534 })) [.ctrlNop 0]
@[inherit_doc doneNop] def doneEnd : State := after (at0 (word 0 2 [(48, 9)]) []) [.ctrlEnd 0]
@[inherit_doc doneNop] def doneSig : State := after (at0 (word 7 1 [(40, 1), (64, 5), (69, 1), (72, 0xFF)]) []) [.syncSig 0]

theorem test_completed_premises :
    (Sound doneNop 9 0 ∧ Runs doneNop 0 ∧ (∃ i, doneNop.inst 0 0 = some i ∧ i.finished = true ∧ i.mn ≠ .sig ∧ i.mn ≠ .endTask ∧ W.tag i.word ≠ 0 ∧
      (∀ j < 8, (W.sig i.word).testBit j = true → Vec.get (doneNop.tray 0).tokens j 0 < 65535)) ∧ (∀ j ∈ (doneNop.tray 0).insts, j.released = true)) ∧
    (Sound doneEnd 9 0 ∧ Runs doneEnd 0 ∧ (∃ i, doneEnd.inst 0 0 = some i ∧ i.finished = true ∧ i.mn = .endTask ∧ W.sig i.word = 0) ∧ (doneEnd.tray 0).kind = .doorbell ∧
      (∀ j ∈ (doneEnd.tray 0).insts, j.released = true)) ∧
    (Sound doneSig 9 0 ∧ Runs doneSig 0 ∧ (∃ i, doneSig.inst 0 0 = some i ∧ i.finished = true ∧ i.mn = .sig ∧ bit i.word 69 = true ∧ bf i.word 68 64 ≠ 0 ∧
      (doneSig.tray (bf i.word 68 64)).state = .idle ∧
      (∀ j < 8, Vec.get (doneSig.tray 0).tokens j 0 < 65535 ∧ Vec.get (doneSig.tray (bf i.word 68 64)).tokens j 0 < 65535)) ∧ (∀ j ∈ (doneSig.tray 0).insts, j.released = true)) :=
  ⟨⟨sound_of (by decide +kernel), runs_of (by decide +kernel), some_with (by decide +kernel), by decide +kernel⟩,
   ⟨sound_of (by decide +kernel), runs_of (by decide +kernel), some_with (by decide +kernel), by decide +kernel, by decide +kernel⟩,
   ⟨sound_of (by decide +kernel), runs_of (by decide +kernel), some_with (by decide +kernel), by decide +kernel⟩⟩

/-- A stream waits at queue 63, whose tray set is tray 31. -/
def waitingStream : State :=
  (booted.setReg (Csr.hqCfg 63) 0x80000000#64).modHq 63 (fun h => { h with waiting := [⟨0, 0x2000, 0x1000, .doorbell⟩] })

theorem test_dispatch_premises : waitingStream.stop = none ∧ waitingStream.hearth.removal = .none ∧ waitingByAge waitingStream = [(63, ⟨0, 0x2000, 0x1000, .doorbell⟩)] ∧
    (waitingStream.fld (Csr.hqCfg 63) 31 0).testBit 31 = true ∧ (waitingStream.tray 31).state = .idle ∧
    (∀ u < 31, (waitingStream.fld (Csr.hqCfg 63) 31 0).testBit u = true → (waitingStream.tray u).state ≠ .idle) ∧ 0x2000 % 32 = 0 ∧ 0x1000 % 64 = 0 := by decide +kernel

/-- A record of tray 3. -/
def aRec (kind : Nat) (last : Bool) : Rec :=
  { tag := 1, code := 0, kind := kind, tray := 3, queue := 0, zeroShape := false, statAny := false, index := 0, pass := 0, rowBlock := 0, aux := 0, addr := 0, last := last }

/-- A record waits at queue 0, whose ring of 16 records lies at an address; the indices are given. -/
def ringState (at' pi ci : Nat) (r : Rec) : State :=
  ((booted.setReg (Csr.hqRing 0) (BitVec.ofNat 64 (at' + 4 * 2 ^ 48))).setReg (Csr.hqIndex 0) (BitVec.ofNat 64 (pi + ci * 2 ^ 32))).modHq 0 (fun h => { h with recs := [r] })

/-- The address of the next record, and the state in which it is written. -/
def ringAt (s : State) : Nat := s.fld (Csr.hqRing 0) 47 5 * 32 + 32 * (s.fld (Csr.hqIndex 0) 31 0 % ringSize s 0)

/-- OldestRecordGoesToItsRing: a full ring; the last record of a task that fits in the slot before the last; and a record that no translation takes. -/
theorem test_ring_premises :
    ((ringState 0x3000 16 0 (aRec 0 false)).fld (Csr.hqIndex 0) 31 0 + 2 ^ 32 - (ringState 0x3000 16 0 (aRec 0 false)).fld (Csr.hqIndex 0) 63 32) % 2 ^ 32 =
      ringSize (ringState 0x3000 16 0 (aRec 0 false)) 0 ∧
    (let s := ringState 0x3000 15 0 (aRec 1 true)
     (s.fld (Csr.hqIndex 0) 31 0 + 2 ^ 32 - s.fld (Csr.hqIndex 0) 63 32) % 2 ^ 32 ≠ ringSize s 0 ∧ (s.hq 0).recs = [aRec 1 true] ∧ (aRec 1 true).last = true ∧
      translate (s.modHq 0 (fun x => { x with recs := [] })) 4 (s.fld (Csr.hqCfg 0) 55 50) (ringAt s) false =
        ((translate (s.modHq 0 (fun x => { x with recs := [] })) 4 (s.fld (Csr.hqCfg 0) 55 50) (ringAt s) false).1, .ok 0x31E0) ∧
      (ringWrite (s.modHq 0 (fun x => { x with recs := [] })) (s.fld (Csr.hqCfg 0) 55 50) (ringAt s) (recBytes (aRec 1 true) true)).2 = none) ∧
    (let s := ringState 0x30000 15 0 (aRec 0 false)
     (s.fld (Csr.hqIndex 0) 31 0 + 2 ^ 32 - s.fld (Csr.hqIndex 0) 63 32) % 2 ^ 32 ≠ ringSize s 0 ∧
      (ringWrite (s.modHq 0 (fun x => { x with recs := [] })) (s.fld (Csr.hqCfg 0) 55 50) (ringAt s) (recBytes (aRec 0 false) true)).2 = some 0x0305) := by decide +kernel

/-- Queue 0 owes a NOTIFY after 255 us. -/
def notifying : State := (booted.setReg (Csr.hqParam 0) (BitVec.ofNat 64 (255 * 2 ^ 26))).modHq 0 (fun h => { h with notifyOn := true, unnotified := 1 })

theorem test_notify_premises : (notifying.hq 0).notifyOn = true ∧ notifying.fld (Csr.hqParam 0) 33 26 ≠ 0 ∧
    Vec.get notifying.host.up (notifying.fld (Csr.hqCfg 0) 48 48) false = true ∧ notifying.host.paused = [] := by decide +kernel

/-- Tray 0 drains after a fault, with a ring that has one slot left or none. -/
def draining (pi : Nat) : State :=
  ((ringState 0x3000 pi 0 (aRec 0 false)).modHq 0 (fun h => { h with recs := [] })).modTray 0 (fun r => { r with state := .drain, faulted := some { aRec 2 true with tray := 0 } })

theorem test_drain_premises : ∀ pi ∈ [15, 16],
    ((draining pi).tray 0).state = .drain ∧ ((draining pi).tray 0).faulted = some { aRec 2 true with tray := 0 } ∧ ((draining pi).tray 0).kind = .doorbell ∧
    ((draining pi).tray 0).queue = 0 ∧ ((draining pi).tray 0).cancelled = [] ∧ ((draining pi).hq 0).recs = [] ∧
    (((draining pi).fld (Csr.hqIndex 0) 31 0 + 2 ^ 32 - (draining pi).fld (Csr.hqIndex 0) 63 32) % 2 ^ 32 = ringSize (draining pi) 0 ↔ pi = 16) := by decide +kernel

/-- An opcode's sample has issued on tray 0. -/
def issued (mn : Mn) : State := after (atSample mn) [issueCommand mn 0]

/-- NextStepEntersItsEngine: an SPX.EXP with a step left, and a dense MXM.MM on the arrays two of whose three passes are left. -/
def twoPasses : State :=
  after (at0 (word 2 0 [(72, 1), (80, 2), (96, 4), (128, 768), (152, 4), (239, 1)])
    [matrix 2 0 4 4 16 0x4000 false, matrix 0 0 4 768 768 0x5000 false, matrix 0 0 4 768 768 0x6000 false]) [.mxmMm 0, .tileStepQueue 0]

theorem test_tile_step_premises :
    (Runs (issued .exp) 0 ∧ (∃ i, ((issued .exp).tray 0).insts.find? Inst.toTile = some i ∧ i.planned = true ∧ i.steps ≠ [] ∧ i.mn.isProduct = false ∧
      (∀ j ∈ ((issued .exp).tray 0).insts, j.seq = i.seq → j = i) ∧ queueRoom (issued .exp) 0 0 (plainEngine i).1 = true)) ∧
    (Runs (issued .ldw) 0 ∧ (∃ i, ((issued .ldw).tray 0).insts.find? Inst.toTile = some i ∧ i.planned = true ∧ i.steps ≠ [] ∧ i.mn = .ldw ∧ W.arr i.word < 3 ∧
      queueRoom (issued .ldw) 0 0 (plainEngine i).1 = true)) ∧
    (Runs twoPasses 0 ∧ (∃ i, (twoPasses.tray 0).insts.find? Inst.toTile = some i ∧ i.planned = true ∧ i.mn = .mm ∧ W.eng i.word = 1 ∧ (i.desc .srca).comp = 0 ∧
      (i.desc .srcb).comp = 0 ∧ i.mask = none ∧ 0 < W.m i.word ∧ (∀ j ∈ (twoPasses.tray 0).insts, j.seq = i.seq → j = i) ∧
      i.steps.head?.any (fun p => (i.tile p.tile).opened && decide (2 ≤ (i.tile p.tile).stepsLeft) && decide (p.tile < i.tiles.length) &&
        queueRoom twoPasses 0 0 (.array (chooseArray twoPasses 0 i (gridNow twoPasses 0 i) p)) && decide (chooseArray twoPasses 0 i (gridNow twoPasses 0 i) p < 2)) = true)) :=
  ⟨⟨runs_of (by decide +kernel), some_with (by decide +kernel)⟩, ⟨runs_of (by decide +kernel), some_with (by decide +kernel)⟩,
   ⟨runs_of (by decide +kernel), some_with (by decide +kernel)⟩⟩

end Sys2Proof.Tests
end

