-- ==== Sys2Proof/Tests/Engines.lean ====
section
/-! SUPPORT. The premises of the statements about the engines and the Peel hold somewhere, clause by clause. -/

namespace Sys2Proof.Tests

set_option Elab.async false

open Sys2Proof Sys2Proof.Machine Sys2Proof.Claims

/-- A product of 8 by 8 by 4 on chosen engines, released, whose only step has been queued; its inputs lie in the Bench. -/
def product (eng : Nat) : Inst :=
  let w := word 2 0 [(72, 1), (80, 2), (96, 8), (128, 8), (152, 4), (239, eng)]
  let d := fun (n : Nat) => Desc.ofBytes (leBytes 64 n)
  let ds := [(Role.dst, 0, d (matrix 2 0 8 4 16 0x4000 false)), (.srca, 1, d (matrix 0 0 8 8 8 0 true)), (.srcb, 2, d (matrix 0 0 4 8 8 0x100 true))]
  { newInst (running w) .mm w ds with
    waitMet := true, released := true, planned := true, running := 1
    tiles := [{ OTile.empty with rows := 8, cols := 4, counts := List.replicate 8 0, opened := true, done := false }] }

/-- Tray 0 runs that product, and every input is 1. -/
def stepped (eng : Nat) : State :=
  { booted.setTray 0 { running 0 with insts := [product eng], nextSeq := 1, pc := 1, ahead := [] } with
    mem := bytesAt 0x020000000000 (List.replicate 64 1#8) ++ bytesAt 0x020000000100 (List.replicate 32 1#8) }

/-- The only step of that product, and what names its block of B. -/
def onlyPlane : PlaneKey := planeKeyOf (stepped 2) 0 (product 2) ⟨0, 0⟩
@[inherit_doc onlyPlane] def onlyStep (kind : StepKind) : Step :=
  { tray := 0, seq := 0, kind := kind, tile := 0, k := 0, plane := if kind.product then some onlyPlane else none, cyc := 0, ord := 0 }
@[inherit_doc onlyPlane] def onlyKey : WKey := stepKey (stepped 1) 0 (product 1) (gridNow (stepped 1) 0 (product 1)) ⟨0, 0⟩

/-- Four columns of eight ones. -/
def ones : List (List El) := List.replicate 4 (List.replicate 8 ⟨1, 0, true⟩)

/-- The step is queued at array 0; its weights are in the load buffer; its pass runs, with all launched but one cube row,
and the second of its two groups in the feeder queues. -/
def denseQueued : State := (stepped 1).modArray 0 0 (fun a => { a with queue := [onlyStep .array] })
@[inherit_doc denseQueued] def denseTile (launched : Nat) (swapped : Bool) : WTile :=
  { key := onlyKey, ldw := false, sub := some 0, rows := ones, bytes := 1024, launched := launched, swapped := swapped, lastUse := 0 }
@[inherit_doc denseQueued] def denseFilled : State := denseQueued.modArray 0 0 (fun a => { a with buf := [denseTile 0 false] })
@[inherit_doc denseQueued] def densePass : State :=
  denseQueued.modArray 0 0 (fun a => { a with buf := [denseTile 63 true], pass := Vec.put a.pass 0 (some ⟨onlyStep .array, ones, 1, 2, 4, 2, [⟨ones, 0⟩], 0⟩) })

theorem test_fill_array_premises : (arrayEnabled denseQueued 0 0 = true ∧ arrayPowered denseQueued 0 0 = true ∧ NoIdleLoad denseQueued 0 0) ∧
    (∃ x, (denseQueued.array 0 0).queue.find? (needsFill denseQueued 0 0) = some x ∧ x.kind ≠ .loadWeights ∧ (queuedKey denseQueued x).isSome = true ∧
      (denseQueued.inst x.tray x.seq).any (fun i => decide (bufUsed (denseQueued.array 0 0) + fillBytes denseQueued x i ≤ 524288) &&
        okWith (blockOfB denseQueued x.tray i (loadBlock denseQueued x i) ⟨x.tile, x.k⟩) (fun _ _ => true)) = true) :=
  ⟨⟨by decide +kernel, by decide +kernel, by unfold NoIdleLoad; decide +kernel⟩, some_with (by decide +kernel)⟩

theorem test_launch_premises : (denseFilled.stop = none ∧ arrayPowered denseFilled 0 0 = true ∧ (∃ w, launchable (denseFilled.array 0 0) 0 = some w ∧ w.swapped = false)) ∧
    (arrayPowered densePass 0 0 = true ∧ densePass.stop = none ∧ (∃ w, launchable (densePass.array 0 0) 0 = some w ∧ w.swapped = true ∧ cubeRows w.key.pack ≤ w.launched + 1)) :=
  ⟨⟨by decide +kernel, by decide +kernel, some_with (by decide +kernel)⟩, by decide +kernel, by decide +kernel, some_with (by decide +kernel)⟩

theorem test_inject_premises : mayIssue densePass true = true ∧ (densePass.port 0 0).length < 48 ∧ arrayPowered densePass 0 0 = true ∧
    (∃ p, Vec.get (densePass.array 0 0).pass 0 none = some p ∧ coreOf p.step.tray = 0 ∧ p.feed.head?.any (fun g => !g.rows.isEmpty) = true ∧
      (densePass.inst p.step.tray p.step.seq).any (fun i => !W.satTrap i.word) = true ∧
      (injectRound densePass (densePass.array 0 0) 0 (p.width * faceOf (densePass.array 0 0).pack) p.since).isSome = true) :=
  ⟨by decide +kernel, by decide +kernel, by decide +kernel, some_with (by decide +kernel)⟩

/-- The step is queued at the Sieve; its plane is built; it is current, with items of its first and last row left; it is over, and its slot open, then closed. -/
def sieveQueued : State := (stepped 2).modSieve 0 (fun v => { v with queue := [onlyStep .intersect] })
@[inherit_doc sieveQueued] def sievePlane : State := sieveQueued.modSieve 0 (fun v => { v with planes := [{ key := onlyPlane, slots := 1, rows := ones }] })
@[inherit_doc sieveQueued] def openSlot (closed : Bool) : AccSlot :=
  { tray := 0, seq := 0, tile := 0, path := .integer, comp := false, closed := closed, rows := List.replicate 8 (List.replicate 4 (0, 0)), drained := 0, lastStep := 0, flags := {} }
@[inherit_doc sieveQueued] def sieveCurrent : State := sievePlane.modSieve 0 (fun v =>
  { v with queue := [], cur := some { step := onlyStep .intersect, slot := 0, aRows := ones ++ ones, items := [.row 0, .row 7] }, slots := Vec.put v.slots 0 (some (openSlot false)) })
@[inherit_doc sieveQueued] def sieveOver : State := sievePlane.modSieve 0 (fun v => { v with queue := [], slots := Vec.put v.slots 0 (some (openSlot false)) })
@[inherit_doc sieveQueued] def sieveClosed : State := sieveOver.modSieve 0 (fun v => { v with slots := Vec.put v.slots 0 (some (openSlot true)), closed := [0] })

/-- Every slot is open, for tiles of another tray. -/
def sieveFull : State := sievePlane.modSieve 0 (fun v =>
  { v with slots := Vec.put (Vector.replicate 16 (some { openSlot false with tray := 1, lastStep := 5 })) 15 (some { openSlot false with tray := 1, lastStep := 4 }) })

theorem test_plane_premises : sieveRuns sieveQueued 0 .scatter = true ∧ (sieve sieveQueued 0).planes.foldl (fun a p => a + p.slots) 0 + 1 ≤ 32 ∧
    (∃ x, (sieve sieveQueued 0).queue.find? (lacksPlane sieveQueued 0) = some x ∧ x.plane.isSome = true ∧ (sieveQueued.inst x.tray x.seq).any (fun i =>
      okWith (blockOfB sieveQueued x.tray i (blockB i.word (gridNow sieveQueued x.tray i) (maskSel sieveQueued x.tray i) (i.tile x.tile).n x.k) ⟨x.tile, x.k⟩) (fun _ _ => true)) = true) :=
  ⟨by decide +kernel, by decide +kernel, some_with (by decide +kernel)⟩

theorem test_sieve_step_premises : (sieve sievePlane 0).cur = none ∧ (∃ x, nextSieveStep sievePlane 0 = some x ∧ coreOf x.tray = 0 ∧ sieveRuns sievePlane 0 x.kind = true ∧
    x.kind.product = true ∧ (planeOf (sieve sievePlane 0) x).isSome = true ∧ (sievePlane.inst x.tray x.seq).any (fun i =>
      (takeSlot sievePlane 0 x i).any (fun p =>
        let s0 := (p.1.modSieve 0 (fun v => { v with queue := v.queue.filter (fun z => z.ord != x.ord), lastTray := x.tray })).tick
        okWith (sieveRows s0 x.tray i (gridNow s0 x.tray i) (maskSel s0 x.tray i) ⟨x.tile, x.k⟩ (List.range (rowsOfStep i (gridNow s0 x.tray i) x.tile))) (fun s2 r =>
          s2.planted.isEmpty && r.1.any (fun e => match e with | .ok l => l.any El.stored | .error _ => false)))) = true) :=
  ⟨by decide +kernel, some_with (by decide +kernel)⟩

theorem test_group_take_premises : Runs sieveCurrent 0 ∧ sieveRuns sieveCurrent 0 .scatter = true ∧ (∃ x, (sieve sieveCurrent 0).cur = some x ∧ x.step.tray = 0 ∧
    x.items.head?.any SItem.sound = true ∧ (sieveCurrent.inst x.step.tray x.step.seq).isSome = true ∧
    (Vec.get (sieve sieveCurrent 0).slots x.slot none).isSome = true ∧ (planeOf (sieve sieveCurrent 0) x.step).isSome = true) ∧ groupNears 511 (sieve sieveCurrent 0) = true ∧
    sieveUntil 0 (fun _ => false) 0 sieveCurrent = sieveCurrent :=
  ⟨runs_of (by decide +kernel), by decide +kernel, some_with (by decide +kernel), by decide +kernel, rfl⟩

theorem test_slot_premises :
    (Runs sieveOver 0 ∧ slotQuiet 0 (sieve sieveOver 0) = true ∧ (∃ a, Vec.get (sieve sieveOver 0).slots 0 none = some a ∧ a.closed = false ∧ slotEnded sieveOver 0 a = true ∧ a.tray = 0)) ∧
    (Runs sieveClosed 0 ∧ sieveCycle 0 (drainLanes sieveClosed 0) sieveClosed = sieveClosed ∧ (sieve sieveClosed 0).closed = [0] ∧ allOn sieveClosed [coreDom 0 4] = true ∧
      (sieveClosed.port 0 2).length < 48 ∧ (∃ a, Vec.get (sieve sieveClosed 0).slots 0 none = some a ∧ a.tray = 0)) ∧
    ((sieve sieveFull 0).cur = none ∧ (∃ x, nextSieveStep sieveFull 0 = some x ∧ x.kind.product = true ∧
      slotOf (sieve sieveFull 0) x.tray x.seq x.tile = none ∧ (sieveFull.inst x.tray x.seq).any (fun i => (freeSlot (sieve sieveFull 0) (W.comp i.word)).isNone) = true) ∧
      (spillVictim sieveFull 0).any (fun p => p.1 == 15) = true ∧ slotQuiet 15 (sieve sieveFull 0) = true) :=
  ⟨⟨runs_of (by decide +kernel), by decide +kernel, some_with (by decide +kernel)⟩,
   ⟨runs_of (by decide +kernel), by rfl, by decide +kernel, by decide +kernel, by decide +kernel, some_with (by decide +kernel)⟩,
   by decide +kernel, some_with (by decide +kernel), by decide +kernel, by decide +kernel⟩

/-- The first row of a LEV.PRED is queued, and its inputs lie in the Bench. -/
def predicting : State :=
  after (at0 (sample .pred).1 [matrix 2 0 1 1 8 0x4000 false, matrix 0 0 2 8 8 0 true, matrix 0 0 4 8 8 0x100 true, matrix 0 0 32 4 8 0x200 true]) [.levPred 0, .tileStepQueue 0]

theorem test_predict_premises : (predicting.stop = none ∧ allOn predicting (engDoms 0 .levain .predict) = true ∧ mayIssue predicting false = true ∧ predicting.planted = []) ∧
    (∃ x, argMin (stepOrder (predicting.core 0).levain.lastTray) ((predicting.core 0).levain.queue.filter (levainReady predicting 0)) = some x ∧ coreOf x.tray = 0 ∧
      predMap predicting x.tray x.seq = none ∧ (predicting.inst x.tray x.seq).any (fun i => decide (x.k + 1 < i.lev.rows) &&
        okWith (rowScores (takeBitmap predicting x.tray i) x.tray i x.k) (fun s1 _ => decide ((s1.core 0).levain = ((takeBitmap predicting x.tray i).core 0).levain))) = true) :=
  ⟨by decide +kernel, some_with (by decide +kernel)⟩

/-- A program whose words do nothing is to be loaded into slot 15, and a row is to be expanded under a mask. -/
def loading : State :=
  let s := at0 (word 4 0 [(72, 1), (196, 15)]) [0, matrix 2 0 1 18 72 0 true]
  after { s with mem := s.mem ++ bytesAt 0x020000000008 ((List.replicate 8 (leBytes 8 0xFF)).flatten) } [.vxpLdp 0, .tileStepQueue 0]
@[inherit_doc loading] def expanding : State :=
  after (at0 (word 4 3 [(72, 1), (96, 1), (128, 8), (204, 2), (212, 1)]) [matrix 0 0 1 8 8 0x200 true, matrix 0 0 1 8 8 0 true, matrix 2 0 1 1 8 0x100 true])
    [.vxpExd 0, .tileStepQueue 0]

theorem test_vector_premises : (∀ s ∈ [loading, expanding], s.stop = none ∧ allOn s (engDoms 0 .vector .vector) = true ∧ mayIssue s false = true) ∧
    (∃ x, argMin (stepOrder (loading.core 0).vec.lastTray) ((loading.core 0).vec.queue.filter (vectorReady loading 0)) = some x ∧ x.kind = .loadProgram ∧ coreOf x.tray = 0 ∧
      (∀ j ∈ (loading.tray x.tray).insts, j.mn = .run → j.seq ≤ x.seq) ∧ (loading.inst x.tray x.seq).any (fun i =>
        okWith (ldpWords loading x i) (fun s1 ws => programOk ws && okWith (ldpTable s1 x i) (fun _ _ => true))) = true) ∧
    (∃ x, argMin (stepOrder (expanding.core 0).vec.lastTray) ((expanding.core 0).vec.queue.filter (vectorReady expanding 0)) = some x ∧ x.kind = .vector ∧ coreOf x.tray = 0 ∧
      (expanding.inst x.tray x.seq).any (fun i => i.mn != .red && okWith (withBcast expanding x i) (fun s1 j => s1.planted.isEmpty && mayRun s1 x.tray &&
        okWith (vectorRows s1 x j (blockRows (W.m j.word) x.k)) (fun s2 rows => okWith (cellTiles s2 x j rows (rowTiles j x.k)) (fun _ _ => true)))) = true) :=
  ⟨by decide +kernel, some_with (by decide +kernel), some_with (by decide +kernel)⟩

/-- The first of two passes of a product of one row is at its port of the Peel. -/
def arrived : State :=
  after (at0 (word 2 0 [(72, 1), (80, 2), (96, 1), (128, 512), (152, 4), (239, 1)]) [matrix 2 0 1 4 16 0x4000 false, matrix 0 0 1 512 512 0 true, matrix 0 0 4 512 512 0x400 true])
    [.mxmMm 0, .tileStepQueue 0, .weightFillDone 0 0, .weightLaunch 0 0, .arrayGroupInject 0 0 0 ⟨0, 0, 0⟩]

theorem test_arrival_premises : arrived.planted = [] ∧ Runs arrived 0 ∧ (∃ a, (arrived.port 0 0).head? = some a ∧ a.tray = 0 ∧ (arrived.inst a.tray a.seq).any (fun i =>
    !W.satTrap i.word && decide (a.tile < i.tiles.length) && (arrivalRows (i.tile a.tile) a).length == 1 && (arrivalRows (i.tile a.tile) a).all (fun r => r.1 == 0) &&
    (i.tile a.tile).finals.isEmpty && freshRow (arrived.tray 0).snap.coucheIvl ((i.tile a.tile).counts.getD 0 0) && !finalRow (i.tile a.tile) ((i.tile a.tile).counts.getD 0 0) &&
    !spillRow (arrived.tray 0).snap.coucheIvl (i.tile a.tile) ((i.tile a.tile).counts.getD 0 0) && decide (0 < (i.tile a.tile).counts.length)) = true) :=
  ⟨by decide +kernel, runs_of (by decide +kernel), some_with (by decide +kernel)⟩

/-- The only block of a PEEL.UPD has arrived. -/
def updating : State := (issued .upd).modInst 0 0 (fun i => { i with upd := { i.upd with held := [[List.replicate 8 0, List.replicate 8 0, List.replicate 8 0, []]] } })

theorem test_update_premises : updating.planted = [] ∧ Runs updating 0 ∧ (∃ i, (updating.tray 0).insts.find? (fun i => i.mn == .upd && !i.upd.held.isEmpty) = some i ∧
    updating.inst 0 i.seq = some i ∧ W.satTrap i.word = false ∧ bf i.word 218 216 = 0 ∧
    okWith (commitMixed updating 0 (spaceOf updating 0) ([(Role.w, 0), (Role.m1, 1)].flatMap (fun p => updWrites (i.desc p.1) (1024 * i.upd.next)
      ((updBlock i (updating.tray 0).snap.srSeed i.upd.next (i.upd.held.headD [])).map (fun e => e.out.map (fun q => q.1.getD p.2 0)))))) (fun _ _ => true) = true) :=
  ⟨by decide +kernel, runs_of (by decide +kernel), some_with (by decide +kernel)⟩

/-- A snapshot of a slot that tray 0 holds, or of no block. -/
def snapping (what : Nat) : State := after sieveCurrent [.peelDbgSnap 0 (BitVec.ofNat 64 (2 ^ 63 + what * 2 ^ 24))]

theorem test_snapshot_premises :
    (∃ v, ((snapping 1).core 0).peel.snapPending = some v ∧ bf v 25 24 = 1 ∧ (slotNumbered (snapping 1) 0 (bf v 20 6)).any (fun a => a.tray == 8 * 0 + bf v 23 21) = true) ∧
    (∃ v, ((snapping 3).core 0).peel.snapPending = some v ∧ bf v 25 24 = 3) := ⟨some_with (by decide +kernel), some_with (by decide +kernel)⟩

end Sys2Proof.Tests
end

