-- ==== Sys2Proof/Tests/Fabrics.lean ====
section
/-! SUPPORT. The premises of the statements about the fabric hold somewhere, clause by clause. -/

namespace Sys2Proof.Tests

set_option Elab.async false

open Sys2Proof Sys2Proof.Machine Sys2Proof.Claims

/-- Port 11 in a state, changed by `f`. -/
def portAt (st : Nat) (f : SPort → SPort) : State :=
  { booted with staon := { Staon.reset with enabled := true, assigned := some 5, ports := Vec.put Staon.reset.ports 11 (f { SPort.reset with state := st, ver := 1, peerAddr := 6 }) } }

/-- A HELLO of some versions. -/
def helloOf (vmin vmax : Nat) : HelloBody :=
  { vmin := vmin, vmax := vmax, addr := 6, prov := false, leaving := false, peerPort := 0, serial := 1, credReq := 1, credRsp := 1, credCol := 1, credMgt := 1 }

theorem test_link_premises :
    (∀ st ∈ [1, 2, 3], (sport (portAt st id) 11).state ∈ [1, 2, 3]) ∧ (∀ st ∈ [2, 3, 4, 5], (sport (portAt st id) 11).state ∈ [2, 3, 4, 5]) ∧
    (∀ st ∈ [2, 3, 5], let s := portAt st (fun p => { p with hellos := 1 }); (sport s 11).state ∈ [2, 3, 5] ∧ 1 ≤ (sport s 11).hellos) ∧
    ((helloOf 0 1).vmin ≤ 1 ∧ 1 ≤ (helloOf 0 1).vmax) ∧ (∀ h ∈ [helloOf 2 3, helloOf 0 0], ¬ (h.vmin ≤ 1 ∧ 1 ≤ h.vmax)) ∧
    (sport (portAt 4 id) 11).state = 4 ∧ (sport (portAt 6 id) 11).state = 6 := by decide +kernel

/-- The digits 1 to 9, whose CRCs are the check values that their polynomials are published with (R470; SMBus 3.1). -/
theorem test_crc_check_values :
    (let digits : List Byte := (List.range 9).map (fun k => BitVec.ofNat 8 (0x31 + k))
     crc32 digits = 0xCBF43926#32 ∧ crc8 digits = 0xF4#8) := by decide +kernel

/-- A link-control flit of a port that has received nothing (R470): ACKSEQ 4,095, FTYPE 3 and BODY_LEN 2 lie where the layout says. -/
theorem test_flit_layout :
    (let b := ctrlFlit SPort.reset [1#8, 0x11#8] false
     b.length = 256 ∧ b.take 12 = leBytes 12 (4095 * 2 ^ 12 + 3 * 2 ^ 27 + 2 * 2 ^ 64) ∧ (b.drop 12).take 3 = [1#8, 0x11#8, 0#8]) := by decide +kernel

/-- A flit with a sequence number. -/
def flit (fseq : Nat) (crc : Bool) : Flit := { fseq := fseq, ackseq := 0, nak := false, vc := 0, ftype := 1, cr := [0, 0, 0, 0], bodyLen := 8, crcOk := crc }

theorem test_flit_premises :
    (∀ st ∈ [4, 5], (sport (portAt st (fun p => { p with rxNext := 4095 })) 11).state ∈ [4, 5] ∧
      (∀ v < 4, Vec.get (sport (portAt st (fun p => { p with rxNext := 4095 })) 11).queues v [] = [])) ∧
    ((flit 4095 true).crcOk = true ∧ (flit 4095 true).nak = false ∧ (flit 4095 true).ftype ∈ [1, 2] ∧
      (flit 4095 true).fseq % 4096 = (sport (portAt 4 (fun p => { p with rxNext := 4095 })) 11).rxNext ∧
      (flit 0 true).fseq % 4096 ≠ (sport (portAt 4 (fun p => { p with rxNext := 4095 })) 11).rxNext) ∧
    (∀ n ∈ [30, 31], ((sport (portAt 4 (fun p => { p with badRun := n })) 11).badRun + 1 < 32 ↔ n = 30)) ∧
    (∀ n ∈ [14, 15], let s := portAt 4 (fun p => { p with unacked := [⟨0, 1, 1, []⟩], replays := n })
      (sport s 11).state = 4 ∧ (sport s 11).unacked ≠ [] ∧ ((sport s 11).replays + 1 < 16 ↔ n = 14)) := by decide +kernel

/-- A flit of a type that asks for a replay after flit `q`, and a port that has flits 1 and 2 unacknowledged and has replayed them some times. -/
def nakFlit (ftype q : Nat) : Flit := { flit 0 true with ftype := ftype, nak := true, ackseq := q }
@[inherit_doc nakFlit] def owing (replays : Nat) : State := portAt 4 (fun p => { p with unacked := [⟨1, 0, 1, []⟩, ⟨2, 0, 1, []⟩], txNext := 3, replays := replays })

/-- FlitsAndStallTimersComplete: a flit of another type; a NAK at a port that owes nothing, or that ignores it; and one that replays, for the first or for the sixteenth time. -/
theorem test_flit_completion_premises :
    (let y := fun (s : State) (f : Flit) => applyCredits (applyAck { sport s 11 with badRun := 0 } f.ackseq) f.cr
     (∀ ty ∈ [1, 3], (nakFlit ty 0).crcOk = true ∧ (y (portAt 4 id) (nakFlit ty 0)).unacked = [] ∧
       (y (owing 0) (nakFlit ty 1)).unacked = [⟨2, 0, 1, []⟩] ∧ (y (owing 0) (nakFlit ty 1)).ignoreNak ≠ some 1 ∧ (y (owing 9) (nakFlit ty 1)).replays = 0 ∧
       (y (owing 14) (nakFlit ty 0)).replays = 14 ∧ (y (owing 15) (nakFlit ty 0)).replays = 15 ∧ (y (owing 15) (nakFlit ty 0)).unacked ≠ [] ∧
       (y (portAt 4 (fun p => { p with unacked := [⟨1, 0, 1, []⟩], ignoreNak := some 0 })) (nakFlit ty 0)).ignoreNak = some 0)) ∧ (3 : Nat) ∉ [1, 2] ∧
    (∀ b ∈ [true, false], (sport (portAt 5 (fun p => { p with discarding := b })) 11).state ∈ [4, 5]) := by decide +kernel

/-- A message of a type from module 6, and the module with a neighbor beyond ports 11 and 0, and a route to module 7 over port 0. -/
def fromSix (type dst hops : Nat) : StnMsg := { StnMsg.blank type with src := 6, dst := dst, hops := hops, ver := 1, msgid := 9, rowBytes := 8, addr := 0x100, data := leBytes 8 77 }
@[inherit_doc fromSix] def linked : State :=
  let s := (portAt 4 id).setReg (Csr.route 7) (1#64 <<< 63)
  { s with staon := { s.staon with ports := Vec.put s.staon.ports 0 { SPort.reset with state := 4, ver := 1, peerAddr := 7 } } }

theorem reaches_of {s : State} {m : StnMsg} (h : (sport s 11).state = 4 ∧ m.ver = (sport s 11).ver ∧ bit (s.reg Csr.errInj) 63 = false) : Reaches s 11 m :=
  ⟨by decide, h.1, h.2.1, .inl h.2.2⟩

/-- A WRITE from a provisional address, for this module (new, a duplicate, or to where nothing is mapped), and for another module. -/
theorem test_write_premises :
    (Reaches linked 11 (fromSix 1 5 3) ∧ addrBad linked { fromSix 1 5 3 with src := 0x8000 } true = true) ∧
    (addrBad linked (fromSix 1 5 3) true = false ∧ (fromSix 1 5 3).dst = ownAddr linked ∧ linked.staon.leaving = false ∧
      (deliver (taken linked 11 1 (fromSix 1 5 3)) (fromSix 1 5 3)).2 = none) ∧
    (let s := linked.modStaon (fun b => { b with dedup := [(6, 9)] }); s.staon.dedup.contains ((fromSix 1 5 3).src, (fromSix 1 5 3).msgid) = true) ∧
    (deliver (taken linked 11 1 { fromSix 1 5 3 with addr := 0x20000 }) { fromSix 1 5 3 with addr := 0x20000 }).2 = some 1 ∧
    (addrBad linked (fromSix 1 7 0) true = false ∧ (fromSix 1 7 0).dst ≠ ownAddr linked ∧ (fromSix 1 7 0).hops = 0) :=
  ⟨⟨reaches_of (by decide +kernel), by decide +kernel⟩, by decide +kernel, by decide +kernel, by decide +kernel, by decide +kernel⟩

/-- Group 0 of modules 5 and 6, whose messages are delivered here, with no port to go on by. -/
def grouped : State := (linked.setReg (Csr.group 0) ((1#64 <<< 63) ||| (1#64 <<< 62) ||| 2#64)).setReg (Csr.groupMembers 0 0) 0x60005#64

theorem test_mcast_premises :
    (Reaches linked 11 (fromSix 2 0 3) ∧ bit (linked.reg (Csr.group ((fromSix 2 0 3).dst % 1024))) 63 = false) ∧
    (Reaches grouped 11 (fromSix 2 0 3) ∧ addrBad grouped (fromSix 2 0 3) false = false ∧ bit (grouped.reg (Csr.group 0)) 63 = true ∧ bit (grouped.reg (Csr.group 0)) 62 = true ∧
      (∀ p ∈ groupPorts (taken grouped 11 2 (fromSix 2 0 3)) 0, p = 11) ∧ (deliver (taken grouped 11 2 (fromSix 2 0 3)) (fromSix 2 0 3)).2 = none) :=
  ⟨⟨reaches_of (by decide +kernel), by decide +kernel⟩, ⟨reaches_of (by decide +kernel), by decide +kernel, by decide +kernel, by decide +kernel, by decide +kernel, by decide +kernel⟩⟩

/-- A contribution of member 1 to reduction 1 of a group. -/
def contribution : StnMsg := { fromSix 3 5 3 with rseq := 1, member := 1, fmt := 7, first := 0, data := List.replicate 16 0 }

/-- The FAB.RED of group 3 is in flight. -/
def reducing : State := let s := issued .fred; { s with staon := { s.staon with ports := Vec.put s.staon.ports 11 { SPort.reset with state := 4, ver := 1, peerAddr := 6 } } }

theorem test_red_premises :
    (Reaches reducing 11 contribution ∧ addrBad reducing contribution true = false ∧ contribution.dst = ownAddr reducing ∧ reducing.staon.dedup = [] ∧
      (∃ p, redTarget reducing contribution = some p ∧ p.2.released = true ∧ redBehind reducing 11 contribution p.1 p.2 = false ∧ redFits p.2 contribution = true ∧
        (redAdd reducing p.1 p.2.seq 1 0 (redValues (p.2.desc .srca) false (min (redLength (p.2.desc .srca) false 16) (p.2.red.slice - 0)) contribution.data)).2 = .added)) ∧
    (Reaches grouped 11 contribution ∧ redTarget grouped contribution = none ∧ redAhead grouped contribution = true) :=
  ⟨⟨reaches_of (by decide +kernel), by decide +kernel, by decide +kernel, by decide +kernel, some_with (by decide +kernel)⟩, reaches_of (by decide +kernel), by decide +kernel, by decide +kernel⟩

theorem test_forward_premises :
    (∀ ty ∈ [1, 3, 4, 5, 6], addrBad linked (fromSix ty 7 1) true = false ∧ (fromSix ty 7 1).dst ≠ ownAddr linked ∧ 0 < (fromSix ty 7 1).hops ∧
      routePort linked 7 = some 0) ∧
    ({ fromSix 0x12 7 1 with route := [0, 15] }.route = 0 :: [15] ∧ portUsable linked 0 = true) := by decide +kernel

/-- Message 9 of this module waits for its acknowledgement: it has been sent again some times, or was answered BUSY. -/
def sentOne (tries : Nat) (busy : Bool) : State :=
  linked.modStaon (fun b => { b with sent := [⟨{ fromSix 1 6 3 with src := 5 }, none, tries, some 0, busy, none⟩] })

theorem test_answer_premises :
    (Reaches (sentOne 0 false) 11 { fromSix 4 5 3 with ackId := 9 } ∧ (fromSix 4 5 3).dst = ownAddr (sentOne 0 false)) ∧
    (∀ m ∈ [{ fromSix 5 5 3 with ackId := 9, status := 3 }, { fromSix 5 5 3 with ackId := 9, status := 1 }], m.dst = ownAddr (sentOne 0 false) ∧ (m.status = 3 ∨ m.status = 1)) ∧
    (fromSix 6 5 3).dst = ownAddr linked ∧
    ({ fromSix 0x10 5 3 with route := [15] }).route.head? = some 15 ∧ inStaonSpace 0x1FFFC0 (min 8 9) = true ∧ inStaonSpace 0x1FFFF8 ([1#64].take 8).length = true ∧
    (∀ b ∈ [0, 1], bit ((linked.setFld Csr.stnCfg 2 2 b).reg Csr.stnCfg) 2 = decide (b = 1)) ∧
    (∀ b ∈ [0, 1], bit ((linked.setFld Csr.stnMbxCtl 1 1 b).reg Csr.stnMbxCtl) 1 = decide (b = 1)) :=
  ⟨⟨reaches_of (by decide +kernel), by decide +kernel⟩, by decide +kernel, by decide +kernel, by decide +kernel, by decide +kernel, by decide +kernel, by decide +kernel, by decide +kernel⟩

/-- A multicast message whose member 6 owes its acknowledgement. -/
def retained : State := linked.modStaon (fun b => { b with kept := [⟨fromSix 2 0 3, none, 0, 1, [6], [], true⟩] })

theorem test_fabric_timer_premises :
    (∀ n ∈ [2, 3], (∃ x, (sentOne n false).staon.sent.filter (fun x => x.msg.msgid == 9 && x.firstAt.isSome && !x.busy && !stillQueued (sentOne n false) x) = [x] ∧ x.copyOf = none ∧ (x.tries < 3 ↔ n = 2) ∧
      tooLate (sentOne n false) x = false)) ∧
    (∃ x, (sentOne 0 true).staon.sent.filter (fun x => x.msg.msgid == 9 && x.busy) = [x]) ∧
    (∃ k, retained.staon.kept.find? (fun k => k.msg.msgid == 9 && k.skew) = some k ∧ retained.staon.kept.find? (fun k => k.msg.msgid == 9) = some k ∧ k.owed ≠ []) := by
  refine ⟨fun n hn => ⟨⟨{ fromSix 1 6 3 with src := 5 }, none, n, some 0, false, none⟩, ?_⟩, ⟨_, rfl⟩, some_with (by decide +kernel)⟩
  simp only [List.mem_cons, List.not_mem_nil, or_false] at hn
  obtain rfl | rfl := hn <;> decide +kernel

/-- The module is leaving. -/
def leavingNow : State := linked.modStaon (fun b => { b with leaving := true })

/-- A MGT_READ in the transmit words, with its route over port 0. -/
def mailbox : State := ((linked.setReg (Csr.stnMbxTx 0) 0x10#64).setReg (Csr.stnMbxTx 3) 8#64)

theorem test_leaving_premises :
    (bit (linked.reg Csr.stnCfg) 0 = false ∧ linked.staon.leaving = false ∧ linked.staon.left = false) ∧ ((sport linked 11).state = 4 ∧ (sport linked 11).peerLeaving = false) ∧
    (leavingNow.staon.leaving = true ∧ leavingNow.hearth.removal ≠ .leaving) ∧ (stnBusy linked = false ∧ stnBusy retained = true ∧ bf 0x7FFF#64 15 0 ≠ ownAddr retained) ∧
    (bit (1#64 <<< 63) 63 = true ∧ bit (1#64 <<< 63) 1 = false ∧ mbxBusy mailbox = false ∧ (mbxMessage mailbox).type ∈ [0x10, 0x11] ∧ (mbxMessage mailbox).route.head? = some 0 ∧
      portUsable mailbox 0 = true) := by decide +kernel

end Sys2Proof.Tests
end

