-- ==== Sys2Proof/Tests/Hosting.lean ====
section
/-! SUPPORT. The premises of the statements about the host port and its transport hold somewhere, clause by clause. -/

namespace Sys2Proof.Tests

set_option Elab.async false

open Sys2Proof Sys2Proof.Machine Sys2Proof.Claims

/-- A sender of frames. -/
def sender : Sender := { mac := 2 ^ 48 - 1, vlan := some 4094, dscp := 63, v6 := false, ip := 2 ^ 32 - 1, udp := 65535 }

/-- A command for queue 63 by UDP on port 1 with priority 7, with a SEQ and a payload. -/
def command (seq : Nat) (payload : List Byte) : CctMsg :=
  { src := .udp 1 7 sender, ver := 1, queue := 63, ackreq := false, seq := seq, qkey := 0, len := payload.length, rsvd := false, frameLen := payload.length, payload := payload }

/-- Queue 63 is enabled with its permissions and expects the last SEQ; `batching` says whether it batches. -/
def serving (batching : Bool) : State :=
  ((booted.setReg (Csr.hqCfg 63) (BitVec.ofNat 64 (7 * 2 ^ 61 + 1))).setReg (Csr.hqState 63) (BitVec.ofNat 64 (0xFFFFFFFF * 2 ^ 32))).setReg (Csr.batCtl 63)
    (if batching then BitVec.ofNat 64 (64 * 2 ^ 32 + 1 * 2 ^ 16 + 8 * 2 ^ 8 + 128) else 0)

theorem byUdp_of {s : State} {m : CctMsg} (h : m.queue < 64 ∧ m.src = .udp 1 7 sender ∧ s.host.enabled = true ∧ Vec.get s.host.up 1 false = true ∧ bit (s.reg Csr.errInj) 63 = false) : ByUdp s m 1 7 :=
  ⟨h.1, ⟨_, h.2.1⟩, ⟨h.2.2.1, h.2.2.2.1⟩, .inl h.2.2.2.2⟩

theorem accepted_of {o : CctOp} {m : CctMsg} {s : State} (h : cctDropped s m = false ∧ m.ver = 1 ∧ (m.rsvd = false ∧ o.fits m = true) ∧
    (if o.sequenced then m.seq = seqExp s m.queue ∧ m.seq ≠ 0 else m.seq = 0) ∧ o.permitted s m.queue = 0 ∧ (s.stop = none ∧ s.hearth.removal = .none)) : Accepted o m s :=
  ⟨h.1, h.2.1, h.2.2.1, h.2.2.2.1, h.2.2.2.2.1, h.2.2.2.2.2⟩

/-- TransportCommandsAreChecked: a command with another key, one of another version, one ahead of its order, and a duplicate. -/
theorem test_transport_premises :
    (ByUdp (serving false) (command 1 []) 1 7 ∧ (serving false).host.paused = []) ∧ cctDropped (serving false) { command 1 [] with qkey := 1 } = true ∧
    (cctDropped (serving false) (command 1 []) = false ∧ ({ command 1 [] with ver := 2 }).ver ≠ 1) ∧
    (let m := command 1 (List.replicate 16 0); (cctOpOf 1).fits m = true ∧ (cctOpOf 1).sequenced = true ∧ cctDropped (serving false) m = false ∧ seqStatus (seqExp (serving false) 63) m.seq = 2) ∧
    (let m := command 0xFFFFFFFE (List.replicate 16 0); seqStatus (seqExp (serving false) 63) m.seq = 1 ∧ (cctOpOf 1).answers = false) :=
  ⟨⟨byUdp_of (by decide +kernel), by decide +kernel⟩, by decide +kernel, by decide +kernel, by decide +kernel, by decide +kernel⟩

/-- The payload of a BATCH_MEMBER. -/
def memberBytes (first rows : Nat) : List Byte := leBytes 4 first ++ leBytes 4 rows ++ leBytes 8 0

theorem test_work_premises :
    (∀ m ∈ [command 0xFFFFFFFF (List.replicate 16 0), { command 0xFFFFFFFF (leBytes 16 (2 ^ 48 - 32)) with ackreq := true }],
      ByUdp (serving false) m 1 7 ∧ Accepted opDoorbell m (serving false)) ∧
    (∀ p ∈ [(0, 0), (60, 5), (57, 7)], ByUdp (serving true) (command 0xFFFFFFFF (memberBytes p.1 p.2)) 1 7 ∧ Accepted opBatchMember (command 0xFFFFFFFF (memberBytes p.1 p.2)) (serving true)) ∧
    ((serving true).fld (Csr.batCtl 63) 63 32 = 64 ∧ ((serving true).hq 63).batch = none ∧ 7 < bf ((serving true).reg (Csr.batCtl 63)) 15 8 ∧ bf ((serving true).reg (Csr.batCtl 63)) 6 0 ≠ 1 ∧
      bf ((serving true).reg (Csr.batCtl 63)) 31 16 ≠ 0) ∧
    (let m := command 0 (leBytes 8 (0x80 * 2 ^ 32) ++ List.replicate 128 1#8)
     ByUdp (serving false) m 1 7 ∧ Accepted opQuickCall m (serving false) ∧ payBits m 45 32 ≤ 8192 ∧ ((serving false).hq m.queue).waiting.length < 256) ∧
    (serving false).fld (Csr.hqCfg 63) 31 0 ≠ 0 := by
  refine ⟨fun m hm => ?_, fun p hp => ?_, by decide +kernel, ⟨byUdp_of (by decide +kernel), accepted_of (by decide +kernel), by decide +kernel⟩, by decide +kernel⟩
  · simp only [List.mem_cons, List.not_mem_nil, or_false] at hm
    obtain rfl | rfl := hm <;> exact ⟨byUdp_of (by decide +kernel), accepted_of (by decide +kernel)⟩
  · simp only [List.mem_cons, List.not_mem_nil, or_false] at hp
    obtain rfl | rfl | rfl := hp <;> exact ⟨byUdp_of (by decide +kernel), accepted_of (by decide +kernel)⟩

/-- A batch of queue 63 is open. -/
def batchOpen : State := (serving true).modHq 63 (fun h => { h with batch := some ⟨0, 1, [⟨0, 1, 0⟩]⟩ })

theorem test_batch_timer_premises : ((batchOpen.hq 63).batch).isSome = true := by decide +kernel

/-- Tray 31 has a paused task of queue 63. -/
def paused : State := (serving false).setTray 31 { Tray.reset 31 with state := .paused, queue := 63 }

theorem test_control_premises :
    (let m := command 0xFFFFFFFF (leBytes 8 31)
     ByUdp paused m 1 7 ∧ Accepted opResume m paused ∧ Accepted opAbort m paused ∧ payBits m 7 0 = 31 ∧ pausedFor paused 31 63 = true ∧ (paused.tray 31).insts = []) ∧
    Accepted opQueueRestart (command 0xFFFFFFFF []) (serving false) ∧
    (let m := command 0xFFFFFFFF (leBytes 8 5); let s := (serving false).setReg (Csr.hqIndex 63) 5#64
     Accepted opRingAck m s ∧ (payBits m 31 0 + 2 ^ 32 - s.fld (Csr.hqIndex 63) 63 32) % 2 ^ 32 ≤ (s.fld (Csr.hqIndex 63) 31 0 + 2 ^ 32 - s.fld (Csr.hqIndex 63) 63 32) % 2 ^ 32) ∧
    (let m := command 0xFFFFFFFF (leBytes 8 (2 ^ 32 - 8)); Accepted opCsrRead m (serving false) ∧ csrInside m = true ∧ payBits m 34 32 = 0) ∧
    (let m := command 0xFFFFFFFF (leBytes 8 0x200000 ++ leBytes 8 7); Accepted opCsrWrite m (serving false) ∧ csrInside m = true ∧ m.ackreq = false) ∧
    (Accepted opCaps (command 0 []) (serving false) ∧ (serving false).host.paused = []) :=
  ⟨⟨byUdp_of (by decide +kernel), accepted_of (by decide +kernel), accepted_of (by decide +kernel), by decide +kernel, by decide +kernel, by decide +kernel⟩, accepted_of (by decide +kernel),
   ⟨accepted_of (by decide +kernel), by decide +kernel⟩, ⟨accepted_of (by decide +kernel), by decide +kernel, by decide +kernel⟩,
   ⟨accepted_of (by decide +kernel), by decide +kernel, by decide +kernel⟩, ⟨accepted_of (by decide +kernel), by decide +kernel⟩⟩

/-- QueueRestartRestartsDispatch: a queue that a fault stopped, and one that is not stopped. -/
theorem test_queue_restart_premises : ∀ b ∈ [0, 1], let s := (serving false).setFld (Csr.hqState 63) 23 23 b
    ByUdp s (command 0xFFFFFFFF []) 1 7 ∧ Accepted opQueueRestart (command 0xFFFFFFFF []) s ∧ s.host.paused = [] ∧ s.fld (Csr.hqState 63) 23 23 = b := by
  intro b hb
  simp only [List.mem_cons, List.not_mem_nil, or_false] at hb
  obtain rfl | rfl := hb <;> exact ⟨byUdp_of (by decide +kernel), accepted_of (by decide +kernel), by decide +kernel, by decide +kernel⟩

/-- Queue pair 1023 takes requests, its R_Key 9, with outstanding requests. -/
def pairOn (reqs : List HostReq) : State :=
  let s := (booted.setReg (Csr.qpCfg 1023) (BitVec.ofNat 64 (2 ^ 62))).setReg (Csr.qpKey 1023) (BitVec.ofNat 64 (9 * 2 ^ 32))
  { s with host := { s.host with qps := [(1023, ⟨reqs, none, none⟩)] } }

/-- A request of eight bytes there. -/
def wants (rkey va : Nat) : RoceReq := { qp := 1023, rkey := rkey, va := va, len := 8, data := leBytes 8 77, ce := false, prio := 0 }

theorem test_host_request_premises : (∀ k ∈ [8, 9], RequestArrives (pairOn []) (wants k 0x100) ∧ (keyOk (pairOn []) (wants k 0x100) = true ↔ k = 9)) ∧
    okWith (writeThrough (finishRepart (counting (pairOn []) 1023 8)) 4 (qpSpace (pairOn []) 1023) 0x100 (leBytes 8 77)) (fun _ _ => true) = true ∧
    okWith (readV (finishRepart (counting (pairOn []) 1023 0)) 4 (qpSpace (pairOn []) 1023) 0x100 8) (fun _ _ => true) = true ∧
    (∃ s1 e, readV (finishRepart (counting (pairOn []) 1023 0)) 4 (qpSpace (pairOn []) 1023) 0x20000 8 = (s1, .error e)) := by
  refine ⟨fun k hk => ?_, by decide +kernel, by decide +kernel, err_result (by decide +kernel)⟩
  simp only [List.mem_cons, List.not_mem_nil, or_false] at hk
  obtain rfl | rfl := hk <;> exact ⟨⟨by decide +kernel, by decide +kernel, .inl (by decide +kernel), by decide +kernel⟩, by decide +kernel⟩

theorem test_queue_pair_premises :
    (let s := pairOn [⟨0, 1, false, 64, 8, 0⟩]; qpTakes s 1023 = true ∧ ((qpOf s 1023).reqs.find? (fun y => !y.write)).any (fun x => x.len == (leBytes 8 77).length) = true) ∧
    (∀ n ∈ [6, 7], let s := pairOn [⟨0, 1, true, 64, 8, n⟩]; qpState s 1023 = 1 ∧ (qpOf s 1023).reqs = [⟨0, 1, true, 64, 8, n⟩]) ∧
    (∀ now ∈ [59999, 60000], let s := modQp { pairOn [] with now := now } 1023 (fun x => { x with lastCut := some 0 })
      qpTakes s 1023 = true ∧ (qpOf s 1023).lastCut = some 0 ∧ (s.now < 0 + 60000 ↔ now = 59999)) := by decide +kernel

/-- A frame whose FCS is right, or not, and whose length is none. -/
def shortFrame (fcs : Bool) : Frame :=
  { length := 63, fcsOk := fcs, vlanTags := 0, etherType := 0x0800, l3ok := true, dst := 0, udpPort := 4791, udpSumOk := true, pauseFrame := false, prio := 0 }

theorem test_host_link_premises : booted.host.enabled = true ∧ (∀ p < 2, Vec.get booted.host.up p false = true) ∧ bit ((booted.setReg Csr.hpCtl 0x8000#64).reg Csr.hpCtl) (8 + 7) = true ∧
    linkAllowed (booted.setReg Csr.hpCtl 2#64) 1 = true ∧ (∀ b ∈ [true, false], frameOk booted 1 (shortFrame b) = false) := by decide +kernel

end Sys2Proof.Tests
end

