-- ==== Sys2Proof/Tests/Memories.lean ====
section
/-! SUPPORT. The premises of the statements about arbiters, controllers, the Larder, translation caches and register writes hold somewhere, clause by clause. -/

namespace Sys2Proof.Tests

set_option Elab.async false

open Sys2Proof Sys2Proof.Machine Sys2Proof.Claims

/-- A read of one beat by a requester. -/
def request (r : Nat) : ArbReq := { requester := r, beats := 1, owner := 0, tray := none, line := 0, write := false, fill := false, cls := 0 }

/-- Two heads at the last instance of a site, the younger of which has waited for some cycles; the check line of both is cached. -/
def rivals (site inst wait : Nat) : State :=
  { booted with arbs := [{ Arbiter.fresh (arbKey site inst) with cyc := 9, queue := [request 0, request 1], heads := [(0, 1, 3), (1, 5, wait)], checks := [(0, false)] }] }

/-- HighestRankedHeadIsGranted: a forced head before an older one, and the older of two. -/
theorem test_arbiter_premises : ∀ p ∈ [(1023, (1, 5, 1023)), (0, (0, 1, 3))], let s := (rivals 0 2047 p.1).setReg (Csr.arbCtl 0) 1023#64
    2047 < arbInstances 0 ∧ (arbOf s 0 2047).holder = none ∧ p.2 ∈ (arbOf s 0 2047).heads ∧ ((arbOf s 0 2047).head p.2.1).any (fun x => decide (x.beats ≤ 1)) = true ∧
    (arbOf s 0 2047).backlog = [] ∧
    (∀ g ∈ (arbOf s 0 2047).heads, g = p.2 ∨ headRank (arbOf s 0 2047).cyc (waitLimit s 0) p.2 < headRank (arbOf s 0 2047).cyc (waitLimit s 0) g) := by decide +kernel

theorem test_forced_head_premises : let s := (rivals 5 7 0).setReg (Csr.arbCtl 5) 10#64
    7 < arbInstances 5 ∧ (arbOf s 5 7).holder = none ∧ ∃ h ∈ (arbOf s 5 7).heads, h.1 = 1 ∧ h.2.2 < waitLimit s 5 := by decide +kernel

theorem test_uncorrectable_premises : ∃ x, (arbCycle (rivals 3 11 0) 3 11).2 = some x ∧ x.write = false := some_with (by decide +kernel)

theorem test_controller_premises : booted.trained = true ∧ (booted.setReg (Csr.lpcScrub 11) 1#64).fld (Csr.lpcScrub 11) 7 0 ≠ 0 ∧ (∀ p ∈ booted.scrubbing, p.1 ≠ 11) ∧
    (let v := 0x80021004#64 - 0x600#64; bf v 4 0 + bf v 12 8 + bf v 20 16 = 16 ∧ bit v 31 = true) ∧ (let v := 0x21005#64 - 0x600#64; bf v 4 0 + bf v 12 8 + bf v 20 16 = 17) := by decide +kernel

/-- A repartition to two ways waits, with four ways, or none, in use. -/
def repartitioning (ways : Nat) : State := { booted with larder := { booted.larder with ways := ways, repart := some 2 } }

theorem test_larder_premises :
    (booted.larder.repart = none ∧ bf 4#64 2 0 ≠ booted.fld Csr.larCfg 2 0 ∧ larBusy booted = false) ∧
    ((issued .mm).larder.repart = none ∧ bf 4#64 2 0 ≠ (issued .mm).fld Csr.larCfg 2 0 ∧ larBusy (issued .mm) = true) ∧
    ((repartitioning 4).larder.repart = some 2 ∧ 2 ≤ (repartitioning 4).larder.ways) ∧ ((repartitioning 0).larder.repart = some 2) := by decide +kernel

/-- An invalidation of a page of space 0 runs. -/
def invalidating : State := { booted with mmu := { booted.mmu with inv := some (0, 0, 0) } }

/-- It runs still, while the fill of a block of A is in flight. -/
def invalidatingLate : State := after (issued .mm) [.transferDescIssue 0 0, .mmuInvGo (1#64 <<< 63)]

theorem test_invalidation_premises :
    bit (1#64 <<< 63) 63 = true ∧ booted.mmu.inv = none ∧ bf (1#64 <<< 63) 57 56 ≠ 3 ∧ invalidating.mmu.inv ≠ none ∧ invalidating.mmu.invWaits = [] ∧
    invalidatingLate.mmu.inv = some (0, 0, 0) ∧ (∃ id ∈ invalidatingLate.mmu.invWaits, requestOf invalidatingLate id ≠ none) ∧
    (∃ p ∈ (invalidating.core 3).tcache.entries, inScope (0, 0, 0) p.2 = true) ∧ (∃ p ∈ (invalidating.core 3).tcache.entries, inScope (1, 63, 0) p.2 = false) := by decide +kernel

/-- A field of an access code at an offset whose register takes plain writes. -/
def hasField (off : Nat) (acc : Acc) : Bool := (RegMap.find off).any (fun p => !ownEffect p.1.base && p.1.fields.any (fun f => f.acc == acc))

theorem test_access_premises : (RegMap.find 0x7FFF8).isNone = true ∧ hasField 262168 .rw = true ∧ hasField 262144 .rws = true ∧ hasField 0 .ro = true ∧ hasField 589824 .w1c = true ∧
    hasField (Csr.mmuAsCfg 0) .rwl = true ∧ (RegMap.find (Csr.mmuAsCfg 0)).any (fun p => !busyNow booted p.1.busy p.2.1 && busyNow (issued .mm) p.1.busy p.2.1) = true := by decide +kernel

/-- Trays 0 and 1 take part in barrier 15, where tray 0 waits. -/
def atBarrier : State := after (at0 (word 7 2 [(64, 15), (96, 3)]) []) [.syncBar 0]

theorem test_barrier_break_premises : bit (1#64 <<< 47) (32 + 15) = true ∧ (atBarrier.barrier 15).mask.isSome = true ∧
    (atBarrier.barrier 15).waiters.any (fun w => decide (w.1 < 32) && (atBarrier.tray w.1).live && (atBarrier.inst w.1 w.2).isSome) = true := by decide +kernel

theorem test_write_once_premises : bit 1#64 0 = true ∧ (∀ i ∈ coreInsts (issued .mm) 0, i.mn ≠ .upd) ∧ (coreInsts (issued .mm) 0).length = 1 ∧ bit (1#64 <<< 63) 63 = true := by decide +kernel

theorem test_mode_profile_domain_premises :
    (hpBusy booted = false ∧ bf 2#64 1 0 ≠ booted.fld Csr.hpCtl 1 0) ∧
    (let s' := after booted [.pwrProfileWrite 3#64]
     coreDom 3 6 ∈ gatedDoms s' ∧ domState booted (coreDom 3 6) = .on ∧ domIdle booted (coreDom 3 6) = true ∧ heldByHost booted (coreDom 3 6) = false) ∧
    (anyTask (issued .mm) = true ∧ accessInFlight (booted.setStaon { booted.staon with early := [(0, StnMsg.blank 3)] }) = true ∧ domOnBusy booted = false ∧ fusedDomain booted.arrayMask 124 = false) := by decide +kernel

end Sys2Proof.Tests
end

