-- ==== Sys2Proof/Tests/Moving.lean ====
section
/-! SUPPORT. The premises of the statements about the tiler's counts, the Proofer, translation, spills and the Larder hold somewhere, clause by clause. -/

namespace Sys2Proof.Tests

set_option Elab.async false

open Sys2Proof Sys2Proof.Machine Sys2Proof.Claims

/-- A product whose A holds crumbs in the Bench. -/
def crumbA : State :=
  after (at0 (sample .mm).1 [matrix 2 0 4 4 16 0x4000 false, matrix 0 1 4 8 0 0 true, matrix 0 0 4 8 8 0x6000 false]) [.mxmMm 0]

theorem test_header_count_premises : Runs crumbA 0 ∧ (∃ i, crumbA.inst 0 0 = some i ∧ i.seq = 0 ∧ i.released = true ∧ i.planned = true ∧ i.mn.isProduct = true ∧
    (i.desc .srca).comp = 1 ∧ i.reported .srca 0 0 = none ∧
    (i.steps.find? (fun p => (stepBlock i (gridNow crumbA 0 i) (maskSel crumbA 0 i) .srca p).bi == 0 && (stepBlock i (gridNow crumbA 0 i) (maskSel crumbA 0 i) .srca p).bj == 0)).any
      (fun p => okWith (sumHeaders crumbA 0 (spaceOf crumbA 0) (i.desc .srca) (blockCrumbs i (gridNow crumbA 0 i) (maskSel crumbA 0 i) .srca p)) (fun _ _ => true)) = true) ∧
    (crumbA.core 0).proofer.streams.find? (fun x => x.tray == 0 && x.seq == 0 && x.role == .srca) = none :=
  ⟨runs_of (by decide +kernel), some_with (by decide +kernel), by decide +kernel⟩

/-- A product with K = 0 in add mode, and one whose tile has no column left. -/
def noPass : State := after (at0 (word 2 0 [(24, 1), (72, 1), (80, 2), (96, 4), (152, 4)]) (sample .mm).2) [.mxmMm 0]
@[inherit_doc noPass] def noColumn : State := noPass.modInst 0 0 (fun i => { i with tiles := i.tiles.map (fun o => { o with cols := 0 }) })

theorem test_zero_pass_premises : ∀ s ∈ [noPass, noColumn], (s.stop = none ∧ (s.tray 0).live = true ∧ (s.tray 0).state ≠ .paused) ∧
    (((s.tray 0).insts.find? (fun i => i.mn.isProduct && i.released && i.planned && i.tiles.any OTile.passless)).any
      (fun i => decide (s.inst 0 i.seq = some i) && W.acc i.word)) = true := by decide +kernel

/-- The group of output tiles of an MXM.MM waits for entries; of its tiles there are as many as the tray may open, or one more. -/
def groupOf (n : Nat) : State :=
  ((issued .mm).modInst 0 0 (fun i => { i with tiles := List.replicate n { OTile.empty with done := false } })).modPeel 0 (fun p => { p with groupWait := [(0, 0, 0)] })

theorem test_group_premises : ∀ n ∈ [1, 32, 33], ((groupOf n).core 0).peel.groupWait = [(0, 0, 0)] ∧
    ((groupOf n).inst 0 0).any (fun i => groupFits (groupOf n) 0 (i.groupSize 0) == decide (n ≤ 32)) = true := by decide +kernel

/-- A tray at its task's start, and one whose read-ahead is as far ahead as it may be. -/
def reading : State := booted.setTray 0 { Tray.reset 0 with state := .run }
@[inherit_doc reading] def readingFar : State :=
  doneNop.modTray 0 (fun r => { r with nextSeq := 16, raSeq := 16, ahead := [] })

theorem test_read_ahead_premises : ∀ s ∈ [reading, readingFar], s.stop = none ∧ (s.tray 0).state = .run ∧ (s.tray 0).starting = false ∧ (s.tray 0).alignFault = false ∧
    (s.tray 0).ending = false ∧ (∀ i ∈ (s.tray 0).insts, i.released = true) ∧ (s.tray 0).ahead = [] ∧ (s.tray 0).raSeq = (s.tray 0).nextSeq ∧
    ((s.tray 0).insts = [] ∨ (s.tray 0).insts.head?.any (fun i => decide ((s.tray 0).raSeq ≤ i.seq + (s.tray 0).snap.lookahead)) = true) ∧
    okWith (trayFetch s 0 (s.tray 0).raPc ((s.tray 0).stream + 32 * (s.tray 0).raPc) 32) (fun _ _ => true) = true ∧ (readNext s 0).2 = true := by decide +kernel

theorem test_issue_desc_premises : ((issued .mm).channel 0 0).active.toList.findIdx? Option.isNone = some 0 ∧ (chooseRequest (issued .mm) 0 ((issued .mm).channel 0 0)).isSome = true := by
  decide +kernel

/-- The fill of A's first block, and the transfer of an XFER.PREF, have their descriptors. -/
def inTransfer (mn : Mn) : State := after (issued mn) [.transferDescIssue 0 0]

theorem test_fill_premises : Sound (inTransfer .mm) 8 0 ∧ (∃ r, Vec.get ((inTransfer .mm).channel 0 0).active 0 none = some r ∧ r.tray = 0 ∧ ((inTransfer .mm).tray 0).live = true ∧
    hostWaits (inTransfer .mm) 0 r.id = false ∧ (inTransfer .mm).mmu.walks = [] ∧ r.moved = false ∧ r.work = .fill .srca 0 0 ∧
    (streamOf (serveOwned (inTransfer .mm) 0 0 (r.id + 1)) 0 r .srca).any (fun p => p.2.spilled.isEmpty && (p.2.slots[0]?).any (fun x => x.state == .filling 1) &&
      okWith (moveFill (serveOwned (inTransfer .mm) 0 0 (r.id + 1)) 0 r 0 0 0 p.1 p.2) (fun _ _ => true)) = true) :=
  ⟨sound_of (by decide +kernel), some_with (by decide +kernel)⟩

theorem test_pref_premises : Sound (inTransfer .pref) 8 0 ∧ (∃ r, Vec.get ((inTransfer .pref).channel 0 0).active 0 none = some r ∧ r.tray = 0 ∧ ((inTransfer .pref).tray 0).live = true ∧
    hostWaits (inTransfer .pref) 0 r.id = false ∧ (inTransfer .pref).mmu.walks = [] ∧ r.moved = false ∧ r.work = .pref 0 ∧ ((inTransfer .pref).inst 0 r.seq).any (fun i => decide (0 < i.xds.length)) = true ∧
    okWith (translateAll (serveOwned (inTransfer .pref) 0 0 (r.id + 1)) 0 (spaceOf (serveOwned (inTransfer .pref) 0 0 (r.id + 1)) 0) false
      ((virtPieces (spansOf (serveOwned (inTransfer .pref) 0 0 (r.id + 1)) 0 r)).map (fun p => (p.1, p.2.1)))) (fun _ _ => true) = true) :=
  ⟨sound_of (by decide +kernel), some_with (by decide +kernel)⟩

/-- A's first slot has its last byte. -/
def slotWritten : State := after (inTransfer .mm) [.transferDescDone 0 0 0]

theorem test_slot_filled_premises : ∃ st, (slotWritten.core 0).proofer.streams[0]? = some st ∧ (st.slots[0]?).any (fun x => x.state == .written) = true := some_with (by decide +kernel)

/-- The first transfer of a product after the core's translations were lost: a walk is in flight, and ends in a translation of the page through a table of the third level, or in a miss. -/
def walking (leaf : Bool) : State :=
  let s := (issued .mm).modCore 0 (fun k => { k with tcache := .reset })
  after ({ s.setReg (Csr.mmuAsCfg 0) (BitVec.ofNat 64 (2 ^ 63 + 0x8000)) with
    mem := s.mem ++ bytesAt 0x8000 (leBytes 8 0x9001) ++ bytesAt 0x9000 (leBytes 8 0xA001) ++ bytesAt 0xA000 (leBytes 8 0xB001) ++ bytesAt 0xB000 (leBytes 8 (if leaf then 0x1B else 0)) }) [.transferDescIssue 0 0]

theorem test_walk_premises : ∃ x, (walking true).mmu.walks.find? (fun y => y.id == 0) = some x ∧ walkRuns (walking true) x = true ∧ (∀ y ∈ (walking true).mmu.walks, y.write = false) ∧
    tFind (tBits x.walker) (tCacheOf (walking true) x.walker) x.space x.va = none ∧ (walkAndFill (walking true) x.walker x.space x.va false).2 = .ok 0x5000 ∧
    (walking false).mmu.walks.find? (fun y => y.id == 0) = some x ∧ walkRuns (walking false) x = true ∧
    (walkAndFill (walking false) x.walker x.space x.va false).2 = .bad 0x0301 := some_with (by decide +kernel)

/-- Sixteen walks of core 0 are under way for other pages, and the seventeenth waits for its walker. -/
def walksFull : State := { walking true with mmu := { (walking true).mmu with walks := (List.range 17).map (fun i => ⟨i, 0, 0, 65536 * i, false, 0⟩) } }

theorem test_walk_waits_premises : ∃ x, walksFull.mmu.walks.find? (fun y => y.id == 16) = some x ∧ walkRuns walksFull x = false := some_with (by decide +kernel)

/-- A block with the step that it serves. -/
def fillFor (k : Nat) : Fill := ⟨⟨0, k, [0], 0, 256, 768⟩, [⟨0, k⟩]⟩

/-- A's only slot holds the block of step 1 and B's that of step 0, and each waits for the other's. -/
def blocked : State :=
  let st := fun (role : Role) (has lacks started : Nat) =>
    { tray := 0, seq := 0, role := role, base := 0, slotBytes := 1024, fill := [fillFor lacks], next := none, slots := [⟨.full, some (fillFor has)⟩], started := started, issued := true,
      held := false, spilled := [], event := 0 : Stream }
  (twoPasses.modProofer 0 (fun p => { p with streams := [st .srca 1 2 0, st .srcb 2 1 1] }))

theorem test_deadlock_premises : youngestOf blocked 0 (blockChain blocked 0) = some 1 ∧ ((blocked.core 0).proofer.streams[1]?).any (fun y => y.slots.any (withdrawn blocked 0 y)) = true := by decide +kernel

/-- A slot of 64 bytes is being copied out to 0x8000. -/
def copying : State :=
  let r : ChReq := { id := 9, tray := 0, seq := 0, work := .spill .srca 0 0 0x8000, urgent := false, since := 3, issued := false, walks := 0 }
  ((issued .mm).modProofer 0 (fun p => { p with
    streams := p.streams.map (fun x => { x with slotBytes := 64, slots := [⟨.leaving, some (fillFor 0)⟩] }) })).modChannel 0 1 (fun h => { h with waiting := [r] })

theorem test_spill_copy_premises :
    let all := ((copying.channel 0 1).active.toList.filterMap (fun o => o) ++ (copying.channel 0 1).waiting).filter (fun y => isSpill y.work)
    ∃ r, argMin (fun y => y.id) all = some r ∧ r.work = .spill .srca 0 0 0x8000 ∧ all.filter (fun y => y.tray == r.tray && y.seq == r.seq && copies .srca 0 y.work) = [r] ∧
      r.moved = false ∧ hostWaits copying 0 r.id = false ∧
      (streamOf copying 0 r .srca).any (fun p => decide (p.2.slots[0]? = some ⟨.leaving, some (fillFor 0)⟩) && decide (copyPart p.2 0 = (0, 64))) = true ∧
      physCheck copying 0x8000 64 true = none := some_with (by decide +kernel)

/-- A spill request waits at an area of core 0 that has no room, and a tile of an MXM.MM waits for Couche space. -/
def spillAt (area : Nat) : State :=
  (issued .mm).modProofer 0 (fun p => { p with spillWait := [{ tray := 0, seq := 0, role := .srca, slot := 0, tile := 0, couche := false, bytes := 1024, area := area }] })
@[inherit_doc spillAt] def coucheShort : State := (issued .mm).modPeel 0 (fun p => { p with coucheWait := [(0, 0, 0)] })

theorem test_spill_premises :
    (∀ a < 2, (((serveSpills (spillAt a) 0).core 0).proofer.spillWait.find? (fun w => decide (w.area < 2))).any (fun w => w.area == a) = true) ∧
    (((serveSpills (spillAt 2) 0).core 0).proofer.spillWait.find? (fun w => w.area == 2)).any (fun w => decide (w.tray < 32) && decide (((spillAt 2).tray w.tray).queue < 64) &&
      ((spillAt 2).tray w.tray).live && ((serveSpills (spillAt 2) 0).inst w.tray w.seq).isSome) = true ∧
    ((coucheShort.core 0).peel.coucheWait = [(0, 0, 0)] ∧ (coucheShort.inst 0 0).any (fun i => i.mn != .fred && (i.tile 0).couche.isNone) = true ∧
      (coucheShort.core 0).proofer.spillWait = []) := by decide +kernel

end Sys2Proof.Tests
end

