-- ==== Sys2Proof/Tests/Powers.lean ====
section
/-! SUPPORT. The premises of the statements about power, the Hearth and the step hold somewhere, clause by clause. -/

namespace Sys2Proof.Tests

set_option Elab.async false

open Sys2Proof Sys2Proof.Machine Sys2Proof.Claims

/-- The Hearth of a booted module, changed by `f`. -/
def hearthOf (f : Hearth → Hearth) : State := booted.modHearth f
/-- The power of a booted module, changed by `f`. -/
def powerOf (f : Power → Power) : State := booted.modPower f

theorem test_domain_premises :
    (booted.hearth.running = true ∧ isAuto 71 = false ∧ isAuto 61 = true ∧ domState booted 61 = .on ∧ domIdle booted 61 = true ∧ heldByHost booted 61 = false) ∧
    (∀ p ∈ [(0, 0, 6), (0, 18, 6), (5, 0, 1)],
      let s := powerOf (fun q => { q with wakes := [(p.1, p.2.1)], bucket := p.2.2 })
      s.hearth.running = true ∧ s.power.wakes = (p.1, p.2.1) :: [] ∧ p.2.1 ≤ domTokens p.1 ∧ (p.2.1 + p.2.2 < domTokens p.1 ↔ p ≠ (0, 18, 6))) ∧
    (let s := powerOf (fun q => { q with ramped := [124] }); s.hearth.running = true ∧ s.power.ramped.contains 124 = true) ∧
    (∀ again ∈ [[], [124]], let s := powerOf (fun q => { q with doms := Vec.put q.doms 124 .switchingOff, again := again })
      s.hearth.running = true ∧ domState s 124 = .switchingOff ∧ (s.power.again.contains 124 = true ↔ again = [124])) := by decide +kernel

theorem test_governor_premises :
    (∀ p ∈ [(true, 100), (false, 0), (false, 50)], let s := powerOf (fun q => { q with crit := p.1, theta := p.2 })
      s.hearth.running = true ∧ s.power.crit = p.1 ∧ s.power.theta = p.2) ∧
    (List.replicate 34 (105 : Int)).length = 34 ∧
    ((200 : Nat) < 20 * (if (booted.power.est : Nat) ≤ 200 then 200 - booted.power.est else booted.power.est - 200)) ∧
    (20 * (if booted.power.est ≤ 0 then 0 - booted.power.est else booted.power.est - 0) ≤ 0) := by decide +kernel

/-- A window without events has no load of the engines, and one with events has some wherever their energy is not zero. -/
theorem test_load_premises (h : 0 < Config.energyCoeff 0) : dynamicLoad [] 0 5 = 0 ∧ 0 < dynamicLoad [1000] 0 5 := by
  constructor
  · simp [dynamicLoad, List.range, List.range.loop]
  · simp [dynamicLoad, List.range, List.range.loop, h]

theorem test_reset_premises :
    (let s := powerOf (fun q => { q with locked := false }); s.hearth.running = true ∧ domState s 123 = .on ∧ s.power.locked = false ∧ s.hearth.stage ≠ 3) ∧
    (booted.hearth.running = true ∧ booted.power.locked = true) ∧
    (let s := powerOf (fun q => { q with tj := 110 }); s.hearth.running = true ∧ 110 ≤ s.power.tj ∧ s.hearth.thermalStop = false) ∧
    (∀ p ∈ [13, 9], let s := { hearthOf (fun h => { h with thermalStop := true, policy := p }) with power := { booted.power with tj := 60 } }
      s.hearth.running = true ∧ s.hearth.thermalStop = true ∧ s.hearth.cooled = false ∧ s.power.tj ≤ 60 ∧ (s.hearth.policy.testBit 2 = true ↔ p = 13)) ∧
    (let s := hearthOf (fun h => { h with running := false }); s.modhw.admitted = true ∧ s.modhw.ref100 = true ∧ s.hearth.running = false) := by decide +kernel

/-- What the outside gives a boot step that succeeds, and one that fails. -/
def goodStep : BootEnv := { stepOk := true, straps := 3, cellLow := false }
@[inherit_doc goodStep] def badStep : BootEnv := { goodStep with stepOk := false }

theorem test_boot_premises :
    (State.reset.hearth.running = true ∧ State.reset.hearth.stage = 0 ∧ goodStep.stepOk = true) ∧
    (∀ src ∈ [0, 1], let s := hearthOf (fun h => { h with stage := 1, src := src })
      s.hearth.stage = 1 ∧ s.hearth.sideband = false ∧ slotCode s s.hearth.src ≠ 0 ∧ s.hearth.src = src) ∧
    (let s := hearthOf (fun h => { h with stage := 3 }); s.hearth.stage = 3 ∧ s.power.locked = true ∧ allOn s (bootDoms s) = true) ∧
    (∀ st ∈ [4, 5], (hearthOf (fun h => { h with stage := st })).hearth.stage = st) ∧ badStep.stepOk = false := by decide +kernel

/-- Slot A holds the header of an image without a body, whose digest is right; its signatures are the implementation's to accept. -/
def imaged : State :=
  flashWrite (hearthOf (fun h => { h with stage := 1 })) 0
    (leBytes 8 0x4D55545241435543 ++ leBytes 2 1 ++ leBytes 2 0 ++ leBytes 4 0 ++ sha3_512 [] ++ List.replicate 198 0)

theorem test_passing_image_premise (h : ∀ k m g, Config.mldsaVerify k m g = true) :
    imaged.hearth.running = true ∧ imaged.hearth.stage = 1 ∧ imaged.hearth.sideband = false ∧ slotCode imaged imaged.hearth.src = 0 := by
  have e : flashNat imaged 0 8 = 0x4D55545241435543 ∧ flashNat imaged 8 2 = 1 ∧ flashNat imaged 12 4 = 0 ∧ imaged.hearth.calValid = false ∧ imaged.hearth.svnMin = 0 ∧
      flashNat imaged 10 2 = 0 ∧ leNat (flashBytes imaged 276 2) = 0 ∧ sha3_512 [] = flashBytes imaged 16 64 ∧ imaged.hearth.src = 0 := by decide +kernel
  refine ⟨by decide +kernel, by decide +kernel, by decide +kernel, ?_⟩
  obtain ⟨e1, e2, e3, e4, e5, e9, e6, e7, e8⟩ := e
  have e0 : flashBytes imaged 16384 0 = [] := rfl
  simp [slotCode, slotBase, h, e0, e1, e2, e3, e4, e5, e6, e8, e9, slotSize, ← e7]

theorem test_hearth_timer_premises :
    (let s := hearthOf (fun h => { h with stage := 2 }); s.hearth.running = true ∧ s.hearth.stage = 2) ∧
    (let s := hearthOf (fun h => { h with sideband := true, src := 2 }); s.hearth.sideband = true ∧ s.hearth.gotPut = false ∧ s.hearth.src = 2) ∧
    (hearthOf (fun h => { h with attesting := true })).hearth.attesting = true ∧
    (let s := hearthOf (fun h => { h with wrEnRetry := true }); s.hearth.wrEnRetry = true ∧ stnBusy s = false) := by decide +kernel

/-- A request with a payload and a counter. -/
def hmpRequest (ctr : Nat) (payload : List Byte) : HmpReq :=
  { ver := 1, flags := 0, status := 0, reqId := 7, rsvd := false, ctr := ctr, payload := payload, tag := [], peer := 9 }

/-- The key that the tests set. -/
def key : List Byte := List.replicate 32 0xA5
/-- A request with its tag under that key. -/
def signed (op ctr : Nat) (payload : List Byte) : HmpReq :=
  let r := { hmpRequest ctr payload with flags := 2 }
  { r with tag := hmac key (hmpBytes op r) }
/-- A booted module with that key set and counter 4 last accepted. -/
def keyed : State := hearthOf (fun h => { h with hmpKey := some key, hmpCtr := 4, atKey := [1] })

theorem tag_own (op : Nat) (payload : List Byte) :
    ((signed op 5 payload).flags.testBit 1 && (signed op 5 payload).tag == hmac key (hmpBytes op (signed op 5 payload))) = true := by
  simp only [Bool.and_eq_true]
  refine ⟨by simp only [signed, hmpRequest]; decide, ?_⟩
  simp only [signed, hmpBytes, beq_self_eq_true]

theorem authentic_of {s : State} (op : Nat) {payload : List Byte} (h : s.hearth.running = true ∧ s.hearth.hmpKey = some key ∧ s.hearth.hmpCtr = 4)
    (hl : payload.length ≤ 1424) : Authentic s op (signed op 5 payload) := by
  have hh : hmpHead (signed op 5 payload) = 0 := by simp [hmpHead, signed, hmpRequest, HmpStatus.ok]; omega
  have ht : tagOk s op (signed op 5 payload) = true := by unfold tagOk; rw [h.2.1]; exact tag_own op payload
  exact ⟨⟨h.1, by simp [signed, hmpRequest], hh⟩, ht, by simp [h.2.2, signed, hmpRequest]⟩

theorem test_open_request_premises :
    (Requests keyed (hmpRequest 0 []) ∧ (hmpRequest 0 []).payload = []) ∧
    (let r := hmpRequest 0 [3, 224, 1, 0, 0, 32, 0]; Requests keyed r ∧ r.payload.length = 7 ∧ (hmpObject keyed (arg r 0 1)).any (fun o => decide (arg r 1 4 + arg r 5 2 ≤ o.length)) = true ∧
      arg r 5 2 ≤ 1024 ∧ arg r 0 1 ≠ 2) ∧
    (let r := hmpRequest 0 (List.replicate 64 0xFF); Requests keyed r ∧ r.payload.length = 64 ∧ keyed.hearth.attesting = false ∧ keyed.hearth.atKey ≠ [] ∧
      (∀ i < 4, (Vec.get keyed.hearth.m i []).length = 64)) := by
  simp only [Requests]; decide +kernel

theorem test_authentic_premises :
    (∀ k ∈ [1, 2], Authentic keyed 0x10 (signed 0x10 5 [BitVec.ofNat 8 k])) ∧ resetState keyed = 0 ∧ (∀ k ∈ [0, 1], Authentic keyed 0x11 (signed 0x11 5 [BitVec.ofNat 8 k])) ∧
    keyed.hearth.removal = .none ∧ (∀ op ∈ [0x15, 0x17], Authentic keyed op (signed op 5 [])) ∧ keyed.hearth.stage = 6 ∧
    (∀ p < 16, Authentic keyed 0x16 (signed 0x16 5 [BitVec.ofNat 8 p])) ∧ Authentic keyed 0x14 (signed 0x14 5 [1, 0, 0, 0, 0, 0]) ∧
    (Authentic keyed 0x18 (signed 0x18 5 key) ∧ keyed.hearth.hmpKey ≠ none ∧ key.length = 32) ∧ Authentic keyed 0x19 (signed 0x19 5 (List.replicate 20 3)) ∧
    (Requests booted (hmpRequest 0 key) ∧ booted.hearth.hmpKey = none ∧ (hmpRequest 0 key).flags.testBit 1 = false) ∧ (Requests keyed (hmpRequest 5 []) ∧ tagOk keyed 0x14 (hmpRequest 5 []) = false) := by
  have h : keyed.hearth.running = true ∧ keyed.hearth.hmpKey = some key ∧ keyed.hearth.hmpCtr = 4 := by decide +kernel
  exact ⟨fun k _ => authentic_of _ h (by simp), by decide +kernel, fun k _ => authentic_of _ h (by simp), by decide +kernel, fun op _ => authentic_of op h (by decide),
    by decide +kernel, fun p _ => authentic_of _ h (by simp), authentic_of _ h (by decide), ⟨authentic_of _ h (by decide), by decide +kernel, by decide⟩, authentic_of _ h (by decide),
    by simp only [Requests]; decide +kernel, by simp only [Requests]; decide +kernel⟩

/-- The last bytes of slot B, and the announcement of an image of the greatest length. -/
theorem test_image_premises :
    (let r := signed 0x12 5 ([1, 0xFC, 0xFF, 0xFF, 0x01] ++ [1, 2, 3, 4]);
      Authentic keyed 0x12 r ∧ 5 ≤ r.payload.length ∧ arg r 0 1 ≤ 1 ∧ r.payload.length ≤ 1029 ∧ arg r 1 4 + (r.payload.length - 5) ≤ slotSize) ∧
    (let r := signed 0x13 5 [1, 0, 0, 0, 2];
      Authentic keyed 0x13 r ∧ r.payload.length = 5 ∧ arg r 0 1 ≤ 1 ∧ arg r 1 4 ≤ slotSize ∧ keyed.hearth.sideband = false) := by
  have h : keyed.hearth.running = true ∧ keyed.hearth.hmpKey = some key ∧ keyed.hearth.hmpCtr = 4 := by decide +kernel
  exact ⟨⟨authentic_of _ h (by decide), by decide⟩, ⟨authentic_of _ h (by decide), by decide, by decide, by decide, by decide +kernel⟩⟩

theorem test_side_band_premises :
    (let s := hearthOf (fun h => { h with ipv4 := 0xC0A80001, ipv6 := 1 }); s.hearth.running = true ∧ s.hearth.ipv4 ≠ 0 ∧ s.hearth.ipv6 ≠ 0 ∧ linkLocal s ≠ s.hearth.ipv6) ∧
    (∀ off ∈ [0, 480], (hearthOf (fun h => { h with fruOff := off })).hearth.fruOff = off) := by decide +kernel

theorem test_removal_premises :
    (booted.hearth.running = true ∧ booted.hearth.policy.testBit 3 = true ∧ booted.hearth.stage = 6 ∧ booted.hearth.removal = .none ∧ booted.modhw.admitted = true) ∧
    (∀ left ∈ [false, true], let s := (hearthOf (fun h => { h with removal := .draining })).modStaon (fun b => { b with left := left })
      s.hearth.removal = .draining ∧ s.staon.left = left ∧ anyTask s = false) ∧
    ((hearthOf (fun h => { h with removal := .off })).hearth.removal = .off) ∧
    (let s := { booted with modhw := { booted.modhw with admitted := false } }; s.modhw.admitted = false ∧ (3900 : Nat) < 3901 ∧ (6199 : Nat) < 6200) := by decide +kernel

theorem test_reference_premises :
    (booted.modhw.ref100 = true ∧ booted.modhw.admitted = true) ∧
    (let s := { booted with modhw := { booted.modhw with ref100 := false, refLoss := true } }; s.modhw.ref100 = false ∧ s.modhw.admitted = true ∧ s.modhw.refLoss = true) ∧
    (let s := { booted with staon := { booted.staon with enabled := true } }; s.staon.enabled = true ∧ s.staon.left = false ∧ (∀ p < 12, (sport s p).state = 0 ∧ domOn s (100 + p) = true)) := by decide +kernel

theorem test_step_premises :
    (let s := { booted with pending := [.dispatch, .wakeTokenDraw] }; s.pending = .dispatch :: [.wakeTokenDraw]) ∧ booted.pending = [] ∧
    (∀ c < 4, (sieve booted c).groups = [] ∧ (sieve booted c).lanes = []) ∧
    (Instr.wf (.instructionComplete 31 0) = true ∧ isNext (exec .mmuInvDone booted) = true) ∧ NoSuchUnit (.drainDone 32) :=
  ⟨rfl, rfl, by decide +kernel, ⟨by decide, by decide +kernel⟩, .inr (.inr (.inr (.inl ⟨32, rfl, by decide⟩)))⟩

theorem test_canonical_premise : State.reset.Canonical := by
  refine ⟨?_, ?_, ?_, ?_⟩ <;> decide

/-- A module whose fuses disable array 1 of core 3: domains 56 and 57 stay fused off. -/
theorem test_fused_premises :
    (let s := { State.reset with part := .m7 3 1, power := .reset 0x7F };
      FusedStayOff s ∧ fusedDomain s.arrayMask 56 = true ∧ fusedDomain s.arrayMask 57 = true ∧ isNext (step s) = true ∧ isNext (exec (.pwrDomOnWrite 0 (-1)) s) = true) := by
  simp only [FusedStayOff]; decide +kernel

end Sys2Proof.Tests
end

