-- ==== Sys2Proof/Tests/Slice0.lean ====
section
/-! SUPPORT. Commands that name a unit beyond those of its kind are ill formed, and small values that the spec itself works out or tabulates. -/

namespace Sys2Proof.Tests

set_option Elab.async false

open Sys2Proof Sys2Proof.Machine Sys2Proof.Claims

/-! ### Well-formedness: the last unit of each kind is one, the next is none -/

theorem test_wf_tray : (Instr.ctrlNop 31).wf = true ∧ (Instr.ctrlNop 32).wf = false := by decide
theorem test_wf_core : (Instr.planeReady 3).wf = true ∧ (Instr.planeReady 4).wf = false := by decide
theorem test_wf_array : (Instr.weightFillDone 3 1).wf = true ∧ (Instr.weightFillDone 3 2).wf = false ∧ (Instr.weightFillDone 4 1).wf = false := by decide
theorem test_wf_sub_array : (Instr.arrayGroupInject 0 0 15 ⟨0, 0, 0⟩).wf = true ∧ (Instr.arrayGroupInject 0 0 16 ⟨0, 0, 0⟩).wf = false := by decide
theorem test_wf_channel : (Instr.transferDescDone 0 3 7).wf = true ∧ (Instr.transferDescDone 0 4 7).wf = false ∧ (Instr.transferDescDone 0 3 8).wf = false := by decide
theorem test_wf_group : (Instr.groupTakeWork 0 511 0).wf = true ∧ (Instr.groupTakeWork 0 512 0).wf = false := by decide
theorem test_wf_slot : (Instr.slotClose 0 15).wf = true ∧ (Instr.slotClose 0 16).wf = false := by decide
theorem test_wf_peel_port : (Instr.peelArrival 0 3).wf = true ∧ (Instr.peelArrival 0 4).wf = false := by decide
theorem test_wf_queue : (Instr.recordWrite 63).wf = true ∧ (Instr.recordWrite 64).wf = false := by decide
theorem test_wf_command : (Instr.caps (command 0 [])).wf = true ∧ (Instr.caps { command 0 [] with queue := 64 }).wf = false ∧
    (Instr.caps { command 0 [] with src := .udp 2 0 sender }).wf = false ∧ (Instr.caps { command 0 [] with src := .udp 0 8 sender }).wf = false ∧
    (Instr.caps { command 0 [] with src := .send 1024 }).wf = false := by decide
theorem test_wf_queue_pair : (Instr.cnp 1023).wf = true ∧ (Instr.cnp 1024).wf = false := by decide
theorem test_wf_host_port : (Instr.pfcPauseExpire 1 7).wf = true ∧ (Instr.pfcPauseExpire 2 7).wf = false ∧ (Instr.pfcPauseExpire 1 8).wf = false := by decide
theorem test_wf_staon_port : (Instr.flitLock 11).wf = true ∧ (Instr.flitLock 12).wf = false := by decide
theorem test_wf_controller : (Instr.scrubPassStart 11).wf = true ∧ (Instr.scrubPassStart 12).wf = false := by decide
theorem test_wf_site : (Instr.arbGrant 5 7 .none).wf = true ∧ (Instr.arbGrant 5 8 .none).wf = false ∧ (Instr.arbGrant 6 0 .none).wf = false := by decide
theorem test_wf_domain : (Instr.wakeComplete 124).wf = true ∧ (Instr.wakeComplete 125).wf = false := by decide
theorem test_wf_half : (Instr.pwrDomOnWrite 1 0).wf = true ∧ (Instr.pwrDomOnWrite 2 0).wf = false := by decide

/-- A command beyond the units of its kind stops by name. -/
theorem test_no_such_tray : exec (.syncSig 32) State.reset = .fault (.noSuchUnit "tray" 32) := by rfl

/-! ### Formats -/

/-- E4M3's largest value is 448 at code 0x7E; 500 saturates to it, and its NaN is 0x7F (R42, R44, R60). -/
theorem test_e4m3_saturates :
    cvtScalar .e4m3 .rne (.fin false 448 0) = ⟨0x7E, {}⟩ ∧ cvtScalar .e4m3 .rne (.fin true 500 0) = ⟨0xFE, { sat := true }⟩ ∧ (cvtScalar .e4m3 .rne .nan).code = 0x7F := by
  decide +kernel

/-- FP32 70,000 stochastically rounded to FP16 gives 65,504 with SAT, whatever r is (R56). -/
theorem test_sr_to_fp16_saturates : ∀ r ∈ [0, 65535], cvtScalar .fp16 (.sr r) (.fin false 70000 0) = ⟨0x7BFF, { sat := true }⟩ := by decide +kernel

/-- A BF16 tie goes to the even significand: 1 + 2^-8 rounds to 1, and 1 + 3 × 2^-8 to 1 + 2^-6 (R54). -/
theorem test_bf16_ties : (cvtScalar .bf16 .rne (.fin false 257 (-8))).code = 0x3F80 ∧ (cvtScalar .bf16 .rne (.fin false 259 (-8))).code = 0x3F82 := by decide +kernel

/-- A compensated pair recovers what 63 adds of 1 to 2^24 lose: s stays 2^24, and e ends at 63; their sum rounds to 16,777,280 (the example of R248). -/
theorem test_comp_recovers :
    let p := (List.replicate 63 0x3F800000#32).foldl (fun q x => (compAdd q.1 q.2 x).1) (0x4B800000#32, 0#32)
    p = (0x4B800000#32, 0x427C0000#32) ∧ (f32add p.1 p.2).1 = 0x4B800020#32 := by decide +kernel

/-! ### Crumbs: the segment that the spec encodes in both widths -/

/-- An INT8 tensor of one row of 256 elements, as crumbs. -/
def crumbs : Desc := Desc.ofBytes (leBytes 64 (matrix 0 1 1 256 256 0 false))
/-- The elements stored by a crumb, by place and code, or the fault of its check. -/
def stored (bs : List Byte) : List (Nat × Nat) ⊕ Nat :=
  match decodeCrumb crumbs bs with
  | .ok l => .inl (l.zipIdx.filterMap (fun p => if p.1.stored then some (p.2, p.1.code) else none))
  | .error e => .inr e
/-- The six values at their places. -/
def sixValues : List (Nat × Nat) := [(3, 12), (4, 0xF9), (20, 1), (51, 100), (200, 0x80), (255, 5)]
/-- The crumb with 4-bit codes, by its count and its last code byte. -/
def narrow (count last : Nat) : List Byte :=
  leBytes 8 (0x1800000000 + count) ++ [0x03, 0x0F, 0xFF, 0xF0, 0xFF, 0xFF, 0xFF, 0xFF, 0xFD, 0xFF, BitVec.ofNat 8 last, 0, 0, 0, 0, 0] ++ [0x0C, 0xF9, 0x01, 0x64, 0x80, 0x05, 0, 0]

theorem test_crumb_of_8_bit_codes : stored ([0x06, 0x02, 0, 0, 0x10, 0, 0, 0] ++ [0x03, 0x00, 0x0F, 0x1E, 0x94, 0x36, 0, 0] ++ [0x0C, 0xF9, 0x01, 0x64, 0x80, 0x05, 0, 0]) = .inl sixValues := by
  decide +kernel
/-- The same with 4-bit codes; a last count of 10, or a seventh value, runs over the segment. -/
theorem test_crumb_of_4_bit_codes : stored (narrow 6 9) = .inl sixValues ∧ stored (narrow 6 10) = .inr 0x0404 ∧ stored (narrow 7 9) = .inr 0x0404 := by decide +kernel

/-! ### Element programs: the gated layer of the depot forecaster -/

/-- The program y = silu(g + b) × u, word for word. -/
def gated : List Reg := [0x10, 0x20301, 0x3427, 0x43303, 0xFF, 0x13003, 0xFF, 0xFF, 0xFF]

/-- It is legal; with its SIGMOID at an even stage it is not (R274, R281). -/
theorem test_gated_program : programOk gated = true ∧ programOk [0x10, 0x20301, 0x43303, 0x3427, 0xFF, 0x13003, 0xFF, 0xFF, 0xFF] = false := by decide +kernel
/-- Its stage 0 adds v0 and v2 into v3: 1 + 2 = 3 (R275, R281). -/
theorem test_gated_stage_0 :
    ((laneStage 0x20301 (fun _ => 0) 0 ⟨0, 0, [0x3F800000, 0, 0x40000000, 0, 0, 0, 0, 0], true, {}⟩).v.getD 3 0) = 0x40400000#32 := by decide +kernel

/-! ### Instructions -/

/-- CTRL.SETVL takes VL from 1 to 2,048, and ends the task with FIELD_RANGE beyond (R264). -/
theorem test_setvl : ((after (at0 (word 0 3 [(64, 2048)]) []) [.ctrlSetvl 0]).tray 0).set.vl = 2048 ∧
    ((after (at0 (word 0 3 [(64, 100)]) []) [.ctrlSetvl 0]).tray 0).set.vl = 100 ∧
    ((after (at0 (word 0 3 [(64, 2049)]) []) [.ctrlSetvl 0]).tray 0).state ≠ .run := by decide +kernel

/-! ### Power and heat -/

/-- A full bucket holds 6 tokens of the 24 that an array needs (R512, R517). -/
theorem test_array_draws_24 :
    domTokens 0 = 24 ∧ (after (powerOf (fun q => { q with wakes := [(0, 18)] })) [.wakeTokenDraw]).power.wakes = [] ∧
    (after (powerOf (fun q => { q with wakes := [(0, 17)] })) [.wakeTokenDraw]).power.wakes = [(0, 23)] := by decide +kernel
/-- The thermal cap: 25 W for each degree above 95, 300 W at least (R527). -/
theorem test_thermal_cap : thermalCapAt 95 95 = 1000 ∧ thermalCapAt 95 97 = 950 ∧ thermalCapAt 95 125 = 300 ∧ thermalCapAt 95 (-20) = 1000 := by decide
/-- 105 °C is critical, and stays so down to 100 (R528). -/
theorem test_critical_hysteresis :
    let s := after booted [.thermalSample (List.replicate 34 105)]
    s.power.crit = true ∧ (after s [.thermalSample (List.replicate 34 100)]).power.crit = true ∧ (after s [.thermalSample (List.replicate 34 99)]).power.crit = false := by decide +kernel

/-! ### Digests -/

/-- SHA3-256 of no bytes, as FIPS 202 tabulates it (R484, R553). -/
theorem test_sha3_256_empty :
    sha3_256 [] = [0xa7, 0xff, 0xc6, 0xf8, 0xbf, 0x1e, 0xd7, 0x66, 0x51, 0xc1, 0x47, 0x56, 0xa0, 0x61, 0xd6, 0x62,
      0xf5, 0x80, 0xff, 0x4d, 0xe4, 0x3b, 0x49, 0xfa, 0x82, 0xd8, 0x0a, 0x4b, 0x80, 0xf8, 0x43, 0x4a] := by decide +kernel

/-! ### The Hearth -/

/-- An input of 39.01 V is admitted; 39.00 V and 62.00 V are not (R591). -/
theorem test_input_thresholds :
    let s := { State.reset with modhw := { State.reset.modhw with admitted := false } }
    (after s [.inputAdmit 3901]).modhw.admitted = true ∧ (after s [.inputAdmit 3900]).modhw.admitted = false ∧ (after s [.inputAdmit 6200]).modhw.admitted = false := by decide +kernel
/-- A TIME_SET with the right tag sets the calendar; the same request again is answered as before and acts no second time (R549, R553). -/
theorem test_time_set_once :
    let r := signed 0x14 5 (leBytes 6 1000000)
    let s := after keyed [.timeSet r]
    s.hearth.calSeconds = 1000000 ∧ s.hearth.hmpCtr = 5 ∧ (after s [.timeSet r]).hearth.side.length = 2 := by decide +kernel

end Sys2Proof.Tests
end

section
/-! PROOFS. Bit fields: what a field reads after it, or one apart from it, has been replaced. -/

namespace Sys2Proof.Machine

theorem testBit_bf {n : Nat} (w : BitVec n) (hi lo i : Nat) : (bf w hi lo).testBit i = (decide (i < hi + 1 - lo) && w.getLsbD (lo + i)) := by
  rw [bf, Nat.testBit_mod_two_pow, Nat.testBit_shiftRight, BitVec.getLsbD]

/-- Bit `i` of a word whose field has been replaced is a bit of the new value inside the field, and the old bit outside it. -/
theorem getLsbD_setBf {n : Nat} (w : BitVec n) {hi lo : Nat} (v i : Nat) (h : lo ≤ hi) (hn : hi < n) :
    (setBf w hi lo v).getLsbD i = if lo ≤ i ∧ i ≤ hi then v.testBit (i - lo) else w.getLsbD i := by
  by_cases hin : i < n
  · rw [setBf, maskOf, BitVec.getLsbD_or, BitVec.getLsbD_and, BitVec.getLsbD_not, BitVec.getLsbD_ofNat, BitVec.getLsbD_ofNat, Nat.testBit_shiftLeft, Nat.testBit_shiftLeft,
      Nat.testBit_mod_two_pow, Nat.testBit_two_pow_sub_one]
    by_cases hl : lo ≤ i
    · by_cases hh : i ≤ hi
      · have : i - lo < hi + 1 - lo := by omega
        simp [hin, hl, hh, this]
      · have : ¬ i - lo < hi + 1 - lo := by omega
        simp [hin, hh, this]
    · simp [hin, hl]
  · have : ¬ (lo ≤ i ∧ i ≤ hi) := by omega
    rw [if_neg this, BitVec.getLsbD_of_ge _ _ (by omega), BitVec.getLsbD_of_ge _ _ (by omega)]

theorem bf_setBf_same {n : Nat} (w : BitVec n) {hi lo : Nat} (v : Nat) (h : lo ≤ hi) (hn : hi < n) : bf (setBf w hi lo v) hi lo = v % 2 ^ (hi + 1 - lo) := by
  apply Nat.eq_of_testBit_eq
  intro i
  rw [testBit_bf, Nat.testBit_mod_two_pow, getLsbD_setBf w v _ h hn]
  by_cases hj : i < hi + 1 - lo
  · rw [if_pos (by omega), Nat.add_sub_cancel_left]
  · simp [hj]

theorem bf_setBf_other {n : Nat} (w : BitVec n) {hi lo hi' lo' : Nat} (v : Nat) (h : lo ≤ hi) (hn : hi < n) (apart : hi < lo' ∨ hi' < lo) :
    bf (setBf w hi lo v) hi' lo' = bf w hi' lo' := by
  apply Nat.eq_of_testBit_eq
  intro i
  rw [testBit_bf, testBit_bf, getLsbD_setBf w v _ h hn]
  by_cases hj : i < hi' + 1 - lo'
  · rw [if_neg (by omega)]
  · simp [hj]

theorem bf_mod (w : Reg) (hi lo : Nat) : bf w hi lo % 2 ^ (hi + 1 - lo) = bf w hi lo := Nat.mod_mod _ _

theorem nbf_mod (x hi lo : Nat) : nbf x hi lo % 2 ^ (hi + 1 - lo) = nbf x hi lo := Nat.mod_mod _ _

theorem fld_setFld_same (s : State) (off : Nat) {hi lo : Nat} (v : Nat) (h : lo ≤ hi) (hn : hi < 64) :
    (s.setFld off hi lo v).fld off hi lo = v % 2 ^ (hi + 1 - lo) := by
  rw [State.fld, State.reg_setFld_same, bf_setBf_same _ _ h hn]

theorem fld_setFld_apart (s : State) (off : Nat) {hi lo hi' lo' : Nat} (v : Nat) (h : lo ≤ hi) (hn : hi < 64) (apart : hi < lo' ∨ hi' < lo) :
    (s.setFld off hi lo v).fld off hi' lo' = s.fld off hi' lo' := by
  rw [State.fld, State.reg_setFld_same, bf_setBf_other _ _ h hn apart, State.fld]

end Sys2Proof.Machine
end

section
/-! PROOFS. The scope of the module: what every command keeps, which commands answer a next state, how a register write acts, the controllers of LPDDR5X, and the state after reset. -/

namespace Sys2Proof.Machine

open Sys2Proof.Claims

/-! ### What every step keeps -/

/-- A command that answers a next state changes only the parts listed for it, and keeps the tables canonical: each arm is the lemma of its meaning,
whose premises are that nothing has been touched yet and that the parts it writes are among those listed. -/
theorem exec_touches (c : Instr) (s : State) : Ends (partsOf c) s (exec c s) := by
  have hs := Touch.refl (partsOf c) s
  cases c with
  | ctrlNop => apply touch_execCtrlNop <;> trivial
  | ctrlLoop => apply touch_execCtrlLoop <;> trivial
  | ctrlEnd => apply touch_execCtrlEnd <;> trivial
  | ctrlSetvl => apply touch_execCtrlSetvl <;> trivial
  | ctrlCfg => apply touch_execCtrlCfg <;> trivial
  | xferLd => apply touch_execXferLd <;> trivial
  | xferSt => apply touch_execXferSt <;> trivial
  | xferGather => apply touch_execXferGather <;> trivial
  | xferScatter => apply touch_execXferScatter <;> trivial
  | xferRemote => apply touch_execXferRemote <;> trivial
  | xferPref => apply touch_execXferPref <;> trivial
  | mxmMm => apply touch_execMxmMm <;> trivial
  | mxmMms => apply touch_execMxmMms <;> trivial
  | mxmLdw => apply touch_execMxmLdw <;> trivial
  | spxInt => apply touch_execSpxInt <;> trivial
  | spxSct => apply touch_execSpxSct <;> trivial
  | spxExp => apply touch_execSpxExp <;> trivial
  | spxCmp => apply touch_execSpxCmp <;> trivial
  | spxCen => apply touch_execSpxCen <;> trivial
  | vxpLdp => apply touch_execVxpLdp <;> trivial
  | vxpRun => apply touch_execVxpRun <;> trivial
  | vxpCpr => apply touch_execVxpCpr <;> trivial
  | vxpExd => apply touch_execVxpExd <;> trivial
  | vxpPrm => apply touch_execVxpPrm <;> trivial
  | vxpRed => apply touch_execVxpRed <;> trivial
  | peelCfg => apply touch_execPeelCfg <;> trivial
  | peelStat => apply touch_execPeelStat <;> trivial
  | peelUpd => apply touch_execPeelUpd <;> trivial
  | levPred => apply touch_execLevPred <;> trivial
  | levAud => apply touch_execLevAud <;> trivial
  | syncWait => apply touch_execSyncWait <;> trivial
  | syncSig => apply touch_execSyncSig <;> trivial
  | syncBar => apply touch_execSyncBar <;> trivial
  | fabSend => apply touch_execFabSend <;> trivial
  | fabMcast => apply touch_execFabMcast <;> trivial
  | fabRed => apply touch_execFabRed <;> trivial
  | instructionComplete => apply touch_execInstructionComplete <;> trivial
  | dispatch => apply touch_execDispatch <;> trivial
  | recordWrite => apply touch_execRecordWrite <;> trivial
  | notifyTimerExpire => apply touch_execNotifyTimerExpire <;> trivial
  | drainDone => apply touch_execDrainDone <;> trivial
  | tileStepQueue => apply touch_execTileStepQueue <;> trivial
  | headerCountReport => apply touch_execHeaderCountReport <;> trivial
  | zeroPassGenerate => apply touch_execZeroPassGenerate <;> trivial
  | readAheadAdvance => apply touch_execReadAheadAdvance <;> trivial
  | transferDescIssue => apply touch_execTransferDescIssue <;> trivial
  | transferDescDone => apply touch_execTransferDescDone <;> trivial
  | streamSlotFilled => apply touch_execStreamSlotFilled <;> trivial
  | translationWalkDone => apply touch_execTranslationWalkDone <;> trivial
  | prfDeadlockExpire => apply touch_execPrfDeadlockExpire <;> trivial
  | spillCopyDone => apply touch_execSpillCopyDone <;> trivial
  | spillAreaMove => apply touch_execSpillAreaMove <;> trivial
  | spillExhausted => apply touch_execSpillExhausted <;> trivial
  | arbGrant => apply touch_execArbGrant <;> trivial
  | arbHeadForced => apply touch_execArbHeadForced <;> trivial
  | scrubPassStart => apply touch_execScrubPassStart <;> trivial
  | arrayGroupInject => apply touch_execArrayGroupInject <;> trivial
  | weightFillDone => apply touch_execWeightFillDone <;> trivial
  | weightLaunch => apply touch_execWeightLaunch <;> trivial
  | planeReady => apply touch_execPlaneReady <;> trivial
  | sieveStepCurrent => apply touch_execSieveStepCurrent <;> trivial
  | groupTakeWork => apply touch_execGroupTakeWork <;> trivial
  | slotClose => apply touch_execSlotClose <;> trivial
  | slotDrain => apply touch_execSlotDrain <;> trivial
  | sieveSlotSpill => apply touch_execSieveSlotSpill <;> trivial
  | levBitmapTake => apply touch_execLevBitmapTake <;> trivial
  | vectorStepStart => apply touch_execVectorStepStart <;> trivial
  | peelArrival => apply touch_execPeelArrival <;> trivial
  | coucheOverflow => apply touch_execCoucheOverflow <;> trivial
  | tileGroupAlloc => apply touch_execTileGroupAlloc <;> trivial
  | updateBlockCommit => apply touch_execUpdateBlockCommit <;> trivial
  | batTimerExpire => apply touch_execBatTimerExpire <;> trivial
  | doorbell => apply touch_execDoorbell <;> trivial
  | batchMember => apply touch_execBatchMember <;> trivial
  | resume => apply touch_execResume <;> trivial
  | abort => apply touch_execAbort <;> trivial
  | queueRestart => apply touch_execQueueRestart <;> trivial
  | ringAck => apply touch_execRingAck <;> trivial
  | csrRead => apply touch_execCsrRead <;> trivial
  | csrWrite => apply touch_execCsrWrite <;> trivial
  | quickCall => apply touch_execQuickCall <;> trivial
  | caps => apply touch_execCaps <;> trivial
  | rdmaWrite => apply touch_execRdmaWrite <;> trivial
  | rdmaReadRequest => apply touch_execRdmaReadRequest <;> trivial
  | send => apply touch_execSend <;> trivial
  | rdmaReadResponse => apply touch_execRdmaReadResponse <;> trivial
  | acknowledge => apply touch_execAcknowledge <;> trivial
  | cnp => apply touch_execCnp <;> trivial
  | rateIncreaseTimer => apply touch_execRateIncreaseTimer <;> trivial
  | transportTimeout => apply touch_execTransportTimeout <;> trivial
  | pfcFrame => apply touch_execPfcFrame <;> trivial
  | pfcPauseExpire => apply touch_execPfcPauseExpire <;> trivial
  | hostLinkUp => apply touch_execHostLinkUp <;> trivial
  | hostLinkDown => apply touch_execHostLinkDown <;> trivial
  | hpModeWrite => apply touch_execHpModeWrite <;> trivial
  | csrRegisterWrite => apply touch_execCsrRegisterWrite <;> trivial
  | syncBarBreak => apply touch_execSyncBarBreak <;> trivial
  | levCntClrAll => apply touch_execLevCntClrAll <;> trivial
  | updClrAll => apply touch_execUpdClrAll <;> trivial
  | peelDbgSnap => apply touch_execPeelDbgSnap <;> trivial
  | peelDbgSnapDone => apply touch_execPeelDbgSnapDone <;> trivial
  | mmuInvGo => apply touch_execMmuInvGo <;> trivial
  | mmuInvDone => apply touch_execMmuInvDone <;> trivial
  | larCfgWrite => apply touch_execLarCfgWrite <;> trivial
  | larRepartDone => apply touch_execLarRepartDone <;> trivial
  | lpcSplitWrite => apply touch_execLpcSplitWrite <;> trivial
  | errInjArm => apply touch_execErrInjArm <;> trivial
  | pwrDomOnWrite => apply touch_execPwrDomOnWrite <;> trivial
  | pwrProfileWrite => apply touch_execPwrProfileWrite <;> trivial
  | stnAddrWrite => apply touch_execStnAddrWrite <;> trivial
  | stnMbxGo => apply touch_execStnMbxGo <;> trivial
  | stnLeave => apply touch_execStnLeave <;> trivial
  | leaveComplete => apply touch_execLeaveComplete <;> trivial
  | linkTrainingTimeout => apply touch_execLinkTrainingTimeout <;> trivial
  | flitLock => apply touch_execFlitLock <;> trivial
  | hello => apply touch_execHello <;> trivial
  | helloSendTimer => apply touch_execHelloSendTimer <;> trivial
  | helloTimeout => apply touch_execHelloTimeout <;> trivial
  | portRetrainTimer => apply touch_execPortRetrainTimer <;> trivial
  | flitReceive => apply touch_execFlitReceive <;> trivial
  | ackseqStallTimer => apply touch_execAckseqStallTimer <;> trivial
  | messageForward => apply touch_execMessageForward <;> trivial
  | write => apply touch_execWrite <;> trivial
  | mcast => apply touch_execMcast <;> trivial
  | red => apply touch_execRed <;> trivial
  | ack => apply touch_execAck <;> trivial
  | nack => apply touch_execNack <;> trivial
  | notice => apply touch_execNotice <;> trivial
  | mgtRead => apply touch_execMgtRead <;> trivial
  | mgtWrite => apply touch_execMgtWrite <;> trivial
  | mgtReply => apply touch_execMgtReply <;> trivial
  | leave => apply touch_execLeave <;> trivial
  | e2eResendTimer => apply touch_execE2eResendTimer <;> trivial
  | busyRetryTimer => apply touch_execBusyRetryTimer <;> trivial
  | mcastSkewExpire => apply touch_execMcastSkewExpire <;> trivial
  | dedupPairExpire => apply touch_execDedupPairExpire <;> trivial
  | governorWindow => apply touch_execGovernorWindow <;> trivial
  | domainIdleOff => apply touch_execDomainIdleOff <;> trivial
  | wakeTokenDraw => apply touch_execWakeTokenDraw <;> trivial
  | wakeComplete => apply touch_execWakeComplete <;> trivial
  | switchOffComplete => apply touch_execSwitchOffComplete <;> trivial
  | thermalSample => apply touch_execThermalSample <;> trivial
  | thermalShutdown => apply touch_execThermalShutdown <;> trivial
  | thermalRestartTimer => apply touch_execThermalRestartTimer <;> trivial
  | estDriftCheck => apply touch_execEstDriftCheck <;> trivial
  | pllLock => apply touch_execPllLock <;> trivial
  | pllUnlock => apply touch_execPllUnlock <;> trivial
  | powerOn => apply touch_execPowerOn <;> trivial
  | hearthWatchdog => apply touch_execHearthWatchdog <;> trivial
  | boot => apply touch_execBoot <;> trivial
  | bootBackoffExpire => apply touch_execBootBackoffExpire <;> trivial
  | imageRequestResend => apply touch_execImageRequestResend <;> trivial
  | sidebandTimeout => apply touch_execSidebandTimeout <;> trivial
  | hmpStatus => apply touch_execHmpStatus <;> trivial
  | telemetry => apply touch_execTelemetry <;> trivial
  | objRead => apply touch_execObjRead <;> trivial
  | attest => apply touch_execAttest <;> trivial
  | hmpReset => apply touch_execHmpReset <;> trivial
  | hmpPower => apply touch_execHmpPower <;> trivial
  | imagePut => apply touch_execImagePut <;> trivial
  | imageDone => apply touch_execImageDone <;> trivial
  | timeSet => apply touch_execTimeSet <;> trivial
  | svnCommit => apply touch_execSvnCommit <;> trivial
  | policySet => apply touch_execPolicySet <;> trivial
  | removePrep => apply touch_execRemovePrep <;> trivial
  | keySet => apply touch_execKeySet <;> trivial
  | netSet => apply touch_execNetSet <;> trivial
  | arpRequest => apply touch_execArpRequest <;> trivial
  | neighborSolicitation => apply touch_execNeighborSolicitation <;> trivial
  | stnMgtWrEnRetry => apply touch_execStnMgtWrEnRetry <;> trivial
  | smbFruOffsetSet => apply touch_execSmbFruOffsetSet <;> trivial
  | smbFruBlockRead => apply touch_execSmbFruBlockRead <;> trivial
  | smbReadVoltage => apply touch_execSmbReadVoltage <;> trivial
  | smbReadPower => apply touch_execSmbReadPower <;> trivial
  | smbReadTj => apply touch_execSmbReadTj <;> trivial
  | smbReadHrtState => apply touch_execSmbReadHrtState <;> trivial
  | smbReadLastFail => apply touch_execSmbReadLastFail <;> trivial
  | attnRemoveHold => apply touch_execAttnRemoveHold <;> trivial
  | drainTimeExpire => apply touch_execDrainTimeExpire <;> trivial
  | removeReady => apply touch_execRemoveReady <;> trivial
  | matedNOpen => apply touch_execMatedNOpen <;> trivial
  | inputAdmit => apply touch_execInputAdmit <;> trivial
  | hotSwapTrip => apply touch_execHotSwapTrip <;> trivial
  | ref100Loss => apply touch_execRef100Loss <;> trivial
  | ref100Return => apply touch_execRef100Return <;> trivial
  | ref156hLoss => apply touch_execRef156hLoss <;> trivial
  | ref156sLoss => apply touch_execRef156sLoss <;> trivial
  | levainStepStart => apply touch_execLevainStepStart <;> trivial
  | ref156hReturn => apply touch_execRef156hReturn <;> trivial
  | ref156sReturn => apply touch_execRef156sReturn <;> trivial
  | calOscillatorStop => apply touch_execCalOscillatorStop <;> trivial
  | attestReportDone => apply touch_execAttestReportDone <;> trivial
  | receivedFrameDrop => apply touch_execReceivedFrameDrop <;> trivial
  | invalidRequestOpcode => apply touch_execInvalidRequestOpcode <;> trivial

theorem exec_keeps_canonical {c : Instr} {s s' : State} (hs : s.Canonical) (h : exec c s = .next s') : s'.Canonical :=
  (exec_touches c s s' h).canonical hs

/-- Parts that a cycle without a command may change. -/
def idleParts : Parts :=
  { now := true, regs := true, trays := true, queues := true, cores := true, mmu := true, arbs := true, errLog := true, staon := true, hearth := true }

theorem idleTick_touches (s : State) : Touch idleParts s (idleTick s) := by
  apply touch_idleTick s (.refl _ s) <;> rfl

theorem step_of_pending_nil {s : State} (h : s.pending = []) : step s = .next (idleTick s) := by
  rw [step, h]

theorem step_of_pending_cons {s : State} {c : Instr} {rest : List Instr} (h : s.pending = c :: rest) : step s = exec c { s with pending := rest } := by
  rw [step, h]

/-- Settles O56: a command's arm keeps the tables by its Touch lemma, and so does the cycle that passes on an empty queue. -/
theorem stepsKeepTheTablesCanonical : Obligations.StepsKeepTheTablesCanonical := by
  unfold Obligations.StepsKeepTheTablesCanonical
  intro s s' hs h
  cases hp : s.pending with
  | nil =>
    rw [step_of_pending_nil hp] at h
    exact (ends_next (idleTick_touches s) s' h).canonical hs
  | cons c rest =>
    rw [step_of_pending_cons hp] at h
    exact exec_keeps_canonical (s := { s with pending := rest }) hs h

/-! ### Which commands answer a next state

Every meaning is guarded by the number of the unit that it names: within the module it answers a next state, beyond it the fault noSuchUnit (log entry 3). -/

section Guards
variable {f : State → State} {s : State} {c a n bound : Nat} {o : Host.Outcome State Fault Refusal} {e : Fault}

/-- A meaning behind the guard of its unit. -/
theorem guarded_next (h : n < bound) (ho : ∃ s', o = .next s') : ∃ s', (if n < bound then o else .fault e) = .next s' := by
  rwa [if_pos h]

/-- The guard written the other way about. -/
theorem unlessBeyond_next (h : n < bound) (ho : ∃ s', o = .next s') : ∃ s', (if bound ≤ n then .fault e else o) = .next s' := by
  rwa [if_neg (by omega)]

theorem guarded_fault (h : bound ≤ n) : (if n < bound then o else .fault e) = .fault e := if_neg (by omega)

theorem onArray_next (h : c < 4) (ha : a < 2) : ∃ s', onArray c a f s = .next s' := by
  rw [onArray, if_neg (by omega), if_neg (by omega)]
  split <;> exact ⟨_, rfl⟩

theorem onArray_fault (h : c < 4) (ha : 2 ≤ a) : onArray c a f s = .fault (.noSuchUnit "array" a) := by
  rw [onArray, if_neg (by omega), if_pos ha]

theorem mmuInvDone_next (s : State) : ∃ s', execMmuInvDone s = .next s' := by
  unfold execMmuInvDone
  split <;> exact ⟨_, rfl⟩

end Guards

/-- The arbiters of a site that a command may name are those that the model has. -/
theorem arbInstances_eq_sitePorts (site : Nat) : sitePorts site = arbInstances site := by
  match site with
  | 0 | 1 | 2 | 3 | 4 | 5 => rfl
  | n + 6 => rfl

theorem queue_lt_of_wf {m : CctMsg} (h : m.wf = true) : m.queue < 64 := by
  simp only [CctMsg.wf, Bool.and_eq_true, decide_eq_true_eq] at h
  exact h.2

theorem exec_issueCommand (mn : Mn) (t : Nat) (s : State) : exec (issueCommand mn t) s = onTray t (issue t mn) s := by cases mn <;> rfl

/-- A command that names units of the module answers a next state; the arms go by the unit that the command names. -/
theorem exec_next_of_wf (c : Instr) (s : State) (h : c.wf = true) : ∃ s', exec c s = .next s' := by
  cases c with
  | ctrlNop | ctrlLoop | ctrlEnd | ctrlSetvl | ctrlCfg | xferLd | xferSt | xferGather | xferScatter | xferRemote | xferPref | mxmMm | mxmMms | mxmLdw
  | spxInt | spxSct | spxExp | spxCmp | spxCen | vxpLdp | vxpRun | vxpCpr | vxpExd | vxpPrm | vxpRed | peelCfg | peelStat | peelUpd | levPred | levAud
  | syncWait | syncSig | syncBar | fabSend | fabMcast | fabRed | instructionComplete | drainDone | tileStepQueue | headerCountReport
  | zeroPassGenerate | readAheadAdvance | updateBlockCommit | streamSlotFilled | prfDeadlockExpire | spillCopyDone | spillAreaMove | spillExhausted
  | planeReady | sieveStepCurrent | slotDrain | sieveSlotSpill | levBitmapTake | vectorStepStart | coucheOverflow | tileGroupAlloc | levCntClrAll
  | updClrAll | peelDbgSnap | peelDbgSnapDone | levainStepStart | recordWrite | notifyTimerExpire | batTimerExpire | linkTrainingTimeout | flitLock
  | hello | helloSendTimer | helloTimeout | portRetrainTimer | flitReceive | ackseqStallTimer | messageForward | write | mcast | red | ack | nack
  | notice | mgtRead | mgtWrite | mgtReply | leave | pfcFrame | hostLinkUp | hostLinkDown | receivedFrameDrop | scrubPassStart | lpcSplitWrite
  | pwrDomOnWrite | domainIdleOff | wakeComplete | switchOffComplete =>
    exact guarded_next (of_decide_eq_true h) ⟨_, rfl⟩
  | pfcPauseExpire port prio =>
    simp only [Instr.wf, Bool.and_eq_true, decide_eq_true_eq] at h
    exact guarded_next h.1 ⟨_, rfl⟩
  | doorbell | batchMember | resume | abort | queueRestart | ringAck | csrRead | csrWrite | quickCall | caps =>
    exact guarded_next (queue_lt_of_wf h) ⟨_, rfl⟩
  | weightFillDone | weightLaunch =>
    simp only [Instr.wf, Bool.and_eq_true, decide_eq_true_eq] at h
    exact onArray_next h.1 h.2
  | transferDescIssue c ch =>
    simp only [Instr.wf, Bool.and_eq_true, decide_eq_true_eq] at h
    exact guarded_next h.2 (guarded_next h.1 ⟨_, rfl⟩)
  | transferDescDone c ch slot =>
    simp only [Instr.wf, Bool.and_eq_true, decide_eq_true_eq] at h
    obtain ⟨⟨hc, hch⟩, hslot⟩ := h
    exact guarded_next hslot (guarded_next hch (guarded_next hc ⟨_, rfl⟩))
  | arrayGroupInject c a sub =>
    simp only [Instr.wf, Bool.and_eq_true, decide_eq_true_eq] at h
    obtain ⟨⟨hc, ha⟩, hsub⟩ := h
    exact unlessBeyond_next hsub (onArray_next hc ha)
  | groupTakeWork | slotClose | peelArrival =>
    simp only [Instr.wf, Bool.and_eq_true, decide_eq_true_eq] at h
    exact unlessBeyond_next h.2 (guarded_next h.1 ⟨_, rfl⟩)
  | send =>
    simp only [Instr.wf, CctMsg.wf, Bool.and_eq_true, decide_eq_true_eq] at h
    exact guarded_next h.2.2 ⟨_, rfl⟩
  | arbGrant site | arbHeadForced site =>
    exact guarded_next (arbInstances_eq_sitePorts site ▸ of_decide_eq_true h) ⟨_, rfl⟩
  | mmuInvDone => exact mmuInvDone_next s
  | dispatch | translationWalkDone | rdmaWrite | rdmaReadRequest | rdmaReadResponse | acknowledge | cnp | rateIncreaseTimer | transportTimeout
  | hpModeWrite | csrRegisterWrite | syncBarBreak | mmuInvGo | larCfgWrite | larRepartDone | errInjArm | pwrProfileWrite | stnAddrWrite | stnMbxGo
  | stnLeave | leaveComplete | e2eResendTimer | busyRetryTimer | mcastSkewExpire | dedupPairExpire | governorWindow | wakeTokenDraw | thermalSample
  | thermalShutdown | thermalRestartTimer | estDriftCheck | pllLock | pllUnlock | powerOn | hearthWatchdog | boot | bootBackoffExpire
  | imageRequestResend | sidebandTimeout | hmpStatus | telemetry | objRead | attest | hmpReset | hmpPower | imagePut | imageDone | timeSet | svnCommit
  | policySet | removePrep | keySet | netSet | arpRequest | neighborSolicitation | stnMgtWrEnRetry | smbFruOffsetSet | smbFruBlockRead
  | smbReadVoltage | smbReadPower | smbReadTj | smbReadHrtState | smbReadLastFail | attnRemoveHold | drainTimeExpire | removeReady | matedNOpen
  | inputAdmit | hotSwapTrip | ref100Loss | ref100Return | ref156hLoss | ref156sLoss | ref156hReturn | ref156sReturn | calOscillatorStop
  | attestReportDone | invalidRequestOpcode =>
    exact ⟨_, rfl⟩

/-- A command that names a unit beyond the module's is a fault. -/
theorem exec_fault_of_noSuchUnit {c : Instr} (s : State) (h : NoSuchUnit c) : ∃ k n, exec c s = .fault (.noSuchUnit k n) := by
  obtain ⟨mn, t, rfl, ht⟩ | ⟨t, k, rfl, ht⟩ | ⟨t, rfl, ht⟩ | ⟨t, rfl, ht⟩ | ⟨q, rfl, hq⟩ | ⟨k, rfl, hk⟩ | ⟨k, a, rfl, hk, ha⟩ | ⟨k, ch, rfl, hk, hch⟩ | ⟨p, rfl, hp⟩ |
    ⟨p, rfl, hp⟩ | ⟨d, rfl, hd⟩ | ⟨k, rfl, hk⟩ | ⟨m, rfl, hm⟩ := h
  · exact ⟨_, _, (exec_issueCommand mn t s).trans (guarded_fault ht)⟩
  · exact ⟨_, _, guarded_fault ht⟩
  · exact ⟨_, _, guarded_fault ht⟩
  · exact ⟨_, _, guarded_fault ht⟩
  · exact ⟨_, _, guarded_fault hq⟩
  · exact ⟨_, _, guarded_fault hk⟩
  · exact ⟨_, _, onArray_fault hk ha⟩
  · exact ⟨_, _, guarded_fault hch⟩
  · exact ⟨_, _, guarded_fault hp⟩
  · exact ⟨_, _, guarded_fault hp⟩
  · exact ⟨_, _, guarded_fault hd⟩
  · exact ⟨_, _, guarded_fault hk⟩
  · exact ⟨_, _, guarded_fault hm⟩

/-- Settles O54: a command of the module's units by the guard of each meaning, and a unit beyond them by the fault of the same guard. -/
theorem commandsOfTheModuleAnswerNext : Obligations.CommandsOfTheModuleAnswerNext := by
  unfold Obligations.CommandsOfTheModuleAnswerNext
  exact ⟨exec_next_of_wf, fun _ s h => exec_fault_of_noSuchUnit s h⟩

/-! ### The register map -/

namespace RegMap

/-- A register's fields lie in its 64 bits and do not overlap. -/
def fieldsApart : List RField → Bool
  | [] => true
  | f :: l => decide (f.lo ≤ f.hi) && decide (f.hi < 64) && l.all (fun g => decide (f.hi < g.lo) || decide (g.hi < f.lo)) && fieldsApart l

theorem fieldsApart_of_mem_all {d : RegDef} (h : d ∈ all) : fieldsApart d.fields = true :=
  List.all_eq_true.mp (show all.all (fun d => fieldsApart d.fields) = true by decide +kernel) d h

theorem mem_all_of_find {off : Nat} {d : RegDef} {i j : Nat} (h : find off = some (d, i, j)) : d ∈ all := by
  obtain ⟨e, he, hs⟩ := List.exists_of_findSome?_eq_some h
  simp only [Option.map_eq_some_iff, Prod.mk.injEq] at hs
  obtain ⟨_, _, rfl, _⟩ := hs
  exact he

/-- The registers that record a refused write (R18). -/
def refusalRegs : List Nat := [Csr.cfgWhileBusy, Csr.cfgBusyBlocks, Csr.cfgLastRefused]

/-- The registers that record refused writes hang on no block's busy condition. -/
theorem busy_of_find_refusal {off : Nat} {d : RegDef} {i j : Nat} (h : find off = some (d, i, j)) (ho : off ∈ refusalRegs) :
    d.busy = .none := by
  have key : ∀ o ∈ refusalRegs, (find o).all (fun p => p.1.busy == .none) = true := by decide +kernel
  simpa [h] using key off ho

end RegMap

/-! ### A register write by access codes -/

/-- What field `f` holds after a write of `v` over `old`, by its access code (R11). -/
def fieldAfter (busy : Bool) (old v : Reg) (f : RField) : Nat :=
  match f.acc with
  | .rw | .rws => bf v f.hi f.lo
  | .ro | .wo => bf old f.hi f.lo
  | .w1c => nbf (old &&& ~~~ v).toNat f.hi f.lo
  | .rwl => if busy then bf old f.hi f.lo else bf v f.hi f.lo

/-- One field's step of `writeFields`. -/
def writeField (busy : Bool) (old v w : Reg) (f : RField) : Reg :=
  match f.acc with
  | .rw | .rws => setBf w f.hi f.lo (bf v f.hi f.lo)
  | .rwl => if busy then w else setBf w f.hi f.lo (bf v f.hi f.lo)
  | .w1c => setBf w f.hi f.lo (nbf ((old &&& ~~~ v).toNat) f.hi f.lo)
  | .ro | .wo => w

theorem writeFields_eq_foldl (d : RegDef) (busy : Bool) (old v : Reg) : writeFields d busy old v = d.fields.foldl (writeField busy old v) old := rfl

theorem bf_writeField_same {busy : Bool} {old v w : Reg} {f : RField} (h : f.lo ≤ f.hi) (hn : f.hi < 64) (hw : bf w f.hi f.lo = bf old f.hi f.lo) :
    bf (writeField busy old v w f) f.hi f.lo = fieldAfter busy old v f := by
  unfold writeField fieldAfter
  cases f.acc with
  | rw | rws => exact (bf_setBf_same w _ h hn).trans (bf_mod v _ _)
  | w1c => exact (bf_setBf_same w _ h hn).trans (nbf_mod _ _ _)
  | ro | wo => exact hw
  | rwl =>
    cases busy with
    | true => exact hw
    | false => exact (bf_setBf_same w _ h hn).trans (bf_mod v _ _)

theorem bf_writeField_other {busy : Bool} {old v w : Reg} {f g : RField} (h : f.lo ≤ f.hi) (hn : f.hi < 64) (apart : f.hi < g.lo ∨ g.hi < f.lo) :
    bf (writeField busy old v w f) g.hi g.lo = bf w g.hi g.lo := by
  unfold writeField
  cases f.acc with
  | rw | rws | w1c => exact bf_setBf_other w _ h hn apart
  | ro | wo => rfl
  | rwl =>
    cases busy with
    | true => rfl
    | false => exact bf_setBf_other w _ h hn apart

theorem bf_foldl_writeField_other {busy : Bool} {old v : Reg} {g : RField} {l : List RField} {w : Reg} (hl : RegMap.fieldsApart l = true)
    (apart : ∀ f ∈ l, g.hi < f.lo ∨ f.hi < g.lo) : bf (l.foldl (writeField busy old v) w) g.hi g.lo = bf w g.hi g.lo := by
  induction l generalizing w with
  | nil => rfl
  | cons f l ih =>
    simp only [RegMap.fieldsApart, Bool.and_eq_true, decide_eq_true_eq] at hl
    obtain ⟨⟨⟨hlo, hhi⟩, _⟩, hl⟩ := hl
    rw [List.foldl_cons, ih hl (fun e he => apart e (List.mem_cons_of_mem _ he)), bf_writeField_other hlo hhi (apart f List.mem_cons_self).symm]

/-- Each field of a written register takes the value of its own access code, whatever the other fields do. -/
theorem bf_foldl_writeField {busy : Bool} {old v : Reg} {l : List RField} {w : Reg} (hl : RegMap.fieldsApart l = true) (hw : ∀ f ∈ l, bf w f.hi f.lo = bf old f.hi f.lo)
    {f : RField} (hf : f ∈ l) : bf (l.foldl (writeField busy old v) w) f.hi f.lo = fieldAfter busy old v f := by
  induction l generalizing w with
  | nil => cases hf
  | cons e l ih =>
    simp only [RegMap.fieldsApart, Bool.and_eq_true, decide_eq_true_eq, List.all_eq_true, Bool.or_eq_true] at hl
    obtain ⟨⟨⟨hlo, hhi⟩, apart⟩, hl⟩ := hl
    rw [List.foldl_cons]
    cases hf with
    | head =>
      rw [bf_foldl_writeField_other hl apart, bf_writeField_same hlo hhi (hw _ List.mem_cons_self)]
    | tail _ hf =>
      exact ih hl (fun g hg => by rw [bf_writeField_other hlo hhi (apart g hg), hw g (List.mem_cons_of_mem _ hg)]) hf

theorem regs_stageRws (s : State) (c : Nat) : (stageRws s c).regs = s.regs :=
  (touch_stageRws (F := { trays := true }) s c (.refl _ s) rfl).regs rfl

theorem reg_stageRws (s : State) (c off : Nat) : (stageRws s c).reg off = s.reg off := by rw [State.reg, State.reg, regs_stageRws]

theorem reg_recordRefused_other (s : State) {off : Nat} (o : Nat) (b : Busy) (i : Nat) (h : off ∉ RegMap.refusalRegs) :
    (recordRefused s o b i).reg off = s.reg off := by
  simp only [RegMap.refusalRegs, List.mem_cons, List.not_mem_nil, or_false, not_or] at h
  obtain ⟨hcount, hblocks, hlast⟩ := h
  rw [recordRefused, State.reg_setFld_other _ _ _ _ (Ne.symm hlast), State.reg_setFld_other _ _ _ _ (Ne.symm hblocks), State.reg_count_other _ _ (Ne.symm hcount)]

/-- A write of stored fields leaves them as the access codes say; the refusal that it may record is in other registers. -/
theorem reg_storeWrite {s : State} {off : Nat} {d : RegDef} {i j : Nat} (h : RegMap.find off = some (d, i, j)) (k : Nat) (v : Reg) :
    (storeWrite s off d k v).reg off = writeFields d (busyNow s d.busy k) (s.reg off) v := by
  unfold storeWrite
  dsimp only
  have hs : ∀ x : State, (if touchesRws d = true then stageRws x k else x).reg off = x.reg off := by
    intro x
    split
    · exact reg_stageRws x k off
    · rfl
  rw [hs]
  split
  · next hb =>
    rw [reg_recordRefused_other, State.reg_setReg_same]
    intro ho
    rw [RegMap.busy_of_find_refusal h ho] at hb
    simp [busyNow] at hb
  · exact State.reg_setReg_same _ _ _

/-- A register without an effect of its own is stored field by field. -/
theorem regWrite_of_not_ownEffect {s : State} {off : Nat} {v : Reg} {d : RegDef} {i j : Nat} (h : RegMap.find off = some (d, i, j)) (ho : ownEffect d.base = false) :
    regWrite s off v = storeWrite s off d i v := by
  have hne : ∀ n, ownEffect n = true → d.base ≠ n := by
    rintro n hn rfl
    rw [hn] at ho
    cases ho
  rw [regWrite, h]
  dsimp only
  unfold coreWrite
  split
  iterate 13 · exact absurd ‹_› (hne _ rfl)
  split
  iterate 14 · exact absurd ‹_› (hne _ rfl)
  rfl

/-- Settles O26: a register without an effect of its own is stored field by field, and the fields of every register of the map lie apart. -/
theorem fieldsActUnderTheirAccessCodes : Obligations.FieldsActUnderTheirAccessCodes := by
  unfold Obligations.FieldsActUnderTheirAccessCodes
  intro s off v
  refine ⟨regWrite s off v, rfl, ?_, ?_⟩
  · intro h
    rw [regWrite, h]
  · intro d i j h ho f hf
    rw [regWrite_of_not_ownEffect h ho, State.fld, reg_storeWrite h, writeFields_eq_foldl,
      bf_foldl_writeField (RegMap.fieldsApart_of_mem_all (RegMap.mem_all_of_find h)) (fun _ _ => rfl) hf]
    unfold fieldAfter
    cases f.acc <;> rfl

/-! ### Reads of LPDDR5X, scrub and split -/

theorem reg_logUnowned (s : State) (code index addr : Nat) {off : Nat} (h : off ≠ Csr.errLogNext) : (logUnowned s code index addr).reg off = s.reg off :=
  State.reg_setFld_other s 31 0 _ (Ne.symm h)

/-- The newest entry of the error log is the error just logged. -/
theorem errLog_logUnowned_getLast? (s : State) (code index addr : Nat) :
    (logUnowned s code index addr).errLog.getLast? = some ⟨s.fld Csr.errLogNext 31 0, code, 3, 0, 0, 0, index, addr⟩ := by
  simp only [logUnowned, logError, State.setErrLog, List.getLast?_drop, List.length_append, List.length_singleton, List.getLast?_concat]
  rw [if_neg (by omega)]

/-- Putting the channels' transactions in flight changes the cores and the arbiters alone. -/
theorem pumpAll_touches (s : State) : Touch { cores := true, arbs := true } s (pumpAll s) := touch_pumpAll s (.refl _ s) rfl rfl

theorem reg_arbCycle (s : State) (site inst : Nat) {off : Nat} (h : off ∉ [Csr.arbForced site, Csr.arbRevokes site, Csr.arbDead site, Csr.arbQfull site]) :
    (arbCycle s site inst).1.reg off = s.reg off := by
  simp only [List.mem_cons, List.not_mem_nil, or_false, not_or] at h
  obtain ⟨hf, hr, hd, hq⟩ := h
  unfold arbCycle
  dsimp only
  rw [State.reg_count_other _ _ (Ne.symm hq), State.reg_count_other _ _ (Ne.symm hd), State.reg_count_other _ _ (Ne.symm hr), State.reg_count_other _ _ (Ne.symm hf)]
  rfl

/-- A read that finds two flipped bits in a half of its line poisons the line, whether or not it was poisoned before. -/
theorem lpddrRead_two_flips (s : State) (ctrl requester line : Nat) : lpddrRead s ctrl requester line (.line 2 0 false) = linePoisoned s ctrl line := by
  unfold lpddrRead
  split <;> rfl

theorem grantEffect_of_read {s s1 : State} {ctrl : Nat} {x : ArbReq} (err : ReadErr) (h : arbCycle s 3 ctrl = (s1, some x)) (hw : x.write = false) :
    grantEffect s 3 ctrl err = lpddrRead s1 ctrl x.requester x.line err := by
  rw [grantEffect, h]
  simp [hw]

theorem exec_arbGrant_two_flips {s s1 : State} {ctrl : Nat} {x : ArbReq} (hc : ctrl < 12) (h : arbCycle s 3 ctrl = (s1, some x)) (hw : x.write = false) :
    exec (.arbGrant 3 ctrl (.line 2 0 false)) s = .next (pumpAll (linePoisoned s1 ctrl x.line)) := by
  rw [← lpddrRead_two_flips s1 ctrl x.requester x.line, ← grantEffect_of_read _ h hw]
  exact if_pos hc

theorem poison_linePoisoned (s : State) (ctrl line : Nat) : (linePoisoned s ctrl line).poison = Tab.put false s.poison line true := rfl

theorem mem_linePoisoned (s : State) (ctrl line : Nat) : (linePoisoned s ctrl line).mem = s.mem :=
  (touch_linePoisoned (F := { poison := true, regs := true, errLog := true }) s ctrl line (.refl _ s) rfl rfl rfl).mem rfl

theorem reg_linePoisoned_ue (s : State) {ctrl : Nat} (hc : ctrl < 12) (line : Nat) : (linePoisoned s ctrl line).reg (Csr.lpcEccUe ctrl) = s.reg (Csr.lpcEccUe ctrl) + 1 := by
  have hlog : Csr.lpcEccUe ctrl ≠ Csr.errLogNext := by simp only [Csr.lpcEccUe, Csr.errLogNext]; omega
  have hlast : Csr.lpcEccLast ctrl ≠ Csr.lpcEccUe ctrl := by simp only [Csr.lpcEccUe, Csr.lpcEccLast]; omega
  calc (linePoisoned s ctrl line).reg (Csr.lpcEccUe ctrl)
      = (lpcError s ctrl line true).reg (Csr.lpcEccUe ctrl) := reg_logUnowned _ _ _ _ hlog
    _ = (s.count (Csr.lpcEccUe ctrl) 1).reg (Csr.lpcEccUe ctrl) := State.reg_setReg_other _ _ hlast
    _ = s.reg (Csr.lpcEccUe ctrl) + 1 := State.reg_count_same _ _ _

theorem uncorrectableReadPoisonsItsLine : Sys2Proof.Claims.UncorrectableReadPoisonsItsLine := by
  intro s ctrl x s1 hc h hw
  have cycle : Touch { regs := true, arbs := true } s s1 := touch_fst h (touch_arbCycle s 3 ctrl (.refl _ s) rfl rfl)
  have pump := pumpAll_touches (linePoisoned s1 ctrl x.line)
  have hpoison : (pumpAll (linePoisoned s1 ctrl x.line)).poison = Tab.put false s.poison x.line true := by
    rw [pump.poison rfl, poison_linePoisoned, cycle.poison rfl]
  refine ⟨_, exec_arbGrant_two_flips hc h hw, ?_, ?_, ?_, ?_, ?_⟩
  · rw [hpoison, Tab.get_put_same]
  · have hne : Csr.lpcEccUe ctrl ∉ [Csr.arbForced 3, Csr.arbRevokes 3, Csr.arbDead 3, Csr.arbQfull 3] := by
      simp only [Csr.lpcEccUe, Csr.arbForced, Csr.arbRevokes, Csr.arbDead, Csr.arbQfull, List.mem_cons, List.not_mem_nil, or_false]
      omega
    have hcycle : s1.reg (Csr.lpcEccUe ctrl) = s.reg (Csr.lpcEccUe ctrl) := by
      have := reg_arbCycle s 3 ctrl hne
      rwa [h] at this
    rw [State.reg, pump.regs rfl, ← State.reg, reg_linePoisoned_ue s1 hc, hcycle]
  · rw [pump.errLog rfl]
    exact ⟨_, errLog_logUnowned_getLast? _ _ _ _, rfl, rfl⟩
  · intro l hl
    rw [hpoison, Tab.get_put_other _ _ _ _ (Ne.symm hl)]
  · intro a
    rw [pump.mem rfl, mem_linePoisoned, cycle.mem rfl]

theorem scrubPassStart_begins {s : State} {ctrl : Nat} (hc : ctrl < 12) (ht : s.trained = true) (hon : s.fld (Csr.lpcScrub ctrl) 7 0 ≠ 0)
    (hs : ∀ p ∈ s.scrubbing, p.1 ≠ ctrl) : exec (.scrubPassStart ctrl) s = .next (s.setScrubbing (s.scrubbing ++ [(ctrl, 0)])) := by
  have hcond : (s.trained && s.fld (Csr.lpcScrub ctrl) 7 0 != 0 && !s.scrubbing.any (fun p => p.1 == ctrl)) = true := by
    simpa [ht, hon] using fun c k hk hck => hs (c, k) hk hck
  show execScrubPassStart ctrl s = _
  rw [execScrubPassStart, if_pos hc, if_pos hcond]

theorem lpcSplitStore_reg_other (s : State) (ctrl : Nat) (v : Reg) {off : Nat} (h : off ≠ Csr.lpcSplit ctrl) : (lpcSplitStore s ctrl v).reg off = s.reg off := by
  unfold lpcSplitStore
  dsimp only
  split <;> split <;> simp only [State.reg_setFld_other _ _ _ _ (Ne.symm h)]

/-- The state in which a write of 1 to LPC_SPLIT_BAD has cleared it, and one of 0 has not (R354). -/
def badCleared (s : State) (ctrl : Nat) (v : Reg) : State := if bit v 31 then s.setFld (Csr.lpcSplit ctrl) 31 31 0 else s

theorem fld_badCleared_below (s : State) (ctrl : Nat) (v : Reg) {hi : Nat} (lo : Nat) (h : hi < 31) :
    (badCleared s ctrl v).fld (Csr.lpcSplit ctrl) hi lo = s.fld (Csr.lpcSplit ctrl) hi lo := by
  unfold badCleared
  split
  · exact fld_setFld_apart _ _ _ (by omega) (by omega) (.inr h)
  · rfl

theorem fld_badCleared_bad (s : State) (ctrl : Nat) (v : Reg) :
    (badCleared s ctrl v).fld (Csr.lpcSplit ctrl) 31 31 = if bit v 31 then 0 else s.fld (Csr.lpcSplit ctrl) 31 31 := by
  unfold badCleared
  split
  · exact fld_setFld_same _ _ _ (by omega) (by omega)
  · rfl

theorem lpcSplitStore_of_sum {s : State} {ctrl : Nat} {v : Reg} (h : bf v 4 0 + bf v 12 8 + bf v 20 16 = 16) :
    lpcSplitStore s ctrl v = (((badCleared s ctrl v).setFld (Csr.lpcSplit ctrl) 4 0 (bf v 4 0)).setFld (Csr.lpcSplit ctrl) 12 8 (bf v 12 8)).setFld (Csr.lpcSplit ctrl) 20 16 (bf v 20 16) :=
  if_pos h

theorem lpcSplitStore_of_bad_sum {s : State} {ctrl : Nat} {v : Reg} (h : bf v 4 0 + bf v 12 8 + bf v 20 16 ≠ 16) :
    lpcSplitStore s ctrl v = (badCleared s ctrl v).setFld (Csr.lpcSplit ctrl) 31 31 1 :=
  if_neg h

theorem controllerScrubsAndSplits : Sys2Proof.Claims.ControllerScrubsAndSplits := by
  refine ⟨fun s ctrl hc ht hon hs => ⟨_, scrubPassStart_begins hc ht hon hs, rfl⟩, fun s ctrl v hc => ?_⟩
  refine ⟨lpcSplitStore s ctrl v, if_pos hc, fun off ho => lpcSplitStore_reg_other s ctrl v ho, fun h => ?_, fun h => ?_⟩
  · rw [lpcSplitStore_of_sum h]
    refine ⟨?_, ?_, ?_, ?_⟩
    · rw [fld_setFld_apart, fld_setFld_apart, fld_setFld_same, bf_mod] <;> omega
    · rw [fld_setFld_apart, fld_setFld_same, bf_mod] <;> omega
    · rw [fld_setFld_same, bf_mod] <;> omega
    · rw [fld_setFld_apart, fld_setFld_apart, fld_setFld_apart, fld_badCleared_bad] <;> omega
  · rw [lpcSplitStore_of_bad_sum h]
    refine ⟨?_, ?_, ?_, ?_⟩
    · rw [fld_setFld_apart, fld_badCleared_below] <;> omega
    · rw [fld_setFld_apart, fld_badCleared_below] <;> omega
    · rw [fld_setFld_apart, fld_badCleared_below] <;> omega
    · rw [fld_setFld_same] <;> omega

/-- Settles O23: the read that finds two flipped bits, and the start of a scrub pass with the writes of the split. -/
theorem controllersReadScrubAndSplit : Obligations.ControllersReadScrubAndSplit :=
  ⟨uncorrectableReadPoisonsItsLine, controllerScrubsAndSplits⟩

/-! ### The state after reset -/

theorem tray_reset {t : Nat} (h : t < 32) : State.reset.tray t = Tray.reset t := by
  simp [State.tray, State.reset, Vec.get, h]

theorem reg_reset (off : Nat) : State.reset.reg off = RegMap.resetOf off := rfl

/-- Every domain is off at reset but the Hearth's, 122; those of fused-off arrays are so for good. -/
theorem domState_reset {d : Nat} (h : d < 125) :
    domState State.reset d = if d = 122 then .on else if fusedDomain 0xFF d then .fusedOff else .off := by
  simp [domState, State.reset, Power.reset, Vec.get, h]

theorem domState_reset_on_iff {d : Nat} (h : d < 125) : domState State.reset d = .on ↔ d = 122 := by
  rw [domState_reset h]
  split
  · next h122 => simp [h122]
  · next h122 => split <;> simp [h122]

theorem canonical_reset : State.reset.Canonical := ⟨rfl, rfl, rfl, rfl⟩

theorem fusedStayOff_reset : FusedStayOff State.reset := by
  intro d hd hf
  have hne : d ≠ 122 := by
    rintro rfl
    cases hf
  refine ⟨?_, List.forall_mem_nil _, List.not_mem_nil⟩
  rw [domState_reset hd, if_neg hne]
  exact if_pos hf

/-- Settles O57, each part by what reset gives it. -/
theorem resetIsAsTheRulesLeaveIt : Obligations.ResetIsAsTheRulesLeaveIt := by
  unfold Obligations.ResetIsAsTheRulesLeaveIt
  refine ⟨rfl, fun t ht => ?_, reg_reset, fun _ => rfl, rfl, rfl, fun d hd => domState_reset_on_iff hd, rfl, rfl, rfl, canonical_reset, fusedStayOff_reset⟩
  rw [tray_reset ht]
  exact ⟨rfl, rfl⟩

end Sys2Proof.Machine
end

section
/-! PROOFS. The Sieve: a plane is built, a step becomes current and its work is workDealt out; an accumulator slot closes, drains and spills.
Which step's plane is built next, and the cycles that pass inside these commands, are the model's choice (log entry 50), and so are its slots (log entry 20). -/

namespace Sys2Proof.Machine

open Sys2Proof.Claims

/-! ### What the helpers of the Sieve leave alone -/

/-- What every turn of a fold keeps, the fold keeps. -/
theorem foldl_keeps {α β : Type} {f : State → α → State} {π : State → β} (h : ∀ s x, π (f s x) = π s) (l : List α) (s : State) : π (l.foldl f s) = π s := by
  induction l generalizing s with
  | nil => rfl
  | cons x l ih => exact (ih (f s x)).trans (h s x)

theorem sieve_of_cores {s s' : State} (h : s'.cores = s.cores) (c : Nat) : sieve s' c = sieve s c := by
  rw [sieve, State.core, h]
  rfl

@[simp] theorem sieve_modSieve_same (s : State) {c : Nat} (f : Sieve → Sieve) (h : c < 4) : sieve (s.modSieve c f) c = f (sieve s c) := by
  rw [sieve, State.modSieve, State.core_modCore_same _ _ h]
  rfl

/-- A change of a core's other units leaves every Sieve as it was. -/
theorem sieve_modCore (s : State) (c d : Nat) {f : Core → Core} (h : ∀ k, (f k).sieve = k.sieve) : sieve (s.modCore c f) d = sieve s d := by
  by_cases hd : c = d
  · subst hd
    by_cases hc : c < 4
    · rw [sieve, State.core_modCore_same _ _ hc, h]
      rfl
    · simp [sieve, State.core, Vec.get, hc]
  · rw [sieve, State.core_modCore_other _ _ hd]
    rfl

@[simp] theorem sieve_modProofer (s : State) (c d : Nat) (f : Proofer → Proofer) : sieve (s.modProofer c f) d = sieve s d := sieve_modCore s c d (fun _ => rfl)

@[simp] theorem sieve_setPort (s : State) (c p : Nat) (l : List Arrival) (d : Nat) : sieve (s.setPort c p l) d = sieve s d := sieve_modCore s c d (fun _ => rfl)

@[simp] theorem sieve_modInst (s : State) (t k : Nat) (f : Inst → Inst) (d : Nat) : sieve (s.modInst t k f) d = sieve s d := rfl

@[simp] theorem sieve_modTile (s : State) (t k n : Nat) (f : OTile → OTile) (d : Nat) : sieve (s.modTile t k n f) d = sieve s d := rfl

@[simp] theorem sieve_count (s : State) (off n d : Nat) : sieve (s.count off n) d = sieve s d := rfl

@[simp] theorem sieve_stepEnds (s : State) (t k d : Nat) : sieve (stepEnds s t k) d = sieve s d := rfl

theorem wrote_touches (s : State) (index core place : Nat) : Touch { regs := true, planted := true } s (wrote s index core place) := touch_wrote s index core place (.refl _ s) rfl rfl

@[simp] theorem sieve_wrote (s : State) (index core place d : Nat) : sieve (wrote s index core place) d = sieve s d := sieve_of_cores ((wrote_touches s index core place).cores rfl) d

@[simp] theorem mem_wrote (s : State) (index core place : Nat) : (wrote s index core place).mem = s.mem := (wrote_touches s index core place).mem rfl

@[simp] theorem mem_modSieve (s : State) (c : Nat) (f : Sieve → Sieve) : (s.modSieve c f).mem = s.mem := rfl

@[simp] theorem sieve_tick (s : State) (d : Nat) : sieve s.tick d = sieve s d := rfl

@[simp] theorem sieve_modChannel (s : State) (c ch : Nat) (f : Channel → Channel) (d : Nat) : sieve (s.modChannel c ch f) d = sieve s d := sieve_modProofer s c d _

@[simp] theorem sieve_addRequest (s : State) (t seq ch : Nat) (work : XferWork) (d : Nat) : sieve (addRequest s t seq ch work) d = sieve s d := by
  simp only [addRequest, sieve_tick, sieve_modChannel]

/-- Requests for a stream's blocks change the Proofer alone. -/
theorem sieve_fillSlots (fuel : Nat) (s : State) (c n d : Nat) : sieve (fillSlots fuel s c n) d = sieve s d := by
  induction fuel generalizing s with
  | zero => rfl
  | succ fuel ih =>
    unfold fillSlots
    split
    · rfl
    · dsimp only
      split
      · split
        · rfl
        · rw [ih]
          split <;> simp only [modStream, sieve_modChannel, sieve_modProofer, foldl_keeps (π := (sieve · d)) (fun s p => sieve_addRequest s _ _ _ _ d)]
      · rfl

theorem sieve_pumpStreams (s : State) (c d : Nat) : sieve (pumpStreams s c) d = sieve s d :=
  foldl_keeps (π := (sieve · d)) (fun s n => sieve_fillSlots 8 s c n d) _ s

@[simp] theorem sieve_releaseBlock (s : State) (t k : Nat) (role : Role) (step : PStep) (d : Nat) : sieve (releaseBlock s t k role step) d = sieve s d := by
  simp only [releaseBlock, sieve_pumpStreams, sieve_modProofer]

/-- The end of the current step leaves none current, and drops the planes that no step refers to any more. -/
theorem sieve_sieveStepEnds {s : State} {c : Nat} {x : SieveCur} (hc : c < 4) (h : (sieve s c).cur = some x) :
    sieve (sieveStepEnds s c) c = Sieve.trim { sieve s c with cur := none } := by
  simp only [sieveStepEnds, h, sieve_modSieve_same _ _ hc, sieve_stepEnds, sieve_releaseBlock]

theorem mayRun_of_runs {s : State} {t : Nat} (h : Runs s t) : mayRun s t = true := by
  obtain ⟨hstop, hlive, hpaused⟩ := h
  simp [mayRun, hstop, hlive, hpaused]

/-! ### Reads leave memory as it was -/

theorem mem_larderServe (s : State) (x : ArbReq) : (larderServe s x).mem = s.mem := by
  have leaves : ∀ (s : State) (slice line : Nat) (dirty : Bool), (lineLeaves s slice line dirty).mem = s.mem := fun s _ _ _ =>
    (touch_lineLeaves (F := { poison := true, regs := true, larder := true, arbs := true }) s _ _ _ (.refl _ s) rfl rfl rfl rfl).mem rfl
  unfold larderServe
  dsimp only
  split
  · rfl
  · split
    · rw [leaves]
      split <;> rfl
    · split <;> rfl

theorem mem_pushArb (s : State) (site inst : Nat) (x : ArbReq) : (pushArb s site inst x).mem = s.mem := rfl

theorem mem_larderTouch (s : State) (walker pa n : Nat) (write : Bool) : (larderTouch s walker pa n write).mem = s.mem := by
  unfold larderTouch
  split
  · exact foldl_keeps (π := State.mem) (fun s l => mem_larderServe s _) _ s
  · exact foldl_keeps (π := State.mem) (fun s l => mem_pushArb s _ _ _) _ s
  · rfl

theorem mem_walkTouch (s : State) (walker space va : Nat) : (walkTouch s walker space va).mem = s.mem := by
  unfold walkTouch
  dsimp only
  split
  · exact foldl_keeps (π := State.mem) (fun s a => mem_larderTouch s _ _ _ _) _ s
  · rfl

theorem mem_setTCache (s : State) (walker : Nat) (c : TCache) : (setTCache s walker c).mem = s.mem :=
  (touch_setTCache (F := { cores := true, mmu := true }) s walker c (.refl _ s) rfl rfl).mem rfl

theorem mem_plantEntry (s : State) (walker i : Nat) : (plantEntry s walker i).mem = s.mem :=
  (touch_plantEntry (F := { regs := true, planted := true }) s walker i (.refl _ s) rfl rfl).mem rfl

theorem mem_dropEntry (s : State) (walker i : Nat) : (dropEntry s walker i).mem = s.mem := mem_setTCache _ _ _

theorem mem_noteRead (s : State) (a n : Nat) : (noteRead s a n).mem = s.mem :=
  (touch_noteRead (F := { poison := true, benchPoison := true, regs := true, larder := true, arbs := true, planted := true }) s a n (.refl _ s) rfl rfl rfl rfl rfl rfl).mem rfl

theorem mem_walkAndFill (s : State) (walker space va : Nat) (write : Bool) : (walkAndFill s walker space va write).1.mem = s.mem := by
  have walks : ((walkTouch s walker space va).count Csr.mmuWalks 1).mem = s.mem := mem_walkTouch s walker space va
  unfold walkAndFill
  dsimp only
  split
  · split <;> exact walks
  · split
    · rw [mem_plantEntry, mem_setTCache, walks]
    · exact walks

theorem mem_translate (s : State) (walker space : Nat) (va : Int) (write : Bool) : (translate s walker space va write).1.mem = s.mem := by
  unfold translate
  dsimp only
  split
  · rfl
  · split
    · split
      · rw [mem_walkAndFill, mem_dropEntry]
      · split <;> exact mem_setTCache _ _ _
    · exact mem_walkAndFill _ _ _ _ _

/-- Memory behind a read, when its answer is taken apart. -/
theorem mem_of_answer {α : Type} {m : Tab Byte} {p : State × α} {s1 : State} {r : α} (e : p = (s1, r)) (h : p.1.mem = m) : s1.mem = m := by
  rw [e] at h
  exact h

theorem mem_translateAll (s : State) (walker space : Nat) (write : Bool) (l : List (Int × Nat)) : (translateAll s walker space write l).1.mem = s.mem := by
  induction l generalizing s with
  | nil => rfl
  | cons p l ih =>
    unfold translateAll
    split
    · next e => exact mem_of_answer e (mem_translate _ _ _ _ _)
    · next s0 pa e =>
      have looked : (if write then s0 else noteRead s0 pa p.2).mem = s.mem := by
        have h0 := mem_of_answer e (mem_translate _ _ _ _ _)
        split
        · exact h0
        · rw [mem_noteRead, h0]
      dsimp only
      split
      · exact looked
      · split <;> next e => exact mem_of_answer e ((ih _).trans looked)

theorem mem_readV (s : State) (walker space : Nat) (va : Int) (n : Nat) : (readV s walker space va n).1.mem = s.mem := by
  unfold readV
  split
  · next e => exact mem_of_answer e (mem_translateAll _ _ _ _ _)
  · next e => exact (foldl_keeps (π := State.mem) (fun s p => mem_larderTouch s _ _ _ _) _ _).trans (mem_of_answer e (mem_translateAll _ _ _ _ _))

theorem mem_fetchBytes (s : State) (c space : Nat) (d : Desc) (off n : Nat) : (fetchBytes s c space d off n).1.mem = s.mem := by
  unfold fetchBytes
  split
  · exact mem_noteRead _ _ _
  · exact mem_readV _ _ _ _ _

theorem mem_fetchCrumb (s : State) (c space : Nat) (d : Desc) (r seg : Nat) : (fetchCrumb s c space d r seg).1.mem = s.mem := by
  unfold fetchCrumb
  split
  · next e => exact mem_of_answer e (mem_fetchBytes _ _ _ _ _ _)
  · next e =>
    have entry := mem_of_answer e (mem_fetchBytes _ _ _ _ _ _)
    dsimp only
    split
    · next e => exact mem_of_answer e ((mem_fetchBytes _ _ _ _ _ _).trans entry)
    · next e => exact (mem_fetchBytes _ _ _ _ _ _).trans (mem_of_answer e ((mem_fetchBytes _ _ _ _ _ _).trans entry))

theorem mem_fetchUnit (s : State) (c space : Nat) (d : Desc) (r c0 lim u : Nat) : (fetchUnit s c space d r c0 lim u).1.mem = s.mem := by
  unfold fetchUnit
  split
  · dsimp only
    split <;> next e => exact mem_of_answer e (mem_fetchBytes _ _ _ _ _ _)
  · split
    · exact mem_fetchBytes _ _ _ _ _ _
    · split
      · exact mem_fetchCrumb _ _ _ _ _ _
      · exact mem_fetchBytes _ _ _ _ _ _

theorem mem_fetchUnits (s : State) (c space : Nat) (d : Desc) (r c0 lim : Nat) (us : List Nat) : (fetchUnits s c space d r c0 lim us).1.mem = s.mem := by
  induction us generalizing s with
  | nil => rfl
  | cons u us ih =>
    unfold fetchUnits
    split
    · next e => exact mem_of_answer e (mem_fetchUnit _ _ _ _ _ _ _ _)
    · next e =>
      have first := mem_of_answer e (mem_fetchUnit _ _ _ _ _ _ _ _)
      split <;> next e => exact mem_of_answer e ((ih _).trans first)

theorem mem_rowEls (s : State) (c space : Nat) (d : Desc) (pl : Place) (r c0 cnt lim : Nat) : (rowEls s c space d pl r c0 cnt lim).1.mem = s.mem := by
  unfold rowEls
  dsimp only
  split
  · rfl
  · split
    · exact mem_noteRead _ _ _
    · exact mem_fetchUnits _ _ _ _ _ _ _ _

theorem mem_andThen {α β : Type} {m : Tab Byte} {r : State × Except MemErr α} {f : State → α → State × Except MemErr β} (hr : r.1.mem = m)
    (hf : ∀ s1 x, s1.mem = m → (f s1 x).1.mem = m) : (andThen r f).1.mem = m := by
  unfold andThen
  split
  · exact hr
  · exact hf _ _ hr

theorem mem_rowsOfB (s : State) (t : Nat) (i : Inst) (b : Blk) (place : Option (Option Nat)) (l : List (Nat × Nat)) : (rowsOfB s t i b place l).1.mem = s.mem := by
  induction l generalizing s with
  | nil => rfl
  | cons p l ih =>
    unfold rowsOfB
    exact mem_andThen (mem_rowEls _ _ _ _ _ _ _ _ _) (fun s1 _ row => mem_andThen ((ih s1).trans row) (fun _ _ rest => rest))

/-- Reading a B block changes no byte. -/
theorem mem_blockOfB (s : State) (t : Nat) (i : Inst) (b : Blk) (p : PStep) : (blockOfB s t i b p).1.mem = s.mem := mem_rowsOfB _ _ _ _ _ _

/-! ### A plane is built (R138) -/

/-- Plane slots that a step's plane takes: two for 16-bit values, one for all others (R138). -/
def planeNeed (i : Inst) : Nat := if (i.desc .srcb).fm.bits = 16 then 2 else 1

/-- The plane of a step from the stored rows of its block. -/
def planeFrom (i : Inst) (g : Grid) (key : PlaneKey) (rows : List (List El)) : Plane :=
  { key := key, slots := planeNeed i, rows := (List.range key.cols).map (colOfB (i.desc .srcb) (W.trans i.word) g.kt rows) }

theorem buildPlane_adds {s s1 : State} {c : Nat} {x : Step} {i : Inst} {key : PlaneKey} {rows : List (List El)} (hruns : sieveRuns s c .scatter = true)
    (hx : (sieve s c).queue.find? (lacksPlane s c) = some x) (hi : s.inst x.tray x.seq = some i) (hkey : x.plane = some key)
    (hroom : (sieve s c).planes.foldl (fun a p => a + p.slots) 0 + planeNeed i ≤ 32)
    (hrows : blockOfB s x.tray i (blockB i.word (gridNow s x.tray i) (maskSel s x.tray i) (i.tile x.tile).n x.k) ⟨x.tile, x.k⟩ = (s1, .ok rows)) :
    buildPlane c s = wrote (s1.modSieve c (fun y => { y with planes := y.planes ++ [planeFrom i (gridNow s x.tray i) key rows] })) 3 c x.tray := by
  unfold planeNeed at hroom
  simp only [buildPlane, hruns, hx, hi, hkey, if_neg (Nat.not_lt.mpr hroom), hrows, Bool.not_true]
  rfl

/-! ### A step becomes current (R146) -/

theorem chunks_ne_nil {α : Type} {n : Nat} {l : List α} (h : l ≠ []) : chunks n l ≠ [] := by
  cases l with
  | nil => exact absurd rfl h
  | cons x l => exact List.cons_ne_nil _ _

theorem mem_of_argMin {α : Type} {key : α → Nat} {l : List α} {x : α} (h : argMin key l = some x) : x ∈ l := by
  induction l with
  | nil => cases h
  | cons y l ih =>
    unfold argMin at h
    split at h
    · cases h
      exact List.mem_cons_self
    · next z hz =>
      split at h
      · cases h
        exact List.mem_cons_self
      · exact List.mem_cons_of_mem _ (ih (hz.trans h))

theorem readTray_of_planted_nil {s : State} (h : s.planted = []) (index t word : Nat) : readTray s index t word = s := by
  rw [readTray, readBack, h]
  rfl

theorem exists_mem_zipIdx_of_mem {α : Type} {l : List α} {x : α} (h : x ∈ l) : ∃ n, (x, n) ∈ l.zipIdx := by
  obtain ⟨n, hn⟩ := List.mem_iff_getElem?.mp h
  exact ⟨n, List.mem_zipIdx_iff_getElem?.mpr hn⟩

/-- A row with a stored value gives a step on the scatter path work. -/
theorem scatterItems_ne_nil {seg : Nat} {rows : List (Except Nat (List El))} {l : List El} (hl : .ok l ∈ rows) (hs : l.any El.stored = true) :
    scatterItems seg rows ≠ [] := by
  unfold scatterItems
  dsimp only
  split
  · obtain ⟨e, he, hstored⟩ := List.any_eq_true.mp hs
    obtain ⟨m, hm⟩ := exists_mem_zipIdx_of_mem hl
    obtain ⟨k, hk⟩ := exists_mem_zipIdx_of_mem he
    have value : (m, k) ∈ (l.zipIdx.filter (fun e => e.1.stored)).map (fun e => (m, e.2)) :=
      List.mem_map.mpr ⟨(e, k), List.mem_filter.mpr ⟨hk, hstored⟩, rfl⟩
    exact fun h => chunks_ne_nil (List.ne_nil_of_mem (List.mem_flatMap.mpr ⟨_, hm, value⟩)) (List.map_eq_nil_iff.mp h)
  · exact List.append_ne_nil_of_right_ne_nil _ (List.cons_ne_nil _ _)

/-- A row with a stored value gives a step on the intersect path work. -/
theorem intersectItems_ne_nil {rows : List (Except Nat (List El))} {l : List El} (hl : .ok l ∈ rows) (hs : l.any El.stored = true) : intersectItems rows ≠ [] := by
  obtain ⟨m, hm⟩ := exists_mem_zipIdx_of_mem hl
  exact List.ne_nil_of_mem (a := .row m) (List.mem_filterMap.mpr ⟨_, hm, if_pos hs⟩)

/-- A product step whose rows hold a stored value becomes current with work to deal out. -/
theorem sieve_productStep {s s1 : State} {c j : Nat} {x : Step} {i : Inst} {pl : Plane} {rows : List (Except Nat (List El))} {seen : Nat} {l : List El} (hc : c < 4)
    (hrows : sieveRows s x.tray i (gridNow s x.tray i) (maskSel s x.tray i) ⟨x.tile, x.k⟩ (List.range (rowsOfStep i (gridNow s x.tray i) x.tile)) = (s1, .ok (rows, seen)))
    (hp : s1.planted = []) (hl : .ok l ∈ rows) (hs : l.any El.stored = true) :
    ∃ y, sieve (productStep s c x i pl j) c = { sieve s1 c with cur := some y } ∧ y.slot = j ∧ y.step.tray = x.tray ∧ y.step.seq = x.seq ∧ y.step.tile = x.tile ∧
      y.step.k = x.k ∧ y.items ≠ [] := by
  have sound : ∀ f g, ((s1.modInst x.tray x.seq f).modSieve c g).planted = [] := fun _ _ => hp
  simp only [productStep, hrows]
  rw [readTray_of_planted_nil (sound _ _), readTray_of_planted_nil (sound _ _), sieve_modSieve_same _ _ hc, sieve_modInst]
  refine ⟨_, rfl, rfl, rfl, rfl, rfl, rfl, ?_⟩
  dsimp only
  split
  · exact scatterItems_ne_nil hl hs
  · exact intersectItems_ne_nil hl hs

/-- The state in which a step has left the queue, before its rows are read. -/
def stepTaken (s : State) (c : Nat) (x : Step) : State := (s.modSieve c (fun v => { v with queue := v.queue.filter (fun z => z.ord != x.ord), lastTray := x.tray })).tick

theorem nextCurrent_product {s s1 : State} {c j : Nat} {x : Step} {i : Inst} {pl : Plane} (hcur : (sieve s c).cur = none) (hx : nextSieveStep s c = some x)
    (hruns : sieveRuns s c x.kind = true) (hi : s.inst x.tray x.seq = some i) (hkind : x.kind.product = true) (hslot : takeSlot s c x i = some (s1, j))
    (hpl : planeOf (sieve s c) x = some pl) (hwork : ((sieve (productStep (stepTaken s1 c x) c x i pl j) c).cur).any (fun y => y.items.isEmpty) = false) :
    nextCurrent c s = productStep (stepTaken s1 c x) c x i pl j := by
  unfold stepTaken at hwork ⊢
  simp only [nextCurrent, sieveBoundary, hcur, hx, hruns, hi, hkind, hslot, hpl, hwork, Option.isNone_none, Bool.not_true, Bool.false_eq_true, if_false, if_true]

/-! ### A group takes work (R145) -/

theorem sieveUntil_of_ends {c : Nat} {ends : Sieve → Bool} {s : State} (h : ends (sieve s c) = true) (fuel : Nat) : sieveUntil c ends fuel s = s := by
  cases fuel with
  | zero => rfl
  | succ fuel => rw [sieveUntil, if_pos h]

/-- The Sieve's cycles change no byte of memory. -/
theorem mem_sieveUntil (c : Nat) (ends : Sieve → Bool) (fuel : Nat) (s : State) : (sieveUntil c ends fuel s).mem = s.mem :=
  (touch_sieveUntil (F := { regs := true, trays := true, queues := true, cores := true, mmu := true, arbs := true, errLog := true, staon := true }) c ends
    rfl rfl rfl rfl rfl rfl rfl rfl fuel s (.refl _ s)).mem rfl

/-- The Sieve as a group has taken an item's work, which leaves the current step the items `rest`. -/
def workDealt (group : Nat) (work : List GroupCycle) (x : SieveCur) (rest : List SItem) (v : Sieve) : Sieve := { giveWork group work v with cur := some { x with items := rest } }

theorem takeWork_deals {s0 s : State} {c group wait : Nat} {x : SieveCur} {i : Inst} {a : AccSlot} {pl : Plane} {it : SItem} {rest : List SItem}
    (hnear0 : groupNears group (sieve s0 c) = true) (hs : sieveUntil c (fun _ => false) wait s0 = s) (hcur : (sieve s c).cur = some x)
    (hnear : groupNears group (sieve s c) = true) (hruns : sieveRuns s c .scatter = true) (hrun : mayRun s x.step.tray = true) (hitems : x.items = it :: rest)
    (hsound : SItem.sound it = true) (hi : s.inst x.step.tray x.step.seq = some i) (ha : Vec.get (sieve s c).slots x.slot none = some a)
    (hpl : planeOf (sieve s c) x.step = some pl) :
    takeWork c group wait s0 =
      let s1 := s.modSieve c (workDealt group (itemCycles a.path (i.desc .srca) (i.desc .srcb) x.step a.comp x.slot x.aRows pl.rows it) x rest)
      if rest.isEmpty then sieveStepEnds s1 c else wrote s1 3 c x.step.tray := by
  unfold takeWork
  simp only [sieveUntil_of_ends hnear0, hs, hcur, hruns, hrun, hnear, hitems, hi, ha, hpl]
  cases it with
  | bad m code => cases hsound
  | row m => rfl
  | seg vals => rfl

theorem sieve_after_deal {s : State} {c group : Nat} {work : List GroupCycle} {x : SieveCur} {rest : List SItem} (hc : c < 4) (t : Nat) :
    let s1 := s.modSieve c (workDealt group work x rest)
    let s' := if rest.isEmpty then sieveStepEnds s1 c else wrote s1 3 c t
    (sieve s' c).cur = (if rest = [] then none else some { x with items := rest }) ∧ (sieve s' c).groups = (giveWork group work (sieve s c)).groups := by
  intro s1
  have h1 : sieve s1 c = workDealt group work x rest (sieve s c) := sieve_modSieve_same _ _ hc
  cases rest with
  | nil =>
    have h2 : sieve (sieveStepEnds s1 c) c = Sieve.trim { sieve s1 c with cur := none } := sieve_sieveStepEnds hc (by rw [h1]; rfl)
    show (sieve (sieveStepEnds s1 c) c).cur = none ∧ (sieve (sieveStepEnds s1 c) c).groups = _
    rw [h2, h1]
    exact ⟨rfl, rfl⟩
  | cons it rest =>
    show (sieve (wrote s1 3 c t) c).cur = _ ∧ (sieve (wrote s1 3 c t) c).groups = _
    rw [sieve_wrote, h1]
    exact ⟨rfl, rfl⟩

/-- PLANE_READY, SIEVE_STEP_CURRENT and GROUP_TAKE_WORK. -/
theorem sieveTakesItsWork : Sys2Proof.Claims.SieveTakesItsWork := by
  refine ⟨?plane, ?current, ?work⟩
  case plane =>
    intro s s1 c x i key rows hc hruns hx hi hkey need hroom hrows
    refine ⟨buildPlane c s, planeFrom i (gridNow s x.tray i) key rows, if_pos hc, ?_, rfl, rfl, ?_, fun b => ?_⟩
    · rw [buildPlane_adds hruns hx hi hkey hroom hrows, sieve_wrote, sieve_modSieve_same _ _ hc, List.getLast?_concat]
    · simp [planeFrom]
    · rw [buildPlane_adds hruns hx hi hkey hroom hrows, mem_wrote, mem_modSieve, mem_of_answer hrows (mem_blockOfB _ _ _ _ _)]
  case current =>
    intro s s1 s2 c j x i pl rows seen l hc _ hcur hx hruns hi hkind hslot hpl s0 hrows hplanted hl hstored
    obtain ⟨y, hv, hj, htray, hseq, htile, hk, hitems⟩ := sieve_productStep (s := s0) (pl := pl) (j := j) hc hrows hplanted hl hstored
    have hnext : nextCurrent c s = productStep s0 c x i pl j := by
      refine nextCurrent_product hcur hx hruns hi hkind hslot hpl ?_
      show ((sieve (productStep s0 c x i pl j) c).cur).any _ = false
      rw [hv]
      simpa using hitems
    refine ⟨nextCurrent c s, y, if_pos hc, ?_, hj, htray, hseq, htile, hk, hitems, ?_⟩ <;> rw [hnext, hv]
  case work =>
    intro s0 c group wait x i a pl it rest hc hgroup hnear0 s hcur hnear hruns hrun _ hitems hsound hi ha hpl work
    have hdeal := takeWork_deals hnear0 rfl hcur hnear hruns (mayRun_of_runs hrun) hitems hsound hi ha hpl
    obtain ⟨hcur', hgroups⟩ := sieve_after_deal (s := s) (group := group) (work := work) (x := x) (rest := rest) hc x.step.tray
    refine ⟨takeWork c group wait s0, (if_neg (Nat.not_le.mpr hgroup)).trans (if_pos hc), ?_, fun _ => ?_, fun hrest b => ?_⟩
    · rw [hdeal]
      exact hcur'
    · rw [hdeal]
      exact hgroups
    · rw [hdeal]
      dsimp only
      rw [if_neg (by simpa using hrest), mem_wrote, mem_modSieve, mem_sieveUntil]

/-! ### Slots close, drain and spill (R147, R151, R153) -/

theorem lt_of_get_eq_some {α : Type} {n j : Nat} {v : Vector (Option α) n} {a : α} (h : Vec.get v j none = some a) : j < n := by
  refine Decidable.byContradiction (fun hj => ?_)
  rw [Vec.get, dif_neg hj] at h
  cases h

theorem settleSlot_of_quiet {s : State} {c slot : Nat} (h : slotQuiet slot (sieve s c) = true) : settleSlot c slot s = s := sieveUntil_of_ends h _

theorem sieve_beginDrain (s : State) {c : Nat} (slot : Nat) (a : AccSlot) (hc : c < 4) :
    sieve (beginDrain s c slot a) c =
      { sieve s c with slots := Vec.put (sieve s c).slots slot (some { a with closed := true }), closed := (sieve s c).closed ++ [slot] } := by
  rw [beginDrain, sieve_modTile, sieve_modSieve_same _ _ hc]

theorem closeSlot_closes {s : State} {c slot : Nat} {a : AccSlot} (ha : Vec.get (sieve s c).slots slot none = some a) (hopen : a.closed = false)
    (hquiet : slotQuiet slot (sieve s c) = true) (hended : slotEnded s c a = true) (hrun : mayRun s a.tray = true) : closeSlot c slot s = beginDrain s c slot a := by
  simp only [closeSlot, settleSlot_of_quiet hquiet, ha, hopen, hended, hquiet, hrun]
  rfl

@[simp] theorem port_modSieve (s : State) (c : Nat) (f : Sieve → Sieve) (p : Nat) (hc : c < 4) : (s.modSieve c f).port c p = s.port c p := by
  rw [State.port, State.modSieve, State.core_modCore_same _ _ hc]
  rfl

theorem port_setPort_same (s : State) {c p : Nat} (l : List Arrival) (hc : c < 4) (hp : p < 4) : (s.setPort c p l).port c p = l := by
  rw [State.port, State.setPort, State.modPeel, State.core_modCore_same _ _ hc]
  exact Vec.get_put_same _ _ _ hp

theorem port_wrote (s : State) (index core place c p : Nat) : (wrote s index core place).port c p = s.port c p := by
  rw [State.port, State.core, (wrote_touches s index core place).cores rfl]
  rfl

/-- What the drain of a slot sends to port 2: its next four rows. -/
def drainArrival (a : AccSlot) : Arrival :=
  { tray := a.tray, seq := a.seq, tile := a.tile, row := a.drained, rows := (a.rows.drop a.drained).take 4, fromSieve := true, flags := if a.drained = 0 then a.flags else .none }

/-- The Sieve behind a drain of slot `j`: the slot is free after its last rows, and else stands with four more rows clear. -/
def slotDrained (j : Nat) (rest : List Nat) (a : AccSlot) (v : Sieve) : Sieve :=
  if a.rows.length ≤ a.drained + 4 then { v with slots := Vec.put v.slots j none, closed := rest }
  else { v with slots := Vec.put v.slots j (some { a with drained := a.drained + 4, rows := drainSlot.clearRows a.drained a.rows }) }

theorem slotDrained_of_last {j : Nat} {rest : List Nat} {a : AccSlot} (last : a.rows.length ≤ a.drained + 4) :
    slotDrained j rest a = fun v => { v with slots := Vec.put v.slots j none, closed := rest } :=
  funext (fun _ => if_pos last)

theorem slotDrained_of_more {j : Nat} {rest : List Nat} {a : AccSlot} (more : ¬ a.rows.length ≤ a.drained + 4) :
    slotDrained j rest a =
      fun v => { v with slots := Vec.put v.slots j (some { a with drained := a.drained + 4, rows := drainSlot.clearRows a.drained a.rows }) } :=
  funext (fun _ => if_neg more)

theorem drainSlot_drains {s s1 : State} {c j : Nat} {rest : List Nat} {a : AccSlot} (hs : sieveCycle c (drainLanes s c) s = s1) (hclosed : (sieve s1 c).closed = j :: rest)
    (ha : Vec.get (sieve s1 c).slots j none = some a) (hon : allOn s1 [coreDom c 4] = true) (hrun : Runs s1 a.tray) (hroom : (s1.port c 2).length < 48) :
    drainSlot c s = (wrote (s1.setPort c 2 (s1.port c 2 ++ [drainArrival a])) 7 c a.tray).modSieve c (slotDrained j rest a) := by
  simp only [drainSlot, hs, hclosed, ha, hon, hrun.1, mayRun_of_runs hrun, decide_eq_false (Nat.not_le.mpr hroom), Option.isSome_none, Bool.not_true, Bool.or_self,
    Bool.false_eq_true, if_false]
  by_cases last : a.rows.length ≤ a.drained + 4
  · simp only [slotDrained_of_last last, if_pos last, drainArrival]
  · simp only [slotDrained_of_more last, if_neg last, drainArrival]

theorem spillVictim_open {s : State} {c j : Nat} {a : AccSlot} (h : spillVictim s c = some (j, a)) : Vec.get (sieve s c).slots j none = some a := by
  obtain ⟨k, _, hk⟩ := List.mem_filterMap.mp (mem_of_argMin h)
  obtain ⟨b, hb, hopen⟩ := Option.bind_eq_some_iff.mp hk
  split at hopen
  · cases hopen
  · cases hopen
    exact hb

theorem spillSlot_spills {s : State} {c j : Nat} {x : Step} {i : Inst} {a : AccSlot} (hx : nextSieveStep s c = some x) (hi : s.inst x.tray x.seq = some i)
    (hcur : (sieve s c).cur = none) (hkind : x.kind.product = true) (hnone : slotOf (sieve s c) x.tray x.seq x.tile = none)
    (hfull : freeSlot (sieve s c) (W.comp i.word) = none) (hj : spillVictim s c = some (j, a)) (hquiet : slotQuiet j (sieve s c) = true) :
    spillSlot c s =
      ((beginDrain s c j a).modTile a.tray a.seq a.tile (fun o => { o with total := o.total.map (fun n => n + 1) })).count (Csr.sveSpillBreaks c) 1 := by
  simp only [spillSlot, sieveBoundary, hx, hi, hcur, hkind, hnone, hfull, hj, settleSlot_of_quiet hquiet, spillVictim_open hj, hquiet]
  rfl

/-- SLOT_CLOSE, SLOT_DRAIN and SIEVE_SLOT_SPILL. -/
theorem slotsCloseDrainAndSpill : Sys2Proof.Claims.SlotsCloseDrainAndSpill := by
  refine ⟨?close, ?drain, ?spill⟩
  case close =>
    intro s c slot a hc hslot ha hopen hquiet hended hrun
    refine ⟨closeSlot c slot s, (if_neg (Nat.not_le.mpr hslot)).trans (if_pos hc), ?_, ?_, fun k _ hk => ?_⟩ <;>
      rw [closeSlot_closes ha hopen hquiet hended (mayRun_of_runs hrun), sieve_beginDrain _ _ _ hc]
    · exact Vec.get_put_same _ _ _ hslot
    · exact Vec.get_put_other _ _ _ (Ne.symm hk)
  case drain =>
    intro s c j rest a hc s1 hclosed ha hon hrun hroom
    have hdrain := drainSlot_drains rfl hclosed ha hon hrun hroom
    have hj := lt_of_get_eq_some ha
    have hv : sieve (drainSlot c s) c = slotDrained j rest a (sieve s1 c) := by
      rw [hdrain, sieve_modSieve_same _ _ hc, sieve_wrote, sieve_setPort]
    refine ⟨drainSlot c s, drainArrival a, if_pos hc, ?_, rfl, rfl, rfl, rfl, rfl, rfl, ?_, ?_⟩
    · rw [hdrain, port_modSieve _ _ _ _ hc, port_wrote, port_setPort_same _ _ hc (by decide)]
    · rw [hv, slotDrained]
      split <;> exact Vec.get_put_same _ _ _ hj
    · rw [hv, slotDrained]
      split
      · rfl
      · exact hclosed
  case spill =>
    intro s c j x i a hc hx hi hcur hkind hnone hfull hvictim hquiet
    have hspill := spillSlot_spills hx hi hcur hkind hnone hfull hvictim hquiet
    refine ⟨spillSlot c s, if_pos hc, ?_, ?_, ?_⟩
    · rw [hspill, sieve_count, sieve_modTile, sieve_beginDrain _ _ _ hc]
    · rw [hspill, sieve_count, sieve_modTile, sieve_beginDrain _ _ _ hc]
      exact Vec.get_put_same _ _ _ (lt_of_get_eq_some (spillVictim_open hvictim))
    · rw [hspill, State.reg_count_same]
      rfl

/-- Settles O30: the commands that give the Sieve its work, and those that empty its accumulator slots. -/
theorem sieveWorksAndItsSlotsDrain : Obligations.SieveWorksAndItsSlotsDrain := ⟨sieveTakesItsWork, slotsCloseDrainAndSpill⟩

end Sys2Proof.Machine
end

section
/-! PROOFS. The Levain: the first row of a LEV.PRED takes a bitmap, and a row that is not the last adds the neurons that it predicts active. This half of O31 holds. -/

namespace Sys2Proof.Machine

open Sys2Proof.Claims

/-! ### An instruction in flight, changed -/

theorem find?_modFirst {l : List Inst} {k : Nat} {i : Inst} {f : Inst → Inst} (h : l.find? (fun j => j.seq == k) = some i) (hf : ∀ j, (f j).seq = j.seq) :
    (modFirst (fun j => j.seq == k) f l).find? (fun j => j.seq == k) = some (f i) := by
  induction l with
  | nil => cases h
  | cons j l ih =>
    by_cases hj : (j.seq == k) = true
    · have : j = i := by simpa [hj] using h
      simp [modFirst, hf, ← this, hj]
    · simp only [modFirst, hj, List.find?_cons, Bool.false_eq_true, if_false] at h ⊢
      exact ih h

theorem inst_modInst_same {s : State} {t k : Nat} {i : Inst} {f : Inst → Inst} (ht : t < 32) (h : s.inst t k = some i) (hf : ∀ j, (f j).seq = j.seq) :
    (s.modInst t k f).inst t k = some (f i) := by
  rw [State.inst, State.modInst, State.tray_modTray_same _ _ ht]
  exact find?_modFirst h hf

theorem seq_of_inst {s : State} {t k : Nat} {i : Inst} (h : s.inst t k = some i) : i.seq = k := by simpa using List.find?_some h

theorem inst_of_trays {s s' : State} (h : s'.trays = s.trays) (t k : Nat) : s'.inst t k = s.inst t k := by
  rw [State.inst, State.tray, h]
  rfl

theorem lt_of_coreOf {t : Nat} (h : coreOf t < 4) : t < 32 := by
  unfold coreOf at h
  omega

/-! ### Rows of LEV.PRED (R170, R185, R186) -/

/-- The state in which a row of LEV.PRED is worked: with a bitmap for its instruction. -/
def withBitmap (s : State) (x : Step) (i : Inst) : State := if (predMap s x.tray x.seq).isSome then s else takeBitmap s x.tray i

theorem withBitmap_trays (s : State) (x : Step) (i : Inst) : (withBitmap s x i).trays = s.trays := by
  unfold withBitmap
  split <;> rfl

theorem withBitmap_planted (s : State) (x : Step) (i : Inst) : (withBitmap s x i).planted = s.planted := by
  unfold withBitmap
  split <;> rfl

theorem mayRun_withBitmap (s : State) (x : Step) (i : Inst) (t : Nat) : mayRun (withBitmap s x i) t = mayRun s t := by
  unfold withBitmap
  split <;> rfl

theorem core_modInst (s : State) (t k : Nat) (f : Inst → Inst) (c : Nat) : (s.modInst t k f).core c = s.core c := rfl

theorem core_tick (s : State) (c : Nat) : s.tick.core c = s.core c := rfl

/-- A LEV.PRED takes a bitmap of its own, that is not yet ready. -/
theorem levain_takeBitmap (s : State) {t : Nat} (i : Inst) (ht : coreOf t < 4) : ∃ m : LevMap, m.tray = t ∧ m.seq = i.seq ∧ m.layer = bf i.word 151 144 ∧ m.neurons = W.m i.word ∧
    m.ready = false ∧ ((takeBitmap s t i).core (coreOf t)).levain = { (s.core (coreOf t)).levain with maps := (s.core (coreOf t)).levain.maps ++ [m] } :=
  ⟨_, rfl, rfl, rfl, rfl, rfl, by rw [takeBitmap, core_tick, State.modLevain, State.core_modCore_same _ _ ht]⟩

theorem queue_withBitmap (s : State) (x : Step) (i : Inst) (hc : coreOf x.tray < 4) :
    ((withBitmap s x i).core (coreOf x.tray)).levain.queue = (s.core (coreOf x.tray)).levain.queue := by
  unfold withBitmap
  split
  · rfl
  · obtain ⟨m, -, -, -, -, -, hm⟩ := levain_takeBitmap s i hc
    rw [hm]

theorem trays_rowScores (s : State) (t : Nat) (i : Inst) (row : Nat) : (rowScores s t i row).1.trays = s.trays :=
  (touch_rowScores (F := { mem := true, poison := true, benchPoison := true, regs := true, cores := true, mmu := true, larder := true, arbs := true, planted := true })
    s t i row (.refl _ s) rfl rfl rfl rfl rfl rfl rfl rfl rfl).trays rfl

/-- A LEV.PRED after a row that is not its last: the neurons that the row predicts active are added (R170). -/
def rowAdded (x : Step) (i : Inst) (scores : List F32) (j : Inst) : Inst :=
  { j with lev := { j.lev with row := x.k + 1, pred := i.lev.pred ||| predictedBy (BitVec.ofNat 32 (bf i.word 183 152)) scores } }

/-- The Levain after a row of LEV.PRED: the step has left its queue. -/
def rowTaken (x : Step) (v : Levain) : Levain := { v with queue := v.queue.filter (fun z => z.ord != x.ord), lastTray := x.tray }

theorem levainStep_of_more {s s1 : State} {x : Step} {i : Inst} {scores : List F32} (hplanted : s.planted = []) (hrun : mayRun s x.tray = true)
    (hmore : x.k + 1 < i.lev.rows) (hscores : rowScores (withBitmap s x i) x.tray i x.k = (s1, .ok scores)) :
    levainStep s x i = stepEnds ((s1.modInst x.tray x.seq (rowAdded x i scores)).modLevain (coreOf x.tray) (rowTaken x)) x.tray x.seq := by
  have hp := (withBitmap_planted s x i).trans hplanted
  have hread : readTray (readTray (withBitmap s x i) 13 x.tray 0) 6 x.tray 0 = withBitmap s x i := by
    rw [readTray_of_planted_nil hp, readTray_of_planted_nil hp]
  have hmay := (mayRun_withBitmap s x i x.tray).trans hrun
  unfold withBitmap at hread hmay hscores
  simp only [levainStep, hread, hmay, hscores, hmore, Bool.not_true, Bool.false_eq_true, if_false, if_true]
  rfl

/-- The oldest ready step of the Levain runs, if the command is one for it. -/
theorem levainRun_of_next {s : State} {c : Nat} {p : Step → Bool} {x : Step} {i : Inst} (hstop : s.stop = none) (hon : allOn s (engDoms c .levain .predict) = true)
    (hissue : mayIssue s false = true) (hx : argMin (stepOrder (s.core c).levain.lastTray) ((s.core c).levain.queue.filter (levainReady s c)) = some x)
    (hi : s.inst x.tray x.seq = some i) (hp : p x = true) : levainRun c p s = levainStep s x i := by
  simp only [levainRun, hstop, hon, hissue, hx, hi, hp, Option.isSome_none, Bool.not_true, Bool.or_self, Bool.false_eq_true, if_false, if_true]

theorem mayRun_of_levainReady {s : State} {c : Nat} {x : Step} (h : levainReady s c x = true) : mayRun s x.tray = true := by
  simp only [levainReady, mayStep, Bool.and_eq_true] at h
  obtain ⟨⟨⟨hrun, -⟩, -⟩, -⟩ := h
  exact hrun

/-- What a row that is not the last leaves of its instruction and of its core's Levain. -/
theorem row_leaves {s s1 : State} {x : Step} {i : Inst} {scores : List F32} (hc : coreOf x.tray < 4) (hi : s.inst x.tray x.seq = some i)
    (hscores : rowScores (withBitmap s x i) x.tray i x.k = (s1, .ok scores)) (hlev : (s1.core (coreOf x.tray)).levain = ((withBitmap s x i).core (coreOf x.tray)).levain) :
    let s' := stepEnds ((s1.modInst x.tray x.seq (rowAdded x i scores)).modLevain (coreOf x.tray) (rowTaken x)) x.tray x.seq
    s'.inst x.tray x.seq = some { rowAdded x i scores i with running := i.running - 1 } ∧
      (s'.core (coreOf x.tray)).levain = rowTaken x ((withBitmap s x i).core (coreOf x.tray)).levain := by
  have ht := lt_of_coreOf hc
  have hread : s1.trays = (withBitmap s x i).trays := by simpa only [hscores] using trays_rowScores (withBitmap s x i) x.tray i x.k
  have htrays := hread.trans (withBitmap_trays s x i)
  have hadded := inst_modInst_same (f := rowAdded x i scores) ht ((inst_of_trays htrays _ _).trans hi) (fun _ => rfl)
  refine ⟨inst_modInst_same ht hadded (fun _ => rfl), ?_⟩
  rw [← hlev, stepEnds, core_modInst, State.modLevain, State.core_modCore_same _ _ hc]
  rfl

theorem predMap_of_maps {s : State} {t k : Nat} {ms : List LevMap} {m : LevMap} (hmaps : (s.core (coreOf t)).levain.maps = ms ++ [m])
    (hnone : ms.find? (fun m => m.tray == t && m.seq == k) = none) (ht : m.tray = t) (hk : m.seq = k) : predMap s t k = some m := by
  rw [predMap, hmaps, List.find?_append, hnone]
  simp [ht, hk]

theorem exec_levainStepStart {s : State} {c : Nat} (hc : c < 4) : exec (.levainStepStart c) s = .next (levainRun c (fun _ => true) s) := if_pos hc

theorem exec_levBitmapTake {s : State} {c : Nat} (hc : c < 4) : exec (.levBitmapTake c) s = .next (levainRun c (fun x => (predMap s x.tray x.seq).isNone) s) := if_pos hc

/-- LEV_BITMAP_TAKE and LEVAIN_STEP_START. That LEV_BITMAP_TAKE starts the first row as well is the model's reading of R185 (log entry 24). -/
theorem predictionsGatherRowByRow : Sys2Proof.Claims.PredictionsGatherRowByRow := by
  intro s c x i s1 scores hc hstop hon hissue hx hcore hi hplanted hmore s0 hscores hlev after
  subst hcore
  have hrun := mayRun_of_levainReady (List.mem_filter.mp (mem_of_argMin hx)).2
  have hrow := levainStep_of_more hplanted hrun hmore hscores
  obtain ⟨hinst, hlevain⟩ := row_leaves hc hi hscores hlev
  rw [← hrow] at hinst hlevain
  have hafter : after (levainStep s x i) :=
    ⟨_, hinst, rfl, rfl, by rw [hlevain, rowTaken, queue_withBitmap s x i hc]⟩
  refine ⟨⟨levainStep s x i, ?start, hafter⟩, fun hnone => ?take⟩
  case start => rw [exec_levainStepStart hc, levainRun_of_next hstop hon hissue hx hi rfl]
  case take =>
    have hexec : exec (.levBitmapTake (coreOf x.tray)) s = .next (levainStep s x i) := by
      rw [exec_levBitmapTake hc, levainRun_of_next hstop hon hissue hx hi (by rw [hnone]; rfl)]
    obtain ⟨m, hmt, hmk, hlayer, hneurons, hmready, htaken⟩ := levain_takeBitmap s i hc
    have hmaps : ((levainStep s x i).core (coreOf x.tray)).levain.maps = (s.core (coreOf x.tray)).levain.maps ++ [m] := by
      rw [hlevain, rowTaken, withBitmap, hnone, Option.isSome_none, if_neg Bool.false_ne_true, htaken]
    exact ⟨_, m, hexec, hafter, predMap_of_maps hmaps hnone hmt (hmk.trans (seq_of_inst hi)), hlayer, hneurons, hmready, by rw [hmaps, List.length_append]; rfl⟩

end Sys2Proof.Machine
end

section
/-! PROOFS. The vector engine: a row block commits when its tray's part of the operand cache holds no poisoned word; one that meets a poisoned word ends its task and writes
nothing (R572). The statement has no premise on the operand cache, so it fails. -/

namespace Sys2Proof.Machine

open Sys2Proof.Claims

/-! ### A fault ends the task (R86, R566) -/

theorem state_dropEnds (s : State) {t : Nat} (ht : t < 32) : ((dropEnds s t).tray t).state = (s.tray t).state := by
  unfold dropEnds
  dsimp only
  split
  · rfl
  · rw [State.tray_modTray_same _ _ ht]
    rfl

theorem tray_discardTray (s : State) (t : Nat) (ends : Bool) (u : Nat) : (discardTray s t ends).tray u = s.tray u := rfl

theorem tray_logError (s : State) (code scope queue tray index aux addr u : Nat) : (logError s code scope queue tray index aux addr).tray u = s.tray u := rfl

theorem tray_stopQueue (s : State) (q u : Nat) : (stopQueue s q).tray u = s.tray u := rfl

theorem tray_count (s : State) (off n u : Nat) : (s.count off n).tray u = s.tray u := rfl

theorem state_endTaskLog {s : State} {t : Nat} (ht : t < 32) (hlive : (s.tray t).live = true) (code index pass rowBlk aux addr logAux logAddr : Nat) :
    ((endTaskLog s t code index pass rowBlk aux addr logAux logAddr).tray t).state = .drain := by
  simp only [endTaskLog, hlive, Bool.not_true, Bool.false_eq_true, if_false, tray_logError, tray_count, tray_stopQueue, state_dropEnds _ ht, tray_discardTray,
    State.tray_modTray_same _ _ ht]

theorem state_faultInstLog {s : State} {t k : Nat} {i : Inst} (ht : t < 32) (hlive : (s.tray t).live = true) (hi : s.inst t k = some i) (code aux addr logAux logAddr : Nat) :
    ((faultInstLog s t k code aux addr logAux logAddr).tray t).state = .drain := by
  simp only [faultInstLog, hi, hlive, if_true, State.tray_modTray_same _ _ ht, state_endTaskLog ht hlive]

/-- An uncorrectable error in a word that a tray holds ends the tray's task (R572). -/
theorem state_ownerUe {s : State} {t : Nat} (ht : t < 32) (hlive : (s.tray t).live = true) (code index addr : Nat) :
    ((ownerUe s (some t) code index addr).tray t).state = .drain := by
  simp only [ownerUe, hlive, if_true]
  split
  · next i rest hinsts =>
    have hi : s.inst t i.seq = some i := by simp [State.inst, hinsts]
    exact state_faultInstLog ht hlive hi _ _ _ _ _
  · exact state_endTaskLog ht hlive _ _ _ _ _ _ _ _

theorem mem_ownerUe (s : State) (tray : Option Nat) (code index addr : Nat) : (ownerUe s tray code index addr).mem = s.mem :=
  (touch_ownerUe (F := { regs := true, trays := true, queues := true, cores := true, mmu := true, arbs := true, errLog := true, staon := true })
    s tray code index addr (.refl _ s) rfl rfl rfl rfl rfl rfl rfl rfl).mem rfl

theorem live_of_mayRun {s : State} {t : Nat} (h : mayRun s t = true) : (s.tray t).live = true := by
  simp only [mayRun, Bool.and_eq_true] at h
  obtain ⟨⟨-, hlive⟩, -⟩ := h
  exact hlive

theorem not_mayRun_of_drain {s : State} {t : Nat} (h : (s.tray t).state = .drain) : mayRun s t = false := by
  rw [mayRun, Tray.live, h]
  simp

/-! ### Row blocks of the vector engine -/

/-- A row block whose tray has a poisoned word in the operand cache ends its task and writes nothing (R572). -/
theorem mem_vectorStep_of_poison {s s1 : State} {x : Step} {i j : Inst} (hb : withBcast s x i = (s1, .ok j)) (hplanted : s1.planted = [])
    (hpoison : (s1.core (coreOf x.tray)).vec.poison.contains x.tray = true) (hrun : mayRun s1 x.tray = true) (ht : x.tray < 32) :
    (vectorStep s x i).mem = s1.mem := by
  have hread : readCache (readTray s1 13 x.tray 0) x.tray = ownerUe s1 (some x.tray) FC.engineStateUe 5 0 := by
    rw [readTray_of_planted_nil hplanted, readCache, if_pos hpoison]
  have hended : mayRun (ownerUe s1 (some x.tray) FC.engineStateUe 5 0) x.tray = false :=
    not_mayRun_of_drain (state_ownerUe ht (live_of_mayRun hrun) _ _ _)
  simp only [vectorStep, hb, hread, hended, Bool.not_false, if_true, mem_ownerUe]

theorem mem_releaseBlock (s : State) (t k : Nat) (role : Role) (step : PStep) : (releaseBlock s t k role step).mem = s.mem :=
  (touch_releaseBlock (F := { ord := true, cores := true }) s t k role step (.refl _ s) rfl rfl).mem rfl

/-- The state that the commit of a step's row block leaves, where its rows and its tiles' parts can be read. -/
def rowBlockCommit (s : State) (x : Step) (i : Inst) : Option State :=
  match vectorRows s x i (blockRows (W.m i.word) x.k) with
  | (_, .error _) => none
  | (s1, .ok rows) =>
    match cellTiles s1 x i rows (rowTiles i x.k) with
    | (_, .error _) => none
    | (s2, .ok parts) => some (outRow (countLive (countLanes s2 x i rows) x (rowTiles i x.k) i rows) x.tray x.seq x.k parts)

theorem rowBlockCommit_eq_some {s s' : State} {x : Step} {i : Inst} (h : rowBlockCommit s x i = some s') : ∃ s1 s2 rows parts,
    vectorRows s x i (blockRows (W.m i.word) x.k) = (s1, .ok rows) ∧ cellTiles s1 x i rows (rowTiles i x.k) = (s2, .ok parts) ∧
      s' = outRow (countLive (countLanes s2 x i rows) x (rowTiles i x.k) i rows) x.tray x.seq x.k parts := by
  unfold rowBlockCommit at h
  split at h
  · cases h
  · next s1 rows hrows =>
    split at h
    · cases h
    · next s2 parts hparts => exact ⟨s1, s2, rows, parts, hrows, hparts, (Option.some.inj h).symm⟩

/-- A row block commits when its tray's part of the operand cache holds no poisoned word. -/
theorem mem_vectorStep_of_sound {s s1 s' : State} {x : Step} {i j : Inst} (hb : withBcast s x i = (s1, .ok j)) (hplanted : s1.planted = [])
    (hsound : (s1.core (coreOf x.tray)).vec.poison.contains x.tray = false) (hrun : mayRun s1 x.tray = true) (hred : i.mn ≠ .red) (hcommit : rowBlockCommit s1 x j = some s') :
    (vectorStep s x i).mem = s'.mem := by
  have hread : readCache (readTray s1 13 x.tray 0) x.tray = s1 := by
    rw [readTray_of_planted_nil hplanted, readCache, hsound, if_neg Bool.false_ne_true, readTray_of_planted_nil hplanted]
  obtain ⟨s2, s3, rows, parts, hrows, hparts, rfl⟩ := rowBlockCommit_eq_some hcommit
  simp only [vectorStep, hb, hread, hrun, Bool.not_true, Bool.false_eq_true, if_false, if_neg hred, lineStep, hrows, hparts]
  exact foldl_keeps (π := State.mem) (fun s r => mem_releaseBlock s _ _ r _) _ _

/-- An instruction without broadcast operands puts nothing into the operand cache, so that what is poisoned there stays so. -/
theorem withBcast_of_no_roles {s : State} {x : Step} {i : Inst} (hnew : i.bcast = none) (hroles : bcastRoles i = []) :
    withBcast s x i = ((s.count (Csr.vxeOcSpills (coreOf x.tray)) 0).modInst x.tray x.seq (fun y => { y with bcast := some [] }), .ok { i with bcast := some [] }) := by
  simp only [withBcast, hnew, hroles, bcastLoad, andThen]
  rfl

/-- A step of the vector engine runs when it is the oldest ready one. -/
theorem vectorStart_of_next {s : State} {c : Nat} {x : Step} {i : Inst} (hstop : s.stop = none) (hon : allOn s (engDoms c .vector .vector) = true) (hissue : mayIssue s false = true)
    (hx : argMin (stepOrder (s.core c).vec.lastTray) ((s.core c).vec.queue.filter (vectorReady s c)) = some x) (hi : s.inst x.tray x.seq = some i) :
    vectorStart c s = if x.kind = .loadProgram then loadProgram s x i else vectorStep s x i := by
  simp only [vectorStart, hstop, hon, hissue, hx, hi, Option.isSome_none, Bool.not_true, Bool.or_self, Bool.false_eq_true, if_false]

theorem exec_vectorStepStart {s : State} {c : Nat} (hc : c < 4) : exec (.vectorStepStart c) s = .next (vectorStart c s) := if_pos hc

/-! ### The counterexample -/

/-- A matrix of two rows of one element in the Bench. -/
def column (fmt base : Nat) : Desc := { Desc.none with base := base, fmt := fmt, ndim := 2, bench := true, dims := [1, 2, 0, 0, 0], strides := [8, 0, 0, 0] }

/-- A VXP.EXD of two rows of one column, whose only step is queued. Its mask has a row for each row, so that nothing of it goes into the operand cache. -/
def expandInst : Inst :=
  { newInst (Tray.reset 0) .exd (BitVec.ofNat 256 (0x1403 + 2 ^ 72 + 2 * 2 ^ 96 + 2 ^ 128 + 2 * 2 ^ 204 + 2 ^ 212)) [(.dst, 0, column 0 0x200), (.srca, 1, column 0 0), (.maskd, 2, column 2 0x100)] with
    waitMet := true, released := true, planned := true, running := 1, tiles := [{ OTile.empty with rows := 2, cols := 1, opened := true, done := false }] }
@[inherit_doc expandInst] def expandStep : Step := { tray := 0, seq := 0, kind := .vector, tile := 0, k := 0, cyc := 0, ord := 0 }

/-- Tray 0 of a module with power runs that instruction: the first row of its source holds a one, which its mask keeps. In the tray's part of the operand cache an uncorrectable
error of an earlier task has poisoned a word. -/
def poisonedExpand : State :=
  ({ State.reset with now := 1, mem := [(0x020000000000, 1#8), (0x020000000100, 1#8)], power := { State.reset.power with doms := Vector.replicate 125 .on } }.setTray 0
    { Tray.reset 0 with state := .run, insts := [expandInst], pc := 1, nextSeq := 1 }).modVec 0 (fun v => { v with queue := [expandStep], poison := [0] })

/-- The first byte of the destination. -/
def expandedByte : Nat := 0x020000000200

/-- The state in which the row block comes to run. -/
def expandLoaded : State := (poisonedExpand.count (Csr.vxeOcSpills 0) 0).modInst 0 0 (fun y => { y with bcast := some [] })

theorem expandStep_next : argMin (stepOrder (poisonedExpand.core 0).vec.lastTray) ((poisonedExpand.core 0).vec.queue.filter (vectorReady poisonedExpand 0)) = some expandStep := by
  decide +kernel

theorem withBcast_expand : withBcast poisonedExpand expandStep expandInst = (expandLoaded, .ok { expandInst with bcast := some [] }) :=
  withBcast_of_no_roles rfl (by decide +kernel)

/-- The commit of the row block would write the one. -/
theorem expand_would_write : ∃ s', rowBlockCommit expandLoaded expandStep { expandInst with bcast := some [] } = some s' ∧ Tab.get 0 s'.mem expandedByte = 1#8 := by
  have h : (rowBlockCommit expandLoaded expandStep { expandInst with bcast := some [] }).any (fun s' => decide (Tab.get 0 s'.mem expandedByte = 1#8)) = true := by decide +kernel
  simpa [Option.any_eq_true] using h

/-- The row block ends its task at the poisoned word, and the byte that its commit would have written stays zero. -/
theorem not_vectorStepsRun : ¬ Sys2Proof.Claims.VectorStepsRun := by
  intro h
  obtain ⟨s', hcommit, hafter⟩ := expand_would_write
  obtain ⟨s2, s3, rows, parts, hrows, hparts, rfl⟩ := rowBlockCommit_eq_some hcommit
  have hstop : poisonedExpand.stop = none := rfl
  have hon : allOn poisonedExpand (engDoms 0 .vector .vector) = true := by decide +kernel
  have hissue : mayIssue poisonedExpand false = true := by decide +kernel
  have hi : poisonedExpand.inst expandStep.tray expandStep.seq = some expandInst := by decide +kernel
  have hrun : mayRun expandLoaded expandStep.tray = true := by decide +kernel
  obtain ⟨-, hblock⟩ := h poisonedExpand 0 expandStep expandInst (by decide) hstop hon hissue expandStep_next rfl hi
  obtain ⟨s', hs', -, hmem⟩ := hblock rfl (by decide) _ s2 s3 _ rows parts withBcast_expand rfl hrun hrows hparts
  have hexec : exec (.vectorStepStart 0) poisonedExpand = .next (vectorStep poisonedExpand expandStep expandInst) := by
    rw [exec_vectorStepStart (by decide), vectorStart_of_next hstop hon hissue expandStep_next hi]
    rfl
  cases hexec.symm.trans hs'
  have hkept : (vectorStep poisonedExpand expandStep expandInst).mem = expandLoaded.mem := mem_vectorStep_of_poison withBcast_expand rfl rfl hrun (by decide)
  have hone : Tab.get 0 expandLoaded.mem expandedByte = 1#8 := (congrArg (Tab.get 0 · expandedByte) (hkept.symm.trans hmem)).trans hafter
  exact absurd hone (by decide)

/-- Refutes O31: a row block of the vector engine that meets a poisoned word in the operand cache ends its task instead of committing (R572). -/
theorem not_predictionsAndVectorStepsRun : ¬ Obligations.PredictionsAndVectorStepsRun := fun h => not_vectorStepsRun h.2

end Sys2Proof.Machine
end

section
/-! PROOFS. What a read of an operand and the fills of a stream leave alone, said once for every part of the state that their few writes do not show in. -/

namespace Sys2Proof.Machine

/-! ### What a read keeps (R352, R379, R388, R397, R572) -/

/-- A part of the state in which the writes that a read makes do not show: those to the Larder, to poison and planted errors, to the arbiters, to the translation caches and to
registers from the MMU's block on. -/
structure KeptByReads {β : Type} (π : State → β) : Prop where
  setLarder : ∀ s v, π (s.setLarder v) = π s
  setPoison : ∀ s v, π (s.setPoison v) = π s
  setBenchPoison : ∀ s v, π (s.setBenchPoison v) = π s
  setPlanted : ∀ s v, π (s.setPlanted v) = π s
  setArbs : ∀ s v, π (s.setArbs v) = π s
  setTCache : ∀ s walker v, π (setTCache s walker v) = π s
  setReg : ∀ s off v, 0xE0000 ≤ off → π (s.setReg off v) = π s

/-- A part of the state behind an operation that answers, when its answer is taken apart. -/
theorem fst_of_answer {α β : Type} {π : State → β} {b : β} {p : State × α} {s1 : State} {r : α} (e : p = (s1, r)) (h : π p.1 = b) : π s1 = b := by
  rw [e] at h
  exact h

/-- What both steps of a sequence keep, the sequence keeps. -/
theorem andThen_keeps {α β γ : Type} {π : State → γ} {b : γ} {r : State × Except MemErr α} {f : State → α → State × Except MemErr β} (hr : π r.1 = b)
    (hf : ∀ s1 x, π s1 = b → π (f s1 x).1 = b) : π (andThen r f).1 = b := by
  unfold andThen
  split
  · exact hr
  · exact hf _ _ hr

theorem errEccCe_ge (i : Nat) : 0xE0000 ≤ Csr.errEccCe i := by
  unfold Csr.errEccCe
  omega

theorem errEccUe_ge (i : Nat) : 0xE0000 ≤ Csr.errEccUe i := by
  unfold Csr.errEccUe
  omega

section
variable {β : Type} {π : State → β} (h : KeptByReads π)
include h

theorem KeptByReads.count_eq (s : State) (off n : Nat) (ho : 0xE0000 ≤ off) : π (s.count off n) = π s := h.setReg _ _ _ ho

theorem KeptByReads.pushArb_eq (s : State) (site inst : Nat) (x : ArbReq) : π (pushArb s site inst x) = π s := h.setArbs _ _

theorem KeptByReads.lineLeaves_eq (s : State) (slice line : Nat) (dirty : Bool) : π (lineLeaves s slice line dirty) = π s := by
  unfold lineLeaves
  dsimp only
  split
  · rw [h.pushArb_eq, h.count_eq _ _ _ (by decide), h.setLarder]
  · split
    · rw [h.setPoison, h.setLarder]
    · rw [h.setLarder]

theorem KeptByReads.larderServe_eq (s : State) (x : ArbReq) : π (larderServe s x) = π s := by
  have used : ∀ (s : State) (line w : Nat) (l : LLine), π (lineUsed s line w l) = π s := fun _ _ _ _ => h.setLarder _ _
  have missed : π (lineUsed (s.count Csr.larMisses 1) x.line (larderRoom s x.line) ⟨true, larTag x.line, x.write⟩) = π s := by
    rw [used, h.count_eq _ _ _ (by decide)]
  unfold larderServe
  dsimp only
  split
  · rw [used, h.count_eq _ _ _ (by decide)]
  · split
    · rw [h.lineLeaves_eq]
      split
      · rw [h.pushArb_eq, missed]
      · exact missed
    · split
      · rw [h.pushArb_eq, missed]
      · exact missed

theorem KeptByReads.larderTouch_eq (s : State) (walker pa n : Nat) (write : Bool) : π (larderTouch s walker pa n write) = π s := by
  unfold larderTouch
  split
  · exact foldl_keeps (fun s _ => h.larderServe_eq s _) _ s
  · exact foldl_keeps (fun s _ => h.pushArb_eq s _ _ _) _ s
  · rfl

theorem KeptByReads.readPlanted_eq (s : State) (p : Planted) : π (readPlanted s p) = π s := by
  unfold readPlanted
  dsimp only
  split
  · rw [h.count_eq _ _ _ (errEccCe_ge _), h.setPlanted]
  · split
    · rw [h.setBenchPoison, h.count_eq _ _ _ (errEccUe_ge _), h.setPlanted]
    · split
      · rw [h.lineLeaves_eq, h.setLarder, h.count_eq _ _ _ (errEccCe_ge _), h.setPlanted]
      · rw [h.setPoison, h.count_eq _ _ _ (errEccUe_ge _), h.setPlanted]

theorem KeptByReads.noteRead_eq (s : State) (a n : Nat) : π (noteRead s a n) = π s := by
  unfold noteRead
  split
  · rfl
  · exact foldl_keeps h.readPlanted_eq _ s

theorem KeptByReads.plantEntry_eq (s : State) (walker i : Nat) : π (plantEntry s walker i) = π s := by
  unfold plantEntry
  dsimp only
  split
  · rw [h.setPlanted, State.setFld, h.setReg _ _ _ (by decide)]
  · rfl

theorem KeptByReads.dropEntry_eq (s : State) (walker i : Nat) : π (dropEntry s walker i) = π s := by
  rw [dropEntry, h.setTCache, h.setPlanted, h.count_eq _ _ _ (errEccCe_ge _)]

theorem KeptByReads.walkTouch_eq (s : State) (walker space va : Nat) : π (walkTouch s walker space va) = π s := by
  unfold walkTouch
  dsimp only
  split
  · exact foldl_keeps (fun s _ => h.larderTouch_eq s _ _ _ _) _ s
  · rfl

theorem KeptByReads.walkAndFill_eq (s : State) (walker space va : Nat) (write : Bool) : π (walkAndFill s walker space va write).1 = π s := by
  have walked : π ((walkTouch s walker space va).count Csr.mmuWalks 1) = π s := by rw [h.count_eq _ _ _ (by decide), h.walkTouch_eq]
  unfold walkAndFill
  dsimp only
  split
  · split
    · rw [h.count_eq _ _ _ (by decide), walked]
    · exact walked
  · split
    · rw [h.plantEntry_eq, h.setTCache, walked]
    · exact walked

theorem KeptByReads.translate_eq (s : State) (walker space : Nat) (va : Int) (write : Bool) : π (translate s walker space va write).1 = π s := by
  unfold translate
  dsimp only
  split
  · rfl
  · split
    · split
      · rw [h.walkAndFill_eq, h.dropEntry_eq]
      · split <;> exact h.setTCache _ _ _
    · exact h.walkAndFill_eq _ _ _ _ _

theorem KeptByReads.translateAll_eq (s : State) (walker space : Nat) (write : Bool) (l : List (Int × Nat)) : π (translateAll s walker space write l).1 = π s := by
  induction l generalizing s with
  | nil => rfl
  | cons p l ih =>
    unfold translateAll
    split
    · next e => exact fst_of_answer e (h.translate_eq _ _ _ _ _)
    · next s0 pa e =>
      have looked : π (if write then s0 else noteRead s0 pa p.2) = π s := by
        have found := fst_of_answer e (h.translate_eq _ _ _ _ _)
        split
        · exact found
        · rw [h.noteRead_eq, found]
      dsimp only
      split
      · exact looked
      · split <;> next e => exact fst_of_answer e ((ih _).trans looked)

theorem KeptByReads.readV_eq (s : State) (walker space : Nat) (va : Int) (n : Nat) : π (readV s walker space va n).1 = π s := by
  unfold readV
  split
  · next e => exact fst_of_answer e (h.translateAll_eq _ _ _ _ _)
  · next e => exact (foldl_keeps (fun s _ => h.larderTouch_eq s _ _ _ _) _ _).trans (fst_of_answer e (h.translateAll_eq _ _ _ _ _))

theorem KeptByReads.fetchBytes_eq (s : State) (c space : Nat) (d : Desc) (off n : Nat) : π (fetchBytes s c space d off n).1 = π s := by
  unfold fetchBytes
  split
  · exact h.noteRead_eq _ _ _
  · exact h.readV_eq _ _ _ _ _

theorem KeptByReads.fetchCrumb_eq (s : State) (c space : Nat) (d : Desc) (r seg : Nat) : π (fetchCrumb s c space d r seg).1 = π s := by
  unfold fetchCrumb
  split
  · next e => exact fst_of_answer e (h.fetchBytes_eq _ _ _ _ _ _)
  · next e =>
    have entry := fst_of_answer e (h.fetchBytes_eq _ _ _ _ _ _)
    dsimp only
    split
    · next e => exact fst_of_answer e ((h.fetchBytes_eq _ _ _ _ _ _).trans entry)
    · next e => exact (h.fetchBytes_eq _ _ _ _ _ _).trans (fst_of_answer e ((h.fetchBytes_eq _ _ _ _ _ _).trans entry))

theorem KeptByReads.fetchUnit_eq (s : State) (c space : Nat) (d : Desc) (r c0 lim u : Nat) : π (fetchUnit s c space d r c0 lim u).1 = π s := by
  unfold fetchUnit
  split
  · dsimp only
    split <;> next e => exact fst_of_answer e (h.fetchBytes_eq _ _ _ _ _ _)
  · split
    · exact h.fetchBytes_eq _ _ _ _ _ _
    · split
      · exact h.fetchCrumb_eq _ _ _ _ _ _
      · exact h.fetchBytes_eq _ _ _ _ _ _

theorem KeptByReads.fetchUnits_eq (s : State) (c space : Nat) (d : Desc) (r c0 lim : Nat) (us : List Nat) : π (fetchUnits s c space d r c0 lim us).1 = π s := by
  induction us generalizing s with
  | nil => rfl
  | cons u us ih =>
    unfold fetchUnits
    split
    · next e => exact fst_of_answer e (h.fetchUnit_eq _ _ _ _ _ _ _ _)
    · next e =>
      have first := fst_of_answer e (h.fetchUnit_eq _ _ _ _ _ _ _ _)
      split <;> next e => exact fst_of_answer e ((ih _).trans first)

theorem KeptByReads.rowEls_eq (s : State) (c space : Nat) (d : Desc) (pl : Place) (r c0 cnt lim : Nat) : π (rowEls s c space d pl r c0 cnt lim).1 = π s := by
  unfold rowEls
  dsimp only
  split
  · rfl
  · split
    · exact h.noteRead_eq _ _ _
    · exact h.fetchUnits_eq _ _ _ _ _ _ _ _

theorem KeptByReads.quiet_eq (s s' : State) : π (quiet s s') = π s' := by
  rw [quiet, h.setArbs, h.setReg _ _ _ (by decide), h.setReg _ _ _ (by decide), h.setReg _ _ _ (by decide), h.setLarder]

theorem KeptByReads.rowOfA_eq (s : State) (t : Nat) (i : Inst) (g : Grid) (sel : Option (List Nat)) (p : PStep) (row : Nat) : π (rowOfA s t i g sel p row).1 = π s := by
  unfold rowOfA
  dsimp only
  split
  · refine andThen_keeps ?_ (fun _ _ row => row)
    split
    · exact h.rowEls_eq _ _ _ _ _ _ _ _ _
    · exact (h.quiet_eq _ _).trans (h.rowEls_eq _ _ _ _ _ _ _ _ _)
  · exact andThen_keeps (h.rowEls_eq _ _ _ _ _ _ _ _ _) (fun _ _ row => row)

/-- Reading the rows of a group of A. -/
theorem KeptByReads.groupRowsOfA_eq (s : State) (t : Nat) (i : Inst) (g : Grid) (sel : Option (List Nat)) (p : PStep) (rows : List Nat) :
    π (groupRowsOfA s t i g sel p rows).1 = π s := by
  induction rows generalizing s with
  | nil => rfl
  | cons row rows ih => exact andThen_keeps (h.rowOfA_eq _ _ _ _ _ _ _) (fun s1 _ first => andThen_keeps ((ih s1).trans first) (fun _ _ rest => rest))

end

/-- A part of a core that a change of another of its parts keeps. -/
theorem core_part_modCore {β : Type} (g : Core → β) (s : State) (c d : Nat) {f : Core → Core} (hf : ∀ k, g (f k) = g k) : g ((s.modCore c f).core d) = g (s.core d) := by
  by_cases hd : c = d
  · subst hd
    by_cases hc : c < 4
    · rw [State.core_modCore_same _ _ hc, hf]
    · simp [State.core, Vec.get, hc]
  · rw [State.core_modCore_other _ _ hd]

/-- A read shows in no part of a core but its translation cache. -/
theorem keptByReads_core {β : Type} (g : Core → β) (hg : ∀ (k : Core) (v : TCache), g { k with tcache := v } = g k) (c : Nat) : KeptByReads (fun s => g (s.core c)) where
  setLarder _ _ := rfl
  setPoison _ _ := rfl
  setBenchPoison _ _ := rfl
  setPlanted _ _ := rfl
  setArbs _ _ := rfl
  setReg _ _ _ _ := rfl
  setTCache s walker v := by
    unfold setTCache
    split
    · exact core_part_modCore g s walker c (fun k => hg k v)
    · rfl

theorem keptByReads_array (c a : Nat) : KeptByReads (fun s => s.array c a) := keptByReads_core (fun k => Vec.get k.arrays a MatArray.reset) (fun _ _ => rfl) c

theorem keptByReads_port (c p : Nat) : KeptByReads (fun s => s.port c p) := keptByReads_core (fun k => Vec.get k.peel.ports p []) (fun _ _ => rfl) c

theorem keptByReads_trays : KeptByReads State.trays where
  setLarder _ _ := rfl
  setPoison _ _ := rfl
  setBenchPoison _ _ := rfl
  setPlanted _ _ := rfl
  setArbs _ _ := rfl
  setReg _ _ _ _ := rfl
  setTCache s walker v := by
    unfold setTCache
    split <;> rfl

theorem keptByReads_reg {off : Nat} (ho : off < 0xE0000) : KeptByReads (fun s => s.reg off) where
  setLarder _ _ := rfl
  setPoison _ _ := rfl
  setBenchPoison _ _ := rfl
  setPlanted _ _ := rfl
  setArbs _ _ := rfl
  setReg _ _ _ h := State.reg_setReg_other _ _ (by omega)
  setTCache s walker v := by
    unfold setTCache
    split <;> rfl

/-! ### What the release of a block keeps (R335, R336) -/

/-- A part of the state in which the writes of the stream buffers' fills do not show: those to the Proofer and to the event number. -/
structure KeptByFills {β : Type} (π : State → β) : Prop where
  modProofer : ∀ s c f, π (s.modProofer c f) = π s
  tick : ∀ s, π s.tick = π s

section
variable {β : Type} {π : State → β} (h : KeptByFills π)
include h

theorem KeptByFills.modChannel_eq (s : State) (c ch : Nat) (f : Channel → Channel) : π (s.modChannel c ch f) = π s := h.modProofer _ _ _

theorem KeptByFills.addRequest_eq (s : State) (t seq ch : Nat) (work : XferWork) : π (addRequest s t seq ch work) = π s := by
  rw [addRequest, h.tick, h.modChannel_eq]

theorem KeptByFills.fillSlots_eq (fuel : Nat) (s : State) (c n : Nat) : π (fillSlots fuel s c n) = π s := by
  induction fuel generalizing s with
  | zero => rfl
  | succ fuel ih =>
    have requested : ∀ (l : List Nat) (s : State) (t seq ch : Nat) (work : Nat → XferWork) (f : Stream → Stream),
        π (l.foldl (fun s' p => addRequest s' t seq ch (work p)) (modStream s c n f)) = π s := fun l s t seq ch work f =>
      (foldl_keeps (fun s _ => h.addRequest_eq s _ _ _ _) l _).trans (h.modProofer _ _ _)
    unfold fillSlots
    split
    · rfl
    · dsimp only
      split
      · split
        · rfl
        · rw [ih]
          split
          · exact requested _ _ _ _ _ _ _
          · exact (h.modChannel_eq _ _ _ _).trans (requested _ _ _ _ _ _ _)
      · rfl

theorem KeptByFills.releaseBlock_eq (s : State) (t k : Nat) (role : Role) (step : PStep) : π (releaseBlock s t k role step) = π s :=
  (foldl_keeps (fun s n => h.fillSlots_eq 8 s _ n) _ _).trans ((h.modProofer _ _ _).trans (h.modProofer _ _ _))

end

/-- The fills show in no part of a core but its Proofer. -/
theorem keptByFills_core {β : Type} (g : Core → β) (hg : ∀ (k : Core) (v : Proofer), g { k with proofer := v } = g k) (c : Nat) : KeptByFills (fun s => g (s.core c)) where
  modProofer s d _ := core_part_modCore g s d c (fun k => hg k _)
  tick _ := rfl

theorem keptByFills_array (c a : Nat) : KeptByFills (fun s => s.array c a) := keptByFills_core (fun k => Vec.get k.arrays a MatArray.reset) (fun _ _ => rfl) c

theorem keptByFills_port (c p : Nat) : KeptByFills (fun s => s.port c p) := keptByFills_core (fun k => Vec.get k.peel.ports p []) (fun _ _ => rfl) c

theorem keptByFills_reg (off : Nat) : KeptByFills (fun s => s.reg off) where
  modProofer _ _ _ := rfl
  tick _ := rfl

end Sys2Proof.Machine
end

section
/-! PROOFS. The matrix arrays: the next weight tile fills the load buffer, the oldest tile that can launches a cube row, and a pass injects its next group.
That the feeder queues fill again behind each injection, and the round by which the oldest groups come first, are the model's choice (log entry 51). -/

namespace Sys2Proof.Machine

open Sys2Proof.Claims

/-! ### An array of a core -/

theorem array_modArray_same (s : State) {c a : Nat} (f : MatArray → MatArray) (hc : c < 4) (ha : a < 2) : (s.modArray c a f).array c a = f (s.array c a) := by
  rw [State.array, State.modArray, State.core_modCore_same _ _ hc]
  exact Vec.get_put_same _ _ _ ha

theorem port_modArray (s : State) (c a d p : Nat) (f : MatArray → MatArray) : (s.modArray c a f).port d p = s.port d p :=
  core_part_modCore (fun k => Vec.get k.peel.ports p []) s c d (fun _ => rfl)

theorem array_wrote (s : State) (index core place c a : Nat) : (wrote s index core place).array c a = s.array c a := by
  rw [State.array, State.core, (wrote_touches s index core place).cores rfl]
  rfl

theorem reg_wrote (s : State) (index core place : Nat) {off : Nat} (h : off ≠ Csr.errInj) : (wrote s index core place).reg off = s.reg off := by
  unfold wrote
  dsimp only
  split
  · exact State.reg_setFld_other _ _ _ _ h.symm
  · rfl

theorem array_stepEnds (s : State) (t k c a : Nat) : (stepEnds s t k).array c a = s.array c a := rfl

theorem array_tick (s : State) (c a : Nat) : s.tick.array c a = s.array c a := rfl

theorem port_tick (s : State) (c p : Nat) : s.tick.port c p = s.port c p := rfl

theorem reg_tick (s : State) (off : Nat) : s.tick.reg off = s.reg off := rfl

theorem reg_modArray (s : State) (c a : Nat) (f : MatArray → MatArray) (off : Nat) : (s.modArray c a f).reg off = s.reg off := rfl

theorem reg_endPass (s : State) (c a u : Nat) (x : Step) (off : Nat) : (endPass s c a u x).reg off = s.reg off := rfl

theorem port_stepEnds (s : State) (t k c p : Nat) : (stepEnds s t k).port c p = s.port c p := rfl

theorem gridNow_modArray (s : State) (c a : Nat) (f : MatArray → MatArray) (t : Nat) (i : Inst) : gridNow (s.modArray c a f) t i = gridNow s t i := by
  have hlevain : ((s.modArray c a f).core (coreOf t)).levain = (s.core (coreOf t)).levain := core_part_modCore (fun k => k.levain) s c _ (fun _ => rfl)
  simp only [gridNow, maskSel, maskMap, hlevain]

theorem gridNow_count (s : State) (off n t : Nat) (i : Inst) : gridNow (s.count off n) t i = gridNow s t i := rfl

/-- An array that is not fused off takes part in an operation (R220). -/
theorem onArray_of_enabled {s : State} {c a : Nat} (hc : c < 4) (ha : a < 2) (hon : arrayEnabled s c a = true) (f : State → State) : onArray c a f s = .next (f s) := by
  rw [onArray, if_neg (Nat.not_le.mpr hc), if_neg (Nat.not_le.mpr ha), if_pos hon]

theorem mxaGroups_lt {c a : Nat} (hc : c < 4) (ha : a < 2) : Csr.mxaGroups c a < 0xB0000 := by
  unfold Csr.mxaGroups
  omega

theorem mxaWloads_lt {c a : Nat} (hc : c < 4) (ha : a < 2) : Csr.mxaWloads c a < 0xB0000 := by
  unfold Csr.mxaWloads
  omega

/-! ### A weight tile fills the load buffer (R200) -/

/-- The tile that a step's block makes in the load buffer. -/
def filledTile (s s1 : State) (x : Step) (i : Inst) (key : WKey) (rows : List (List El)) : WTile :=
  { key := key, ldw := false, sub := if key.pack = 0 then some 0 else none, rows := rows, bytes := fillBytes s x i, launched := 0, swapped := false, lastUse := s1.ord }

/-- The state in which that tile is in the load buffer. -/
def tileFilled (s1 : State) (c a : Nat) (x : Step) (w : WTile) : State :=
  (wrote (s1.modArray c a (fun z => { z with buf := z.buf ++ [w] })) 4 c x.tray).tick.count (Csr.mxaWloads c a) 1

theorem fillTile_fills {s s1 : State} {c a : Nat} {x : Step} {i : Inst} {key : WKey} {rows : List (List El)} (hpower : arrayPowered s c a = true) (hidle : NoIdleLoad s c a)
    (hx : (s.array c a).queue.find? (needsFill s c a) = some x) (hi : s.inst x.tray x.seq = some i) (hkey : queuedKey s x = some key) (hkind : x.kind ≠ .loadWeights)
    (hroom : bufUsed (s.array c a) + fillBytes s x i ≤ 524288) (hrows : blockOfB s x.tray i (loadBlock s x i) ⟨x.tile, x.k⟩ = (s1, .ok rows)) :
    fillTile c a s = releaseBlock (tileFilled s1 c a x (filledTile s s1 x i key rows)) x.tray x.seq .srcb ⟨x.tile, x.k⟩ := by
  have hload : (x.kind == .loadWeights) = false := by simpa using hkind
  have hbuf : ¬ (524288 < bufUsed (s.array c a) + tileBytes (i.desc .srcb) i.structured (loadBlock s x i).rows.length (loadBlock s x i).cols) := Nat.not_lt.mpr hroom
  unfold NoIdleLoad at hidle
  simp only [fillTile, hpower, hidle, hx, hi, hkey, hkind, hbuf, hrows, bne, hload, Bool.not_true, Bool.not_false, Bool.false_eq_true, Bool.true_or, if_false, if_true,
    false_and, or_self]
  rfl

theorem array_tileFilled (s1 : State) {c a : Nat} (x : Step) (w : WTile) (hc : c < 4) (ha : a < 2) :
    (tileFilled s1 c a x w).array c a = { s1.array c a with buf := (s1.array c a).buf ++ [w] } :=
  (array_wrote _ _ _ _ _ _).trans (array_modArray_same _ _ hc ha)

theorem reg_tileFilled (s1 : State) {c a : Nat} (x : Step) (w : WTile) (hc : c < 4) (ha : a < 2) :
    (tileFilled s1 c a x w).reg (Csr.mxaWloads c a) = s1.reg (Csr.mxaWloads c a) + 1 := by
  have apart : Csr.mxaWloads c a ≠ Csr.errInj := Nat.ne_of_lt (Nat.lt_trans (mxaWloads_lt hc ha) (by decide))
  rw [tileFilled, State.reg_count_same]
  exact congrArg (· + 1) (reg_wrote _ _ _ _ apart)

theorem mem_tileFilled (s1 : State) (c a : Nat) (x : Step) (w : WTile) : (tileFilled s1 c a x w).mem = s1.mem := mem_wrote _ _ _ _

/-! ### A tile launches a cube row (R201, R202) -/

theorem lt_of_launchable {y : MatArray} {n : Nat} {w : WTile} (h : launchable y n = some w) : n < y.buf.length := by
  refine Decidable.byContradiction (fun hn => ?_)
  rw [launchable, List.getElem?_eq_none (Nat.not_lt.mp hn)] at h
  cases h

/-- The oldest tile that can launch is the one that the array looks for. -/
theorem find?_launchable {y : MatArray} {n : Nat} {w : WTile} (h : launchable y n = some w) (hfirst : ∀ m < n, launchable y m = none) :
    (List.range y.buf.length).find? (fun m => (launchable y m).isSome) = some n := by
  rw [List.find?_range_eq_some]
  exact ⟨by rw [h]; rfl, List.mem_range.mpr (lt_of_launchable h), fun m hm => by rw [hfirst m hm]; rfl⟩

/-- The load buffer behind the launch of a tile's next cube row. -/
def launchedBuf (y : MatArray) (n : Nat) (w : WTile) : List WTile :=
  if w.swapped && decide (cubeRows w.key.pack ≤ w.launched + 1) then y.buf.eraseIdx n else y.buf.set n { w with launched := w.launched + 1 }

theorem buf_launchRow {s : State} {c a n : Nat} {w : WTile} (hc : c < 4) (ha : a < 2) (hpower : arrayPowered s c a = true) (hstop : s.stop = none)
    (hw : launchable (s.array c a) n = some w) (hfirst : ∀ m < n, launchable (s.array c a) m = none) :
    ((launchRow c a s).array c a).buf = launchedBuf (s.array c a) n w := by
  have hlaunch : launchRow c a s = s.modArray c a (fun z => { z with buf := launchedBuf (s.array c a) n w }) := by
    simp only [launchRow, hpower, hstop, find?_launchable hw hfirst, hw, Option.isSome_none, Bool.not_true, Bool.or_self, Bool.false_eq_true, if_false]
    rfl
  rw [hlaunch, array_modArray_same _ _ hc ha]

/-! ### A fault of an operand's read (R357, R377, R566) -/

theorem tray_addRec (s : State) (r : Rec) (u : Nat) : (addRec s r).tray u = s.tray u := rfl

theorem reg_addRec (s : State) (r : Rec) (off : Nat) : (addRec s r).reg off = s.reg off := rfl

theorem reg_discardTray (s : State) (t : Nat) (ends : Bool) (off : Nat) : (discardTray s t ends).reg off = s.reg off := rfl

theorem reg_modTray (s : State) (t : Nat) (f : Tray → Tray) (off : Nat) : (s.modTray t f).reg off = s.reg off := rfl

theorem not_mayRun_of_not_live {s : State} {t : Nat} (h : (s.tray t).live = false) : mayRun s t = false := by simp [mayRun, h]

theorem not_mayRun_of_paused {s : State} {t : Nat} (h : (s.tray t).state = .paused) : mayRun s t = false := by simp [mayRun, h]

theorem mayRun_faultInstLog {s : State} {t k : Nat} {i : Inst} (ht : t < 32) (hi : s.inst t k = some i) (code aux addr logAux logAddr : Nat) :
    mayRun (faultInstLog s t k code aux addr logAux logAddr) t = false := by
  cases hlive : (s.tray t).live with
  | true => exact not_mayRun_of_drain (state_faultInstLog ht hlive hi _ _ _ _ _)
  | false =>
    have unchanged : faultInstLog s t k code aux addr logAux logAddr = s := by simp [faultInstLog, endTaskLog, hi, hlive]
    rw [unchanged, not_mayRun_of_not_live hlive]

theorem mayRun_pauseTask {s : State} {t : Nat} (ht : t < 32) (index pass rowBlk tag va : Nat) (stat : Bool) :
    mayRun (pauseTask s t index pass rowBlk tag va stat) t = false := by
  cases hlive : (s.tray t).live with
  | false => simp [pauseTask, hlive, not_mayRun_of_not_live]
  | true =>
    by_cases hpaused : (s.tray t).state = .paused
    · simp [pauseTask, hpaused, not_mayRun_of_paused]
    · refine not_mayRun_of_paused ?_
      simp only [pauseTask, hlive, beq_eq_false_iff_ne.mpr hpaused, Bool.not_true, Bool.or_self, Bool.false_eq_true, if_false, tray_count, tray_logError, tray_addRec,
        tray_discardTray, State.tray_modTray_same _ _ ht]

/-- Behind a memory fault of an instruction in flight its tray runs no further. -/
theorem mayRun_memFault {s : State} {t k : Nat} {i : Inst} (ht : t < 32) (hi : s.inst t k = some i) (e : MemErr) : mayRun (memFault s t k e) t = false := by
  have ended := mayRun_faultInstLog ht hi
  simp only [memFault, hi]
  split
  · exact mayRun_pauseTask ht _ _ _ _ _ _
  · split
    · exact ended _ _ _ _ _
    · split
      · exact ended _ _ _ _ _
      · split <;> exact ended _ _ _ _ _

section
variable {off : Nat} (ho : off < 0xB0000)
include ho

theorem reg_logError (s : State) (code scope queue tray index aux addr : Nat) : (logError s code scope queue tray index aux addr).reg off = s.reg off :=
  State.reg_setFld_other s _ _ _ (Nat.ne_of_gt (Nat.lt_trans ho (by decide)))

theorem reg_stopQueue (s : State) (q : Nat) : (stopQueue s q).reg off = s.reg off :=
  State.reg_setFld_other s _ _ _ (by unfold Csr.hqState; omega)

theorem reg_endTaskLog (s : State) (t code index pass rowBlk aux addr logAux logAddr : Nat) :
    (endTaskLog s t code index pass rowBlk aux addr logAux logAddr).reg off = s.reg off := by
  have dropped : ∀ s : State, (dropEnds s t).reg off = s.reg off := fun s => by
    unfold dropEnds
    dsimp only
    split <;> rfl
  unfold endTaskLog
  dsimp only
  split
  · rfl
  · rw [reg_logError ho, State.reg_count_other _ _ (Nat.ne_of_gt (Nat.lt_trans ho (by decide))), reg_stopQueue ho, dropped, reg_discardTray, reg_modTray]

theorem reg_faultInstLog (s : State) (t k code aux addr logAux logAddr : Nat) : (faultInstLog s t k code aux addr logAux logAddr).reg off = s.reg off := by
  unfold faultInstLog
  split
  · dsimp only
    split <;> exact reg_endTaskLog ho _ _ _ _ _ _ _ _ _ _
  · rfl

theorem reg_pauseTask (s : State) (t index pass rowBlk tag va : Nat) (stat : Bool) : (pauseTask s t index pass rowBlk tag va stat).reg off = s.reg off := by
  unfold pauseTask
  dsimp only
  split
  · rfl
  · rw [State.reg_count_other _ _ (by unfold Csr.prfPageMisses; omega), reg_logError ho, reg_addRec, reg_discardTray, reg_modTray]

/-- A memory fault writes no register below those of the Proofer. -/
theorem reg_memFault (s : State) (t k : Nat) (e : MemErr) : (memFault s t k e).reg off = s.reg off := by
  have ended := reg_faultInstLog ho s t k
  unfold memFault
  split
  · rfl
  · split
    · exact reg_pauseTask ho _ _ _ _ _ _ _ _
    · split
      · exact ended _ _ _ _ _
      · split
        · exact ended _ _ _ _ _
        · split <;> exact ended _ _ _ _ _

end

/-! ### The feeder queues fill (R195, R213) -/

/-- A pass with further groups in its feeder queues, 32 at most. -/
def FedFrom (p q : Pass) : Prop := q.step = p.step ∧ q.next = p.next ∧ p.feed <+: q.feed ∧ (p.feed.length ≤ 32 → q.feed.length ≤ 32)

theorem FedFrom.refl (p : Pass) : FedFrom p p := ⟨rfl, rfl, List.prefix_rfl, id⟩

/-- A pass with one more group read. -/
def Pass.withGroup (p : Pass) (g : RowGroup) : Pass := { p with feed := p.feed ++ [g], fed := p.fed + 1 }

theorem FedFrom.of_withGroup {p q : Pass} {g : RowGroup} (hroom : p.feed.length < 32) (h : FedFrom (p.withGroup g) q) : FedFrom p q := by
  obtain ⟨hstep, hnext, hfeed, hlen⟩ := h
  have one : (p.feed ++ [g]).length ≤ 32 := by
    rw [List.length_append]
    exact hroom
  exact ⟨hstep, hnext, (List.prefix_append _ _).trans hfeed, fun _ => hlen one⟩

/-- The state in which a pass has one more group read, and with its last has left its block of A. -/
def groupFed (s : State) (c a u : Nat) (p : Pass) (g : RowGroup) : State :=
  let s2 := s.modArray c a (fun y => { y with pass := Vec.put y.pass u (some (p.withGroup g)) })
  if p.groups ≤ p.fed + 1 then releaseBlock s2 p.step.tray p.step.seq .srca ⟨p.step.tile, p.step.k⟩ else s2

/-- What a fill of the feeder queues can do: nothing, a fault of a row's read, or one more group and the fill of the others. -/
theorem feedPass_succ {s : State} {c a u : Nat} {p : Pass} (hp : Vec.get (s.array c a).pass u none = some p) (fuel : Nat) :
    feedPass c a u (fuel + 1) s = s ∨
    ∃ i s1, s.inst p.step.tray p.step.seq = some i ∧ p.feed.length < 32 ∧ (∀ {β : Type} {π : State → β}, KeptByReads π → π s1 = π s) ∧
      ((∃ e, feedPass c a u (fuel + 1) s = memFault s1 p.step.tray p.step.seq e) ∨ ∃ g, feedPass c a u (fuel + 1) s = feedPass c a u fuel (groupFed s1 c a u p g)) := by
  simp only [feedPass, hp]
  cases hi : s.inst p.step.tray p.step.seq with
  | none => exact .inl rfl
  | some i =>
    dsimp only
    by_cases hfull : 32 ≤ p.feed.length ∨ p.groups ≤ p.fed
    · exact .inl (if_pos hfull)
    · refine .inr ⟨i, ?_⟩
      simp only [if_neg hfull]
      split
      · next s1 e hread => exact ⟨s1, trivial, by omega, fun h => fst_of_answer hread (h.groupRowsOfA_eq _ _ _ _ _ _ _), .inl ⟨e, rfl⟩⟩
      · next s1 g hread => exact ⟨s1, trivial, by omega, fun h => fst_of_answer hread (h.groupRowsOfA_eq _ _ _ _ _ _ _), .inr ⟨g, rfl⟩⟩

theorem feedPass_of_no_pass {s : State} {c a u : Nat} (hp : Vec.get (s.array c a).pass u none = none) (fuel : Nat) : feedPass c a u fuel s = s := by
  cases fuel with
  | zero => rfl
  | succ fuel => simp only [feedPass, hp]

theorem reg_groupFed (s : State) (c a u : Nat) (p : Pass) (g : RowGroup) (off : Nat) : (groupFed s c a u p g).reg off = s.reg off := by
  unfold groupFed
  dsimp only
  split
  · exact (keptByFills_reg off).releaseBlock_eq _ _ _ _ _
  · rfl

theorem port_groupFed (s : State) (c a u : Nat) (p : Pass) (g : RowGroup) (d n : Nat) : (groupFed s c a u p g).port d n = s.port d n := by
  unfold groupFed
  dsimp only
  split
  · exact ((keptByFills_port d n).releaseBlock_eq _ _ _ _ _).trans (port_modArray _ _ _ _ _ _)
  · exact port_modArray _ _ _ _ _ _

/-- The fill of the feeder queues writes no register below those of the Proofer. -/
theorem reg_feedPass (c a u : Nat) {off : Nat} (ho : off < 0xB0000) (fuel : Nat) (s : State) : (feedPass c a u fuel s).reg off = s.reg off := by
  induction fuel generalizing s with
  | zero => rfl
  | succ fuel ih =>
    cases hp : Vec.get (s.array c a).pass u none with
    | none => rw [feedPass_of_no_pass hp]
    | some p =>
      obtain heq | ⟨i, s1, -, -, hkept, ⟨e, heq⟩ | ⟨g, heq⟩⟩ := feedPass_succ hp fuel
      · rw [heq]
      · rw [heq, reg_memFault ho]
        exact hkept (keptByReads_reg (by omega))
      · rw [heq, ih, reg_groupFed]
        exact hkept (keptByReads_reg (by omega))

section
variable {c a u : Nat} (hc : c < 4) (ha : a < 2) (hu : u < 16)
include hc ha hu

theorem pass_groupFed (s : State) (p : Pass) (g : RowGroup) : Vec.get ((groupFed s c a u p g).array c a).pass u none = some (p.withGroup g) := by
  have put : Vec.get ((s.modArray c a (fun y => { y with pass := Vec.put y.pass u (some (p.withGroup g)) })).array c a).pass u none = some (p.withGroup g) := by
    rw [array_modArray_same _ _ hc ha]
    exact Vec.get_put_same _ _ _ hu
  unfold groupFed
  dsimp only
  split
  · rw [(keptByFills_array c a).releaseBlock_eq]
    exact put
  · exact put

/-- Where the tray still runs behind the fill of its pass's feeder queues, no row's read has failed: the Peel's ports are as before, and the pass has further groups at most. -/
theorem feedPass_feeds {p : Pass} {s : State} {fuel : Nat} (ht : p.step.tray < 32) (hp : Vec.get (s.array c a).pass u none = some p)
    (hrun : mayRun (feedPass c a u fuel s) p.step.tray = true) :
    (feedPass c a u fuel s).port c a = s.port c a ∧ ∃ q, Vec.get ((feedPass c a u fuel s).array c a).pass u none = some q ∧ FedFrom p q := by
  induction fuel generalizing s p with
  | zero => exact ⟨rfl, p, hp, .refl p⟩
  | succ fuel ih =>
    obtain heq | ⟨i, s1, hi, hroom, hkept, ⟨e, heq⟩ | ⟨g, heq⟩⟩ := feedPass_succ hp fuel
    · rw [heq]
      exact ⟨rfl, p, hp, .refl p⟩
    · have hi1 : s1.inst p.step.tray p.step.seq = some i := (inst_of_trays (hkept keptByReads_trays) _ _).trans hi
      rw [heq, mayRun_memFault ht hi1] at hrun
      cases hrun
    · rw [heq] at hrun ⊢
      obtain ⟨hport, q, hq, hfed⟩ := ih (p := p.withGroup g) ht (pass_groupFed hc ha hu s1 p g) hrun
      exact ⟨hport.trans ((port_groupFed _ _ _ _ _ _ _ _).trans (hkept (keptByReads_port c a))), q, hq, hfed.of_withGroup hroom⟩

end

/-! ### A group is injected (R196, R215) -/

/-- The state in which a sub-array has its place in the cycle's outputs. -/
def roundTaken (s : State) (c a : Nat) (holes : InjectHoles) (l : List (Nat × Nat)) : State :=
  (s.modArray c a (fun z => { z with cycle := s.now, injected := l })).count (Csr.mxaFeedBubbles c a) holes.bubbles

theorem arrayInject_of_pass {s : State} {c a u : Nat} {p : Pass} {l : List (Nat × Nat)} (holes : InjectHoles) (hpower : arrayPowered s c a = true) (hstop : s.stop = none)
    (hissue : mayIssue s true = true) (hroom : (s.port c a).length < 48) (hp : Vec.get (s.array c a).pass u none = some p)
    (hround : injectRound s (s.array c a) u (p.width * faceOf (s.array c a).pack) p.since = some l) :
    arrayInject c a u holes s = injectGroup (roundTaken s c a holes l) c a u p := by
  simp only [arrayInject, hpower, hstop, hissue, decide_eq_false (Nat.not_le.mpr hroom), hp, hround, Option.isSome_none, Bool.not_true, Bool.or_self, Bool.false_eq_true, if_false]
  rfl

/-- The flags that the injection of a group raises: those of its sums, and with a pass's first group those of its weights. -/
def groupFlags (s : State) (p : Pass) (i : Inst) (group : RowGroup) : Flags :=
  let inside := insideK (gridNow s p.step.tray i) p.step.k
  let fl := (groupSums i (passCols s p i) inside group.rows).2
  if p.next = 0 then fl.or (elFlags (i.desc .srcb) ((passCols s p i).flatMap (fun b => (b.take inside).filter (fun e => !i.structured || e.stored)))) else fl

/-- What a group's injection sends to the array's port of the Peel. -/
def groupArrival (s : State) (p : Pass) (i : Inst) (group : RowGroup) : Arrival :=
  { tray := p.step.tray, seq := p.step.seq, tile := p.step.tile, row := p.next * p.width,
    rows := (groupSums i (passCols s p i) (insideK (gridNow s p.step.tray i) p.step.k) group.rows).1, fromSieve := false, flags := groupFlags s p i group }

/-- The state in which that arrival waits at the port. -/
def groupSent (s : State) (c a : Nat) (p : Pass) (i : Inst) (group : RowGroup) : State :=
  let s2 := (s.count (Csr.mxaGroups c a) 1).modInst p.step.tray p.step.seq (fun y => { y with lev := { y.lev with e := y.lev.e ||| group.seen } })
  wrote (s2.setPort c a (s2.port c a ++ [groupArrival s p i group])) 7 c p.step.tray

/-- A pass behind the injection of the group at the head of its feeder queues. -/
def Pass.behind (p : Pass) (rest : List RowGroup) (since : Nat) : Pass := { p with next := p.next + 1, feed := rest, since := since }

/-- The state in which a pass goes on with the groups behind the one that it has injected. -/
def passGoesOn (s : State) (c a u : Nat) (p : Pass) (rest : List RowGroup) : State :=
  (s.modArray c a (fun y => { y with pass := Vec.put y.pass u (some (p.behind rest s.ord)) })).tick

theorem isEmpty_groupSums {i : Inst} {cols rows : List (List El)} {inside : Nat} (h : rows ≠ []) : (groupSums i cols inside rows).1.isEmpty = false := by
  simpa [groupSums] using h

/-- A group is injected: its sums go to the Peel, and the pass ends or fills its feeder queues again. -/
theorem injectGroup_sends {s : State} {c a u : Nat} {p : Pass} {i : Inst} {group : RowGroup} {rest : List RowGroup} (hi : s.inst p.step.tray p.step.seq = some i)
    (hfeed : p.feed = group :: rest) (hrows : group.rows ≠ []) (hsat : W.satTrap i.word = false) :
    injectGroup s c a u p = if p.groups ≤ p.next + 1 then endPass (groupSent s c a p i group) c a u p.step
      else feedPass c a u 32 (passGoesOn (groupSent s c a p i group) c a u p rest) := by
  simp only [injectGroup, hi, hfeed, hsat, isEmpty_groupSums hrows, Bool.false_eq_true, and_false, if_false]
  rfl

theorem reg_roundTaken (s : State) (c a : Nat) (holes : InjectHoles) (l : List (Nat × Nat)) :
    (roundTaken s c a holes l).reg (Csr.mxaGroups c a) = s.reg (Csr.mxaGroups c a) :=
  State.reg_count_other _ _ (by unfold Csr.mxaFeedBubbles Csr.mxaGroups; omega)

theorem port_endPass (s : State) (c a u : Nat) (x : Step) (d p : Nat) : (endPass s c a u x).port d p = s.port d p := by
  rw [endPass, leaveQueue, port_stepEnds, port_modArray, port_modArray]

theorem port_passGoesOn (s : State) (c a u : Nat) (p : Pass) (rest : List RowGroup) (d n : Nat) : (passGoesOn s c a u p rest).port d n = s.port d n := by
  rw [passGoesOn, port_tick, port_modArray]

theorem reg_passGoesOn (s : State) (c a u : Nat) (p : Pass) (rest : List RowGroup) (off : Nat) : (passGoesOn s c a u p rest).reg off = s.reg off := by
  rw [passGoesOn, reg_tick, reg_modArray]

section
variable {c a u : Nat} (hc : c < 4) (ha : a < 2)
include hc ha

theorem reg_groupSent (s : State) (p : Pass) (i : Inst) (group : RowGroup) :
    (groupSent s c a p i group).reg (Csr.mxaGroups c a) = s.reg (Csr.mxaGroups c a) + 1 :=
  (reg_wrote _ _ _ _ (Nat.ne_of_lt (Nat.lt_trans (mxaGroups_lt hc ha) (by decide)))).trans (State.reg_count_same _ _ _)

theorem port_groupSent (s : State) (p : Pass) (i : Inst) (group : RowGroup) : (groupSent s c a p i group).port c a = s.port c a ++ [groupArrival s p i group] :=
  (port_wrote _ _ _ _ _ _).trans (port_setPort_same _ _ hc (by omega))

theorem pass_endPass (hu : u < 16) (s : State) (x : Step) : Vec.get ((endPass s c a u x).array c a).pass u none = none := by
  rw [endPass, leaveQueue, array_stepEnds, array_modArray_same _ _ hc ha, array_modArray_same _ _ hc ha]
  exact Vec.get_put_same _ _ _ hu

theorem pass_passGoesOn (hu : u < 16) (s : State) (p : Pass) (rest : List RowGroup) :
    Vec.get ((passGoesOn s c a u p rest).array c a).pass u none = some (p.behind rest s.ord) := by
  rw [passGoesOn, array_tick, array_modArray_same _ _ hc ha]
  exact Vec.get_put_same _ _ _ hu

/-- What the injection of a group leaves: MXA_GROUPS advanced; its sums at the port, unless reading a further group has ended the task; the pass over after its last group, and else
with further groups in its feeder queues. -/
theorem injectGroup_leaves (hu : u < 16) {s : State} {p : Pass} {i : Inst} {group : RowGroup} {rest : List RowGroup} (ht : p.step.tray < 32)
    (hi : s.inst p.step.tray p.step.seq = some i) (hfeed : p.feed = group :: rest) (hrows : group.rows ≠ []) (hsat : W.satTrap i.word = false) :
    (injectGroup s c a u p).reg (Csr.mxaGroups c a) = s.reg (Csr.mxaGroups c a) + 1 ∧
      (mayRun (injectGroup s c a u p) p.step.tray = true → ((injectGroup s c a u p).port c a).getLast? = some (groupArrival s p i group)) ∧
      (p.groups ≤ p.next + 1 → Vec.get ((injectGroup s c a u p).array c a).pass u none = none) ∧
      (p.next + 1 < p.groups → mayRun (injectGroup s c a u p) p.step.tray = true →
        ∃ since q, Vec.get ((injectGroup s c a u p).array c a).pass u none = some q ∧ FedFrom (p.behind rest since) q) := by
  have sent : ((groupSent s c a p i group).port c a).getLast? = some (groupArrival s p i group) := by rw [port_groupSent hc ha, List.getLast?_concat]
  rw [injectGroup_sends hi hfeed hrows hsat]
  by_cases last : p.groups ≤ p.next + 1
  · rw [if_pos last, reg_endPass, port_endPass]
    exact ⟨reg_groupSent hc ha _ _ _ _, fun _ => sent, fun _ => pass_endPass hc ha hu _ _, fun more => absurd more (Nat.not_lt.mpr last)⟩
  · rw [if_neg last, reg_feedPass _ _ _ (mxaGroups_lt hc ha), reg_passGoesOn]
    have fed := feedPass_feeds (fuel := 32) hc ha hu (p := p.behind rest _) ht (pass_passGoesOn hc ha hu (groupSent s c a p i group) p rest)
    refine ⟨reg_groupSent hc ha _ _ _ _, fun hrun => ?_, fun h => absurd h last, fun _ hrun => ⟨_, (fed hrun).2⟩⟩
    obtain ⟨hport, -⟩ := fed hrun
    rw [hport, port_passGoesOn, sent]

end

theorem rows_groupArrival_roundTaken (s : State) (c a : Nat) (holes : InjectHoles) (l : List (Nat × Nat)) (p : Pass) (i : Inst) (group : RowGroup) :
    (groupArrival (roundTaken s c a holes l) p i group).rows = (groupArrival s p i group).rows := by
  have hgrid : gridNow (roundTaken s c a holes l) p.step.tray i = gridNow s p.step.tray i := by rw [roundTaken, gridNow_count, gridNow_modArray]
  simp only [groupArrival, passCols, hgrid]

/-- Settles O29: a fill, a launch and an injection, each by what it does to its array, to the Peel and to its counter. -/
theorem arraysFillLaunchAndInject : Obligations.ArraysFillLaunchAndInject := by
  refine ⟨?fill, ?launch, ?inject⟩
  case fill =>
    intro s s1 c a x i key rows hc ha hon hpower hidle hx hi hkey hkind hroom hrows
    have hfill := fillTile_fills hpower hidle hx hi hkey hkind hroom hrows
    refine ⟨fillTile c a s, filledTile s s1 x i key rows, onArray_of_enabled hc ha hon _, ?_, rfl, rfl, rfl, rfl, ?_, fun b => ?_⟩ <;> rw [hfill]
    · rw [(keptByFills_array c a).releaseBlock_eq, array_tileFilled _ _ _ hc ha, List.getLast?_concat]
    · exact ((keptByFills_reg _).releaseBlock_eq _ _ _ _ _).trans (reg_tileFilled _ _ _ hc ha)
    · rw [mem_releaseBlock, mem_tileFilled, mem_of_answer hrows (mem_blockOfB _ _ _ _ _)]
  case launch =>
    intro s c a n w hc ha hon hpower hstop hw hfirst
    refine ⟨launchRow c a s, onArray_of_enabled hc ha hon _, fun hshadow => ?_, fun hswapped hwhole => ?_⟩ <;>
      rw [buf_launchRow hc ha hpower hstop hw hfirst, launchedBuf]
    · rw [hshadow, Bool.false_and, if_neg Bool.false_ne_true]
      exact ⟨List.getElem?_set_self (lt_of_launchable hw), fun m hm => List.getElem?_set_ne hm.symm⟩
    · rw [hswapped, decide_eq_true hwhole, Bool.true_and, if_pos rfl]
  case inject =>
    intro s c a u holes p i group rest l hc ha hu hon hpower hstop hissue hroom hp hfeed hrows hi hsat hround hcore
    have ht : p.step.tray < 32 := lt_of_coreOf (by rw [hcore]; exact hc)
    have hinject := arrayInject_of_pass holes hpower hstop hissue hroom hp hround
    obtain ⟨hreg, hport, hlast, hmore⟩ := injectGroup_leaves hc ha hu (s := roundTaken s c a holes l) ht hi hfeed hrows hsat
    rw [← hinject] at hreg hport hlast hmore
    refine ⟨arrayInject c a u holes s, (if_neg (Nat.not_le.mpr hu)).trans (onArray_of_enabled hc ha hon _), ?_, fun hrun => ?_, hlast, fun hgroups hrun => ?_⟩
    · rw [hreg, reg_roundTaken]
    · exact ⟨_, hport hrun, rfl, rfl, rfl, rfl, rows_groupArrival_roundTaken _ _ _ _ _ _ _ _, rfl⟩
    · obtain ⟨since, q, hq, hstep, hnext, hrest, hlen⟩ := hmore hgroups hrun
      exact ⟨q, hq, hstep, hnext, hrest, hlen⟩

end Sys2Proof.Machine
end

section
/-! PROOFS. The Peel: the first pass to reach a row sets its partial sums, an update block commits, and a snapshot completes. That a snapshot of another tray's slot is a miss,
and that a miss sets PEEL_DBG_VALID too, are the model's choice (log entry 52). -/

namespace Sys2Proof.Machine

open Sys2Proof.Claims

/-! ### What a write into the Bench leaves alone (R322, R581) -/

/-- No word of a structure has flipped bits planted in it. -/
def Unplanted (s : State) (index : Nat) : Prop := ∀ p ∈ s.planted, p.index ≠ index

theorem unplanted_of_nil {s : State} (h : s.planted = []) (index : Nat) : Unplanted s index := fun p hp => by
  rw [h] at hp
  cases hp

theorem readTray_of_unplanted {s : State} {index : Nat} (h : Unplanted s index) (t word : Nat) : readTray s index t word = s := by
  have hnone : s.planted.find? (fun p => p.index == index && p.place == t) = none :=
    List.find?_eq_none.mpr (fun p hp => by simp [h p hp])
  rw [readTray, readBack, hnone]

/-- A state differs from another by writes into memory alone: an injection that waits for the Bench or the Larder's lines may have met one of them. -/
structure MemoryWritten (s s' : State) : Prop where
  trays : s'.trays = s.trays
  cores : s'.cores = s.cores
  reg : ∀ off, off ≠ Csr.errInj → s'.reg off = s.reg off
  unplanted : ∀ index, 1 < index → Unplanted s index → Unplanted s' index

theorem MemoryWritten.trans {s s1 s2 : State} (a : MemoryWritten s s1) (b : MemoryWritten s1 s2) : MemoryWritten s s2 where
  trays := b.trays.trans a.trays
  cores := b.cores.trans a.cores
  reg off h := (b.reg off h).trans (a.reg off h)
  unplanted index h hs := b.unplanted index h (a.unplanted index h hs)

theorem plantAt_touches (s : State) (a n : Nat) : Touch { regs := true, planted := true } s (plantAt s a n) := touch_plantAt s a n (.refl _ s) rfl rfl

/-- Whether a write takes the injection that waits (R581). -/
def plantHit (s : State) (a n : Nat) : Bool :=
  let r := s.reg Csr.errInj
  bit r 63 && n != 0 && (match regionOf s a with
    | .bench c => bf r 3 0 == 0 && bf r 7 6 == c
    | .lpddr | .scratch => bf r 3 0 == 1
    | _ => false)

/-- The planted errors that a write does not overwrite. -/
def plantedKept (s : State) (a n : Nat) : List Planted :=
  if s.planted.isEmpty then [] else s.planted.filter (fun p => decide (1 < p.index) || !(wholeUnits 3 a n).contains p.place)

theorem plantAt_eq (s : State) (a n : Nat) : plantAt s a n = if plantHit s a n then
    (s.setFld Csr.errInj 63 63 0).setPlanted (plantedKept s a n ++ [⟨bf (s.reg Csr.errInj) 3 0, a / 8, bit (s.reg Csr.errInj) 8⟩])
  else s.setPlanted (plantedKept s a n) := rfl

/-- Only the Bench and the Larder's lines take an injection at a write. -/
theorem index_le_of_plantHit {s : State} {a n : Nat} (h : plantHit s a n = true) : bf (s.reg Csr.errInj) 3 0 ≤ 1 := by
  simp only [plantHit, Bool.and_eq_true] at h
  obtain ⟨-, h⟩ := h
  split at h
  · simp only [Bool.and_eq_true, beq_iff_eq] at h
    omega
  · exact Nat.le_of_eq (eq_of_beq h)
  · exact Nat.le_of_eq (eq_of_beq h)
  · cases h

theorem mem_of_mem_plantedKept {s : State} {a n : Nat} {p : Planted} (h : p ∈ plantedKept s a n) : p ∈ s.planted := by
  unfold plantedKept at h
  split at h
  · cases h
  · exact (List.mem_filter.mp h).1

theorem reg_setPlanted (s : State) (l : List Planted) (off : Nat) : (s.setPlanted l).reg off = s.reg off := rfl

theorem reg_plantAt (s : State) (a n : Nat) {off : Nat} (h : off ≠ Csr.errInj) : (plantAt s a n).reg off = s.reg off := by
  rw [plantAt_eq]
  split
  · rw [reg_setPlanted, State.reg_setFld_other _ _ _ _ h.symm]
  · rw [reg_setPlanted]

theorem mem_or_index_le_of_mem_plantAt {s : State} {a n : Nat} {p : Planted} (h : p ∈ (plantAt s a n).planted) : p ∈ s.planted ∨ p.index ≤ 1 := by
  rw [plantAt_eq] at h
  split at h
  · next hit =>
    rcases List.mem_append.mp h with h | h
    · exact .inl (mem_of_mem_plantedKept h)
    · exact .inr (List.mem_singleton.mp h ▸ index_le_of_plantHit hit)
  · exact .inl (mem_of_mem_plantedKept h)

theorem memoryWritten_write (s : State) (a : Nat) (bs : List Byte) : MemoryWritten s (s.write a bs) where
  trays := (plantAt_touches _ _ _).trays rfl
  cores := (plantAt_touches _ _ _).cores rfl
  reg _ h := reg_plantAt _ _ _ h
  unplanted index h hs p hp := by
    rcases mem_or_index_le_of_mem_plantAt hp with hp | hp
    · exact hs p hp
    · omega

theorem memoryWritten_benchWrite (s : State) (c off : Nat) (bs : List Byte) : MemoryWritten s (benchWrite s c off bs) := by
  unfold benchWrite
  dsimp only
  split
  · exact memoryWritten_write _ _ _
  · exact (memoryWritten_write _ _ _).trans (memoryWritten_write _ _ _)

theorem memoryWritten_writePartial (s : State) (c : Nat) (i : Inst) (g : Grid) (n r : Nat) (vals : List (Nat × Nat)) : MemoryWritten s (writePartial s c i g n r vals) := by
  unfold writePartial
  dsimp only
  split
  · exact (memoryWritten_benchWrite _ _ _ _).trans (memoryWritten_benchWrite _ _ _ _)
  · exact memoryWritten_benchWrite _ _ _ _

theorem mem_write (s : State) (a : Nat) (bs : List Byte) : (s.write a bs).mem = putBytes s.mem a bs := (plantAt_touches _ _ _).mem rfl

/-- The bytes that a write into the Bench leaves depend on those before it alone. -/
theorem mem_benchWrite_congr {s s' : State} (h : s'.mem = s.mem) (c off : Nat) (bs : List Byte) : (benchWrite s' c off bs).mem = (benchWrite s c off bs).mem := by
  unfold benchWrite
  dsimp only
  split <;> simp only [mem_write, h]

theorem mem_writePartial_congr {s s' : State} (h : s'.mem = s.mem) (c : Nat) (i : Inst) (g : Grid) (n r : Nat) (vals : List (Nat × Nat)) :
    (writePartial s' c i g n r vals).mem = (writePartial s c i g n r vals).mem := by
  unfold writePartial
  dsimp only
  split
  · exact mem_benchWrite_congr (mem_benchWrite_congr h _ _ _) _ _ _
  · exact mem_benchWrite_congr h _ _ _

/-! ### An output tile, changed -/

theorem mem_modTile (s : State) (t k n : Nat) (f : OTile → OTile) : (s.modTile t k n f).mem = s.mem := rfl

theorem inst_modTile_same {s : State} {t k n : Nat} {i : Inst} {f : OTile → OTile} (ht : t < 32) (h : s.inst t k = some i) :
    (s.modTile t k n f).inst t k = some { i with tiles := modAt i.tiles n f } := inst_modInst_same ht h (fun _ => rfl)

theorem tile_modAt {i : Inst} {n : Nat} (f : OTile → OTile) (h : n < i.tiles.length) : ({ i with tiles := modAt i.tiles n f } : Inst).tile n = f (i.tile n) := by
  simp [Inst.tile, modAt, List.getD, h]

/-- No row block leaves for DST while no row of the tile has had its final pass. -/
theorem finishBlocks_of_no_finals {s : State} {t k n : Nat} {i : Inst} (hi : s.inst t k = some i) (hfinals : (i.tile n).finals = []) (fuel : Nat) :
    finishBlocks fuel s t k n = s := by
  have nothing : (i.tile n).blocks ≤ (i.tile n).sent ∨ 0 < min 4 ((i.tile n).rows - 4 * (i.tile n).sent) := by
    unfold OTile.blocks cdiv
    omega
  cases fuel with
  | zero => rfl
  | succ fuel =>
    have none_final : ∀ rows : List Nat, rows.filterMap (fun r => ([] : List (Nat × List (Nat × Nat))).find? (fun p => p.1 == r)) = [] :=
      fun _ => List.filterMap_eq_nil_iff.mpr (fun _ _ => rfl)
    simp only [finishBlocks, hi, hfinals, none_final, List.length_nil, List.length_map, List.length_range]
    rw [if_pos]
    simp only [Bool.or_eq_true, decide_eq_true_eq]
    exact .inl (.inl (nothing.elim (fun h => .inl (.inl h)) .inr))

/-! ### An arrival (R225, R230, R248) -/

/-- A tile of whose row one more pass has arrived. -/
def OTile.withPass (row cnt : Nat) (o : OTile) : OTile := { o with counts := setAt o.counts row (cnt + 1) }

theorem getD_counts_withPass {o : OTile} {row : Nat} (h : row < o.counts.length) (cnt : Nat) : (o.withPass row cnt).counts.getD row 0 = cnt + 1 := by
  simp [OTile.withPass, setAt, List.getD, h]

/-- A tile to which an engine's sums have come, with the flags that they raised. -/
def OTile.reached (fromSieve : Bool) (fl : Flags) (o : OTile) : OTile := { o with src := o.src.add fromSieve, flags := o.flags.or fl }

/-- The state in which a row holds the sums of the first pass to reach it. -/
def firstPassKept (s : State) (t : Nat) (i : Inst) (g : Grid) (n row : Nat) (vals : List (Nat × Nat)) : State :=
  writePartial (s.modTile t i.seq n (OTile.withPass row ((i.tile n).counts.getD row 0))) (coreOf t) i g n row vals

/-- The first pass to reach a row, neither its last nor one that spills, overwrites its partial sums (R230). -/
theorem addRow_of_first {s : State} {t : Nat} {i : Inst} {n row : Nat} (hfresh : freshRow (s.tray t).snap.coucheIvl ((i.tile n).counts.getD row 0) = true)
    (hmore : finalRow (i.tile n) ((i.tile n).counts.getD row 0) = false) (hspill : spillRow (s.tray t).snap.coucheIvl (i.tile n) ((i.tile n).counts.getD row 0) = false)
    (g : Grid) (vals : List (Nat × Nat)) : addRow s t i g n row vals = (firstPassKept s t i g n row vals, .ok .none) := by
  simp only [addRow, rowSums, hfresh, hmore, hspill, andThen, if_true, Bool.false_eq_true, if_false]
  rfl

/-- The state in which an arrival of one row is counted and its tile knows of it. -/
def arrivalCounted (s : State) (a : Arrival) (fl : Flags) : State :=
  ((s.modTile a.tray a.seq a.tile (OTile.reached a.fromSieve fl)).count (Csr.peelPassAdds (coreOf a.tray)) 1).count (Csr.peelCoucheSpills (coreOf a.tray)) 0

/-- An arrival brings one row, which no pass has reached since the start or the last spill, and neither ends nor spills it; no row of the tile has had its final pass. -/
structure BringsFirstPass (s : State) (a : Arrival) (i : Inst) (row : Nat) (vals : List (Nat × Nat)) : Prop where
  rows : arrivalRows (i.tile a.tile) a = [(row, vals)]
  fresh : freshRow (s.tray a.tray).snap.coucheIvl ((i.tile a.tile).counts.getD row 0) = true
  more : finalRow (i.tile a.tile) ((i.tile a.tile).counts.getD row 0) = false
  stays : spillRow (s.tray a.tray).snap.coucheIvl (i.tile a.tile) ((i.tile a.tile).counts.getD row 0) = false
  finals : (i.tile a.tile).finals = []

/-- An arrival of one row that its first pass brings: its sums are kept, and it is counted. -/
theorem addArrival_of_first {s : State} {a : Arrival} {i : Inst} {g : Grid} {row : Nat} {vals : List (Nat × Nat)} (hi : s.inst a.tray a.seq = some i)
    (h : BringsFirstPass s a i row vals) (hsat : W.satTrap i.word = false) :
    ∃ fl, addArrival s a i g = finishBlocks 64 (wrote (readTray (arrivalCounted (firstPassKept s a.tray i g a.tile row vals) a fl) 7 a.tray 0) 7 (coreOf a.tray) a.tray)
      a.tray a.seq a.tile := by
  have hadd : addRows s a.tray a.seq g a.tile [(row, vals)] = (firstPassKept s a.tray i g a.tile row vals, .ok (Flags.none.or .none)) := by
    simp only [addRows, hi, addRow_of_first h.fresh h.more h.stays, andThen]
  have hspills : spilledBlocks (s.tray a.tray).snap.coucheIvl (i.tile a.tile) [(row, vals)] = 0 := by
    simp only [spilledBlocks, List.filter_cons, h.stays, Bool.false_and, Bool.false_eq_true, if_false, List.filter_nil, List.length_nil]
  refine ⟨a.flags.or (Flags.none.or .none), ?_⟩
  simp only [addArrival, h.rows, hadd, hspills, hsat, Bool.false_eq_true, and_false, if_false]
  rfl

theorem firstPassKept_written (s : State) (t : Nat) (i : Inst) (g : Grid) (n row : Nat) (vals : List (Nat × Nat)) :
    MemoryWritten (s.modTile t i.seq n (OTile.withPass row ((i.tile n).counts.getD row 0))) (firstPassKept s t i g n row vals) := memoryWritten_writePartial _ _ _ _ _ _ _

theorem inst_firstPassKept {s : State} {t k : Nat} {i : Inst} (ht : t < 32) (hi : s.inst t k = some i) (g : Grid) (n row : Nat) (vals : List (Nat × Nat)) :
    (firstPassKept s t i g n row vals).inst t k = some { i with tiles := modAt i.tiles n (OTile.withPass row ((i.tile n).counts.getD row 0)) } := by
  obtain rfl := seq_of_inst hi
  exact (inst_of_trays (firstPassKept_written s t i g n row vals).trays _ _).trans (inst_modTile_same ht hi)

theorem inst_arrivalCounted {s : State} {a : Arrival} {i : Inst} (ht : a.tray < 32) (hi : s.inst a.tray a.seq = some i) (fl : Flags) :
    (arrivalCounted s a fl).inst a.tray a.seq = some { i with tiles := modAt i.tiles a.tile (OTile.reached a.fromSieve fl) } := inst_modTile_same ht hi

theorem reg_arrivalCounted (s : State) (a : Arrival) (fl : Flags) :
    (arrivalCounted s a fl).reg (Csr.peelPassAdds (coreOf a.tray)) = s.reg (Csr.peelPassAdds (coreOf a.tray)) + 1 := by
  rw [arrivalCounted, State.reg_count_other _ _ (by unfold Csr.peelPassAdds Csr.peelCoucheSpills; omega), State.reg_count_same]
  rfl

theorem cores_arrivalCounted (s : State) (a : Arrival) (fl : Flags) : (arrivalCounted s a fl).cores = s.cores := rfl

theorem mem_arrivalCounted (s : State) (a : Arrival) (fl : Flags) : (arrivalCounted s a fl).mem = s.mem := rfl

theorem unplanted_arrivalCounted {s : State} {index : Nat} (h : Unplanted s index) (a : Arrival) (fl : Flags) : Unplanted (arrivalCounted s a fl) index := h

/-- The state that the first pass to reach a row leaves. -/
def firstPassAdded (s : State) (a : Arrival) (i : Inst) (g : Grid) (row : Nat) (vals : List (Nat × Nat)) (fl : Flags) : State :=
  wrote (arrivalCounted (firstPassKept s a.tray i g a.tile row vals) a fl) 7 (coreOf a.tray) a.tray

section
variable {s : State} {a : Arrival} {i : Inst} {row : Nat}

/-- The instruction of that arrival, its tile one pass further in that row. -/
theorem inst_firstPassAdded (ht : a.tray < 32) (hi : s.inst a.tray a.seq = some i) (htile : a.tile < i.tiles.length) (g : Grid) (row : Nat) (vals : List (Nat × Nat))
    (fl : Flags) : ∃ i', (firstPassAdded s a i g row vals fl).inst a.tray a.seq = some i' ∧
      i'.tile a.tile = OTile.reached a.fromSieve fl (OTile.withPass row ((i.tile a.tile).counts.getD row 0) (i.tile a.tile)) := by
  have hinst := inst_arrivalCounted ht (inst_firstPassKept ht hi g a.tile row vals) fl
  refine ⟨_, (inst_of_trays ((wrote_touches _ _ _ _).trays rfl) _ _).trans hinst, ?_⟩
  rw [tile_modAt _ (by rwa [modAt, List.length_modify]), tile_modAt _ htile]

theorem cores_firstPassAdded (g : Grid) (vals : List (Nat × Nat)) (fl : Flags) : (firstPassAdded s a i g row vals fl).cores = s.cores := by
  rw [firstPassAdded, (wrote_touches _ _ _ _).cores rfl, cores_arrivalCounted, (firstPassKept_written _ _ _ _ _ _ _).cores]
  rfl

theorem mem_firstPassAdded (g : Grid) (vals : List (Nat × Nat)) (fl : Flags) :
    (firstPassAdded s a i g row vals fl).mem = (writePartial s (coreOf a.tray) i g a.tile row vals).mem := by
  rw [firstPassAdded, mem_wrote, mem_arrivalCounted, firstPassKept, mem_writePartial_congr (mem_modTile _ _ _ _ _)]

theorem reg_firstPassAdded (hc : coreOf a.tray < 4) (g : Grid) (vals : List (Nat × Nat)) (fl : Flags) :
    (firstPassAdded s a i g row vals fl).reg (Csr.peelPassAdds (coreOf a.tray)) = s.reg (Csr.peelPassAdds (coreOf a.tray)) + 1 := by
  have apart : Csr.peelPassAdds (coreOf a.tray) ≠ Csr.errInj := by
    unfold Csr.peelPassAdds Csr.errInj
    omega
  rw [firstPassAdded, reg_wrote _ _ _ _ apart, reg_arrivalCounted, (firstPassKept_written _ _ _ _ _ _ _).reg _ apart]
  rfl

/-- The first pass to reach a row ends with its sums kept: no row block leaves. -/
theorem addArrival_eq_firstPassAdded {vals : List (Nat × Nat)} (ht : a.tray < 32) (hi : s.inst a.tray a.seq = some i) (htile : a.tile < i.tiles.length)
    (hplanted : s.planted = []) (h : BringsFirstPass s a i row vals) (hsat : W.satTrap i.word = false) (g : Grid) :
    ∃ fl, addArrival s a i g = firstPassAdded s a i g row vals fl := by
  obtain ⟨fl, hadd⟩ := addArrival_of_first (g := g) hi h hsat
  have sound := (firstPassKept_written s a.tray i g a.tile row vals).unplanted 7 (by decide) (unplanted_of_nil hplanted 7)
  obtain ⟨i', hi', htile'⟩ := inst_firstPassAdded ht hi htile g row vals fl
  refine ⟨fl, ?_⟩
  rw [hadd, readTray_of_unplanted (unplanted_arrivalCounted sound a fl)]
  exact finishBlocks_of_no_finals hi' (by rw [htile']; exact h.finals) 64

end

/-- An arrival that no spill delays leaves its port and is added. -/
theorem portArrival_of_head {s : State} {c port : Nat} {a : Arrival} {rest : List Arrival} {i : Inst} (hport : s.port c port = a :: rest) (hi : s.inst a.tray a.seq = some i)
    (hrun : mayRun s a.tray = true)
    (hspill : (arrivalRows (i.tile a.tile) a).any (fun p => spillRow (s.tray a.tray).snap.coucheIvl (i.tile a.tile) ((i.tile a.tile).counts.getD p.1 0)) = false) :
    portArrival c port s = addArrival (s.setPort c port rest) a i (gridNow s a.tray i) := by
  simp only [portArrival, hport, hi, hrun, hspill, Bool.not_true, Bool.false_and, Bool.false_eq_true, if_false]

theorem exec_peelArrival {s : State} {c port : Nat} (hc : c < 4) (hp : port < 3) : exec (.peelArrival c port) s = .next (portArrival c port s) := by
  change execPeelArrival c port s = _
  rw [execPeelArrival, if_neg (by omega), onCore, if_pos hc, if_pos hp]

theorem port_of_cores {s s' : State} (h : s'.cores = s.cores) (c p : Nat) : s'.port c p = s.port c p := by
  rw [State.port, State.core, h]
  rfl

theorem reg_setPort (s : State) (c p : Nat) (l : List Arrival) (off : Nat) : (s.setPort c p l).reg off = s.reg off := rfl

theorem mem_setPort (s : State) (c p : Nat) (l : List Arrival) : (s.setPort c p l).mem = s.mem := rfl

/-! ### An update block (R417, R425) -/

/-- The tensors that PEEL.UPD writes, each with the place of its codes in an element's. -/
def updOuts (i : Inst) : List (Role × Nat) := [(.w, 0), (.m1, 1)] ++ (if bf i.word 218 216 = 1 then [(.m2, 2)] else [])

/-- The writes of an update block to its tensors. -/
def updBlockWrites (i : Inst) (els : List UpdOne) : List (Bool × Int × List Byte) :=
  (updOuts i).flatMap (fun p => updWrites (i.desc p.1) (1024 * i.upd.next) (els.map (fun e => e.out.map (fun q => q.1.getD p.2 0))))

/-- An update block has been added to its instruction's working state. -/
def withBlock (els : List UpdOne) (i : Inst) : Inst := { i with upd := updAfter i.upd els, flags := i.flags.or (Flags.orAll (els.map UpdOne.flags)) }

/-- A block whose writes can be made commits. -/
theorem updCommit_of_commitMixed {s s1 : State} {t : Nat} {i : Inst} {held : List (List Nat)} (hsat : W.satTrap i.word = false)
    (hcommit : commitMixed s (coreOf t) (spaceOf s t) (updBlockWrites i (updBlock i (s.tray t).snap.srSeed i.upd.next held)) = (s1, .ok ())) :
    ∃ n, updCommit s t i held =
      updEnds ((s1.count (Csr.prfBytesWr (coreOf t)) n).modInst t i.seq (withBlock (updBlock i (s.tray t).snap.srSeed i.upd.next held))) t i (i.upd.next + 1) := by
  unfold updBlockWrites updOuts at hcommit
  simp only [updCommit, hsat, Bool.false_eq_true, and_false, if_false, hcommit]
  exact ⟨_, rfl⟩

theorem trays_commitMixed (s : State) (c space : Nat) (ws : List (Bool × Int × List Byte)) : (commitMixed s c space ws).1.trays = s.trays :=
  (touch_commitMixed (F := { mem := true, poison := true, benchPoison := true, regs := true, cores := true, mmu := true, larder := true, arbs := true, planted := true })
    s c space ws (.refl _ s) rfl rfl rfl rfl rfl rfl rfl rfl rfl).trays rfl

theorem mem_updEnds (s : State) (t : Nat) (i : Inst) (next : Nat) : (updEnds s t i next).mem = s.mem :=
  (touch_updEnds (F := { trays := true, cores := true }) s t i next (.refl _ s) rfl rfl).mem rfl

/-- The end of a block leaves the working state as it was, and the last block's end the instruction done. -/
theorem inst_updEnds {s : State} {t next : Nat} {i j : Inst} (ht : t < 32) (hj : s.inst t i.seq = some j) :
    ∃ i', (updEnds s t i next).inst t i.seq = some i' ∧ i'.upd = j.upd ∧ (updBlocks i ≤ next → i'.done = true) := by
  unfold updEnds
  split
  · next hmore => exact ⟨j, hj, rfl, fun hlast => absurd hlast (Nat.not_le.mpr hmore)⟩
  · exact ⟨_, inst_modInst_same ht (inst_modInst_same (f := fun x => { x with done := true }) ht hj (fun _ => rfl)) (fun _ => rfl), rfl, fun _ => rfl⟩

theorem updateCommit_of_find {s : State} {t : Nat} {i : Inst} (hrun : mayRun s t = true) (hplanted : s.planted = [])
    (hi : (s.tray t).insts.find? (fun i => i.mn == .upd && !i.upd.held.isEmpty) = some i) : updateCommit t s = updCommit s t i (i.upd.held.headD []) := by
  simp only [updateCommit, hrun, hi, readTray_of_planted_nil hplanted, Bool.not_true, Bool.false_eq_true, if_false]

theorem exec_updateBlockCommit {s : State} {t : Nat} (ht : t < 32) : exec (.updateBlockCommit t) s = .next (updateCommit t s) := if_pos ht

/-! ### A snapshot (R260, R261) -/

/-- The window of a snapshot after its first `n` words, the block's first row and column given. -/
def snapWindow (entry : Nat → Nat → Nat × Nat) (row0 col0 n : Nat) : Tab (BitVec 32) :=
  (List.range n).foldl (fun m j =>
    Tab.put 0 (Tab.put 0 m j (BitVec.ofNat 32 (entry (row0 + j / 32) (col0 + j % 32)).1)) (1024 + j) (BitVec.ofNat 32 (entry (row0 + j / 32) (col0 + j % 32)).2)) []

theorem snapWindow_succ (entry : Nat → Nat → Nat × Nat) (row0 col0 n : Nat) : snapWindow entry row0 col0 (n + 1) =
    Tab.put 0 (Tab.put 0 (snapWindow entry row0 col0 n) n (BitVec.ofNat 32 (entry (row0 + n / 32) (col0 + n % 32)).1)) (1024 + n)
      (BitVec.ofNat 32 (entry (row0 + n / 32) (col0 + n % 32)).2) := by
  rw [snapWindow, List.range_succ, List.foldl_append]
  rfl

/-- The first words of the window's entries: the second words, from word 1024 on, do not reach them. -/
theorem get_snapWindow (entry : Nat → Nat → Nat × Nat) (row0 col0 : Nat) {n j : Nat} (hj : j < 1024) (h : j < n) :
    Tab.get 0 (snapWindow entry row0 col0 n) j = BitVec.ofNat 32 (entry (row0 + j / 32) (col0 + j % 32)).1 := by
  induction n with
  | zero => cases h
  | succ n ih =>
    rw [snapWindow_succ, Tab.get_put_other _ _ _ _ (by omega)]
    by_cases hn : n = j
    · subst hn
      exact Tab.get_put_same _ _ _ _
    · rw [Tab.get_put_other _ _ _ _ hn, ih (by omega)]

/-- The state in which a snapshot is complete, with its status and its window. -/
def snapEnds (s : State) (c status : Nat) (window : Tab (BitVec 32)) : State :=
  (s.setReg (Csr.peelDbgStatus c) (BitVec.ofNat 64 status)).modPeel c (fun p => { p with snapPending := none, window := window })

theorem peel_snapEnds (s : State) {c : Nat} (status : Nat) (window : Tab (BitVec 32)) (hc : c < 4) :
    ((snapEnds s c status window).core c).peel = { (s.core c).peel with snapPending := none, window := window } := by
  rw [snapEnds, State.modPeel, State.core_modCore_same _ _ hc]
  rfl

theorem snapPending_snapEnds (s : State) {c : Nat} (status : Nat) (window : Tab (BitVec 32)) (hc : c < 4) : ((snapEnds s c status window).core c).peel.snapPending = none := by
  rw [peel_snapEnds _ _ _ hc]

theorem window_snapEnds (s : State) {c : Nat} (status : Nat) (window : Tab (BitVec 32)) (hc : c < 4) : ((snapEnds s c status window).core c).peel.window = window := by
  rw [peel_snapEnds _ _ _ hc]

theorem reg_snapEnds (s : State) (c status : Nat) (window : Tab (BitVec 32)) : (snapEnds s c status window).reg (Csr.peelDbgStatus c) = BitVec.ofNat 64 status :=
  State.reg_setReg_same _ _ _

/-- Valid, no miss, the kind and the pass count: the status of a block that was found (R261). -/
def foundStatus (x : SnapShot) : Nat := 1 + x.kind * 4 + x.passes * 2 ^ 32

theorem bf_foundStatus_valid (x : SnapShot) : bf (BitVec.ofNat 64 (foundStatus x)) 1 0 = 1 := by
  simp only [bf, foundStatus, BitVec.toNat_ofNat, Nat.shiftRight_zero]
  omega

theorem bf_foundStatus_kind {x : SnapShot} (h : x.kind < 4) : bf (BitVec.ofNat 64 (foundStatus x)) 3 2 = x.kind := by
  simp only [bf, foundStatus, BitVec.toNat_ofNat, Nat.shiftRight_eq_div_pow]
  omega

/-- What a snapshot shows of a Sieve slot: its entries, and the passes that its tile has had. -/
def slotShot (s : State) (a : AccSlot) (row0 : Nat) : SnapShot :=
  { kind := if a.path != .float then 0 else if a.comp then 3 else 1, passes := ((s.inst a.tray a.seq).map (fun i => (i.tile a.tile).counts.getD row0 0)).getD 0,
    entry := fun r k => (a.rows.getD r []).getD k (0, 0) }

theorem kind_slotShot_lt (s : State) (a : AccSlot) (row0 : Nat) : (slotShot s a row0).kind < 4 := by
  unfold slotShot
  dsimp only
  split
  · decide
  · split <;> decide

theorem snapSlot_of_holder {s : State} {c tray slot : Nat} {a : AccSlot} (ha : slotNumbered s c slot = some a) (ht : a.tray = tray) (row0 : Nat) :
    snapSlot s c tray slot row0 = some (slotShot s a row0) := by
  rw [snapSlot, ha, Option.bind_some, if_neg (not_not_intro ht)]
  cases hi : s.inst a.tray a.seq <;> simp [slotShot, hi]

theorem snapDone_of_slot {s : State} {c : Nat} {v : Reg} {a : AccSlot} (hv : (s.core c).peel.snapPending = some v) (hwhat : bf v 25 24 = 1)
    (ha : slotNumbered s c (bf v 20 6) = some a) (ht : a.tray = 8 * c + bf v 23 21) :
    snapDone c s = snapEnds s c (foundStatus (slotShot s a (32 * bf v 5 3))) (snapWindow (slotShot s a (32 * bf v 5 3)).entry (32 * bf v 5 3) (32 * bf v 2 0) 1024) := by
  simp only [snapDone, hv, hwhat, snapSlot_of_holder ha ht]
  rfl

theorem snapDone_of_no_block {s : State} {c : Nat} {v : Reg} (hv : (s.core c).peel.snapPending = some v) (hwhat : bf v 25 24 = 3) : snapDone c s = snapEnds s c 3 [] := by
  simp only [snapDone, hv, hwhat]
  rfl

theorem exec_peelDbgSnapDone {s : State} {c : Nat} (hc : c < 4) : exec (.peelDbgSnapDone c) s = .next (snapDone c s) := if_pos hc

/-! ### The statement (R225, R248, R261, R425) -/

/-- Settles O32: an arrival by what the first pass of a row leaves, an update block by its commit, and a snapshot by what it shows. -/
theorem peelTakesArrivalsBlocksAndSnapshots : Obligations.PeelTakesArrivalsBlocksAndSnapshots := by
  refine ⟨?arrival, ?update, ?snapshot⟩
  case arrival =>
    intro s c port row a rest i vals hc hp hport hi hruns hcore hplanted hsat htile o hrows hfinals hfresh hmore hspill hrow
    subst hcore
    have hhead := portArrival_of_head hport hi (mayRun_of_runs hruns) (by rw [hrows]; simpa only [List.any_cons, List.any_nil, Bool.or_false] using hspill)
    obtain ⟨fl, hadd⟩ := addArrival_eq_firstPassAdded (s := s.setPort (coreOf a.tray) port rest) (lt_of_coreOf hc) hi htile hplanted ⟨hrows, hfresh, hmore, hspill, hfinals⟩ hsat
      (gridNow s a.tray i)
    obtain ⟨i', hinst, htile'⟩ := inst_firstPassAdded (s := s.setPort (coreOf a.tray) port rest) (lt_of_coreOf hc) hi htile (gridNow s a.tray i) row vals fl
    refine ⟨_, i', exec_peelArrival hc hp, ?_⟩
    rw [hhead, hadd, port_of_cores (cores_firstPassAdded _ _ _), port_setPort_same _ _ hc (by omega), mem_firstPassAdded, mem_writePartial_congr (mem_setPort _ _ _ _),
      reg_firstPassAdded hc, reg_setPort]
    exact ⟨rfl, hinst, by rw [htile']; exact getD_counts_withPass hrow _, rfl, rfl⟩
  case update =>
    intro s s1 t i ht hruns hplanted hfind hi hsat els outs hcommit
    have hone := updateCommit_of_find (mayRun_of_runs hruns) hplanted hfind
    obtain ⟨n, hblock⟩ := updCommit_of_commitMixed hsat hcommit
    have htrays : s1.trays = s.trays := fst_of_answer hcommit (trays_commitMixed _ _ _ _)
    have hkept := inst_modInst_same (f := withBlock els) ht ((inst_of_trays (s' := s1.count (Csr.prfBytesWr (coreOf t)) n) htrays t i.seq).trans hi) (fun _ => rfl)
    obtain ⟨i', hinst, hupd, hdone⟩ := inst_updEnds (next := i.upd.next + 1) ht hkept
    rw [← hblock, ← hone] at hinst
    exact ⟨_, i', exec_updateBlockCommit ht, hinst, hupd, by rw [hone, hblock, mem_updEnds]; rfl, hdone⟩
  case snapshot =>
    intro s c v hc hv row0 col0
    refine ⟨fun hwhat a ha htray => ⟨_, exec_peelDbgSnapDone hc, ?_⟩, fun hwhat => ⟨_, exec_peelDbgSnapDone hc, ?_⟩⟩
    · rw [snapDone_of_slot hv hwhat ha htray, State.fld, State.fld, reg_snapEnds, window_snapEnds _ _ _ hc]
      refine ⟨snapPending_snapEnds _ _ _ hc, bf_foundStatus_valid _, bf_foundStatus_kind (kind_slotShot_lt _ _ _), ?_⟩
      intro j hj
      rw [get_snapWindow _ _ _ hj hj]
      rfl
    · rw [snapDone_of_no_block hv hwhat]
      exact ⟨snapPending_snapEnds _ _ _ hc, reg_snapEnds _ _ _ _, window_snapEnds _ _ _ hc⟩

end Sys2Proof.Machine
end

section
/-! PROOFS. The issue of an instruction: its tray takes it with the plan made at its issue, and what its release does, even a barrier that it breaks, leaves that plan as it was.
That SPX.CEN counts four rows of DST in each step is the model's reading of R164 (log entry 25). -/

namespace Sys2Proof.Machine

open Sys2Proof.Claims

/-! ### The checks passed (R89, R113) -/

/-- Reads for an issue leave the trays as they were. -/
theorem trays_nextWord (s : State) (t : Nat) : (nextWord s t).1.trays = s.trays :=
  (touch_nextWord (F := { mem := true, poison := true, benchPoison := true, regs := true, queues := true, cores := true, mmu := true, larder := true, arbs := true, planted := true })
    s t (.refl _ s) rfl rfl rfl rfl rfl rfl rfl rfl rfl rfl).trays rfl

theorem trays_readDescs (s : State) (t idx dtab : Nat) (ls : List Loop) (l : List (Role × Nat)) : (readDescs s t idx dtab ls l).1.trays = s.trays :=
  (touch_readDescs (F := { mem := true, poison := true, benchPoison := true, regs := true, queues := true, cores := true, mmu := true, larder := true, arbs := true, planted := true })
    s t idx dtab ls (.refl _ s) rfl rfl rfl rfl rfl rfl rfl rfl rfl rfl l).trays rfl

theorem tray_of_trays {s s' : State} (h : s'.trays = s.trays) (t : Nat) : s'.tray t = s.tray t := by
  rw [State.tray, h]
  rfl

section
variable {s s1 : State} {t : Nat} {mn : Mn} {w : IWord} {ds : List (Role × Nat × Desc)} (h : Passes s t mn w ds s1)
include h

theorem trays_of_passes : s1.trays = s.trays := by
  obtain ⟨s0, w0, hword, -, -, hdescs⟩ := h.fetched
  exact (fst_of_answer hdescs (trays_readDescs _ _ _ _ _ _)).trans (fst_of_answer hword (trays_nextWord _ _))

/-- An instruction that no check refuses issues. -/
theorem exec_issueCommand_of_passes : exec (issueCommand mn t) s = .next (issueInst s1 t (newInst (s.tray t) mn w ds)) := by
  obtain ⟨s0, w0, hword, hbatch, hheader, hdescs⟩ := h.fetched
  have htray : s0.tray t = s.tray t := tray_of_trays (fst_of_answer hword (trays_nextWord _ _)) t
  have hnest : ¬ (mn = .loop ∧ loopBad (s.tray t).pc w (s.tray t).loops = true) := fun hl => by simp [h.nest hl.1] at hl
  rw [exec_issueCommand, onTray, if_pos h.unit]
  simp only [issue, h.ready, hword, hbatch, h.opcode.1, h.opcode.2, issueWord, hheader, htray, hdescs, h.descs, h.relate, h.late, if_neg hnest, Bool.not_true,
    Bool.false_eq_true, if_false, if_true]

/-- Every instruction in flight has been released (R115). -/
theorem released_of_passes : ∀ i ∈ (s.tray t).insts, i.released = true := by
  have hready := h.ready
  simp only [canIssue, Bool.and_eq_true, List.all_eq_true] at hready
  exact hready.1.2

end

/-! ### The plan (R267, R288, R301) -/

/-- What an instruction was fetched with, under its number. -/
def Inst.fetched (i : Inst) : Nat × Nat × Mn × IWord × List (Role × Nat × Desc) × Settings := (i.seq, i.index, i.mn, i.word, i.descs, i.set)

theorem kept_ite {α β : Type} (π : α → β) {p : Prop} [Decidable p] {a b : α} {v : β} (ha : π a = v) (hb : π b = v) : π (if p then a else b) = v := by
  split <;> assumption

/-- The plan of an instruction leaves what it was fetched with. -/
theorem fetched_planInst (s : State) (i : Inst) : (planInst s i).fetched = i.fetched := by
  unfold planInst
  repeat' refine kept_ite Inst.fetched ?_ ?_
  all_goals rfl

theorem released_planInst (s : State) (i : Inst) : (planInst s i).released = i.released := by
  unfold planInst
  repeat' refine kept_ite Inst.released ?_ ?_
  all_goals rfl

theorem Mn.isProduct_of_isV {mn : Mn} (h : mn.isV = true) : mn.isProduct = false := by
  revert h
  cases mn <;> decide

/-- The numbers of the steps of a plan by rows. -/
theorem k_planRows (rows : Nat) : (planRows rows).map PStep.k = List.range (cdiv rows 4) := by
  rw [planRows, List.map_map]
  exact List.map_id _

section
variable (s : State) {i : Inst}

/-- An instruction of layout V steps through the row blocks of its rows. -/
theorem steps_planInst_of_isV (hv : i.mn.isV = true) (hldp : i.mn ≠ .ldp) (hcen : i.mn ≠ .cen) (hm : 0 < W.m i.word) (hn : 0 < W.nV i.word) :
    (planInst s i).steps = planRows (W.m i.word) := by
  have hldw : i.mn ≠ .ldw := fun e => by simp [e, Mn.isV] at hv
  have hupd : i.mn ≠ .upd := fun e => by simp [e, Mn.isV] at hv
  simp [planInst, Mn.isProduct_of_isV hv, hv, hldp, hldw, hupd, hcen, Nat.ne_of_gt hm, Nat.ne_of_gt hn]

/-- SPX.CEN steps through the row blocks of DST, which has a row for each 256 of SRCA's (R99, log entry 25). -/
theorem steps_planInst_of_cen (h : i.mn = .cen) (hm : 0 < W.m i.word) (hn : 0 < W.nV i.word) : (planInst s i).steps = planRows (cdiv (W.m i.word) 256) := by
  simp [planInst, h, Mn.isProduct, Mn.isV, outShapeV, Nat.ne_of_gt hm, Nat.ne_of_gt hn]

theorem steps_planInst_of_single (h : i.mn ∈ [Mn.ldw, .ldp, .upd]) (hn : i.mn = .ldw → 0 < W.nT i.word) : (planInst s i).steps = [⟨0, 0⟩] := by
  simp only [List.mem_cons, List.not_mem_nil, or_false] at h
  obtain e | e | e := h
  · simp [planInst, e, Nat.ne_of_gt (hn e), Mn.isProduct, Mn.isV]
  · simp [planInst, e]
  · simp [planInst, e, Mn.isProduct, Mn.isV]

theorem steps_planInst_of_pred (h : i.mn = .pred) : (planInst s i).steps = (List.range (i.desc .srca).rows).map (fun r => ⟨0, r⟩) := by
  simp [planInst, h, Mn.isProduct, Mn.isV]

end

/-! ### What an instruction keeps once it is in flight -/

/-- An instruction without what its release, its completion or the end of its task changes. -/
def Inst.lasting (i : Inst) : Inst := { i with waitMet := false, released := false, srCnt := 0, done := false, nin := 0, tiles := [], red := {} }

theorem fetched_of_lasting {i j : Inst} (h : i.lasting = j.lasting) : i.fetched = j.fetched := by
  change i.lasting.fetched = j.lasting.fetched
  rw [h]

theorem steps_of_lasting {i j : Inst} (h : i.lasting = j.lasting) : i.steps = j.steps := by
  change i.lasting.steps = j.lasting.steps
  rw [h]

theorem upd_of_lasting {i j : Inst} (h : i.lasting = j.lasting) : i.upd = j.upd := by
  change i.lasting.upd = j.lasting.upd
  rw [h]

/-- What lasts of the instructions that a tray has in flight. -/
def Tray.plans (r : Tray) : List Inst := r.insts.map Inst.lasting

/-- A change of a tray that a function of trays does not see. -/
theorem tray_part_modTray {β : Type} (g : Tray → β) (s : State) (t u : Nat) {f : Tray → Tray} (hf : ∀ r, g (f r) = g r) : g ((s.modTray t f).tray u) = g (s.tray u) := by
  by_cases hu : t = u
  · subst hu
    by_cases ht : t < 32
    · rw [State.tray_modTray_same _ _ ht, hf]
    · simp [State.tray, Vec.get, ht]
  · rw [State.tray_modTray_other _ _ hu]

theorem map_modFirst {α β : Type} {p : α → Bool} {f : α → α} {g : α → β} (h : ∀ x, g (f x) = g x) (l : List α) : (modFirst p f l).map g = l.map g := by
  induction l with
  | nil => rfl
  | cons x l ih =>
    rw [modFirst]
    split
    · rw [List.map_cons, h, List.map_cons]
    · rw [List.map_cons, ih, List.map_cons]

/-- A change of an instruction in what does not last leaves the plans as they were. -/
theorem plans_modInst (s : State) (t k u : Nat) {f : Inst → Inst} (hf : ∀ i, (f i).lasting = i.lasting) : ((s.modInst t k f).tray u).plans = (s.tray u).plans :=
  tray_part_modTray Tray.plans s t u (fun r => map_modFirst hf r.insts)

/-! ### A fault at a barrier keeps the plans (R86, R120) -/

theorem plans_dropEnds (s : State) (t u : Nat) : ((dropEnds s t).tray u).plans = (s.tray u).plans := by
  unfold dropEnds
  dsimp only
  split
  · rfl
  · exact tray_part_modTray Tray.plans _ t u (fun _ => rfl)

theorem plans_endTaskLog (s : State) (t code index pass rowBlk aux addr logAux logAddr u : Nat) :
    ((endTaskLog s t code index pass rowBlk aux addr logAux logAddr).tray u).plans = (s.tray u).plans := by
  unfold endTaskLog
  dsimp only
  split
  · rfl
  · rw [tray_logError, tray_count, tray_stopQueue, plans_dropEnds, tray_discardTray]
    refine tray_part_modTray Tray.plans s t u (fun r => ?_)
    rw [Tray.plans, List.map_map]
    rfl

theorem plans_faultInst (s : State) (t k code aux addr u : Nat) : ((faultInst s t k code aux addr).tray u).plans = (s.tray u).plans := by
  unfold faultInst faultInstLog
  split
  · dsimp only
    split
    · refine (tray_part_modTray Tray.plans _ t u ?_).trans (plans_endTaskLog _ _ _ _ _ _ _ _ _ _ u)
      exact fun _ => rfl
    · exact plans_endTaskLog _ _ _ _ _ _ _ _ _ _ u
  · rfl

theorem tray_setBarrier (s : State) (b : Nat) (x : Barrier) (u : Nat) : (s.setBarrier b x).tray u = s.tray u := rfl

theorem plans_breakBarrier (s : State) (b u : Nat) : ((breakBarrier s b).tray u).plans = (s.tray u).plans := by
  unfold breakBarrier
  refine (foldl_keeps (π := fun s => (s.tray u).plans) ?_ _ _).trans (by rw [tray_setBarrier])
  exact fun s p => plans_faultInst s p.1 p.2 _ _ _ u

/-- An arrival breaks its barrier, completes it, or waits at it: whichever it does, every plan stays. -/
theorem plans_arriveBarrier (s : State) (t k b mask u : Nat) : ((arriveBarrier s t k b mask).tray u).plans = (s.tray u).plans := by
  unfold arriveBarrier
  refine kept_ite (fun s : State => (s.tray u).plans) ?broken (kept_ite (fun s : State => (s.tray u).plans) ?complete ?waits)
  case broken => rw [plans_breakBarrier, tray_setBarrier]
  case complete =>
    refine (foldl_keeps (π := fun s => (s.tray u).plans) ?_ _ _).trans (by rw [tray_setBarrier])
    exact fun s p => plans_modInst s p.1 p.2 u (fun _ => rfl)
  case waits => rw [tray_setBarrier]

/-! ### What a release keeps (R26, R83, R332, R335) -/

/-- A part of the state in which a release does not show, but for a barrier's arrival: it changes a tray in its tokens, its state and what does not last of its instructions, and
requests transfers and fills. -/
structure KeptByRelease {β : Type} (π : State → β) : Prop extends KeptByFills π where
  modTray : ∀ s t f, (∀ r, (f r).plans = r.plans ∧ (f r).arming = r.arming) → π (s.modTray t f) = π s

section
variable {β : Type} {π : State → β} (h : KeptByRelease π)
include h

theorem KeptByRelease.modInst_eq (s : State) (t k : Nat) {f : Inst → Inst} (hf : ∀ i, (f i).lasting = i.lasting) : π (s.modInst t k f) = π s :=
  h.modTray _ _ _ (fun r => ⟨map_modFirst hf r.insts, rfl⟩)

theorem KeptByRelease.startStream_eq (s : State) (t seq : Nat) (st : Settings) (d : Desc) (x : Role × Nat × Nat × List Fill) (issued : Bool) :
    π (startStream s t seq st d x issued) = π s := by
  unfold startStream
  split
  · rfl
  · rw [h.tick, h.modProofer]

theorem KeptByRelease.startStreams_eq (s : State) (t k : Nat) : π (startStreams s t k) = π s := by
  unfold startStreams
  split
  · rfl
  · refine (foldl_keeps (fun s n => h.fillSlots_eq 8 s _ n) _ _).trans ((foldl_keeps (fun s x => ?_) _ _).trans ((h.modProofer _ _ _).trans (h.modInst_eq _ _ _ (fun _ => rfl))))
    split
    · rfl
    · exact h.startStream_eq _ _ _ _ _ _ _

theorem KeptByRelease.requestTransfers_eq (s : State) (t : Nat) (i : Inst) : π (requestTransfers s t i) = π s := by
  have each : ∀ (ch : Nat) (ns : List Nat) (work : Nat → XferWork), π (ns.foldl (fun x k => addRequest x t i.seq ch (work k)) s) = π s := fun ch ns work =>
    foldl_keeps (fun s k => h.addRequest_eq s _ _ _ _) ns s
  unfold requestTransfers
  dsimp only
  split
  · exact kept_ite π rfl (kept_ite π (each _ _ _) (each _ _ _))
  · exact kept_ite π rfl (kept_ite π (each _ _ _) (each _ _ _))
  all_goals exact each _ _ _

theorem KeptByRelease.takeWait_eq (s : State) (t : Nat) (i : Inst) : π (takeWait s t i) = π s := by
  unfold takeWait
  split
  · rfl
  · refine (h.modInst_eq _ _ _ ?_).trans (h.modTray _ _ _ ?_)
    · exact fun _ => rfl
    · exact fun _ => ⟨rfl, rfl⟩

/-- A release shows at most by the arrival of a SYNC.BAR. -/
theorem KeptByRelease.releaseInst_eq {s : State} {t k : Nat} {i : Inst} (hi : s.inst t k = some i)
    (hbar : i.mn = .bar → ∀ s b mask, π (arriveBarrier s t k b mask) = π s) : π (releaseInst s t k) = π s := by
  have hreleased : ∀ n, π (s.modInst t k (fun x => { x with released := true, srCnt := n, done := x.done || x.mn.immediate || x.zeroShape })) = π s := fun n =>
    h.modInst_eq _ _ _ (fun _ => rfl)
  simp only [releaseInst, hi]
  split
  · next hmn => rw [hbar hmn, hreleased]
  · split
    · exact hreleased _
    · split
      · rw [h.requestTransfers_eq, hreleased]
      · rw [h.startStreams_eq, hreleased]

end

theorem inst_takeWait {s : State} {t : Nat} {i : Inst} (ht : t < 32) (hi : s.inst t i.seq = some i) : ∃ j, (takeWait s t i).inst t i.seq = some j ∧ j.mn = i.mn := by
  unfold takeWait
  split
  · exact ⟨i, hi, rfl⟩
  · refine ⟨_, inst_modInst_same (f := fun x => { x with waitMet := true }) ht ?_ (fun _ => rfl), rfl⟩
    rw [State.inst, State.tray_modTray_same _ _ ht]
    exact hi

/-- The tray's unreleased instruction may be released: that shows at most by the arrival of a SYNC.BAR. -/
theorem KeptByRelease.tryRelease_eq {β : Type} {π : State → β} (h : KeptByRelease π) {s : State} {t : Nat} {i : Inst} (ht : t < 32)
    (hfirst : (s.tray t).insts.find? (fun i => !i.released) = some i) (hi : s.inst t i.seq = some i)
    (hbar : i.mn = .bar → ∀ s k b mask, π (arriveBarrier s t k b mask) = π s) : π (tryRelease s t) = π s := by
  have hran : ∀ f : Tray → TrayState, π (s.modTray t (fun x => { x with state := f x })) = π s := fun f => h.modTray _ _ _ (fun _ => ⟨rfl, rfl⟩)
  have hinst : ∀ f : Tray → TrayState, (s.modTray t (fun x => { x with state := f x })).inst t i.seq = some i := fun f => by
    rw [State.inst, State.tray_modTray_same _ _ ht]
    exact hi
  simp only [tryRelease, hfirst]
  split
  · rfl
  · split
    · split
      · split
        · rw [h.takeWait_eq, hran]
        · exact hran _
      · obtain ⟨j, hj, hmn⟩ := inst_takeWait ht (hinst (fun x => if x.state = .blocked then .run else x.state))
        rw [h.releaseInst_eq hj (fun e s b mask => hbar (hmn ▸ e) s _ b mask), h.takeWait_eq, hran]
    · rfl

theorem keptByRelease_plans (u : Nat) : KeptByRelease (fun s => (s.tray u).plans) where
  modProofer _ _ _ := rfl
  tick _ := rfl
  modTray s t _ hf := tray_part_modTray Tray.plans s t u (fun r => (hf r).1)

theorem keptByRelease_arming (u : Nat) : KeptByRelease (fun s => (s.tray u).arming) where
  modProofer _ _ _ := rfl
  tick _ := rfl
  modTray s t _ hf := tray_part_modTray Tray.arming s t u (fun r => (hf r).2)

theorem keptByRelease_marks (c : Nat) : KeptByRelease (fun s => (s.core c).vec.marks) where
  toKeptByFills := keptByFills_core (fun k => k.vec.marks) (fun _ _ => rfl) c
  modTray _ _ _ _ := rfl

/-! ### The tray takes the instruction (R78, R107, R176, R283, R420) -/

/-- An instruction as its issue puts it in flight: with its mask and plan, a LEV.PRED with its rows, a PEEL.UPD with its slot's range exponents. -/
def Inst.atIssue (s : State) (t : Nat) (i0 : Inst) : Inst :=
  let i1 := planInst s { i0 with mask := maskBindOf s t i0.mn i0.word }
  let range := s.updWord (coreOf t) (W.updLayer i0.word) 0
  { i1 with lev := { i1.lev with rows := if i1.mn = .pred then (i1.desc .srca).rows else 0 }
            upd := if i1.mn = .upd then { i1.upd with x := clampI (-32) 31 (sext 8 (bf range 7 0)), xst := sext 8 (bf range 15 8) } else i1.upd }

theorem fetched_atIssue (s : State) (t : Nat) (i0 : Inst) : (i0.atIssue s t).fetched = i0.fetched :=
  fetched_planInst s { i0 with mask := maskBindOf s t i0.mn i0.word }

theorem released_atIssue (s : State) (t : Nat) (i0 : Inst) : (i0.atIssue s t).released = i0.released :=
  released_planInst s { i0 with mask := maskBindOf s t i0.mn i0.word }

theorem steps_atIssue (s : State) (t : Nat) (i0 : Inst) : (i0.atIssue s t).steps = (planInst s { i0 with mask := maskBindOf s t i0.mn i0.word }).steps := rfl

/-- A PEEL.UPD takes the exponent of its moments from its slot's first word (R420). -/
theorem xst_atIssue (s : State) (t : Nat) {i0 : Inst} (h : i0.mn = .upd) :
    (i0.atIssue s t).upd.xst = sext 8 (bf (s.updWord (coreOf t) (W.updLayer i0.word) 0) 15 8) := by
  have hmn : (planInst s { i0 with mask := maskBindOf s t i0.mn i0.word }).mn = .upd :=
    (congrArg (fun x => x.2.2.1) (fetched_planInst s { i0 with mask := maskBindOf s t i0.mn i0.word })).trans h
  unfold Inst.atIssue
  dsimp only
  rw [if_pos hmn]

/-- A tray holds a new instruction last of those in flight, armed by a LEV.PRED, and with the slot of a VXP.LDP marked. -/
structure Holds (s : State) (t : Nat) (i0 i : Inst) (s' : State) : Prop where
  insts : (s'.tray t).insts = (s.tray t).insts ++ [i]
  arming : i0.mn = .pred → (s'.tray t).arming = some i.seq
  mark : i0.mn = .ldp → Tab.get false (s'.core (coreOf t)).vec.marks (16 * (t % 8) + W.prog i0.word) = true

theorem tray_ite {p : Prop} [Decidable p] (a b : State) (u : Nat) : (if p then a else b).tray u = if p then a.tray u else b.tray u := apply_ite (State.tray · u) _ _ _

theorem tray_freeMaps (s : State) (c u : Nat) : (freeMaps s c).tray u = s.tray u := rfl

theorem tray_modLevain (s : State) (c : Nat) (f : Levain → Levain) (u : Nat) : (s.modLevain c f).tray u = s.tray u := rfl

theorem tray_modVec (s : State) (c : Nat) (f : VecEngine → VecEngine) (u : Nat) : (s.modVec c f).tray u = s.tray u := rfl

theorem tray_modProofer (s : State) (c : Nat) (f : Proofer → Proofer) (u : Nat) : (s.modProofer c f).tray u = s.tray u := rfl

theorem tray_dropStreams (s : State) (t k u : Nat) : (dropStreams s t k).tray u = s.tray u := rfl

theorem tray_clearTags (s : State) (t u : Nat) : (clearTags s t).tray u = s.tray u := rfl

theorem tray_wrote (s : State) (index core place u : Nat) : (wrote s index core place).tray u = s.tray u := tray_of_trays ((wrote_touches s index core place).trays rfl) u

theorem tray_takeMap (s : State) (t : Nat) (i : Inst) (u : Nat) : (takeMap s t i).tray u = s.tray u := by
  unfold takeMap
  split <;> rfl

theorem tray_countRed (s : State) (mn : Mn) (w : IWord) (u : Nat) : (countRed s mn w).tray u = s.tray u := by
  unfold countRed
  split <;> rfl

theorem insts_disarm (s : State) (t u : Nat) : ((disarm s t).tray u).insts = (s.tray u).insts := by
  unfold disarm
  dsimp only
  split
  · rfl
  · rw [tray_freeMaps, tray_modLevain]
    exact tray_part_modTray Tray.insts s t u (fun _ => rfl)

theorem core_of_cores {s s' : State} (h : s'.cores = s.cores) (c : Nat) : s'.core c = s.core c := by
  rw [State.core, h]
  rfl

theorem core_modTray (s : State) (t : Nat) (f : Tray → Tray) (c : Nat) : (s.modTray t f).core c = s.core c := rfl

theorem marks_clearTags (s : State) (t c : Nat) : ((clearTags s t).core c).vec.marks = (s.core c).vec.marks := core_part_modCore (fun k => k.vec.marks) s _ c (fun _ => rfl)

theorem marks_ite {p : Prop} [Decidable p] (a b : State) (c : Nat) :
    ((if p then a else b).core c).vec.marks = if p then (a.core c).vec.marks else (b.core c).vec.marks := apply_ite (fun s : State => (s.core c).vec.marks) _ _ _

/-- An instruction that issues is in flight, and may then be released. -/
theorem issueInst_holds (s : State) {t : Nat} (ht : t < 32) (i0 : Inst) : ∃ s', Holds s t i0 (i0.atIssue s t) s' ∧ issueInst s t i0 = tryRelease s' t := by
  have hc : coreOf t < 4 := by
    unfold coreOf
    omega
  unfold issueInst
  dsimp only
  refine ⟨_, ⟨?insts, fun hpred => ?arming, fun hldp => ?mark⟩, rfl⟩
  case insts =>
    simp only [tray_wrote, State.tray_modTray_same _ _ ht, tray_ite, tray_clearTags, tray_modVec, tray_modProofer, tray_takeMap, tray_dropStreams, tray_countRed, ite_self,
      apply_ite Tray.insts, insts_disarm]
    rfl
  case arming =>
    simp only [tray_wrote, State.tray_modTray_same _ _ ht, tray_ite, tray_clearTags, tray_modVec, tray_modProofer, tray_takeMap, tray_dropStreams, ite_self, if_pos hpred]
    rfl
  case mark =>
    rw [core_of_cores ((wrote_touches _ _ _ _).cores rfl), core_modTray, marks_ite, marks_clearTags, ite_self, if_pos hldp, State.modVec, State.core_modCore_same _ _ hc]
    exact Tab.get_put_same false _ _ true

/-! ### The statement -/

/-- The end of a list of plans is that of the list's end. -/
theorem getLast?_of_plans {r : Tray} {l : List Inst} {i : Inst} (h : r.plans = (l ++ [i]).map Inst.lasting) : ∃ j, r.insts.getLast? = some j ∧ j.lasting = i.lasting := by
  have hlast : r.insts.getLast?.map Inst.lasting = some i.lasting := by
    rw [← List.getLast?_map, ← Tray.plans, h, List.getLast?_map, List.getLast?_concat]
    rfl
  exact Option.map_eq_some_iff.mp hlast

section
variable {s s1 : State} {t : Nat} {mn : Mn} {w : IWord} {ds : List (Role × Nat × Desc)} (h : Passes s t mn w ds s1)
include h

/-- An instruction that passed its checks is in flight, the only one that is not released, and the issue ends with its release if nothing holds it (R26, R115). -/
theorem holds_of_passes : ∃ s2, Holds s t (newInst (s.tray t) mn w ds) ((newInst (s.tray t) mn w ds).atIssue s1 t) s2 ∧
    (s2.tray t).insts.find? (fun i => !i.released) = some ((newInst (s.tray t) mn w ds).atIssue s1 t) ∧
    s2.inst t (s.tray t).nextSeq = some ((newInst (s.tray t) mn w ds).atIssue s1 t) ∧ exec (issueCommand mn t) s = .next (tryRelease s2 t) := by
  obtain ⟨s2, ⟨hinsts, harming, hmark⟩, hissue⟩ := issueInst_holds s1 h.unit (newInst (s.tray t) mn w ds)
  have hseq := congrArg Prod.fst (fetched_atIssue s1 t (newInst (s.tray t) mn w ds))
  have hunreleased := released_atIssue s1 t (newInst (s.tray t) mn w ds)
  generalize (newInst (s.tray t) mn w ds).atIssue s1 t = i at *
  simp only [Inst.fetched, newInst] at hseq hunreleased
  rw [tray_of_trays (trays_of_passes h)] at hinsts
  refine ⟨s2, ⟨hinsts, harming, hmark⟩, ?first, ?own, (exec_issueCommand_of_passes h).trans (congrArg _ hissue)⟩
  case first =>
    rw [hinsts, List.find?_append, List.find?_eq_none.mpr (fun j hj => by simp [released_of_passes h j hj])]
    simp [hunreleased]
  case own =>
    rw [State.inst, hinsts, List.find?_append, List.find?_eq_none.mpr (fun j hj => by simpa using Nat.ne_of_lt (h.fresh j hj))]
    simp [hseq]

/-- What an instruction that passed its checks is in flight as, whatever its release has done since. -/
theorem issued_of_passes : ∃ s' i, exec (issueCommand mn t) s = .next s' ∧ TakenBy (s.tray t) (s'.tray t) mn w ds i ∧
    i.lasting = ((newInst (s.tray t) mn w ds).atIssue s1 t).lasting ∧ (mn = .pred → (s'.tray t).arming = some i.seq) ∧
    (mn = .ldp → Tab.get false (s'.core (coreOf t)).vec.marks (16 * (t % 8) + W.prog w) = true) := by
  obtain ⟨s2, hholds, hfirst, hown, hexec⟩ := holds_of_passes h
  have hfetched := fetched_atIssue s1 t (newInst (s.tray t) mn w ds)
  generalize (newInst (s.tray t) mn w ds).atIssue s1 t = i at *
  simp only [Inst.fetched, newInst, Prod.mk.injEq] at hfetched
  obtain ⟨hseq, hindex, hmn, hword, hdescs, hset⟩ := hfetched
  rw [← hseq] at hown
  have hplans : ((tryRelease s2 t).tray t).plans = ((s.tray t).insts ++ [i]).map Inst.lasting :=
    ((keptByRelease_plans t).tryRelease_eq h.unit hfirst hown (fun _ s k b mask => plans_arriveBarrier s t k b mask t)).trans (congrArg (List.map Inst.lasting) hholds.insts)
  obtain ⟨j, hj, hlasting⟩ := getLast?_of_plans hplans
  have hsame := fetched_of_lasting hlasting
  simp only [Inst.fetched, Prod.mk.injEq, hseq, hindex, hmn, hword, hdescs, hset] at hsame
  refine ⟨tryRelease s2 t, j, hexec, ⟨hj, ?length, hsame⟩, hlasting, fun hpred => ?arming, fun hldp => ?mark⟩
  case length => simpa [Tray.plans] using congrArg List.length hplans
  case arming =>
    rw [(keptByRelease_arming t).tryRelease_eq h.unit hfirst hown (fun e => by simp [hmn, hpred] at e), hholds.arming hpred, hseq, hsame.1]
  case mark =>
    rw [(keptByRelease_marks (coreOf t)).tryRelease_eq h.unit hfirst hown (fun e => by simp [hmn, hldp] at e)]
    exact hholds.mark hldp

end

theorem desc_of_descs {i j : Inst} (h : i.descs = j.descs) (r : Role) : i.desc r = j.desc r := by
  rw [Inst.desc, h]
  rfl

/-- Settles O8: whatever the release of an instruction has done since, it is in flight with the plan that it had at its issue, and that has the steps of its kind. -/
theorem stepsFollowTheRows : Obligations.StepsFollowTheRows := by
  unfold Obligations.StepsFollowTheRows
  intro mn s s1 t w ds h
  obtain ⟨s', i, hexec, htaken, hlasting, harming, hmark⟩ := issued_of_passes h
  obtain ⟨i0, hmn, hword, hdescs, hsteps⟩ : ∃ i0 : Inst, i0.mn = mn ∧ i0.word = w ∧ i0.descs = ds ∧ i.steps = (planInst s1 i0).steps :=
    ⟨_, rfl, rfl, rfl, (steps_of_lasting hlasting).trans (steps_atIssue s1 t _)⟩
  subst hmn hword
  obtain ⟨-, -, -, -, -, -, htakenDescs, -⟩ := id htaken
  refine ⟨s', i, hexec, htaken, fun hv hm hn => ?rows, fun hone hn => ?single, fun hcen hm hn => ?census, fun hpred => ⟨?predicted, harming hpred⟩, hmark, fun hupd => ?exponent⟩
  case rows =>
    have hkind : i0.mn.isV = true ∧ i0.mn ≠ .ldp ∧ i0.mn ≠ .cen := by
      revert hv
      cases i0.mn <;> decide
    obtain ⟨hv, hldp, hcen⟩ := hkind
    rw [hsteps, steps_planInst_of_isV s1 hv hldp hcen hm hn, k_planRows]
  case single => rw [hsteps, steps_planInst_of_single s1 hone hn, List.length_singleton]
  case census => rw [hsteps, steps_planInst_of_cen s1 hcen hm hn, k_planRows]
  case predicted =>
    rw [hsteps, steps_planInst_of_pred s1 hpred, desc_of_descs (htakenDescs.trans hdescs.symm), List.map_map]
    exact List.map_id _
  case exponent => rw [upd_of_lasting hlasting, xst_atIssue s1 t (i0 := newInst (s.tray t) i0.mn i0.word ds) hupd, newInst]

end Sys2Proof.Machine
end

section
/-! PROOFS. The plan of a product: the groups of output tiles that the tiler forms hold each tile of the grid, and the tiles' rows and columns cover the output. -/

namespace Sys2Proof.Machine

open Sys2Proof.Claims

/-! ### The extents of tiles along an axis (R302, R303) -/

theorem cdiv_le_iff {a b c : Nat} (hb : 0 < b) : cdiv a b ≤ c ↔ a ≤ b * c := by
  rw [cdiv, Nat.div_le_iff_le_mul hb, Nat.mul_comm c b]
  omega

theorem lt_cdiv_iff {a b c : Nat} (hb : 0 < b) : c < cdiv a b ↔ b * c < a := by
  rw [← Nat.not_le, cdiv_le_iff hb, Nat.not_le]

theorem le_mul_cdiv (a : Nat) {b : Nat} (hb : 0 < b) : a ≤ b * cdiv a b := (cdiv_le_iff hb).mp (Nat.le_refl _)

/-- A number divided by as many parts as it has pieces of 256 gives parts of at most 256. -/
theorem cdiv_cdiv_le {m : Nat} (hm : 0 < m) : cdiv m (cdiv m 256) ≤ 256 :=
  (cdiv_le_iff ((lt_cdiv_iff (by decide)).mpr hm)).mpr (Nat.mul_comm 256 _ ▸ le_mul_cdiv m (b := 256) (by decide))

theorem tileRows_le {m : Nat} (hm : 0 < m) : tileRows m ≤ 256 := by
  have hquads : cdiv (cdiv m (cdiv m 256)) 4 ≤ 64 := (cdiv_le_iff (by decide)).mpr (cdiv_cdiv_le hm)
  unfold tileRows
  omega

/-- The row tiles hold every row. -/
theorem le_tileRows_mul {m : Nat} (hm : 0 < m) : m ≤ tileRows m * cdiv m 256 := by
  have htiles : 0 < cdiv m 256 := (lt_cdiv_iff (by decide)).mpr hm
  calc m ≤ cdiv m 256 * cdiv m (cdiv m 256) := le_mul_cdiv m htiles
    _ ≤ cdiv m 256 * tileRows m := Nat.mul_le_mul_left _ (le_mul_cdiv _ (by decide))
    _ = tileRows m * cdiv m 256 := Nat.mul_comm _ _

theorem tileRows_pos {m : Nat} (hm : 0 < m) : 0 < tileRows m := Nat.pos_of_mul_pos_right (Nat.lt_of_lt_of_le hm (le_tileRows_mul hm))

/-- Every row tile has a row. -/
theorem mul_tileRows_lt {m a : Nat} (hm : 0 < m) (ha : a < cdiv m 256) : a * tileRows m < m :=
  calc a * tileRows m ≤ a * 256 := Nat.mul_le_mul_left _ (tileRows_le hm)
    _ = 256 * a := Nat.mul_comm _ _
    _ < m := (lt_cdiv_iff (by decide)).mp ha

/-- The tile that holds position `r` of an axis whose tiles of `size` reach past it. -/
theorem div_lt_of_le_mul {size count extent r : Nat} (h : extent ≤ size * count) (hr : r < extent) : r / size < count :=
  Nat.div_lt_of_lt_mul (Nat.lt_of_lt_of_le hr h)

/-- A position lies in the tile of its quotient, whose end the axis may cut. -/
theorem mem_tile_of_div {size extent r : Nat} (hsize : 0 < size) (hr : r < extent) :
    r / size * size ≤ r ∧ r < r / size * size + min size (extent - r / size * size) := by
  have hle := Nat.div_mul_le_self r size
  have hlt := Nat.lt_div_mul_add (a := r) hsize
  omega

theorem faceOf_pos (pack : Nat) : 0 < faceOf pack := by
  unfold faceOf
  split <;> decide

theorem faceOf_le (pack : Nat) : faceOf pack ≤ 256 := by
  unfold faceOf
  split <;> decide

/-! ### The step sequence visits each place of the grid (R308) -/

theorem flatten_chunksFuel {α : Type} {n : Nat} (hn : 0 < n) (fuel : Nat) (l : List α) (h : l.length ≤ fuel) : (chunksFuel n fuel l).flatten = l := by
  induction fuel generalizing l with
  | zero => exact (List.eq_nil_of_length_eq_zero (Nat.le_zero.mp h)).symm
  | succ fuel ih =>
    cases l with
    | nil => rfl
    | cons x l =>
      have hdrop : ((x :: l).drop n).length ≤ fuel := by
        rw [List.length_drop]
        omega
      rw [chunksFuel, List.flatten_cons, ih _ hdrop, List.take_append_drop]
      exact List.cons_ne_nil x l

theorem flatten_chunks {α : Type} {n : Nat} (hn : 0 < n) (l : List α) : (chunks n l).flatten = l := flatten_chunksFuel hn l.length l (Nat.le_refl _)

theorem exists_mem_chunks {α : Type} {n : Nat} (hn : 0 < n) (l : List α) (x : α) : (∃ c ∈ chunks n l, x ∈ c) ↔ x ∈ l := by
  rw [← List.mem_flatten, flatten_chunks hn]

/-- Whatever its code, a loop order visits each triple of its ranges. -/
theorem mem_visit {α : Type} {code : Nat} {ms ns ks : List α} {a b c : α} : (a, b, c) ∈ visit code ms ns ks ↔ a ∈ ms ∧ b ∈ ns ∧ c ∈ ks := by
  unfold visit
  split <;> simp only [List.mem_flatMap, List.mem_map, Prod.mk.injEq] <;> grind

theorem mem_stepSequence {lpddr larder bench tm tn tk m n k : Nat} : (m, n, k) ∈ stepSequence lpddr larder bench tm tn tk ↔ m < tm ∧ n < tn ∧ k < tk := by
  have h4 (l : List Nat) (x : Nat) := exists_mem_chunks (n := 4) (by decide) l x
  have h16 (l : Nat) (x : Nat) := exists_mem_chunks (n := 16) (by decide) (List.range l) x
  simp only [List.mem_range] at h16
  unfold stepSequence
  simp only [List.mem_flatMap, Prod.exists, mem_visit]
  constructor
  · rintro ⟨sm, sn, sk, ⟨hsm, hsn, hsk⟩, bm, bn, bk, ⟨hbm, hbn, hbk⟩, hm, hn, hk⟩
    exact ⟨(h16 tm m).mp ⟨sm, hsm, (h4 sm m).mp ⟨bm, hbm, hm⟩⟩,
      (h16 tn n).mp ⟨sn, hsn, (h4 sn n).mp ⟨bn, hbn, hn⟩⟩, (h16 tk k).mp ⟨sk, hsk, (h4 sk k).mp ⟨bk, hbk, hk⟩⟩⟩
  · rintro ⟨hm, hn, hk⟩
    obtain ⟨sm, hsm, hm⟩ := (h16 tm m).mpr hm
    obtain ⟨sn, hsn, hn⟩ := (h16 tn n).mpr hn
    obtain ⟨sk, hsk, hk⟩ := (h16 tk k).mpr hk
    obtain ⟨bm, hbm, hm⟩ := (h4 sm m).mpr hm
    obtain ⟨bn, hbn, hn⟩ := (h4 sn n).mpr hn
    obtain ⟨bk, hbk, hk⟩ := (h4 sk k).mpr hk
    exact ⟨sm, sn, sk, ⟨hsm, hsn, hsk⟩, bm, bn, bk, ⟨hbm, hbn, hbk⟩, hm, hn, hk⟩

/-! ### The groups hold each tile of the sequence (R237, R310) -/

/-- The open sets hold the tiles of the sequence beside those already open. -/
theorem mem_flatten_openSets (full : List (Nat × Nat)) (l : List (Nat × Nat)) (x : Nat × Nat) (p : Nat) (cur : List (Nat × Nat)) (last : Nat) :
    x ∈ (openSets full p l cur last).flatten ↔ x ∈ cur ∨ x ∈ l := by
  induction l generalizing p cur last with
  | nil =>
    unfold openSets
    split
    · next hcur => simp [List.isEmpty_iff.mp hcur]
    · simp
  | cons y l ih =>
    unfold openSets
    split
    · next hcur => simp [ih, List.isEmpty_iff.mp hcur]
    · split
      · simp [ih]
      · split
        · next hy =>
          have hmem : y ∈ cur := by simpa using hy
          rw [ih, List.mem_cons]
          exact ⟨Or.imp_right Or.inr, fun h => h.elim Or.inl (fun h => h.elim (fun e => Or.inl (e ▸ hmem)) Or.inr)⟩
        · simp [ih, or_assoc]

theorem flatten_joinUpTo {α : Type} (o : Nat) (l : List (List α)) (cur : List α) : (joinUpTo o l cur).flatten = cur ++ l.flatten := by
  induction l generalizing cur with
  | nil =>
    unfold joinUpTo
    split
    · next hcur => simp [List.isEmpty_iff.mp hcur]
    · simp
  | cons x l ih =>
    unfold joinUpTo
    split <;> simp [ih]

/-- Whatever their limit, the groups hold the output tiles of the sequence. -/
theorem exists_mem_tileGroups (seq : List (Nat × Nat × Nat)) (o m n : Nat) : (∃ grp ∈ tileGroups seq o, (m, n) ∈ grp) ↔ ∃ k, (m, n, k) ∈ seq := by
  have hseq : (m, n) ∈ seq.map (fun x => (x.1, x.2.1)) ↔ ∃ k, (m, n, k) ∈ seq := by simp
  rw [← List.mem_flatten, ← hseq]
  unfold tileGroups
  dsimp only
  split
  · rw [List.flatten_filter_not_isEmpty, flatten_joinUpTo, List.nil_append, mem_flatten_openSets]
    simp
  · rw [flatten_chunks (by omega), mem_flatten_openSets]
    simp

/-! ### The output tiles of a plan -/

section
variable {g : Grid} {order o : Nat} {dst : Desc}

/-- The output tiles of a plan are those of its groups, each with its group's number. -/
theorem mem_tiles_planProduct {x : OTile} :
    x ∈ (planProduct g order dst o).1 ↔ ∃ grp number m n, (grp, number) ∈ (tileGroups (stepSequence order (if dst.loLarder = 0 then 1 else dst.loLarder)
      (if dst.loBench = 0 then 1 else dst.loBench) g.tm g.tn (max g.tk 1)) o).zipIdx ∧ (m, n) ∈ grp ∧ newTile g number m n = x := by
  simp only [planProduct, List.mem_flatMap, List.mem_map, Prod.exists]
  grind

/-- An output tile of a plan stands at a place of the grid. -/
theorem place_of_mem_planProduct {x : OTile} (h : x ∈ (planProduct g order dst o).1) : ∃ number m n, m < g.tm ∧ n < g.tn ∧ x = newTile g number m n := by
  obtain ⟨grp, number, m, n, hgrp, hmem, rfl⟩ := mem_tiles_planProduct.mp h
  obtain ⟨k, hk⟩ := (exists_mem_tileGroups _ o m n).mp ⟨grp, List.fst_mem_of_mem_zipIdx hgrp, hmem⟩
  obtain ⟨hm, hn, -⟩ := mem_stepSequence.mp hk
  exact ⟨number, m, n, hm, hn, rfl⟩

/-- Each place of the grid has an output tile. -/
theorem exists_newTile_mem_planProduct {m n : Nat} (hm : m < g.tm) (hn : n < g.tn) : ∃ number, newTile g number m n ∈ (planProduct g order dst o).1 := by
  obtain ⟨grp, hgrp, hmem⟩ := (exists_mem_tileGroups _ o m n).mpr ⟨0, mem_stepSequence.mpr ⟨hm, hn, Nat.lt_of_lt_of_le Nat.zero_lt_one (Nat.le_max_right g.tk 1)⟩⟩
  obtain ⟨number, hlt, hat⟩ := List.mem_iff_getElem.mp hgrp
  exact ⟨number, mem_tiles_planProduct.mpr ⟨grp, number, m, n, List.mk_mem_zipIdx_iff_getElem?.mpr (List.getElem?_eq_some_iff.mpr ⟨hlt, hat⟩), hmem, rfl⟩⟩

end

/-! ### The plan of a product without a mask -/

section
variable (s : State) {i : Inst} (hp : i.mn.isProduct = true) (hmask : i.mask = none) (hm : 0 < W.m i.word) (hn : 0 < W.nT i.word)
include hp hmask hm hn

theorem planInst_of_isProduct : planInst s i = planT i none := by
  have hupd : i.mn ≠ .upd := fun e => by simp [e, Mn.isProduct] at hp
  have hldw : i.mn ≠ .ldw := fun e => by simp [e, Mn.isProduct] at hp
  have hldp : i.mn ≠ .ldp := fun e => by simp [e, Mn.isProduct] at hp
  simp [planInst, hp, hmask, hupd, hldw, hldp, Nat.ne_of_gt hm, Nat.ne_of_gt hn]

/-- The output tiles of a product without a mask are those of its grid. -/
theorem tiles_planInst_of_isProduct : ∃ order dst o, (planInst s i).tiles = (planProduct (gridOf i.mn i.word (W.k i.word) (W.nT i.word)) order dst o).1 := by
  have hgrid : gridFor i none = gridOf i.mn i.word (W.k i.word) (W.nT i.word) := by simp [gridFor]
  have hcols : max 1 (cdiv (W.nT i.word) (faceOf (W.pack i.word))) = cdiv (W.nT i.word) (faceOf (W.pack i.word)) :=
    Nat.max_eq_right ((lt_cdiv_iff (faceOf_pos _)).mpr hn)
  rw [planInst_of_isProduct s hp hmask hm hn]
  unfold planT
  rw [hgrid]
  dsimp only [gridOf]
  rw [hcols, if_neg (Nat.ne_of_gt hn)]
  exact ⟨_, _, _, rfl⟩

theorem planned_planInst_of_isProduct : (planInst s i).planned = true := by
  rw [planInst_of_isProduct s hp hmask hm hn]
  rfl

/-- The tiles of a product without a mask lie inside its output, and each waits for the passes of the whole reduction (R304). -/
theorem tile_bounds_of_isProduct {x : OTile} (hx : x ∈ (planInst s i).tiles) :
    x.row0 + x.rows ≤ W.m i.word ∧ x.col0 + x.cols ≤ W.nT i.word ∧ 0 < x.rows ∧ x.rows ≤ 256 ∧ 0 < x.cols ∧ x.cols ≤ 256 ∧
      x.stepsLeft = cdiv (W.k i.word) (tileK i.mn i.word) := by
  obtain ⟨order, dst, o, htiles⟩ := tiles_planInst_of_isProduct s hp hmask hm hn
  rw [htiles] at hx
  obtain ⟨number, a, b, ha, hb, rfl⟩ := place_of_mem_planProduct hx
  have hrow := mul_tileRows_lt hm ha
  have hcol : b * faceOf (W.pack i.word) < W.nT i.word := Nat.mul_comm _ _ ▸ (lt_cdiv_iff (faceOf_pos _)).mp hb
  have hrows := tileRows_pos hm
  have hrows256 := tileRows_le hm
  have hface := faceOf_pos (W.pack i.word)
  have hface256 := faceOf_le (W.pack i.word)
  dsimp only [newTile, gridOf]
  omega

/-- The tiles of a product without a mask cover its output. -/
theorem exists_tile_of_isProduct {r c : Nat} (hr : r < W.m i.word) (hc : c < W.nT i.word) :
    ∃ x ∈ (planInst s i).tiles, x.row0 ≤ r ∧ r < x.row0 + x.rows ∧ x.col0 ≤ c ∧ c < x.col0 + x.cols := by
  obtain ⟨order, dst, o, htiles⟩ := tiles_planInst_of_isProduct s hp hmask hm hn
  have hface := faceOf_pos (W.pack i.word)
  obtain ⟨number, hmem⟩ := exists_newTile_mem_planProduct (g := gridOf i.mn i.word (W.k i.word) (W.nT i.word)) (order := order) (o := o) (dst := dst)
    (div_lt_of_le_mul (le_tileRows_mul hm) hr) (div_lt_of_le_mul (le_mul_cdiv _ hface) hc)
  obtain ⟨hrow0, hrow⟩ := mem_tile_of_div (tileRows_pos hm) hr
  obtain ⟨hcol0, hcol⟩ := mem_tile_of_div hface hc
  rw [htiles]
  exact ⟨_, hmem, hrow0, hrow, hcol0, hcol⟩

end

/-! ### The release of a product keeps its tiles (R26, R335) -/

/-- The output tiles of the instructions that a tray has in flight. -/
def Tray.grids (r : Tray) : List (List OTile) := r.insts.map Inst.tiles

theorem grids_modInst (s : State) (t k u : Nat) {f : Inst → Inst} (hf : ∀ i, (f i).tiles = i.tiles) : ((s.modInst t k f).tray u).grids = (s.tray u).grids :=
  tray_part_modTray Tray.grids s t u (fun r => map_modFirst hf r.insts)

theorem grids_takeWait (s : State) (t : Nat) (i : Inst) (u : Nat) : ((takeWait s t i).tray u).grids = (s.tray u).grids := by
  unfold takeWait
  split
  · rfl
  · exact (grids_modInst _ t i.seq u (f := fun x => { x with waitMet := true }) (fun _ => rfl)).trans (tray_part_modTray Tray.grids s t u (fun _ => rfl))

theorem keptByFills_tray (u : Nat) : KeptByFills (fun s => s.tray u) where
  modProofer _ _ _ := rfl
  tick _ := rfl

theorem tray_startStream (s : State) (t seq : Nat) (st : Settings) (d : Desc) (x : Role × Nat × Nat × List Fill) (issued : Bool) (u : Nat) :
    (startStream s t seq st d x issued).tray u = s.tray u := by
  unfold startStream
  split <;> rfl

/-- The streams of an instruction change of its tray no more than its count of inputs. -/
theorem grids_startStreams (s : State) (t k u : Nat) : ((startStreams s t k).tray u).grids = (s.tray u).grids := by
  unfold startStreams
  split
  · rfl
  · refine (congrArg Tray.grids (foldl_keeps (π := fun s => s.tray u) (fun s n => (keptByFills_tray u).fillSlots_eq 8 s _ n) _ _)).trans
      ((congrArg Tray.grids (foldl_keeps (π := fun s => s.tray u) (fun s x => ?_) _ _)).trans (grids_modInst _ _ _ _ (fun _ => rfl)))
    split
    · rfl
    · exact tray_startStream _ _ _ _ _ _ _ _

theorem grids_releaseInst_of_isProduct {s : State} {t k : Nat} {i : Inst} (hi : s.inst t k = some i) (hp : i.mn.isProduct = true) (u : Nat) :
    ((releaseInst s t k).tray u).grids = (s.tray u).grids := by
  have hkind : i.mn ≠ .bar ∧ ¬ (i.mn.isX = true ∨ i.mn.isFab = true) := by
    revert hp
    cases i.mn <;> decide
  obtain ⟨hbar, htransfer⟩ := hkind
  simp only [releaseInst, hi, if_neg hbar, if_neg htransfer]
  split
  · exact grids_modInst _ _ _ _ (fun _ => rfl)
  · exact (grids_startStreams _ _ _ _).trans (grids_modInst _ _ _ _ (fun _ => rfl))

/-- Whether or not a product is released, its tray's output tiles stay. -/
theorem grids_tryRelease_of_isProduct {s : State} {t : Nat} {i : Inst} (ht : t < 32) (hfirst : (s.tray t).insts.find? (fun i => !i.released) = some i)
    (hi : s.inst t i.seq = some i) (hp : i.mn.isProduct = true) : ((tryRelease s t).tray t).grids = (s.tray t).grids := by
  have hran : ∀ f : Tray → TrayState, ((s.modTray t (fun x => { x with state := f x })).tray t).grids = (s.tray t).grids := fun f =>
    tray_part_modTray Tray.grids s t t (fun _ => rfl)
  have hinst : ∀ f : Tray → TrayState, (s.modTray t (fun x => { x with state := f x })).inst t i.seq = some i := fun f => by
    rw [State.inst, State.tray_modTray_same _ _ ht]
    exact hi
  simp only [tryRelease, hfirst]
  split
  · rfl
  · split
    · split
      · split
        · rw [grids_takeWait, hran]
        · exact hran _
      · obtain ⟨j, hj, hmn⟩ := inst_takeWait ht (hinst (fun x => if x.state = .blocked then .run else x.state))
        rw [grids_releaseInst_of_isProduct hj (hmn ▸ hp), grids_takeWait, hran]
    · rfl

/-! ### The statement -/

theorem planned_of_lasting {i j : Inst} (h : i.lasting = j.lasting) : i.planned = j.planned := by
  change i.lasting.planned = j.lasting.planned
  rw [h]

theorem planned_atIssue (s : State) (t : Nat) (i0 : Inst) : (i0.atIssue s t).planned = (planInst s { i0 with mask := maskBindOf s t i0.mn i0.word }).planned := rfl

theorem tiles_atIssue (s : State) (t : Nat) (i0 : Inst) : (i0.atIssue s t).tiles = (planInst s { i0 with mask := maskBindOf s t i0.mn i0.word }).tiles := rfl

/-- A product in flight has the output tiles of its plan, whether or not it has been released. -/
theorem issued_of_passes_of_isProduct {s s1 : State} {t : Nat} {mn : Mn} {w : IWord} {ds : List (Role × Nat × Desc)} (h : Passes s t mn w ds s1) (hp : mn.isProduct = true) :
    ∃ s' i, exec (issueCommand mn t) s = .next s' ∧ TakenBy (s.tray t) (s'.tray t) mn w ds i ∧
      i.lasting = ((newInst (s.tray t) mn w ds).atIssue s1 t).lasting ∧ i.tiles = ((newInst (s.tray t) mn w ds).atIssue s1 t).tiles := by
  obtain ⟨s', i, hexec, htaken, hlasting, -⟩ := issued_of_passes h
  obtain ⟨s2, hholds, hfirst, hown, hexec2⟩ := holds_of_passes h
  obtain rfl : tryRelease s2 t = s' := Host.Outcome.next.inj (hexec2.symm.trans hexec)
  have hfetched := fetched_atIssue s1 t (newInst (s.tray t) mn w ds)
  simp only [Inst.fetched, newInst, Prod.mk.injEq] at hfetched
  obtain ⟨hseq, -, hmn, -⟩ := hfetched
  have hgrids := grids_tryRelease_of_isProduct h.unit hfirst (hseq.symm ▸ hown) (hmn.symm ▸ hp)
  refine ⟨_, i, hexec, htaken, hlasting, ?_⟩
  have hlast := congrArg List.getLast? hgrids
  rw [Tray.grids, Tray.grids, List.getLast?_map, List.getLast?_map, htaken.1, hholds.insts, List.getLast?_concat] at hlast
  exact Option.some.inj hlast

/-- Settles O7: the release of a product keeps the tiles of its plan, and those are the tiles of its grid, one for each place, whatever the loop orders and the groups. -/
theorem productTilesCoverTheOutput : Obligations.ProductTilesCoverTheOutput := by
  unfold Obligations.ProductTilesCoverTheOutput
  intro mn s s1 t w ds h hp hmask hm hn
  obtain ⟨s', i, hexec, htaken, hlasting, htiles⟩ := issued_of_passes_of_isProduct h hp
  obtain ⟨i0, rfl, rfl, hmask0, hplanned, htiles⟩ : ∃ i0 : Inst, i0.mn = mn ∧ i0.word = w ∧ i0.mask = none ∧
      i.planned = (planInst s1 i0).planned ∧ i.tiles = (planInst s1 i0).tiles :=
    ⟨{ newInst (s.tray t) mn w ds with mask := maskBindOf s1 t mn w }, rfl, rfl, hmask,
      (planned_of_lasting hlasting).trans (planned_atIssue s1 t _), htiles.trans (tiles_atIssue s1 t _)⟩
  refine ⟨s', i, hexec, htaken, hplanned.trans (planned_planInst_of_isProduct s1 hp hmask0 hm hn), fun x hx => ?bounds, fun r hr c hc => ?covered⟩
  case bounds => exact tile_bounds_of_isProduct s1 hp hmask0 hm hn (htiles ▸ hx)
  case covered =>
    rw [htiles]
    exact exists_tile_of_isProduct s1 hp hmask0 hm hn hr hc

end Sys2Proof.Machine
end

section
/-! PROOFS. An instruction of zero shape has no plan, and its release, which nothing holds, leaves it done. -/

namespace Sys2Proof.Machine

open Sys2Proof.Claims

/-! ### The plan of zero shape (R290, R314) -/

/-- Whether an instruction of layout T or V, or an MXM.LDW, has M = 0 or N = 0. -/
def ZeroShape (mn : Mn) (w : IWord) : Prop :=
  (mn.isProduct = true ∧ (W.m w = 0 ∨ W.nT w = 0)) ∨ (mn.isV = true ∧ mn ≠ .ldp ∧ (W.m w = 0 ∨ W.nV w = 0)) ∨ (mn = .ldw ∧ W.nT w = 0)

theorem planInst_of_zeroShape (s : State) {i : Inst} (h : ZeroShape i.mn i.word) : planInst s i = { i with planned := true, zeroShape := true } := by
  obtain ⟨hp, hmn⟩ | ⟨hv, hldp, hmn⟩ | ⟨hldw, hn⟩ := h
  · have hldp : i.mn ≠ .ldp := fun e => by simp [e, Mn.isProduct] at hp
    simp [planInst, hp, hldp, hmn]
  · simp [planInst, Mn.isProduct_of_isV hv, hv, hldp, hmn]
  · simp [planInst, hldw, hn]

/-- No SYNC.BAR and no CTRL.END has a zero shape. -/
theorem ne_of_zeroShape {mn : Mn} {w : IWord} (h : ZeroShape mn w) : mn ≠ .bar ∧ mn ≠ .endTask := by
  obtain ⟨hp, -⟩ | ⟨hv, -⟩ | ⟨rfl, -⟩ := h
  · constructor <;> rintro rfl <;> cases hp
  · constructor <;> rintro rfl <;> cases hv
  · decide

/-- What the issue of an instruction of zero shape puts in flight: no step, no tile, its wait still to be met. -/
theorem atIssue_of_zeroShape (s : State) (t : Nat) {r : Tray} {mn : Mn} {w : IWord} {ds : List (Role × Nat × Desc)} (h : ZeroShape mn w) :
    ((newInst r mn w ds).atIssue s t).steps = [] ∧ ((newInst r mn w ds).atIssue s t).tiles = [] ∧ ((newInst r mn w ds).atIssue s t).zeroShape = true ∧
      ((newInst r mn w ds).atIssue s t).waitMet = false := by
  have hplan := planInst_of_zeroShape s (i := { newInst r mn w ds with mask := maskBindOf s t mn w }) h
  exact ⟨congrArg Inst.steps hplan, congrArg Inst.tiles hplan, congrArg Inst.zeroShape hplan, congrArg Inst.waitMet hplan⟩

/-! ### The tray as it tries the release (R26, R83) -/

/-- What the release of a new instruction looks at in its tray, once it has issued: it stands last of those in flight, the tokens are
those of before, and the tray's state is that of its wait. -/
structure Awaits (s : State) (t : Nat) (i : Inst) (s' : State) : Prop where
  insts : (s'.tray t).insts = (s.tray t).insts ++ [i]
  tokens : (s'.tray t).tokens = (s.tray t).tokens
  state : (s'.tray t).state = if i.mn = .endTask then .ending else if tokensMet (s.tray t).tokens (W.wait i.word) (waitCount i) then .run else .blocked

theorem tokens_disarm (s : State) (t u : Nat) : ((disarm s t).tray u).tokens = (s.tray u).tokens := by
  unfold disarm
  dsimp only
  split
  · rfl
  · rw [tray_freeMaps, tray_modLevain]
    exact tray_part_modTray Tray.tokens s t u (fun _ => rfl)

theorem issueInst_awaits (s : State) {t : Nat} (ht : t < 32) (i0 : Inst) : ∃ s', Awaits s t (i0.atIssue s t) s' ∧ issueInst s t i0 = tryRelease s' t := by
  have hfetched := fetched_atIssue s t i0
  simp only [Inst.fetched, Prod.mk.injEq] at hfetched
  obtain ⟨-, -, hmn, hword, -⟩ := hfetched
  unfold issueInst
  dsimp only
  refine ⟨_, ⟨?insts, ?tokens, ?state⟩, rfl⟩
  case insts =>
    simp only [tray_wrote, State.tray_modTray_same _ _ ht, tray_ite, tray_clearTags, tray_modVec, tray_modProofer, tray_takeMap, tray_dropStreams, tray_countRed, ite_self,
      apply_ite Tray.insts, insts_disarm]
    rfl
  case tokens =>
    simp only [tray_wrote, State.tray_modTray_same _ _ ht, tray_ite, tray_clearTags, tray_modVec, tray_modProofer, tray_takeMap, tray_dropStreams, tray_countRed, ite_self,
      apply_ite Tray.tokens, tokens_disarm]
  case state =>
    rw [tray_wrote, State.tray_modTray_same _ _ ht, hmn, hword]
    rfl

/-! ### The release of an instruction that nothing holds -/

theorem modFirst_concat {α : Type} {p : α → Bool} {f : α → α} {l : List α} {x : α} (hl : ∀ y ∈ l, p y = false) (hx : p x = true) : modFirst p f (l ++ [x]) = l ++ [f x] := by
  induction l with
  | nil => simp [modFirst, hx]
  | cons y l ih =>
    obtain ⟨hy, hl⟩ := List.forall_mem_cons.mp hl
    simp [modFirst, hy, ih hl]

section
variable {s : State} {t : Nat} {l : List Inst} {i : Inst} (ht : t < 32) (hinsts : (s.tray t).insts = l ++ [i]) (hfresh : ∀ j ∈ l, j.seq ≠ i.seq)
include hinsts hfresh

theorem inst_last : s.inst t i.seq = some i := by
  rw [State.inst, hinsts, List.find?_append, List.find?_eq_none.mpr (fun j hj => by simpa using hfresh j hj)]
  simp

include ht

/-- A change of the last of the instructions in flight. -/
theorem insts_modInst_last (f : Inst → Inst) : ((s.modInst t i.seq f).tray t).insts = l ++ [f i] := by
  rw [State.modInst, State.tray_modTray_same _ _ ht]
  dsimp only
  rw [hinsts, modFirst_concat (fun j hj => by simpa using hfresh j hj) (by simp)]

theorem insts_takeWait_last (hwait : i.waitMet = false) : ((takeWait s t i).tray t).insts = l ++ [{ i with waitMet := true }] := by
  simp only [takeWait, hwait, Bool.false_eq_true, if_false]
  refine insts_modInst_last ht ?_ hfresh _
  rw [State.tray_modTray_same _ _ ht]
  exact hinsts

/-- The release of an instruction of zero shape leaves it done, and no other instruction changed (R314). -/
theorem insts_releaseInst_of_zeroShape (hbar : i.mn ≠ .bar) (hzero : i.zeroShape = true) :
    ∃ n, ((releaseInst s t i.seq).tray t).insts = l ++ [{ i with released := true, srCnt := n, done := true }] := by
  refine ⟨(s.tray t).srCount, ?_⟩
  simp only [releaseInst, inst_last hinsts hfresh, if_neg hbar, hzero, true_or, if_true]
  rw [insts_modInst_last ht hinsts hfresh, hzero, Bool.or_true]

/-- An instruction of zero shape whose wait is met, and which no FENCE holds back, is released and done. -/
theorem insts_tryRelease_of_zeroShape (hreleased : ∀ j ∈ l, j.released = true) (hunreleased : i.released = false) (hwait : i.waitMet = false) (hrun : (s.tray t).state = .run)
    (hmet : tokensMet (s.tray t).tokens (W.wait i.word) (waitCount i) = true) (hfence : W.fence i.word = true → l = []) (hbar : i.mn ≠ .bar) (hend : i.mn ≠ .endTask)
    (hzero : i.zeroShape = true) : ∃ n, ((tryRelease s t).tray t).insts = l ++ [{ i with waitMet := true, released := true, srCnt := n, done := true }] := by
  have hfirst : (s.tray t).insts.find? (fun i => !i.released) = some i := by
    rw [hinsts, List.find?_append, List.find?_eq_none.mpr (fun j hj => by simp [hreleased j hj])]
    simp [hunreleased]
  have hunheld : ((W.fence i.word || i.mn == .endTask) && !((s.tray t).insts.all (fun j => decide (i.seq ≤ j.seq)))) = false := by
    cases hf : W.fence i.word with
    | false => simp [hend]
    | true => simp [hinsts, hfence hf]
  have hrelease : tryRelease s t = releaseInst (takeWait (s.modTray t (fun x => { x with state := if x.state = .blocked then .run else x.state })) t i) t i.seq := by
    simp [tryRelease, Tray.live, hrun, hfirst, hmet, hunheld]
  have hinsts' : ((s.modTray t (fun x => { x with state := if x.state = .blocked then .run else x.state })).tray t).insts = l ++ [i] := by
    rw [State.tray_modTray_same _ _ ht]
    exact hinsts
  rw [hrelease]
  exact insts_releaseInst_of_zeroShape ht (insts_takeWait_last ht hinsts' hfresh hwait) hfresh hbar hzero

end

/-! ### The statement -/

section
variable {s s1 : State} {t : Nat} {mn : Mn} {w : IWord} {ds : List (Role × Nat × Desc)} (h : Passes s t mn w ds s1)
include h

/-- The issue of an instruction that passed its checks ends with the trial of its release. -/
theorem awaits_of_passes : ∃ s2, Awaits s t ((newInst (s.tray t) mn w ds).atIssue s1 t) s2 ∧ exec (issueCommand mn t) s = .next (tryRelease s2 t) := by
  obtain ⟨s2, ⟨hinsts, htokens, hstate⟩, hissue⟩ := issueInst_awaits s1 h.unit (newInst (s.tray t) mn w ds)
  rw [tray_of_trays (trays_of_passes h)] at hinsts htokens hstate
  exact ⟨s2, ⟨hinsts, htokens, hstate⟩, (exec_issueCommand_of_passes h).trans (congrArg _ hissue)⟩

/-- An instruction of zero shape that passed its checks and is free to go is in flight with no plan, released and done. -/
theorem zeroShape_done_of_passes (hfree : FreeToGo (s.tray t) mn w) (hz : ZeroShape mn w) :
    ∃ s' i, exec (issueCommand mn t) s = .next s' ∧ TakenBy (s.tray t) (s'.tray t) mn w ds i ∧ i.steps = [] ∧ i.tiles = [] ∧ i.released = true ∧ i.done = true ∧
      i.zeroShape = true := by
  obtain ⟨hmet, hfence⟩ := hfree
  obtain ⟨hbar, hend⟩ := ne_of_zeroShape hz
  obtain ⟨s2, ⟨hinsts, htokens, hstate⟩, hexec⟩ := awaits_of_passes h
  have hunreleased := released_atIssue s1 t (newInst (s.tray t) mn w ds)
  have hfetched := fetched_atIssue s1 t (newInst (s.tray t) mn w ds)
  obtain ⟨hsteps, htiles, hzero, hwait⟩ := atIssue_of_zeroShape s1 t (r := s.tray t) (ds := ds) hz
  generalize (newInst (s.tray t) mn w ds).atIssue s1 t = i at *
  simp only [Inst.fetched, newInst, Prod.mk.injEq] at hfetched hunreleased
  obtain ⟨hseq, hindex, rfl, rfl, hdescs, hset⟩ := hfetched
  have hcount : tokensMet (s.tray t).tokens (W.wait i.word) (waitCount i) = true := hmet
  rw [if_neg hend, if_pos hcount] at hstate
  obtain ⟨n, hreleased⟩ := insts_tryRelease_of_zeroShape h.unit hinsts (fun j hj => hseq ▸ Nat.ne_of_lt (h.fresh j hj)) (released_of_passes h) hunreleased hwait hstate
    (htokens.symm ▸ hcount) hfence hbar hend hzero
  refine ⟨tryRelease s2 t, { i with waitMet := true, released := true, srCnt := n, done := true }, hexec, ⟨?last, ?length, hseq, hindex, rfl, rfl, hdescs, hset⟩,
    hsteps, htiles, rfl, rfl, hzero⟩
  case last => rw [hreleased, List.getLast?_concat]
  case length => rw [hreleased, List.length_append, List.length_singleton]

end

/-- Settles O9: the plan of zero shape is empty, and as nothing holds the instruction its issue ends with its release, by which it is done. -/
theorem zeroShapeIsDoneAtRelease : Obligations.ZeroShapeIsDoneAtRelease := by
  unfold Obligations.ZeroShapeIsDoneAtRelease
  intro mn s s1 t w ds h hfree hz
  exact zeroShape_done_of_passes h hfree hz

end Sys2Proof.Machine
end

section
/-! PROOFS. Transfers are requested: the release of an XFER that nothing holds puts its requests at the ends of its channels. Of XFER.REMOTE the messages are those of log entry 53. -/

namespace Sys2Proof.Machine

open Sys2Proof.Claims

/-! ### Requests on a channel (R332, R334) -/

theorem channel_modChannel_same (s : State) {c ch : Nat} (f : Channel → Channel) (hc : c < 4) (hch : ch < 4) : (s.modChannel c ch f).channel c ch = f (s.channel c ch) := by
  rw [State.channel, State.modChannel, State.modProofer, State.core_modCore_same _ _ hc, Vec.get_put_same _ _ _ hch]
  rfl

theorem channel_tick (s : State) (c ch : Nat) : s.tick.channel c ch = s.channel c ch := rfl

theorem coreOf_lt {t : Nat} (ht : t < 32) : coreOf t < 4 := by
  unfold coreOf
  omega

theorem waiting_addRequest (s : State) {t ch : Nat} (seq : Nat) (work : XferWork) (ht : t < 32) (hch : ch < 4) : ((addRequest s t seq ch work).channel (coreOf t) ch).waiting =
    (s.channel (coreOf t) ch).waiting ++ [{ id := s.ord, tray := t, seq := seq, work := work, urgent := false, since := s.now, issued := false, walks := 0 }] := by
  rw [addRequest, channel_tick, channel_modChannel_same _ _ (coreOf_lt ht) hch]

section
variable {t ch : Nat} (ht : t < 32) (hch : ch < 4)
include ht hch

theorem waitsOn_addRequest (s : State) (seq : Nat) (work : XferWork) : WaitsOn (addRequest s t seq ch work) t seq ch work := by
  rw [WaitsOn, waiting_addRequest s seq work ht hch]
  exact ⟨_, List.mem_concat_self, rfl, rfl, rfl, rfl⟩

/-- A request waits on behind others. -/
theorem waitsOn_addRequest_of_waitsOn {s : State} {seq : Nat} {work : XferWork} (h : WaitsOn s t seq ch work) (work' : XferWork) : WaitsOn (addRequest s t seq ch work') t seq ch work := by
  obtain ⟨r, hr, hkeys⟩ := h
  refine ⟨r, ?_, hkeys⟩
  rw [waiting_addRequest s seq work' ht hch]
  exact List.mem_append_left _ hr

theorem waitsOn_foldl_addRequest_of_waitsOn {s : State} {seq : Nat} {work : XferWork} (h : WaitsOn s t seq ch work) (l : List Nat) (f : Nat → XferWork) :
    WaitsOn (l.foldl (fun x k => addRequest x t seq ch (f k)) s) t seq ch work := by
  induction l generalizing s with
  | nil => exact h
  | cons k l ih => exact ih (waitsOn_addRequest_of_waitsOn ht hch h (f k))

/-- Each of the requests made one after another waits. -/
theorem waitsOn_foldl_addRequest (s : State) (seq : Nat) (l : List Nat) (f : Nat → XferWork) {n : Nat} (hn : n ∈ l) :
    WaitsOn (l.foldl (fun x k => addRequest x t seq ch (f k)) s) t seq ch (f n) := by
  induction l generalizing s with
  | nil => cases hn
  | cons k l ih =>
    obtain rfl | hn := List.mem_cons.mp hn
    · exact waitsOn_foldl_addRequest_of_waitsOn ht hch (waitsOn_addRequest ht hch s seq (f n)) l f
    · exact ih (addRequest s t seq ch (f k)) hn

end

/-! ### The plan of an XFER (R333, R344 to R346) -/

theorem done_xferRows {rows : List (Nat × Nat)} {unit : Nat} {x : Xd} (h : x ∈ xferRows rows unit) : x.done = false := by
  unfold xferRows at h
  split at h
  · obtain ⟨l, -, rfl⟩ := List.mem_map.mp h
    rfl
  · obtain ⟨r, -, hr⟩ := List.mem_flatMap.mp h
    obtain ⟨p, -, rfl⟩ := List.mem_map.mp hr
    rfl

theorem done_xferCrumbRows {rows : List (Nat × Nat)} {segs bound : Nat} {x : Xd} (h : x ∈ xferCrumbRows rows segs bound) : x.done = false := by
  unfold xferCrumbRows at h
  split at h
  · obtain ⟨l, -, rfl⟩ := List.mem_map.mp h
    rfl
  · obtain ⟨r, -, hr⟩ := List.mem_flatMap.mp h
    obtain ⟨p, -, rfl⟩ := List.mem_map.mp hr
    rfl

/-- No transfer descriptor of a plan is done. -/
theorem done_planXfer {mn : Mn} {w : IWord} {src : Desc} {x : Xd} (h : x ∈ planXfer mn w src) : x.done = false := by
  unfold planXfer at h
  dsimp only at h
  split at h
  · obtain ⟨l, -, rfl⟩ := List.mem_map.mp h
    rfl
  · split at h
    · exact done_xferCrumbRows h
    · exact done_xferRows h

/-- The messages of an XFER.REMOTE's transfer descriptors (R346, log entry 53). -/
def remoteMsgs (w : IWord) (src : Desc) (xs : List Xd) : List FabMsg :=
  xs.zipIdx.flatMap (fun p => (List.range (partsOfXd src p.1)).map (fun q => ⟨p.2, q, 0, W.faddrX w, .waiting⟩))

theorem partsOfXd_pos (src : Desc) (x : Xd) : 0 < partsOfXd src x := by
  unfold partsOfXd
  split <;> omega

/-- The first message of a plan waits to be sent. -/
theorem remoteMsgs_head (w : IWord) (src : Desc) {xs : List Xd} (h : xs ≠ []) : ∃ m, (remoteMsgs w src xs)[0]? = some m ∧ m.state = .waiting := by
  obtain ⟨x, xs, rfl⟩ := List.exists_cons_of_ne_nil h
  obtain ⟨n, hn⟩ := Nat.exists_eq_add_of_lt (partsOfXd_pos src x)
  rw [Nat.zero_add] at hn
  exact ⟨⟨0, 0, 0, W.faddrX w, .waiting⟩, by simp [remoteMsgs, hn, List.range_succ_eq_map], rfl⟩

theorem planInst_of_isX (s : State) {i : Inst} (h : i.mn.isX = true) : planInst s i =
    { i with planned := true, xds := planXfer i.mn i.word (i.desc .srca),
             msgs := if i.mn = .remote then remoteMsgs i.word (i.desc .srca) (planXfer i.mn i.word (i.desc .srca)) else [] } := by
  have hkind : i.mn.isProduct = false ∧ i.mn.isV = false ∧ i.mn ≠ .ldw ∧ i.mn ≠ .ldp ∧ i.mn ≠ .upd ∧ i.mn ≠ .cen ∧ i.mn ≠ .pred := by
    revert h
    cases i.mn <;> decide
  obtain ⟨hproduct, hv, hldw, hldp, hupd, hcen, hpred⟩ := hkind
  simp [planInst, hproduct, hv, hldw, hldp, hupd, hcen, hpred, h, remoteMsgs]

/-- An XFER in flight with its plan, of which nothing has moved. -/
structure Inst.FreshXfer (i : Inst) : Prop where
  xds : i.xds = planXfer i.mn i.word (i.desc .srca)
  msgs : i.mn = .remote → i.msgs = remoteMsgs i.word (i.desc .srca) i.xds
  unchecked : i.idxChecked = false ∧ i.idxRead = []
  planned : i.planned = true ∧ i.zeroShape = false

theorem freshXfer_planInst (s : State) {i : Inst} (h : i.mn.isX = true) (hunchecked : i.idxChecked = false ∧ i.idxRead = []) (hzero : i.zeroShape = false) :
    (planInst s i).FreshXfer := by
  rw [planInst_of_isX s h]
  exact ⟨rfl, fun e => if_pos e, hunchecked, ⟨rfl, hzero⟩⟩

theorem freshXfer_atIssue (s : State) (t : Nat) {r : Tray} {mn : Mn} {w : IWord} {ds : List (Role × Nat × Desc)} (h : mn.isX = true) :
    ((newInst r mn w ds).atIssue s t).FreshXfer := by
  obtain ⟨hxds, hmsgs, hunchecked, hplanned⟩ := freshXfer_planInst s (i := { newInst r mn w ds with mask := maskBindOf s t mn w }) h ⟨rfl, rfl⟩ rfl
  exact ⟨hxds, hmsgs, hunchecked, hplanned⟩

/-- The plan of an instruction leaves its wait as it is. -/
theorem waitMet_planInst (s : State) (i : Inst) : (planInst s i).waitMet = i.waitMet := by
  unfold planInst
  repeat' refine kept_ite Inst.waitMet ?_ ?_
  all_goals rfl

theorem waitMet_atIssue (s : State) (t : Nat) (i0 : Inst) : (i0.atIssue s t).waitMet = i0.waitMet := waitMet_planInst s { i0 with mask := maskBindOf s t i0.mn i0.word }

/-! ### The requests of a release (R332, R348) -/

/-- What the requests of a release are to be: of every transfer descriptor on the channel of its opcode, of the first message, or of every part of the index tensor. -/
structure Requested (s : State) (t : Nat) (i : Inst) : Prop where
  ld : i.mn = .ld → ∀ n < i.xds.length, WaitsOn s t i.seq 0 (.xfer n)
  st : i.mn = .st → ∀ n < i.xds.length, WaitsOn s t i.seq 1 (.xfer n)
  pref : i.mn = .pref → ∀ n < i.xds.length, WaitsOn s t i.seq 0 (.pref n)
  remote : i.mn = .remote → i.xds ≠ [] → WaitsOn s t i.seq 2 (.fab 0)
  index : i.mn = .gather ∨ i.mn = .scatter → i.xds ≠ [] → ∀ n < idxParts i, WaitsOn s t i.seq 0 (.index n)

theorem requested_requestTransfers (s : State) {t : Nat} {i : Inst} (ht : t < 32) (h : i.FreshXfer) : Requested (requestTransfers s t i) t i := by
  obtain ⟨hxds, hmsgs, ⟨hchecked, hread⟩, -⟩ := h
  have hopen : ∀ n < i.xds.length, n ∈ (List.range i.xds.length).filter (fun n => !(i.xds[n]?.any (fun x => x.done))) := fun n hn => by
    have hdone : i.xds[n].done = false := done_planXfer (by rw [← hxds]; exact List.getElem_mem hn)
    simp [hn, hdone]
  refine ⟨fun e n hn => ?ld, fun e n hn => ?st, fun e n hn => ?pref, fun e hne => ?remote, fun e hne n hn => ?index⟩
  case ld =>
    simp only [requestTransfers, e]
    exact waitsOn_foldl_addRequest ht (by decide) s _ _ .xfer (hopen n hn)
  case st =>
    simp only [requestTransfers, e]
    exact waitsOn_foldl_addRequest ht (by decide) s _ _ .xfer (hopen n hn)
  case pref =>
    simp only [requestTransfers, e]
    exact waitsOn_foldl_addRequest ht (by decide) s _ _ .pref (hopen n hn)
  case remote =>
    obtain ⟨m, hm, hwaits⟩ := remoteMsgs_head i.word (i.desc .srca) hne
    rw [← hmsgs e] at hm
    obtain ⟨hpos, rfl⟩ := List.getElem?_eq_some_iff.mp hm
    have hunsent : 0 ∈ (List.range i.msgs.length).filter (fun n => i.msgs[n]?.any (fun m => m.state == .waiting)) := by
      simp [hpos, hwaits]
    simp only [requestTransfers, e]
    exact waitsOn_foldl_addRequest ht (by decide) s _ _ .fab hunsent
  case index =>
    have hunread : n ∈ (List.range (idxParts i)).filter (fun n => !i.idxRead.contains n) := by simp [hread, hn]
    obtain e | e := e <;> simp only [requestTransfers, e, List.isEmpty_iff, if_neg hne, hchecked, Bool.false_eq_true, if_false] <;>
      exact waitsOn_foldl_addRequest ht (by decide) s _ _ .index hunread

theorem tray_requestTransfers (s : State) (t : Nat) (i : Inst) (u : Nat) : (requestTransfers s t i).tray u = s.tray u :=
  tray_of_trays ((touch_requestTransfers (F := { ord := true, cores := true }) s t i (.refl _ s) rfl rfl).trays rfl) u

/-! ### The release of an instruction that nothing holds (R26, R83) -/

section
variable {s : State} {t : Nat} {l : List Inst} {i : Inst} (ht : t < 32) (hinsts : (s.tray t).insts = l ++ [i]) (hfresh : ∀ j ∈ l, j.seq ≠ i.seq)
include ht hinsts hfresh

/-- With its wait met and no FENCE to hold it, the tray's new instruction is released, its tokens taken. -/
theorem tryRelease_of_free (hreleased : ∀ j ∈ l, j.released = true) (hunreleased : i.released = false) (hwait : i.waitMet = false) (hrun : (s.tray t).state = .run)
    (hmet : tokensMet (s.tray t).tokens (W.wait i.word) (waitCount i) = true) (hfence : W.fence i.word = true → l = []) (hend : i.mn ≠ .endTask) :
    ∃ s', (s'.tray t).insts = l ++ [{ i with waitMet := true }] ∧ tryRelease s t = releaseInst s' t i.seq := by
  have hfirst : (s.tray t).insts.find? (fun i => !i.released) = some i := by
    rw [hinsts, List.find?_append, List.find?_eq_none.mpr (fun j hj => by simp [hreleased j hj])]
    simp [hunreleased]
  have hunheld : ((W.fence i.word || i.mn == .endTask) && !((s.tray t).insts.all (fun j => decide (i.seq ≤ j.seq)))) = false := by
    cases hf : W.fence i.word with
    | false => simp [hend]
    | true => simp [hinsts, hfence hf]
  refine ⟨takeWait (s.modTray t (fun x => { x with state := if x.state = .blocked then .run else x.state })) t i, insts_takeWait_last ht ?_ hfresh hwait, ?_⟩
  · rw [State.tray_modTray_same _ _ ht]
    exact hinsts
  · simp [tryRelease, Tray.live, hrun, hfirst, hmet, hunheld]

/-- The release of an XFER with a plan requests its transfers. -/
theorem releaseInst_of_isX (hx : i.mn.isX = true) (hplan : i.planned = true ∧ i.zeroShape = false) :
    ∃ s' d n, (s'.tray t).insts = l ++ [{ i with released := true, srCnt := n, done := d }] ∧ releaseInst s t i.seq = requestTransfers s' t i := by
  have hbar : i.mn ≠ .bar := fun e => by simp [e, Mn.isX] at hx
  refine ⟨_, _, _, insts_modInst_last ht hinsts hfresh (fun x => { x with released := true, srCnt := (s.tray t).srCount, done := x.done || x.mn.immediate || x.zeroShape }), ?_⟩
  simp [releaseInst, inst_last hinsts hfresh, hbar, hplan, hx]

end

/-- Settles O6: as nothing holds the instruction, its issue ends with its release, and that requests each transfer of its fresh plan on the channel of its opcode. -/
theorem transfersAreRequestedOnTheirChannels : Obligations.TransfersAreRequestedOnTheirChannels := by
  unfold Obligations.TransfersAreRequestedOnTheirChannels
  intro mn s s1 t w ds h hx hfree
  obtain ⟨hmet, hfence⟩ := hfree
  have hend : mn ≠ .endTask := fun e => by simp [e, Mn.isX] at hx
  obtain ⟨s2, ⟨hinsts, htokens, hstate⟩, hexec⟩ := awaits_of_passes h
  have hunreleased := released_atIssue s1 t (newInst (s.tray t) mn w ds)
  have hfetched := fetched_atIssue s1 t (newInst (s.tray t) mn w ds)
  have hwait := waitMet_atIssue s1 t (newInst (s.tray t) mn w ds)
  have hplan := freshXfer_atIssue s1 t (r := s.tray t) (w := w) (ds := ds) hx
  generalize (newInst (s.tray t) mn w ds).atIssue s1 t = i at *
  simp only [Inst.fetched, newInst, Prod.mk.injEq] at hfetched hunreleased hwait
  obtain ⟨hseq, hindex, rfl, rfl, hdescs, hset⟩ := hfetched
  have hfresh : ∀ j ∈ (s.tray t).insts, j.seq ≠ i.seq := fun j hj => hseq ▸ Nat.ne_of_lt (h.fresh j hj)
  have hcount : tokensMet (s.tray t).tokens (W.wait i.word) (waitCount i) = true := hmet
  rw [if_neg hend, if_pos hcount] at hstate
  obtain ⟨s3, hinsts3, hrelease⟩ := tryRelease_of_free h.unit hinsts hfresh (released_of_passes h) hunreleased hwait hstate (htokens.symm ▸ hcount) hfence hend
  obtain ⟨s4, d, n, hinsts4, hrequest⟩ := releaseInst_of_isX h.unit hinsts3 hfresh hx hplan.planned
  have hrequested := requested_requestTransfers s4 (i := { i with waitMet := true }) h.unit ⟨hplan.xds, hplan.msgs, hplan.unchecked, hplan.planned⟩
  obtain ⟨hld, hst, hpref, hremote, hindexed⟩ := hrequested
  have hinsts' : ((tryRelease s2 t).tray t).insts = (s.tray t).insts ++ [{ i with waitMet := true, released := true, srCnt := n, done := d }] := by
    rw [hrelease, hrequest, tray_requestTransfers]
    exact hinsts4
  rw [← hrequest, ← hrelease] at hld hst hpref hremote hindexed
  refine ⟨tryRelease s2 t, { i with waitMet := true, released := true, srCnt := n, done := d }, hexec, ⟨?last, ?length, hseq, hindex, rfl, rfl, hdescs, hset⟩, rfl, hplan.xds,
    hld, hst, hpref, hremote, hindexed⟩
  case last => rw [hinsts', List.getLast?_concat]
  case length => rw [hinsts', List.length_append, List.length_singleton]

end Sys2Proof.Machine
end

section
/-! PROOFS. The read-ahead: a word that is read joins the tray's words ahead, and whatever is read behind it leaves memory, the words before it and the next issue as they were. -/

namespace Sys2Proof.Machine

/-! ### Fetches leave trays and memory as they were -/

theorem trays_trayFetch (s : State) (t idx : Nat) (va n : Nat) : (trayFetch s t idx va n).1.trays = s.trays :=
  (touch_trayFetch (F := { mem := true, poison := true, benchPoison := true, regs := true, queues := true, cores := true, mmu := true, larder := true, arbs := true, planted := true })
    s t idx va n (.refl _ s) rfl rfl rfl rfl rfl rfl rfl rfl rfl rfl).trays rfl

theorem mem_keepBytes (s : State) (t idx va : Nat) (bs : List Byte) : (keepBytes s t idx va bs).mem = s.mem :=
  kept_ite State.mem rfl rfl

theorem mem_trayFetch (s : State) (t idx : Nat) (va n : Nat) : (trayFetch s t idx va n).1.mem = s.mem := by
  unfold trayFetch
  split
  · rfl
  · split
    · next e => exact mem_of_answer e (mem_readV _ _ _ _ _)
    · next e =>
      have first := mem_of_answer e (mem_readV _ _ _ _ _)
      exact (mem_keepBytes _ _ _ _ _).trans first

theorem mem_readDescs (s : State) (t idx dtab : Nat) (ls : List Loop) (l : List (Role × Nat)) : (readDescs s t idx dtab ls l).1.mem = s.mem := by
  induction l generalizing s with
  | nil => rfl
  | cons x l ih =>
    unfold readDescs
    split
    · next e => exact mem_of_answer e (mem_trayFetch _ _ _ _ _)
    · next e =>
      have first := mem_of_answer e (mem_trayFetch _ _ _ _ _)
      dsimp only
      split <;> next e => exact mem_of_answer e ((ih _).trans first)

/-! ### One word is read (R339, R341) -/

/-- A word joins those that its tray has read ahead. -/
def withAhead (s : State) (t : Nat) (a : Ahead) : State := s.modTray t (fun x => { x with ahead := x.ahead ++ [a] })

/-- What reading the next word comes to: nothing where it cannot be read, and else a word ahead with its descriptors. -/
theorem readNext_cases {s s' : State} {t : Nat} {read : Bool} (h : readNext s t = (s', read)) : (s' = s ∧ read = false) ∨
    ∃ s1 s2 bs ds, trayFetch s t (s.tray t).raPc ((s.tray t).stream + 32 * (s.tray t).raPc) 32 = (s1, .ok bs) ∧ s2.trays = s.trays ∧ s2.mem = s.mem ∧
      s' = withAhead s2 t { seq := (s.tray t).raSeq, index := (s.tray t).raPc, word := BitVec.ofNat 256 (leNat bs), descs := ds } := by
  unfold readNext at h
  dsimp only at h
  split at h
  · obtain ⟨rfl, rfl⟩ := Prod.mk.inj h
    exact .inl ⟨rfl, rfl⟩
  · split at h
    · obtain ⟨rfl, rfl⟩ := Prod.mk.inj h
      exact .inl ⟨rfl, rfl⟩
    · next s1 bs hfetch =>
      split at h
      · obtain ⟨rfl, rfl⟩ := Prod.mk.inj h
        exact .inl ⟨rfl, rfl⟩
      · next s2 ds hdescs =>
        obtain ⟨rfl, -⟩ := Prod.mk.inj h
        have htrays : s2.trays = s.trays := (fst_of_answer hdescs (trays_readDescs _ _ _ _ _ _)).trans (fst_of_answer hfetch (trays_trayFetch _ _ _ _ _))
        have hmem : s2.mem = s.mem := (mem_of_answer hdescs (mem_readDescs _ _ _ _ _ _)).trans (mem_of_answer hfetch (mem_trayFetch _ _ _ _ _))
        refine .inr ⟨s1, s2, bs, ds, hfetch, htrays, hmem, ?_⟩
        rw [← tray_of_trays htrays]
        rfl

/-! ### What the read-ahead keeps -/

/-- A state reached by reading ahead for a tray: memory is as it was, the tray's next issue too, and of the words read none is lost. -/
structure ReadsOn (s s' : State) (t : Nat) : Prop where
  mem : s'.mem = s.mem
  next : (s'.tray t).pc = (s.tray t).pc ∧ (s'.tray t).nextSeq = (s.tray t).nextSeq
  ahead : (s.tray t).ahead ⊆ (s'.tray t).ahead

theorem ReadsOn.refl (s : State) (t : Nat) : ReadsOn s s t := ⟨rfl, ⟨rfl, rfl⟩, fun _ h => h⟩

theorem ReadsOn.trans {s s1 s2 : State} {t : Nat} (a : ReadsOn s s1 t) (b : ReadsOn s1 s2 t) : ReadsOn s s2 t :=
  ⟨b.mem.trans a.mem, ⟨b.next.1.trans a.next.1, b.next.2.trans a.next.2⟩, fun _ h => b.ahead (a.ahead h)⟩

theorem ReadsOn.of_trays {s s' : State} {t : Nat} (hmem : s'.mem = s.mem) (htrays : s'.trays = s.trays) : ReadsOn s s' t := by
  have htray := tray_of_trays htrays t
  exact ⟨hmem, by rw [htray]; exact ⟨rfl, rfl⟩, by rw [htray]; exact fun _ h => h⟩

theorem readsOn_startAhead (s : State) (t : Nat) (before : List Ahead) (a : Ahead) : ReadsOn s (startAhead s t before a) t :=
  have h := touch_startAhead (F := { ord := true, cores := true }) s t before a (.refl _ s) rfl rfl
  .of_trays (h.mem rfl) (h.trays rfl)

section
variable {t : Nat} (ht : t < 32)
include ht

theorem readsOn_aheadMoves (s : State) (a : Ahead) : ReadsOn s (aheadMoves s t a) t := by
  refine ⟨rfl, ?_, ?_⟩ <;> rw [aheadMoves, State.tray_modTray_same _ _ ht]
  · exact ⟨rfl, rfl⟩
  · exact fun _ h => h

theorem ahead_withAhead (s : State) (a : Ahead) : ((withAhead s t a).tray t).ahead = (s.tray t).ahead ++ [a] := by
  rw [withAhead, State.tray_modTray_same _ _ ht]

theorem readsOn_withAhead (s : State) (a : Ahead) : ReadsOn s (withAhead s t a) t := by
  refine ⟨rfl, ?_, ?_⟩
  · rw [withAhead, State.tray_modTray_same _ _ ht]
    exact ⟨rfl, rfl⟩
  · rw [ahead_withAhead ht]
    exact List.subset_append_left _ _

theorem readsOn_readNext {s s' : State} {read : Bool} (h : readNext s t = (s', read)) : ReadsOn s s' t := by
  obtain ⟨rfl, -⟩ | ⟨s1, s2, bs, ds, -, htrays, hmem, rfl⟩ := readNext_cases h
  · exact .refl _ t
  · exact (ReadsOn.of_trays hmem htrays).trans (readsOn_withAhead ht s2 _)

theorem readsOn_readAheadFrom (fuel : Nat) (s : State) : ReadsOn s (readAheadFrom fuel s t) t := by
  induction fuel generalizing s with
  | zero => exact .refl s t
  | succ fuel ih =>
    unfold readAheadFrom
    dsimp only
    split
    · split
      · exact ((readsOn_startAhead s t _ _).trans (readsOn_aheadMoves ht _ _)).trans (ih _)
      · exact .refl s t
    · split
      all_goals
        split
        · exact .refl s t
        · split
          · next hread => exact (readsOn_readNext ht hread).trans (ih _)
          · next hread => exact readsOn_readNext ht hread

/-- The read-ahead of a tray that has read nothing ahead begins with its next word, while that lies within its lookahead. -/
theorem readsOn_of_readNext {s s' : State} (hahead : (s.tray t).ahead = []) (hseq : (s.tray t).raSeq = (s.tray t).nextSeq)
    (hnear : (s.tray t).insts = [] ∨ ∃ i l, (s.tray t).insts = i :: l ∧ (s.tray t).raSeq ≤ i.seq + (s.tray t).snap.lookahead) (hread : readNext s t = (s', true)) (fuel : Nat) :
    ReadsOn s' (readAheadFrom (fuel + 1) s t) t := by
  have hfrom : readAheadFrom (fuel + 1) s t = readAheadFrom fuel s' t := by
    obtain hinsts | ⟨i, l, hinsts, hnear⟩ := hnear
    · have hnear : ¬ (s.tray t).nextSeq + (s.tray t).snap.lookahead < (s.tray t).nextSeq := Nat.not_lt.mpr (Nat.le_add_right _ _)
      simp [readAheadFrom, hahead, hinsts, hseq, hnear, hread]
    · simp [readAheadFrom, hahead, hinsts, Nat.not_lt.mpr hnear, hread]
  rw [hfrom]
  exact readsOn_readAheadFrom ht fuel s'

end

theorem exec_readAheadAdvance {t : Nat} (ht : t < 32) (s : State) : exec (.readAheadAdvance t) s = .next (readAhead t s) := if_pos ht

/-- A tray that runs reads ahead from where it stands, when issue has not passed that place. -/
theorem readAhead_of_runs {s : State} {t : Nat} (hstop : s.stop = none) (hrun : (s.tray t).state = .run) (hstart : (s.tray t).starting = false)
    (halign : (s.tray t).alignFault = false) (hend : (s.tray t).ending = false) (hreleased : ∀ i ∈ (s.tray t).insts, i.released = true)
    (hseq : (s.tray t).raSeq = (s.tray t).nextSeq) : readAhead t s = readAheadFrom 72 s t := by
  simp [readAhead, hstop, hrun, hstart, halign, hend, hseq, List.all_eq_true.mpr hreleased]

/-- Settles O18: the first word read ahead is the next one, and what the read-ahead does behind it keeps that word, the next issue and memory. -/
theorem readAheadFetchesTheNextWord : Obligations.ReadAheadFetchesTheNextWord := by
  unfold Obligations.ReadAheadFetchesTheNextWord
  intro s s1 s2 t bs ht hstop hrun hstart halign hend hreleased hahead hseq hnear hfetch hread
  have hon := readsOn_of_readNext ht hahead hseq hnear hread 71
  rw [← readAhead_of_runs hstop hrun hstart halign hend hreleased hseq] at hon
  obtain ⟨hmem, ⟨hpc, hnext⟩, -⟩ := (readsOn_readNext ht hread).trans hon
  obtain ⟨-, hno⟩ | ⟨s3, s4, bs', ds, hfetch', htrays, -, rfl⟩ := readNext_cases hread
  · cases hno
  · obtain ⟨-, rfl⟩ : s1 = s3 ∧ bs = bs' := by simpa using hfetch.symm.trans hfetch'
    refine ⟨readAhead t s, { seq := (s.tray t).raSeq, index := (s.tray t).raPc, word := BitVec.ofNat 256 (leNat bs), descs := ds }, exec_readAheadAdvance ht s, hon.ahead ?mem, hseq, rfl, rfl, hpc, hnext, fun x => by rw [hmem]⟩
    rw [ahead_withAhead ht]
    exact List.mem_concat_self

end Sys2Proof.Machine
end

section
/-! PROOFS. The channels at work: what the serving of a descriptor's transactions and accesses leaves alone, a descriptor that issues, one that ends, and the credit of a slot. -/

namespace Sys2Proof.Machine

open Sys2Proof.Claims

/-! ### What the serving of transactions keeps (R332, R333, R388, R397) -/

/-- A part of the state in which the work on the transactions of channel `ch` of core `c` does not show: what reads write, registers from the controllers' block on, the error log, and
the transactions that the channel still holds. -/
structure KeptByServing (c ch : Nat) {β : Type} (π : State → β) : Prop extends KeptByReads π where
  setErrLog : ∀ s v, π (s.setErrLog v) = π s
  setLpc : ∀ s off v, 0xC0000 ≤ off → π (s.setReg off v) = π s
  modTxns : ∀ s (f : Channel → List (Nat × ArbReq)), π (s.modChannel c ch (fun h => { h with txns := f h })) = π s

section
variable {β : Type} {π : State → β} {c ch : Nat} (h : KeptByServing c ch π)
include h

theorem KeptByServing.pumpTxns_eq (s : State) : π (pumpTxns s c ch) = π s := by
  unfold pumpTxns
  dsimp only
  split
  · rfl
  · exact (foldl_keeps (fun s x => h.pushArb_eq s _ _ _) _ _).trans (h.modTxns _ _)

theorem KeptByServing.logUnowned_eq (s : State) (code index addr : Nat) : π (logUnowned s code index addr) = π s := by
  rw [logUnowned, logError, h.setErrLog]
  exact h.setLpc _ _ _ (by decide)

theorem KeptByServing.linePoisoned_eq (s : State) (ctrl line : Nat) : π (linePoisoned s ctrl line) = π s := by
  rw [linePoisoned, h.logUnowned_eq, h.setPoison, lpcError, lpcLast, h.setLpc _ _ _ (by unfold Csr.lpcEccLast; omega), if_pos rfl]
  exact h.setLpc _ _ _ (by unfold Csr.lpcEccUe; omega)

/-- A read that meets no new error finds its line as it is, poisoned or not. -/
theorem KeptByServing.lpddrRead_eq (s : State) (ctrl requester line : Nat) : π (lpddrRead s ctrl requester line .none) = π s := by
  unfold lpddrRead
  split
  · exact h.linePoisoned_eq _ _ _
  · rfl

theorem KeptByServing.serveOwned_eq (s : State) (owner : Nat) : π (serveOwned s c ch owner) = π s := by
  unfold serveOwned
  dsimp only
  refine (h.setArbs _ _).trans ((foldl_keeps (fun s p => h.lpddrRead_eq s _ _ _) _ _).trans ((foldl_keeps (fun s p => ?_) _ _).trans (h.modTxns _ _)))
  exact kept_ite π (h.larderServe_eq _ _) rfl

theorem KeptByServing.pushPhys_eq (s : State) (r : ChReq) (pa n : Nat) (write : Bool) : π (pushPhys s c ch r pa n write) = π s := by
  unfold pushPhys
  dsimp only
  split
  · exact h.modTxns _ _
  · exact h.modTxns _ _
  · exact foldl_keeps (fun s l => h.pushArb_eq s _ _ _) _ _
  · rfl

theorem KeptByServing.pushBench_eq (s : State) (r : ChReq) (off n : Nat) (write : Bool) : π (pushBench s c r off n write) = π s :=
  foldl_keeps (fun s _ => h.pushArb_eq s _ _ _) _ _

end

/-- A part of the state in which the accesses of a descriptor do not show either: what goes to the host. -/
structure KeptByAccesses (c ch : Nat) {β : Type} (π : State → β) : Prop extends KeptByServing c ch π where
  setHost : ∀ s v, π (s.setHost v) = π s
  setHostTx : ∀ s v, π (s.setHostTx v) = π s

section
variable {β : Type} {π : State → β} {c ch : Nat} (h : KeptByAccesses c ch π)
include h

theorem KeptByAccesses.sendQp_eq (s : State) (q : Nat) (m : HostTx) : π (sendQp s q m) = π s := by
  unfold sendQp sendOn
  exact kept_ite π rfl (kept_ite π (h.setHost _ _) (h.setHostTx _ _))

/-- The accesses of a descriptor whose pages are translated. -/
theorem KeptByAccesses.pushSpans_eq (s : State) (r : ChReq) : π (pushSpans s c ch r) = π s := by
  unfold pushSpans
  extract_lets sp host phys
  have hhost : ∀ s pa n w, π (host s pa n w) = π s := fun s pa n w => kept_ite π rfl (kept_ite π ((h.sendQp_eq _ _ _).trans (h.setHost _ _)) (h.setHost _ _))
  have hphys : ∀ s pa n w, π (phys s pa n w) = π s := fun s pa n w => kept_ite π (hhost _ _ _ _) (h.pushPhys_eq _ _ _ _ _)
  refine foldl_keeps (fun s x => ?_) _ _
  split
  · exact h.pushBench_eq _ _ _ _ _
  · exact hphys _ _ _ _
  · refine foldl_keeps (fun s p => ?_) _ _
    split
    · exact hphys _ _ _ _
    · rfl

end

/-! ### The parts that they leave alone -/

/-- What waits on a channel and what holds its descriptors. -/
def Channel.requests (h : Channel) : List ChReq × Vector (Option ChReq) 8 := (h.waiting, h.active)

/-- A channel with other transactions. -/
def Channel.withTxns (f : Channel → List (Nat × ArbReq)) (h : Channel) : Channel := { h with txns := f h }

/-- A core with other transactions on a channel. -/
def Core.withTxns (ch : Nat) (f : Channel → List (Nat × ArbReq)) (k : Core) : Core :=
  { k with proofer := { k.proofer with channels := Vec.put k.proofer.channels ch ((Vec.get k.proofer.channels ch State.emptyChannel).withTxns f) } }

/-- The accesses show in no part of a core but its translation cache and its channel's transactions. -/
theorem keptByAccesses_core {β : Type} {c ch : Nat} (g : Core → β) (hg : ∀ (k : Core) (v : TCache), g { k with tcache := v } = g k)
    (htxns : ∀ f k, g (k.withTxns ch f) = g k) (d : Nat) : KeptByAccesses c ch (fun s => g (s.core d)) where
  toKeptByReads := keptByReads_core g hg d
  setErrLog _ _ := rfl
  setLpc _ _ _ _ := rfl
  modTxns s f := core_part_modCore g s c d (fun k => htxns f k)
  setHost _ _ := rfl
  setHostTx _ _ := rfl

theorem keptByAccesses_streams (c ch d : Nat) : KeptByAccesses c ch (fun s => (s.core d).proofer.streams) :=
  keptByAccesses_core (fun k => k.proofer.streams) (fun _ _ => rfl) (fun _ _ => rfl) d

theorem requests_withTxns {ch e : Nat} (he : e < 4) (f : Channel → List (Nat × ArbReq)) (k : Core) :
    (Vec.get (k.withTxns ch f).proofer.channels e State.emptyChannel).requests = (Vec.get k.proofer.channels e State.emptyChannel).requests := by
  rw [Core.withTxns]
  by_cases h : ch = e
  · subst h
    rw [Vec.get_put_same _ _ _ he]
    rfl
  · rw [Vec.get_put_other _ _ _ h]

theorem keptByAccesses_requests (c ch d : Nat) {e : Nat} (he : e < 4) : KeptByAccesses c ch (fun s => (s.channel d e).requests) :=
  keptByAccesses_core (fun k => (Vec.get k.proofer.channels e State.emptyChannel).requests) (fun _ _ => rfl) (requests_withTxns he) d

theorem keptByAccesses_channel (c d : Nat) {ch e : Nat} (h : ch ≠ e) : KeptByAccesses c ch (fun s => s.channel d e) :=
  keptByAccesses_core (fun k => Vec.get k.proofer.channels e State.emptyChannel) (fun _ _ => rfl) (fun _ _ => Vec.get_put_other _ _ _ h) d

theorem keptByAccesses_walks (c ch : Nat) : KeptByAccesses c ch (fun s => s.mmu.walks) where
  setLarder _ _ := rfl
  setPoison _ _ := rfl
  setBenchPoison _ _ := rfl
  setPlanted _ _ := rfl
  setArbs _ _ := rfl
  setReg _ _ _ _ := rfl
  setTCache _ _ _ := kept_ite (fun s : State => s.mmu.walks) rfl rfl
  setErrLog _ _ := rfl
  setLpc _ _ _ _ := rfl
  modTxns _ _ := rfl
  setHost _ _ := rfl
  setHostTx _ _ := rfl

theorem keptByServing_trays (c ch : Nat) : KeptByServing c ch State.trays where
  toKeptByReads := keptByReads_trays
  setErrLog _ _ := rfl
  setLpc _ _ _ _ := rfl
  modTxns _ _ := rfl

theorem keptByReads_mem : KeptByReads State.mem where
  setLarder _ _ := rfl
  setPoison _ _ := rfl
  setBenchPoison _ _ := rfl
  setPlanted _ _ := rfl
  setArbs _ _ := rfl
  setReg _ _ _ _ := rfl
  setTCache := mem_setTCache

theorem keptByServing_mem (c ch : Nat) : KeptByServing c ch State.mem where
  toKeptByReads := keptByReads_mem
  setErrLog _ _ := rfl
  setLpc _ _ _ _ := rfl
  modTxns _ _ := rfl

/-! ### A descriptor issues (R333, R334) -/

/-- A channel's descriptor has taken a request, which waits for `walks` table walks. -/
def descTaken (s : State) (c ch slot : Nat) (r : ChReq) (walks : Nat) : State :=
  s.modChannel c ch (fun x =>
    { x with waiting := x.waiting.filter (fun y => y.id != r.id), active := Vec.put x.active slot (some { r with issued := true, walks := walks }) })

/-- A walk for a page of a request begins. -/
def walkBegun (c : Nat) (space : Nat) (r : ChReq) (s : State) (p : Nat × Bool) : State :=
  s.setMmu { s.mmu with walks := s.mmu.walks ++ [{ id := s.mmu.nextWalk, walker := c, space := space, va := p.1, write := p.2, req := r.id }], nextWalk := s.mmu.nextWalk + 1 }

theorem length_walks_foldl_walkBegun (c space : Nat) (r : ChReq) (l : List (Nat × Bool)) (s : State) :
    (l.foldl (walkBegun c space r) s).mmu.walks.length = s.mmu.walks.length + l.length := by
  induction l generalizing s with
  | nil => rfl
  | cons p l ih =>
    rw [List.foldl_cons, ih]
    simp only [walkBegun, State.setMmu_mmu, List.length_append, List.length_cons, List.length_nil]
    omega

/-- The issue of a descriptor: with every page translated its accesses go downstream, and else the walks of the others begin. -/
theorem issueDesc_of_chosen {s : State} {c ch slot : Nat} {r : ChReq} (hslot : (s.channel c ch).active.toList.findIdx? Option.isNone = some slot)
    (hr : chooseRequest s c (s.channel c ch) = some r) : issueDesc c ch s =
      if (missingPages s c r).isEmpty then pumpTxns (pushSpans (wrote (descTaken s c ch slot r (missingPages s c r).length) 8 c r.tray) c ch r) c ch
      else (missingPages s c r).foldl (walkBegun c (spaceOf s r.tray) r) (wrote (descTaken s c ch slot r (missingPages s c r).length) 8 c r.tray) := by
  simp only [issueDesc, hslot, hr]
  rfl

/-- A part of a core, but for its translation cache and the channel's transactions, is after the issue what the taking of the descriptor has left. -/
theorem core_part_issueDesc {β : Type} {s : State} {c ch slot : Nat} {r : ChReq} (hslot : (s.channel c ch).active.toList.findIdx? Option.isNone = some slot)
    (hr : chooseRequest s c (s.channel c ch) = some r) {g : Core → β} (h : KeptByAccesses c ch (fun s => g (s.core c))) :
    g ((issueDesc c ch s).core c) = g ((descTaken s c ch slot r (missingPages s c r).length).core c) := by
  have hwrote : g ((wrote (descTaken s c ch slot r (missingPages s c r).length) 8 c r.tray).core c) = g ((descTaken s c ch slot r (missingPages s c r).length).core c) :=
    congrArg g (core_of_cores ((wrote_touches _ _ _ _).cores rfl) c)
  rw [issueDesc_of_chosen hslot hr]
  split
  · exact (h.toKeptByServing.pumpTxns_eq _).trans ((h.pushSpans_eq _ _).trans hwrote)
  · exact (foldl_keeps (f := walkBegun c (spaceOf s r.tray) r) (π := fun s => g (s.core c)) (fun _ _ => rfl) _ _).trans hwrote

theorem channel_descTaken_same (s : State) {c ch : Nat} (slot : Nat) (r : ChReq) (walks : Nat) (hc : c < 4) (hch : ch < 4) : (descTaken s c ch slot r walks).channel c ch =
    { s.channel c ch with waiting := (s.channel c ch).waiting.filter (fun y => y.id != r.id),
                          active := Vec.put (s.channel c ch).active slot (some { r with issued := true, walks := walks }) } :=
  channel_modChannel_same s _ hc hch

theorem channel_modChannel_other (s : State) {c ch d e : Nat} (f : Channel → Channel) (h : ch ≠ e) : (s.modChannel c ch f).channel d e = s.channel d e :=
  core_part_modCore (fun k => Vec.get k.proofer.channels e State.emptyChannel) s c d (fun _ => Vec.get_put_other _ _ _ h)

theorem walks_issueDesc {s : State} {c ch slot : Nat} {r : ChReq} (hslot : (s.channel c ch).active.toList.findIdx? Option.isNone = some slot)
    (hr : chooseRequest s c (s.channel c ch) = some r) : (issueDesc c ch s).mmu.walks.length = s.mmu.walks.length + (missingPages s c r).length := by
  have hwrote : (wrote (descTaken s c ch slot r (missingPages s c r).length) 8 c r.tray).mmu = s.mmu := (wrote_touches _ _ _ _).mmu rfl
  rw [issueDesc_of_chosen hslot hr]
  split
  · next hpages =>
    have h := keptByAccesses_walks c ch
    rw [h.toKeptByServing.pumpTxns_eq, h.pushSpans_eq, hwrote, List.isEmpty_iff.mp hpages]
    rfl
  · rw [length_walks_foldl_walkBegun, hwrote]

theorem exec_transferDescIssue {c ch : Nat} (hc : c < 4) (hch : ch < 4) (s : State) : exec (.transferDescIssue c ch) s = .next (issueDesc c ch s) :=
  (if_pos hch).trans (if_pos hc)

theorem freeDescriptorTakesTheChosenRequest : Sys2Proof.Claims.FreeDescriptorTakesTheChosenRequest := by
  unfold Sys2Proof.Claims.FreeDescriptorTakesTheChosenRequest
  intro s c ch slot r hc hch hslot hr
  have hlt : slot < 8 := by
    obtain ⟨hlt, -⟩ := List.findIdx?_eq_some_iff_getElem.mp hslot
    simpa using hlt
  have hrequests : ((issueDesc c ch s).channel c ch).requests = _ :=
    (core_part_issueDesc hslot hr (g := fun k => (Vec.get k.proofer.channels ch State.emptyChannel).requests) (keptByAccesses_requests c ch c hch)).trans (congrArg Channel.requests (channel_descTaken_same s slot r _ hc hch))
  obtain ⟨hwaiting, hactive⟩ := Prod.mk.inj hrequests
  refine ⟨_, exec_transferDescIssue hc hch s, ?taken, hwaiting, walks_issueDesc hslot hr, fun k hk _ => ?others⟩
  case taken => rw [hactive, Vec.get_put_same _ _ _ hlt]
  case others =>
    exact (core_part_issueDesc hslot hr (g := fun x => Vec.get x.proofer.channels k State.emptyChannel) (keptByAccesses_channel c c (Ne.symm hk))).trans (channel_modChannel_other s _ (Ne.symm hk))

/-! ### A fill keeps the Proofer (R318, R336) -/

section
variable {β : Type} {g : Core → β} (hg : ∀ (k : Core) (v : TCache), g { k with tcache := v } = g k)

theorem core_part_benchWrite (g : Core → β) (s : State) (c off : Nat) (bs : List Byte) (d : Nat) : g ((benchWrite s c off bs).core d) = g (s.core d) :=
  congrArg g (core_of_cores (memoryWritten_benchWrite _ _ _ _).cores d)

theorem core_part_blurBytes (g : Core → β) (s : State) (pa n d : Nat) : g ((blurBytes s pa n).core d) = g (s.core d) := by
  unfold blurBytes
  refine foldl_keeps (π := fun s => g (s.core d)) (fun s k => ?_) _ _
  rfl

/-- What each step of a sequence keeps, the sequence keeps. -/
theorem forEach_keeps {α γ : Type} {π : State → γ} {f : State → α → State × Except MemErr Unit} (hf : ∀ s x, π (f s x).1 = π s) (l : List α) (s : State) :
    π (forEach f l s).1 = π s := by
  induction l generalizing s with
  | nil => rfl
  | cons x l ih => exact andThen_keeps (hf s x) (fun s1 _ first => (ih s1).trans first)

include hg

theorem core_part_fillUnit (c space : Nat) (desc : Desc) (b : Blk) (base : Nat) (store : Bool) (s : State) (iu : Nat × Nat) (d : Nat) :
    g ((fillUnit c space desc b base store s iu).1.core d) = g (s.core d) := by
  have h := keptByReads_core g hg d
  unfold fillUnit
  extract_lets r at' u put
  have hput : ∀ s1 bs, g ((put s1 bs).1.core d) = g (s1.core d) := fun s1 bs =>
    kept_ite (fun s : State => g (s.core d)) (core_part_benchWrite g _ _ _ _ d) rfl
  split
  · refine kept_ite (fun p : State × Except MemErr Unit => g (p.1.core d)) rfl ?_
    exact andThen_keeps (π := fun s : State => g (s.core d)) (h.fetchUnit_eq _ _ _ _ _ _ _ _) (fun s1 bs first => (hput s1 bs).trans first)
  · refine kept_ite (fun p : State × Except MemErr Unit => g (p.1.core d)) rfl ?_
    exact andThen_keeps (π := fun s : State => g (s.core d)) (h.fetchUnit_eq _ _ _ _ _ _ _ _) (fun s1 bs first => (hput s1 bs).trans first)

/-- A fill of a stream without spilled blocks changes no part of a core but its translation cache. -/
theorem core_part_moveFill {s s' : State} {c ch slot part n : Nat} {r : ChReq} {st : Stream} {x : Except MemErr Unit} (hspilled : st.spilled = [])
    (h : moveFill s c r ch slot part n st = (s', x)) (d : Nat) : g (s'.core d) = g (s.core d) := by
  refine fst_of_answer (π := fun s : State => g (s.core d)) h ?_
  unfold moveFill
  split
  · next f desc _ _ =>
    simp only [hspilled, List.find?_nil]
    have filled : ∀ {p : State × Except MemErr Unit} {space base len : Nat} {blur store : Bool} {us : List (Nat × Nat)},
        forEach (fillUnit c space desc f.blk base store) us (if blur = true then blurBytes s (benchAddr c base) len else s) = p → g (p.1.core d) = g (s.core d) := fun {p} _ _ _ _ _ _ e => by
      rw [← e]
      refine (forEach_keeps (π := fun s : State => g (s.core d)) (fun s iu => core_part_fillUnit hg _ _ _ _ _ _ s iu d) _ _).trans ?_
      exact kept_ite (fun s : State => g (s.core d)) (core_part_blurBytes g _ _ _ d) rfl
    split
    · next e => exact filled e
    · next e =>
      have arrived := filled e
      exact kept_ite (fun p : State × Except MemErr Unit => g (p.1.core d)) arrived (kept_ite (fun p : State × Except MemErr Unit => g (p.1.core d)) arrived arrived)
  · rfl

end

/-! ### A descriptor ends (R333) -/

theorem readTray_of_sound {s : State} {index place : Nat} (h : Sound s index place) (word : Nat) : readTray s index place word = s := by
  have hnone : s.planted.find? (fun p => p.index == index && p.place == place) = none :=
    List.find?_eq_none.mpr (fun p hp => by simpa using fun e => not_and.mp (h p hp) e)
  simp only [readTray, readBack, hnone]

theorem lt_of_live {s : State} {t : Nat} (h : (s.tray t).live = true) : t < 32 := by
  refine Decidable.byContradiction (fun ht => ?_)
  simp [State.tray, Vec.get, ht, Tray.reset, Tray.live] at h

/-- Only commits of row blocks and the rows of an XFER.SCATTER wait for one another. -/
theorem inOrder_of_other {s : State} {r : ChReq} (hcommit : ∀ n b ws, r.work ≠ .commit n b ws) (hxfer : ∀ n, r.work ≠ .xfer n) : inOrder s r = true := by
  unfold inOrder
  split
  · rfl
  · split
    · next h => exact absurd h (hcommit _ _ _)
    · next h => exact absurd h (hxfer _)
    · rfl

/-- The last transaction of a descriptor with nothing left to wait for: what is still to be granted is served, and the bytes move. -/
theorem descDone_of_free {s : State} {c ch slot : Nat} {r : ChReq} (hr : Vec.get (s.channel c ch).active slot none = some r) (hsound : Sound s 8 r.tray)
    (hlive : (s.tray r.tray).live = true) (hhost : hostWaits s c r.id = false) (hmoved : r.moved = false) (hwalks : ∀ w ∈ s.mmu.walks, w.req ≠ r.id)
    (horder : inOrder s r = true) : descDone c ch slot s = pumpTxns (moveDesc (serveOwned s c ch (r.id + 1)) c ch r) c ch := by
  have hwalk : s.mmu.walks.any (fun w => w.req == r.id) = false := List.any_eq_false.mpr (fun w hw => by simpa using hwalks w hw)
  simp [descDone, hr, readTray_of_sound hsound, hlive, hwalk, hhost, horder, hmoved]

theorem exec_transferDescDone {c ch slot : Nat} (hc : c < 4) (hch : ch < 4) (hslot : slot < 8) (s : State) :
    exec (.transferDescDone c ch slot) s = .next (descDone c ch slot s) :=
  (if_pos hslot).trans ((if_pos hch).trans (if_pos hc))

theorem getElem?_of_streamOf {s : State} {c n : Nat} {r : ChReq} {role : Role} {st : Stream} (h : streamOf s c r role = some (n, st)) :
    (s.core c).proofer.streams[n]? = some st := by
  obtain ⟨⟨st', n'⟩, hfind, hpair⟩ := Option.map_eq_some_iff.mp h
  obtain ⟨rfl, rfl⟩ := Prod.mk.inj hpair
  exact List.mem_zipIdx_iff_getElem?.mp (List.mem_of_find?_eq_some hfind)

theorem channel_dropRequest (s : State) {c ch : Nat} (id : Nat) (hc : c < 4) (hch : ch < 4) :
    (dropRequest s c ch id).channel c ch = (s.channel c ch).keep (fun y => y.id != id) := channel_modChannel_same s _ hc hch

theorem streams_modChannel (s : State) (c ch : Nat) (f : Channel → Channel) (d : Nat) : ((s.modChannel c ch f).core d).proofer.streams = (s.core d).proofer.streams :=
  core_part_modCore (fun k => k.proofer.streams) s c d (fun _ => rfl)

theorem streams_dropRequest (s : State) (c ch id d : Nat) : ((dropRequest s c ch id).core d).proofer.streams = (s.core d).proofer.streams :=
  streams_modChannel s c ch _ d

/-- The descriptor of a request that leaves its channel is free. -/
theorem active_keep {h : Channel} {slot : Nat} {r : ChReq} (hslot : slot < 8) (hr : Vec.get h.active slot none = some r) :
    Vec.get (h.keep (fun y => y.id != r.id)).active slot none = none := by
  simp only [Vec.get, hslot, dite_true] at hr
  simp [Channel.keep, Vec.get, hslot, hr]

section
variable {s : State} {c ch slot : Nat} {r : ChReq} (hc : c < 4) (hch : ch < 4) (hslot : slot < 8) (hr : Vec.get (s.channel c ch).active slot none = some r)
include hc hch hslot hr

/-- A state with the requests of another, but that one has left and transactions have moved on. -/
theorem active_pumpTxns_dropRequest {s1 : State} (h : (s1.channel c ch).requests = (s.channel c ch).requests) {s2 : State}
    (h2 : (s2.channel c ch).requests = ((dropRequest s1 c ch r.id).channel c ch).requests) : Vec.get ((pumpTxns s2 c ch).channel c ch).active slot none = none := by
  have hactive : (s1.channel c ch).active = (s.channel c ch).active := (Prod.mk.inj h).2
  have hpump := ((keptByAccesses_requests c ch c hch).toKeptByServing.pumpTxns_eq s2).trans h2
  rw [(Prod.mk.inj hpump).2, channel_dropRequest s1 r.id hc hch]
  exact active_keep hslot (hactive ▸ hr)

end

theorem requests_of_moveFill {s s' : State} {c ch slot part n : Nat} {r : ChReq} {st : Stream} {x : Except MemErr Unit} (hch : ch < 4) (hspilled : st.spilled = [])
    (h : moveFill (serveOwned s c ch (r.id + 1)) c r ch slot part n st = (s', x)) : (s'.channel c ch).requests = (s.channel c ch).requests :=
  (core_part_moveFill (g := fun k => (Vec.get k.proofer.channels ch State.emptyChannel).requests) (fun _ _ => rfl) hspilled h c).trans
    ((keptByAccesses_requests c ch c hch).toKeptByServing.serveOwned_eq s _)

theorem streams_of_moveFill {s s' : State} {c ch slot part n : Nat} {r : ChReq} {st : Stream} {x : Except MemErr Unit} (hspilled : st.spilled = [])
    (h : moveFill (serveOwned s c ch (r.id + 1)) c r ch slot part n st = (s', x)) : (s'.core c).proofer.streams = (s.core c).proofer.streams :=
  (core_part_moveFill (g := fun k => k.proofer.streams) (fun _ _ => rfl) hspilled h c).trans ((keptByAccesses_streams c ch c).toKeptByServing.serveOwned_eq s _)

/-- What the arrival of a part leaves of its slot (R336, R338). -/
def slotAfterPart (z : StreamSlot) : StreamSlot :=
  match z.state with
  | .filling k => if 1 < k then { z with state := .filling (k - 1) } else if z.fill.any (fun f => f.users.isEmpty) then ⟨.free, none⟩ else { z with state := .written }
  | _ => z

theorem streams_modStream_same (s : State) {c : Nat} (n : Nat) (f : Stream → Stream) (hc : c < 4) :
    ((modStream s c n f).core c).proofer.streams = modAt (s.core c).proofer.streams n f := by
  rw [modStream, State.modProofer, State.core_modCore_same _ _ hc]

theorem channel_modStream (s : State) (c n : Nat) (f : Stream → Stream) (d ch : Nat) : (modStream s c n f).channel d ch = s.channel d ch :=
  core_part_modCore (fun k => Vec.get k.proofer.channels ch State.emptyChannel) s c d (fun _ => rfl)

theorem partArrived_eq (s : State) (c n slot : Nat) : partArrived s c n slot = modStream s c n (fun x => { x with slots := modAt x.slots slot slotAfterPart }) := rfl

/-- The bytes of a fill have moved: its request is dropped, and its part has arrived. -/
theorem moveDesc_of_fill {s s' : State} {c ch sl part n : Nat} {r : ChReq} {role : Role} {st : Stream} (hwork : r.work = .fill role sl part)
    (hst : streamOf s c r role = some (n, st)) (hspilled : st.spilled = []) (hmove : moveFill s c r ch sl part n st = (s', .ok ())) :
    moveDesc s c ch r = partArrived (dropRequest (quiet s s') c ch r.id) c n sl := by
  simp only [moveDesc, hwork, hst, hmove, hspilled, List.isEmpty_nil, if_true]
  split <;> rfl

theorem finishedFillFreesItsDescriptor {s s2 : State} {c ch slot sl part n k : Nat} {r : ChReq} {role : Role} {st : Stream} {f : Option Fill} (hc : c < 4) (hch : ch < 4)
    (hslot : slot < 8) (hr : Vec.get (s.channel c ch).active slot none = some r) (hwork : r.work = .fill role sl part)
    (hst : streamOf (serveOwned s c ch (r.id + 1)) c r role = some (n, st)) (hspilled : st.spilled = [])
    (hmove : moveFill (serveOwned s c ch (r.id + 1)) c r ch sl part n st = (s2, .ok ())) (hslots : st.slots[sl]? = some ⟨.filling k, f⟩) :
    ∃ st', Vec.get ((pumpTxns (moveDesc (serveOwned s c ch (r.id + 1)) c ch r) c ch).channel c ch).active slot none = none ∧
      ((pumpTxns (moveDesc (serveOwned s c ch (r.id + 1)) c ch r) c ch).core c).proofer.streams[n]? = some st' ∧ st'.slots[sl]? = some (slotAfterPart ⟨.filling k, f⟩) := by
  have hrequests := requests_of_moveFill hch hspilled hmove
  have hstreams := streams_of_moveFill hspilled hmove
  have hn : (s.core c).proofer.streams[n]? = some st := by
    rw [← (keptByAccesses_streams c ch c).toKeptByServing.serveOwned_eq s (r.id + 1)]
    exact getElem?_of_streamOf hst
  rw [moveDesc_of_fill hwork hst hspilled hmove, partArrived_eq]
  refine ⟨{ st with slots := modAt st.slots sl slotAfterPart }, ?free, ?stream, ?part⟩
  case free =>
    have hquiet := (keptByAccesses_requests c ch c hch).toKeptByReads.quiet_eq (serveOwned s c ch (r.id + 1)) s2
    exact active_pumpTxns_dropRequest hc hch hslot hr (hquiet.trans hrequests) (congrArg Channel.requests (channel_modStream _ _ _ _ _ _))
  case stream =>
    rw [(keptByAccesses_streams c ch c).toKeptByServing.pumpTxns_eq, streams_modStream_same _ _ _ hc, streams_dropRequest, (keptByAccesses_streams c ch c).toKeptByReads.quiet_eq,
      hstreams, modAt, List.getElem?_modify_eq, hn]
    rfl
  case part =>
    rw [modAt, List.getElem?_modify_eq, hslots]
    rfl

/-- The pages of a prefetched run have been translated: its request is dropped, and its transfer is done. -/
theorem moveDesc_of_pref {s s' : State} {c ch n : Nat} {r : ChReq} {i : Inst} {ps : List (Nat × Nat)} (hwork : r.work = .pref n) (hi : s.inst r.tray r.seq = some i)
    (htranslated : translateAll s c (spaceOf s r.tray) false ((virtPieces (spansOf s c r)).map (fun p => (p.1, p.2.1))) = (s', .ok ps)) :
    moveDesc s c ch r = (dropRequest s' c ch r.id).modInst r.tray r.seq (fun y => { y with xds := modAt y.xds n (fun z => { z with done := true }) }) := by
  simp only [moveDesc, hwork, hi, htranslated]

theorem finishedPrefetchFreesItsDescriptor {s s2 : State} {c ch slot n : Nat} {r : ChReq} {i : Inst} {ps : List (Nat × Nat)} (hc : c < 4) (hch : ch < 4) (hslot : slot < 8)
    (hr : Vec.get (s.channel c ch).active slot none = some r) (ht : r.tray < 32) (hwork : r.work = .pref n) (hi : s.inst r.tray r.seq = some i) (hn : n < i.xds.length)
    (htranslated : translateAll (serveOwned s c ch (r.id + 1)) c (spaceOf (serveOwned s c ch (r.id + 1)) r.tray) false
      ((virtPieces (spansOf (serveOwned s c ch (r.id + 1)) c r)).map (fun p => (p.1, p.2.1))) = (s2, .ok ps)) :
    ∃ i', Vec.get ((pumpTxns (moveDesc (serveOwned s c ch (r.id + 1)) c ch r) c ch).channel c ch).active slot none = none ∧
      (pumpTxns (moveDesc (serveOwned s c ch (r.id + 1)) c ch r) c ch).inst r.tray r.seq = some i' ∧ (i'.xds[n]?).any (fun x => x.done) = true ∧
      (pumpTxns (moveDesc (serveOwned s c ch (r.id + 1)) c ch r) c ch).mem = s.mem := by
  have hserved : (serveOwned s c ch (r.id + 1)).inst r.tray r.seq = some i := (inst_of_trays ((keptByServing_trays c ch).serveOwned_eq s _) _ _).trans hi
  have hs2 : s2.inst r.tray r.seq = some i := (inst_of_trays (fst_of_answer htranslated (keptByReads_trays.translateAll_eq _ _ _ _ _)) _ _).trans hserved
  have hrequests : (s2.channel c ch).requests = (s.channel c ch).requests := by
    have h := keptByAccesses_requests c ch c hch
    exact (fst_of_answer (π := fun s => (s.channel c ch).requests) htranslated (h.toKeptByReads.translateAll_eq _ _ _ _ _)).trans (h.toKeptByServing.serveOwned_eq s _)
  have hmem : s2.mem = s.mem := (fst_of_answer htranslated (keptByReads_mem.translateAll_eq _ _ _ _ _)).trans ((keptByServing_mem c ch).serveOwned_eq s _)
  rw [moveDesc_of_pref hwork hserved htranslated]
  refine ⟨{ i with xds := modAt i.xds n (fun z => { z with done := true }) }, ?free, ?inst, ?done, ?mem⟩
  case free => exact active_pumpTxns_dropRequest hc hch hslot hr hrequests rfl
  case inst =>
    rw [inst_of_trays ((keptByServing_trays c ch).pumpTxns_eq _)]
    exact inst_modInst_same (f := fun y => { y with xds := modAt y.xds n (fun z => { z with done := true }) }) ht hs2 (fun _ => rfl)
  case done => simp [modAt, hn]
  case mem => exact ((keptByServing_mem c ch).pumpTxns_eq _).trans hmem

theorem finishedTransferFreesItsDescriptor : Sys2Proof.Claims.FinishedTransferFreesItsDescriptor := by
  unfold Sys2Proof.Claims.FinishedTransferFreesItsDescriptor
  intro s s2 c ch slot r hc hch hslot hr hsound hlive hhost hmoved hwalks
  have hdone := fun horder => (exec_transferDescDone hc hch hslot s).trans (congrArg Host.Outcome.next (descDone_of_free hr hsound hlive hhost hmoved hwalks horder))
  refine ⟨fun role sl part n st k f hwork hst hspilled hmove hslots => ?fill, fun n i ps hwork hi hn htranslated => ?pref⟩
  case fill =>
    obtain ⟨st', hfree, hstream, hpart⟩ := finishedFillFreesItsDescriptor hc hch hslot hr hwork hst hspilled hmove hslots
    exact ⟨_, st', hdone (inOrder_of_other (by simp [hwork]) (by simp [hwork])), hfree, hstream, hpart⟩
  case pref =>
    obtain ⟨i', hfree, hinst, hxd, hmem⟩ := finishedPrefetchFreesItsDescriptor hc hch hslot hr (lt_of_live hlive) hwork hi hn htranslated
    exact ⟨_, i', hdone (inOrder_of_other (by simp [hwork]) (by simp [hwork])), hfree, hinst, hxd, fun a => by rw [hmem]⟩

/-! ### Credits (R336) -/

theorem exec_streamSlotFilled {c : Nat} (hc : c < 4) (stream slot : Nat) (s : State) : exec (.streamSlotFilled c stream slot) s = .next (slotFilled c stream slot s) := if_pos hc

/-- A stream with the credit of a slot posted in a cycle, when the slot has been written. -/
def Stream.withCredit (slot now : Nat) (x : Stream) : Stream :=
  { x with slots := modAt x.slots slot (fun z => if z.state = .written then { z with state := .full } else z), event := now }

theorem streams_slotFilled (s : State) {c : Nat} (stream slot : Nat) (hc : c < 4) :
    ((slotFilled c stream slot s).core c).proofer.streams = modAt (s.core c).proofer.streams stream (Stream.withCredit slot s.now) := streams_modStream_same s stream _ hc

theorem writtenSlotPostsItsCredit : Sys2Proof.Claims.WrittenSlotPostsItsCredit := by
  unfold Sys2Proof.Claims.WrittenSlotPostsItsCredit
  intro s c stream slot st f hc hst hslot
  refine ⟨_, st.withCredit slot s.now, exec_streamSlotFilled hc stream slot s, ?own, ?posted, fun k hk => ?slots, fun n hn => ?streams⟩
  case own =>
    rw [streams_slotFilled s stream slot hc, modAt, List.getElem?_modify_eq, hst]
    rfl
  case posted =>
    rw [Stream.withCredit, modAt, List.getElem?_modify_eq, hslot]
    rfl
  case slots => exact List.getElem?_modify_ne _ _ (Ne.symm hk)
  case streams => rw [streams_slotFilled s stream slot hc, modAt, List.getElem?_modify_ne _ _ (Ne.symm hn)]

/-- Settles O19: a descriptor's issue by what its channel takes, its end by what the served transactions and the moved bytes leave, and a credit by the slot that it marks. -/
theorem descriptorsMoveTheirBytes : Obligations.DescriptorsMoveTheirBytes :=
  ⟨freeDescriptorTakesTheChosenRequest, finishedTransferFreesItsDescriptor, writtenSlotPostsItsCredit⟩

end Sys2Proof.Machine
end

section
/-! PROOFS. Streams that block each other and the spill areas: what the taking of room keeps, the youngest stream's spill, requests that move on, and a slot's copy. -/

namespace Sys2Proof.Machine

open Sys2Proof.Claims

/-! ### Requests take room (R401) -/

/-- A spill request takes room and waits no more. -/
def spillTaken (s : State) (c : Nat) (w : SpillWait) (first : Nat) : State :=
  placeSpill (s.modProofer c (fun p => { p with spillWait := dropFirst (fun x => x == w) p.spillWait })) c w first

/-- What each taking of room preserves holds when all that find room have taken it. -/
theorem serveSpills_preserves {P : State → Prop} {c : Nat} (hP : ∀ s w first, P s → P (spillTaken s c w first)) {s : State} (hs : P s) : P (serveSpills s c) := by
  suffices h : ∀ fuel s, P s → P (serveSpillsFrom fuel s c) from h _ s hs
  intro fuel
  induction fuel with
  | zero => exact fun _ hs => hs
  | succ fuel ih =>
    intro s hs
    rw [serveSpillsFrom]
    split
    · exact ih _ (hP s _ _ hs)
    · exact hs

/-- A part of the state in which the taking of room in a spill area does not show: it changes waiting requests, allocations, channels and the Couche places of instructions. -/
structure KeptBySpills {β : Type} (π : State → β) : Prop where
  setSpill : ∀ s c (f : List SpillWait → List SpillWait) (g : List SpillAlloc → List SpillAlloc),
    π (s.modProofer c (fun p => { p with spillWait := f p.spillWait, spillAlloc := g p.spillAlloc })) = π s
  modInst : ∀ s t k f, π (s.modInst t k f) = π s
  addRequest : ∀ s t k ch work, π (addRequest s t k ch work) = π s

section
variable {β : Type} {π : State → β} (h : KeptBySpills π)
include h

theorem KeptBySpills.placeSpill_eq (s : State) (c : Nat) (w : SpillWait) (first : Nat) : π (placeSpill s c w first) = π s := by
  unfold placeSpill
  extract_lets addr a s1
  have hs1 : π s1 = π s := h.setSpill s c id (fun l => l ++ [a])
  split
  · exact (h.modInst _ _ _ _).trans hs1
  · split
    · exact hs1
    · exact (foldl_keeps (fun s q => foldl_keeps (fun s p => h.addRequest s _ _ _ _) _ _) _ _).trans hs1

theorem KeptBySpills.serveSpills_eq (s : State) (c : Nat) : π (serveSpills s c) = π s :=
  serveSpills_preserves (P := fun s' => π s' = π s) (fun s' _ _ hs => (h.placeSpill_eq _ _ _ _).trans ((h.setSpill s' c _ id).trans hs)) rfl

theorem KeptBySpills.askSpill_eq (s : State) (c : Nat) (w : SpillWait) : π (askSpill s c w) = π s :=
  (h.serveSpills_eq _ c).trans (h.setSpill s c (fun l => l ++ [w]) id)

end

theorem keptBySpills_mem : KeptBySpills State.mem where
  setSpill _ _ _ _ := rfl
  modInst _ _ _ _ := rfl
  addRequest _ _ _ _ _ := rfl

theorem keptBySpills_reg (off : Nat) : KeptBySpills (fun s => s.reg off) where
  setSpill _ _ _ _ := rfl
  modInst _ _ _ _ := rfl
  addRequest _ _ _ _ _ := rfl

/-- A tray keeps all but the instructions that it holds. -/
theorem keptBySpills_tray {β : Type} (g : Tray → β) (hg : ∀ (r : Tray) l, g { r with insts := l } = g r) (t : Nat) : KeptBySpills (fun s => g (s.tray t)) where
  setSpill _ _ _ _ := rfl
  modInst s u _ _ := tray_part_modTray g s u t (fun r => hg r _)
  addRequest _ _ _ _ _ := rfl

theorem core_part_addRequest {β : Type} (g : Core → β) (hg : ∀ (k : Core) l, g { k with proofer := { k.proofer with channels := l } } = g k) (s : State) (t k ch : Nat)
    (work : XferWork) (d : Nat) : g ((addRequest s t k ch work).core d) = g (s.core d) :=
  core_part_modCore g s (coreOf t) d (fun k => hg k _)

/-- A core keeps all but the requests of its spill areas and channels. -/
theorem keptBySpills_core {β : Type} (g : Core → β) (hspill : ∀ (k : Core) l m, g { k with proofer := { k.proofer with spillWait := l, spillAlloc := m } } = g k)
    (hchannels : ∀ (k : Core) l, g { k with proofer := { k.proofer with channels := l } } = g k) (d : Nat) : KeptBySpills (fun s => g (s.core d)) where
  setSpill s c _ _ := core_part_modCore g s c d (fun k => hspill k _ _)
  modInst _ _ _ _ := rfl
  addRequest s t k ch work := core_part_addRequest g hchannels s t k ch work d

theorem keptBySpills_streams (d : Nat) : KeptBySpills (fun s => (s.core d).proofer.streams) :=
  keptBySpills_core (fun k => k.proofer.streams) (fun _ _ _ => rfl) (fun _ _ => rfl) d

theorem keptBySpills_peel (d : Nat) : KeptBySpills (fun s => (s.core d).peel) :=
  keptBySpills_core (fun k => k.peel) (fun _ _ _ => rfl) (fun _ _ => rfl) d

/-! ### A request stands at its area (R401) -/

/-- The requests that wait for room in a core's spill areas, and those that have it. -/
def spillsOf (s : State) (c : Nat) : List SpillWait × List SpillAlloc := ((s.core c).proofer.spillWait, (s.core c).proofer.spillAlloc)

theorem spillsOf_modProofer (s : State) {c : Nat} (f : Proofer → Proofer) (hc : c < 4) :
    spillsOf (s.modProofer c f) c = ((f (s.core c).proofer).spillWait, (f (s.core c).proofer).spillAlloc) := by
  rw [spillsOf, State.modProofer, State.core_modCore_same _ _ hc]

theorem spillsOf_addRequest (s : State) (t k ch : Nat) (work : XferWork) (c : Nat) : spillsOf (addRequest s t k ch work) c = spillsOf s c :=
  core_part_addRequest (fun k => (k.proofer.spillWait, k.proofer.spillAlloc)) (fun _ _ => rfl) s t k ch work c

/-- The room that a request takes. -/
def SpillWait.alloc (w : SpillWait) (first : Nat) : SpillAlloc :=
  { tray := w.tray, seq := w.seq, role := w.role, order := 0, tile := w.tile, couche := w.couche, area := w.area, first := first, chunks := cdiv w.bytes 65536 }

theorem spillsOf_placeSpill (s : State) {c : Nat} (w : SpillWait) (first : Nat) (hc : c < 4) :
    spillsOf (placeSpill s c w first) c = ((s.core c).proofer.spillWait, (s.core c).proofer.spillAlloc ++ [w.alloc first]) := by
  unfold placeSpill
  extract_lets addr a s1
  have hs1 : spillsOf s1 c = _ := spillsOf_modProofer s _ hc
  split
  · exact hs1
  · split
    · exact hs1
    · exact (foldl_keeps (π := fun s => spillsOf s c) (fun s q => foldl_keeps (π := fun s => spillsOf s c) (fun s p => spillsOf_addRequest s _ _ _ _ c) _ _) _ _).trans hs1

theorem spillsOf_spillTaken (s : State) {c : Nat} (w : SpillWait) (first : Nat) (hc : c < 4) :
    spillsOf (spillTaken s c w first) c = (dropFirst (fun x => x == w) (s.core c).proofer.spillWait, (s.core c).proofer.spillAlloc ++ [w.alloc first]) := by
  rw [spillTaken, spillsOf_placeSpill _ _ _ hc, State.modProofer, State.core_modCore_same _ _ hc]

theorem mem_dropFirst_of_ne {α : Type} [BEq α] [LawfulBEq α] {x y : α} (h : x ≠ y) {l : List α} (hx : x ∈ l) : x ∈ dropFirst (fun z => z == y) l := by
  induction l with
  | nil => cases hx
  | cons z l ih =>
    rw [dropFirst]
    rcases List.mem_cons.mp hx with rfl | hx
    · simp [h]
    · split
      · exact hx
      · exact List.mem_cons_of_mem _ (ih hx)

/-- A request stands at its area when one of its core's takes room: its own turn gives it that room, another's leaves it waiting or where it is. -/
theorem standsAt_spillTaken {s : State} {c : Nat} {v : SpillWait} (hc : c < 4) (h : StandsAt s c v) (w : SpillWait) (first : Nat) : StandsAt (spillTaken s c w first) c v := by
  obtain ⟨hwait, halloc⟩ := Prod.mk.inj (spillsOf_spillTaken s w first hc)
  unfold StandsAt
  rw [hwait, halloc]
  rcases h with h | ⟨a, ha, hplace⟩
  · by_cases hvw : v = w
    · subst hvw
      exact .inr ⟨v.alloc first, List.mem_append_right _ (List.mem_singleton_self _), rfl, rfl, rfl⟩
    · exact .inl (mem_dropFirst_of_ne hvw h)
  · exact .inr ⟨a, List.mem_append_left _ ha, hplace⟩

theorem standsAt_serveSpills {s : State} {c : Nat} {w : SpillWait} (hc : c < 4) (h : StandsAt s c w) : StandsAt (serveSpills s c) c w :=
  serveSpills_preserves (P := fun s => StandsAt s c w) (fun _ v first hs => standsAt_spillTaken hc hs v first) h

theorem standsAt_askSpill (s : State) {c : Nat} (w : SpillWait) (hc : c < 4) : StandsAt (askSpill s c w) c w := by
  refine standsAt_serveSpills hc (.inl ?_)
  rw [State.modProofer, State.core_modCore_same _ _ hc]
  exact List.mem_append_right _ (List.mem_singleton_self _)

/-! ### A chain of streams that block each other (R364, R365) -/

theorem exec_prfDeadlockExpire {c : Nat} (hc : c < 4) (s : State) : exec (.prfDeadlockExpire c) s = .next (deadlockExpire c s) := if_pos hc

/-- The expiry of a window: the youngest stream's full slots leave, its blocks are to be filled anew, the break is counted, and room is asked for. -/
theorem deadlockExpire_of_youngest {s : State} {c j : Nat} {y : Stream} (hj : youngestOf s c (blockChain s c) = some j) (hy : (s.core c).proofer.streams[j]? = some y) :
    ∃ f w, (f y).slots = y.slots.map (fun z => if withdrawn s c y z then { z with state := .leaving } else z) ∧
      deadlockExpire c s = askSpill ((modStream s c j f).count (Csr.prfSpillBreaks c) 1) c w := by
  simp only [deadlockExpire, hj, hy]
  exact ⟨_, _, rfl, rfl⟩

theorem youngestBlockedStreamIsSpilled : Sys2Proof.Claims.YoungestBlockedStreamIsSpilled := by
  unfold Sys2Proof.Claims.YoungestBlockedStreamIsSpilled
  intro s c j y hc hj hy
  obtain ⟨f, w, hslots, hexpire⟩ := deadlockExpire_of_youngest hj hy
  refine ⟨_, f y, exec_prfDeadlockExpire hc s, ?stream, hslots, ?count, fun a => ?bytes⟩
  case stream =>
    have hcount : (((modStream s c j f).count (Csr.prfSpillBreaks c) 1).core c).proofer.streams = modAt (s.core c).proofer.streams j f := streams_modStream_same s j f hc
    rw [hexpire, (keptBySpills_streams c).askSpill_eq, hcount, modAt, List.getElem?_modify_eq, hy]
    rfl
  case count =>
    rw [hexpire, (keptBySpills_reg _).askSpill_eq, State.reg_count_same]
    rfl
  case bytes =>
    rw [hexpire, keptBySpills_mem.askSpill_eq]
    rfl

/-! ### Requests that waited out their windows (R253, R401, R402) -/

theorem exec_spillAreaMove {c : Nat} (hc : c < 4) (s : State) : exec (.spillAreaMove c) s = .next (spillMoves c s) := if_pos hc

theorem exec_spillExhausted {c : Nat} (hc : c < 4) (s : State) : exec (.spillExhausted c) s = .next (spillGivesUp c s) := if_pos hc

theorem exec_coucheOverflow {c : Nat} (hc : c < 4) (s : State) : exec (.coucheOverflow c) s = .next (coucheOverflows c s) := if_pos hc

theorem spillRequestMovesOn {s : State} {c : Nat} {w : SpillWait} (hc : c < 4)
    (hw : ((serveSpills s c).core c).proofer.spillWait.find? (fun w => decide (w.area < 2)) = some w) :
    StandsAt (spillMoves c s) c { w with area := w.area + 1 } ∧
      (spillMoves c s).reg (if w.area = 0 then Csr.memSplToLpd c else Csr.memSplToHost c) = s.reg (if w.area = 0 then Csr.memSplToLpd c else Csr.memSplToHost c) + 1 := by
  simp only [spillMoves, hw]
  constructor
  · refine standsAt_serveSpills hc (.inl ?_)
    rw [show ∀ (s : State) off n, (s.count off n).core c = s.core c from fun _ _ _ => rfl, State.modProofer, State.core_modCore_same _ _ hc]
    exact List.mem_append_right _ (List.mem_singleton_self _)
  · rw [(keptBySpills_reg _).serveSpills_eq, State.reg_count_same]
    exact congrArg (· + 1) ((keptBySpills_reg _).serveSpills_eq s c)

/-- A request that gets no room at the last area ends its task. -/
theorem spillGivesUp_of_waits {s : State} {c : Nat} {w : SpillWait} (hw : ((serveSpills s c).core c).proofer.spillWait.find? (fun w => w.area == 2) = some w) :
    spillGivesUp c s = faultInst ((serveSpills s c).count (Csr.memSplExhausted c) 1) w.tray w.seq FC.spillExhausted 0 0 := by
  simp only [spillGivesUp, hw]

theorem faulted_dropEnds (s : State) {t : Nat} (ht : t < 32) : ((dropEnds s t).tray t).faulted = (s.tray t).faulted := by
  unfold dropEnds
  dsimp only
  split
  · rfl
  · rw [State.tray_modTray_same _ _ ht]
    rfl

/-- The record that a fault leaves with the tray until the end of DRAIN. -/
theorem faulted_endTaskLog {s : State} {t : Nat} (ht : t < 32) (hlive : (s.tray t).live = true) (code index pass rowBlk aux addr logAux logAddr : Nat) :
    ∃ f, ((endTaskLog s t code index pass rowBlk aux addr logAux logAddr).tray t).faulted = some f ∧ f.code = code ∧ f.index = index := by
  simp only [endTaskLog, hlive, Bool.not_true, Bool.false_eq_true, if_false, tray_logError, tray_count, tray_stopQueue, faulted_dropEnds _ ht, tray_discardTray,
    State.tray_modTray_same _ _ ht]
  exact ⟨_, rfl, rfl, rfl⟩

theorem faulted_faultInstLog {s : State} {t k : Nat} {i : Inst} (ht : t < 32) (hlive : (s.tray t).live = true) (hi : s.inst t k = some i) (code aux addr logAux logAddr : Nat) :
    ∃ f, ((faultInstLog s t k code aux addr logAux logAddr).tray t).faulted = some f ∧ f.code = code ∧ f.index = i.index := by
  obtain ⟨f, hf, hcode, hindex⟩ := faulted_endTaskLog ht hlive code i.index i.passIndex i.rowBlock aux addr logAux logAddr
  simp only [faultInstLog, hi, hlive, if_true, State.tray_modTray_same _ _ ht, hf, Option.map_some]
  exact ⟨_, rfl, hcode, hindex⟩

theorem reg_logError_of_ne {off : Nat} (ho : Csr.errLogNext ≠ off) (s : State) (code scope queue tray index aux addr : Nat) :
    (logError s code scope queue tray index aux addr).reg off = s.reg off := State.reg_setFld_other s _ _ _ ho

/-- The end of a task by a fault writes no register below those of the queues. -/
theorem reg_endTaskLog_of_lt {off : Nat} (ho : off < 0x100000) (s : State) (t code index pass rowBlk aux addr logAux logAddr : Nat) :
    (endTaskLog s t code index pass rowBlk aux addr logAux logAddr).reg off = s.reg off := by
  have dropped : ∀ s : State, (dropEnds s t).reg off = s.reg off := fun s => by
    unfold dropEnds
    exact kept_ite (fun s : State => s.reg off) rfl rfl
  unfold endTaskLog
  refine kept_ite (fun s : State => s.reg off) rfl ?_
  rw [reg_logError_of_ne (by unfold Csr.errLogNext; omega), State.reg_count_other _ _ (by unfold Csr.errTasksEnded; omega), stopQueue,
    State.reg_setFld_other _ _ _ _ (by unfold Csr.hqState; omega), dropped, reg_discardTray, reg_modTray]

theorem reg_faultInstLog_of_lt {off : Nat} (ho : off < 0x100000) (s : State) (t k code aux addr logAux logAddr : Nat) :
    (faultInstLog s t k code aux addr logAux logAddr).reg off = s.reg off := by
  unfold faultInstLog
  split
  · exact kept_ite (fun s : State => s.reg off) (reg_endTaskLog_of_lt ho _ _ _ _ _ _ _ _ _ _) (reg_endTaskLog_of_lt ho _ _ _ _ _ _ _ _ _ _)
  · rfl

theorem spillRequestExhaustsItsTask {s : State} {c : Nat} {w : SpillWait} {i : Inst} (hc : c < 4)
    (hw : ((serveSpills s c).core c).proofer.spillWait.find? (fun w => w.area == 2) = some w) (ht : w.tray < 32) (hlive : (s.tray w.tray).live = true)
    (hi : (serveSpills s c).inst w.tray w.seq = some i) :
    ∃ f, ((spillGivesUp c s).tray w.tray).state = .drain ∧ ((spillGivesUp c s).tray w.tray).faulted = some f ∧ f.code = 0x0306 ∧ f.index = i.index ∧
      (spillGivesUp c s).reg (Csr.memSplExhausted c) = s.reg (Csr.memSplExhausted c) + 1 := by
  have hlive' : (((serveSpills s c).count (Csr.memSplExhausted c) 1).tray w.tray).live = true :=
    ((keptBySpills_tray Tray.live (fun _ _ => rfl) w.tray).serveSpills_eq s c).trans hlive
  have hi' : ((serveSpills s c).count (Csr.memSplExhausted c) 1).inst w.tray w.seq = some i := hi
  rw [spillGivesUp_of_waits hw, faultInst]
  obtain ⟨f, hf, hcode, hindex⟩ := faulted_faultInstLog ht hlive' hi' FC.spillExhausted 0 0 0 0
  refine ⟨f, state_faultInstLog ht hlive' hi' _ _ _ _ _, hf, hcode, hindex, ?_⟩
  rw [reg_faultInstLog_of_lt (by unfold Csr.memSplExhausted; omega), State.reg_count_same]
  exact congrArg (· + 1) ((keptBySpills_reg _).serveSpills_eq s c)

/-- A tile that waits for Couche space, and has asked for no other, asks for room in a spill area. -/
theorem coucheOverflows_of_waits {s : State} {c t k n : Nat} {rest : List (Nat × Nat × Nat)} {i : Inst} (hwait : (s.core c).peel.coucheWait = (t, k, n) :: rest)
    (hi : s.inst t k = some i) (hred : i.mn ≠ .fred) (hnone : (i.tile n).couche = none)
    (hasked : ∀ w ∈ (s.core c).proofer.spillWait, ¬ (w.tray = t ∧ w.seq = k ∧ w.couche = true ∧ w.tile = n)) :
    ∃ w, w.tray = t ∧ w.seq = k ∧ w.area = 0 ∧
      coucheOverflows c s = askSpill ((s.modPeel c (fun p => { p with coucheWait := rest })).count (Csr.peelCoucheOvf c) 1) c w := by
  have hspills : ((s.modPeel c (fun p => { p with coucheWait := rest })).core c).proofer = (s.core c).proofer := core_part_modCore Core.proofer s c c (fun _ => rfl)
  have hany : ((s.core c).proofer.spillWait.any (fun w => w.tray == t && w.seq == k && w.couche && w.tile == n)) = false :=
    List.any_eq_false.mpr (fun w hw => by simpa [and_assoc] using hasked w hw)
  have hinst : (s.modPeel c (fun p => { p with coucheWait := rest })).inst t k = some i := hi
  simp only [coucheOverflows, hwait, hinst, hspills, hany, hred, hnone, if_false, Bool.not_false, Option.isNone_none, Bool.and_self, if_true]
  exact ⟨_, rfl, rfl, rfl, rfl⟩

theorem spillRequestsGoOnToTheNextArea : Sys2Proof.Claims.SpillRequestsGoOnToTheNextArea := by
  unfold Sys2Proof.Claims.SpillRequestsGoOnToTheNextArea
  refine ⟨fun s c w hc hw => ?moves, fun s c w i hc hw ht _ hlive hi => ?exhausted, fun s c t k n rest i hc hwait hi hred hnone hasked => ?overflow⟩
  case moves => exact ⟨_, exec_spillAreaMove hc s, spillRequestMovesOn hc hw⟩
  case exhausted =>
    obtain ⟨f, h⟩ := spillRequestExhaustsItsTask hc hw ht hlive hi
    exact ⟨_, f, exec_spillExhausted hc s, h⟩
  case overflow =>
    obtain ⟨w, hwt, hwk, harea, hoverflow⟩ := coucheOverflows_of_waits hwait hi hred hnone hasked
    refine ⟨_, w, exec_coucheOverflow hc s, ?rest, ?stands, hwt, hwk, harea, ?count⟩
    case rest =>
      have hmod : (s.modPeel c (fun p => { p with coucheWait := rest })).core c = _ := State.core_modCore_same s _ hc
      rw [hoverflow, (keptBySpills_peel c).askSpill_eq]
      exact congrArg (fun k => k.peel.coucheWait) hmod
    case stands =>
      rw [hoverflow]
      exact standsAt_askSpill _ w hc
    case count =>
      rw [hoverflow, (keptBySpills_reg _).askSpill_eq, State.reg_count_same]
      rfl

/-! ### The copy of a slot completes (R333, R365) -/

theorem keptByServing_host (c ch : Nat) : KeptByServing c ch State.host where
  setLarder _ _ := rfl
  setPoison _ _ := rfl
  setBenchPoison _ _ := rfl
  setPlanted _ _ := rfl
  setArbs _ _ := rfl
  setReg _ _ _ _ := rfl
  setTCache _ _ _ := kept_ite State.host rfl rfl
  setErrLog _ _ := rfl
  setLpc _ _ _ _ := rfl
  modTxns _ _ := rfl

theorem keptByServing_reg {off : Nat} (ho : off < 0xC0000) (c ch : Nat) : KeptByServing c ch (fun s => s.reg off) where
  toKeptByReads := keptByReads_reg (by omega)
  setErrLog _ _ := rfl
  setLpc _ _ _ _ := State.reg_setReg_other _ _ (by omega)
  modTxns _ _ := rfl

theorem exec_spillCopyDone {c : Nat} (hc : c < 4) (s : State) : exec (.spillCopyDone c) s = .next (spillCopied c s) := if_pos hc

/-- A part of a slot stands at its place in a spill area. -/
def partCopied (s : State) (c : Nat) (x : Stream) (slot part addr : Nat) : State :=
  (s.write (addr + (copyPart x part).1) (benchPeek s c (x.base + slot * x.slotBytes + (copyPart x part).1) (copyPart x part).2)).count (Csr.prfBytesWr c) (copyPart x part).2

/-- What is still to be granted of the part's transactions is served. -/
def partServed (s : State) (c : Nat) (r : ChReq) (x : Stream) (slot part addr : Nat) : State := serveOwned (partCopied s c x slot part addr) c 1 (r.id + 1)

section
variable {s : State} {c n slot part addr : Nat} {role : Role} {r : ChReq} {x : Stream}

/-- Every copy request of a core. -/
def copiesOf (s : State) (c : Nat) : List ChReq := ((s.channel c 1).active.toList.filterMap (fun o => o) ++ (s.channel c 1).waiting).filter (fun y => isSpill y.work)

/-- The last part of a slot's copy, with no access to host memory outstanding. -/
theorem spillCopied_of_last (hmin : argMin (fun y => y.id) (copiesOf s c) = some r) (hwork : r.work = .spill role slot part addr)
    (hlast : (copiesOf s c).filter (fun y => y.tray == r.tray && y.seq == r.seq && copies role slot y.work) = [r]) (hmoved : r.moved = false)
    (hhost : hostWaits s c r.id = false) (hst : streamOf s c r role = some (n, x)) (hphys : physCheck s (addr + (copyPart x part).1) (copyPart x part).2 true = none) :
    spillCopied c s =
      endDesc (partServed s c r x slot part addr) c 1 r (spansOf (partCopied s c x slot part addr) c r) (fun s2 => slotCopied s2 c r role slot addr) := by
  have hcopy : copySlot s c r role slot part addr = (partCopied s c x slot part addr, .ok ()) := by
    simp only [copySlot, hst, hphys]
    rfl
  unfold copiesOf at hmin hlast
  unfold spillCopied
  extract_lets h all
  have hall : all = (h.active.toList.filterMap (fun o => o) ++ h.waiting).filter (fun y => isSpill y.work) := List.filter_congr (fun y _ => by cases y.work <;> rfl)
  rw [hall, hmin]
  simp only [hwork]
  refine (congrArg (List.foldl _ s) ((List.filter_congr (fun y _ => ?_)).trans hlast)).trans ?_
  · cases y.work <;> rfl
  simp [hwork, hhost, hmoved, hcopy, partServed]


/-! What the copy changes: the bytes of the spill area, and the count of bytes written. -/

theorem cores_partCopied : (partCopied s c x slot part addr).cores = s.cores := (memoryWritten_write s _ _).cores

theorem streams_partServed : ((partServed s c r x slot part addr).core c).proofer.streams = (s.core c).proofer.streams :=
  ((keptByAccesses_streams c 1 c).toKeptByServing.serveOwned_eq _ _).trans (congrArg (fun k => k.proofer.streams) (core_of_cores cores_partCopied c))

theorem requests_partServed : ((partServed s c r x slot part addr).channel c 1).requests = (s.channel c 1).requests :=
  ((keptByAccesses_requests c 1 c (by decide)).toKeptByServing.serveOwned_eq _ _).trans
    (congrArg (fun k : Core => (Vec.get k.proofer.channels 1 State.emptyChannel).requests) (core_of_cores cores_partCopied c))

theorem host_partServed : (partServed s c r x slot part addr).host = s.host :=
  ((keptByServing_host c 1).serveOwned_eq _ _).trans ((plantAt_touches _ _ _).host rfl)

theorem mem_partServed : (partServed s c r x slot part addr).mem =
    putBytes s.mem (addr + (copyPart x part).1) (benchPeek s c (x.base + slot * x.slotBytes + (copyPart x part).1) (copyPart x part).2) :=
  ((keptByServing_mem c 1).serveOwned_eq _ _).trans (mem_write s _ _)

theorem reg_partServed (hc : c < 4) :
    (partServed s c r x slot part addr).reg (Csr.prfBytesWr c) = s.reg (Csr.prfBytesWr c) + BitVec.ofNat 64 (copyPart x part).2 := by
  have hlow : Csr.prfBytesWr c < 0xC0000 := by
    unfold Csr.prfBytesWr
    omega
  have hinj : Csr.prfBytesWr c ≠ Csr.errInj := by
    unfold Csr.prfBytesWr Csr.errInj
    omega
  rw [partServed, (keptByServing_reg hlow c 1).serveOwned_eq, partCopied, State.reg_count_same, (memoryWritten_write s _ _).reg _ hinj]

/-- The end of a slot's copy writes neither memory nor registers. -/
theorem endDesc_slotCopied_touches (s : State) (spans : List Span) : Touch { ord := true, cores := true, mmu := true, host := true, hostTx := true } s
    (endDesc s c 1 r spans (fun s2 => slotCopied s2 c r role slot addr)) :=
  touch_endDesc _ _ _ _ _ _ (.refl _ s) (fun _ h => touch_slotCopied _ _ _ _ _ _ h rfl rfl) rfl rfl rfl rfl

/-! The block is remembered as spilled, unless the host has still to acknowledge it (R366, R382). -/

theorem streamOf_congr {s s' : State} (h : (s'.core c).proofer.streams = (s.core c).proofer.streams) : streamOf s' c r role = streamOf s c r role := by
  rw [streamOf, h]
  rfl

theorem spansOf_of_spill (hwork : r.work = .spill role slot part addr) (hst : streamOf s c r role = some (n, x)) :
    spansOf s c r = [.bench (x.base + slot * x.slotBytes + (copyPart x part).1) (copyPart x part).2 false, .phys (addr + (copyPart x part).1) (copyPart x part).2 true] := by
  simp only [spansOf, hwork, hst]

/-- A descriptor that writes nothing to host memory, and waits for nothing there, ends at once. -/
theorem endDesc_of_local {off len pa : Nat} {ends : State → State} (hpa : pa.testBit 47 = false) (hhost : hostWaits s c r.id = false) :
    endDesc s c 1 r [.bench off len false, .phys pa len true] ends = dropRequest (ends s) c 1 r.id := by
  simp [endDesc, sendHostWrites, hpa, hhost]

/-- No copy of a slot is still to be made but the one that completes. -/
theorem copyOpen_of_last (hlast : (copiesOf s c).filter (fun y => y.tray == r.tray && y.seq == r.seq && copies role slot y.work) = [r]) {s' : State}
    (hrequests : (s'.channel c 1).requests = (s.channel c 1).requests) : copyOpen s' c r role slot = false := by
  obtain ⟨hwaiting, hactive⟩ := Prod.mk.inj hrequests
  simp only [copyOpen, hwaiting, hactive]
  refine List.any_eq_false.mpr (fun y hy hcopy => ?_)
  have hcopies : y.id ≠ r.id ∧ y.tray = r.tray ∧ y.seq = r.seq ∧ copies role slot y.work = true ∧ isSpill y.work = true := by
    cases hw : y.work <;> simp_all [copies, isSpill]
  obtain ⟨hid, htray, hseq, hslot, hspill⟩ := hcopies
  have hmem : y ∈ (copiesOf s c).filter (fun y => y.tray == r.tray && y.seq == r.seq && copies role slot y.work) :=
    List.mem_filter.mpr ⟨List.mem_filter.mpr ⟨hy, hspill⟩, by simp [htray, hseq, hslot]⟩
  rw [hlast] at hmem
  exact hid (congrArg ChReq.id (List.mem_singleton.mp hmem))

/-- A stream one of whose slots has been copied out. -/
def Stream.copiedOut (slot addr now bytes : Nat) (f : Fill) (y : Stream) : Stream :=
  { y with slots := setAt y.slots slot ⟨.free, none⟩, event := now, spilled := y.spilled ++ [⟨f, addr, bytes⟩] }

theorem findIdx?_of_find?_zipIdx {α : Type} {p : α → Bool} {l : List α} {y : α} {k : Nat} (h : l.zipIdx.find? (fun q => p q.1) = some (y, k)) : l.findIdx? p = some k := by
  obtain ⟨hp, i, hi, hget, hbefore⟩ := List.find?_eq_some_iff_getElem.mp h
  obtain ⟨rfl, rfl⟩ : l[i]'(by simpa using hi) = y ∧ i = k := by simpa using hget
  exact List.findIdx?_eq_some_iff_getElem.mpr ⟨by simpa using hi, hp, fun j hj => by simpa using hbefore j hj⟩

theorem findIdx?_of_streamOf (hst : streamOf s c r role = some (n, x)) :
    (s.core c).proofer.streams.findIdx? (fun x => x.tray == r.tray && x.seq == r.seq && x.role == role) = some n := by
  obtain ⟨⟨y, k⟩, hfind, hpair⟩ := Option.map_eq_some_iff.mp hst
  obtain ⟨rfl, rfl⟩ := Prod.mk.inj hpair
  exact findIdx?_of_find?_zipIdx (p := fun x : Stream => x.tray == r.tray && x.seq == r.seq && x.role == role) hfind

theorem slotCopied_of_last {f : Fill} (hst : streamOf s c r role = some (n, x)) (hslot : x.slots[slot]? = some ⟨.leaving, some f⟩) (hopen : copyOpen s c r role slot = false) :
    slotCopied s c r role slot addr = pumpStreams (modStream s c n (Stream.copiedOut slot addr s.now x.slotBytes f)) c := by
  simp only [slotCopied, findIdx?_of_streamOf hst, getElem?_of_streamOf hst, List.getD_eq_getElem?_getD, hslot, Option.getD_some, hopen, Bool.false_eq_true, if_false]
  rfl

end

/-- What is spilled of a core's streams. -/
def spilledOf (s : State) (c : Nat) : List (List Spilled) := (s.core c).proofer.streams.map Stream.spilled

theorem map_modAt {α β : Type} {f : α → α} {g : α → β} (h : ∀ x, g (f x) = g x) (l : List α) (n : Nat) : (modAt l n f).map g = l.map g := by
  refine List.ext_getElem? (fun k => ?_)
  rw [modAt, List.getElem?_map, List.getElem?_map, List.getElem?_modify]
  split <;> simp [Function.comp_def, h]

theorem spilledOf_modStream (s : State) (c n : Nat) {f : Stream → Stream} (hf : ∀ y, (f y).spilled = y.spilled) (d : Nat) : spilledOf (modStream s c n f) d = spilledOf s d :=
  core_part_modCore (fun k => k.proofer.streams.map Stream.spilled) s c d (fun _ => map_modAt hf _ _)

theorem spilledOf_modChannel (s : State) (c ch : Nat) (f : Channel → Channel) (d : Nat) : spilledOf (s.modChannel c ch f) d = spilledOf s d :=
  congrArg (List.map Stream.spilled) (streams_modChannel s c ch f d)

theorem spilledOf_dropRequest (s : State) (c ch id d : Nat) : spilledOf (dropRequest s c ch id) d = spilledOf s d :=
  congrArg (List.map Stream.spilled) (streams_dropRequest s c ch id d)

theorem spilledOf_addRequest (s : State) (t k ch : Nat) (work : XferWork) (d : Nat) : spilledOf (addRequest s t k ch work) d = spilledOf s d :=
  core_part_addRequest (fun k => k.proofer.streams.map Stream.spilled) (fun _ _ => rfl) s t k ch work d

/-- The fills that a stream requests leave what is spilled of every stream. -/
theorem spilledOf_fillSlots (fuel : Nat) (s : State) (c n d : Nat) : spilledOf (fillSlots fuel s c n) d = spilledOf s d := by
  induction fuel generalizing s with
  | zero => rfl
  | succ fuel ih =>
    have requested : ∀ (l : List Nat) (s : State) (t seq ch : Nat) (work : Nat → XferWork) (f : Stream → Stream), (∀ y, (f y).spilled = y.spilled) →
        spilledOf (l.foldl (fun s' p => addRequest s' t seq ch (work p)) (modStream s c n f)) d = spilledOf s d := fun l s t seq ch work f hf =>
      (foldl_keeps (π := fun s => spilledOf s d) (fun s p => spilledOf_addRequest s t seq ch (work p) d) l _).trans (spilledOf_modStream s c n hf d)
    unfold fillSlots
    split
    · rfl
    · dsimp only
      split
      · split
        · rfl
        · rw [ih]
          split
          · exact requested _ _ _ _ _ _ _ (fun _ => rfl)
          · exact (spilledOf_modChannel _ _ _ _ _).trans (requested _ _ _ _ _ _ _ (fun _ => rfl))
      · rfl

theorem spilledOf_pumpStreams (s : State) (c d : Nat) : spilledOf (pumpStreams s c) d = spilledOf s d :=
  foldl_keeps (π := fun s => spilledOf s d) (fun s n => spilledOf_fillSlots 8 s c n d) _ _

theorem exists_of_spilledOf {s : State} {c n : Nat} {l : List Spilled} (h : (spilledOf s c)[n]? = some l) : ∃ x, (s.core c).proofer.streams[n]? = some x ∧ x.spilled = l := by
  rwa [spilledOf, List.getElem?_map, Option.map_eq_some_iff] at h

theorem spilledOf_modStream_same {s : State} {c n : Nat} {x : Stream} (f : Stream → Stream) (hc : c < 4) (hn : (s.core c).proofer.streams[n]? = some x) :
    (spilledOf (modStream s c n f) c)[n]? = some (f x).spilled := by
  rw [spilledOf, streams_modStream_same _ _ _ hc, List.getElem?_map, modAt, List.getElem?_modify_eq, hn]
  rfl

/-- A slot copied out to an area that is not in host memory: its block is remembered as spilled there. -/
theorem spilled_spillCopied {s : State} {c n slot part addr : Nat} {role : Role} {r : ChReq} {x : Stream} {f : Fill} (hc : c < 4)
    (hlocal : (addr + (copyPart x part).1).testBit 47 = false) (hwork : r.work = .spill role slot part addr)
    (hlast : (copiesOf s c).filter (fun y => y.tray == r.tray && y.seq == r.seq && copies role slot y.work) = [r]) (hhost : hostWaits s c r.id = false)
    (hst : streamOf s c r role = some (n, x)) (hslot : x.slots[slot]? = some ⟨.leaving, some f⟩) (hcopied : spillCopied c s =
      endDesc (partServed s c r x slot part addr) c 1 r (spansOf (partCopied s c x slot part addr) c r) (fun s2 => slotCopied s2 c r role slot addr)) :
    ∃ x', ((spillCopied c s).core c).proofer.streams[n]? = some x' ∧ ⟨f, addr, x.slotBytes⟩ ∈ x'.spilled := by
  have hstc : streamOf (partCopied s c x slot part addr) c r role = some (n, x) :=
    (streamOf_congr (congrArg (fun k : Core => k.proofer.streams) (core_of_cores cores_partCopied c))).trans hst
  have hsts : streamOf (partServed s c r x slot part addr) c r role = some (n, x) := (streamOf_congr streams_partServed).trans hst
  have hhosts : hostWaits (partServed s c r x slot part addr) c r.id = false := by rwa [hostWaits, host_partServed]
  have hopen : copyOpen (partServed s c r x slot part addr) c r role slot = false := copyOpen_of_last hlast requests_partServed
  rw [spansOf_of_spill hwork hstc, endDesc_of_local hlocal hhosts, slotCopied_of_last hsts hslot hopen] at hcopied
  have hspilled : (spilledOf (spillCopied c s) c)[n]? = some (x.spilled ++ [⟨f, addr, x.slotBytes⟩]) := by
    rw [hcopied, spilledOf_dropRequest, spilledOf_pumpStreams, spilledOf_modStream_same _ hc (getElem?_of_streamOf hsts)]
    rfl
  obtain ⟨x', hx', hmem⟩ := exists_of_spilledOf hspilled
  exact ⟨x', hx', hmem ▸ List.mem_append_right _ (List.mem_singleton_self _)⟩

theorem spilledSlotIsCopiedOut : Sys2Proof.Claims.SpilledSlotIsCopiedOut := by
  unfold Sys2Proof.Claims.SpilledSlotIsCopiedOut
  intro s c n slot part addr role r x f hc all o len hmin hwork hlast hmoved hhost hst hslot hphys
  have hcopied := spillCopied_of_last hmin hwork hlast hmoved hhost hst hphys
  have htouch := endDesc_slotCopied_touches (c := c) (r := r) (role := role) (slot := slot) (addr := addr) (partServed s c r x slot part addr)
    (spansOf (partCopied s c x slot part addr) c r)
  rw [← hcopied] at htouch
  have hmem : (spillCopied c s).mem = putBytes s.mem (addr + o) (benchPeek s c (x.base + slot * x.slotBytes + o) len) := (htouch.mem rfl).trans mem_partServed
  have hlen : (benchPeek s c (x.base + slot * x.slotBytes + o) len).length = len := by simp [benchPeek]
  refine ⟨_, exec_spillCopyDone hc s, fun j hj => ?inside, fun a ha => ?outside, ?count, fun hlocal => ?spilled⟩
  case inside =>
    have hin : j < (benchPeek s c (x.base + slot * x.slotBytes + o) len).length := by rwa [hlen]
    rw [hmem, putBytes_get_inside hin, List.getD_eq_getElem?_getD, List.getElem?_eq_getElem hin, Option.getD_some]
  case outside => rw [hmem, putBytes_get_outside (by rwa [hlen])]
  case count =>
    rw [State.reg, htouch.regs rfl]
    exact reg_partServed hc
  case spilled => exact spilled_spillCopied hc hlocal hwork hlast hhost hst hslot hcopied

/-- Settles O20: the spill of the youngest stream, the copy of a slot, and the requests that waited out their windows. -/
theorem spillsBreakMutualWaits : Obligations.SpillsBreakMutualWaits :=
  ⟨youngestBlockedStreamIsSpilled, spilledSlotIsCopiedOut, spillRequestsGoOnToTheNextArea⟩

end Sys2Proof.Machine
end

section
/-! PROOFS. The tiler's counts and open-tile entries. A header count reaches the tiler and a group opens together; but a tile without passes also writes the statistics that wait for
its rows, whatever RED is, so that its status entry need not be all that is written. -/

namespace Sys2Proof.Machine

open Sys2Proof.Claims

/-! ### A header count (R338) -/

theorem exec_headerCountReport {t : Nat} (ht : t < 32) (k role bi bj : Nat) (s : State) : exec (.headerCountReport t k role bi bj) s = .next (reportCount t k role bi bj s) := if_pos ht

theorem trays_sumHeaders (s : State) (c space : Nat) (d : Desc) (l : List (Nat × Nat)) : (sumHeaders s c space d l).1.trays = s.trays :=
  (touch_sumHeaders (F := { mem := true, poison := true, benchPoison := true, regs := true, cores := true, mmu := true, larder := true, arbs := true, planted := true })
    s c space d (.refl _ s) rfl rfl rfl rfl rfl rfl rfl rfl rfl l).trays rfl

/-- An instruction with one more header count reported. -/
def Inst.withCount (r : Role) (bi bj n : Nat) (i : Inst) : Inst := { i with counts := i.counts ++ [(r, bi, bj, n)] }

theorem reported_withCount {i : Inst} {r : Role} {bi bj : Nat} (h : i.reported r bi bj = none) (n : Nat) : (i.withCount r bi bj n).reported r bi bj = some n := by
  rw [Inst.reported, Option.map_eq_none_iff] at h
  simp [Inst.reported, Inst.withCount, List.find?_append, h]

/-- A count that is known is not reported again. -/
theorem reportCount_of_reported {s : State} {t k role bi bj : Nat} {i : Inst} (hi : s.inst t k = some i)
    (hknown : (i.reported (if role = 0 then .srca else .srcb) bi bj).isSome = true) : reportCount t k role bi bj s = s := by
  simp only [reportCount, hi, hknown, true_or, or_true, if_true]

theorem headerCountReachesTheTiler : Sys2Proof.Claims.HeaderCountReachesTheTiler := by
  unfold Sys2Proof.Claims.HeaderCountReachesTheTiler
  intro s s1 t role bi bj n i p ht hrole hruns hi hreleased hplanned hproduct r hcomp hnone hstep hstream hsum
  have hput : reportCount t i.seq role bi bj s = s1.modInst t i.seq (Inst.withCount r bi bj n) := by
    have hguard : ¬ ((!i.released) = true ∨ (!i.planned) = true ∨ (!i.mn.isProduct) = true ∨ 2 ≤ role ∨ (i.desc r).comp ≠ 1 ∨ (i.reported r bi bj).isSome = true ∨
        (!mayRun s t) = true) := by
      simp [hreleased, hplanned, hproduct, hcomp, hnone, mayRun_of_runs hruns, hrole]
    simp only [reportCount, hi]
    rw [if_neg hguard]
    simp only [r] at hstep hstream hsum ⊢
    simp only [hstep, hstream, hsum]
    rfl
  have hi1 : s1.inst t i.seq = some i := (inst_of_trays (fst_of_answer hsum (trays_sumHeaders _ _ _ _ _)) _ _).trans hi
  have hinst : (reportCount t i.seq role bi bj s).inst t i.seq = some (i.withCount r bi bj n) := by
    rw [hput]
    exact inst_modInst_same ht hi1 (fun _ => rfl)
  have hreported := reported_withCount hnone n
  refine ⟨_, _, exec_headerCountReport ht _ _ _ _ s, hinst, hreported, ?again⟩
  case again => rw [exec_headerCountReport ht, reportCount_of_reported hinst (by rw [hreported]; rfl)]

/-! ### A group of tiles (R237) -/

theorem exec_tileGroupAlloc {c : Nat} (hc : c < 4) (s : State) : exec (.tileGroupAlloc c) s = .next (serveGroup c s) := if_pos hc

theorem lt_of_inst {s : State} {t k : Nat} {i : Inst} (h : s.inst t k = some i) : t < 32 := by
  refine Decidable.byContradiction (fun ht => ?_)
  simp [State.inst, State.tray, Vec.get, ht, Tray.reset] at h

/-- An instruction with the tiles of a group open. -/
def Inst.withGroupOpened (grp : Nat) (i : Inst) : Inst := { i with tiles := i.tiles.map (fun o => if o.group = grp then { o with opened := true } else o) }

theorem opened_of_withGroupOpened {i : Inst} {grp : Nat} {o : OTile} (ho : o ∈ (i.withGroupOpened grp).tiles) (hgroup : o.group = grp) : o.opened = true := by
  obtain ⟨x, -, rfl⟩ := List.mem_map.mp ho
  by_cases hx : x.group = grp
  · simp only [hx, if_true]
  · simp only [hx, if_false] at hgroup

theorem groupWait_openGroup (s : State) (t k grp c : Nat) : ((openGroup s t k grp).core c).peel.groupWait = (s.core c).peel.groupWait := rfl

theorem groupWait_modPeel (s : State) {c : Nat} (rest : List (Nat × Nat × Nat)) (hc : c < 4) :
    ((s.modPeel c (fun p => { p with groupWait := rest })).core c).peel.groupWait = rest := by
  rw [State.modPeel, State.core_modCore_same _ _ hc]

theorem waitingGroupOpensTogether : Sys2Proof.Claims.WaitingGroupOpensTogether := by
  unfold Sys2Proof.Claims.WaitingGroupOpensTogether
  intro s c t k grp rest i hc hwait hi
  refine ⟨_, exec_tileGroupAlloc hc s, fun hfits => ?opens, fun hfits => ?waits⟩
  case opens =>
    have hopen : serveGroup c s = wrote (openGroup (s.modPeel c (fun p => { p with groupWait := rest })) t k grp) 7 c t := by
      simp only [serveGroup, hwait, hi, hfits, if_true]
    have hinst := inst_modInst_same (f := Inst.withGroupOpened grp) (lt_of_inst hi) hi (fun _ => rfl)
    rw [hopen]
    refine ⟨?line, i.withGroupOpened grp, ?inst, List.length_map _, fun o ho hgroup => ?opened⟩
    case line => rw [core_of_cores ((wrote_touches _ _ _ _).cores rfl), groupWait_openGroup, groupWait_modPeel s rest hc]
    case inst => exact (inst_of_trays ((wrote_touches _ _ _ _).trays rfl) t k).trans hinst
    case opened => exact opened_of_withGroupOpened ho hgroup
  case waits => simp only [serveGroup, hwait, hi, hfits, Bool.false_eq_true, if_false]

/-! ### A tile without passes (R232, R240, R255) -/

theorem exec_zeroPassGenerate {t : Nat} (ht : t < 32) (s : State) : exec (.zeroPassGenerate t) s = .next (zeroPass t s) := if_pos ht

/-- An MXM.MM in add mode, without statistics, with one tile of four rows that no pass feeds. A chunk of a row's statistics waits for the commit of row 1. -/
def leftChunkInst : Inst :=
  { newInst (Tray.reset 0) .mm (BitVec.ofNat 256 (2 ^ 24)) [] with
    waitMet := true, released := true, planned := true, tiles := [{ OTile.empty with rows := 4, cols := 4, done := false }], rowStat := [(1, [])] }

/-- The byte at which row 1's running state begins, behind the tile's status entry. -/
def leftChunkByte : Nat := benchAddr 0 16

/-- Tray 0 runs that instruction; where the running state will be written, a byte of the Bench is one. -/
def leftChunk : State :=
  { State.reset with mem := [(leftChunkByte, 1#8)] }.setTray 0 { Tray.reset 0 with state := .run, insts := [leftChunkInst], pc := 1, nextSeq := 1 }

theorem runs_leftChunk : Runs leftChunk 0 := ⟨rfl, rfl, by decide⟩

theorem inst_leftChunk : leftChunk.inst 0 0 = some leftChunkInst := rfl

theorem passless_leftChunk : (leftChunk.tray 0).insts.find? (fun i => i.mn.isProduct && i.released && i.planned && i.tiles.any OTile.passless) = some leftChunkInst := rfl

/-- The row block's commit writes the running state of row 1 over the byte (R255). -/
theorem mem_zeroPass_leftChunk : Tab.get 0 (zeroPass 0 leftChunk).mem leftChunkByte = 0#8 := by decide +kernel

/-- The commit of a tile without passes writes the statistics that wait for its rows. -/
theorem not_tileWithoutPassesEnds : ¬ Sys2Proof.Claims.TileWithoutPassesEnds := by
  unfold Sys2Proof.Claims.TileWithoutPassesEnds
  intro h
  obtain ⟨s', i', hexec, -, -, hadd⟩ := h leftChunk 0 leftChunkInst (by decide) runs_leftChunk passless_leftChunk inst_leftChunk
  cases (exec_zeroPassGenerate (by decide) leftChunk).symm.trans hexec
  obtain ⟨-, -, -, -, hothers⟩ := hadd (by decide) rfl rfl (by decide)
  have hkept : Tab.get 0 (zeroPass 0 leftChunk).mem leftChunkByte = 1#8 := (hothers leftChunkByte (.inr (by decide))).trans rfl
  exact absurd (mem_zeroPass_leftChunk.symm.trans hkept) (by decide)

/-- Refutes O21: a tile without passes commits row blocks, and with each the statistics that wait for its rows; nothing says that none wait where RED is 0 (R232, R255). -/
theorem not_tilesLearnTheirCountsAndOpen : ¬ Obligations.TilesLearnTheirCountsAndOpen := fun h => not_tileWithoutPassesEnds h.2.1

end Sys2Proof.Machine
end

section
/-! PROOFS. The Larder's partition: a change of LAR_SCRATCH_WAYS while no task runs starts a repartition, a refused one is recorded, and a repartition that completes keeps the lines
of the ways that stay in cache and the bytes outside the scratch window. -/

namespace Sys2Proof

theorem Tab.get_filter_key {α : Type} (d : α) (t : Tab α) {p : Nat → Bool} {k : Nat} (h : p k = true) : Tab.get d (t.filter (fun x => p x.1)) k = Tab.get d t k := by
  induction t with
  | nil => rfl
  | cons x t ih =>
    by_cases hx : p x.1 = true
    · simp [hx, Tab.get, ih]
    · have hne : x.1 ≠ k := fun e => hx (e ▸ h)
      simp [hx, Tab.get, ih, hne]

theorem Tab.get_foldl_put_other {α : Type} [DecidableEq α] (d : α) {f : Nat → Nat} {k : Nat} {l : Tab α} (h : ∀ p ∈ l, f p.1 ≠ k) (t : Tab α) :
    Tab.get d (l.foldl (fun t p => Tab.put d t (f p.1) p.2) t) k = Tab.get d t k := by
  induction l generalizing t with
  | nil => rfl
  | cons p l ih => rw [List.foldl_cons, ih (fun q hq => h q (List.mem_cons_of_mem _ hq)), Tab.get_put_other _ _ _ _ (h p List.mem_cons_self)]

end Sys2Proof

namespace Sys2Proof.Machine

/-! ### Refused writes (R18) -/

theorem recordRefused_counts (s : State) (off : Nat) (b : Busy) (i : Nat) :
    (recordRefused s off b i).reg Csr.cfgWhileBusy = s.reg Csr.cfgWhileBusy + 1 := by
  rw [recordRefused, State.reg_setFld_other _ _ _ _ (by decide), State.reg_setFld_other _ _ _ _ (by decide), State.reg_count_same]
  rfl

theorem recordRefused_names_block (s : State) (off : Nat) (b : Busy) (i : Nat) (h : busyBit b i < 64) :
    (recordRefused s off b i).fld Csr.cfgBusyBlocks (busyBit b i) (busyBit b i) = 1 := by
  rw [recordRefused, State.fld, State.reg_setFld_other _ _ _ _ (by decide), State.reg_setFld_same, bf_setBf_same _ _ (Nat.le_refl _) h, Nat.add_sub_cancel_left]
  rfl

theorem recordRefused_names_register (s : State) (off : Nat) (b : Busy) (i : Nat) : (recordRefused s off b i).fld Csr.cfgLastRefused 31 0 = off / 8 * 8 % 2 ^ 32 :=
  fld_setFld_same _ _ _ (by decide) (by decide)

/-! ### A write of LAR_CFG (R390, R392) -/

/-- LAR_CFG: LAR_SCRATCH_WAYS is its one field, written while the Larder is idle. -/
def larCfgDef : RegDef := ⟨"LAR_CFG", 0xF0000, 1, 0, 1, 0, .lar, [⟨2, 0, .rwl, 0⟩]⟩

theorem find_larCfg : RegMap.find Csr.larCfg = some (larCfgDef, 0, 0) := by decide +kernel

/-- The state in which a write of LAR_CFG has been stored, or refused. -/
def larCfgStored (s : State) (v : Reg) : State := storeWrite s Csr.larCfg larCfgDef 0 v

theorem ways_larCfgStored (s : State) (v : Reg) : (larCfgStored s v).fld Csr.larCfg 2 0 = if larBusy s then s.fld Csr.larCfg 2 0 else bf v 2 0 := by
  have hbusy : busyNow s larCfgDef.busy 0 = larBusy s := rfl
  rw [larCfgStored, State.fld, reg_storeWrite find_larCfg, hbusy, writeFields_eq_foldl]
  exact bf_foldl_writeField (f := ⟨2, 0, .rwl, 0⟩) (by decide) (fun _ _ => rfl) (List.mem_singleton_self _)

theorem larder_larCfgStored (s : State) (v : Reg) : (larCfgStored s v).larder = s.larder :=
  (touch_storeWrite (F := { regs := true, trays := true }) s _ _ _ _ (.refl _ s) rfl rfl).larder rfl

/-- A change that meets a busy Larder is refused. -/
theorem larCfgStored_of_busy {s : State} {v : Reg} (hv : bf v 2 0 ≠ s.fld Csr.larCfg 2 0) (h : larBusy s = true) :
    larCfgStored s v = recordRefused (s.setReg Csr.larCfg (s.reg Csr.larCfg)) Csr.larCfg .lar 0 := by
  have hbusy : busyNow s larCfgDef.busy 0 = true := h
  have hchange : changesRwl larCfgDef (s.reg Csr.larCfg) v = true := by simpa [changesRwl, larCfgDef, State.fld] using Ne.symm hv
  rw [larCfgStored, storeWrite, hbusy, hchange]
  rfl

theorem finishRepart_of_none {s : State} (h : s.larder.repart = none) : finishRepart s = s := by rw [finishRepart, h]

theorem larCfgStore_of_kept {s : State} {v : Reg} (h : (larCfgStored s v).fld Csr.larCfg 2 0 = s.fld Csr.larCfg 2 0) : larCfgStore s v = larCfgStored s v := by
  rw [larCfgStore, find_larCfg]
  exact if_pos h

theorem larCfgStore_of_changed {s : State} {v : Reg} (h : (larCfgStored s v).fld Csr.larCfg 2 0 ≠ s.fld Csr.larCfg 2 0) (hnone : s.larder.repart = none) :
    larCfgStore s v = (larCfgStored s v).setLarder { s.larder with repart := some (min 4 ((larCfgStored s v).fld Csr.larCfg 2 0)) } := by
  have hlarder := larder_larCfgStored s v
  rw [larCfgStore, find_larCfg]
  refine (if_neg h).trans ?_
  change (finishRepart (larCfgStored s v)).setLarder { (finishRepart (larCfgStored s v)).larder with repart := _ } = _
  rw [finishRepart_of_none (by rw [hlarder, hnone]), hlarder]
  rfl

/-! ### A repartition completes (R390) -/

/-- The lines that a repartition to `w` ways takes from the cache: those of the ways that pass to scratch. -/
def leavesCache (w k : Nat) : Bool := decide (16 - w ≤ k % 16)

/-- The state in which the lines of the ways that pass to scratch have left the Larder, the dirty ones to be written back. -/
def waysEmptied (w : Nat) (s : State) : State :=
  (s.larder.lines.filter (fun p => leavesCache w p.1 && p.2.valid)).foldl (fun s' p =>
    lineLeaves s' (p.1 / 0x80000) (larLine (p.1 / 0x80000) (p.1 / 16 % 0x8000) p.2.tag) p.2.dirty) s

theorem finishRepart_of_some {s : State} {w : Nat} (h : s.larder.repart = some w) :
    finishRepart s = (((waysEmptied w s).setMem (moveScratch s.larder.ways w (waysEmptied w s).mem)).setPoison (movePoison s.larder.ways w (waysEmptied w s).poison)).setLarder
      { (waysEmptied w s).larder with lines := (waysEmptied w s).larder.lines.filter (fun p => !leavesCache w p.1), ways := w, repart := none } := by
  rw [finishRepart, h]
  rfl

theorem mem_waysEmptied (w : Nat) (s : State) : (waysEmptied w s).mem = s.mem := foldl_keeps (fun s _ => keptByReads_mem.lineLeaves_eq s _ _ _) _ s

/-- When the scratch window does not grow, its cells move within it. -/
theorem moveScratch_get_outside {old new a : Nat} (hle : new ≤ old) (ha : a < scratchBase ∨ scratchBase + old * 0x4000000 ≤ a) (m : Tab Byte) :
    Tab.get 0 (moveScratch old new m) a = Tab.get 0 m a := by
  unfold moveScratch
  extract_lets mine keep
  have hout : (!mine a) = true := by
    simp only [mine, Bool.not_eq_true', Bool.and_eq_false_iff, decide_eq_false_iff_not]
    omega
  rw [Tab.get_foldl_put_other (f := fun k => k + new * 0x4000000 - old * 0x4000000), Tab.get_filter_key (p := fun k => !mine k) 0 m hout]
  intro p hp
  obtain ⟨-, hp⟩ := List.mem_filter.mp hp
  simp only [mine, Bool.and_eq_true, decide_eq_true_eq] at hp
  omega

/-- Settles O24: LAR_SCRATCH_WAYS is an RWL field that keeps its value while the Larder is busy; a repartition that completes touches memory only as it moves the scratch window. -/
theorem larderIsRepartitioned : Obligations.LarderIsRepartitioned := by
  unfold Obligations.LarderIsRepartitioned
  refine ⟨fun s v hnone hv => ⟨larCfgStore s v, rfl, fun hidle => ?idle, fun hbusy => ?busy⟩, fun s w hw => ⟨finishRepart s, rfl, ?_⟩⟩
  case idle =>
    have hways : (larCfgStored s v).fld Csr.larCfg 2 0 = bf v 2 0 := by rw [ways_larCfgStored, hidle]; rfl
    rw [larCfgStore_of_changed (by rwa [hways]) hnone, hways]
    exact ⟨hways, rfl⟩
  case busy =>
    have hways : (larCfgStored s v).fld Csr.larCfg 2 0 = s.fld Csr.larCfg 2 0 := by rw [ways_larCfgStored, hbusy]; rfl
    rw [larCfgStore_of_kept hways]
    refine ⟨hways, larder_larCfgStored s v, ?_⟩
    rw [larCfgStored_of_busy hv hbusy, recordRefused_counts]
    exact ⟨congrArg (· + 1) (State.reg_setReg_other _ _ (by decide)), recordRefused_names_block _ _ .lar 0 (by decide), recordRefused_names_register _ _ _ _⟩
  · rw [finishRepart_of_some hw]
    refine ⟨rfl, rfl, fun p hp => ?lines, fun hle a ha => ?bytes⟩
    case lines =>
      obtain ⟨-, hp⟩ := List.mem_filter.mp hp
      simp only [leavesCache, Bool.not_eq_true', decide_eq_false_iff_not] at hp
      omega
    case bytes => exact (moveScratch_get_outside hle ha _).trans (by rw [mem_waysEmptied])

end Sys2Proof.Machine
end

section
/-! PROOFS. The access of a transfer fails: its request leaves its channel, is held, or its fault pauses or ends the task. What all of these keep is said once. -/

namespace Sys2Proof.Machine

/-- A property of states that a failing transfer keeps: it does not depend on trays, cores, queues, arbiters, the fabric and the error log, nor on the registers outside the queue
pairs' contexts, and no walk that ends and no queue that stops breaks it. -/
structure KeptByFailure (P : State → Prop) : Prop where
  modTray : ∀ s t f, P s → P (s.modTray t f)
  modCore : ∀ s c f, P s → P (s.modCore c f)
  modHq : ∀ s q f, P s → P (s.modHq q f)
  setArbs : ∀ s v, P s → P (s.setArbs v)
  setStaon : ∀ s v, P s → P (s.setStaon v)
  setErrLog : ∀ s v, P s → P (s.setErrLog v)
  endWalks : ∀ s p, P s → P (s.setMmu { s.mmu with walks := s.mmu.walks.filter p })
  stopQueue : ∀ s q, P s → P (stopQueue s q)
  setReg : ∀ s off v, off < 0x120000 ∨ 0x128000 ≤ off → P s → P (s.setReg off v)

section
variable {P : State → Prop} (h : KeptByFailure P) {s : State} (hs : P s)
include h hs

theorem KeptByFailure.discardTray_kept (t : Nat) (ends : Bool) : P (discardTray s t ends) := h.setStaon _ _ (h.setArbs _ _ (h.endWalks _ _ (h.modCore _ _ _ hs)))

theorem KeptByFailure.dropEnds_kept (t : Nat) : P (dropEnds s t) := by
  unfold dropEnds
  dsimp only
  split
  · exact hs
  · exact h.modTray _ _ _ (h.modHq _ _ _ hs)

theorem KeptByFailure.logError_kept (code scope queue tray index aux addr : Nat) : P (logError s code scope queue tray index aux addr) :=
  h.setErrLog _ _ (h.setReg _ _ _ (by decide) hs)

theorem KeptByFailure.endTaskLog_kept (t code index pass rowBlk aux addr logAux logAddr : Nat) : P (endTaskLog s t code index pass rowBlk aux addr logAux logAddr) := by
  unfold endTaskLog
  dsimp only
  split
  · exact hs
  · exact h.logError_kept (h.setReg _ _ _ (by decide) (h.stopQueue _ _ (h.dropEnds_kept (h.discardTray_kept (h.modTray _ _ _ hs) _ _) _))) _ _ _ _ _ _ _

theorem KeptByFailure.faultInstLog_kept (t k code aux addr logAux logAddr : Nat) : P (faultInstLog s t k code aux addr logAux logAddr) := by
  unfold faultInstLog
  split
  · dsimp only
    split
    · exact h.modTray _ _ _ (h.endTaskLog_kept hs _ _ _ _ _ _ _ _ _)
    · exact h.endTaskLog_kept hs _ _ _ _ _ _ _ _ _
  · exact hs

theorem KeptByFailure.pauseTask_kept (t index pass rowBlk tag va : Nat) (stat : Bool) : P (pauseTask s t index pass rowBlk tag va stat) := by
  unfold pauseTask
  dsimp only
  split
  · exact hs
  · next hlive =>
    simp only [Bool.or_eq_true, Bool.not_eq_true', not_or, Bool.not_eq_false] at hlive
    obtain ⟨hlive, -⟩ := hlive
    have ht : t < 32 := lt_of_live hlive
    have hcount : Csr.prfPageMisses (coreOf t) < 0x120000 := by
      unfold Csr.prfPageMisses coreOf
      omega
    exact h.setReg _ _ _ (.inl hcount) (h.logError_kept (h.modHq _ _ _ (h.discardTray_kept (h.modTray _ _ _ hs) _ _)) _ _ _ _ _ _ _)

theorem KeptByFailure.memFault_kept (t k : Nat) (e : MemErr) : P (memFault s t k e) := by
  unfold memFault
  split
  · exact hs
  · split
    · exact h.pauseTask_kept hs _ _ _ _ _ _ _
    · repeat' split
      all_goals exact h.faultInstLog_kept hs _ _ _ _ _ _ _

theorem KeptByFailure.modProofer_kept (c : Nat) (f : Proofer → Proofer) : P (s.modProofer c f) := by
  unfold State.modProofer
  exact h.modCore _ _ _ hs

theorem KeptByFailure.modChannel_kept (c ch : Nat) (f : Channel → Channel) : P (s.modChannel c ch f) := h.modProofer_kept hs _ _

theorem KeptByFailure.dropRequest_kept (c ch id : Nat) : P (dropRequest s c ch id) := h.endWalks _ _ (h.modChannel_kept hs _ _ _)

theorem KeptByFailure.holdStream_kept (c ch : Nat) (r : ChReq) (n : Nat) : P (holdStream s c ch r n) := by
  unfold holdStream modStream
  exact h.modChannel_kept (h.modProofer_kept (h.dropRequest_kept hs _ _ _) _ _) _ _ _

theorem KeptByFailure.xferFails_kept {c : Nat} (hc : c < 4) (ch : Nat) (r : ChReq) (e : MemErr) : P (xferFails s c ch r e) := by
  unfold xferFails
  split
  · split
    · split
      · exact h.memFault_kept hs _ _ _
      · exact h.holdStream_kept hs _ _ _ _
    · exact h.dropRequest_kept hs _ _ _
  · have hcount : Csr.prfPrefDrops c < 0x120000 := by
      unfold Csr.prfPrefDrops
      omega
    exact h.setReg _ _ _ (.inl hcount) (h.modTray _ _ _ (h.dropRequest_kept hs _ _ _))
  · exact h.memFault_kept hs _ _ _

end

theorem keptByFailure_mem (m : Tab Byte) : KeptByFailure (fun s => s.mem = m) where
  modTray _ _ _ hs := hs
  modCore _ _ _ hs := hs
  modHq _ _ _ hs := hs
  setArbs _ _ hs := hs
  setStaon _ _ hs := hs
  setErrLog _ _ hs := hs
  endWalks _ _ hs := hs
  stopQueue _ _ hs := hs
  setReg _ _ _ _ hs := hs

/-- A walk that is over stays over. -/
theorem keptByFailure_not_mem_walks (x : Walk) : KeptByFailure (fun s => x ∉ s.mmu.walks) where
  modTray _ _ _ hs := hs
  modCore _ _ _ hs := hs
  modHq _ _ _ hs := hs
  setArbs _ _ hs := hs
  setStaon _ _ hs := hs
  setErrLog _ _ hs := hs
  endWalks _ _ hs := fun hx => hs (List.mem_filter.mp hx).1
  stopQueue _ _ hs := hs
  setReg _ _ _ _ hs := hs

theorem lt_of_requestOf {s : State} {id c ch : Nat} {r : ChReq} (h : requestOf s id = some (c, ch, r)) : c < 4 := by
  obtain ⟨d, hd, h⟩ := List.exists_of_findSome?_eq_some h
  obtain ⟨e, -, h⟩ := List.exists_of_findSome?_eq_some h
  obtain ⟨q, -, h⟩ := List.exists_of_findSome?_eq_some h
  split at h
  · cases h
    exact List.mem_range.mp hd
  · cases h

end Sys2Proof.Machine
end

section
/-! PROOFS. A walk of the tables ends (R379): the walks of its page end with it, and where the walk found a translation the requests that waited for it go on. A walk that does not
run, beyond the 16 of a core or the 8 of the module, is left as it was by the model's choice (log entries 4 and 42). -/

namespace Sys2Proof.Machine

/-! ### A request goes on -/

/-- A part of the state in which the accesses of a request do not show: what waits at the arbiters and on the channels, and what goes to the host. -/
structure KeptByRequests {β : Type} (π : State → β) : Prop where
  setArbs : ∀ s v, π (s.setArbs v) = π s
  modChannel : ∀ s c ch f, π (s.modChannel c ch f) = π s
  setHost : ∀ s v, π (s.setHost v) = π s
  setHostTx : ∀ s v, π (s.setHostTx v) = π s

/-- A request has one walk less to wait for; after its last its accesses go downstream. -/
def requestGoesOn (s : State) (c ch : Nat) (r : ChReq) : State :=
  let s1 := s.modChannel c ch (fun h => { h with active := h.active.map (fun o => o.map (fun q => if q.id = r.id then { q with walks := q.walks - 1 } else q)) })
  if r.walks ≤ 1 then pumpTxns (pushSpans s1 c ch r) c ch else s1

section
variable {β : Type} {π : State → β} (h : KeptByRequests π) (s : State)
include h

theorem KeptByRequests.sendQp_eq (q : Nat) (m : HostTx) : π (sendQp s q m) = π s := by
  unfold sendQp sendOn
  exact kept_ite π rfl (kept_ite π (h.setHost _ _) (h.setHostTx _ _))

theorem KeptByRequests.pushPhys_eq (c ch : Nat) (r : ChReq) (pa n : Nat) (write : Bool) : π (pushPhys s c ch r pa n write) = π s := by
  unfold pushPhys
  dsimp only
  split
  · exact h.modChannel _ _ _ _
  · exact h.modChannel _ _ _ _
  · exact foldl_keeps (fun s _ => h.setArbs s _) _ _
  · rfl

/-- An access to host memory goes to the host, any other to the Larder or to a Bench. -/
theorem KeptByRequests.pushSpans_eq (c ch : Nat) (r : ChReq) : π (pushSpans s c ch r) = π s := by
  unfold pushSpans
  extract_lets sp host phys
  have hhost : ∀ s pa n w, π (host s pa n w) = π s := fun s pa n w => kept_ite π rfl (kept_ite π ((h.sendQp_eq _ _ _).trans (h.setHost _ _)) (h.setHost _ _))
  have hphys : ∀ s pa n w, π (phys s pa n w) = π s := fun s pa n w => kept_ite π (hhost _ _ _ _) (h.pushPhys_eq _ _ _ _ _ _ _)
  refine foldl_keeps (fun s x => ?_) _ _
  cases x with
  | bench off n w => exact foldl_keeps (fun s _ => h.setArbs s _) _ _
  | phys pa n w => exact hphys _ _ _ _
  | virt va n w =>
    refine foldl_keeps (fun s p => ?_) _ _
    split
    · exact hphys _ _ _ _
    · rfl

theorem KeptByRequests.pumpTxns_eq (c ch : Nat) : π (pumpTxns s c ch) = π s := by
  unfold pumpTxns
  exact kept_ite π rfl ((foldl_keeps (fun s _ => h.setArbs s _) _ _).trans (h.modChannel _ _ _ _))

theorem KeptByRequests.requestGoesOn_eq (c ch : Nat) (r : ChReq) : π (requestGoesOn s c ch r) = π s :=
  kept_ite π ((h.pumpTxns_eq _ _ _).trans ((h.pushSpans_eq _ _ _ _).trans (h.modChannel _ _ _ _))) (h.modChannel _ _ _ _)

end

theorem keptByRequests_mem : KeptByRequests State.mem := ⟨fun _ _ => rfl, fun _ _ _ _ => rfl, fun _ _ => rfl, fun _ _ => rfl⟩

theorem keptByRequests_trays : KeptByRequests State.trays := ⟨fun _ _ => rfl, fun _ _ _ _ => rfl, fun _ _ => rfl, fun _ _ => rfl⟩

theorem keptByRequests_walks : KeptByRequests (fun s => s.mmu.walks) := ⟨fun _ _ => rfl, fun _ _ _ _ => rfl, fun _ _ => rfl, fun _ _ => rfl⟩

theorem keptByRequests_tCacheOf (walker : Nat) : KeptByRequests (fun s => tCacheOf s walker) where
  setArbs _ _ := rfl
  modChannel s c ch f := by
    have hcore := core_part_modCore (f := fun k => { k with proofer := { k.proofer with channels := Vec.put k.proofer.channels ch (f (Vec.get k.proofer.channels ch State.emptyChannel)) } })
      (fun k => k.tcache) s c walker (fun _ => rfl)
    unfold tCacheOf
    split
    · exact hcore
    · rfl
  setHost _ _ := rfl
  setHostTx _ _ := rfl

/-! ### The walks of a page end -/

/-- The entry of its walker's cache that translates a walk's address, if any. -/
def walkEntry (s : State) (x : Walk) : Option (Nat × TEntry) := tFind (tBits x.walker) (tCacheOf s x.walker) x.space x.va

/-- What a walk finds: nothing is walked when the page is in the cache by now. -/
def walkFinds (s : State) (x : Walk) : State × Xlat := if (walkEntry s x).isSome then (s, .ok 0) else walkAndFill s x.walker x.space x.va false

/-- The size of the page that a walk is for. -/
def walkSize (s : State) (x : Walk) : Nat :=
  match walkEntry s x with
  | some (_, e) => e.size
  | none => 16

/-- Whether a walk waits for the page of another. -/
def samePage (s : State) (x y : Walk) : Bool := y.walker == x.walker && y.space == x.space && y.va >>> walkSize s x == x.va >>> walkSize s x

/-- The request of a walk that has ended is told what was found. -/
def tellWalk (res : Xlat) (wr : Bool) (s : State) (y : Walk) : State :=
  match requestOf s y.req with
  | none => s
  | some (c, ch, r) =>
    match res with
    | .bad code => xferFails s c ch r ⟨code, y.va, 0⟩
    | .ok _ => if y.write && !wr then xferFails s c ch r ⟨FC.memPerm, y.va, 0⟩ else requestGoesOn s c ch r

/-- The walks of a page, in the order in which their requests are told. -/
def endedWalks (s : State) (x : Walk) : List Walk := sortBy (walkRank s) (s.mmu.walks.filter (samePage s x))

/-- The state in which the walks of a page are over. -/
def walksEnded (s : State) (x : Walk) : State := s.setMmu { s.mmu with walks := s.mmu.walks.filter (fun y => !samePage s x y) }

theorem walkDone_of_stalled {s : State} {w : Nat} {x : Walk} (hx : s.mmu.walks.find? (fun y => y.id == w) = some x) (h : walkRuns s x = false) : walkDone w s = s := by
  rw [walkDone, hx]
  simp [h]

theorem walkDone_of_runs {s : State} {w : Nat} {x : Walk} (hx : s.mmu.walks.find? (fun y => y.id == w) = some x) (h : walkRuns s x = true) :
    walkDone w s = (endedWalks (walkFinds s x).1 x).foldl (tellWalk (walkFinds s x).2 ((walkEntry (walkFinds s x).1 x).any (fun e => e.2.wr))) (walksEnded (walkFinds s x).1 x) := by
  rw [walkDone, hx]
  dsimp only
  rw [h]
  rfl

theorem not_mem_walksEnded (s : State) (x : Walk) : x ∉ (walksEnded s x).mmu.walks := fun h => by
  obtain ⟨-, h⟩ := List.mem_filter.mp h
  simp [samePage] at h

theorem KeptByReads.walkFinds_eq {β : Type} {π : State → β} (h : KeptByReads π) (s : State) (x : Walk) : π (walkFinds s x).1 = π s := by
  unfold walkFinds
  split
  · rfl
  · exact h.walkAndFill_eq _ _ _ _ _

/-- Whatever a request is told, a property stays that neither its failure nor its accesses break. -/
theorem tellWalk_preserves {P : State → Prop} (hfail : KeptByFailure P) (hgo : ∀ s c ch r, P s → P (requestGoesOn s c ch r)) (res : Xlat) (wr : Bool) {s : State} (hs : P s) (y : Walk) :
    P (tellWalk res wr s y) := by
  unfold tellWalk
  split
  · exact hs
  · next c ch r hreq =>
    have hc := lt_of_requestOf hreq
    cases res with
    | bad code => exact hfail.xferFails_kept hs hc _ _ _
    | ok pa =>
      dsimp only
      split
      · exact hfail.xferFails_kept hs hc _ _ _
      · exact hgo _ _ _ _ hs

theorem foldl_tellWalk_preserves {P : State → Prop} (hfail : KeptByFailure P) (hgo : ∀ s c ch r, P s → P (requestGoesOn s c ch r)) (res : Xlat) (wr : Bool) (l : List Walk) {s : State}
    (hs : P s) : P (l.foldl (tellWalk res wr) s) :=
  List.foldlRecOn l _ hs (fun _ hs y _ => tellWalk_preserves hfail hgo res wr hs y)

/-- A translation that was found tells every request that only reads to go on. -/
theorem KeptByRequests.foldl_tellWalk_eq {β : Type} {π : State → β} (h : KeptByRequests π) (pa : Nat) (wr : Bool) {l : List Walk} (hl : ∀ y ∈ l, y.write = false) (s : State) :
    π (l.foldl (tellWalk (.ok pa) wr) s) = π s := by
  induction l generalizing s with
  | nil => rfl
  | cons y l ih =>
    rw [List.foldl_cons, ih (fun z hz => hl z (List.mem_cons_of_mem _ hz))]
    unfold tellWalk
    split
    · rfl
    · rw [hl y List.mem_cons_self]
      exact h.requestGoesOn_eq _ _ _ _

theorem mem_of_mem_insertBy {α : Type} {key : α → Nat} {x y : α} {l : List α} (h : y ∈ insertBy key x l) : y = x ∨ y ∈ l := by
  induction l with
  | nil => exact .inl (List.mem_singleton.mp h)
  | cons z l ih =>
    rw [insertBy] at h
    split at h
    · exact List.mem_cons.mp h
    · rcases List.mem_cons.mp h with rfl | h
      · exact .inr List.mem_cons_self
      · exact (ih h).imp_right (List.mem_cons_of_mem _)

theorem mem_of_mem_sortBy {α : Type} {key : α → Nat} {y : α} {l : List α} (h : y ∈ sortBy key l) : y ∈ l := by
  have hfold : ∀ l' acc, y ∈ List.foldl (fun acc x => insertBy key x acc) acc l' → y ∈ acc ∨ y ∈ l' := by
    intro l'
    induction l' with
    | nil => exact fun _ h => .inl h
    | cons x l' ih =>
      intro acc h
      rcases ih _ h with h | h
      · exact (mem_of_mem_insertBy h).elim (fun e => .inr (e ▸ List.mem_cons_self)) .inl
      · exact .inr (List.mem_cons_of_mem _ h)
  simpa using hfold l [] h

theorem walkFinds_of_uncached {s : State} {x : Walk} (h : walkEntry s x = none) :
    walkFinds s x = walkAndFill s x.walker x.space x.va false := by
  rw [walkFinds, h]
  rfl

theorem walkFinds_of_cached {s : State} {x : Walk} (h : walkEntry s x ≠ none) : walkFinds s x = (s, .ok 0) :=
  if_pos (Option.isSome_iff_ne_none.mpr h)

/-- A walk that found a translation shows in no tray, and in the caches only as it entered its own, where no walk writes. -/
theorem walkDone_of_found {s : State} {w : Nat} {x : Walk} (hx : s.mmu.walks.find? (fun y => y.id == w) = some x) (hruns : walkRuns s x = true)
    (hreads : ∀ y ∈ s.mmu.walks, y.write = false) {pa : Nat} (hfound : (walkFinds s x).2 = .ok pa) :
    (walkDone w s).trays = s.trays ∧ tCacheOf (walkDone w s) x.walker = tCacheOf (walkFinds s x).1 x.walker := by
  have hl : ∀ y ∈ endedWalks (walkFinds s x).1 x, y.write = false := by
    intro y hy
    have hy := (List.mem_filter.mp (mem_of_mem_sortBy hy)).1
    rw [(keptByAccesses_walks 0 0).walkFinds_eq] at hy
    exact hreads y hy
  rw [walkDone_of_runs hx hruns, hfound]
  exact ⟨(keptByRequests_trays.foldl_tellWalk_eq pa _ hl _).trans (keptByReads_trays.walkFinds_eq s x), (keptByRequests_tCacheOf x.walker).foldl_tellWalk_eq pa _ hl _⟩

theorem walkEndsWithItsTranslation : Sys2Proof.Claims.WalkEndsWithItsTranslation := by
  unfold Sys2Proof.Claims.WalkEndsWithItsTranslation
  intro s w x hx
  refine ⟨fun h => congrArg Host.Outcome.next (walkDone_of_stalled hx h), fun hruns => ⟨walkDone w s, rfl, ?ended, fun a => ?bytes,
    fun hreads => ⟨fun hnone hfound => ?uncached, fun hsome => ?cached⟩⟩⟩
  case ended =>
    rw [walkDone_of_runs hx hruns]
    exact foldl_tellWalk_preserves (keptByFailure_not_mem_walks x) (fun s c ch r hs => (keptByRequests_walks.requestGoesOn_eq s c ch r).symm ▸ hs) _ _ _ (not_mem_walksEnded _ x)
  case bytes =>
    rw [walkDone_of_runs hx hruns]
    have hmem := foldl_tellWalk_preserves (keptByFailure_mem s.mem) (fun s' c ch r hs => (keptByRequests_mem.requestGoesOn_eq s' c ch r).trans hs) (walkFinds s x).2
      ((walkEntry (walkFinds s x).1 x).any (fun e => e.2.wr)) (endedWalks (walkFinds s x).1 x) (s := walksEnded (walkFinds s x).1 x) (keptByReads_mem.walkFinds_eq s x)
    rw [hmem]
  case uncached =>
    obtain ⟨pa, hfound⟩ := hfound
    rw [← walkFinds_of_uncached hnone] at hfound ⊢
    exact walkDone_of_found hx hruns hreads hfound
  case cached =>
    have hfinds := walkFinds_of_cached hsome
    have hfound := walkDone_of_found hx hruns hreads (congrArg Prod.snd hfinds)
    rwa [hfinds] at hfound

end Sys2Proof.Machine
end

section
/-! PROOFS. Invalidations of the translation caches (R380). That the entries go when MMU_INV_DONE comes, and not with the write of MMU_INV, is the model's choice (log entry 42). -/

namespace Sys2Proof.Machine

/-- The state in which every cache is without the entries of an invalidation, and the invalidation waits for what is left in flight. -/
def invDone (s : State) (inv : Nat × Nat × Nat) : State :=
  let left := s.mmu.invWaits.filter (fun id => (requestOf s id).isSome)
  (s.setCores (s.cores.map (fun k => { k with tcache := invalidate inv k.tcache }))).setMmu
    { s.mmu with cache := invalidate inv s.mmu.cache, inv := if left.isEmpty then none else some inv, invWaits := left }

theorem exec_mmuInvDone {s : State} {inv : Nat × Nat × Nat} (h : s.mmu.inv = some inv) : exec .mmuInvDone s = .next (invDone s inv) := by
  show execMmuInvDone s = _
  rw [execMmuInvDone, h]
  rfl

theorem inScope_of_mem_invalidate {inv : Nat × Nat × Nat} {c : TCache} {p : Nat × TEntry} (h : p ∈ (invalidate inv c).entries) : inScope inv p.2 = false := by
  simpa using (List.mem_filter.mp h).2

theorem mem_invalidate {inv : Nat × Nat × Nat} {c : TCache} {p : Nat × TEntry} (h : p ∈ c.entries) (hp : inScope inv p.2 = false) : p ∈ (invalidate inv c).entries :=
  List.mem_filter.mpr ⟨h, by simpa using hp⟩

theorem tcache_invDone (s : State) (inv : Nat × Nat × Nat) {c : Nat} (hc : c < 4) : ((invDone s inv).core c).tcache = invalidate inv (s.core c).tcache := by
  simp [invDone, State.core, Vec.get, State.setCores, State.setMmu, hc]

/-- An invalidation ends with the last request in flight that it waits for. -/
theorem inv_invDone_of_none {s : State} (inv : Nat × Nat × Nat) (h : ∀ id ∈ s.mmu.invWaits, requestOf s id = none) : (invDone s inv).mmu.inv = none := by
  have hleft : s.mmu.invWaits.filter (fun id => (requestOf s id).isSome) = [] := List.filter_eq_nil_iff.mpr (fun id hid => by simp [h id hid])
  show (if _ then _ else _) = none
  rw [hleft]
  rfl

theorem inv_invDone_of_some {s : State} (inv : Nat × Nat × Nat) (h : ∃ id ∈ s.mmu.invWaits, requestOf s id ≠ none) : (invDone s inv).mmu.inv = some inv := by
  obtain ⟨id, hid, hreq⟩ := h
  have hleft : id ∈ s.mmu.invWaits.filter (fun id => (requestOf s id).isSome) := List.mem_filter.mpr ⟨hid, Option.isSome_iff_ne_none.mpr hreq⟩
  show (if _ then _ else _) = some inv
  rw [List.isEmpty_eq_false_iff.mpr (List.ne_nil_of_mem hleft)]
  rfl

/-- MMU_INV_BUSY reads whether an invalidation runs. -/
theorem bf_regRead_mmuStatus (s : State) : bf (regRead s Csr.mmuStatus) 0 0 = b2n s.mmu.inv.isSome := by
  have hfind : RegMap.find Csr.mmuStatus = some (⟨"MMU_STATUS", 0xE0208, 1, 0, 1, 0, .mmu, [⟨1, 1, .w1c, 0⟩, ⟨0, 0, .ro, 0⟩]⟩, 0, 0) := by decide +kernel
  rw [regRead, hfind]
  show bf (setBf _ 0 0 (b2n s.mmu.inv.isSome)) 0 0 = _
  rw [bf_setBf_same _ _ (Nat.le_refl _) (by decide)]
  cases s.mmu.inv <;> rfl

theorem mmuInvStore_of_running {s : State} {v : Reg} (hv : bit v 63 = true) (h : s.mmu.inv ≠ none) : mmuInvStore s v = s.setFld Csr.mmuStatus 1 1 1 := by
  rw [mmuInvStore, hv, Option.isSome_iff_ne_none.mpr h]
  rfl

theorem mmuInvStore_of_reserved {s : State} {v : Reg} (hv : bit v 63 = true) (h : s.mmu.inv = none) (hscope : bf v 57 56 = 3) : mmuInvStore s v = s := by
  rw [mmuInvStore, hv, h]
  exact if_pos hscope

theorem mmuInvStore_of_none {s : State} {v : Reg} (hv : bit v 63 = true) (h : s.mmu.inv = none) (hscope : bf v 57 56 ≠ 3) :
    mmuInvStore s v = s.setMmu { s.mmu with inv := some (bf v 57 56, bf v 53 48, bf v 47 16), invWaits := translatedIn s (bf v 57 56, bf v 53 48, bf v 47 16) } := by
  rw [mmuInvStore, hv, h]
  exact if_neg hscope

theorem invalidationEmptiesItsScope : Sys2Proof.Claims.InvalidationEmptiesItsScope := by
  unfold Sys2Proof.Claims.InvalidationEmptiesItsScope
  refine ⟨fun s v hv => ⟨mmuInvStore s v, rfl, ?go⟩, fun s inv h => ⟨invDone s inv, exec_mmuInvDone h, fun hnone => ?ended, fun hsome => ?runs, fun c hc p hp => ?core,
    fun p hp => inScope_of_mem_invalidate hp, fun c hc p hp hscope => ?others, rfl⟩⟩
  case go =>
    by_cases hinv : s.mmu.inv = none
    · by_cases hscope : bf v 57 56 = 3
      · rw [mmuInvStore_of_reserved hv hinv hscope]
        exact ⟨rfl, rfl, fun _ h => absurd hscope h, fun h => absurd hinv h⟩
      · rw [mmuInvStore_of_none hv hinv hscope]
        exact ⟨rfl, rfl, fun _ _ => rfl, fun h => absurd hinv h⟩
    · rw [mmuInvStore_of_running hv hinv]
      exact ⟨rfl, rfl, fun h => absurd h hinv, fun _ => ⟨rfl, fld_setFld_same _ _ _ (by decide) (by decide)⟩⟩
  case ended => exact ⟨inv_invDone_of_none inv hnone, by rw [bf_regRead_mmuStatus, inv_invDone_of_none inv hnone]; rfl⟩
  case runs => exact ⟨inv_invDone_of_some inv hsome, by rw [bf_regRead_mmuStatus, inv_invDone_of_some inv hsome]; rfl⟩
  case core =>
    rw [tcache_invDone s inv hc] at hp
    exact inScope_of_mem_invalidate hp
  case others =>
    rw [tcache_invDone s inv hc]
    exact mem_invalidate hp hscope

/-- Settles O25: no request that is told of a walk's end brings a walk back, and what is filtered from the caches is the scope of the invalidation. -/
theorem walksAndInvalidationsEnd : Obligations.WalksAndInvalidationsEnd := ⟨walkEndsWithItsTranslation, invalidationEmptiesItsScope⟩

end Sys2Proof.Machine
end

section
/-! PROOFS. Queue pairs as requesters and their rates (R382, R438, R439). That 50 µs are 60,000 cycles (log entry 13), that an acknowledgement ends the oldest WRITE and that tries
are counted on the oldest request (log entry 28) are the model's choices. -/

namespace Sys2Proof.Machine

/-! ### What a queue pair holds -/

theorem qpOf_modQp_same (s : State) (q : Nat) (f : Qp → Qp) : qpOf (modQp s q f) q = f (qpOf s q) := Tab.get_put_same _ _ _ _

theorem qpState_of_regs {s s' : State} (h : s'.regs = s.regs) (q : Nat) : qpState s' q = qpState s q := by
  rw [qpState, qpState, State.fld, State.fld, State.reg, State.reg, h]

theorem lt_of_qpTakes {s : State} {q : Nat} (h : qpTakes s q = true) : q < 1024 := by
  simp only [qpTakes, Bool.and_eq_true, decide_eq_true_eq] at h
  obtain ⟨⟨⟨hq, -⟩, -⟩, -⟩ := h
  exact hq

/-- An answer that a pair takes is counted in its frames, and acts. -/
theorem answerIn_of_qpTakes {s : State} {q : Nat} (h : qpTakes s q = true) (bytes : Nat) (f : State → State) :
    ∃ n, answerIn s q bytes f = f (s.count Csr.hpRxFrames n) := by
  rw [answerIn, h]
  exact ⟨_, rfl⟩

/-! ### Sending (R438) -/

theorem qpOf_sendQp (s : State) (p : Nat) (m : HostTx) (q : Nat) : qpOf (sendQp s p m) q = qpOf s q := by
  unfold sendQp sendOn
  exact kept_ite (fun s => qpOf s q) rfl (kept_ite (fun s => qpOf s q) rfl rfl)

theorem qpOf_sendReq (s : State) (p : Nat) (x : HostReq) (q : Nat) : qpOf (sendReq s p x) q = qpOf s q := by
  unfold sendReq hostWriteOut
  exact kept_ite (fun s => qpOf s q) (kept_ite (fun s => qpOf s q) (qpOf_sendQp _ _ _ _) rfl) (qpOf_sendQp _ _ _ _)

theorem sendReq_touches (s : State) (q : Nat) (x : HostReq) : Touch { host := true, hostTx := true } s (sendReq s q x) := touch_sendReq s q x (.refl _ s) rfl rfl

/-! ### A response to a READ (R382, R438) -/

theorem qpOf_nextRead (s : State) (q : Nat) : qpOf (nextRead s q) q = qpOf s q := by
  unfold nextRead
  split
  · exact qpOf_sendReq _ _ _ _
  · rfl

theorem mem_nextRead (s : State) (q : Nat) : (nextRead s q).mem = s.mem := (touch_nextRead (F := { host := true, hostTx := true }) s q (.refl _ s) rfl rfl).mem rfl

theorem qpOf_write (s : State) (a : Nat) (bs : List Byte) (q : Nat) : qpOf (s.write a bs) q = qpOf s q :=
  congrArg (fun h : HostPort => Tab.get Qp.empty h.qps q) ((plantAt_touches _ _ _).host rfl)

theorem readArrives_of_find {s : State} {q : Nat} {x : HostReq} {data : List Byte} (hx : (qpOf s q).reqs.find? (fun y => !y.write) = some x) (hlen : data.length = x.len) :
    readArrives q data s = nextRead (dropReq (s.write (2 ^ 47 + x.off) data) q false) q := by
  rw [readArrives, hx]
  exact if_pos hlen

theorem responseEndsItsRead {s : State} {q : Nat} {x : HostReq} {data : List Byte} (hx : (qpOf s q).reqs.find? (fun y => !y.write) = some x) (hlen : data.length = x.len) :
    (qpOf (readArrives q data s) q).reqs = dropFirst (fun y => y.write == false) (qpOf s q).reqs ∧ (readArrives q data s).mem = putBytes s.mem (2 ^ 47 + x.off) data := by
  rw [readArrives_of_find hx hlen]
  constructor
  · rw [qpOf_nextRead, dropReq, qpOf_modQp_same, qpOf_write]
  · rw [mem_nextRead]
    exact mem_write _ _ _

/-! ### The error state (R438) -/

/-- The field of a register that a queue's stop sets is none of a queue pair's state. -/
theorem qpBits_stopQueue (s : State) (p q : Nat) : (stopQueue s p).fld (Csr.qpCfg q) 63 62 = s.fld (Csr.qpCfg q) 63 62 := by
  rw [stopQueue]
  by_cases h : Csr.hqState p = Csr.qpCfg q
  · rw [h]
    exact fld_setFld_apart _ _ _ (by decide) (by decide) (.inl (by decide))
  · rw [State.fld, State.reg_setFld_other _ _ _ _ h, State.fld]

/-- A failing transfer leaves the state of every queue pair. -/
theorem keptByFailure_qpBits {q : Nat} (hq : q < 1024) (v : Nat) : KeptByFailure (fun s => s.fld (Csr.qpCfg q) 63 62 = v) where
  modTray _ _ _ hs := hs
  modCore _ _ _ hs := hs
  modHq _ _ _ hs := hs
  setArbs _ _ hs := hs
  setStaon _ _ hs := hs
  setErrLog _ _ hs := hs
  endWalks _ _ hs := hs
  stopQueue s p hs := (qpBits_stopQueue s p q).trans hs
  setReg s off _ hoff hs := by
    have hne : off ≠ Csr.qpCfg q := by
      unfold Csr.qpCfg
      omega
    rw [State.fld, State.reg_setReg_other _ _ hne]
    exact hs

theorem qpState_qpError (s : State) {q : Nat} (hq : q < 1024) : qpState (qpError s q) q = 2 := by
  have hbits : (qpError s q).fld (Csr.qpCfg q) 63 62 = 2 := by
    unfold qpError endAccesses
    refine List.foldlRecOn _ _ (motive := fun s : State => s.fld (Csr.qpCfg q) 63 62 = 2) (fld_setFld_same s _ 2 (by decide) (by decide)) (fun s hs x _ => ?_)
    split
    · next c ch r hreq => exact (keptByFailure_qpBits hq 2).xferFails_kept hs (lt_of_requestOf hreq) _ _ _
    · exact hs
  rw [qpState, hbits]
  rfl

/-! ### The transport timer (R438) -/

theorem timeout_of_last {s : State} {q : Nat} {x : HostReq} {rest : List HostReq} (hx : (qpOf s q).reqs = x :: rest) (htries : 7 ≤ x.tries) : timeout q s = qpError s q := by
  rw [timeout, hx]
  exact if_pos htries

/-- The requests sent again stand as before, one try more counted on the oldest. -/
theorem timeoutSendsAgain {s : State} {q : Nat} {x : HostReq} {rest : List HostReq} (hx : (qpOf s q).reqs = x :: rest) (htries : x.tries < 7) :
    (qpOf (timeout q s) q).reqs = { x with tries := x.tries + 1 } :: rest ∧ (timeout q s).regs = s.regs := by
  rw [timeout, hx]
  dsimp only
  rw [if_neg (by omega)]
  constructor
  · rw [foldl_keeps (π := fun s => qpOf s q) (fun s y => qpOf_sendReq s q y q), qpOf_modQp_same]
  · exact foldl_keeps (π := State.regs) (fun s y => (sendReq_touches s q y).regs rfl) _ _

/-! ### Rates (R439) -/

theorem qpRate_ne_hpRxFrames (q : Nat) : Csr.hpRxFrames ≠ Csr.qpRate q := by
  unfold Csr.hpRxFrames Csr.qpRate
  omega

theorem qpRate_ne_hpCnpRx (q : Nat) : Csr.hpCnpRx ≠ Csr.qpRate q := by
  unfold Csr.hpCnpRx Csr.qpRate
  omega

theorem fld_lt (s : State) (off hi lo : Nat) : s.fld off hi lo < 2 ^ (hi + 1 - lo) := Nat.mod_lt _ (Nat.two_pow_pos _)

theorem cnpCut_of_recent {s : State} {q t : Nat} (ht : (qpOf s q).lastCut = some t) (h : s.now < t + 60000) : cnpCut q s = s := by
  rw [cnpCut, ht]
  exact if_pos (decide_eq_true h)

theorem cnpCut_of_due {s : State} {q : Nat} (h : ∀ t, (qpOf s q).lastCut = some t → t + 60000 ≤ s.now) :
    cnpCut q s = (modQp s q (fun x => { x with lastCut := some s.now })).setFld (Csr.qpRate q) 31 0 (max 1000 (s.fld (Csr.qpRate q) 31 0 / 2)) := by
  rw [cnpCut]
  refine if_neg ?_
  split
  · next t ht => exact fun hlt => absurd (of_decide_eq_true hlt) (Nat.not_lt.mpr (h t ht))
  · exact Bool.false_ne_true

theorem fld_cnpCut_of_due {s : State} {q : Nat} (h : ∀ t, (qpOf s q).lastCut = some t → t + 60000 ≤ s.now) :
    (cnpCut q s).fld (Csr.qpRate q) 31 0 = max 1000 (s.fld (Csr.qpRate q) 31 0 / 2) := by
  have hrate := fld_lt s (Csr.qpRate q) 31 0
  rw [cnpCut_of_due h, fld_setFld_same _ _ _ (by decide) (by decide)]
  exact Nat.mod_eq_of_lt (by omega)

theorem reg_cnpCut_other (s : State) {q off : Nat} (h : Csr.qpRate q ≠ off) : (cnpCut q s).reg off = s.reg off := by
  rw [cnpCut]
  exact kept_ite (fun s : State => s.reg off) rfl (State.reg_setFld_other _ _ _ _ h)

theorem fld_rateIncrease (s : State) (q : Nat) : (s.setFld (Csr.qpRate q) 31 0 (min (portRate s) (s.fld (Csr.qpRate q) 31 0 + 8000))).fld (Csr.qpRate q) 31 0 =
    min (portRate s) (s.fld (Csr.qpRate q) 31 0 + 8000) := by
  have hport : portRate s ≤ 800000 := by
    unfold portRate
    split <;> decide
  rw [fld_setFld_same _ _ _ (by decide) (by decide)]
  exact Nat.mod_eq_of_lt (by omega)

/-- Settles O37: a response, an acknowledgement and a timer that expires act on the requests of their pair, an error ends them in state 2, and the rate keeps within its bounds. -/
theorem queuePairsKeepTheirRequests : Obligations.QueuePairsKeepTheirRequests := by
  unfold Obligations.QueuePairsKeepTheirRequests
  refine ⟨fun s q x data htakes hx hlen => ⟨_, rfl, ?response⟩, fun s q nak htakes => ⟨_, rfl, ?acknowledge⟩, fun s q x rest hq hstate hx => ⟨_, rfl, ?timeout⟩,
    fun s q htakes => ⟨_, rfl, ?cnp⟩, fun s q hq hstate => ⟨_, rfl, ?increase⟩⟩
  case response =>
    obtain ⟨n, hanswer⟩ := answerIn_of_qpTakes htakes data.length (readArrives q data)
    obtain ⟨hreqs, hmem⟩ := responseEndsItsRead (s := s.count Csr.hpRxFrames n) hx hlen
    rw [hanswer, hmem]
    refine ⟨hreqs, fun j hj => ?_, fun a ha => putBytes_get_outside (hlen ▸ ha)⟩
    have hj : j < data.length := hlen ▸ hj
    rw [putBytes_get_inside hj, List.getD_eq_getElem _ _ hj]
  case acknowledge =>
    obtain ⟨n, hanswer⟩ := answerIn_of_qpTakes htakes 0 (fun s' => if nak then qpError s' q else dropReq s' q true)
    rw [hanswer]
    refine ⟨fun hack => ?_, fun hnak => ?_⟩
    · subst hack
      exact ⟨congrArg Qp.reqs (qpOf_modQp_same (s.count Csr.hpRxFrames n) q (fun x => { x with reqs := dropFirst (fun y => y.write == true) x.reqs })), rfl⟩
    · subst hnak
      exact qpState_qpError _ (lt_of_qpTakes htakes)
  case timeout =>
    rw [if_pos ⟨hq, hstate⟩]
    refine ⟨fun htries => ?_, fun htries => ?_⟩
    · obtain ⟨hreqs, hregs⟩ := timeoutSendsAgain hx htries
      exact ⟨hreqs, (qpState_of_regs hregs q).trans hstate⟩
    · rw [timeout_of_last hx htries]
      exact qpState_qpError s hq
  case cnp =>
    obtain ⟨n, hanswer⟩ := answerIn_of_qpTakes htakes 0 (fun s' => cnpCut q (s'.count Csr.hpCnpRx 1))
    have hrate : ((s.count Csr.hpRxFrames n).count Csr.hpCnpRx 1).fld (Csr.qpRate q) 31 0 = s.fld (Csr.qpRate q) 31 0 := by
      rw [State.fld, State.reg_count_other _ _ (qpRate_ne_hpCnpRx q), State.reg_count_other _ _ (qpRate_ne_hpRxFrames q), State.fld]
    rw [hanswer]
    refine ⟨?_, fun t ht hrecent => ?_, fun hdue => ?_⟩
    · rw [reg_cnpCut_other _ (qpRate_ne_hpCnpRx q).symm, State.reg_count_same, State.reg_count_other _ _ (by decide)]
      rfl
    · rw [cnpCut_of_recent (s := (s.count Csr.hpRxFrames n).count Csr.hpCnpRx 1) ht hrecent, hrate]
    · rw [fld_cnpCut_of_due (s := (s.count Csr.hpRxFrames n).count Csr.hpCnpRx 1) hdue, hrate]
  case increase =>
    rw [if_pos ⟨hq, hstate⟩]
    exact ⟨fld_rateIncrease s q, fun off hoff => State.reg_setFld_other _ _ _ _ hoff.symm⟩

end Sys2Proof.Machine
end

section
/-! PROOFS. A grant of an arbiter and the transactions that it makes room for. Nothing keeps the slice ports of a channel's transactions below 16, so that one may go to an arbiter of
another site; the statement about grants has no premise on the channels, so it fails. -/

namespace Sys2Proof.Machine

theorem exec_arbGrant {site inst : Nat} (h : inst < arbInstances site) (err : ReadErr) (s : State) :
    exec (.arbGrant site inst err) s = .next (pumpAll (storageError (grantEffect s site inst err) err)) := if_pos h

/-! ### The counterexample -/

/-- A request of one beat, the first of requester 0. -/
def firstRequest : ArbReq := .lone 0 0 false false 0

/-- Arbiter 0 of the NoC crossings (R405), with that request as its only head. -/
def crossingArbiter : Arbiter := { Arbiter.fresh (arbKey 4 0) with queue := [firstRequest], heads := [(0, 0, 0)] }

/-- A channel with a transaction for the slice port 131,072, whose key among the Larder's ports is that of the crossing's arbiter. -/
def strayChannel : Channel := { State.emptyChannel with txns := [(2 * 65536, firstRequest)] }

/-- The arbiter is to grant its head, and channel 0 of core 0 has room for its transaction. -/
def strayTransaction : State := (State.reset.setArbs [crossingArbiter]).modChannel 0 0 (fun _ => strayChannel)

theorem arbOf_strayTransaction : arbOf strayTransaction 4 0 = crossingArbiter := rfl

/-- The transaction that the grant makes room for stands in the queue that the grant has emptied. -/
theorem queue_grant_strayTransaction : (arbOf (pumpAll (storageError (grantEffect strayTransaction 4 0 .none) .none)) 4 0).queue = [firstRequest] := by decide +kernel

/-- A grant makes room for the channels' transactions, and one whose slice port does not exist enters the queue of the arbiter that granted. -/
theorem not_highestRankedHeadIsGranted : ¬ Sys2Proof.Claims.HighestRankedHeadIsGranted := by
  unfold Sys2Proof.Claims.HighestRankedHeadIsGranted
  intro h
  obtain ⟨s', hexec, hqueue, -⟩ := h strayTransaction 4 0 (0, 0, 0) firstRequest (by decide) (by decide) (by decide) rfl (List.mem_singleton_self _) rfl (Nat.le_refl _) rfl
    (fun g hg => .inl (List.mem_singleton.mp hg))
  have hs' := Host.Outcome.next.inj ((exec_arbGrant (by decide) .none strayTransaction).symm.trans hexec)
  rw [← hs', queue_grant_strayTransaction, arbOf_strayTransaction] at hqueue
  exact absurd hqueue (by decide)

/-- Refutes O22: nothing says that the channels' transactions, which a grant makes room for, go to slice ports of the Larder (R387, R405). -/
theorem not_arbitersGrantByRank : ¬ Obligations.ArbitersGrantByRank := fun h => not_highestRankedHeadIsGranted h.1

end Sys2Proof.Machine
end

section
/-! PROOFS. Fused-off domains (R516): what every operation on the power state leaves of them, and that the writes of PWR_DOM_ON and PWR_DOM_HOLD pass over their bits. A command that
lists no power keeps the power state whole; of the others only a wake that was asked for can put a domain on, and it is asked only of one that reads off. -/

namespace Sys2Proof.Machine

open Sys2Proof.Claims

variable {s s' : State}

/-! ### What fused-off domains keep to, of the power state alone -/

/-- Every part of the state but power. -/
def allButPower : Parts :=
  { now := true, ord := true, free := true, mem := true, poison := true, benchPoison := true, regs := true, trays := true, barriers := true, queues := true, cores := true, mmu := true,
    larder := true, arbs := true, errLog := true, planted := true, stop := true, scrubbing := true, trained := true, host := true, staon := true, hearth := true, modhw := true,
    hostTx := true }

/-- What `FusedStayOff` says, of a mask of fused arrays and a power state. -/
def FusedDown (mask : Nat) (p : Power) : Prop :=
  ∀ d < 125, fusedDomain mask d = true → Vec.get p.doms d .off = .fusedOff ∧ (∀ w ∈ p.wakes, w.1 ≠ d) ∧ d ∉ p.ramped

theorem fusedStayOff_iff (s : State) : FusedStayOff s ↔ FusedDown s.arrayMask s.power := Iff.rfl

/-- The three parts of the power state that the invariant speaks of; equal ones keep it. -/
theorem FusedDown.congr {mask : Nat} {p q : Power} (h : FusedDown mask p) (hd : q.doms = p.doms) (hw : q.wakes = p.wakes) (hr : q.ramped = p.ramped) : FusedDown mask q := by
  unfold FusedDown
  rw [hd, hw, hr]
  exact h

theorem fused_of_power (hs : FusedStayOff s) (hpart : s'.part = s.part) (hp : s'.power = s.power) : FusedStayOff s' := by
  rw [fusedStayOff_iff, State.arrayMask, hpart, hp]
  exact hs

theorem fused_of_touch {F : Parts} (hs : FusedStayOff s) (h : Touch F s s') (hF : F.power = false) : FusedStayOff s' := fused_of_power hs h.part (h.power hF)

/-- What touches everything but power keeps fused-off domains off. -/
theorem fused_of_rest (hs : FusedStayOff s) (h : Touch allButPower s s') : FusedStayOff s' := fused_of_touch hs h rfl

theorem fused_modPower {f : Power → Power} (hs : FusedStayOff s) (hf : FusedDown s.arrayMask s.power → FusedDown s.arrayMask (f s.power)) :
    FusedStayOff (s.modPower f) := hf hs

theorem fused_foldl {α : Type} {f : State → α → State} (hf : ∀ s x, FusedStayOff s → FusedStayOff (f s x)) (l : List α) : ∀ {s : State}, FusedStayOff s → FusedStayOff (l.foldl f s) := by
  induction l with
  | nil => exact fun h => h
  | cons x l ih => exact fun h => ih (hf _ x h)

theorem fused_ite {c : Prop} [Decidable c] {a b : State} (ha : FusedStayOff a) (hb : FusedStayOff b) : FusedStayOff (if c then a else b) := by
  split
  · exact ha
  · exact hb

/-! ### Domains switched, woken and put off -/

/-- A domain that is not of a fused-off array: above the arrays', or not fused. -/
def Unfused (s : State) (d : Nat) : Prop := d < 125 → fusedDomain s.arrayMask d = false

/-- A domain that reads anything but fused off is not fused. -/
theorem unfused_of_domState {d : Nat} (hs : FusedStayOff s) (h : domState s d ≠ .fusedOff) : Unfused s d :=
  fun hd => Bool.eq_false_iff.mpr (fun hf => h (hs d hd hf).1)

theorem fused_setDom {d : Nat} (x : DomState) (hs : FusedStayOff s) (hd : Unfused s d) : FusedStayOff (setDom s d x) := by
  intro e he hf
  obtain ⟨hoff, hwake, hramp⟩ := hs e he hf
  refine ⟨?_, hwake, hramp⟩
  have hne : d ≠ e := by
    rintro rfl
    exact Bool.false_ne_true ((hd he).symm.trans hf)
  exact (Vec.get_put_other s.power.doms x .off hne).trans hoff

theorem mem_enterWake {p : Power} {cyc d : Nat} {w : Nat × Nat} (h : w ∈ (p.enterWake cyc d).wakes) : w ∈ p.wakes ∨ w = (d, 0) := by
  simp only [Power.enterWake, List.splitAt_eq, List.append_assoc, List.mem_append, List.mem_singleton] at h
  rcases h with h | h | h | h
  · exact .inl (List.mem_of_mem_take h)
  · exact .inl (List.mem_of_mem_drop ((List.takeWhile_sublist _).subset h))
  · exact .inr h
  · exact .inl (List.mem_of_mem_drop ((List.dropWhile_sublist _).subset h))

theorem fused_enterWake {d cyc : Nat} (hs : FusedStayOff s) (hd : Unfused s d) : FusedStayOff (s.modPower (fun p => p.enterWake cyc d)) := by
  intro e he hf
  obtain ⟨hoff, hwake, hramp⟩ := hs e he hf
  refine ⟨hoff, fun w hw => ?_, hramp⟩
  rcases mem_enterWake hw with hw | rfl
  · exact hwake w hw
  · rintro rfl
    exact Bool.false_ne_true ((hd he).symm.trans hf)

theorem fused_requestWake (hs : FusedStayOff s) (d : Nat) : FusedStayOff (requestWake s d) := by
  unfold requestWake
  split
  · next h =>
    have hd := unfused_of_domState hs (h.trans_ne (by decide))
    exact fused_enterWake (fused_setDom .waking hs hd) hd
  · exact fused_modPower hs (fun h => h.congr rfl rfl rfl)
  · exact hs

theorem fused_stepNeeds (hs : FusedStayOff s) (ds : List Nat) : FusedStayOff (stepNeeds s ds) := by
  unfold stepNeeds
  dsimp only
  split
  · exact hs
  · exact fused_modPower (fused_foldl (fun _ d h => fused_requestWake h d) _ hs) (fun h => h.congr rfl rfl rfl)

theorem fused_beginOff (hs : FusedStayOff s) (d : Nat) : FusedStayOff (beginOff s d) := by
  unfold beginOff
  split
  · next h => exact fused_setDom .switchingOff hs (unfused_of_domState hs (by rw [beq_iff_eq.mp h]; decide))
  · exact hs

theorem fused_idleOff (hs : FusedStayOff s) (d : Nat) : FusedStayOff (idleOff s d) := by
  unfold idleOff
  split
  · exact fused_beginOff hs d
  · exact hs

theorem fused_gateDomains (hs : FusedStayOff s) : FusedStayOff (gateDomains s) := fused_foldl (fun _ d h => fused_idleOff h d) _ hs

theorem fused_switchOffDone (hs : FusedStayOff s) (d : Nat) : FusedStayOff (switchOffDone s d) := by
  unfold switchOffDone
  split
  · next h =>
    have hoff := fused_setDom .off hs (unfused_of_domState (d := d) hs (by rw [beq_iff_eq.mp h]; decide))
    have hlost : FusedStayOff (domLoses (setDom s d .off) d) := fused_of_rest hoff (by apply touch_domLoses _ d (.refl _ _) <;> rfl)
    dsimp only
    split
    · exact fused_requestWake (fused_modPower hlost (fun h => h.congr rfl rfl rfl)) d
    · exact hlost
  · exact hs

/-- A wake that leaves the queue with all its tokens ramps up a domain that the queue held; any other draw leaves the same domains in the queue. -/
theorem fused_drawTokens (hs : FusedStayOff s) : FusedStayOff (drawTokens s) := by
  rcases hw : s.power.wakes with _ | ⟨⟨d, got⟩, rest⟩ <;> simp only [drawTokens, hw]
  · exact fused_modPower hs (fun h => h.congr rfl rfl rfl)
  · refine fused_ite (fun e he hf => ?_) (fun e he hf => ?_)
    · obtain ⟨hoff, hwake, hramp⟩ := hs e he hf
      rw [hw] at hwake
      refine ⟨hoff, fun w hm => hwake w (List.mem_cons_of_mem _ hm), fun hm => ?_⟩
      rcases List.mem_append.mp hm with hm | hm
      · exact hramp hm
      · exact hwake (d, got) List.mem_cons_self (List.mem_singleton.mp hm).symm
    · obtain ⟨hoff, hwake, hramp⟩ := hs e he hf
      rw [hw] at hwake
      refine ⟨hoff, fun w hm => ?_, hramp⟩
      rcases List.mem_cons.mp hm with rfl | hm
      · exact hwake (d, got) List.mem_cons_self
      · exact hwake w (List.mem_cons_of_mem _ hm)

theorem fused_waitsEnd (hs : FusedStayOff s) (d : Nat) : FusedStayOff (waitsEnd s d) := by
  refine fused_modPower (fused_foldl (fun s' a h => ?_) _ hs) (fun h => h.congr rfl rfl rfl)
  exact fused_of_power h rfl rfl

theorem fused_wakeDone (hs : FusedStayOff s) (d : Nat) : FusedStayOff (wakeDone s d) := by
  unfold wakeDone
  split
  · next h =>
    have hd : Unfused s d := fun hd => Bool.eq_false_iff.mpr (fun hf => (hs d hd hf).2.2 (List.contains_iff_mem.mp h))
    refine fused_waitsEnd ?_ d
    refine fused_of_power (s := (setDom s d .on).modPower (fun p => { p with ramped := p.ramped.filter (fun x => x != d) })) ?_ rfl rfl
    intro e he hf
    obtain ⟨hoff, hwake, hramp⟩ := fused_setDom .on hs hd e he hf
    exact ⟨hoff, hwake, fun hm => hramp (List.mem_of_mem_filter hm)⟩
  · exact hs

theorem fused_writeDomOn (hs : FusedStayOff s) (half : Nat) (v : Reg) : FusedStayOff (writeDomOn s half v) := by
  unfold writeDomOn
  refine fused_ite (fused_of_power hs rfl rfl) (fused_foldl (fun s' b h => ?_) _ hs)
  have hset : FusedStayOff (s'.setFld (if half = 0 then Csr.pwrDomOn0 else Csr.pwrDomOn1) b b (b2n (bit v b))) := fused_of_power h rfl rfl
  exact fused_ite h (fused_ite (fused_ite (fused_requestWake hset _) hset) (fused_ite (fused_beginOff hset _) hset))

/-! ### What a write to the domains' registers leaves of a fused-off domain's bits -/

theorem lt_of_fusedDomain {mask d : Nat} (h : fusedDomain mask d = true) : d < 72 := by
  simp only [fusedDomain, Bool.and_eq_true, decide_eq_true_eq] at h
  exact h.1.1

theorem part_requestWake (s : State) (d : Nat) : (requestWake s d).part = s.part := by
  unfold requestWake
  split <;> rfl

theorem regs_requestWake (s : State) (d : Nat) : (requestWake s d).regs = s.regs := by
  unfold requestWake
  split <;> rfl

theorem part_beginOff (s : State) (d : Nat) : (beginOff s d).part = s.part := by
  unfold beginOff
  split <;> rfl

theorem regs_beginOff (s : State) (d : Nat) : (beginOff s d).regs = s.regs := by
  unfold beginOff
  split <;> rfl

/-- From `st` to `s` the module's parts are the same, and so is bit `b` of a register. -/
structure KeepsBit (off b : Nat) (st s : State) : Prop where
  part : s.part = st.part
  fld : s.fld off b b = st.fld off b b

theorem KeepsBit.refl (off b : Nat) (s : State) : KeepsBit off b s s := ⟨rfl, rfl⟩

theorem KeepsBit.of_regs {off b : Nat} {st s s' : State} (h : KeepsBit off b st s) (hp : s'.part = s.part) (hr : s'.regs = s.regs) : KeepsBit off b st s' :=
  ⟨hp.trans h.part, by rw [State.fld, State.reg, hr]; exact h.fld⟩

theorem KeepsBit.setFld {off b off' c v : Nat} {st s : State} (h : KeepsBit off b st s) (hc : c < 64) (apart : off' ≠ off ∨ c ≠ b) : KeepsBit off b st (s.setFld off' c c v) := by
  refine ⟨h.part, Eq.trans ?_ h.fld⟩
  by_cases ho : off' = off
  · subst ho
    exact fld_setFld_apart s off' v (Nat.le_refl c) hc (Nat.lt_or_gt_of_ne (apart.resolve_left (fun h => h rfl)))
  · rw [State.fld, State.reg_setFld_other _ _ _ _ ho, State.fld]

theorem keepsBit_ite {off b : Nat} {st a a' : State} {c : Prop} [Decidable c] (ha : KeepsBit off b st a) (ha' : KeepsBit off b st a') : KeepsBit off b st (if c then a else a') := by
  split
  · exact ha
  · exact ha'

theorem KeepsBit.requestWake {off b : Nat} {st s : State} (h : KeepsBit off b st s) (d : Nat) : KeepsBit off b st (requestWake s d) :=
  h.of_regs (part_requestWake s d) (regs_requestWake s d)

theorem KeepsBit.beginOff {off b : Nat} {st s : State} (h : KeepsBit off b st s) (d : Nat) : KeepsBit off b st (beginOff s d) :=
  h.of_regs (part_beginOff s d) (regs_beginOff s d)

/-- The turn of a write to PWR_DOM_ON or PWR_DOM_HOLD that would set the bit of a fused-off domain is the one that the write passes over. -/
theorem keepsBit_turn {off off' half b d : Nat} {st s x : State} (hf : fusedDomain st.arrayMask d = true) (hoff : off' = off → half = d / 64)
    (h : KeepsBit off (d % 64) st s) (hx : (off' ≠ off ∨ b ≠ d % 64) → KeepsBit off (d % 64) st x) :
    KeepsBit off (d % 64) st (if fusedDomain s.arrayMask (64 * half + b) then s else x) := by
  split
  · exact h
  · next hnot =>
    refine hx (Decidable.or_iff_not_imp_left.mpr (fun ho hbd => hnot ?_))
    have : 64 * half + b = d := by
      have := hoff (Decidable.not_not.mp ho)
      omega
    rw [this, State.arrayMask, h.part]
    exact hf

theorem domBitIn_eq {on : Bool} {d half : Nat} (hh : half < 2)
    (h : (if half = 0 then (if on then Csr.pwrDomOn0 else Csr.pwrDomHold0) else (if on then Csr.pwrDomOn1 else Csr.pwrDomHold1)) = domBitIn on d) (hd : d < 125) :
    half = d / 64 := by
  cases on <;> simp only [domBitIn, Csr.pwrDomOn0, Csr.pwrDomOn1, Csr.pwrDomHold0, Csr.pwrDomHold1] at h <;> split at h <;> split at h <;> simp at h <;> omega

theorem keepsBit_writeDomOn {d half : Nat} (v : Reg) (hh : half < 2) (hd : d < 125) (hf : fusedDomain s.arrayMask d = true) :
    KeepsBit (domBitIn true d) (d % 64) s (writeDomOn s half v) := by
  have hstatus : Csr.pwrStatus ≠ domBitIn true d := by
    simp only [domBitIn]
    split <;> decide
  unfold writeDomOn
  refine keepsBit_ite ((KeepsBit.refl _ _ s).setFld (by decide) (.inl hstatus)) (List.foldlRecOn _ _ (KeepsBit.refl _ _ s) (fun st h b hb => ?_))
  have hb64 : b < 64 := lt_of_lt_of_le (List.mem_range.mp hb) (by split <;> decide)
  refine keepsBit_turn (b := b) (off' := if half = 0 then Csr.pwrDomOn0 else Csr.pwrDomOn1) hf (fun ho => domBitIn_eq (on := true) hh ho hd) h (fun apart => ?_)
  have hset := h.setFld (v := b2n (bit v b)) hb64 apart
  exact keepsBit_ite (keepsBit_ite (hset.requestWake _) hset) (keepsBit_ite (hset.beginOff _) hset)

theorem keepsBit_writeDomHold {d half : Nat} (v : Reg) (hh : half < 2) (hd : d < 125) (hf : fusedDomain s.arrayMask d = true) :
    KeepsBit (domBitIn false d) (d % 64) s (writeDomHold s half v) := by
  unfold writeDomHold
  refine List.foldlRecOn _ _ (KeepsBit.refl _ _ s) (fun st h b hb => ?_)
  have hb64 : b < 64 := lt_of_lt_of_le (List.mem_range.mp hb) (by split <;> decide)
  exact keepsBit_turn (b := b) (off' := if half = 0 then Csr.pwrDomHold0 else Csr.pwrDomHold1) hf (fun ho => domBitIn_eq (on := false) hh ho hd) h (h.setFld hb64)

/-- A write to a register that lists domains is one of PWR_DOM_ON or of PWR_DOM_HOLD. -/
theorem regWrite_domBitIn (s : State) (on : Bool) (d : Nat) (v : Reg) :
    regWrite s (domBitIn on d) v = if on then writeDomOn s (if d < 64 then 0 else 1) v else writeDomHold s (if d < 64 then 0 else 1) v := by
  have h0 : RegMap.find Csr.pwrDomOn0 = some (⟨"PWR_DOM_ON_0", 0x200040, 1, 0, 1, 0, .none, [⟨63, 0, .rw, 13853054930258231040⟩]⟩, 0, 0) := by decide +kernel
  have h1 : RegMap.find Csr.pwrDomOn1 = some (⟨"PWR_DOM_ON_1", 0x200048, 1, 0, 1, 0, .none, [⟨60, 0, .rw, 1441151880758558719⟩]⟩, 0, 0) := by decide +kernel
  have h2 : RegMap.find Csr.pwrDomHold0 = some (⟨"PWR_DOM_HOLD_0", 0x200050, 1, 0, 1, 0, .none, [⟨63, 0, .rw, 0⟩]⟩, 0, 0) := by decide +kernel
  have h3 : RegMap.find Csr.pwrDomHold1 = some (⟨"PWR_DOM_HOLD_1", 0x200058, 1, 0, 1, 0, .none, [⟨60, 0, .rw, 0⟩]⟩, 0, 0) := by decide +kernel
  unfold regWrite
  by_cases hd : d < 64 <;> cases on <;> simp only [domBitIn, hd, if_true, if_false, Bool.false_eq_true, h0, h1, h2, h3]

/-! ### What a fused-off domain reads -/

/-- Of two-bit fields laid over a word, each reads its own value. -/
theorem bf_overlay_pairs (w : Reg) (v : Nat → Nat) {n k : Nat} (hn : n ≤ 32) (hk : k < n) :
    bf (overlay w ((List.range n).map (fun j => (2 * j + 1, 2 * j, v j)))) (2 * k + 1) (2 * k) = v k % 4 := by
  induction n with
  | zero => omega
  | succ n ih =>
    rw [List.range_succ, List.map_append, overlay, List.foldl_append]
    change bf (setBf (overlay w _) (2 * n + 1) (2 * n) (v n)) _ _ = _
    by_cases h : k = n
    · subst h
      rw [bf_setBf_same _ _ (by omega) (by omega), show 2 * k + 1 + 1 - 2 * k = 2 by omega]
      rfl
    · rw [bf_setBf_other _ _ (by omega) (by omega) (by omega)]
      exact ih (by omega) (by omega)

theorem regRead_pwrDomState (s : State) {r : Nat} (hr : r < 4) : regRead s (Csr.pwrDomState r) = overlay (s.reg (Csr.pwrDomState r)) (domFields s r) := by
  have hfind : RegMap.find (Csr.pwrDomState r) = some (⟨"PWR_DOM_STATE", 0x200020, 4, 8, 1, 0, .none, [⟨63, 0, .ro, 0⟩]⟩, r, 0) := by
    revert hr; revert r; decide +kernel
  rw [regRead, hfind]
  rfl

theorem bf_pwrDomState_of_fused {d : Nat} (hs : FusedStayOff s) (hd : d < 125) (hf : fusedDomain s.arrayMask d = true) :
    bf (regRead s (Csr.pwrDomState (d / 32))) (2 * (d % 32) + 1) (2 * (d % 32)) = 3 := by
  have h72 := lt_of_fusedDomain hf
  rw [regRead_pwrDomState s (by omega), domFields, bf_overlay_pairs _ _ (Nat.le_refl 32) (Nat.mod_lt _ (by decide)), show 32 * (d / 32) + d % 32 = d by omega, if_pos hd]
  have h122 : ¬ (d = 122 ∧ (!domOn s 123) = true) := fun h => by omega
  rw [domBits, if_neg h122, (hs d hd hf).1]
  rfl

/-! ### The Hearth's operations -/

/-- The main logic switched off leaves every domain as its reset finds it: a fused-off one fused off, and none waking. -/
theorem fused_mainOff (s : State) (keepPll : Bool) : FusedStayOff (mainOff s keepPll) := by
  intro d hd hf
  have hoff : Vec.get (Power.reset s.arrayMask).doms d .off = .fusedOff := by
    have hne : d ≠ 122 := by
      rintro rfl
      cases hf
    simp only [Power.reset, Vec.get, Vector.getElem_ofFn, dif_pos hd, if_neg hne]
    exact if_pos hf
  refine ⟨?_, List.forall_mem_nil _, List.not_mem_nil⟩
  have h123 : 123 ≠ d := by
    rintro rfl
    cases hf
  show Vec.get (if _ then Vec.put _ 123 DomState.on else _) d DomState.off = _
  split
  · exact (Vec.get_put_other _ _ _ h123).trans hoff
  · exact hoff

theorem fused_modHearth (hs : FusedStayOff s) (f : Hearth → Hearth) : FusedStayOff (s.modHearth f) := fused_of_power hs rfl rfl

theorem fused_setModhw (hs : FusedStayOff s) (v : ModHw) : FusedStayOff (s.setModhw v) := fused_of_power hs rfl rfl

theorem fused_setTrained (hs : FusedStayOff s) (b : Bool) : FusedStayOff (s.setTrained b) := fused_of_power hs rfl rfl

theorem fused_setFld (hs : FusedStayOff s) (off hi lo v : Nat) : FusedStayOff (s.setFld off hi lo v) := fused_of_power hs rfl rfl

theorem fused_hearthClear (hs : FusedStayOff s) (cause : Nat) : FusedStayOff (hearthClear s cause) := by
  unfold hearthClear
  exact fused_setModhw (fused_modPower (fused_modHearth hs _) (fun h => h.congr rfl rfl rfl)) _

theorem fused_romStart (s : State) (cause : Nat) : FusedStayOff (romStart s cause) := by
  unfold romStart
  exact fused_modHearth (fused_hearthClear (fused_mainOff s false) cause) _

theorem fused_powerOnReset (s : State) (cause : Nat) : FusedStayOff (powerOnReset s cause) := by
  unfold powerOnReset
  exact fused_modPower (f := fun p => { p with crit := false }) (fused_romStart s cause) (fun h => h.congr rfl rfl rfl)

theorem fused_moduleReset (s : State) (cause : Nat) : FusedStayOff (moduleReset s cause) := by
  have hclear := fused_hearthClear (fused_mainOff s true) cause
  have hlog : FusedStayOff (logCalLost (hearthClear (mainOff s true) cause)) := fused_of_rest hclear (touch_logCalLost _ (.refl _ _) rfl)
  exact fused_of_rest hlog (touch_startImages _ (.refl _ _) rfl)

theorem fused_nextSource (hs : FusedStayOff s) : FusedStayOff (nextSource s) := fused_of_rest hs (touch_nextSource _ (.refl _ _) rfl)

theorem fused_hearthEvent (hs : FusedStayOff s) (code detail : Nat) : FusedStayOff (hearthEvent s code detail) :=
  fused_of_rest hs (touch_hearthEvent _ _ _ (.refl _ _) rfl)

theorem fused_startFails (s : State) (code : Nat) : FusedStayOff (startFails s code) := by
  unfold startFails
  exact fused_nextSource (fused_modHearth (fused_hearthEvent (fused_mainOff s false) code 0) _)

theorem fused_attemptFails (hs : FusedStayOff s) (code : Nat) : FusedStayOff (attemptFails s code) := by
  unfold attemptFails
  exact fused_nextSource (fused_modHearth (fused_hearthEvent hs code 0) _)

theorem fused_releaseDividers (hs : FusedStayOff s) : FusedStayOff (releaseDividers s) := fused_foldl (fun _ d h => fused_requestWake h d) _ hs

/-- The root PLL's domain, which an image that passes starts, is of no array. -/
theorem fused_imagePasses (hs : FusedStayOff s) (slot src : Nat) : FusedStayOff (imagePasses s slot src) := by
  unfold imagePasses
  have h := fused_modHearth hs (fun h => { h with stage := 3, tries := h.tries + 1, candidate := some (candidateOf s slot src), bootSrc := src, sideband := false })
  exact fused_ite (fused_ite (fused_releaseDividers h) h) (fused_setDom .on h (fun _ => rfl))

theorem fused_attemptSlot (hs : FusedStayOff s) (slot src : Nat) : FusedStayOff (attemptSlot s slot src) := by
  unfold attemptSlot
  have h : FusedStayOff (if windowSkipped s slot then s.modHearth (fun h => { h with calUnchecked := true }) else s) := fused_ite (fused_modHearth hs _) hs
  exact fused_ite (fused_imagePasses h slot src) (fused_attemptFails h _)

theorem fused_firmwareStarts (hs : FusedStayOff s) : FusedStayOff (firmwareStarts s) := fused_of_rest hs (by apply touch_firmwareStarts _ (.refl _ _) <;> rfl)

theorem fused_bootStep (hs : FusedStayOff s) (env : BootEnv) : FusedStayOff (bootStep s env) := by
  unfold bootStep
  split
  · refine fused_ite (fused_of_rest (s := sampleStep1 s env) hs ?_) hs
    exact touch_startImages _ (touch_logCalLost _ (.refl _ _) rfl) rfl
  · exact fused_ite hs (fused_attemptSlot hs _ _)
  · exact fused_ite (fused_startFails s _) (fused_ite (fused_modHearth hs _) hs)
  · exact fused_ite (fused_startFails s _) (fused_modHearth (fused_setTrained hs true) _)
  · exact fused_ite (fused_startFails s _) (fused_firmwareStarts hs)
  · exact hs

theorem fused_afterLeft (hs : FusedStayOff s) : FusedStayOff (afterLeft s) := by
  unfold afterLeft
  exact fused_ite (fused_modHearth (fused_mainOff s false) _) hs

theorem fused_endDrain (hs : FusedStayOff s) : FusedStayOff (endDrain s) := by
  have htasks : FusedStayOff ((List.range 32).foldl (fun s' t => endTask s' t FC.taskAborted (s'.tray t).tryInstr 0 0xFFFFFFFF 0 0) s) :=
    fused_foldl (fun _ t h => fused_of_rest h (by apply touch_endTask _ t _ _ _ _ _ _ (.refl _ _) <;> rfl)) _ hs
  have hleave : ∀ {x : State}, FusedStayOff x → FusedStayOff (startLeave x) := fun h => fused_of_rest h (touch_startLeave _ (.refl _ _) rfl)
  unfold endDrain
  have hleft := hleave (fused_setFld (fused_modHearth htasks (fun h => { h with removal := .leaving })) Csr.stnCfg 0 0 1)
  exact fused_ite (fused_afterLeft hleft) hleft

theorem fused_startRemoval (hs : FusedStayOff s) : FusedStayOff (startRemoval s) := by
  have hstop : FusedStayOff ((List.range 64).foldl stopQueue (s.modHearth (fun h => { h with removal := .draining, stage := 7 }))) :=
    fused_foldl (fun _ q h => fused_of_rest h (touch_stopQueue _ q (.refl _ _) rfl)) _ (fused_of_power hs rfl rfl)
  unfold startRemoval
  exact fused_ite hstop (fused_endDrain hstop)

theorem fused_holdAll (s : State) : FusedStayOff (holdAll s) := by
  unfold holdAll
  exact fused_modHearth (fused_romStart s s.hearth.cause) _

theorem fused_inputOpens (s : State) (cause : Nat) : FusedStayOff (inputOpens s cause) := by
  unfold inputOpens
  exact fused_setModhw (fused_holdAll s) _

/-! ### Registers written -/

theorem fused_pwrCtlStore (hs : FusedStayOff s) (v : Reg) : FusedStayOff (pwrCtlStore s v) := by
  unfold pwrCtlStore
  split
  · exact hs
  · exact fused_gateDomains (fused_of_rest hs (by apply touch_storeWrite _ _ _ _ _ (.refl _ _) <;> rfl))

theorem fused_regWrite (hs : FusedStayOff s) (off : Nat) (v : Reg) : FusedStayOff (regWrite s off v) := by
  unfold regWrite
  split
  · exact hs
  · next d i _ _ =>
    split
    case h_8 => exact fused_pwrCtlStore hs v
    case h_9 => exact fused_writeDomOn hs 0 v
    case h_10 => exact fused_writeDomOn hs 1 v
    all_goals refine fused_of_rest hs ?_
    · exact touch_lpcSplitStore _ _ _ (.refl _ _) rfl
    · apply touch_mmuInvStore _ _ (.refl _ _) <;> rfl
    · apply touch_larCfgStore _ _ (.refl _ _) <;> rfl
    · apply touch_hpCtlStore _ _ (.refl _ _) <;> rfl
    · apply touch_stnCfgStore _ _ (.refl _ _) <;> rfl
    · apply touch_stnAddrStore _ _ (.refl _ _) <;> rfl
    · apply touch_mbxStore _ _ (.refl _ _) <;> rfl
    · exact touch_writeDomHold _ 0 _ (.refl _ _) rfl
    · exact touch_writeDomHold _ 1 _ (.refl _ _) rfl
    · apply touch_errInjStore _ _ (.refl _ _) <;> rfl
    · apply touch_coreWrite _ _ _ _ _ (.refl _ _) <;> rfl

theorem fused_writeWords (ws : List Reg) : ∀ {s : State} (off : Nat), FusedStayOff s → FusedStayOff (writeWords s off ws) := by
  induction ws with
  | nil => exact fun _ h => h
  | cons v l ih => exact fun off h => ih _ (fused_regWrite h off v)

/-! ### Commands -/

/-- Every next state of an outcome keeps fused-off domains off. -/
def EndsFused (o : Host.Outcome State Fault Refusal) : Prop := ∀ s', o = .next s' → FusedStayOff s'

theorem endsFused_next (hs : FusedStayOff s) : EndsFused (.next s) := fun _ h => by
  cases h
  exact hs

theorem endsFused_ite {c : Prop} [Decidable c] {o : Host.Outcome State Fault Refusal} {e : Fault} (h : EndsFused o) : EndsFused (if c then o else .fault e) := by
  split
  · exact h
  · exact fun _ h => by cases h

theorem endsFused_hearthWhen {ok : Bool} {f : State → State} (hs : FusedStayOff s) (hf : ∀ {s}, FusedStayOff s → FusedStayOff (f s)) : EndsFused (hearthWhen s ok f) :=
  endsFused_next (fused_ite (hf hs) hs)

theorem fused_byHearth {f : State → State} (hs : FusedStayOff s) (hf : FusedStayOff (f s)) : FusedStayOff (byHearth s f) := fused_ite hf hs

/-! A step of the tiler requests the wakes of the domains that it needs. -/

theorem fused_tick (hs : FusedStayOff s) : FusedStayOff s.tick := fused_of_power hs rfl rfl

theorem fused_modInst (hs : FusedStayOff s) (t k : Nat) (f : Inst → Inst) : FusedStayOff (s.modInst t k f) := fused_of_rest hs (touch_State_modInst _ _ _ _ (.refl _ _) rfl)

theorem fused_modTile (hs : FusedStayOff s) (t k n : Nat) (f : OTile → OTile) : FusedStayOff (s.modTile t k n f) :=
  fused_of_rest hs (touch_State_modTile _ _ _ _ _ (.refl _ _) rfl)

theorem fused_popStep (hs : FusedStayOff s) (t k : Nat) : FusedStayOff (popStep s t k) := fused_of_rest hs (touch_popStep _ _ _ (.refl _ _) rfl)

theorem fused_putStep (hs : FusedStayOff s) (c : Nat) (e : Eng) (x : Step) : FusedStayOff (putStep s c e x) := fused_of_rest hs (touch_putStep _ _ _ _ (.refl _ _) rfl)

theorem fused_wrote (hs : FusedStayOff s) (i c t : Nat) : FusedStayOff (wrote s i c t) := fused_of_rest hs (by apply touch_wrote _ _ _ _ (.refl _ _) <;> rfl)

theorem fused_settleTotal (hs : FusedStayOff s) (t k n : Nat) : FusedStayOff (settleTotal s t k n) :=
  fused_of_rest hs (by apply touch_settleTotal _ _ _ _ (.refl _ _) <;> rfl)

theorem fused_skipPass (hs : FusedStayOff s) (t : Nat) (i : Inst) (p : PStep) (g : Grid) (sel : Option (List Nat)) : FusedStayOff (skipPass s t i p g sel) :=
  fused_of_rest hs (by apply touch_skipPass _ _ _ _ _ _ (.refl _ _) <;> rfl)

theorem fused_startStreams (hs : FusedStayOff s) (t k : Nat) : FusedStayOff (startStreams s t k) :=
  fused_of_rest hs (by apply touch_startStreams _ _ _ (.refl _ _) <;> rfl)

theorem fused_queueStep (hs : FusedStayOff s) (t : Nat) (i : Inst) (e : Eng) (kind : StepKind) (p : PStep) : FusedStayOff (queueStep s t i e kind p) := by
  unfold queueStep
  exact fused_wrote (fused_stepNeeds (fused_modInst (fused_tick (fused_putStep (fused_popStep hs t i.seq) _ e _)) _ _ _) _) _ _ _

theorem fused_tileProduct (hs : FusedStayOff s) (t : Nat) (i : Inst) (p : PStep) : FusedStayOff (tileProduct s t i p) := by
  have hopen : FusedStayOff (if (i.tile p.tile).opened then (s, true) else askGroup s t i (i.tile p.tile).group).1 := by
    split
    · exact hs
    · exact fused_of_rest hs (by apply touch_askGroup _ _ _ _ (.refl _ _) <;> rfl)
  unfold tileProduct
  refine fused_ite hopen ?_
  dsimp only
  split
  · exact fused_ite (fused_skipPass (fused_modTile (fused_popStep hopen _ _) _ _ _ _) _ _ _ _ _)
      (fused_ite (fused_settleTotal (fused_modTile (fused_modTile (fused_queueStep hopen _ _ _ _ _) _ _ _ _) _ _ _ _) _ _ _) hopen)
  · exact hopen

theorem fused_tileStep (hs : FusedStayOff s) (t : Nat) : FusedStayOff (tileStep t s) := by
  unfold tileStep
  refine fused_ite hs ?_
  split
  · exact hs
  · refine fused_ite ?plan ?step
    case plan =>
      split
      · exact fused_ite (fused_ite (fused_startStreams (fused_modInst hs _ _ _) _ _) (fused_modInst hs _ _ _)) hs
      · exact hs
    case step =>
      split
      · exact hs
      · exact fused_ite (fused_tileProduct hs _ _ _) (fused_ite (fused_queueStep hs _ _ _ _ _) hs)

theorem fused_hmpAuth {op chk : Nat} {r : HmpReq} {out : List Byte} {f : State → State} (hs : FusedStayOff s) (hf : ∀ {s}, FusedStayOff s → FusedStayOff (f s)) :
    FusedStayOff (hmpAuth op r chk out f s) := by
  unfold hmpAuth
  refine fused_ite hs (fused_ite (fused_modHearth hs _) (fused_ite (fused_modHearth (fused_modHearth hs _) _) (fused_ite ?again ?new)))
  case again =>
    split
    · exact fused_ite (fused_modHearth hs _) (fused_modHearth hs _)
    · exact fused_modHearth hs _
  case new => exact fused_ite (fused_modHearth (fused_modHearth hs _) _) (hf (fused_modHearth (fused_modHearth (fused_modHearth hs _) _) _))

/-- An uncorrectable error in the Hearth's memory resets it. -/
theorem fused_storageError (hs : FusedStayOff s) (e : ReadErr) : FusedStayOff (storageError s e) := by
  unfold storageError
  split
  · unfold hearthSram
    have hreset : FusedStayOff (logUnowned (hearthReset (s.count (Csr.errEccUe 14) 1) 2) FC.hearthSramUe 14 0) :=
      fused_of_rest (fused_romStart (s.count (Csr.errEccUe 14) 1) 2) (by apply touch_logUnowned _ _ _ _ (.refl _ _) <;> rfl)
    exact fused_ite (fused_of_power hs rfl rfl) (fused_modHearth hreset _)
  · refine fused_ite (fused_of_rest hs ?_) hs
    apply touch_eccEffect _ _ _ _ _ (.refl _ _) <;> rfl
  · exact hs

theorem fused_grantEffect (hs : FusedStayOff s) (site inst : Nat) (err : ReadErr) : FusedStayOff (pumpAll (storageError (grantEffect s site inst err) err)) := by
  have hgrant : FusedStayOff (grantEffect s site inst err) := fused_of_rest hs (by apply touch_grantEffect _ _ _ _ (.refl _ _) <;> rfl)
  exact fused_of_rest (fused_storageError hgrant err) (by apply touch_pumpAll _ (.refl _ _) <;> rfl)

/-! CSR registers are written by commands of the transport and by management messages too. -/

theorem fused_cctServe {o : CctOp} {eff : CctMsg → State → CctEffect} {m : CctMsg} (hs : FusedStayOff s) (heff : ∀ {s}, FusedStayOff s → FusedStayOff (eff m s).1) :
    FusedStayOff (cctServe o eff m s) := by
  have hacc : FusedStayOff (cctAccept o m s).1 := fused_of_rest hs (touch_cctAccept _ _ _ (.refl _ _) rfl)
  have hans : ∀ {r : CctEffect}, FusedStayOff r.1 → FusedStayOff (cctAnswer o m r) := fun h => fused_of_rest h (by apply touch_cctAnswer _ _ _ (.refl _ _) <;> rfl)
  have hcount : FusedStayOff (s.count Csr.hpCctDrops 1) := fused_of_power hs rfl rfl
  unfold cctServe
  refine fused_ite hcount ?_
  split
  · next h => exact hans (heff (by rw [h] at hacc; exact hacc))
  · next h => exact hans (by rw [h] at hacc; exact hacc)

theorem fused_writeEffect (hs : FusedStayOff s) (m : CctMsg) : FusedStayOff (writeEffect m s).1 := by
  unfold writeEffect
  split
  · exact hs
  · exact fused_foldl (f := fun x (p : Nat × Reg) => regWrite x p.1 p.2) (fun _ p h => fused_regWrite h p.1 p.2) (csrWords m) hs

theorem fused_rxBuffer (hs : FusedStayOff s) : FusedStayOff (rxBuffer s).1 := fused_of_rest hs (by apply touch_rxBuffer _ (.refl _ _) <;> rfl)

theorem fused_cctFrame {m : CctMsg} {f : State → State} (hs : FusedStayOff s) (hf : ∀ {s}, FusedStayOff s → FusedStayOff (f s)) : FusedStayOff (cctFrame m f s) := by
  have hrx := fused_rxBuffer hs
  unfold cctFrame
  refine fused_ite hs ?_
  split
  · split
    · next h => rw [h] at hrx; exact hrx
    · next s1 h =>
      rw [h] at hrx
      have hcount : FusedStayOff (countFrames s1 1) := fused_of_power hrx rfl rfl
      exact hf hcount
  · exact hf hs

theorem fused_requestIn {r : RoceReq} {bytes : Nat} {f : State → State} (hs : FusedStayOff s) (hf : ∀ {s}, FusedStayOff s → FusedStayOff (f s)) :
    FusedStayOff (requestIn r bytes f s) := by
  have hrx := fused_rxBuffer hs
  unfold requestIn
  refine fused_ite hs ?_
  split
  · next h => rw [h] at hrx; exact hrx
  · next h =>
    rw [h] at hrx
    refine hf (fused_of_rest hrx ?_)
    apply touch_noteCe _ _ _ (touch_countFrames _ _ (.refl _ _) rfl) <;> rfl

/-- Of the operations of the transport only CSR_WRITE writes power. -/
theorem fused_cctByOp (hs : FusedStayOff s) (op : Nat) (m : CctMsg) : FusedStayOff (cctByOp op m s) := by
  have hrest : ∀ {o : CctOp} {eff : CctMsg → State → CctEffect} {s : State}, FusedStayOff s → (∀ s, Touch allButPower s (eff m s).1) → FusedStayOff (cctServe o eff m s) :=
    fun h heff => fused_cctServe h (fun h => fused_of_rest h (heff _))
  unfold cctByOp
  split
  case h_8 => exact fused_cctServe hs (fun h => fused_writeEffect h m)
  all_goals refine hrest hs (fun s => ?_)
  · apply touch_doorbellEffect _ _ (.refl _ _) <;> rfl
  · apply touch_memberEffect _ _ (.refl _ _) <;> rfl
  · refine touch_trayEffect _ _ _ (fun x _ h => ?_) (.refl _ _)
    apply touch_resumeTray _ _ h <;> rfl
  · refine touch_trayEffect _ _ _ (fun x _ h => ?_) (.refl _ _)
    apply touch_abortTray _ _ h <;> rfl
  · exact touch_restartEffect _ _ (.refl _ _) rfl
  · exact touch_ackEffect _ _ (.refl _ _) rfl
  · exact touch_readEffect _ _ (.refl _ _) rfl
  · apply touch_callEffect _ _ (.refl _ _) <;> rfl
  · exact .refl _ _
  · exact .refl _ _

theorem fused_mgtWrite (hs : FusedStayOff s) (port : Nat) (m : StnMsg) : FusedStayOff (mgtWrite s port m) := by
  have hans : ∀ {x : State} {status : Nat} {ws : List Reg}, FusedStayOff x → FusedStayOff (mgtAnswer x port m status ws) :=
    fun h => fused_of_rest h (by apply touch_mgtAnswer _ _ _ _ _ (.refl _ _) <;> rfl)
  exact fused_ite (hans hs) (fused_ite (hans hs) (hans (fused_writeWords _ _ hs)))

theorem endsFused_management {port type : Nat} {m : StnMsg} {f : State → StnMsg → State} (hs : FusedStayOff s) (hf : ∀ {s m}, FusedStayOff s → FusedStayOff (f s m)) :
    EndsFused (management port type f m s) := by
  have hfree : ∀ {x : State} {y : StnMsg}, FusedStayOff x → FusedStayOff (freeBuffer x port y) := fun h => fused_of_rest h (touch_freeBuffer _ _ _ (.refl _ _) rfl)
  have hdrop : ∀ {x : State}, FusedStayOff x → FusedStayOff (dropMsg x) := fun h => fused_of_rest h (touch_dropMsg _ (.refl _ _) rfl)
  have hfwd : ∀ {x : State} {y : StnMsg}, FusedStayOff x → FusedStayOff (forwardMgt x port y) := fun h => fused_of_rest h (by apply touch_forwardMgt _ _ _ (.refl _ _) <;> rfl)
  have hbuf : FusedStayOff (stnBuffer s).1 := fused_of_rest hs (by apply touch_stnBuffer _ (.refl _ _) <;> rfl)
  refine endsFused_ite (endsFused_next (fused_ite ?_ hs))
  dsimp only
  split
  · next h => rw [h] at hbuf; exact hfree hbuf
  · next h =>
    rw [h] at hbuf
    exact fused_ite (hdrop (hfree hbuf)) (fused_ite (hf (hfree hbuf)) (hfwd hbuf))

/-! Every command: those that list no power keep it whole. -/

theorem fused_portsFollow (hs : FusedStayOff s) (d : Nat) : FusedStayOff (portsFollow s d) := fused_of_rest hs (by apply touch_portsFollow _ _ (.refl _ _) <;> rfl)

theorem fused_governorStep (hs : FusedStayOff s) (counts : List Nat) : FusedStayOff (governorStep s counts) := by
  unfold governorStep
  have hcount : ∀ {x : State} {off : Nat}, FusedStayOff x → FusedStayOff (x.count off 1) := fun h => fused_of_power h rfl rfl
  have h1 : FusedStayOff (if s.power.theta < 100 then s.count Csr.pwrThrottleWindows 1 else s) := fused_ite (hcount hs) hs
  exact fused_modPower (fused_ite (hcount (fused_ite (hcount h1) h1)) (fused_ite (hcount h1) h1)) (fun h => h.congr rfl rfl rfl)

theorem fused_thermalStep (hs : FusedStayOff s) (temps : List Int) : FusedStayOff (thermalStep s temps) := by
  unfold thermalStep
  have hset : ∀ {c : Prop} [Decidable c] {x : State} {hi lo v : Nat}, FusedStayOff x → FusedStayOff (if c then x.setFld Csr.thmStatus hi lo v else x) :=
    fun h => fused_ite (fused_setFld h _ _ _ _) h
  have hread := fused_setModhw (fused_modPower (f := fun p =>
    { p with tj := hottest (temps.take 32) s.power.tj, crit := decide (105 ≤ hottest (temps.take 32) s.power.tj) || (s.power.crit && decide (100 ≤ hottest (temps.take 32) s.power.tj)),
             thermalCap := thermalCapAt (throttleAt s) (hottest (temps.take 32) s.power.tj) }) hs (fun h => h.congr rfl rfl rfl))
  exact fused_ite (fused_ite (fused_setFld (hset (hread _)) _ _ _ _) (fused_hearthEvent (fused_setFld (hset (hread _)) _ _ _ _) _ _)) (hset (hread _))

theorem endsFused_execThermalShutdown (hs : FusedStayOff s) : EndsFused (execThermalShutdown s) := by
  unfold execThermalShutdown
  exact endsFused_hearthWhen hs (fun _ => fused_modHearth (fused_hearthEvent (fused_mainOff _ false) _ 0) _)

theorem endsFused_execThermalRestartTimer (hs : FusedStayOff s) : EndsFused (execThermalRestartTimer s) := by
  unfold execThermalRestartTimer
  exact endsFused_hearthWhen hs (fun h => fused_ite (fused_moduleReset _ 5) (fused_modHearth h _))

theorem endsFused_execPllLock (hs : FusedStayOff s) : EndsFused (execPllLock s) := by
  unfold execPllLock
  refine endsFused_next (fused_ite ?_ hs)
  have hlock : FusedStayOff (s.modPower (fun p => { p with locked := true })) := fused_modPower hs (fun h => h.congr rfl rfl rfl)
  exact fused_ite (fused_releaseDividers hlock) hlock

theorem endsFused_execPllUnlock (hs : FusedStayOff s) : EndsFused (execPllUnlock s) := by
  unfold execPllUnlock
  exact endsFused_hearthWhen hs (fun _ => fused_moduleReset _ 4)

theorem endsFused_execPowerOn (hs : FusedStayOff s) : EndsFused (execPowerOn s) := by
  unfold execPowerOn
  exact endsFused_next (fused_ite (fused_powerOnReset s 0) hs)

theorem endsFused_execHearthWatchdog (hs : FusedStayOff s) : EndsFused (execHearthWatchdog s) := by
  unfold execHearthWatchdog
  exact endsFused_hearthWhen hs (fun _ => fused_romStart _ 2)

theorem endsFused_execBoot (hs : FusedStayOff s) (env : BootEnv) : EndsFused (execBoot env s) := by
  unfold execBoot
  exact endsFused_hearthWhen hs (fun h => fused_bootStep h env)

theorem endsFused_execHmpReset (hs : FusedStayOff s) (r : HmpReq) : EndsFused (execHmpReset r s) := by
  unfold execHmpReset
  exact endsFused_next (fused_hmpAuth hs (fun _ => fused_ite (fused_moduleReset _ 3) (fused_romStart _ 1)))

theorem endsFused_execHmpPower (hs : FusedStayOff s) (r : HmpReq) : EndsFused (execHmpPower r s) := by
  unfold execHmpPower
  exact endsFused_next (fused_hmpAuth hs (fun h => fused_ite (fused_moduleReset _ 3) (fused_ite h (fused_modHearth (fused_mainOff _ false) _))))

theorem endsFused_execImageDone (hs : FusedStayOff s) (r : HmpReq) : EndsFused (execImageDone r s) := by
  unfold execImageDone
  exact endsFused_next (fused_hmpAuth hs (fun h => fused_ite (fused_ite (fused_attemptFails h _) (fused_attemptSlot h 1 2)) h))

theorem endsFused_execRemovePrep (hs : FusedStayOff s) (r : HmpReq) : EndsFused (execRemovePrep r s) := by
  unfold execRemovePrep
  exact endsFused_next (fused_hmpAuth hs fused_startRemoval)

theorem endsFused_execAttnRemoveHold (hs : FusedStayOff s) : EndsFused (execAttnRemoveHold s) := by
  unfold execAttnRemoveHold
  exact endsFused_hearthWhen hs (fun h => fused_ite (fused_startRemoval (fused_setModhw h _)) (fused_setModhw h _))

theorem endsFused_execDrainTimeExpire (hs : FusedStayOff s) : EndsFused (execDrainTimeExpire s) := by
  unfold execDrainTimeExpire
  exact endsFused_hearthWhen hs fused_endDrain

theorem endsFused_execMatedNOpen (hs : FusedStayOff s) : EndsFused (execMatedNOpen s) := by
  unfold execMatedNOpen
  exact endsFused_next (fused_ite (fused_inputOpens _ 1) (fused_setModhw hs _))

theorem endsFused_execHotSwapTrip (hs : FusedStayOff s) (causes : List HscCause) : EndsFused (execHotSwapTrip causes s) := by
  unfold execHotSwapTrip
  exact endsFused_next (fused_ite (fused_inputOpens s _) hs)

theorem endsFused_execRef100Loss (hs : FusedStayOff s) : EndsFused (execRef100Loss s) := by
  unfold execRef100Loss
  exact endsFused_next (fused_ite (fused_setModhw (fused_holdAll s) _) hs)

theorem endsFused_execRef100Return (hs : FusedStayOff s) : EndsFused (execRef100Return s) := by
  unfold execRef100Return
  exact endsFused_next (fused_ite hs (fused_ite (fused_setModhw (fused_powerOnReset _ _) _) (fused_setModhw hs _)))

theorem fused_exec (hs : FusedStayOff s) (c : Instr) (h : exec c s = .next s') : FusedStayOff s' := by
  by_cases hp : (partsOf c).power = false
  · exact fused_of_touch hs (exec_touches c s s' h) hp
  · have hends : EndsFused (exec c s) := by
      cases c
      case tileStepQueue t => exact endsFused_ite (endsFused_next (fused_tileStep hs t))
      case arbGrant site inst err => exact endsFused_ite (endsFused_next (fused_grantEffect hs site inst err))
      case csrWrite m => exact endsFused_ite (endsFused_next (fused_cctFrame hs (fun h => fused_cctServe h (fun h => fused_writeEffect h m))))
      case send r op m =>
        refine endsFused_ite (endsFused_next (fused_requestIn hs (fun h => fused_cctByOp (fused_of_rest h ?_) _ _)))
        apply touch_sendQp _ _ _ (.refl _ _) <;> rfl
      case csrRegisterWrite off v => exact endsFused_next (fused_regWrite hs off v)
      case pwrDomOnWrite half v => exact endsFused_ite (endsFused_next (fused_writeDomOn hs half v))
      case pwrProfileWrite v => exact endsFused_next (fused_pwrCtlStore hs v)
      case leaveComplete =>
        refine endsFused_next (fused_ite (fused_afterLeft (fused_of_rest hs ?_)) hs)
        apply touch_finishLeave _ (.refl _ _) <;> rfl
      case mgtWrite port m => exact endsFused_management hs (fun h => fused_mgtWrite h port _)
      case governorWindow counts => exact endsFused_next (fused_byHearth hs (fused_governorStep hs counts))
      case domainIdleOff d => exact endsFused_ite (endsFused_next (fused_byHearth hs (fused_idleOff hs d)))
      case wakeTokenDraw => exact endsFused_next (fused_byHearth hs (fused_drawTokens hs))
      case wakeComplete d => exact endsFused_ite (endsFused_next (fused_byHearth hs (fused_portsFollow (fused_wakeDone hs d) d)))
      case switchOffComplete d => exact endsFused_ite (endsFused_next (fused_byHearth hs (fused_portsFollow (fused_switchOffDone hs d) d)))
      case thermalSample temps => exact endsFused_next (fused_byHearth hs (fused_thermalStep hs temps))
      case thermalShutdown => exact endsFused_execThermalShutdown hs
      case thermalRestartTimer => exact endsFused_execThermalRestartTimer hs
      case pllLock => exact endsFused_execPllLock hs
      case pllUnlock => exact endsFused_execPllUnlock hs
      case powerOn => exact endsFused_execPowerOn hs
      case hearthWatchdog => exact endsFused_execHearthWatchdog hs
      case boot env => exact endsFused_execBoot hs env
      case hmpReset r => exact endsFused_execHmpReset hs r
      case hmpPower r => exact endsFused_execHmpPower hs r
      case imageDone r => exact endsFused_execImageDone hs r
      case removePrep r => exact endsFused_execRemovePrep hs r
      case attnRemoveHold => exact endsFused_execAttnRemoveHold hs
      case drainTimeExpire => exact endsFused_execDrainTimeExpire hs
      case matedNOpen => exact endsFused_execMatedNOpen hs
      case hotSwapTrip causes => exact endsFused_execHotSwapTrip hs causes
      case ref100Loss => exact endsFused_execRef100Loss hs
      case ref100Return => exact endsFused_execRef100Return hs
      all_goals exact absurd rfl hp
    exact hends s' h

/-- Settles O58: no step wakes a domain that reads fused off, for a wake is asked only of one that is off, and every reset leaves it fused off; its bits are passed over by the writes. -/
theorem fusedOffDomainsAreNeverSwitchedOn : Obligations.FusedOffDomainsAreNeverSwitchedOn := by
  unfold Obligations.FusedOffDomainsAreNeverSwitchedOn
  refine ⟨fun s s' hs h => ?step, fun s d hs hd hf => bf_pwrDomState_of_fused hs hd hf, fun s s' d on v hd hf h => ?write, fun s s' d half v hd hf h => ?on⟩
  case step =>
    cases hp : s.pending with
    | nil =>
      rw [step_of_pending_nil hp] at h
      exact fused_of_touch hs (ends_next (idleTick_touches s) s' h) rfl
    | cons c rest =>
      rw [step_of_pending_cons hp] at h
      have hrest : FusedStayOff { s with pending := rest } := fused_of_power hs rfl rfl
      exact fused_exec hrest c h
  case write =>
    obtain rfl := Host.Outcome.next.inj h
    rw [regWrite_domBitIn]
    have hhalf : (if d < 64 then 0 else 1) < 2 := by split <;> decide
    cases on
    · exact (keepsBit_writeDomHold v hhalf hd hf).fld
    · exact (keepsBit_writeDomOn v hhalf hd hf).fld
  case on =>
    by_cases hhalf : half < 2
    · obtain rfl := Host.Outcome.next.inj ((if_pos hhalf).symm.trans h)
      exact (keepsBit_writeDomOn v hhalf hd hf).fld
    · cases (if_neg hhalf).symm.trans h

end Sys2Proof.Machine
end

section
/-! PROOFS. The host port (R430 to R448): what an arrived frame, request and command do, command by command of the checks (R442, R443), and the links with their pauses. -/

namespace Sys2Proof.Machine

open Sys2Proof.Claims

/-! ### Registers beside a counter, and a field written with what it holds -/

theorem fld_count_other (s : State) {off off' : Nat} (n hi lo : Nat) (h : off ≠ off') : (s.count off n).fld off' hi lo = s.fld off' hi lo := by
  rw [State.fld, State.reg_count_other _ _ h, State.fld]

theorem fld_setFld_other (s : State) {off off' : Nat} (hi lo v hi' lo' : Nat) (h : off ≠ off') : (s.setFld off hi lo v).fld off' hi' lo' = s.fld off' hi' lo' := by
  rw [State.fld, State.reg_setFld_other _ _ _ _ h, State.fld]

theorem setBf_of_bf {n : Nat} {w : BitVec n} {hi lo v : Nat} (h : lo ≤ hi) (hn : hi < n) (hv : bf w hi lo = v) : setBf w hi lo v = w := by
  refine BitVec.eq_of_getLsbD_eq (fun i _ => ?_)
  rw [getLsbD_setBf w v i h hn]
  split
  · next hin =>
    rw [← hv, testBit_bf, show lo + (i - lo) = i by omega, decide_eq_true (by omega), Bool.true_and]
  · rfl

/-! ### What the host port receives and sends -/

theorem sendOn_of_up {s : State} {way : Nat × Nat} (hup : Vec.get s.host.up way.1 false = true) (hpaused : s.host.paused = []) (m : HostTx) : sendOn s way m = s.sendHost m := by
  simp [sendOn, hup, hpaused]

/-- Without an armed injection into the receive buffers a frame comes through them as it is. -/
theorem rxBuffer_of_rxSound {s : State} (h : RxSound s) : rxBuffer s = (s, false) := by
  refine if_neg (fun hb => ?_)
  simp only [Bool.and_eq_true, beq_iff_eq] at hb
  exact h.elim (fun h63 => absurd (h63.symm.trans hb.1) Bool.false_ne_true) (fun hne => hne hb.2)

section ByUdp
variable {s : State} {m : CctMsg} {port prio : Nat} (h : ByUdp s m port prio)
include h

theorem viaWay_of_byUdp (s' : State) : viaWay s' m.src = (port, prio) := by
  obtain ⟨sender, hsrc⟩ := h.source
  rw [hsrc]
  rfl

/-- A command's frame that arrives by UDP is counted before the command acts. -/
theorem cctFrame_of_byUdp (f : State → State) : cctFrame m f s = f (s.count Csr.hpRxFrames 1) := by
  obtain ⟨sender, hsrc⟩ := h.source
  have harrives : cctArrives s m = true := by simp [cctArrives, viaWay, hsrc, h.up]
  simp [cctFrame, harrives, hsrc, rxBuffer_of_rxSound h.buffer, countFrames]

theorem cctCommand_of_byUdp (o : CctOp) (eff : CctMsg → State → CctEffect) : cctCommand o eff m s = .next (cctServe o eff m (s.count Csr.hpRxFrames 1)) := by
  rw [cctCommand, if_pos h.unit, cctFrame_of_byUdp h]

end ByUdp

/-! ### The checks of a command (R442 to R445) -/

theorem seqExp_count (s : State) {off : Nat} (n : Nat) {q : Nat} (h : off ≠ Csr.hqState q) : seqExp (s.count off n) q = seqExp s q := fld_count_other s n 63 32 h

theorem hpCounter_ne_hqState {q : Nat} (hq : q < 64) : Csr.hpRxFrames ≠ Csr.hqState q ∧ Csr.hpCctRejects ≠ Csr.hqState q ∧ Csr.hpCctDrops ≠ Csr.hqState q := by
  simp only [Csr.hpRxFrames, Csr.hpCctRejects, Csr.hpCctDrops, Csr.hqState]
  omega

theorem cctDropped_count (s : State) {m : CctMsg} (hq : m.queue < 64) : cctDropped (s.count Csr.hpRxFrames 1) m = cctDropped s m := by
  have hcfg : Csr.hpRxFrames ≠ Csr.hqCfg m.queue := by simp only [Csr.hpRxFrames, Csr.hqCfg]; omega
  have hparam : Csr.hpRxFrames ≠ Csr.hqParam m.queue := by simp only [Csr.hpRxFrames, Csr.hqParam]; omega
  rw [cctDropped, cctDropped, State.reg_count_other _ _ hcfg, fld_count_other _ _ _ _ hparam]

theorem cctServe_of_dropped {s : State} {m : CctMsg} (o : CctOp) (eff : CctMsg → State → CctEffect) (h : cctDropped s m = true) :
    cctServe o eff m s = s.count Csr.hpCctDrops 1 := if_pos h

/-- A command that fails a later check is answered with the status that it failed with. -/
theorem cctServe_of_status {s s1 : State} {m : CctMsg} {o : CctOp} (eff : CctMsg → State → CctEffect) {status : Nat} (hd : cctDropped s m = false)
    (h : cctAccept o m s = (s1, status + 1)) : cctServe o eff m s = cctAnswer o m (s1, status + 1, []) := by
  simp [cctServe, hd, h]

theorem cctServe_of_ok {s s1 : State} {m : CctMsg} {o : CctOp} (eff : CctMsg → State → CctEffect) (hd : cctDropped s m = false) (h : cctAccept o m s = (s1, 0)) :
    cctServe o eff m s = cctAnswer o m (eff m s1) := by
  simp [cctServe, hd, h]

theorem cctAccept_of_ver {s : State} {m : CctMsg} (o : CctOp) (h : m.ver ≠ 1) : cctAccept o m s = (s, St.badVersion) := if_pos h

/-- A sequenced command of this version and of the right form has the status that its number gives it, if that is not OK. -/
theorem cctAccept_of_seqStatus {s : State} {m : CctMsg} {o : CctOp} (hver : m.ver = 1) (hrsvd : m.rsvd = false) (hfits : o.fits m = true) (hseq : o.sequenced = true) (hne : m.seq ≠ 0)
    (hst : seqStatus (seqExp s m.queue) m.seq ≠ St.ok) : cctAccept o m s = (s, seqStatus (seqExp s m.queue) m.seq) := by
  simp [cctAccept, hver, hrsvd, hfits, hseq, hne, hst]

/-- A command that passes every check acts in the state in which its frame is counted and its queue expects the next number. -/
theorem cctAccept_of_accepted {s : State} {m : CctMsg} {o : CctOp} (hq : m.queue < 64) (h : Accepted o m s) (hp : o.permitted (accepting o m s) m.queue = 0) :
    cctAccept o m (s.count Csr.hpRxFrames 1) = (accepting o m s, 0) := by
  have hexp : seqExp (s.count Csr.hpRxFrames 1) m.queue = seqExp s m.queue := seqExp_count s 1 (hpCounter_ne_hqState hq).1
  obtain ⟨hrsvd, hfits⟩ := h.form
  obtain ⟨hstop, hremoval⟩ := h.calm
  have hstop' : (accepting o m s).stop = none := by unfold accepting; split <;> exact hstop
  have hremoval' : (accepting o m s).hearth.removal = .none := by unfold accepting; split <;> exact hremoval
  have hnum := h.number
  unfold accepting at hp hstop' hremoval' ⊢
  cases hseq : o.sequenced
  · simp only [hseq, Bool.false_eq_true, if_false] at hnum hp hstop' hremoval'
    simp [cctAccept, h.version, hrsvd, hfits, hseq, hnum, hp, hstop', hremoval', St.ok]
  · simp only [hseq, if_true] at hnum hp hstop' hremoval'
    have hok : seqStatus (seqExp s m.queue) m.seq = St.ok := if_pos hnum.1
    simp [cctAccept, h.version, hrsvd, hfits, hseq, hnum.2, hexp, hok, hp, hstop', hremoval', St.ok]

/-- The answer to a command that came by UDP while no priority is paused (R445): of one that is rejected always, of another when it asks for one. -/
theorem cctAnswer_of_byUdp {s s1 : State} {m : CctMsg} {port prio : Nat} (h : ByUdp s m port prio) (hup : s1.host.up = s.host.up) (hpaused : s1.host.paused = []) (o : CctOp) (status : Nat)
    (words : List Reg) :
    cctAnswer o m (s1, status, words) =
      if status ≠ St.ok ∧ status ≠ St.dup then (s1.count Csr.hpCctRejects 1).sendHost (.response m.src m.queue o.op status (seqExp s1 m.queue) words)
      else if o.silent = false ∧ (o.answers = true ∨ m.ackreq = true) then s1.sendHost (.response m.src m.queue o.op status (seqExp s1 m.queue) words) else s1 := by
  have hlink : ∀ (x : State) (t : HostTx), x.host = s1.host → sendOn x (viaWay x m.src) t = x.sendHost t := by
    intro x t hx
    refine sendOn_of_up ?_ (by rw [hx]; exact hpaused) t
    rw [viaWay_of_byUdp h, hx, hup]
    exact h.up.2
  unfold cctAnswer
  by_cases hbad : status ≠ St.ok ∧ status ≠ St.dup
  · have hb : (decide (status ≠ St.ok) && decide (status ≠ St.dup)) = true := by simp [hbad]
    simp only [hb, if_true, Bool.true_or, if_pos hbad]
    rw [hlink (s1.count Csr.hpCctRejects 1) _ rfl, seqExp_count _ _ (hpCounter_ne_hqState h.unit).2.1]
  · have hb : (decide (status ≠ St.ok) && decide (status ≠ St.dup)) = false := by simpa using hbad
    simp only [hb, Bool.false_or, if_neg hbad, Bool.false_eq_true, if_false, Bool.and_eq_true, Bool.not_eq_true', Bool.or_eq_true]
    split
    · exact hlink _ _ rfl
    · rfl

/-! ### O33: commands that fail a check -/

/-- The command of an OP is served with what the transport knows of that OP. -/
theorem exec_cctCommandOf {op : Nat} {m : CctMsg} {c : Instr} (h : cctCommandOf op m = some c) :
    (cctOpOf op).op = op ∧ ((cctOpOf op).sequenced = true → (cctOpOf op).silent = false) ∧ ∃ eff, ∀ s, exec c s = cctCommand (cctOpOf op) eff m s := by
  unfold cctCommandOf at h
  split at h
  case h_11 => cases h
  all_goals
    obtain rfl := Option.some.inj h
    exact ⟨rfl, by decide, _, fun _ => rfl⟩

/-- Settles O33: each way in which a command fails a check by the status that it fails with (R442, R443), and the answer that this status is due (R445). -/
theorem transportCommandsAreChecked : Obligations.TransportCommandsAreChecked := by
  unfold Obligations.TransportCommandsAreChecked
  intro op m c s port prio hc hudp hpaused s0
  obtain ⟨hop, hsilent, eff, hexec⟩ := exec_cctCommandOf hc
  obtain ⟨hframes, hrejects, -⟩ := hpCounter_ne_hqState hudp.unit
  have hexp : seqExp s0 m.queue = seqExp s m.queue := seqExp_count s 1 hframes
  rw [hexec, cctCommand_of_byUdp hudp, ← cctDropped_count s hudp.unit]
  refine ⟨fun hd => by rw [cctServe_of_dropped _ _ hd], fun hd hver => ?version, fun hd hver hrsvd hfits hseq hne => ⟨fun hst => ?outOfSeq, fun hst hans => ?dup⟩⟩
  case version =>
    rw [cctServe_of_status eff hd (cctAccept_of_ver _ hver), cctAnswer_of_byUdp (s1 := s0) hudp rfl hpaused, if_pos (by decide), hop, hexp]
  case outOfSeq =>
    have hacc := cctAccept_of_seqStatus (s := s0) hver hrsvd hfits hseq hne (by rw [hexp, hst]; decide)
    rw [hexp, hst] at hacc
    rw [cctServe_of_status eff hd hacc, cctAnswer_of_byUdp (s1 := s0) hudp rfl hpaused, if_pos (by decide), hop, hexp]
  case dup =>
    have hacc := cctAccept_of_seqStatus (s := s0) hver hrsvd hfits hseq hne (by rw [hexp, hst]; decide)
    rw [hexp, hst] at hacc
    rw [cctServe_of_status eff hd hacc, cctAnswer_of_byUdp (s1 := s0) hudp rfl hpaused, if_neg (by decide), hop, hexp, hsilent hseq, hans]
    simp

/-! ### O59: QUEUE_RESTART -/

theorem reg_setFld_of_fld {s : State} {off hi lo v : Nat} (h : lo ≤ hi) (hn : hi < 64) (hv : s.fld off hi lo = v) (off' : Nat) : (s.setFld off hi lo v).reg off' = s.reg off' := by
  by_cases ho : off = off'
  · subst ho
    rw [State.reg_setFld_same, setBf_of_bf h hn hv]
  · exact State.reg_setFld_other _ _ _ _ ho

/-- From `s` to `s'` neither the queues nor the trays nor the cores change, and nothing is sent to the host. -/
structure KeepsQueues (s s' : State) : Prop where
  queues : s'.queues = s.queues
  trays : s'.trays = s.trays
  cores : s'.cores = s.cores
  hostTx : s'.hostTx = s.hostTx

/-- Settles O59: of an accepted command's registers the restart writes the stop bit of its queue alone, which was clear already on a queue that is not stopped (R87, R448). -/
theorem queueRestartRestartsDispatch : Obligations.QueueRestartRestartsDispatch := by
  unfold Obligations.QueueRestartRestartsDispatch
  intro m s port prio hudp hacc hpaused
  have hd : cctDropped (s.count Csr.hpRxFrames 1) m = false := by rw [cctDropped_count s hudp.unit, hacc.kept]
  have hstopped : (accepting opQueueRestart m s).fld (Csr.hqState m.queue) 23 23 = s.fld (Csr.hqState m.queue) 23 23 := by
    change (seqAdvance _ _).fld _ 23 23 = _
    rw [seqAdvance, fld_setFld_apart _ _ _ (by decide) (by decide) (.inr (by decide)), fld_count_other _ _ _ _ (hpCounter_ne_hqState hudp.unit).1]
  have hexec : exec (.queueRestart m) s = .next (cctAnswer opQueueRestart m ((accepting opQueueRestart m s).setFld (Csr.hqState m.queue) 23 23 0, St.ok, [])) := by
    change cctCommand opQueueRestart restartEffect m s = _
    rw [cctCommand_of_byUdp hudp, cctServe_of_ok _ hd (cctAccept_of_accepted hudp.unit hacc rfl), restartEffect]
  have hidle : s.fld (Csr.hqState m.queue) 23 23 = 0 → ∀ off, ((accepting opQueueRestart m s).setFld (Csr.hqState m.queue) 23 23 0).reg off = (accepting opQueueRestart m s).reg off :=
    fun hzero => reg_setFld_of_fld (Nat.le_refl 23) (by decide) (hstopped.trans hzero)
  have hcleared := fld_setFld_same (accepting opQueueRestart m s) (Csr.hqState m.queue) (hi := 23) (lo := 23) 0 (Nat.le_refl 23) (by decide)
  have hother : ∀ off, off ≠ Csr.hqState m.queue → ((accepting opQueueRestart m s).setFld (Csr.hqState m.queue) 23 23 0).reg off = (accepting opQueueRestart m s).reg off :=
    fun off hoff => State.reg_setFld_other _ _ _ _ hoff.symm
  have hrest : KeepsQueues s ((accepting opQueueRestart m s).setFld (Csr.hqState m.queue) 23 23 0) := ⟨rfl, rfl, rfl, rfl⟩
  rw [hexec, cctAnswer_of_byUdp (s1 := (accepting opQueueRestart m s).setFld (Csr.hqState m.queue) 23 23 0) hudp rfl hpaused, if_neg (by decide)]
  generalize (accepting opQueueRestart m s).setFld (Csr.hqState m.queue) 23 23 0 = x at hidle hcleared hother hrest ⊢
  obtain ⟨hqueues, htrays, hcores, hsent⟩ := hrest
  cases m.ackreq
  · rw [if_neg (by simp [opQueueRestart])]
    refine ⟨x, rfl, hcleared, hother, hidle, hqueues, htrays, hcores, ?_⟩
    rw [if_neg Bool.false_ne_true, List.append_nil, hsent]
  · rw [if_pos (by simp [opQueueRestart])]
    refine ⟨_, rfl, hcleared, hother, hidle, hqueues, htrays, hcores, ?_⟩
    rw [if_pos rfl, ← hsent]
    rfl

/-! ### O36: requests of the host -/

theorem hpRxFrames_ne {q : Nat} (hq : q < 1024) : Csr.hpRxFrames ≠ Csr.qpCfg q ∧ Csr.hpRxFrames ≠ Csr.qpKey q := by
  simp only [Csr.hpRxFrames, Csr.qpCfg, Csr.qpKey]
  omega

theorem hpRxFrames_ne_hpEpAeW0 {e : Nat} (he : e < 16) : Csr.hpRxFrames ≠ Csr.hpEpAeW0 e := by
  simp only [Csr.hpRxFrames, Csr.hpEpAeW0]
  omega

section Arrives
variable {s : State} {r : RoceReq} (h : RequestArrives s r)
include h

/-- A request's frames are counted before it is served (R464). -/
theorem requestIn_of_requestArrives (bytes : Nat) (f : State → State) : requestIn r bytes f s = f (counting s r.qp bytes) := by
  obtain ⟨htakes, hce, hsound, -⟩ := h
  simp [requestIn, htakes, rxBuffer_of_rxSound hsound, noteCe, hce, counting, countFrames]

/-- What the pair of an arrived request sends goes to the host at once. -/
theorem sendQp_counting (bytes : Nat) (t : HostTx) : sendQp (counting s r.qp bytes) r.qp t = (counting s r.qp bytes).sendHost t := by
  have hq := lt_of_qpTakes h.1
  obtain ⟨htakes, -, -, hpaused⟩ := h
  simp only [qpTakes, Bool.and_eq_true] at htakes
  have hport : (qpWay (counting s r.qp bytes) r.qp).1 = (qpWay s r.qp).1 := fld_count_other _ _ _ _ (hpRxFrames_ne hq).1
  refine sendOn_of_up (s := counting s r.qp bytes) ?_ hpaused t
  rw [hport]
  exact htakes.2

theorem keyOk_counting (bytes : Nat) : keyOk (counting s r.qp bytes) r = keyOk s r := by
  have hkey : (counting s r.qp bytes).fld (Csr.qpKey r.qp) 63 32 = s.fld (Csr.qpKey r.qp) 63 32 := fld_count_other _ _ _ _ (hpRxFrames_ne (lt_of_qpTakes h.1)).2
  rw [keyOk, keyOk, hkey]
  rfl

theorem qpSpace_counting (bytes : Nat) : qpSpace (counting s r.qp bytes) r.qp = qpSpace s r.qp := fld_count_other _ _ _ _ (hpRxFrames_ne (lt_of_qpTakes h.1)).1

end Arrives

/-- Settles O36: each request is served in the state in which its frames are counted (how many a request counts, and that one which translation or memory refuses counts in MMU_REFUSED, is
the model's choice, log entry 28). -/
theorem hostRequestsAreServed : Obligations.HostRequestsAreServed := by
  unfold Obligations.HostRequestsAreServed
  refine ⟨fun s r h => ?write, fun s r h => ?read, fun s r op m h hq => ?send, fun s r h => ?invalid⟩
  case write =>
    have hexec : exec (.rdmaWrite r) s = .next (rdmaWrite r (counting s r.qp r.data.length)) := congrArg Host.Outcome.next (requestIn_of_requestArrives h _ _)
    refine ⟨fun hkey s1 hw => ?_, fun hkey => ?_⟩
    · rw [hexec, rdmaWrite, keyOk_counting h, hkey, qpSpace_counting h, hw]
      rfl
    · rw [hexec, rdmaWrite, keyOk_counting h, hkey, ← sendQp_counting h]
      rfl
  case read =>
    have hexec : exec (.rdmaReadRequest r) s = .next (rdmaRead r (counting s r.qp 0)) := congrArg Host.Outcome.next (requestIn_of_requestArrives h _ _)
    refine ⟨fun hkey s1 bs hr => ?_, fun hkey s1 e hr => ?_, fun hkey => ?_⟩
    · rw [hexec, rdmaRead, keyOk_counting h, hkey, qpSpace_counting h, hr]
      rfl
    · rw [hexec, rdmaRead, keyOk_counting h, hkey, qpSpace_counting h, hr]
      rfl
    · rw [hexec, rdmaRead, keyOk_counting h, hkey, ← sendQp_counting h]
      rfl
  case send =>
    change (if m.queue < 64 then _ else _) = _
    rw [if_pos hq, requestIn_of_requestArrives h, sendQp_counting h]
  case invalid =>
    rw [← sendQp_counting h]
    exact congrArg Host.Outcome.next (requestIn_of_requestArrives h _ _)

/-! ### O38: host links -/

/-- Whether a pause or a held message is of a priority of a port. -/
def ofPrio {α : Type} (port prio : Nat) (x : Nat × Nat × α) : Bool := x.1 == port && x.2.1 == prio

theorem exec_onHostPort {p : Nat} (h : p < 2) (f : State → State) (s : State) : onHostPort p f s = .next (f s) := if_pos h

/-- Messages sent one after another stand in order at the end of what was sent, and nothing else changes. -/
theorem foldl_sendHost {α : Type} (f : α → HostTx) (l : List α) : ∀ s : State, l.foldl (fun s' x => s'.sendHost (f x)) s = { s with hostTx := s.hostTx ++ l.map f } := by
  induction l with
  | nil => exact fun s => by simp
  | cons x l ih =>
    intro s
    rw [List.foldl_cons, ih]
    simp only [State.sendHost, State.setHostTx, List.map_cons, List.append_assoc, List.singleton_append]

/-- A priority resumed: its pause goes, and what it held is sent in order. -/
theorem resumePrio_eq (s : State) (port prio : Nat) :
    resumePrio s port prio =
      { s with host := { s.host with paused := s.host.paused.filter (fun p => !ofPrio port prio p), held := s.host.held.filter (fun x => !ofPrio port prio x) },
               hostTx := s.hostTx ++ (s.host.held.filter (ofPrio port prio)).map (fun x => x.2.2) } :=
  foldl_sendHost (fun x : Nat × Nat × HostTx => x.2.2) _ _

/-- Settles O38: a pause replaces the pause of its priority, and a resumed priority sends what it held, in order (that it is kept is the model's choice, log entry 46). -/
theorem hostLinksPauseAndCount : Obligations.HostLinksPauseAndCount := by
  unfold Obligations.HostLinksPauseAndCount
  refine ⟨fun s port prio quanta hport hprio hq hen hup hpfc => ?pause, fun s port prio hport => ?resume, fun s port hport hallowed => ?up, fun s port hport => ?down,
    fun s port f hport hen hup hbad => ?drop⟩
  case pause =>
    refine ⟨pausePrio (s.count Csr.hpRxFrames 1) port prio quanta, ?_, ?_⟩
    · refine (exec_onHostPort hport _ s).trans ?_
      simp [hen, hup, hprio, countFrames]
    · have hbit : bit ((s.count Csr.hpRxFrames 1).reg Csr.hpCtl) (8 + prio) = true := by
        rw [State.reg_count_other _ _ (by decide), hpfc]
      simp only [pausePrio, hbit, Bool.not_true, Bool.false_eq_true, if_false, if_neg (Nat.ne_of_gt hq)]
      refine ⟨List.mem_append_right _ (List.mem_singleton_self _), State.reg_count_same _ _ _, fun p hp hp1 hp2 => ?_, rfl⟩
      rcases List.mem_append.mp hp with hp | hp
      · simp [hp1, hp2] at hp
      · rw [List.mem_singleton.mp hp]
  case resume =>
    refine ⟨resumePrio s port prio, exec_onHostPort hport (fun x => resumePrio x port prio) s, ?_⟩
    rw [resumePrio_eq]
    refine ⟨fun p hp h => ?_, rfl, rfl⟩
    have hnot := (List.mem_filter.mp hp).2
    simp [ofPrio, h] at hnot
  case up =>
    refine ⟨_, (exec_onHostPort hport _ s).trans (congrArg Host.Outcome.next (if_pos hallowed)), Vec.get_put_same _ _ _ hport, fun p _ hne => Vec.get_put_other _ _ _ hne.symm⟩
  case down =>
    refine ⟨hostDown s port, exec_onHostPort hport (fun x => hostDown x port) s, Vec.get_put_same _ _ _ hport, fun p hp => ?_, fun p _ hne => Vec.get_put_other _ _ _ hne.symm⟩
    exact bne_iff_ne.mp (List.mem_filter.mp hp).2
  case drop =>
    refine (exec_onHostPort hport _ s).trans (congrArg Host.Outcome.next ?_)
    simp [frameDrop, hen, hup, hbad]

end Sys2Proof.Machine
end

section
/-! PROOFS. Two statements that do not hold: a reply whose words do not stand from the seventh receive word on (R477, R504), and an idle cycle that counts a held vector step (R300). -/

namespace Sys2Proof.Machine

open Sys2Proof.Claims

/-! ### The counterexample: a reply that carries a byte of data before its words -/

/-- A delivered MGT_REPLY of one zero word, behind one byte of data. -/
def replyWithData : StnMsg := { StnMsg.blank 0x12 with ver := 0, route := [15], words := [0], data := [1] }

/-- Port 0 is UP, and the mailbox's receive words are free. -/
def portUp : State := modSport State.reset 0 (fun p => { p with state := 4 })

theorem reaches_portUp : Reaches portUp 0 replyWithData :=
  { unit := by decide, up := by decide +kernel, version := by decide +kernel, buffer := .inl (by decide +kernel) }

/-- The seventh receive word, the first behind the header, begins with the byte of data. -/
theorem stnMbxRx_mailboxTake_portUp : (mailboxTake (freeBuffer portUp 0 replyWithData) replyWithData).reg (Csr.stnMbxRx 6) = 1 := by decide +kernel

theorem exec_mgtReply_portUp : exec (.mgtReply 0 replyWithData) portUp = .next (mailboxTake (freeBuffer portUp 0 replyWithData) replyWithData) := rfl

/-- Refutes O42: the receive words take a message's header, its data and its words in this order, as its flits carry them (R477; where the words of a reply lie is the model's choice, log
entry 33), and nothing in the statement keeps data out of a reply; with a byte of data the words do not stand from the seventh receive word on. -/
theorem not_controlAndManagementMessagesAct : ¬ Obligations.ControlAndManagementMessagesAct := by
  unfold Obligations.ControlAndManagementMessagesAct
  intro h
  obtain ⟨-, -, -, -, -, hreply⟩ := h
  obtain ⟨s', hexec, -, -, hwords⟩ := hreply portUp 0 replyWithData reaches_portUp rfl
  obtain rfl := Host.Outcome.next.inj (exec_mgtReply_portUp.symm.trans hexec)
  have hword := hwords (by decide +kernel) 0 (by decide)
  rw [stnMbxRx_mailboxTake_portUp] at hword
  exact absurd hword (by decide)

/-! ### The counterexample: a vector step that waits for its operand -/

/-- A released VXP.CPR with number 0, whose one step is queued. -/
def heldCopy : Inst := { newInst (Tray.reset 0) .cpr 0 [] with released := true, planned := true, running := 1 }

/-- Its step, in the queue of the vector engine. -/
def heldVecStep : Step := { tray := 0, seq := 0, kind := .vector, tile := 0, k := 0, cyc := 0, ord := 0 }

/-- The stream of its operand SRCA, of which no slot holds a block yet. -/
def emptyStream : Stream :=
  { tray := 0, seq := 0, role := .srca, base := 0, slotBytes := 128, fill := [], next := none, slots := [], started := 0, issued := true, held := false, spilled := [], event := 0 }

/-- Tray 0 runs the copy, and core 0's vector engine holds its step until the block comes; no command waits, and no Sieve has work. -/
def heldVector : State :=
  ((State.reset.setTray 0 { Tray.reset 0 with state := .run, insts := [heldCopy], nextSeq := 1 }).modVec 0 (fun v => { v with queue := [heldVecStep] })).modCore 0
    (fun c => { c with proofer := { c.proofer with streams := [emptyStream] } })

theorem sieves_heldVector : ∀ c < 4, (sieve heldVector c).groups = [] ∧ (sieve heldVector c).lanes = [] := by decide +kernel

/-- The cycle that passes counts the held step in VXE_HOLDS of core 0 (R300). -/
theorem vxeHolds_heldVector : (idleTick heldVector).reg (Csr.vxeHolds 0) = 1 ∧ heldVector.reg (Csr.vxeHolds 0) = 0 := by decide +kernel

/-- Refutes O53: of the registers that a cycle without a command may change the statement excepts the counts of late cycles alone, and a cycle in which a vector step waits for its operand is
counted in VXE_HOLDS too (R300, R355; that a cycle passes at all is the model's choice, log entry 2). -/
theorem not_stepRunsTheFrontCommand : ¬ Obligations.StepRunsTheFrontCommand := by
  unfold Obligations.StepRunsTheFrontCommand
  intro h
  obtain ⟨s', hstep, -, -, -, -, hkept⟩ := h.2 heldVector rfl
  obtain ⟨-, -, -, hreg⟩ := hkept sieves_heldVector
  obtain rfl := Host.Outcome.next.inj ((step_of_pending_nil rfl).symm.trans hstep)
  have hsame := hreg (Csr.vxeHolds 0) (by decide)
  rw [vxeHolds_heldVector.1, vxeHolds_heldVector.2] at hsame
  exact absurd hsame (by decide)

end Sys2Proof.Machine
end

section
/-! PROOFS. The Hearth: what a reset leaves of the main logic and keeps of the Hearth (R511, R529, R534), the open requests of its management protocol (R548, R553), and the reads of the side-band (R550, R555). -/

namespace Sys2Proof.Machine

open Sys2Proof.Claims

/-! ### The main logic switched off -/

theorem tab_get_filter_dropped {α : Type} (d : α) (t : Tab α) {p : Nat → Bool} {k : Nat} (h : p k = false) : Tab.get d (t.filter (fun x => p x.1)) k = d := by
  induction t with
  | nil => rfl
  | cons x t ih =>
    obtain ⟨j, v⟩ := x
    rw [List.filter_cons]
    split
    · next hj =>
      have hne : j ≠ k := fun hjk => by
        rw [hjk, h] at hj
        cases hj
      rw [Tab.get, if_neg hne, ih]
    · exact ih

theorem mainIsReset_mainOff (s : State) (keepPll : Bool) : MainIsReset (mainOff s keepPll) := by
  refine ⟨fun t ht => ?_, fun off hoff => tab_get_filter_dropped _ s.regs hoff, rfl, rfl⟩
  have htray : (mainOff s keepPll).tray t = Tray.reset t := by simp [mainOff, State.tray, Vec.get, ht]
  rw [htray]
  rfl

/-- What the Hearth does in its own state, with its domains and with the module's hardware leaves the main logic reset. -/
theorem mainIsReset_of_touch {F : Parts} {s s' : State} (hs : MainIsReset s) (h : Touch F s s') (htrays : F.trays = false) (hregs : F.regs = false) (hpoison : F.poison = false)
    (herr : F.errLog = false) : MainIsReset s' := by
  obtain ⟨hidle, hreg, hp, he⟩ := hs
  refine ⟨fun t ht => ?_, fun off hoff => ?_, (h.poison hpoison).trans hp, (h.errLog herr).trans he⟩
  · rw [State.tray, h.trays htrays]
    exact hidle t ht
  · rw [State.reg, h.regs hregs]
    exact hreg off hoff

/-- With the main logic off no domain is on but the Hearth's, and the root PLL's where it is kept. -/
theorem domState_mainOff {s : State} {keepPll : Bool} {d : Nat} (hd : d < 125) (hon : domState (mainOff s keepPll) d = .on) : d = 122 ∨ (d = 123 ∧ keepPll = true ∧ domOn s 123 = true) := by
  have hreset : ∀ e < 125, Vec.get (Power.reset s.arrayMask).doms e .off = .on → e = 122 := by
    intro e he h
    simp only [Power.reset, Vec.get, he, dif_pos, Vector.getElem_ofFn] at h
    by_contra hne
    rw [if_neg hne] at h
    split at h <;> cases h
  have hdoms : (mainOff s keepPll).power.doms = if (keepPll && domOn s 123) = true then Vec.put (Power.reset s.arrayMask).doms 123 .on else (Power.reset s.arrayMask).doms := rfl
  rw [domState, hdoms] at hon
  split at hon
  · next hpll =>
    by_cases h123 : d = 123
    · exact .inr ⟨h123, Bool.and_eq_true_iff.mp hpll⟩
    · rw [Vec.get_put_other _ _ _ (Ne.symm h123)] at hon
      exact .inl (hreset d hd hon)
  · exact .inl (hreset d hd hon)

/-- Parts that the Hearth changes of its own: its state, the domains and the module's hardware. -/
def hearthOnly : Parts := { hearth := true, power := true, modhw := true }

theorem mainIsReset_of_hearthOnly {s s' : State} (hs : MainIsReset s) (h : Touch hearthOnly s s') : MainIsReset s' := mainIsReset_of_touch hs h rfl rfl rfl rfl

/-! ### Resets -/

section Resets
variable (s : State) (cause : Nat)

theorem touch_hearthClear_refl : Touch hearthOnly s (hearthClear s cause) := by apply touch_hearthClear _ _ (.refl _ _) <;> rfl

theorem touch_hearthEvent_refl (detail : Nat) : Touch hearthOnly s (hearthEvent s cause detail) := touch_hearthEvent _ _ _ (.refl _ _) rfl

theorem mainIsReset_hearthClear (hs : MainIsReset s) : MainIsReset (hearthClear s cause) := mainIsReset_of_hearthOnly hs (touch_hearthClear_refl s cause)

theorem mainIsReset_modHearth (hs : MainIsReset s) (f : Hearth → Hearth) : MainIsReset (s.modHearth f) := hs

theorem mainIsReset_romStart : MainIsReset (romStart s cause) := mainIsReset_modHearth _ (mainIsReset_hearthClear _ _ (mainIsReset_mainOff s false)) _

theorem mainIsReset_holdAll : MainIsReset (holdAll s) := mainIsReset_modHearth _ (mainIsReset_romStart s _) _

theorem mainIsReset_powerOnReset : MainIsReset (powerOnReset s cause) := mainIsReset_of_hearthOnly (mainIsReset_romStart s cause) (touch_State_setPower _ (.refl _ _) rfl)

theorem mainIsReset_moduleReset : MainIsReset (moduleReset s cause) :=
  mainIsReset_of_hearthOnly (mainIsReset_hearthClear _ _ (mainIsReset_mainOff s true)) (touch_startImages _ (touch_logCalLost _ (.refl _ _) rfl) rfl)

theorem mainIsReset_inputOpens : MainIsReset (inputOpens s cause) := mainIsReset_holdAll s

end Resets

/-! ### What the Hearth keeps over a reset -/

theorem hearthWhen_of {s : State} {ok : Bool} (hrun : s.hearth.running = true) (hok : ok = true) (f : State → State) : hearthWhen s ok f = .next (f s) := by
  simp [hearthWhen, hrun, hok]

/-- What the reset kinds keep of the Hearth's state, and what they leave of the boot (R534). -/
structure Restarted (s s' : State) (stage cause : Nat) : Prop where
  keeps : Keeps s s'
  running : s'.hearth.running = s.hearth.running
  stage : s'.hearth.stage = stage
  cause : s'.hearth.cause = cause
  tries : s'.hearth.tries = 0
  thermalStop : s'.hearth.thermalStop = false

/-- Of the Hearth's state an entry of the event log changes that log alone. -/
theorem hearth_hearthLog (s : State) (code detail : Nat) : ∃ events, hearthLog s code detail = s.modHearth (fun h => { h with events := events }) := by
  unfold hearthLog State.modHearth
  exact ⟨_, rfl⟩

/-- An event is logged and sent. -/
theorem hearth_hearthEvent (s : State) (code detail : Nat) :
    ∃ events, hearthEvent s code detail = s.modHearth (fun h => { h with events := events, side := h.side ++ [.event h.peer code h.calSeconds h.calValid detail] }) := by
  obtain ⟨events, hlog⟩ := hearth_hearthLog s code detail
  rw [hearthEvent, hlog]
  exact ⟨events, rfl⟩

theorem hearth_logCalLost (s : State) : ∃ events lost, (logCalLost s).hearth = { s.hearth with events := events, calLost := lost } := by
  unfold logCalLost
  split
  · obtain ⟨events, hlog⟩ := hearth_hearthLog s HC.calLost 0
    rw [hlog]
    exact ⟨events, false, rfl⟩
  · exact ⟨s.hearth.events, s.hearth.calLost, rfl⟩

theorem restarted_moduleReset (s : State) (cause : Nat) : Restarted s (moduleReset s cause) 1 cause := by
  obtain ⟨events, lost, hlog⟩ := hearth_logCalLost (hearthClear (mainOff s true) cause)
  have hhearth : (moduleReset s cause).hearth = { (extendM (logCalLost (hearthClear (mainOff s true) cause)) 0 (romMeasure (logCalLost (hearthClear (mainOff s true) cause)))).hearth with stage := 1, round := 1, src := 0 } := rfl
  have hextend : ∀ (x : State) (i : Nat) (v : List Byte), (extendM x i v).hearth = { x.hearth with m := (extendM x i v).hearth.m } := fun _ _ _ => rfl
  rw [hextend, hlog] at hhearth
  have hclear : (hearthClear (mainOff s true) cause).hearth = (hearthClear s cause).hearth := rfl
  rw [hclear] at hhearth
  have hfields : Keeps s (hearthClear s cause) ∧ (hearthClear s cause).hearth.running = s.hearth.running := ⟨⟨rfl, rfl, rfl, rfl, rfl, rfl⟩, rfl⟩
  exact { keeps := by rw [Keeps, hhearth]; exact hfields.1, running := by rw [hhearth]; exact hfields.2, stage := by rw [hhearth], cause := by rw [hhearth]; rfl,
          tries := by rw [hhearth]; rfl, thermalStop := by rw [hhearth]; rfl }

theorem keeps_trans {a b c : State} (h1 : Keeps a b) (h2 : Keeps b c) : Keeps a c := by
  obtain ⟨f1, d1, v1, p1, m1, n1⟩ := h1
  obtain ⟨f2, d2, v2, p2, m2, n2⟩ := h2
  exact ⟨f2.trans f1, d2.trans d1, v2.trans v1, p2.trans p1, m2.trans m1, n2.trans n1⟩

theorem keeps_modPower (s : State) (f : Power → Power) : Keeps s (s.modPower f) := ⟨rfl, rfl, rfl, rfl, rfl, rfl⟩

theorem keeps_hearthEvent (s : State) (code detail : Nat) : Keeps s (hearthEvent s code detail) := by
  obtain ⟨events, hevent⟩ := hearth_hearthEvent s code detail
  rw [hevent]
  exact ⟨rfl, rfl, rfl, rfl, rfl, rfl⟩

theorem keeps_romStart (s : State) (cause : Nat) : Keeps s (romStart s cause) := ⟨rfl, rfl, rfl, rfl, rfl, rfl⟩

/-- Settles O47: each reset switches the main logic off and clears the Hearth's counts of the boot. (That a thermal shutdown and an unlock leave no poison and the registers of the main logic at
their reset values is the model's reading, log entry 37.) -/
theorem resetsClearTheMainLogic : Obligations.ResetsClearTheMainLogic := by
  unfold Obligations.ResetsClearTheMainLogic
  refine ⟨fun s hrun hon hlock hstage => ?lock, fun s hrun hlock => ?unlock, fun s hrun htj hstop => ?shutdown, fun s hrun hstop hcool htj => ?restart, fun s hadm href hrun => ?powerOn, fun s hrun => ?watchdog⟩
  case lock =>
    refine ⟨_, (hearthWhen_of hrun (by simp [domOn, hon, hlock]) _ : execPllLock s = _), ?_, ?_⟩
    · rw [if_neg (show (s.modPower (fun p => { p with locked := true })).hearth.stage ≠ 3 from hstage)]
      rfl
    · rw [if_neg (show (s.modPower (fun p => { p with locked := true })).hearth.stage ≠ 3 from hstage)]
      rfl
  case unlock =>
    refine ⟨_, (hearthWhen_of hrun hlock _ : execPllUnlock s = _), mainIsReset_moduleReset _ _, ?_⟩
    obtain ⟨hkeeps, -, hstage, hcause, htries, -⟩ := restarted_moduleReset ((hearthEvent (s.count Csr.clkUnlocks 1) HC.clockUnlock 0).modPower (fun p => { p with locked := false })) 4
    exact ⟨keeps_trans (keeps_hearthEvent (s.count Csr.clkUnlocks 1) HC.clockUnlock 0) (keeps_trans (keeps_modPower _ _) hkeeps), hstage, hcause, htries⟩
  case shutdown =>
    obtain ⟨events, hevent⟩ := hearth_hearthEvent (mainOff s false) FC.thermalShutdown 0
    have hexec : exec .thermalShutdown s = _ := (hearthWhen_of hrun (by simp [htj, hstop]) _ : execThermalShutdown s = _)
    have hreset := mainIsReset_of_hearthOnly (mainIsReset_mainOff s false) (touch_hearthEvent_refl _ FC.thermalShutdown 0)
    rw [hevent] at hexec hreset
    refine ⟨_, hexec, hreset,
      ⟨rfl, rfl, rfl, rfl, rfl, rfl⟩, rfl, rfl, fun d hd hon => ?_⟩
    obtain h122 | ⟨-, hkeep, -⟩ := domState_mainOff hd hon
    · exact h122
    · cases hkeep
  case restart =>
    refine ⟨_, (hearthWhen_of hrun (by simp [hstop, hcool, htj]) _ : execThermalRestartTimer s = _), fun hpol => ?_, fun hpol => ?_⟩
    · rw [if_pos hpol]
      obtain ⟨hkeeps, -, hstage, hcause, -, hthermal⟩ := restarted_moduleReset s 5
      exact ⟨mainIsReset_moduleReset _ _, hkeeps, hstage, hcause, hthermal⟩
    · rw [if_neg (by simp [hpol])]
      exact ⟨rfl, rfl⟩
  case powerOn =>
    have hexec : exec .powerOn s = .next (powerOnReset s 0) := congrArg Host.Outcome.next (if_pos (by simp [hadm, href, hrun]))
    exact ⟨_, hexec, mainIsReset_powerOnReset _ _, keeps_romStart s 0, rfl, rfl, rfl, rfl⟩
  case watchdog =>
    exact ⟨_, (hearthWhen_of hrun rfl _ : execHearthWatchdog s = _), mainIsReset_romStart _ _, keeps_romStart s 2, rfl, rfl, rfl⟩

/-! ### Requests of the Hearth Management Protocol (R551, R553) -/

/-- A request that the Hearth takes and whose arguments pass is answered OK before it acts. -/
theorem hmpOpen_of_requests {s : State} {r : HmpReq} (h : Requests s r) {op chk : Nat} {out : List Byte} {eff : State → State} (hchk : chk = 0) :
    hmpOpen op r chk out eff s = eff (hmpReply s op r 0 out) := by
  obtain ⟨hrun, hflags, hhead⟩ := h
  simp [hmpOpen, hrun, hflags, hhead, hchk, HmpStatus.ok]

theorem length_leBytes (n : Nat) : ∀ v : Nat, (leBytes n v).length = n := by
  induction n with
  | zero => exact fun _ => rfl
  | succ n ih => exact fun v => congrArg Nat.succ (ih (v / 256))

theorem length_fitTo (n : Nat) (l : List Byte) : (fitTo n l).length = n := by
  simp [fitTo]

/-- The report's length is that of its layout: 356 bytes of the module, the public key, and two signatures (R548). -/
theorem length_buildReport {s : State} {nonce : List Byte} (hnonce : nonce.length = 64) (hm : ∀ i < 4, (Vec.get s.hearth.m i []).length = 64) : (buildReport s nonce).length = 12202 := by
  have hms : ((List.range 4).flatMap (fun i => Vec.get s.hearth.m i [])).length = 256 := by
    simp [List.range_succ, hm]
  simp only [buildReport, List.length_append, length_leBytes, length_fitTo, hnonce, hms]

/-- The nonce stands behind the mark and the serial number (R548). -/
theorem nonce_buildReport {s : State} {nonce : List Byte} (hnonce : nonce.length = 64) : ((buildReport s nonce).drop 16).take 64 = nonce := by
  have hhead : (leBytes 8 0x3154505241544543 ++ leBytes 8 s.serial.toNat).length = 16 := by simp [length_leBytes]
  simp only [buildReport, List.append_assoc]
  rw [← List.append_assoc, List.drop_left' hhead, List.take_left' hnonce]

/-- Settles O49: each request passes the checks and is answered (the places of its arguments and of the answer's bytes are the model's choice, log entry 34). -/
theorem openRequestsAreAnswered : Obligations.OpenRequestsAreAnswered := by
  unfold Obligations.OpenRequestsAreAnswered
  refine ⟨fun s r h hp => ?status, fun s r h hp => ?telemetry, fun s r o h hp ho hn hoff hbusy => ?read, fun s r h hp hbusy hkey hm => ?attest⟩
  case status => exact congrArg Host.Outcome.next (hmpOpen_of_requests h (by rw [hp]; rfl))
  case telemetry => exact congrArg Host.Outcome.next (hmpOpen_of_requests h (by rw [hp]; rfl))
  case read =>
    have hexec : execObjRead r s = .next (hmpReply s 0x03 r 0 ((((hmpObject s (arg r 0 1)).getD []).drop (arg r 1 4)).take (arg r 5 2))) := by
      refine congrArg Host.Outcome.next (hmpOpen_of_requests h ?_)
      have hfree : ¬ (arg r 0 1 = 2 ∧ s.hearth.attesting = true) := fun hb => Bool.false_ne_true ((hbusy hb.1).symm.trans hb.2)
      simp [hmpChk, hp, ho, hn, hoff, hfree]
    rw [ho] at hexec
    exact hexec
  case attest =>
    have hexec : execAttest r s = .next ((hmpReply s 0x04 r 0 (leBytes 4 12202)).modHearth (fun h => { h with report := buildReport s r.payload, attesting := true })) :=
      congrArg Host.Outcome.next (hmpOpen_of_requests h (by simp [hmpChk, hp, hbusy, hkey]))
    exact ⟨_, hexec, rfl, rfl, length_buildReport hp hm, nonce_buildReport hp⟩

/-! ### The side-band's addresses and the SMBus target (R550, R555) -/

/-- Within the FRU area a block's bytes are those of the flash. -/
theorem fruByte_block {s : State} {o : Nat} (ho : o ≤ 480) : (List.range 32).map (fun i => fruByte s (o + i)) = flashBytes s (idArea + 0x2000 + o) 32 := by
  refine List.map_congr_left (fun i hi => ?_)
  have hlt : o + i < 512 := by
    have := List.mem_range.mp hi
    omega
  rw [fruByte, if_pos hlt, ← Nat.add_assoc]

/-- Settles O51: an address of the Hearth's own is answered, and each read in its units. (The PEC is presumed, log entry 34; the places in the identity area and the rounding of the power are the
model's choice, log entries 35 and 39.) -/
theorem sideBandReadsAreAnswered : Obligations.SideBandReadsAreAnswered := by
  unfold Obligations.SideBandReadsAreAnswered
  refine ⟨fun s ip hrun hip hne => ?arp, fun s ip hrun hip => ?solicitation, fun s off hrun hoff => ?offset, fun s hrun hoff => ?block, fun s hrun => ⟨?voltage, ?power, ?tj, ?state, ?lastFail⟩⟩
  case arp => exact ⟨_, (hearthWhen_of hrun (by simp [hip, hne]) _ : execArpRequest ip s = _), rfl⟩
  case solicitation =>
    have hown : (linkLocal s == ip || (s.hearth.ipv6 != 0 && s.hearth.ipv6 == ip)) = true := by
      obtain hlocal | ⟨hglobal, hne⟩ := hip
      · simp [hlocal]
      · simp [hglobal, hne]
    exact ⟨_, (hearthWhen_of hrun hown _ : execNeighborSolicitation ip s = _), rfl⟩
  case offset => exact ⟨_, (hearthWhen_of hrun rfl _ : execSmbFruOffsetSet off s = _), Nat.mod_eq_of_lt hoff, rfl⟩
  case block =>
    refine ⟨_, (hearthWhen_of hrun rfl _ : execSmbFruBlockRead s = _), Nat.mod_eq_of_lt (by omega), ?_⟩
    rw [← fruByte_block hoff]
    rfl
  case voltage => exact ⟨_, (hearthWhen_of hrun rfl _ : execSmbReadVoltage s = _), rfl⟩
  case power => exact ⟨_, (hearthWhen_of hrun rfl _ : execSmbReadPower s = _), rfl⟩
  case tj => exact ⟨_, (hearthWhen_of hrun rfl _ : execSmbReadTj s = _), rfl⟩
  case state => exact ⟨_, (hearthWhen_of hrun rfl _ : execSmbReadHrtState s = _), rfl⟩
  case lastFail => exact ⟨_, (hearthWhen_of hrun rfl _ : execSmbReadLastFail s = _), rfl⟩

end Sys2Proof.Machine
end

section
/-! PROOFS. The power state: the writes of the mode, the profile and the domains (R460, R514, R526), the governor's windows and the junction sensors (R520 to R528). -/

namespace Sys2Proof.Machine

open Sys2Proof.Claims

/-! ### Writes of HP_CTL and PWR_CTL -/

/-- A stored field after a write, under its own access code. -/
theorem fld_storeWrite {s : State} {off : Nat} {d : RegDef} {i j : Nat} (h : RegMap.find off = some (d, i, j)) (k : Nat) (v : Reg) {f : RField} (hf : f ∈ d.fields) :
    (storeWrite s off d k v).fld off f.hi f.lo = fieldAfter (busyNow s d.busy k) (s.reg off) v f := by
  rw [State.fld, reg_storeWrite h, writeFields_eq_foldl, bf_foldl_writeField (RegMap.fieldsApart_of_mem_all (RegMap.mem_all_of_find h)) (fun _ _ => rfl) hf]

/-- HP_CTL: its mode is written while the port is idle. -/
def hpCtlDef : RegDef := ⟨"HP_CTL", 0x110000, 1, 0, 1, 0, .hp, [⟨63, 48, .rwl, 23100⟩, ⟨31, 31, .ro, 0⟩, ⟨30, 30, .ro, 0⟩, ⟨15, 8, .rwl, 0⟩, ⟨1, 0, .rwl, 0⟩]⟩

theorem find_hpCtl : RegMap.find Csr.hpCtl = some (hpCtlDef, 0, 0) := by decide +kernel

/-- PWR_CTL: the profile is its lowest field. -/
def pwrCtlDef : RegDef := ⟨"PWR_CTL", 0x200000, 1, 0, 1, 0, .none, [⟨63, 48, .rw, 50⟩, ⟨41, 36, .rw, 10⟩, ⟨20, 10, .rw, 1000⟩, ⟨2, 0, .rw, 2⟩]⟩

theorem find_pwrCtl : RegMap.find Csr.pwrCtl = some (pwrCtlDef, 0, 0) := by decide +kernel

theorem mode_storeWrite {s : State} (h : hpBusy s = false) (v : Reg) : (storeWrite s Csr.hpCtl hpCtlDef 0 v).fld Csr.hpCtl 1 0 = bf v 1 0 := by
  have hbusy : busyNow s hpCtlDef.busy 0 = false := h
  rw [fld_storeWrite find_hpCtl 0 v (f := ⟨1, 0, .rwl, 0⟩) (by decide), hbusy]
  rfl

/-- A write of PWR_CTL changes that register alone. -/
theorem storeWrite_pwrCtl (s : State) (v : Reg) : storeWrite s Csr.pwrCtl pwrCtlDef 0 v = s.setReg Csr.pwrCtl (writeFields pwrCtlDef false (s.reg Csr.pwrCtl) v) := rfl

theorem profile_storeWrite (s : State) (v : Reg) : profileOf (storeWrite s Csr.pwrCtl pwrCtlDef 0 v) = if bf v 2 0 < 5 then bf v 2 0 else 2 := by
  rw [profileOf, fld_storeWrite find_pwrCtl 0 v (f := ⟨2, 0, .rw, 2⟩) (by decide)]
  rfl

/-! ### Domains that switch off (R514, R526) -/

theorem domState_setDom_same (s : State) {d : Nat} (h : d < 125) (x : DomState) : domState (setDom s d x) d = x := Vec.get_put_same _ _ _ h

theorem domState_setDom_other (s : State) {d e : Nat} (h : d ≠ e) (x : DomState) : domState (setDom s d x) e = domState s e := Vec.get_put_other _ _ _ h

/-- An idle domain either stays as it is or, from on, begins to switch off. -/
theorem idleOff_cases (s : State) (d : Nat) : idleOff s d = s ∨ (idleOff s d = setDom s d .switchingOff ∧ domState s d = .on) := by
  unfold idleOff beginOff
  by_cases hon : domOn s d = true
  · rw [if_pos hon]
    split
    · exact .inr ⟨rfl, eq_of_beq hon⟩
    · exact .inl rfl
  · rw [if_neg hon, ite_self]
    exact .inl rfl

theorem idleOff_of_idle {s : State} {d : Nat} (hauto : isAuto d = true) (hon : domState s d = .on) (hidle : domIdle s d = true) (hheld : heldByHost s d = false) :
    idleOff s d = setDom s d .switchingOff := by
  simp [idleOff, beginOff, domOn, hauto, hon, hidle, hheld]

/-- What decides of an idle domain is the same after another began to switch off. -/
theorem idle_idleOff (s : State) (d e : Nat) : domIdle (idleOff s e) d = domIdle s d ∧ heldByHost (idleOff s e) d = heldByHost s d := by
  obtain h | ⟨h, -⟩ := idleOff_cases s e <;> rw [h] <;> exact ⟨rfl, rfl⟩

theorem domState_idleOff_of_not_on {s : State} {d e : Nat} (h : domState s d ≠ .on) : domState (idleOff s e) d = domState s d := by
  obtain hkeep | ⟨hoff, hon⟩ := idleOff_cases s e
  · rw [hkeep]
  · rw [hoff, domState_setDom_other]
    rintro rfl
    exact h hon

theorem domState_foldl_idleOff_of_not_on {d : Nat} (l : List Nat) : ∀ {s : State}, domState s d ≠ .on → domState (l.foldl idleOff s) d = domState s d := by
  induction l with
  | nil => exact fun _ => rfl
  | cons e l ih =>
    intro s h
    have hstep := domState_idleOff_of_not_on (e := e) h
    rw [List.foldl_cons, ih (by rwa [hstep]), hstep]

/-- Of a list of domains each idle one that is on begins to switch off. -/
theorem domState_foldl_idleOff {d : Nat} (hd : d < 125) (hauto : isAuto d = true) (l : List Nat) :
    ∀ {s : State}, d ∈ l → domState s d = .on → domIdle s d = true → heldByHost s d = false → domState (l.foldl idleOff s) d = .switchingOff := by
  induction l with
  | nil => exact fun h => absurd h List.not_mem_nil
  | cons e l ih =>
    intro s hmem hon hidle hheld
    rw [List.foldl_cons]
    by_cases hde : d = e
    · subst hde
      rw [idleOff_of_idle hauto hon hidle hheld, domState_foldl_idleOff_of_not_on, domState_setDom_same _ hd]
      rw [domState_setDom_same _ hd]
      exact DomState.noConfusion
    · have hstay : domState (idleOff s e) d = .on := by
        obtain hkeep | ⟨hoff, -⟩ := idleOff_cases s e
        · rw [hkeep, hon]
        · rw [hoff, domState_setDom_other _ (Ne.symm hde), hon]
      obtain ⟨hi, hh⟩ := idle_idleOff s d e
      exact ih ((List.mem_cons.mp hmem).resolve_left hde) hstay (hi.trans hidle) (hh.trans hheld)

theorem regs_foldl_idleOff (l : List Nat) : ∀ s : State, (l.foldl idleOff s).regs = s.regs := by
  induction l with
  | nil => exact fun _ => rfl
  | cons e l ih =>
    intro s
    rw [List.foldl_cons, ih]
    obtain h | ⟨h, -⟩ := idleOff_cases s e <;> rw [h]
    rfl

theorem isAuto_of_gated {s : State} {d : Nat} (h : d ∈ gatedDoms s) : isAuto d = true := by
  simp only [gatedDoms, List.mem_flatMap, List.mem_range, List.mem_append] at h
  obtain ⟨c, hc, h | h⟩ := h
  all_goals
    split at h
    · obtain rfl := List.mem_singleton.mp h
      revert c
      decide
    · cases h

theorem gatedDoms_of_regs {s s' : State} (h : s'.regs = s.regs) : gatedDoms s' = gatedDoms s ∧ profileOf s' = profileOf s := by
  have hprofile : profileOf s' = profileOf s := by
    rw [profileOf, State.fld, State.reg, h]
    rfl
  refine ⟨?_, hprofile⟩
  rw [gatedDoms, sieveGated, levainGated, hprofile]
  rfl

/-! ### A write of PWR_DOM_ON (R514, R516) -/

/-- Every bit of the written half, and what a bit asks of its domain. -/
def domOnBit (half : Nat) (v : Reg) (s : State) (b : Nat) : State :=
  let d := 64 * half + b
  if fusedDomain s.arrayMask d then s
  else
    let s1 := s.setFld (if half = 0 then Csr.pwrDomOn0 else Csr.pwrDomOn1) b b (b2n (bit v b))
    if bit v b then (if (isAuto d && !(gatedDoms s1).contains d) || (isHeld d && !fabricHolds s1 d) then requestWake s1 d else s1)
    else if isHeld d then beginOff s1 d else s1

theorem writeDomOn_of_idle {s : State} (h : domOnBusy s = false) (half : Nat) (v : Reg) :
    writeDomOn s half v = (List.range (if half = 0 then 64 else 61)).foldl (domOnBit half v) s := by
  rw [writeDomOn, h]
  rfl

theorem part_domOnBit (half : Nat) (v : Reg) (s : State) (b : Nat) : (domOnBit half v s b).part = s.part := by
  unfold domOnBit
  dsimp only
  generalize hx : s.setFld (if half = 0 then Csr.pwrDomOn0 else Csr.pwrDomOn1) b b (b2n (bit v b)) = x
  have hpart : x.part = s.part := hx ▸ rfl
  split_ifs <;> simp only [part_requestWake, part_beginOff, hpart]

/-- A bit's write stores its own field; what it asks of its domain is no register. -/
theorem regs_domOnBit {half : Nat} {s : State} {b : Nat} (h : fusedDomain s.arrayMask (64 * half + b) = false) (v : Reg) :
    (domOnBit half v s b).regs = (s.setFld (if half = 0 then Csr.pwrDomOn0 else Csr.pwrDomOn1) b b (b2n (bit v b))).regs := by
  unfold domOnBit
  dsimp only
  rw [if_neg (by rw [h]; exact Bool.false_ne_true)]
  generalize s.setFld (if half = 0 then Csr.pwrDomOn0 else Csr.pwrDomOn1) b b (b2n (bit v b)) = x
  split_ifs <;> simp only [regs_requestWake, regs_beginOff]

theorem fld_domOnBit_other {half : Nat} {s : State} {b b' : Nat} (hb : b < 64) (hne : b ≠ b') (v : Reg) :
    (domOnBit half v s b).fld (if half = 0 then Csr.pwrDomOn0 else Csr.pwrDomOn1) b' b' = s.fld (if half = 0 then Csr.pwrDomOn0 else Csr.pwrDomOn1) b' b' := by
  cases h : fusedDomain s.arrayMask (64 * half + b)
  · rw [State.fld, State.reg, regs_domOnBit h]
    exact fld_setFld_apart s _ _ (Nat.le_refl b) hb (Nat.lt_or_gt_of_ne hne)
  · rw [domOnBit, if_pos h]

theorem b2n_bit (v : Reg) (b : Nat) : b2n (bit v b) = bf v b b := by
  have hbit : bit v b = decide (v.toNat >>> b % 2 = 1) := by rw [bit, BitVec.getLsbD, ← Nat.testBit_zero, Nat.testBit_shiftRight, Nat.add_zero]
  have hbf : bf v b b = v.toNat >>> b % 2 := by rw [bf, Nat.add_sub_cancel_left, Nat.pow_one]
  rw [hbit, hbf, b2n]
  rcases Nat.mod_two_eq_zero_or_one (v.toNat >>> b) with h | h <;> simp [h]

/-- With the first bits written, each of them that is not of a fused-off domain holds what was written. -/
theorem fld_foldl_domOnBit (half : Nat) (v : Reg) (s : State) (n : Nat) (hn : n ≤ 64) :
    ((List.range n).foldl (domOnBit half v) s).part = s.part ∧ ∀ b < n, fusedDomain s.arrayMask (64 * half + b) = false →
      ((List.range n).foldl (domOnBit half v) s).fld (if half = 0 then Csr.pwrDomOn0 else Csr.pwrDomOn1) b b = bf v b b := by
  induction n with
  | zero => exact ⟨rfl, fun b hb => absurd hb (Nat.not_lt_zero b)⟩
  | succ n ih =>
    obtain ⟨hpart, hfld⟩ := ih (by omega)
    rw [List.range_succ, List.foldl_append]
    generalize (List.range n).foldl (domOnBit half v) s = x at *
    refine ⟨(part_domOnBit half v x n).trans hpart, fun b hb hfused => ?_⟩
    change (domOnBit half v x n).fld _ b b = _
    by_cases hbn : b = n
    · subst hbn
      rw [State.fld, State.reg, regs_domOnBit (by rw [State.arrayMask, hpart]; exact hfused)]
      refine (fld_setFld_same x _ _ (Nat.le_refl b) (by omega)).trans ?_
      rw [← b2n_bit]
      cases bit v b <;> simp [b2n]
    · rw [fld_domOnBit_other (by omega) (Ne.symm hbn)]
      exact hfld b (by omega) hfused

/-- Settles O28: the three writes are stored field by field before they act (that a change of the mode takes both links down, and which accesses are in flight, is the model's reading, log entry
26; that the profile last written is in force at once, log entry 47). -/
theorem modeProfileAndDomainsAreWritten : Obligations.ModeProfileAndDomainsAreWritten := by
  unfold Obligations.ModeProfileAndDomainsAreWritten
  refine ⟨fun s v hidle hchange => ?mode, fun s v => ?profile, fun s half v hhalf => ?domains⟩
  case mode =>
    have hexec : exec (.hpModeWrite v) s = .next (hostDown (hostDown (storeWrite s Csr.hpCtl hpCtlDef 0 v) 0) 1) := by
      change Host.Outcome.next (hpCtlStore s v) = _
      rw [hpCtlStore, find_hpCtl]
      exact congrArg Host.Outcome.next (if_neg (by rw [mode_storeWrite hidle]; exact hchange))
    have hmode := mode_storeWrite hidle v
    generalize storeWrite s Csr.hpCtl hpCtlDef 0 v = x at hexec hmode
    refine ⟨_, hexec, hmode, fun p hp => ?_, fun y hy => ?_⟩
    · obtain rfl | rfl : p = 0 ∨ p = 1 := by omega
      · exact (Vec.get_put_other _ _ _ (by decide)).trans (Vec.get_put_same _ _ _ (by decide))
      · exact Vec.get_put_same _ _ _ (by decide)
    · obtain ⟨hy, h1⟩ := List.mem_filter.mp hy
      have h0 := (List.mem_filter.mp hy).2
      simp only [bne_iff_ne] at h0 h1
      omega
  case profile =>
    have hexec : exec (.pwrProfileWrite v) s = .next (gateDomains (storeWrite s Csr.pwrCtl pwrCtlDef 0 v)) := by
      change Host.Outcome.next (pwrCtlStore s v) = _
      rw [pwrCtlStore, find_pwrCtl]
    have hprofile := profile_storeWrite s v
    have hregs := regs_foldl_idleOff (gatedDoms (storeWrite s Csr.pwrCtl pwrCtlDef 0 v)) (storeWrite s Csr.pwrCtl pwrCtlDef 0 v)
    obtain ⟨hgated, hsame⟩ := gatedDoms_of_regs hregs
    refine ⟨_, hexec, hsame.trans hprofile, fun d hd hon => domState_foldl_idleOff_of_not_on _ hon, fun d hmem hd hon hidle hheld => ?_⟩
    have hmem' := hgated ▸ hmem
    refine domState_foldl_idleOff hd (isAuto_of_gated hmem') _ hmem' hon hidle ?_
    rw [storeWrite_pwrCtl, heldByHost, State.reg_setReg_other _ _ (by decide), State.reg_setReg_other _ _ (by decide)]
    exact hheld
  case domains =>
    refine ⟨_, if_pos hhalf, fun hbusy => ?_, fun hidle b hb hfused => ?_⟩
    · rw [writeDomOn, if_pos]
      simpa [domOnBusy] using hbusy
    · rw [writeDomOn_of_idle hidle]
      exact (fld_foldl_domOnBit half v s _ (by split <;> decide)).2 b hb hfused

/-! ### θ of the next window (R521, R528) -/

theorem clampI_eq {lo hi : Int} (h : lo ≤ hi) (x : Int) : clampI lo hi x = max lo (min hi x) := by
  rw [clampI]
  split_ifs <;> omega

/-- What the load allows of the next window. -/
def thetaLimit (theta target other leak engine : Nat) : Int :=
  (theta : Int) * (((target * 1000 * 1052 : Nat) : Int) - ((other + leak) * 1127 : Nat)) / ((1127 * engine : Nat) : Int)

theorem nextTheta_of_crit (theta target other leak engine : Nat) : nextTheta theta target other leak engine true = 0 := rfl

theorem nextTheta_of_zero (target other leak engine : Nat) : nextTheta 0 target other leak engine false = 1 := rfl

theorem nextTheta_of_pos {theta : Nat} (h : 0 < theta) (target other leak engine : Nat) :
    (nextTheta theta target other leak engine false : Int) = max 1 (min 100 (min ((theta : Int) + 10) (if engine = 0 then 100 else thetaLimit theta target other leak engine))) := by
  rw [nextTheta, if_neg Bool.false_ne_true, if_neg (by omega)]
  have hmin : ∀ lim : Int, ((clampI 1 100 (if lim < (theta : Int) + 10 then lim else (theta : Int) + 10)).toNat : Int) = max 1 (min 100 (min ((theta : Int) + 10) lim)) := by
    intro lim
    rw [clampI_eq (by decide)]
    omega
  exact hmin _

theorem nextTheta_le (theta target other leak engine : Nat) (crit : Bool) : nextTheta theta target other leak engine crit ≤ 100 := by
  cases crit
  · obtain rfl | hpos := Nat.eq_zero_or_pos theta
    · rw [nextTheta_of_zero]
      decide
    · have := nextTheta_of_pos hpos target other leak engine
      omega
  · exact Nat.zero_le _

/-! ### The governor's window (R520 to R523, R526) -/

/-- A counter's register after a count that a condition lets happen. -/
theorem reg_count_if_other (s : State) {c : Prop} [Decidable c] {off off' : Nat} (n : Nat) (h : off ≠ off') : (if c then s.count off n else s).reg off' = s.reg off' := by
  split
  · exact State.reg_count_other _ _ h
  · rfl

theorem reg_count_if_same (s : State) {c : Prop} [Decidable c] (off : Nat) : (if c then s.count off 1 else s).reg off = s.reg off + BitVec.ofNat 64 (if c then 1 else 0) := by
  split
  · exact State.reg_count_same _ _ _
  · exact (BitVec.add_zero _).symm

/-- The cap of a window: the smallest of the host's, the profile's and the thermal one (R521). -/
def windowCap (s : State) : Nat := min (hostCap s) (min (profileCap (profileOf s)) s.power.thermalCap)

theorem theta_governorStep (s : State) (counts : List Nat) :
    (governorStep s counts).power.theta =
      nextTheta s.power.theta (windowCap s - s.fld Csr.pwrCtl 41 36) (dynamicLoad counts 6 10) (leakage s) (dynamicLoad counts 0 5) s.power.crit := rfl

theorem throttleWindows_governorStep (s : State) (counts : List Nat) :
    (governorStep s counts).reg Csr.pwrThrottleWindows = s.reg Csr.pwrThrottleWindows + BitVec.ofNat 64 (if s.power.theta < 100 then 1 else 0) := by
  refine Eq.trans ?_ (reg_count_if_same s (c := s.power.theta < 100) Csr.pwrThrottleWindows)
  exact (reg_count_if_other _ 1 (by decide)).trans (reg_count_if_other _ 1 (by decide))

/-! ### The junction sensors (R527, R528) -/

/-- The hottest of some sensors is one of them, and none is hotter. -/
theorem foldl_hotter (l : List Int) : ∀ a : Int, let m := l.foldl (fun a x => if a < x then x else a) a
    (m = a ∨ m ∈ l) ∧ a ≤ m ∧ ∀ x ∈ l, x ≤ m := by
  induction l with
  | nil => exact fun a => ⟨.inl rfl, Int.le_refl a, List.forall_mem_nil _⟩
  | cons y l ih =>
    intro a
    obtain ⟨hmem, hle, hall⟩ := ih (if a < y then y else a)
    rw [List.foldl_cons]
    generalize l.foldl (fun a x => if a < x then x else a) (if a < y then y else a) = m at *
    by_cases hlt : a < y
    · rw [if_pos hlt] at hmem hle
      exact ⟨.inr (List.mem_cons.mpr hmem), by omega, List.forall_mem_cons.mpr ⟨hle, hall⟩⟩
    · rw [if_neg hlt] at hmem hle
      exact ⟨hmem.imp_right (List.mem_cons_of_mem _), hle, List.forall_mem_cons.mpr ⟨by omega, hall⟩⟩

theorem hottest_mem {l : List Int} (h : l ≠ []) (d : Int) : hottest l d ∈ l ∧ ∀ x ∈ l, x ≤ hottest l d := by
  obtain ⟨y, l, rfl⟩ := List.exists_cons_of_ne_nil h
  obtain ⟨hmem, -, hall⟩ := foldl_hotter (y :: l) y
  exact ⟨hmem.elim (fun hy => List.mem_cons.mpr (.inl hy)) id, hall⟩

theorem thermalCapAt_eq (throttle : Nat) (tj : Int) : thermalCapAt throttle tj = if tj ≤ throttle then 1000 else (max 300 (1000 - 25 * (tj - throttle))).toNat := by
  unfold thermalCapAt
  split
  · rfl
  · rw [clampI_eq (by decide)]
    congr 1
    omega

/-- THM_STATUS with the sticky bits of a reading set. -/
def stickied (s : State) (tj : Int) : State :=
  let s1 := if (throttleAt s : Int) < tj then s.setFld Csr.thmStatus 8 8 1 else s
  if 105 ≤ tj then s1.setFld Csr.thmStatus 9 9 1 else s1

/-- What a reading leaves of the power state and of the module's hardware, before THM_STATUS and the event. -/
def sensed (s : State) (temps : List Int) (tj : Int) : State :=
  let s1 := s.modPower (fun p => { p with tj := tj, crit := decide (105 ≤ tj) || (s.power.crit && decide (100 ≤ tj)), thermalCap := thermalCapAt (throttleAt s) tj })
  s1.setModhw { s1.modhw with tIn := temps.getD 32 s1.modhw.tIn, tOut := temps.getD 33 s1.modhw.tOut }

theorem power_stickied (s : State) (tj : Int) : (stickied s tj).power = s.power ∧ (stickied s tj).trays = s.trays := by
  unfold stickied
  dsimp only
  split_ifs <;> exact ⟨rfl, rfl⟩

/-- A reading with its sticky bits, and with an event where the junctions have become critical. -/
theorem thermalStep_eq (s : State) (temps : List Int) :
    let tj := hottest (temps.take 32) s.power.tj
    thermalStep s temps = if 105 ≤ tj ∧ s.power.crit = false then hearthEvent (stickied (sensed s temps tj) tj) FC.thermalCrit 0 else stickied (sensed s temps tj) tj := by
  have hsteps : ∀ tj, tj = hottest (temps.take 32) s.power.tj →
      thermalStep s temps =
        if 105 ≤ tj then
          (if s.power.crit then (if (throttleAt s : Int) < tj then (sensed s temps tj).setFld Csr.thmStatus 8 8 1 else sensed s temps tj).setFld Csr.thmStatus 9 9 1
            else hearthEvent ((if (throttleAt s : Int) < tj then (sensed s temps tj).setFld Csr.thmStatus 8 8 1 else sensed s temps tj).setFld Csr.thmStatus 9 9 1) FC.thermalCrit 0)
        else if (throttleAt s : Int) < tj then (sensed s temps tj).setFld Csr.thmStatus 8 8 1 else sensed s temps tj := by
    rintro tj rfl
    rfl
  intro tj
  have hthrottle : throttleAt (sensed s temps tj) = throttleAt s := rfl
  rw [hsteps tj rfl, stickied, hthrottle]
  generalize (if (throttleAt s : Int) < tj then (sensed s temps tj).setFld Csr.thmStatus 8 8 1 else sensed s temps tj) = x
  by_cases hcrit : 105 ≤ tj <;> cases s.power.crit <;> simp [hcrit]

theorem thermalStep_keeps (s : State) (temps : List Int) :
    let tj := hottest (temps.take 32) s.power.tj
    (thermalStep s temps).power = (sensed s temps tj).power ∧ (thermalStep s temps).trays = s.trays ∧ (thermalStep s temps).regs = (stickied (sensed s temps tj) tj).regs := by
  intro tj
  obtain ⟨hpower, htrays⟩ := power_stickied (sensed s temps tj) tj
  have hevent : Touch hearthParts (stickied (sensed s temps tj) tj) (hearthEvent (stickied (sensed s temps tj) tj) FC.thermalCrit 0) := touch_hearthEvent _ _ _ (.refl _ _) rfl
  rw [thermalStep_eq]
  split
  · exact ⟨(hevent.power rfl).trans hpower, (hevent.trays rfl).trans htrays, hevent.regs rfl⟩
  · exact ⟨hpower, htrays, rfl⟩

theorem fld_of_regs {s s' : State} (h : s'.regs = s.regs) (off hi lo : Nat) : s'.fld off hi lo = s.fld off hi lo := by
  rw [State.fld, State.reg, h]
  rfl

theorem stickied_critical (s : State) {tj : Int} (h : 105 ≤ tj) : (stickied s tj).fld Csr.thmStatus 9 9 = 1 := by
  rw [stickied, if_pos h]
  exact fld_setFld_same _ _ _ (Nat.le_refl 9) (by decide)

theorem stickied_throttled (s : State) {tj : Int} (h : (throttleAt s : Int) < tj) : (stickied s tj).fld Csr.thmStatus 8 8 = 1 := by
  have hset : (s.setFld Csr.thmStatus 8 8 1).fld Csr.thmStatus 8 8 = 1 := fld_setFld_same _ _ _ (Nat.le_refl 8) (by decide)
  rw [stickied, if_pos h]
  split
  · exact (fld_setFld_apart _ _ _ (Nat.le_refl 9) (by decide) (.inr (by decide))).trans hset
  · exact hset

/-- Settles O46: θ from the load's limit and the caps, and the hottest of the junctions. (The loads are rounded to milliwatts, which is the model's choice, log entry 11.) -/
theorem governorFollowsLoadAndHeat : Obligations.GovernorFollowsLoadAndHeat := by
  unfold Obligations.GovernorFollowsLoadAndHeat
  refine ⟨fun s counts hrun => ?governor, fun s temps hrun hlen => ?sensors, fun s deciwatts hrun => ?drift⟩
  case governor =>
    have hcrits : s.power.crit = true → (governorStep s counts).power.theta = 0 := fun hcrit => (theta_governorStep s counts).trans (hcrit ▸ nextTheta_of_crit _ _ _ _ _)
    refine ⟨governorStep s counts, congrArg Host.Outcome.next (if_pos hrun), rfl, nextTheta_le _ _ _ _ _ _, rfl, hcrits, fun hcrit hzero => ?_, fun hcrit hpos hidle => ?_,
      fun hcrit hpos hload => ?_, throttleWindows_governorStep s counts⟩
    · rw [theta_governorStep, hcrit, hzero]
      exact nextTheta_of_zero _ _ _ _
    · have hnext := nextTheta_of_pos hpos (windowCap s - s.fld Csr.pwrCtl 41 36) (dynamicLoad counts 6 10) (leakage s) (dynamicLoad counts 0 5)
      rw [if_pos hidle] at hnext
      rw [theta_governorStep, hcrit]
      omega
    · have hnext := nextTheta_of_pos hpos (windowCap s - s.fld Csr.pwrCtl 41 36) (dynamicLoad counts 6 10) (leakage s) (dynamicLoad counts 0 5)
      rw [if_neg (Nat.ne_of_gt hload)] at hnext
      rw [theta_governorStep, hcrit]
      exact hnext
  case sensors =>
    obtain ⟨hpower, htrays, hregs⟩ := thermalStep_keeps s temps
    have hne : temps.take 32 ≠ [] := by
      intro h
      have := congrArg List.length h
      rw [List.length_take, hlen] at this
      exact absurd this (by decide)
    obtain ⟨hmem, hall⟩ := hottest_mem hne s.power.tj
    refine ⟨thermalStep s temps, congrArg Host.Outcome.next (if_pos hrun), ?_⟩
    generalize thermalStep s temps = x at *
    generalize hottest (temps.take 32) s.power.tj = tj at *
    rw [hpower, htrays, fld_of_regs hregs, fld_of_regs hregs]
    refine ⟨hmem, hall, thermalCapAt_eq _ _, fun h => ⟨?_, stickied_critical _ h⟩, fun h => ?_, fun h => stickied_throttled _ h, rfl⟩
    · exact Bool.or_eq_true_iff.mpr (.inl (decide_eq_true h))
    · change (decide (105 ≤ tj) || (s.power.crit && decide (100 ≤ tj))) = false
      have h105 : ¬ 105 ≤ tj := fun h' => absurd (show tj < 100 from h) (by omega)
      have h100 : ¬ 100 ≤ tj := Int.not_le.mpr h
      simp [h105, h100]
  case drift =>
    refine ⟨driftStep s deciwatts, congrArg Host.Outcome.next (if_pos hrun), fun h => ?_, fun h => ?_⟩
    · rw [driftStep, if_pos h]
      exact fld_setFld_same _ _ _ (Nat.le_refl 34) (by decide)
    · rw [driftStep, if_neg (Nat.not_lt.mpr h)]
      rfl

end Sys2Proof.Machine
end

section
/-! PROOFS. Links of the Staon fabric (R466 to R475): what the sending of flits leaves of the links, the HELLOs that bring a port UP or stop it, and the flits that a port accepts, discards and sends again. -/

namespace Sys2Proof.Machine

open Sys2Proof.Claims

/-! ### Ports and what was sent -/

@[simp] theorem sport_modSport_same (s : State) {p : Nat} (h : p < 12) (f : SPort → SPort) : sport (modSport s p f) p = f (sport s p) := Vec.get_put_same _ _ _ h

theorem sport_modSport_other (s : State) {p q : Nat} (h : p ≠ q) (f : SPort → SPort) : sport (modSport s p f) q = sport s q := Vec.get_put_other _ _ _ h

theorem sport_of_staon {s s' : State} (h : s'.staon.ports = s.staon.ports) (q : Nat) : sport s' q = sport s q := by rw [sport, sport, h]

/-- What a port's link is, without what its queues, buffers and credits hold. -/
def linkView (x : SPort) : SPort :=
  { x with txNext := 0, unacked := [], rx := Vector.replicate 4 0, credits := Vector.replicate 4 0, seen := Vector.replicate 4 0, freed := Vector.replicate 4 0,
           queues := Vector.replicate 4 [], collectiveNext := false }

theorem of_linkView {α : Type} {a b : SPort} (g : SPort → α) (hg : ∀ x, g (linkView x) = g x) (h : linkView a = linkView b) : g a = g b := by rw [← hg a, h, hg]

theorem linkView_modSport (s : State) (p : Nat) {f : SPort → SPort} (hf : ∀ x, linkView (f x) = linkView x) (q : Nat) : linkView (sport (modSport s p f) q) = linkView (sport s q) := by
  by_cases hpq : p = q
  · subst hpq
    by_cases hp : p < 12
    · rw [sport_modSport_same s hp, hf]
    · simp [sport, Vec.get, hp]
  · rw [sport_modSport_other s hpq]

/-! ### Sending: what the transmission of flits leaves of the fabric and the registers (R472 to R475) -/

/-- The fabric block without its ports, what it has sent and the messages that wait for their settling. -/
def besidesSending (b : Staon) : Staon := { b with ports := Vector.replicate 12 SPort.reset, sent := [], out := [] }

/-- A message in wait for its settling, without the cycle in which its first flit left. -/
def unsent (x : SentMsg) : SentMsg := { x with firstAt := none }

/-- From `s` to `s'` flits were sent: the links stay as they are, and so do the messages in wait but for the cycle of their first flit. -/
structure Sends (s s' : State) : Prop where
  link : ∀ q, linkView (sport s' q) = linkView (sport s q)
  rest : besidesSending s'.staon = besidesSending s.staon
  sent : s'.staon.sent.map unsent = s.staon.sent.map unsent
  out : s.staon.out <+: s'.staon.out
  reg : ∀ off, off ≠ Csr.stnFlitsTx → s'.reg off = s.reg off

theorem of_besidesSending {α : Type} {a b : Staon} (g : Staon → α) (hg : ∀ x, g (besidesSending x) = g x) (h : besidesSending a = besidesSending b) : g a = g b := by
  rw [← hg a, h, hg]

theorem of_unsent {α : Type} {a b : SentMsg} (g : SentMsg → α) (hg : ∀ x, g (unsent x) = g x) (h : unsent a = unsent b) : g a = g b := by rw [← hg a, h, hg]

theorem Sends.refl (s : State) : Sends s s := ⟨fun _ => rfl, rfl, rfl, List.prefix_refl _, fun _ _ => rfl⟩

theorem Sends.trans {a b c : State} (h1 : Sends a b) (h2 : Sends b c) : Sends a c :=
  ⟨fun q => (h2.link q).trans (h1.link q), h2.rest.trans h1.rest, h2.sent.trans h1.sent, h1.out.trans h2.out, fun off ho => (h2.reg off ho).trans (h1.reg off ho)⟩

section
variable {s s' : State} (h : Sends s s') (q : Nat)
include h

theorem Sends.state : (sport s' q).state = (sport s q).state := of_linkView SPort.state (fun _ => rfl) (h.link q)

theorem Sends.peerAddr : (sport s' q).peerAddr = (sport s q).peerAddr := of_linkView SPort.peerAddr (fun _ => rfl) (h.link q)

theorem Sends.peerLeaving : (sport s' q).peerLeaving = (sport s q).peerLeaving := of_linkView SPort.peerLeaving (fun _ => rfl) (h.link q)

theorem Sends.ver : (sport s' q).ver = (sport s q).ver := of_linkView SPort.ver (fun _ => rfl) (h.link q)

theorem Sends.rxNext : (sport s' q).rxNext = (sport s q).rxNext := of_linkView SPort.rxNext (fun _ => rfl) (h.link q)

theorem Sends.discarding : (sport s' q).discarding = (sport s q).discarding := of_linkView SPort.discarding (fun _ => rfl) (h.link q)

theorem Sends.replays : (sport s' q).replays = (sport s q).replays := of_linkView SPort.replays (fun _ => rfl) (h.link q)

theorem Sends.ignoreNak : (sport s' q).ignoreNak = (sport s q).ignoreNak := of_linkView SPort.ignoreNak (fun _ => rfl) (h.link q)

end

theorem sends_modSport (s : State) (p : Nat) {f : SPort → SPort} (hf : ∀ x, linkView (f x) = linkView x) : Sends s (modSport s p f) :=
  ⟨linkView_modSport s p hf, rfl, rfl, List.prefix_refl _, fun _ _ => rfl⟩

theorem sends_freeFlits (s : State) (p v n : Nat) : Sends s (freeFlits s p v n) := by
  unfold freeFlits
  exact sends_modSport s p (fun _ => rfl)

theorem sends_fabOut (s : State) (m : StnTx) : Sends s (fabOut s m) := ⟨fun _ => rfl, rfl, rfl, List.prefix_append _ _, fun _ _ => rfl⟩

theorem sends_count (s : State) (n : Nat) : Sends s (s.count Csr.stnFlitsTx n) :=
  ⟨fun _ => rfl, rfl, rfl, List.prefix_refl _, fun _ ho => State.reg_count_other _ _ ho.symm⟩

theorem sends_firstFlit (s : State) (m : StnMsg) : Sends s (firstFlit s m) := by
  unfold firstFlit
  split
  · refine ⟨fun _ => rfl, rfl, ?_, List.prefix_refl _, fun _ _ => rfl⟩
    change List.map unsent (List.map _ s.staon.sent) = _
    rw [List.map_map]
    refine List.map_congr_left (fun x _ => ?_)
    simp only [Function.comp]
    split <;> rfl
  · exact .refl s

/-- A flit goes out and is counted, and with its last flit the message is out. -/
theorem sends_flitOut {s s' : State} (h : Sends s s') {c : Prop} [Decidable c] (f m : StnTx) :
    Sends s (if c then fabOut ((fabOut s' f).count Csr.stnFlitsTx 1) m else (fabOut s' f).count Csr.stnFlitsTx 1) := by
  have hflit := (h.trans (sends_fabOut s' f)).trans (sends_count _ 1)
  split
  · exact hflit.trans (sends_fabOut _ _)
  · exact hflit

theorem sends_pumpPort (p : Nat) : ∀ (fuel : Nat) (s : State), Sends s (pumpPort fuel p s) := by
  intro fuel
  induction fuel with
  | zero => exact .refl
  | succ fuel ih =>
    intro s
    unfold pumpPort
    dsimp only
    split
    · exact .refl s
    · split
      · exact .refl s
      · next v _ =>
        split
        · exact .refl s
        · next m rest _ =>
          refine Sends.trans ?_ (ih _)
          have hfirst : Sends s (if m.left = m.total then firstFlit s m.msg else s) := by
            split
            · exact sends_firstFlit s m.msg
            · exact .refl s
          generalize (if m.left = m.total then firstFlit s m.msg else s) = s1 at hfirst ⊢
          have htransit : ∀ s2, Sends s1 s2 → Sends s1 (match m.via with
              | some k => transitFree s1 k s2
              | none => s2) := by
            intro s2 h2
            split
            · exact h2.trans (sends_freeFlits _ _ _ _)
            · exact h2
          refine sends_flitOut (hfirst.trans (htransit _ (sends_modSport s1 p ?_))) _ _
          exact fun _ => rfl

theorem sends_portQueue (s : State) (p : Nat) (m : StnMsg) (via : Option (Nat × Nat × Nat)) : Sends s (portQueue s p m via) := by
  unfold portQueue
  exact sends_modSport s p (fun _ => rfl)

theorem sends_portSend (s : State) (p : Nat) (m : StnMsg) : Sends s (portSend s p m) := (sends_portQueue s p m none).trans (sends_pumpPort p 512 _)

/-- A port that is not UP sends nothing, and one with nothing queued neither. -/
theorem pumpPort_of_idle {s : State} {p : Nat} (h : (sport s p).state ≠ 4 ∨ ∀ v < 4, Vec.get (sport s p).queues v [] = []) (fuel : Nat) : pumpPort fuel p s = s := by
  cases fuel with
  | zero => rfl
  | succ fuel =>
    unfold pumpPort
    dsimp only
    split
    · rfl
    · next hup =>
      have hempty := h.resolve_left (fun hne => hup (.inl hne))
      have hnone : nextVc (sport s p) = none := by cases hnext : (sport s p).collectiveNext <;> simp [nextVc, hempty, hnext]
      rw [hnone]

/-! ### Events and links (R466 to R469, R501) -/

theorem exec_onPort {p : Nat} {ok : State → Bool} {f : State → State} {s : State} (hp : p < 12) (hok : ok s = true) : onPort p ok f s = .next (f s) := by
  rw [onPort, if_pos hp, if_pos hok]

theorem portIn_of_mem {s : State} {p : Nat} {l : List Nat} (h : (sport s p).state ∈ l) : portIn p l s = true := List.contains_iff_mem.mpr h

theorem eventQueue_lt (s : State) : s.fld Csr.stnCfg 57 52 < 64 := Nat.mod_lt _ (by decide)

theorem recs_addRec (s : State) {r : Rec} (h : r.queue < 64) : ((addRec s r).hq r.queue).recs.getLast? = some r := by
  rw [addRec, State.hq_modHq_same _ _ h]
  exact List.getLast?_concat

theorem eventIs_fabEvent (s : State) (code aux addr : Nat) : EventIs (fabEvent s code aux addr) code aux addr := ⟨_, recs_addRec s (eventQueue_lt s), rfl, rfl, rfl, rfl⟩

theorem sport_sendHello (s : State) (p q : Nat) : sport (sendHello s p) q = sport s q := rfl

/-- What sends flits leaves the event where it stands. -/
theorem eventIs_of_sends {s s' : State} {code aux addr : Nat} (h : EventIs s code aux addr) (hs : Sends s s') (hq : s'.queues = s.queues) : EventIs s' code aux addr := by
  have hcfg : s'.fld Csr.stnCfg 57 52 = s.fld Csr.stnCfg 57 52 := by rw [State.fld, hs.reg _ (by decide), State.fld]
  obtain ⟨r, hlast, hr⟩ := h
  refine ⟨r, ?_, hr⟩
  rw [hcfg, State.hq, hq]
  exact hlast

theorem queues_pumpPort (fuel p : Nat) (s : State) : (pumpPort fuel p s).queues = s.queues := by
  have h : Touch { regs := true, staon := true } s (pumpPort fuel p s) := touch_pumpPort rfl rfl fuel p s (.refl _ s)
  exact h.queues rfl

/-- A port that went down waits to train again, with nothing in its buffers and its peer's data from before (R469). -/
def downPort (y : SPort) : SPort := { SPort.reset with state := 6, peerAddr := y.peerAddr, peerPort := y.peerPort, peerProv := y.peerProv, peerSn := y.peerSn }

theorem sport_portDown (s : State) {p : Nat} (hp : p < 12) : ∃ y, sport (portDown s p) p = downPort y := by
  unfold portDown
  dsimp only
  split
  · exact ⟨_, sport_modSport_same _ hp _⟩
  · exact ⟨_, sport_modSport_same _ hp _⟩

/-- The second HELLO with a version in common brings the port UP, reports it, and lets it send (R467). -/
theorem helloStep_up {s : State} {p : Nat} {h : HelloBody} (hp : p < 12) (hst : (sport s p).state ∈ [2, 3, 5]) (hmin : h.vmin ≤ 1) (hmax : 1 ≤ h.vmax) (hhellos : 1 ≤ (sport s p).hellos) :
    ∃ x, helloStep s p h = pumpPort 512 p (fabEvent x FC.fabPortUp p h.addr) ∧ (sport x p).state = 4 ∧ (sport x p).peerAddr = h.addr ∧ (sport x p).ver = 1 := by
  have hin : (sport s p).state = 2 ∨ (sport s p).state = 3 ∨ (sport s p).state = 5 := by simpa using hst
  have hcommon : (decide (h.vmin ≤ 1) && decide (1 ≤ h.vmax)) = true := by simp [hmin, hmax]
  have htwo : ¬ (sport s p).hellos + 1 < 2 := by omega
  unfold helloStep
  dsimp only
  rw [hcommon, if_pos hin, if_neg (by decide), if_neg htwo]
  refine ⟨_, rfl, ?_⟩
  rw [sport_modSport_same _ hp, sport_modSport_same _ hp]
  exact ⟨rfl, rfl, rfl⟩

/-- A HELLO without a version in common stops the port before it is UP, and reports it (R468). -/
theorem helloStep_fail {s : State} {p : Nat} {h : HelloBody} (hp : p < 12) (hst : (sport s p).state ∈ [2, 3]) (hver : ¬ (h.vmin ≤ 1 ∧ 1 ≤ h.vmax)) :
    ∃ x, helloStep s p h = fabEvent x FC.fabVersionFail p h.addr ∧ (sport x p).state = 5 ∧ (sport x p).ver = 0 := by
  have hin : (sport s p).state = 2 ∨ (sport s p).state = 3 := by simpa using hst
  have hcommon : (decide (h.vmin ≤ 1) && decide (1 ≤ h.vmax)) = false := by
    rw [Bool.and_eq_false_iff, decide_eq_false_iff_not, decide_eq_false_iff_not]
    exact Classical.not_and_iff_not_or_not.mp hver
  have hnot : ¬ (sport s p).state = 5 := by omega
  unfold helloStep
  dsimp only
  rw [hcommon, if_pos (by omega), if_pos (by decide), if_neg hnot]
  refine ⟨_, rfl, ?_⟩
  rw [sport_modSport_same _ hp, sport_modSport_same _ hp]
  exact ⟨rfl, rfl⟩

/-- Settles O39: each event of a link changes its port as the state of the port says (a port that is trained again too late is counted, the model's reading, log entry 32). -/
theorem fabricLinksFollowTheirHellos : Obligations.FabricLinksFollowTheirHellos := by
  unfold Obligations.FabricLinksFollowTheirHellos
  refine ⟨fun s p whole hp hst => ?training, fun s p hp hst => ?lock, fun s p hp hst => ?send, fun s p h hp => ⟨fun hst hmin hmax hhellos => ?up, fun hst hver => ?fail⟩,
    fun s p hp hst => ?timeout, fun s p hp hst => ?retrain⟩
  case training =>
    refine ⟨_, (exec_onPort hp (portIn_of_mem hst) : execLinkTrainingTimeout p whole s = _), fun hwhole => ?_, fun hwhole hone => ?_, fun q hq hne => ?_⟩
    · rw [if_pos hwhole]
      exact ⟨sport_modSport_same _ hp _, State.reg_count_same _ _ _⟩
    · rw [if_neg (by rw [hwhole]; exact Bool.false_ne_true), if_pos hone]
      exact ⟨sport_modSport_same _ hp _, rfl⟩
    · split
      · exact sport_modSport_other _ hne.symm _
      · split
        · exact sport_modSport_other _ hne.symm _
        · rfl
  case lock =>
    exact ⟨_, (exec_onPort hp (portIn_of_mem (by simp [hst])) : execFlitLock p s = _), sport_modSport_same _ hp _, fun q hq hne => sport_modSport_other _ hne.symm _⟩
  case send =>
    refine ⟨_, (exec_onPort hp (portIn_of_mem hst) : execHelloSendTimer p s = _), rfl, ?_⟩
    rw [sport_sendHello, sport_modSport_same s hp]
  case up =>
    have hin : (sport s p).state ∈ [2, 3, 4, 5] := by
      simp only [List.mem_cons, List.not_mem_nil, or_false] at hst ⊢
      omega
    obtain ⟨x, hstep, hstate, haddr, hver⟩ := helloStep_up hp hst hmin hmax hhellos
    have hsends := sends_pumpPort p 512 (fabEvent x FC.fabPortUp p h.addr)
    refine ⟨_, (exec_onPort hp (portIn_of_mem hin) : execHello p h s = _), ?_⟩
    rw [hstep]
    exact ⟨(hsends.state p).trans hstate, (hsends.peerAddr p).trans haddr, (hsends.ver p).trans hver,
      eventIs_of_sends (eventIs_fabEvent x _ _ _) hsends (queues_pumpPort 512 p _)⟩
  case fail =>
    have hin : (sport s p).state ∈ [2, 3, 4, 5] := by
      simp only [List.mem_cons, List.not_mem_nil, or_false] at hst ⊢
      omega
    obtain ⟨x, hstep, hstate, hzero⟩ := helloStep_fail hp hst hver
    refine ⟨_, (exec_onPort hp (portIn_of_mem hin) : execHello p h s = _), ?_⟩
    rw [hstep]
    exact ⟨hstate, hzero, eventIs_fabEvent x _ _ _⟩
  case timeout =>
    refine ⟨_, (exec_onPort hp (portIn_of_mem (by simp [hst])) : execHelloTimeout p s = _), ?_⟩
    obtain ⟨y, hy⟩ := sport_portDown s hp
    rw [hy]
    exact ⟨rfl, rfl, fun v hv => by simp [downPort, SPort.reset, Vec.get, hv]⟩
  case retrain =>
    refine ⟨_, (exec_onPort hp (portIn_of_mem (by simp [hst])) : execPortRetrainTimer p s = _), ?_⟩
    rw [sport_modSport_same s hp]
    exact ⟨rfl, rfl, rfl⟩

/-! ### Acknowledgements and credits of a flit (R471, R475) -/

theorem applyCredits_eq (x : SPort) (cr : List Nat) : applyCredits x cr = { x with credits := (applyCredits x cr).credits, seen := (applyCredits x cr).seen } := rfl

/-- ACKSEQ leaves a port as it is, or shortens its replay buffer and ends a replay. -/
theorem applyAck_cases (x : SPort) (ackseq : Nat) : applyAck x ackseq = x ∨ ∃ n, applyAck x ackseq = { x with unacked := x.unacked.drop n, replays := 0, ignoreNak := none } := by
  unfold applyAck
  split
  · exact .inl rfl
  · dsimp only
    split
    · exact .inr ⟨_, rfl⟩
    · exact .inl rfl

/-- A port once the acknowledgements and credits of a good flit are applied. -/
def ackedPort (x : SPort) (f : Flit) : SPort := applyCredits (applyAck { x with badRun := 0 } f.ackseq) f.cr

/-- The acknowledgements and credits leave what the port receives and has queued. -/
theorem ackedPort_keeps (x : SPort) (f : Flit) :
    (ackedPort x f).state = x.state ∧ (ackedPort x f).rxNext = x.rxNext ∧ (ackedPort x f).discarding = x.discarding ∧ (ackedPort x f).queues = x.queues := by
  rw [ackedPort, applyCredits_eq]
  obtain h | ⟨n, h⟩ := applyAck_cases { x with badRun := 0 } f.ackseq <;> rw [h] <;> exact ⟨rfl, rfl, rfl, rfl⟩

theorem unacked_ackedPort (x : SPort) (f : Flit) : (ackedPort x f).unacked = (applyAck x f.ackseq).unacked := by
  rw [ackedPort, applyCredits_eq]
  obtain ⟨_, _, _, _, _, _, _, _, _, _, unacked, _, _, _, _, _, _, _, _, _, _⟩ := x
  cases unacked with
  | nil => rfl
  | cons g rest =>
    unfold applyAck
    dsimp only
    split <;> rfl

/-! ### Flits discarded, accepted and sent again (R471, R472) -/

theorem discarding_eta {x : SPort} (h : x.discarding = true) : { x with discarding := true } = x := by
  cases x
  cases h
  rfl

theorem sport_fabOut (s : State) (m : StnTx) (q : Nat) : sport (fabOut s m) q = sport s q := rfl

section
variable {p : Nat} (hp : p < 12)
include hp

theorem sport_discardFlit (s : State) : sport (discardFlit s p) p = { sport s p with discarding := true } := by
  unfold discardFlit
  split
  · next h => exact (discarding_eta h).symm
  · dsimp only
    rw [sport_fabOut, sport_modSport_same s hp]

theorem out_discardFlit (s : State) :
    (discardFlit s p).staon.out = s.staon.out ++ (if (sport s p).discarding then [] else [.flit p (ctrlFlit (sport s p) [] true)]) := by
  unfold discardFlit
  split
  · exact (List.append_nil _).symm
  · dsimp only
    rw [sport_modSport_same s hp]
    rfl

end

theorem regs_discardFlit (s : State) (p : Nat) : (discardFlit s p).regs = s.regs := by
  unfold discardFlit
  split <;> rfl

/-- Flits sent one after another. -/
def outs (s : State) (l : List StnTx) : State := s.modStaon (fun b => { b with out := b.out ++ l })

theorem sport_outs (s : State) (l : List StnTx) (q : Nat) : sport (outs s l) q = sport s q := rfl

theorem reg_outs (s : State) (l : List StnTx) (off : Nat) : (outs s l).reg off = s.reg off := rfl

theorem foldl_fabOut {α : Type} (g : α → StnTx) (l : List α) : ∀ s : State, l.foldl (fun s' x => fabOut s' (g x)) s = outs s (l.map g) := by
  induction l with
  | nil => exact fun s => by simp [outs, State.modStaon, State.setStaon]
  | cons x l ih =>
    intro s
    rw [List.foldl_cons, ih]
    simp only [outs, fabOut, State.modStaon, State.setStaon, List.map_cons, List.append_assoc, List.singleton_append]

/-- The port in a replay: one more of its oldest flit, whose NAKs are ignored until the ACKSEQ advances. -/
def replaying (x : SPort) (ackseq : Nat) : SPort := { x with replays := x.replays + 1, ignoreNak := some ackseq }

/-- A replay counted. -/
def replayed (s : State) (p ackseq : Nat) : State := modSport (s.count Csr.stnReplays 1) p (fun x => replaying x ackseq)

section
variable {p : Nat} (hp : p < 12)
include hp

theorem sport_replayed (s : State) (ackseq : Nat) : sport (replayed s p ackseq) p = replaying (sport s p) ackseq := sport_modSport_same _ hp _

theorem replay_eq (s : State) (ackseq : Nat) :
    replay s p ackseq = if 16 ≤ (sport s p).replays + 1 then portDown (replayed s p ackseq) p
      else outs (replayed s p ackseq) ((sport s p).unacked.map (fun f => StnTx.flit p (flitBytes (replaying (sport s p) ackseq) f false))) := by
  have hport := sport_replayed hp s ackseq
  have hfold : ∀ x : SPort, x.unacked.foldl (fun s' f => fabOut s' (.flit p (flitBytes x f false))) (replayed s p ackseq) =
      outs (replayed s p ackseq) (x.unacked.map (fun f => StnTx.flit p (flitBytes x f false))) := fun x => foldl_fabOut _ _ _
  unfold replay
  change (if 16 ≤ (sport (replayed s p ackseq) p).replays then portDown (replayed s p ackseq) p else
    (sport (replayed s p ackseq) p).unacked.foldl (fun s' f => fabOut s' (.flit p (flitBytes (sport (replayed s p ackseq) p) f false))) (replayed s p ackseq)) = _
  rw [hfold, hport]
  rfl

theorem replay_of_lt {s : State} {ackseq : Nat} (h : (sport s p).replays + 1 < 16) :
    sport (replay s p ackseq) p = replaying (sport s p) ackseq ∧ (∀ q, q ≠ p → sport (replay s p ackseq) q = sport s q) ∧
      (replay s p ackseq).reg Csr.stnReplays = s.reg Csr.stnReplays + 1 ∧ (∀ off, off ≠ Csr.stnReplays → (replay s p ackseq).reg off = s.reg off) := by
  rw [replay_eq hp, if_neg (Nat.not_le.mpr h)]
  refine ⟨(sport_outs _ _ p).trans (sport_replayed hp s ackseq), fun q hq => (sport_outs _ _ q).trans (sport_modSport_other _ hq.symm _), ?_, fun off ho => ?_⟩
  · exact (reg_outs _ _ _).trans (State.reg_count_same s _ _)
  · exact (reg_outs _ _ _).trans (State.reg_count_other s _ ho.symm)

theorem state_replay_of_ge {s : State} {ackseq : Nat} (h : 15 ≤ (sport s p).replays) : (sport (replay s p ackseq) p).state = 6 := by
  rw [replay_eq hp, if_pos (by omega)]
  obtain ⟨y, hy⟩ := sport_portDown (replayed s p ackseq) hp
  rw [hy]
  rfl

end

/-- A good flit taken or discarded by its sequence number. -/
def acceptFlit (s : State) (p : Nat) (f : Flit) : State :=
  if f.ftype = 1 ∨ f.ftype = 2 then
    if f.fseq % 4096 = (sport s p).rxNext then
      modSport (s.count Csr.stnFlitsRx 1) p (fun x => { x with rxNext := (x.rxNext + 1) % 4096, discarding := false, rx := Vec.put x.rx f.vc (Vec.get x.rx f.vc 0 + 1) })
    else discardFlit s p
  else s

section
variable {s : State} {p : Nat} (hp : p < 12) {f : Flit}
include hp

/-- A data flit in sequence is accepted and counted. -/
theorem acceptFlit_in (ht : f.ftype ∈ [1, 2]) (hseq : f.fseq % 4096 = (sport s p).rxNext) :
    (sport (acceptFlit s p f) p).rxNext = ((sport s p).rxNext + 1) % 4096 ∧ (sport (acceptFlit s p f) p).discarding = false ∧
      (acceptFlit s p f).reg Csr.stnFlitsRx = s.reg Csr.stnFlitsRx + 1 ∧ (acceptFlit s p f).staon.out = s.staon.out := by
  rw [acceptFlit, if_pos (by simpa using ht), if_pos hseq, sport_modSport_same _ hp]
  exact ⟨rfl, rfl, State.reg_count_same _ _ _, rfl⟩

/-- A data flit out of sequence is discarded. -/
theorem acceptFlit_out (ht : f.ftype ∈ [1, 2]) (hseq : f.fseq % 4096 ≠ (sport s p).rxNext) :
    sport (acceptFlit s p f) p = { sport s p with discarding := true } ∧ (acceptFlit s p f).regs = s.regs := by
  rw [acceptFlit, if_pos (by simpa using ht), if_neg hseq]
  exact ⟨sport_discardFlit hp s, regs_discardFlit s p⟩

omit hp in
theorem acceptFlit_other (ht : f.ftype ∉ [1, 2]) : acceptFlit s p f = s := if_neg (by simpa using ht)

/-- Whatever the flit, what the port sends stays as it is, and no register but the count of received flits changes. -/
theorem acceptFlit_keeps (s : State) (f : Flit) : ∃ rxNext discarding rx, sport (acceptFlit s p f) p = { sport s p with rxNext := rxNext, discarding := discarding, rx := rx } ∧
    ∀ off, off ≠ Csr.stnFlitsRx → (acceptFlit s p f).reg off = s.reg off := by
  by_cases ht : f.ftype ∈ [1, 2]
  · by_cases hseq : f.fseq % 4096 = (sport s p).rxNext
    · rw [acceptFlit, if_pos (by simpa using ht), if_pos hseq]
      exact ⟨_, _, _, sport_modSport_same _ hp _, fun off ho => State.reg_count_other _ _ ho.symm⟩
    · obtain ⟨hport, hregs⟩ := acceptFlit_out hp ht hseq
      exact ⟨_, _, _, hport, fun off _ => by rw [State.reg, hregs, State.reg]⟩
  · rw [acceptFlit_other ht]
    exact ⟨_, _, _, rfl, fun _ _ => rfl⟩

end

/-! ### A flit received (R469 to R472) -/

/-- A flit whose CRC fails, counted on its port and discarded. -/
def badFlit (s : State) (p : Nat) : State := discardFlit (modSport (s.count Csr.stnCrcErrs 1) p (fun x => { x with badRun := x.badRun + 1 })) p

/-- A good flit's acknowledgements and credits applied. -/
def ackedState (s : State) (p : Nat) (f : Flit) : State := modSport s p (fun x => ackedPort x f)

/-- A good flit asks for a replay: its NAK is not ignored, and flits are unacknowledged. -/
def AsksReplay (y : SPort) (f : Flit) : Prop := f.nak = true ∧ y.ignoreNak ≠ some f.ackseq ∧ y.unacked ≠ []

section
variable {p : Nat} (hp : p < 12)
include hp

theorem sport_badFlit (s : State) : sport (badFlit s p) p = { sport s p with badRun := (sport s p).badRun + 1, discarding := true } := by
  rw [badFlit, sport_discardFlit hp, sport_modSport_same _ hp]
  rfl

omit hp in
theorem crcErrs_badFlit (s : State) : (badFlit s p).reg Csr.stnCrcErrs = s.reg Csr.stnCrcErrs + 1 := by
  rw [State.reg, badFlit, regs_discardFlit]
  exact State.reg_count_same s _ _

/-- The NAK flit carries the port's ACKSEQ and credits, which the bad flit did not change. -/
theorem out_badFlit (s : State) : (badFlit s p).staon.out = s.staon.out ++ (if (sport s p).discarding then [] else [.flit p (ctrlFlit (sport s p) [] true)]) := by
  rw [badFlit, out_discardFlit hp, sport_modSport_same _ hp]
  rfl

theorem flitStep_bad {s : State} {f : Flit} (hcrc : f.crcOk = false) : flitStep s p f = if 32 ≤ (sport s p).badRun + 1 then portDown (badFlit s p) p else badFlit s p := by
  have hrun : (sport (badFlit s p) p).badRun = (sport s p).badRun + 1 := congrArg SPort.badRun (sport_badFlit hp s)
  rw [← hrun, flitStep, hcrc]
  rfl

theorem sport_ackedState (s : State) (f : Flit) : sport (ackedState s p f) p = ackedPort (sport s p) f := sport_modSport_same s hp _

omit hp in
/-- A good flit's acknowledgements, the replay that it asks for, and the taking of the flit, which a port that went down does not come to. -/
theorem flitStep_crcOk {s : State} {f : Flit} (hcrc : f.crcOk = true) :
    flitStep s p f = (fun s2 => if (sport s2 p).state = 6 then s2 else pumpPort 512 p (acceptFlit s2 p f))
      (if f.nak = true ∧ (sport (ackedState s p f) p).ignoreNak ≠ some f.ackseq ∧ (!(sport (ackedState s p f) p).unacked.isEmpty) = true then replay (ackedState s p f) p f.ackseq
        else ackedState s p f) := by
  unfold flitStep
  rw [hcrc]
  rfl

theorem flitStep_good {s : State} {f : Flit} (hcrc : f.crcOk = true) (hst : (sport s p).state ≠ 6) (hnot : ¬ AsksReplay (ackedPort (sport s p) f) f) :
    flitStep s p f = pumpPort 512 p (acceptFlit (ackedState s p f) p f) := by
  have hport := sport_ackedState hp s f
  have hstate : ¬ (sport (ackedState s p f) p).state = 6 := by
    rw [hport, (ackedPort_keeps _ f).1]
    exact hst
  have hno : ¬ (f.nak = true ∧ (sport (ackedState s p f) p).ignoreNak ≠ some f.ackseq ∧ (!(sport (ackedState s p f) p).unacked.isEmpty) = true) := by
    rw [hport]
    intro ⟨hnak, hign, hun⟩
    exact hnot ⟨hnak, hign, fun he => by simp [he] at hun⟩
  rw [flitStep_crcOk hcrc, if_neg hno]
  exact if_neg hstate

theorem flitStep_again {s : State} {f : Flit} (hcrc : f.crcOk = true) (hask : AsksReplay (ackedPort (sport s p) f) f) :
    flitStep s p f = if (sport (replay (ackedState s p f) p f.ackseq) p).state = 6 then replay (ackedState s p f) p f.ackseq
      else pumpPort 512 p (acceptFlit (replay (ackedState s p f) p f.ackseq) p f) := by
  have hyes : f.nak = true ∧ (sport (ackedState s p f) p).ignoreNak ≠ some f.ackseq ∧ (!(sport (ackedState s p f) p).unacked.isEmpty) = true := by
    rw [sport_ackedState hp]
    obtain ⟨hnak, hign, hun⟩ := hask
    exact ⟨hnak, hign, by simp [hun]⟩
  rw [flitStep_crcOk hcrc, if_pos hyes]

end

theorem exec_flitReceive {s : State} {p : Nat} (hp : p < 12) (hst : (sport s p).state ∈ [4, 5]) (f : Flit) : exec (.flitReceive p f) s = .next (flitStep s p f) :=
  (exec_onPort hp (portIn_of_mem hst) : execFlitReceive p f s = _)

theorem exec_ackseqStallTimer {s : State} {p : Nat} (hp : p < 12) (hst : (sport s p).state = 4) (hun : (sport s p).unacked ≠ []) :
    exec (.ackseqStallTimer p) s = .next (replay s p (beforeOldest (sport s p))) :=
  (exec_onPort hp (by simp [portIn, hst, hun]) : execAckseqStallTimer p s = _)

theorem ne_six_of_up {n : Nat} (h : n ∈ [4, 5]) : n ≠ 6 := by
  rintro rfl
  exact absurd h (by decide)

theorem state_portDown (s : State) {p : Nat} (hp : p < 12) : (sport (portDown s p) p).state = 6 := by
  obtain ⟨y, hy⟩ := sport_portDown s hp
  rw [hy]
  rfl

/-- Settles O40: with nothing queued the port sends nothing after the flit, so that what the flit did is what is left. -/
theorem flitsAreAcceptedAcknowledgedAndReplayed : Obligations.FlitsAreAcceptedAcknowledgedAndReplayed := by
  unfold Obligations.FlitsAreAcceptedAcknowledgedAndReplayed
  refine ⟨fun s p f hp hst => ⟨fun hcrc hnak ht hqueues => ?good, fun hcrc hrun => ?bad, fun hcrc hrun => ?down⟩, fun s p hp hst hun => ⟨_, exec_ackseqStallTimer hp hst hun, fun h => ?replay, fun h => ?last⟩⟩
  case good =>
    obtain ⟨-, hnext, -, hkept⟩ := ackedPort_keeps (sport s p) f
    have hnot : ¬ AsksReplay (ackedPort (sport s p) f) f := fun h => Bool.false_ne_true (hnak.symm.trans h.1)
    have hport := sport_ackedState hp s f
    have hidle : ∀ v < 4, Vec.get (sport (acceptFlit (ackedState s p f) p f) p).queues v [] = [] := by
      obtain ⟨_, _, _, haccept, -⟩ := acceptFlit_keeps hp (ackedState s p f) f
      rw [haccept, hport]
      simpa only [hkept] using hqueues
    refine ⟨_, exec_flitReceive hp hst f, ?_⟩
    rw [flitStep_good hp hcrc (ne_six_of_up hst) hnot, pumpPort_of_idle (.inr hidle), ← hnext, ← hport, ← unacked_ackedPort, ← hport]
    refine ⟨?_, fun hseq => ?_, fun hseq => ?_⟩
    · obtain ⟨_, _, _, haccept, -⟩ := acceptFlit_keeps hp (ackedState s p f) f
      rw [haccept]
    · obtain ⟨hrx, -, hcount, hout⟩ := acceptFlit_in hp ht hseq
      exact ⟨hrx, hcount, hout⟩
    · obtain ⟨haccept, hregs⟩ := acceptFlit_out hp ht hseq
      rw [haccept]
      exact ⟨rfl, rfl, hregs⟩
  case bad =>
    refine ⟨_, exec_flitReceive hp hst f, ?_⟩
    rw [flitStep_bad hp hcrc, if_neg (by omega), sport_badFlit hp]
    exact ⟨crcErrs_badFlit s, rfl, rfl, rfl⟩
  case down =>
    refine ⟨_, exec_flitReceive hp hst f, ?_⟩
    rw [flitStep_bad hp hcrc, if_pos (by omega)]
    exact state_portDown _ hp
  case replay =>
    obtain ⟨hport, -, hcount, -⟩ := replay_of_lt hp (ackseq := beforeOldest (sport s p)) h
    rw [hport]
    exact ⟨rfl, rfl, hcount⟩
  case last => exact state_replay_of_ge hp h

/-- Settles O60: a flit that is not good is discarded or takes the port down; a good one acts in the order acknowledgements, replay, sequence, and what the port then sends changes neither (that
the NAK leaves at once in an idle flit, and which NAKs are ignored, is the model's reading, log entry 32). -/
theorem flitsAndStallTimersComplete : Obligations.FlitsAndStallTimersComplete := by
  unfold Obligations.FlitsAndStallTimersComplete
  refine ⟨fun s p f hp hst => ?flit, fun s p hp hst hun => ⟨_, exec_ackseqStallTimer hp hst hun, fun h => ?replay, fun h => state_replay_of_ge hp h⟩⟩
  case flit =>
    have hport := sport_ackedState hp s f
    obtain ⟨hstate, hnext, hdisc, -⟩ := ackedPort_keeps (sport s p) f
    refine ⟨_, exec_flitReceive hp hst f, fun hcrc hrun => ?_, fun hcrc hrun => ?_, fun hcrc hnot => ?_, fun hcrc hask hlt => ?_, fun hcrc hask hge => ?_⟩
    · rw [flitStep_bad hp hcrc, if_neg (by omega)]
      exact ⟨sport_badFlit hp s, crcErrs_badFlit s, out_badFlit hp s⟩
    · rw [flitStep_bad hp hcrc, if_pos (by omega)]
      exact state_portDown _ hp
    · rw [flitStep_good hp hcrc (ne_six_of_up hst) hnot]
      have hpump := sends_pumpPort p 512 (acceptFlit (ackedState s p f) p f)
      rw [hpump.rxNext, hpump.discarding, hpump.reg Csr.stnFlitsRx (by decide), ← hnext, ← hdisc, ← hport]
      refine ⟨fun ht hseq => ?_, fun ht hseq => ?_, fun ht => ?_⟩
      · obtain ⟨hrx, hd, hcount, -⟩ := acceptFlit_in hp ht hseq
        exact ⟨hrx, hd, hcount⟩
      · obtain ⟨haccept, hregs⟩ := acceptFlit_out hp ht hseq
        rw [haccept, State.reg, hregs]
        exact ⟨rfl, rfl, rfl⟩
      · rw [acceptFlit_other ht]
        exact ⟨rfl, rfl, rfl⟩
    · rw [← show ackedPort (sport s p) f = applyCredits (applyAck { sport s p with badRun := 0 } f.ackseq) f.cr from rfl, ← hport] at hlt ⊢
      obtain ⟨hreplay, -, hcount, -⟩ := replay_of_lt hp (ackseq := f.ackseq) hlt
      have hup : (sport (replay (ackedState s p f) p f.ackseq) p).state ≠ 6 := by
        rw [hreplay, hport]
        exact fun h => ne_six_of_up hst (hstate.symm.trans h)
      rw [flitStep_again hp hcrc hask, if_neg hup]
      obtain ⟨_, _, _, haccept, hregs⟩ := acceptFlit_keeps hp (replay (ackedState s p f) p f.ackseq) f
      have hpump := sends_pumpPort p 512 (acceptFlit (replay (ackedState s p f) p f.ackseq) p f)
      rw [hpump.reg _ (by decide), hregs _ (by decide), hpump.replays, hpump.ignoreNak, haccept, hreplay]
      exact ⟨hcount, rfl, rfl⟩
    · rw [← show ackedPort (sport s p) f = applyCredits (applyAck { sport s p with badRun := 0 } f.ackseq) f.cr from rfl, ← hport] at hge
      have hdown := state_replay_of_ge hp (ackseq := f.ackseq) hge
      rw [flitStep_again hp hcrc hask, if_pos hdown]
      exact hdown
  case replay =>
    obtain ⟨hport, hother, hcount, -⟩ := replay_of_lt hp (ackseq := beforeOldest (sport s p)) h
    exact ⟨hcount, fun q _ hne => hother q hne, hport⟩

end Sys2Proof.Machine
end

section
/-! PROOFS. The Staon fabric's ports that go down and messages that are given up (R469, R482, R491 to R500): what they leave of the fabric and the registers; leaving, addresses, the mailbox, and the timers of messages. -/

namespace Sys2Proof.Machine

open Sys2Proof.Claims

/-! ### Losing: what ports going down and messages given up leave of the fabric and the registers (R469, R482, R491 to R500) -/

/-- The fabric block without its ports, its messages and what it has sent: the module's address, its leaving, its mailbox and the pairs it accepted. -/
def besidesMessages (b : Staon) : Staon := { b with ports := Vector.replicate 12 SPort.reset, msgid := 0, sent := [], kept := [], early := [], out := [] }

/-- Registers that the sending and settling of messages may change: counts of the fabric, and of the bytes acknowledged. -/
def SendReg (off : Nat) : Prop := off ∈ [Csr.stnFlitsTx, Csr.stnMcastLost, Csr.stnDrops] ∨ ∃ c, off = Csr.prfBytesRmt c

/-- Registers that a port going down or a message given up may change: those, and what the end of a task changes. -/
def LossReg (off : Nat) : Prop := SendReg off ∨ off ∈ [Csr.stnLinkDowns, Csr.stnMcastDetach, Csr.errLogNext, Csr.errTasksEnded] ∨ ∃ q, off = Csr.hqState q

theorem lossReg_of_sendReg (off : Nat) (h : SendReg off) : LossReg off := .inl h

/-- From `s` to `s'` ports of `A` went down or messages were given up, and only registers of `R` changed: the other links stay as they are, no message that is not a copy comes to wait, and no
member comes to be owed. -/
structure Loses (A R : Nat → Prop) (s s' : State) : Prop where
  link : ∀ q, ¬ A q → linkView (sport s' q) = linkView (sport s q)
  rest : besidesMessages s'.staon = besidesMessages s.staon
  sent : ∀ y ∈ s'.staon.sent, y.copyOf = none → ∃ x ∈ s.staon.sent, x.copyOf = none ∧ x.msg = y.msg
  kept : ∀ k ∈ s'.staon.kept, ∃ j ∈ s.staon.kept, j.msg = k.msg ∧ k.owed ⊆ j.owed
  out : s.staon.out <+: s'.staon.out
  reg : ∀ off, ¬ R off → s'.reg off = s.reg off

theorem Loses.refl (A R : Nat → Prop) (s : State) : Loses A R s s :=
  ⟨fun _ _ => rfl, rfl, fun y hy hc => ⟨y, hy, hc, rfl⟩, fun k hk => ⟨k, hk, rfl, List.Subset.refl _⟩, List.prefix_refl _, fun _ _ => rfl⟩

theorem Loses.trans {A R : Nat → Prop} {a b c : State} (h1 : Loses A R a b) (h2 : Loses A R b c) : Loses A R a c where
  link q hq := (h2.link q hq).trans (h1.link q hq)
  rest := h2.rest.trans h1.rest
  sent y hy hc := by
    obtain ⟨x, hx, hxc, hxm⟩ := h2.sent y hy hc
    obtain ⟨w, hw, hwc, hwm⟩ := h1.sent x hx hxc
    exact ⟨w, hw, hwc, hwm.trans hxm⟩
  kept k hk := by
    obtain ⟨j, hj, hjm, hjo⟩ := h2.kept k hk
    obtain ⟨i, hi, him, hio⟩ := h1.kept j hj
    exact ⟨i, hi, him.trans hjm, fun a ha => hio (hjo ha)⟩
  out := h1.out.trans h2.out
  reg off ho := (h2.reg off ho).trans (h1.reg off ho)

theorem Loses.mono {A R : Nat → Prop} {B : Nat → Prop} {s s' : State} (h : Loses A R s s') (hRB : ∀ q, R q → B q) : Loses A B s s' :=
  { h with reg := fun off ho => h.reg off (fun hr => ho (hRB off hr)) }

theorem loses_foldl {A R : Nat → Prop} {α : Type} {f : State → α → State} (hf : ∀ s x, Loses A R s (f s x)) (l : List α) : ∀ s : State, Loses A R s (l.foldl f s) := by
  induction l with
  | nil => exact fun s => .refl A R s
  | cons x l ih => exact fun s => (hf s x).trans (ih _)

theorem loses_ite {A R : Nat → Prop} {c : Prop} [Decidable c] {s a b : State} (ha : Loses A R s a) (hb : Loses A R s b) : Loses A R s (if c then a else b) := by
  split
  · exact ha
  · exact hb

section
variable {A R : Nat → Prop} (s : State)

/-- The fabric block stays, and no register but those of a loss changes. -/
theorem loses_of_same {s s' : State} (hst : s'.staon = s.staon) (hreg : ∀ off, ¬ R off → s'.reg off = s.reg off) : Loses A R s s' where
  link q _ := by rw [sport, hst, sport]
  rest := by rw [hst]
  sent y hy hc := ⟨y, hst ▸ hy, hc, rfl⟩
  kept k hk := ⟨k, hst ▸ hk, rfl, List.Subset.refl _⟩
  out := hst ▸ List.prefix_refl _
  reg := hreg

theorem loses_count {off : Nat} (ho : R off) (n : Nat) : Loses A R s (s.count off n) :=
  loses_of_same rfl (fun _ ho' => State.reg_count_other _ _ (fun h => ho' (h ▸ ho)))

theorem loses_modSport (p : Nat) {f : SPort → SPort} (hf : ∀ x, linkView (f x) = linkView x) : Loses A R s (modSport s p f) :=
  ⟨fun q _ => linkView_modSport s p hf q, rfl, fun y hy hc => ⟨y, hy, hc, rfl⟩, fun k hk => ⟨k, hk, rfl, List.Subset.refl _⟩, List.prefix_refl _, fun _ _ => rfl⟩

theorem loses_of_sends {s s' : State} (hR : R Csr.stnFlitsTx) (h : Sends s s') : Loses A R s s' where
  link q _ := h.link q
  rest := of_besidesSending besidesMessages (fun _ => rfl) h.rest
  sent y hy hc := by
    have hmem : unsent y ∈ s.staon.sent.map unsent := h.sent ▸ List.mem_map_of_mem hy
    obtain ⟨x, hx, hxy⟩ := List.mem_map.mp hmem
    exact ⟨x, hx, (of_unsent SentMsg.copyOf (fun _ => rfl) hxy).trans hc, of_unsent SentMsg.msg (fun _ => rfl) hxy⟩
  kept k hk := ⟨k, of_besidesSending Staon.kept (fun _ => rfl) h.rest ▸ hk, rfl, List.Subset.refl _⟩
  out := h.out
  reg off ho := h.reg off (fun he => ho (he ▸ hR))

/-- The messages in wait filtered, or changed but for what they are. -/
theorem loses_sent {g : List SentMsg → List SentMsg} (hg : ∀ l, ∀ y ∈ g l, y.copyOf = none → ∃ x ∈ l, x.copyOf = none ∧ x.msg = y.msg) :
    Loses A R s (s.modStaon (fun b => { b with sent := g b.sent })) :=
  ⟨fun _ _ => rfl, rfl, hg _, fun k hk => ⟨k, hk, rfl, List.Subset.refl _⟩, List.prefix_refl _, fun _ _ => rfl⟩

theorem loses_kept {g : List Retained → List Retained} (hg : ∀ l, ∀ k ∈ g l, ∃ j ∈ l, j.msg = k.msg ∧ k.owed ⊆ j.owed) :
    Loses A R s (s.modStaon (fun b => { b with kept := g b.kept })) :=
  ⟨fun _ _ => rfl, rfl, fun y hy hc => ⟨y, hy, hc, rfl⟩, hg _, List.prefix_refl _, fun _ _ => rfl⟩

theorem loses_sent_filter (c : SentMsg → Bool) : Loses A R s (s.modStaon (fun b => { b with sent := b.sent.filter c })) :=
  loses_sent s (fun _ y hy hc => ⟨y, (List.mem_filter.mp hy).1, hc, rfl⟩)

theorem loses_freeKept : Loses A R s (freeKept s) := by
  unfold freeKept
  exact loses_kept s (fun l k hk => ⟨k, (List.mem_filter.mp hk).1, rfl, List.Subset.refl _⟩)

theorem loses_portSend (p : Nat) (m : StnMsg) : Loses A SendReg s (portSend s p m) := loses_of_sends (.inl (by decide)) (sends_portSend s p m)

theorem loses_sendControl (m : StnMsg) : Loses A SendReg s (sendControl s m) := by
  have hid : Loses A SendReg s (takeMsgid s).1 := ⟨fun _ _ => rfl, rfl, fun y hy hc => ⟨y, hy, hc, rfl⟩, fun k hk => ⟨k, hk, rfl, List.Subset.refl _⟩, List.prefix_refl _, fun _ _ => rfl⟩
  unfold sendControl
  dsimp only
  split
  · exact hid.trans (loses_portSend _ _ _)
  · exact hid.trans (loses_count _ (.inl (by decide)) 1)

/-- A copy of a retained message comes to wait for its own settling. -/
theorem loses_launch (m : StnMsg) (owner : Option (Nat × Nat × Nat)) (a p : Nat) : Loses A SendReg s (launch s m owner (some a) p) := by
  have hwait : Loses A SendReg s (s.modStaon (fun b => { b with sent := b.sent ++ [⟨m, owner, 0, none, false, some a⟩] })) := by
    refine loses_sent s (g := fun l => l ++ [⟨m, owner, 0, none, false, some a⟩]) (fun l y hy hc => ?_)
    rcases List.mem_append.mp hy with hy | hy
    · exact ⟨y, hy, hc, rfl⟩
    · rw [List.mem_singleton.mp hy] at hc
      cases hc
  exact hwait.trans (loses_portSend _ p m)

theorem loses_ackInst (owner : Option (Nat × Nat × Nat)) (len : Nat) : Loses A SendReg s (ackInst s owner len) := by
  unfold ackInst
  split
  · exact .refl A SendReg s
  · next t k n =>
    have hinst : ∀ f, Touch { trays := true } s (s.modInst t k f) := fun f => touch_State_modInst _ _ _ _ (.refl _ _) rfl
    refine Loses.trans (loses_of_same ((hinst _).staon rfl) (fun off _ => ?_)) (loses_count _ (.inr ⟨_, rfl⟩) len)
    rw [State.reg, (hinst _).regs rfl, State.reg]

theorem loses_settleKept (id : Nat) : Loses A SendReg s (settleKept s id) := by
  have hacks : ∀ l : List Retained, Loses A SendReg s (l.foldl (fun s' k => ackInst s' k.owner (msgLen k.msg)) s) := fun l => loses_foldl (fun s' k => loses_ackInst s' _ _) l s
  unfold settleKept
  dsimp only
  exact ((hacks _).trans (loses_ite (.refl A SendReg _) (loses_sent_filter _ _))).trans (loses_freeKept _)

theorem loses_loseLaggard (k : Retained) (a : Nat) : Loses A SendReg s (loseLaggard s k a) := by
  unfold loseLaggard
  dsimp only
  refine Loses.trans ?_ (loses_sendControl _ _)
  refine ⟨fun _ _ => rfl, rfl, fun y hy hc => ⟨y, (List.mem_filter.mp hy).1, hc, rfl⟩, fun j hj => ?_, List.prefix_refl _, fun _ _ => rfl⟩
  obtain ⟨x, hx, rfl⟩ := List.mem_map.mp hj
  refine ⟨x, hx, ?_⟩
  split <;> exact ⟨rfl, List.Subset.refl _⟩

theorem loses_sendCopy (k : Retained) (a : Nat) : Loses A SendReg s (sendCopy s k a) := by
  unfold sendCopy
  dsimp only
  split
  · exact loses_launch s _ _ _ _
  · exact (loses_count s (.inl (by decide)) 1).trans (loses_loseLaggard _ _ _)

/-- Members moved from those owed to the laggards of a message, and counted. -/
def detached (id : Nat) (lag : List Nat) : State :=
  (s.modStaon (fun b => { b with kept := b.kept.map (fun x =>
    if x.msg.msgid = id then { x with owed := x.owed.filter (fun a => !lag.contains a), laggards := x.laggards ++ lag } else x) })).count Csr.stnMcastDetach lag.length

theorem loses_detached (id : Nat) (lag : List Nat) : Loses A LossReg s (detached s id lag) := by
  refine Loses.trans (loses_kept s (g := fun l => l.map (fun x =>
    if x.msg.msgid = id then { x with owed := x.owed.filter (fun a => !lag.contains a), laggards := x.laggards ++ lag } else x)) (fun l j hj => ?_)) (loses_count _ (.inr (.inl (by decide))) _)
  obtain ⟨x, hx, rfl⟩ := List.mem_map.mp hj
  refine ⟨x, hx, ?_⟩
  split
  · exact ⟨rfl, fun a ha => (List.mem_filter.mp ha).1⟩
  · exact ⟨rfl, List.Subset.refl _⟩

/-- With the members detached, what is queued for them alone is dropped, and their copies are sent (R492, R493). -/
theorem loses_detach_of_lag {id : Nat} {who : List Nat} {k : Retained} (hk : s.staon.kept.find? (fun k => k.msg.msgid == id) = some k) (hlag : k.owed.filter (fun a => who.contains a) ≠ []) :
    Loses A SendReg (detached s id (k.owed.filter (fun a => who.contains a))) (detach s id who) := by
  have hdrop : ∀ (x : State) (c : State → Nat → Bool) (f : SPort → SPort), (∀ y, linkView (f y) = linkView y) →
      Loses A SendReg x ((List.range 12).foldl (fun s' p => if c s' p then modSport s' p f else s') x) :=
    fun x c f hf => loses_foldl (fun s' p => loses_ite (loses_modSport s' p hf) (.refl A SendReg s')) _ x
  have hcopies : ∀ (x : State) (k : Retained) (l : List Nat), Loses A SendReg x (l.foldl (fun s' a => sendCopy s' k a) x) := fun x k l => loses_foldl (fun s' a => loses_sendCopy s' k a) l x
  unfold detach
  rw [hk]
  dsimp only
  rw [if_neg (fun he => hlag (List.isEmpty_iff.mp he))]
  refine Loses.trans (Loses.trans (hdrop (detached s id _) (fun s' p => allBehind s' k.group p _) _ ?_) (hcopies _ _ _)) (loses_settleKept _ _)
  exact fun _ => rfl

theorem loses_detach (id : Nat) (who : List Nat) : Loses A LossReg s (detach s id who) := by
  cases hk : s.staon.kept.find? (fun k => k.msg.msgid == id) with
  | none =>
    rw [detach, hk]
    exact .refl A LossReg s
  | some k =>
    by_cases hlag : k.owed.filter (fun a => who.contains a) = []
    · rw [detach, hk]
      dsimp only
      rw [if_pos (List.isEmpty_iff.mpr hlag)]
      exact .refl A LossReg s
    · exact (loses_detached s id _).trans ((loses_detach_of_lag s hk hlag).mono lossReg_of_sendReg)

end

/-! ### Tasks that end, and ports that go down -/

section
variable {A : Nat → Prop} (s : State)

theorem loses_setFld {off : Nat} (ho : LossReg off) (hi lo v : Nat) : Loses A LossReg s (s.setFld off hi lo v) :=
  loses_of_same rfl (fun _ ho' => State.reg_setFld_other _ _ _ _ (fun h => ho' (h ▸ ho)))

theorem staon_discardTray (t : Nat) : (discardTray s t true).staon = s.staon.disown t := by
  unfold discardTray
  dsimp only
  rw [if_pos rfl]
  rfl

/-- The messages of an ended task are disowned; they wait for their settling as before. -/
theorem loses_disown {s s' : State} {t : Nat} (hst : s'.staon = s.staon.disown t) (hreg : ∀ off, s'.reg off = s.reg off) : Loses A LossReg s s' where
  link q _ := by rw [sport, hst]; rfl
  rest := by rw [hst]; rfl
  sent y hy hc := by
    rw [hst] at hy
    obtain ⟨x, hx, rfl⟩ := List.mem_map.mp hy
    exact ⟨x, hx, hc, rfl⟩
  kept k hk := by
    rw [hst] at hk
    obtain ⟨j, hj, rfl⟩ := List.mem_map.mp hk
    exact ⟨j, hj, rfl, List.Subset.refl _⟩
  out := by rw [hst]; exact List.prefix_refl _
  reg off _ := hreg off

theorem loses_discardTray (t : Nat) : Loses A LossReg s (discardTray s t true) := loses_disown (staon_discardTray s t) (fun off => reg_discardTray s t true off)

theorem loses_dropEnds (t : Nat) : Loses A LossReg s (dropEnds s t) := by
  unfold dropEnds
  dsimp only
  exact loses_ite (.refl A LossReg s) (loses_of_same rfl (fun _ _ => rfl))

theorem loses_logError (code scope queue tray index aux addr : Nat) : Loses A LossReg s (logError s code scope queue tray index aux addr) :=
  (loses_setFld s (.inr (.inl (by decide))) 31 0 _).trans (loses_of_same rfl (fun _ _ => rfl))

theorem loses_endTaskLog (t code index pass rowBlk aux addr logAux logAddr : Nat) : Loses A LossReg s (endTaskLog s t code index pass rowBlk aux addr logAux logAddr) := by
  unfold endTaskLog
  dsimp only
  refine loses_ite (.refl A LossReg s) (Loses.trans ?_ (loses_logError _ _ _ _ _ _ _ _))
  refine Loses.trans ?_ (loses_count _ (.inr (.inl (by decide))) 1)
  refine Loses.trans ?_ (loses_setFld _ (.inr (.inr ⟨_, rfl⟩)) 23 23 1)
  refine Loses.trans ?_ (loses_dropEnds _ t)
  refine Loses.trans ?_ (loses_discardTray _ t)
  exact loses_of_same rfl (fun _ _ => rfl)

theorem loses_endTask (t code index pass rowBlk aux addr : Nat) : Loses A LossReg s (endTask s t code index pass rowBlk aux addr) := loses_endTaskLog s _ _ _ _ _ _ _ _ _

theorem loses_faultInst (t k code aux addr : Nat) : Loses A LossReg s (faultInst s t k code aux addr) := by
  unfold faultInst faultInstLog
  split
  · dsimp only
    have hmod : ∀ (x : State) (f : Tray → Tray), Loses A LossReg x (x.modTray t f) := fun x f => loses_of_same rfl (fun _ _ => rfl)
    exact loses_ite (Loses.trans (loses_endTaskLog s _ _ _ _ _ _ _ _ _) (hmod _ _)) (loses_endTaskLog s _ _ _ _ _ _ _ _ _)
  · exact .refl A LossReg s

theorem loses_faultOwner (owner : Option (Nat × Nat × Nat)) (code : Nat) : Loses A LossReg s (faultOwner s owner code) := by
  unfold faultOwner
  split
  · exact .refl A LossReg s
  · exact loses_faultInst s _ _ _ _ _

theorem loses_fabEvent (code aux addr : Nat) : Loses A LossReg s (fabEvent s code aux addr) := loses_of_same rfl (fun _ _ => rfl)

theorem loses_loseMember (a : Nat) : Loses A LossReg s (loseMember s a) := by
  refine loses_foldl (fun s' t => ?_) _ s
  split
  · exact loses_faultInst s' _ _ _ _ _
  · exact .refl A LossReg s'

theorem loses_portLost (p : Nat) (left : Bool) : Loses A LossReg s (portLost s p left) := by
  have hearly : Loses A LossReg s (if left then s else s.modStaon (fun b => { b with early := b.early.filter (fun e => e.1 != p) })) :=
    loses_ite (.refl A LossReg s) ⟨fun _ _ => rfl, rfl, fun y hy hc => ⟨y, hy, hc, rfl⟩, fun k hk => ⟨k, hk, rfl, List.Subset.refl _⟩, List.prefix_refl _, fun _ _ => rfl⟩
  have hdetach : ∀ (x y : State) (l : List Retained), Loses A LossReg x (l.foldl (fun s' k => detach s' k.msg.msgid (k.owed.filter (fun m => memberPort y m == some p))) x) :=
    fun x y l => loses_foldl (fun s' k => loses_detach s' _ _) l x
  unfold portLost
  exact ((hearly.trans (loses_fabEvent _ _ _ _)).trans (loses_loseMember _ _)).trans (hdetach _ _ _)

theorem loses_freeFlits (p v n : Nat) : Loses A LossReg s (freeFlits s p v n) := loses_of_sends (.inl (.inl (by decide))) (sends_freeFlits s p v n)

theorem loses_clearQueues (p : Nat) : Loses A LossReg s (clearQueues s p) := by
  have hfree : ∀ (l : List (Nat × Nat × Nat)) (x : State), Loses A LossReg x (l.foldl (fun s' k => transitFree s k s') x) :=
    fun l x => loses_foldl (fun s' k => loses_freeFlits s' _ _ _) l x
  unfold clearQueues
  dsimp only
  refine Loses.trans (loses_modSport s p ?_) (hfree _ _)
  exact fun _ => rfl

theorem loses_dropTransit (p : Nat) : Loses A LossReg s (dropTransit s p) where
  link q _ := by
    by_cases hq : q < 12
    · simp [dropTransit, sport, State.modStaon, State.setStaon, Vec.get, hq, linkView]
    · simp [sport, Vec.get, hq]
  rest := rfl
  sent y hy hc := ⟨y, hy, hc, rfl⟩
  kept k hk := ⟨k, hk, rfl, List.Subset.refl _⟩
  out := List.prefix_refl _
  reg _ _ := rfl

/-- A port changed at will, of those that may go down. -/
theorem loses_modSport_of {p : Nat} (hA : A p) (f : SPort → SPort) : Loses A LossReg s (modSport s p f) where
  link q hq := by
    have hne : p ≠ q := by
      rintro rfl
      exact hq hA
    rw [sport_modSport_other s hne]
  rest := rfl
  sent y hy hc := ⟨y, hy, hc, rfl⟩
  kept k hk := ⟨k, hk, rfl, List.Subset.refl _⟩
  out := List.prefix_refl _
  reg _ _ := rfl

theorem loses_portDown {p : Nat} (hA : A p) : Loses A LossReg s (portDown s p) := by
  have hlost : ∀ (x : State) (f : SPort → SPort), Loses A LossReg x (modSport (dropTransit (clearQueues x p) p) p f) :=
    fun x f => ((loses_clearQueues x p).trans (loses_dropTransit _ p)).trans (loses_modSport_of _ hA f)
  have hcount : Loses A LossReg s (s.count Csr.stnLinkDowns 1) := loses_count s (.inr (.inl (by decide))) 1
  unfold portDown
  exact loses_ite (((hcount.trans (loses_modSport_of _ hA _)).trans (loses_portLost _ p false)).trans (hlost _ _)) (hcount.trans (hlost _ _))

theorem loses_portDisable {p : Nat} (hA : A p) : Loses A LossReg s (portDisable s p) := by
  unfold portDisable
  exact (loses_ite (loses_portDown s hA) (.refl A LossReg s)).trans (loses_modSport_of _ hA _)

theorem loses_adjustPorts : Loses (fun _ => True) LossReg s (adjustPorts s) := by
  refine loses_foldl (fun s' p => ?_) _ s
  exact loses_ite (loses_ite (loses_modSport_of s' trivial _) (.refl _ _ s')) (loses_ite (.refl _ _ s') (loses_portDisable s' trivial))

end

/-! ### Leaving (R499, R500) -/

theorem of_besidesMessages {α : Type} {a b : Staon} (g : Staon → α) (hg : ∀ x, g (besidesMessages x) = g x) (h : besidesMessages a = besidesMessages b) : g a = g b := by
  rw [← hg a, h, hg]

section
variable {A R : Nat → Prop} {s s' : State} (h : Loses A R s s')
include h

theorem Loses.leaving : s'.staon.leaving = s.staon.leaving := of_besidesMessages Staon.leaving (fun _ => rfl) h.rest

theorem Loses.left : s'.staon.left = s.staon.left := of_besidesMessages Staon.left (fun _ => rfl) h.rest

theorem Loses.enabled : s'.staon.enabled = s.staon.enabled := of_besidesMessages Staon.enabled (fun _ => rfl) h.rest

theorem Loses.portState {q : Nat} (hq : ¬ A q) : (sport s' q).state = (sport s q).state := of_linkView SPort.state (fun _ => rfl) (h.link q hq)

theorem Loses.peerLeaving {q : Nat} (hq : ¬ A q) : (sport s' q).peerLeaving = (sport s q).peerLeaving := of_linkView SPort.peerLeaving (fun _ => rfl) (h.link q hq)

end

/-- Some message sent on every UP port of a list. -/
theorem foldl_upPorts (g : State → Nat → StnTx) (hg : ∀ s l p, g (outs s l) p = g s p) (l : List Nat) : ∀ s : State,
    l.foldl (fun s' p => if (sport s' p).state = 4 then fabOut s' (g s' p) else s') s = outs s ((l.filter (fun p => (sport s p).state == 4)).map (g s)) := by
  induction l with
  | nil => exact fun s => by simp [outs, State.modStaon, State.setStaon]
  | cons p l ih =>
    intro s
    have hout : ∀ m, fabOut s m = outs s [m] := fun _ => rfl
    have happend : ∀ a b, outs (outs s a) b = outs s (a ++ b) := fun a b => by simp [outs, State.modStaon, State.setStaon]
    rw [List.foldl_cons]
    by_cases hup : (sport s p).state = 4
    · rw [if_pos hup, hout, ih, happend, List.filter_cons_of_pos (by simp [hup])]
      simp only [sport_outs, List.map_cons, List.singleton_append]
      rw [show g (outs s [g s p]) = g s from funext (hg s _)]
    · rw [if_neg hup, ih, List.filter_cons_of_neg (by simp [hup])]

theorem startLeave_eq {s : State} (hl : s.staon.leaving = false) (hleft : s.staon.left = false) :
    startLeave s = outs (s.modStaon (fun b => { b with leaving := true })) (((List.range 12).filter (fun p => (sport s p).state == 4)).map .leave) := by
  rw [startLeave, if_neg (by simp [hl, hleft])]
  exact foldl_upPorts (fun _ p => .leave p) (fun _ _ _ => rfl) _ _

theorem leaving_startLeave {s : State} (hl : s.staon.leaving = false) (hleft : s.staon.left = false) : (startLeave s).staon.leaving = true := by
  rw [startLeave_eq hl hleft]
  rfl

theorem leave_mem_startLeave {s : State} (hl : s.staon.leaving = false) (hleft : s.staon.left = false) {p : Nat} (hp : p < 12) (hup : (sport s p).state = 4) :
    StnTx.leave p ∈ (startLeave s).staon.out := by
  rw [startLeave_eq hl hleft]
  exact List.mem_append_right _ (List.mem_map_of_mem (List.mem_filter.mpr ⟨List.mem_range.mpr hp, by simp [hup]⟩))

/-- Each port of a list that is disabled is so at the end. -/
theorem foldl_portDisable {p : Nat} (hp : p < 12) (l : List Nat) : ∀ s : State, p ∈ l ∨ (sport s p).state = 0 → (sport (l.foldl portDisable s) p).state = 0 := by
  induction l with
  | nil => exact fun s h => h.resolve_left List.not_mem_nil
  | cons q l ih =>
    intro s h
    rw [List.foldl_cons]
    refine ih _ ?_
    by_cases hpq : p = q
    · subst hpq
      refine .inr ?_
      unfold portDisable
      rw [sport_modSport_same _ hp]
      rfl
    · refine h.imp (fun hmem => (List.mem_cons.mp hmem).resolve_left hpq) (fun hz => ?_)
      rw [(loses_portDisable (A := fun r => r = q) s rfl).portState hpq, hz]

/-- Leaving has ended: nothing is retained, and every port is disabled. -/
structure HasLeft (s : State) : Prop where
  left : s.staon.left = true
  leaving : s.staon.leaving = false
  kept : s.staon.kept = []
  ports : ∀ p < 12, (sport s p).state = 0

theorem hasLeft_finishLeave (s : State) : HasLeft (finishLeave s) := by
  have hloses : ∀ x, Loses (fun _ => True) LossReg x ((List.range 12).foldl portDisable x) := fun x => loses_foldl (fun s' p => loses_portDisable s' trivial) _ x
  have hports := fun x p hp => foldl_portDisable (p := p) hp (List.range 12) x (.inl (List.mem_range.mpr hp))
  unfold finishLeave
  exact { left := (hloses _).left, leaving := (hloses _).leaving, kept := List.eq_nil_iff_forall_not_mem.mpr (fun k hk => by
            obtain ⟨j, hj, -⟩ := (hloses _).kept k hk
            exact List.not_mem_nil hj), ports := hports _ }

theorem hearth_finishLeave (s : State) : (finishLeave s).hearth = s.hearth := by
  have h : Touch portParts s (finishLeave s) := by apply touch_finishLeave _ (.refl _ s) <;> rfl
  exact h.hearth rfl

/-! ### Registers of the fabric with an effect (R484, R499, R504) -/

/-- A write of STN_LEAVE to 1 stores the register, begins the leaving, and brings the ports in line. -/
theorem stnCfgStore_of_leave {s : State} {v : Reg} (hv : bit v 0 = true) (hclear : bit (s.reg Csr.stnCfg) 0 = false) : ∃ x, stnCfgStore s v = adjustPorts (startLeave x) ∧ x.staon = s.staon := by
  have hsome : (RegMap.find Csr.stnCfg).isSome = true := by decide +kernel
  obtain ⟨⟨d, i, j⟩, hfind⟩ := Option.isSome_iff_exists.mp hsome
  rw [stnCfgStore, hfind]
  dsimp only
  rw [hv, hclear]
  refine ⟨storeWrite s Csr.stnCfg d 0 v, rfl, ?_⟩
  exact (touch_storeWrite (F := { regs := true, trays := true }) s _ d 0 v (.refl _ s) rfl rfl).staon rfl

/-- The HELLO that a port sends. -/
def helloFlit (s : State) (p : Nat) : StnTx := .flit p (ctrlFlit (sport s p) (helloBytes s p) false)

/-- The address written while the block is idle, with a HELLO on every UP port. -/
theorem stnAddrStore_of_idle {s : State} (hidle : stnBusy s = false) (v : Reg) :
    ∃ l, stnAddrStore s v = outs (s.modStaon (fun b => { b with assigned := if 1 ≤ bf v 15 0 ∧ bf v 15 0 ≤ 0x7FFF then some (bf v 15 0) else none })) l := by
  unfold stnAddrStore
  rw [hidle, if_neg Bool.false_ne_true]
  generalize s.modStaon (fun b => { b with assigned := if 1 ≤ bf v 15 0 ∧ bf v 15 0 ≤ 0x7FFF then some (bf v 15 0) else none }) = x
  exact ⟨_, foldl_upPorts helloFlit (fun _ _ _ => rfl) (List.range 12) x⟩

theorem mbxStore_of_go {s : State} {v : Reg} (hgo : bit v 63 = true) (hclear : bit v 1 = false) (hidle : mbxBusy s = false) : mbxStore s v = mbxSend s := by
  simp [mbxStore, hgo, hclear, hidle]

theorem mbxSend_of_route {s : State} {p : Nat} {rest : List Nat} (ht : (mbxMessage s).type ∈ [0x10, 0x11]) (hr : (mbxMessage s).route = p :: rest) (hp : portUsable s p = true) :
    mbxSend s = portSend ((takeMsgid s).1.modStaon (fun b => { b with mbx := some s.staon.msgid })) p { mbxMessage s with msgid := s.staon.msgid, route := rest } := by
  have htype : ¬ ((mbxMessage s).type ≠ 0x10 ∧ (mbxMessage s).type ≠ 0x11) := by
    simp only [List.mem_cons, List.not_mem_nil, or_false] at ht
    omega
  rw [mbxSend, if_neg htype, hr]
  dsimp only
  rw [if_pos hp]
  rfl

/-- Settles O44: what leaving, an address and the mailbox change of the fabric block, through what the ports then send or lose (that LEAVE is in the output of every UP port at once is the model's
reading, log entry 32). -/
theorem fabricAddressesAndLeaving : Obligations.FabricAddressesAndLeaving := by
  unfold Obligations.FabricAddressesAndLeaving
  refine ⟨fun s v hv hclear hl hleft => ?begin, fun s p hp hst hpl => ?neighbour, fun s hl hrem => ?complete, fun s v => ?address, fun s v p rest hgo hclear hidle ht hr hp => ?mailbox⟩
  case begin =>
    obtain ⟨x, hstore, hx⟩ := stnCfgStore_of_leave hv hclear
    have hxl : x.staon.leaving = false := hx ▸ hl
    have hxleft : x.staon.left = false := hx ▸ hleft
    have hloses := loses_adjustPorts (startLeave x)
    refine ⟨_, congrArg Host.Outcome.next hstore, hloses.leaving.trans (leaving_startLeave hxl hxleft), fun p hp hup => hloses.out.subset (leave_mem_startLeave hxl hxleft hp ?_)⟩
    rw [sport, hx]
    exact hup
  case neighbour =>
    have hloses := loses_portLost (A := fun _ => False) (modSport s p (fun x => { x with peerLeaving := true })) p true
    have hleaves : (sport (portLost (modSport s p (fun x => { x with peerLeaving := true })) p true) p).peerLeaving = true := by
      rw [hloses.peerLeaving id, sport_modSport_same s hp]
    refine ⟨_, (exec_onPort hp (by simp [portIn, hst, hpl]) : execLeave p s = _), hleaves, ?_⟩
    rw [portUsable, hleaves, Bool.not_true, Bool.and_false]
  case complete =>
    have hexec : exec .leaveComplete s = .next (finishLeave s) := by
      refine congrArg Host.Outcome.next ((if_pos hl).trans (if_neg ?_))
      rw [hearth_finishLeave]
      simpa using hrem
    obtain ⟨hleft, hleaving, hkept, hports⟩ := hasLeft_finishLeave s
    exact ⟨_, hexec, hleft, hleaving, hkept, hports⟩
  case address =>
    refine ⟨stnAddrStore s v, rfl, fun hidle => ?_, fun hbusy hnew => ?_⟩
    · obtain ⟨l, hstore⟩ := stnAddrStore_of_idle hidle v
      rw [hstore]
      exact ⟨rfl, rfl⟩
    · rw [stnAddrStore, if_pos hbusy, if_neg hnew]
      exact ⟨rfl, recordRefused_counts _ _ _ _⟩
  case mailbox =>
    have hexec : exec (.stnMbxGo v) s = _ := congrArg Host.Outcome.next ((mbxStore_of_go hgo hclear hidle).trans (mbxSend_of_route ht hr hp))
    have hsends := sends_portSend ((takeMsgid s).1.modStaon (fun b => { b with mbx := some s.staon.msgid })) p { mbxMessage s with msgid := s.staon.msgid, route := rest }
    exact ⟨_, hexec, of_besidesSending Staon.mbx (fun _ => rfl) hsends.rest, of_besidesSending Staon.msgid (fun _ => rfl) hsends.rest⟩

/-! ### Resends (R482, R493) -/

theorem sends_foldl {α : Type} {f : State → α → State} (hf : ∀ s x, Sends s (f s x)) (l : List α) : ∀ s : State, Sends s (l.foldl f s) := by
  induction l with
  | nil => exact .refl
  | cons x l ih => exact fun s => (hf s x).trans (ih _)

/-- The entry of a message, or of its copy, that no longer waits as BUSY. -/
def notBusy (x : SentMsg) (y : SentMsg) : SentMsg := if y.msg.msgid = x.msg.msgid ∧ y.copyOf = x.copyOf then { y with busy := false } else y

/-- A resend is the end of a BUSY wait, and flits sent. -/
theorem sends_resend (s : State) (x : SentMsg) : Sends (s.modStaon (fun b => { b with sent := b.sent.map (notBusy x) })) (resend s x) := by
  unfold resend
  dsimp only
  split
  · exact sends_foldl (fun s' p => sends_portSend s' p _) _ _
  · split
    · exact sends_portSend _ _ _
    · exact .refl _

/-- What is in wait after flits were sent is what was, but for the cycle of the first flit. -/
theorem Sends.of_mem {s s' : State} (h : Sends s s') {y : SentMsg} (hy : y ∈ s'.staon.sent) : ∃ x ∈ s.staon.sent, unsent x = unsent y :=
  List.mem_map.mp (h.sent ▸ List.mem_map_of_mem hy)

theorem Sends.mem_of {s s' : State} (h : Sends s s') {x : SentMsg} (hx : x ∈ s.staon.sent) : ∃ y ∈ s'.staon.sent, unsent y = unsent x :=
  List.mem_map.mp (h.sent ▸ List.mem_map_of_mem hx)

/-- A message is given up: no entry of it that is not a copy waits any more. -/
theorem giveUp_forgets (s : State) {x : SentMsg} (hx : x.copyOf = none) : ∀ y ∈ (giveUp s x).staon.sent, ¬ (y.msg.msgid = x.msg.msgid ∧ y.copyOf = none) := by
  intro y hy ⟨hid, hcopy⟩
  rw [giveUp, hx] at hy
  obtain ⟨z, hz, hzc, hzm⟩ := (loses_faultOwner (A := fun _ => False) _ x.owner FC.fabNoAck).sent y hy hcopy
  have hkeep := (List.mem_filter.mp hz).2
  simp [hzm, hid, hzc] at hkeep

/-- One more resend of a message counted. -/
def retried (s : State) (id : Nat) (x : SentMsg) : State :=
  (s.count Csr.stnE2eRetx 1).modStaon (fun b => { b with sent := b.sent.map (fun y => if y.msg.msgid = id ∧ y.copyOf = x.copyOf then { y with tries := y.tries + 1 } else y) })

theorem e2eExpire_of_one {s : State} {id : Nat} {x : SentMsg} (h : s.staon.sent.filter (fun x => x.msg.msgid == id && x.firstAt.isSome && !x.busy && !stillQueued s x) = [x]) :
    e2eExpire id s = if x.tries < 3 ∧ (!tooLate s x) = true then resend (retried s id x) x else giveUp s x := by
  rw [e2eExpire, h]
  rfl

theorem busyRetry_of_one {s : State} {id : Nat} {x : SentMsg} (h : s.staon.sent.filter (fun x => x.msg.msgid == id && x.busy) = [x]) (hid : x.msg.msgid = id) :
    busyRetry id s = if tooLate s x then s.modStaon (fun b => { b with sent := b.sent.map (notBusy x) }) else resend s x := by
  rw [busyRetry, h, ← hid]
  rfl

/-- Of the entries that a resend ends the wait of none is BUSY. -/
theorem notBusy_map (l : List SentMsg) (x : SentMsg) : ∀ y ∈ l.map (notBusy x), y.msg.msgid = x.msg.msgid → y.copyOf = x.copyOf → y.busy = false := by
  intro y hy hid hcopy
  obtain ⟨z, -, rfl⟩ := List.mem_map.mp hy
  unfold notBusy at hid hcopy ⊢
  split at hid
  · next h => rw [if_pos h]
  · next h =>
    rw [if_neg h] at hcopy
    exact absurd ⟨hid, hcopy⟩ h

/-- Settles O43: the timers act on the one entry that they find, and what is then sent or given up leaves the other entries. -/
theorem fabricTimersResendAndForget : Obligations.FabricTimersResendAndForget := by
  unfold Obligations.FabricTimersResendAndForget
  refine ⟨fun s id x hone hcopy => ?resend, fun s id x hone => ?retry, fun s id k hskew hk howed => ?skew, fun s src id => ?pair⟩
  case resend =>
    have hx := List.mem_filter.mp (hone ▸ List.mem_singleton_self x : x ∈ s.staon.sent.filter _)
    have hid : x.msg.msgid = id := by
      have := hx.2
      simp only [Bool.and_eq_true, beq_iff_eq] at this
      exact this.1.1.1
    refine ⟨e2eExpire id s, rfl, fun htries hlate => ?_, fun htries => ?_⟩
    · rw [e2eExpire_of_one hone, if_pos ⟨htries, by rw [hlate]; rfl⟩]
      have hsends := sends_resend (retried s id x) x
      refine ⟨(hsends.reg _ (by decide)).trans (State.reg_count_same s _ _), ?_⟩
      have hmem : notBusy x { x with tries := x.tries + 1 } ∈ ((retried s id x).modStaon (fun b => { b with sent := b.sent.map (notBusy x) })).staon.sent :=
        List.mem_map_of_mem (List.mem_map.mpr ⟨x, hx.1, if_pos ⟨hid, rfl⟩⟩)
      obtain ⟨y, hy, hyx⟩ := hsends.mem_of hmem
      have hmarked : notBusy x { x with tries := x.tries + 1 } = { x with tries := x.tries + 1, busy := false } := if_pos ⟨rfl, rfl⟩
      rw [hmarked] at hyx
      have hmsg := of_unsent SentMsg.msg (fun _ => rfl) hyx
      have htries := of_unsent SentMsg.tries (fun _ => rfl) hyx
      exact ⟨y, hy, hmsg, htries⟩
    · rw [e2eExpire_of_one hone, if_neg (fun h => absurd h.1 (Nat.not_lt.mpr htries)), ← hid]
      exact giveUp_forgets s hcopy
  case retry =>
    have hx := List.mem_filter.mp (hone ▸ List.mem_singleton_self x : x ∈ s.staon.sent.filter _)
    have hid : x.msg.msgid = id := by
      have := hx.2
      simp only [Bool.and_eq_true, beq_iff_eq] at this
      exact this.1
    refine ⟨busyRetry id s, rfl, ?_⟩
    rw [busyRetry_of_one hone hid, ← hid]
    split
    · exact ⟨notBusy_map _ x, rfl⟩
    · have hsends := sends_resend s x
      refine ⟨fun y hy hyid hyc => ?_, hsends.reg _ (by decide)⟩
      obtain ⟨z, hz, hzy⟩ := hsends.of_mem hy
      rw [← of_unsent SentMsg.busy (fun _ => rfl) hzy]
      exact notBusy_map _ x z hz ((congrArg StnMsg.msgid (of_unsent SentMsg.msg (fun _ => rfl) hzy)).trans hyid) ((of_unsent SentMsg.copyOf (fun _ => rfl) hzy).trans hyc)
  case skew =>
    have hexec : exec (.mcastSkewExpire id) s = .next (detach s id k.owed) := by
      change Host.Outcome.next (skewExpire id s) = _
      rw [skewExpire, hskew]
    have hlag : k.owed.filter (fun a => k.owed.contains a) = k.owed := List.filter_eq_self.mpr (fun a ha => List.contains_iff_mem.mpr ha)
    have hloses := loses_detach_of_lag (A := fun _ => False) s hk (hlag.symm ▸ howed)
    rw [hlag] at hloses
    refine ⟨_, hexec, ?_, fun x hx hxid a ha => ?_⟩
    · have hnot : ¬ SendReg Csr.stnMcastDetach := by
        rintro (h | ⟨c, h⟩)
        · exact absurd h (by decide)
        · simp only [Csr.stnMcastDetach, Csr.prfBytesRmt] at h
          omega
      exact (hloses.reg _ hnot).trans (State.reg_count_same _ _ _)
    · obtain ⟨j, hj, hjm, hjo⟩ := hloses.kept x hx
      obtain ⟨z, -, hz⟩ := List.mem_map.mp (show j ∈ s.staon.kept.map _ from hj)
      intro hax
      have haj := hjo hax
      have hjid : j.msg.msgid = id := (congrArg StnMsg.msgid hjm).trans hxid
      have hzid : z.msg.msgid = id := by
        rw [← hz] at hjid
        split at hjid <;> exact hjid
      rw [if_pos hzid] at hz
      rw [← hz] at haj
      have := (List.mem_filter.mp haj).2
      simp [ha] at this
  case pair =>
    refine ⟨_, rfl, ?_, fun p hp => ?_, rfl⟩
    · refine Bool.eq_false_iff.mpr (fun hmem => ?_)
      simpa using (List.mem_filter.mp (List.contains_iff_mem.mp hmem)).2
    · rw [Bool.eq_iff_iff, List.contains_iff_mem, List.contains_iff_mem]
      exact List.mem_filter.trans (and_iff_left (bne_iff_ne.mpr hp))

end Sys2Proof.Machine
end

section
/-! PROOFS. Messages of the fabric delivered and forwarded (R480 to R497), and domains that wake and switch off (R514 to R519). -/

namespace Sys2Proof.Machine

open Sys2Proof.Claims

/-! ### Messages that arrive (R468, R476, R480 to R490) -/

section
variable {s : State} {p : Nat} {m : StnMsg} (h : Reaches s p m)
include h

/-- A message that reaches the module is taken by its type in the state that it finds. -/
theorem arrives_of_reaches (type : Nat) (f : State → StnMsg → State) : arrives p type m f s = .next (f s { m with type := type }) := by
  have hbuffer : stnBuffer s = (s, false) := by
    refine if_neg (fun hb => ?_)
    simp only [Bool.and_eq_true, beq_iff_eq] at hb
    exact h.buffer.elim (fun h63 => absurd (h63.symm.trans hb.1) Bool.false_ne_true) (fun hne => hne hb.2)
  have hlink : linkOk s p { m with type := type } = true := beq_iff_eq.mpr h.version
  rw [arrives, exec_onPort h.unit (portIn_of_mem (by simp [h.up])), hbuffer]
  dsimp only
  rw [hlink]
  rfl

end

theorem addrBad_type (s : State) (m : StnMsg) (type : Nat) (u : Bool) : addrBad s { m with type := type } u = addrBad s m u := rfl

/-- The freeing of a buffer leaves what the routes and groups are chosen by. -/
theorem portUsable_freeBuffer (s : State) (p : Nat) (m : StnMsg) (q : Nat) : portUsable (freeBuffer s p m) q = portUsable s q := by
  have h : Sends s (freeBuffer s p m) := sends_freeFlits s p _ _
  rw [portUsable, portUsable, h.state, h.peerLeaving]

theorem groupPorts_freeBuffer (s : State) (p : Nat) (m : StnMsg) (g : Nat) : groupPorts (freeBuffer s p m) g = groupPorts s g := by
  rw [groupPorts, groupPorts, show portUsable (freeBuffer s p m) = portUsable s from funext (portUsable_freeBuffer s p m)]
  rfl

theorem staon_finishRepart (s : State) : (finishRepart s).staon = s.staon := by
  have h : Touch { mem := true, poison := true, regs := true, larder := true, arbs := true } s (finishRepart s) := by apply touch_finishRepart _ (.refl _ s) <;> rfl
  exact h.staon rfl

theorem leavingRefuses_of_staying {s : State} (h : s.staon.leaving = false) (m : StnMsg) : leavingRefuses s m = false := by
  rw [leavingRefuses, h, Bool.false_and]

section
variable {s : State} {p : Nat} {m : StnMsg} (h : Reaches s p m)
include h

theorem exec_write : exec (.write p m) s = .next (if addrBad s m true then dropMsg (freeBuffer s p { m with type := 1 })
    else unicast p (fun s1 x => if leavingRefuses s1 x then sendNack s1 x 4 else deliverAndAnswer s1 x) s { m with type := 1 }) :=
  (arrives_of_reaches h 1 _ : execWrite p m s = _)

theorem exec_mcast : exec (.mcast p m) s = .next (if addrBad s m false || !bit (s.reg (Csr.group (m.dst % 1024))) 63 then dropMsg (freeBuffer s p { m with type := 2 })
    else if !bit (s.reg (Csr.group (m.dst % 1024))) 62 then forwardMcast s p { m with type := 2 }
    else if leavingRefuses (forwardMcast s p { m with type := 2 }) { m with type := 2 } then sendNack (forwardMcast s p { m with type := 2 }) { m with type := 2 } 4
    else deliverAndAnswer (forwardMcast s p { m with type := 2 }) { m with type := 2 }) :=
  (arrives_of_reaches h 2 _ : execMcast p m s = _)

theorem exec_red : exec (.red p m) s = .next (if addrBad s m true then dropMsg (freeBuffer s p { m with type := 3 })
    else if m.dst ≠ ownAddr s then forward s p { m with type := 3 }
    else if leavingRefuses s { m with type := 3 } then sendNack (freeBuffer s p { m with type := 3 }) { m with type := 3 } 4
    else redTake s p { m with type := 3 }) :=
  (arrives_of_reaches h 3 _ : execRed p m s = _)

theorem exec_messageForward : exec (.messageForward p m) s = .next (
    if m.type = 1 ∨ m.type = 3 then (if addrBad s m true then dropMsg (freeBuffer s p m) else if m.dst = ownAddr s then s else forward s p m)
    else if m.type = 4 ∨ m.type = 5 ∨ m.type = 6 then (if m.dst = ownAddr s then s else forward s p m)
    else if m.type = 0x10 ∨ m.type = 0x11 ∨ m.type = 0x12 then (if m.route.head? = some 15 then s else forwardMgt s p m)
    else if m.type = 2 ∨ m.type = 0x13 then s
    else dropMsg (freeBuffer s p m)) :=
  (arrives_of_reaches h m.type _ : execMessageForward p m s = _)

end

/-- A WRITE for this module is delivered and answered. -/
theorem exec_write_own {s : State} {p : Nat} {m : StnMsg} (h : Reaches s p m) (hbad : addrBad s m true = false) (hdst : m.dst = ownAddr s) (hl : s.staon.leaving = false) :
    exec (.write p m) s = .next (deliverAndAnswer (taken s p 1 m) { m with type := 1 }) := by
  have hstay : leavingRefuses (taken s p 1 m) { m with type := 1 } = false := leavingRefuses_of_staying (s := taken s p 1 m) hl _
  rw [exec_write h, if_neg (by rw [hbad]; exact Bool.false_ne_true), unicast, if_pos hdst]
  exact congrArg Host.Outcome.next (if_neg (fun hleaves => Bool.false_ne_true (hstay.symm.trans hleaves)))

/-- A RED contribution for this module is taken. -/
theorem exec_red_own {s : State} {p : Nat} {m : StnMsg} (h : Reaches s p m) (hbad : addrBad s m true = false) (hdst : m.dst = ownAddr s) (hl : s.staon.leaving = false) :
    exec (.red p m) s = .next (redTake s p { m with type := 3 }) := by
  rw [exec_red h, if_neg (by rw [hbad]; exact Bool.false_ne_true), if_neg (not_not_intro hdst), if_neg (by rw [leavingRefuses_of_staying hl]; exact Bool.false_ne_true)]

/-- A contribution that is new, with room for its pair, is added to its reduction where none before it is missing. -/
theorem redTake_of_target {s : State} {p t : Nat} {m : StnMsg} {i : Inst} (hnew : s.staon.dedup.contains (m.src, m.msgid) = false) (hroom : s.staon.dedup.length < 8192)
    (ht : redTarget s m = some (t, i)) : redTake s p m = if i.released && !redBehind s p m t i then redInto s p m t i else redHold s p m := by
  rw [redTake, if_neg (by rw [hnew]; exact Bool.false_ne_true), if_neg (Nat.not_le.mpr hroom), ht]

/-- One whose reduction has not begun waits where it is ahead. -/
theorem redTake_of_none {s : State} {p : Nat} {m : StnMsg} (hnew : s.staon.dedup.contains (m.src, m.msgid) = false) (hroom : s.staon.dedup.length < 8192)
    (ht : redTarget s m = none) : redTake s p m = if redAhead s m then redHold s p m else sendAck (redLeave s p m) m := by
  rw [redTake, if_neg (by rw [hnew]; exact Bool.false_ne_true), if_neg (Nat.not_le.mpr hroom), ht]

theorem forward_of_no_hops {s : State} {p : Nat} {m : StnMsg} (h : m.hops = 0) : forward s p m = sendNack (dropMsg (freeBuffer s p m)) m 2 := if_pos h

/-- A message with hops left goes on by its route, unless that is the port it came by. -/
theorem forward_of_route {s : State} {p q : Nat} {m : StnMsg} (h : 0 < m.hops) (hroute : routePort s m.dst = some q) (hne : q ≠ p) :
    forward s p m = passOn s p [q] { m with hops := m.hops - 1 } := by
  unfold forward
  dsimp only
  rw [if_neg (Nat.ne_of_gt h), hroute]
  exact if_neg hne

/-- Settles O41: a message is taken, dropped, refused or sent on by its address, its route and what the module has accepted (that a MCAST of a group not in use is dropped without an answer, and
how RED contributions are matched and held, is the model's reading, log entry 32). -/
theorem dataMessagesAreDeliveredOrForwarded : Obligations.DataMessagesAreDeliveredOrForwarded := by
  unfold Obligations.DataMessagesAreDeliveredOrForwarded
  refine ⟨fun s p m h => ⟨fun hbad => ?badWrite, fun hbad hdst hl s1 st hdel => ⟨fun hdup => ?duplicate, fun hst => ?accepted, fun code hst => ?refused⟩, fun hbad hdst hhops => ?noHops⟩,
    fun s p m h => ⟨fun hg => ?badGroup, fun hbad hg hself hl hports s1 hdel => ?mcast⟩, fun s p m h hbad hdst hl hnew hroom => ⟨fun t i s1 ht hi hbehind hfits hadd => ?added, fun ht hahead => ?ahead⟩,
    fun s p q m h => ⟨fun htype hbad hdst hhops hroute hne => ?forwardData, fun htype hdst hhops hroute hne => ?forwardControl, fun htype rest hroute hq hup => ?forwardMgt⟩⟩
  case badWrite =>
    rw [exec_write h, if_pos hbad]
    rfl
  case duplicate =>
    have hfound : (finishRepart (taken s p 1 m)).staon.dedup.contains (m.src, m.msgid) = true := by
      rw [staon_finishRepart]
      exact hdup
    rw [deliver] at hdel
    dsimp only at hdel
    rw [if_pos hfound] at hdel
    obtain ⟨hs1, hst⟩ := Prod.mk.inj hdel
    exact ⟨hst.symm, hs1.symm⟩
  case accepted =>
    rw [exec_write_own h hbad hdst hl]
    rw [deliverAndAnswer, hdel, hst]
  case refused =>
    rw [exec_write_own h hbad hdst hl]
    rw [deliverAndAnswer, hdel, hst]
  case noHops =>
    rw [exec_write h, if_neg (by rw [hbad]; exact Bool.false_ne_true), unicast, if_neg hdst, forward_of_no_hops (m := { m with type := 1 }) hhops]
    rfl
  case badGroup =>
    rw [exec_mcast h, if_pos (by rw [hg]; exact Bool.or_true _)]
    rfl
  case mcast =>
    have hnone : (groupPorts s (m.dst % 1024)).filter (fun q => q != p) = [] := by
      refine List.filter_eq_nil_iff.mpr (fun q hq => ?_)
      rw [← groupPorts_freeBuffer s p { m with type := 2 }] at hq
      simp [hports q hq]
    have hforward : forwardMcast s p { m with type := 2 } = taken s p 2 m := by
      rw [forwardMcast]
      exact (if_pos (List.isEmpty_iff.mpr hnone))
    have hstay : leavingRefuses (taken s p 2 m) { m with type := 2 } = false := leavingRefuses_of_staying (s := taken s p 2 m) hl _
    rw [exec_mcast h, if_neg (by rw [hbad, hg]; decide), hforward, hself, if_neg (by decide), hstay, if_neg (by decide), deliverAndAnswer, hdel]
  case added =>
    have hready : (i.released && !redBehind s p { m with type := 3 } t i) = true := by rw [hi, hbehind]; rfl
    rw [exec_red_own h hbad hdst hl, redTake_of_target (m := { m with type := 3 }) hnew hroom ht, if_pos hready, redInto, hfits]
    dsimp only
    rw [if_neg (by decide), hadd]
  case ahead =>
    have htake : redTake s p { m with type := 3 } = redHold s p { m with type := 3 } := by
      rw [redTake_of_none (m := { m with type := 3 }) hnew hroom ht]
      exact if_pos hahead
    refine ⟨_, (exec_red_own h hbad hdst hl).trans (congrArg Host.Outcome.next htake), ?_, rfl, rfl⟩
    change (p, { m with type := 3 }) ∈ if s.staon.early.contains (p, { m with type := 3 }) then s.staon.early else s.staon.early ++ [(p, { m with type := 3 })]
    split
    · next hin => exact List.contains_iff_mem.mp hin
    · exact List.mem_append_right _ (List.mem_singleton_self _)
  case forwardData =>
    rw [exec_messageForward h, if_pos (by simpa using htype), if_neg (by rw [hbad]; exact Bool.false_ne_true), if_neg hdst, forward_of_route hhops hroute hne]
  case forwardControl =>
    have hnot : ¬ (m.type = 1 ∨ m.type = 3) := by
      simp only [List.mem_cons, List.not_mem_nil, or_false] at htype
      omega
    rw [exec_messageForward h, if_neg hnot, if_pos (by simpa using htype), if_neg hdst, forward_of_route hhops hroute hne]
  case forwardMgt =>
    have hnot : ¬ (m.type = 1 ∨ m.type = 3) ∧ ¬ (m.type = 4 ∨ m.type = 5 ∨ m.type = 6) := by
      simp only [List.mem_cons, List.not_mem_nil, or_false] at htype
      omega
    rw [exec_messageForward h, if_neg hnot.1, if_neg hnot.2, if_pos (by simpa using htype), if_neg (by rw [hroute]; simpa using hq), forwardMgt, hroute]
    dsimp only
    rw [if_pos hup]

/-! ### Domains that wake and switch off (R514 to R519) -/

theorem domState_of_power {s s' : State} (h : s'.power.doms = s.power.doms) (d : Nat) : domState s' d = domState s d := by rw [domState, h, domState]

theorem power_portsFollow (s : State) (d : Nat) : (portsFollow s d).power = s.power := by
  have h : Touch allButPower s (portsFollow s d) := by apply touch_portsFollow _ _ (.refl _ s) <;> rfl
  exact h.power rfl

theorem power_domLoses (s : State) (d : Nat) : (domLoses s d).power = s.power ∧ (domLoses s d).now = s.now := by
  have h : Touch { allButPower with now := false } s (domLoses s d) := by apply touch_domLoses _ _ (.refl _ s) <;> rfl
  exact ⟨h.power rfl, h.now rfl⟩

theorem regs_hostDown (s : State) (p : Nat) : (hostDown s p).regs = s.regs := rfl

/-- What follows a domain's wake counts no wake. -/
theorem pwrWakes_portsFollow (s : State) (d : Nat) : (portsFollow s d).reg Csr.pwrWakes = s.reg Csr.pwrWakes := by
  have hfold : ∀ (l : List Nat) (x : State), (l.foldl (fun s' p => if lanesOn s' p then s' else hostDown s' p) x).regs = x.regs := by
    intro l
    induction l with
    | nil => exact fun _ => rfl
    | cons p l ih =>
      intro x
      rw [List.foldl_cons, ih]
      split
      · rfl
      · exact regs_hostDown x p
  have hnot : ¬ LossReg Csr.pwrWakes := by
    rintro ((h | ⟨c, h⟩) | h | ⟨q, h⟩)
    · exact absurd h (by decide)
    · simp only [Csr.pwrWakes, Csr.prfBytesRmt] at h
      omega
    · exact absurd h (by decide)
    · simp only [Csr.pwrWakes, Csr.hqState] at h
      omega
  unfold portsFollow
  split
  · exact (loses_adjustPorts s).reg _ hnot
  · split
    · rw [State.reg, hfold, State.reg]
    · rfl

/-- The waits that a wake ends are measured; of the power state only they go. -/
theorem waitsEnd_keeps (s : State) (d : Nat) : (∃ asked, (waitsEnd s d).power = { s.power with asked := asked }) ∧ (waitsEnd s d).reg Csr.pwrWakes = s.reg Csr.pwrWakes := by
  have hfold : ∀ (l : List (List Nat × Nat)) (x : State), (l.foldl (fun s' a => s'.count Csr.pwrWakeWaitNs ((s.now - a.2) * 5 / 6)) x).power = x.power ∧
      (l.foldl (fun s' a => s'.count Csr.pwrWakeWaitNs ((s.now - a.2) * 5 / 6)) x).reg Csr.pwrWakes = x.reg Csr.pwrWakes := by
    intro l
    induction l with
    | nil => exact fun _ => ⟨rfl, rfl⟩
    | cons a l ih =>
      intro x
      obtain ⟨hp, hr⟩ := ih (x.count Csr.pwrWakeWaitNs ((s.now - a.2) * 5 / 6))
      exact ⟨hp, hr.trans (State.reg_count_other _ _ (by decide))⟩
  unfold waitsEnd
  dsimp only
  obtain ⟨hp, hr⟩ := hfold ((s.power.asked.map (fun a => (a.1.filter (fun x => x != d), a.2))).filter (fun a => a.1.isEmpty)) s
  exact ⟨⟨_, congrArg (fun q : Power => { q with asked := (s.power.asked.map (fun a : List Nat × Nat => (a.1.filter (fun x => x != d), a.2))).filter (fun a => !a.1.isEmpty) }) hp⟩, hr⟩

/-- A domain whose wake is complete is on, and counted. -/
theorem wakeDone_of_ramped {s : State} {d : Nat} (h : s.power.ramped.contains d = true) :
    (∃ asked, (wakeDone s d).power = { s.power with doms := Vec.put s.power.doms d .on, ramped := s.power.ramped.filter (fun x => x != d), asked := asked }) ∧
      (wakeDone s d).reg Csr.pwrWakes = s.reg Csr.pwrWakes + 1 := by
  rw [wakeDone, if_pos h]
  obtain ⟨⟨asked, hp⟩, hr⟩ := waitsEnd_keeps (((setDom s d .on).modPower (fun p => { p with ramped := p.ramped.filter (fun x => x != d) })).count Csr.pwrWakes 1) d
  exact ⟨⟨asked, hp⟩, hr.trans (State.reg_count_same _ _ _)⟩

/-- A switch-off that completes puts its domain off, and asks for its wake where that was requested meanwhile. -/
theorem power_switchOffDone {s : State} {d : Nat} (h : domState s d = .switchingOff) :
    (switchOffDone s d).power =
      if s.power.again.contains d then (requestWake ((setDom s d .off).modPower (fun p => { p with again := p.again.filter (fun x => x != d) })) d).power
      else (setDom s d .off).power := by
  obtain ⟨hpower, hnow⟩ := power_domLoses (setDom s d .off) d
  have hwake : ∀ x y : State, x.power = y.power → x.now = y.now → (requestWake x d).power = (requestWake y d).power := by
    intro x y hp hn
    have hdom : domState x d = domState y d := domState_of_power (congrArg Power.doms hp) d
    unfold requestWake
    rw [hdom, hn]
    split
    · simp only [setDom, State.modPower, State.setPower, hp]
    · simp only [State.modPower, State.setPower, hp]
    · exact hp
  rw [switchOffDone, if_pos (by rw [h]; rfl)]
  dsimp only
  rw [hpower]
  change (if s.power.again.contains d = true then _ else _ : State).power = _
  split
  · refine hwake _ _ ?_ hnow
    simp only [State.modPower, State.setPower, hpower]
  · exact hpower

/-- The tokens that the wake bucket holds for this cycle's draw (R517). -/
def heldTokens (p : Power) : Nat := if p.bucket < 6 ∧ 2 ≤ p.refill then p.bucket + 1 else p.bucket

theorem drawTokens_of_head {s : State} {d got : Nat} {rest : List (Nat × Nat)} (h : s.power.wakes = (d, got) :: rest) :
    ∃ refill, drawTokens s =
      if got + min (heldTokens s.power) (domTokens d - got) = domTokens d then
        s.modPower (fun q => { q with bucket := heldTokens s.power - min (heldTokens s.power) (domTokens d - got), refill := refill, wakes := rest, ramped := q.ramped ++ [d] })
      else s.modPower (fun q => { q with
        bucket := heldTokens s.power - min (heldTokens s.power) (domTokens d - got), refill := refill,
        wakes := (d, got + min (heldTokens s.power) (domTokens d - got)) :: rest }) := by
  have hheld : (if (!decide (6 ≤ s.power.bucket) && decide (2 ≤ s.power.refill)) = true then s.power.bucket + 1 else s.power.bucket) = heldTokens s.power :=
    if_congr (by simp) rfl rfl
  unfold drawTokens
  dsimp only
  rw [hheld, h]
  exact ⟨_, rfl⟩

/-- With tokens enough the head of the wake queue leaves, and its domain ramps up. -/
theorem drawTokens_of_enough {s : State} {d got : Nat} {rest : List (Nat × Nat)} (h : s.power.wakes = (d, got) :: rest) (henough : domTokens d ≤ got + heldTokens s.power) (hle : got ≤ domTokens d) :
    (drawTokens s).power.wakes = rest ∧ (drawTokens s).power.ramped = s.power.ramped ++ [d] ∧ (drawTokens s).power.bucket = heldTokens s.power - (domTokens d - got) := by
  obtain ⟨_, heq⟩ := drawTokens_of_head h
  have htake : min (heldTokens s.power) (domTokens d - got) = domTokens d - got := Nat.min_eq_right (by omega)
  rw [heq, htake, if_pos (by omega)]
  exact ⟨rfl, rfl, rfl⟩

/-- With too few the head draws them all and waits on. -/
theorem drawTokens_of_short {s : State} {d got : Nat} {rest : List (Nat × Nat)} (h : s.power.wakes = (d, got) :: rest) (hshort : got + heldTokens s.power < domTokens d) :
    (drawTokens s).power.wakes = (d, got + heldTokens s.power) :: rest ∧ (drawTokens s).power.ramped = s.power.ramped ∧ (drawTokens s).power.bucket = 0 := by
  obtain ⟨_, heq⟩ := drawTokens_of_head h
  have htake : min (heldTokens s.power) (domTokens d - got) = heldTokens s.power := Nat.min_eq_left (by omega)
  rw [heq, htake, if_neg (by omega)]
  exact ⟨rfl, rfl, Nat.sub_self _⟩

/-- A domain that is switched off is off, or waits in the wake queue where its wake is asked for; no other domain changes. -/
theorem switchedOff (s : State) {d : Nat} (hd : d < 125) :
    let woken := requestWake ((setDom s d .off).modPower (fun p => { p with again := p.again.filter (fun x => x != d) })) d
    domState (setDom s d .off) d = .off ∧ (domState woken d = .waking ∧ woken.power.wakes = (s.power.enterWake (s.now / 12) d).wakes) ∧
      (∀ e, e ≠ d → domState woken e = domState s e) := by
  intro woken
  have hoff := domState_setDom_same s hd .off
  have hwoken : woken = (setDom ((setDom s d .off).modPower (fun p => { p with again := p.again.filter (fun x => x != d) })) d .waking).modPower
      (fun p => p.enterWake (s.now / 12) d) := by
    have hstill : domState ((setDom s d .off).modPower (fun p => { p with again := p.again.filter (fun x => x != d) })) d = .off := hoff
    change requestWake _ d = _
    unfold requestWake
    rw [hstill]
    rfl
  have hdoms : woken.power.doms = Vec.put (Vec.put s.power.doms d .off) d .waking := by rw [hwoken]; rfl
  refine ⟨hoff, ⟨?_, by rw [hwoken]; rfl⟩, fun e hne => ?_⟩
  · rw [domState, hdoms]
    exact Vec.get_put_same _ _ _ hd
  · rw [domState, hdoms, Vec.get_put_other _ _ _ hne.symm, Vec.get_put_other _ _ _ hne.symm]
    rfl

/-- Settles O45: what each step of a domain's way leaves of the power state (that a WAKE_TOKEN_DRAW is one Hearth cycle, with a token at every third, is the model's choice, log entry 13). -/
theorem domainsSwitchInOrder : Obligations.DomainsSwitchInOrder := by
  unfold Obligations.DomainsSwitchInOrder
  refine ⟨fun s d hrun hd hauto hon hidle hheld => ?idle, fun s d got rest hrun hw => ?draw, fun s d hrun hd hramped => ?wake, fun s d hrun hd hst => ?off⟩
  case idle =>
    have hexec : exec (.domainIdleOff d) s = .next (setDom s d .switchingOff) := by
      refine (if_pos hd : execDomainIdleOff d s = _).trans (congrArg Host.Outcome.next ((if_pos hrun).trans ?_))
      exact idleOff_of_idle hauto hon hidle hheld
    exact ⟨_, hexec, domState_setDom_same s hd _, fun e _ hne => domState_setDom_other s hne.symm _, rfl⟩
  case draw =>
    intro held
    refine ⟨drawTokens s, congrArg Host.Outcome.next (if_pos hrun), fun henough hle => ?_, fun hshort => ?_⟩
    · obtain ⟨hwakes, hramped, hbucket⟩ := drawTokens_of_enough hw henough hle
      exact ⟨hwakes, by rw [hramped]; exact List.mem_append_right _ (List.mem_singleton.mpr rfl), hbucket⟩
    · exact drawTokens_of_short hw hshort
  case wake =>
    have hexec : exec (.wakeComplete d) s = .next (portsFollow (wakeDone s d) d) := (if_pos hd : execWakeComplete d s = _).trans (congrArg Host.Outcome.next (if_pos hrun))
    obtain ⟨⟨asked, hp⟩, hr⟩ := wakeDone_of_ramped hramped
    have hpower := (power_portsFollow (wakeDone s d) d).trans hp
    refine ⟨_, hexec, ?_, ?_, (pwrWakes_portsFollow _ d).trans hr, fun e _ hne => ?_⟩
    · rw [domState, hpower]
      exact Vec.get_put_same _ _ _ hd
    · rw [hpower]
      exact Bool.eq_false_iff.mpr (fun hmem => by simpa using (List.mem_filter.mp (List.contains_iff_mem.mp hmem)).2)
    · rw [domState, hpower]
      exact Vec.get_put_other _ _ _ hne.symm
  case off =>
    have hexec : exec (.switchOffComplete d) s = .next (portsFollow (switchOffDone s d) d) := (if_pos hd : execSwitchOffComplete d s = _).trans (congrArg Host.Outcome.next (if_pos hrun))
    have hpower := (power_portsFollow (switchOffDone s d) d).trans (power_switchOffDone hst)
    obtain ⟨hstay, hagain, hother⟩ := switchedOff s hd
    refine ⟨_, hexec, fun hnot => ?_, fun hyes => ?_, fun e _ hne => ?_⟩
    · rw [if_neg (by rw [hnot]; decide)] at hpower
      have hwakes := congrArg Power.wakes hpower
      exact ⟨(domState_of_power (congrArg Power.doms hpower) d).trans hstay, hwakes⟩
    · rw [if_pos hyes] at hpower
      exact ⟨(domState_of_power (congrArg Power.doms hpower) d).trans hagain.1, (congrArg Power.wakes hpower).trans hagain.2⟩
    · split at hpower
      · exact (domState_of_power (congrArg Power.doms hpower) e).trans (hother e hne)
      · exact (domState_of_power (congrArg Power.doms hpower) e).trans (domState_setDom_other s hne.symm _)

end Sys2Proof.Machine
end

section
/-! PROOFS. The Hearth's boot and timers, its authenticated requests, a removal and the input, and the references (R536 to R558, R588 to R598). -/

namespace Sys2Proof.Machine

open Sys2Proof.Claims

/-! ### The Hearth's write of STN_MGT_WR_EN (R556) -/

/-- STN_CFG: its field 2 opens management writes. -/
def stnCfgDef : RegDef := ⟨"STN_CFG", 0x130000, 1, 0, 1, 0, .stn,
  [⟨63, 58, .rwl, 0⟩, ⟨57, 52, .rwl, 0⟩, ⟨43, 32, .rwl, 4095⟩, ⟨31, 16, .rw, 20⟩, ⟨15, 8, .rw, 100⟩, ⟨2, 2, .rwl, 0⟩, ⟨0, 0, .rw, 0⟩]⟩

theorem find_stnCfg : RegMap.find Csr.stnCfg = some (stnCfgDef, 0, 0) := by decide +kernel

/-- FAB_MGT_WR of the policy, as the register takes it. -/
def wantedMgtEn (s : State) : Nat := b2n (s.hearth.policy.testBit 1)

/-- The register as the Hearth writes it. -/
def mgtEnStored (s : State) : State := storeWrite s Csr.stnCfg stnCfgDef 0 (setBf (s.reg Csr.stnCfg) 2 2 (wantedMgtEn s))

theorem writeMgtEn_eq (s : State) : writeMgtEn s = (mgtEnStored s).modHearth (fun h => { h with wrEnRetry := (mgtEnStored s).fld Csr.stnCfg 2 2 != wantedMgtEn s }) := by
  rw [writeMgtEn, find_stnCfg]
  rfl

theorem touch_mgtEnStored (s : State) : Touch { regs := true, trays := true } s (mgtEnStored s) := touch_storeWrite _ _ _ _ _ (.refl _ s) rfl rfl

/-- Of the Hearth's state only the flag of a retry changes. -/
theorem hearth_writeMgtEn (s : State) : ∃ retry, (writeMgtEn s).hearth = { s.hearth with wrEnRetry := retry } := by
  have hstored : (mgtEnStored s).hearth = s.hearth := (touch_mgtEnStored s).hearth rfl
  rw [writeMgtEn_eq]
  exact ⟨_, congrArg (fun h : Hearth => { h with wrEnRetry := (mgtEnStored s).fld Csr.stnCfg 2 2 != wantedMgtEn s }) hstored⟩

/-- While the fabric block is not busy the write is taken. -/
theorem fld_mgtEnStored {s : State} (hidle : stnBusy s = false) : (mgtEnStored s).fld Csr.stnCfg 2 2 = wantedMgtEn s := by
  have hbusy : busyNow s stnCfgDef.busy 0 = false := hidle
  have hsmall : wantedMgtEn s < 2 ^ (2 + 1 - 2) := by
    unfold wantedMgtEn b2n
    split <;> decide
  rw [mgtEnStored, fld_storeWrite find_stnCfg 0 _ (f := ⟨2, 2, .rwl, 0⟩) (by decide), hbusy]
  exact (bf_setBf_same _ _ (by omega) (by omega)).trans (Nat.mod_eq_of_lt hsmall)

/-! ### The steps of the boot (R536 to R542) -/

/-- The first step's event of a lost calendar keeps the module's hardware. -/
theorem modhw_logCalLost (s : State) : (logCalLost s).modhw = s.modhw :=
  (touch_logCalLost (F := { hearth := true }) s (.refl _ s) rfl).modhw rfl

/-- An image that passes counts, and main power-up begins with the root PLL's domain. -/
theorem imagePasses_starts (s : State) (slot src : Nat) :
    (imagePasses s slot src).hearth.stage = 3 ∧ (imagePasses s slot src).hearth.tries = s.hearth.tries + 1 ∧ (imagePasses s slot src).hearth.bootSrc = src ∧
      domState (imagePasses s slot src) 123 = .on := by
  have hkept : ∀ x : State, (releaseDividers x).hearth = x.hearth := fun x => (touch_releaseDividers (F := { power := true }) x (.refl _ x) rfl).hearth rfl
  have hon : ∀ (l : List Nat) {x : State}, domState x 123 = .on → domState (l.foldl requestWake x) 123 = .on := by
    intro l
    induction l with
    | nil => exact fun h => h
    | cons d l ih =>
      intro x h
      refine ih ?_
      unfold requestWake
      split
      · next hoff =>
        have hne : d ≠ 123 := fun heq => by rw [heq, h] at hoff; cases hoff
        exact (domState_setDom_other x hne _).trans h
      · exact h
      · exact h
  unfold imagePasses
  dsimp only
  split
  · next hdom =>
    have hstate : domState s 123 = .on := eq_of_beq hdom
    split
    · rw [hkept]
      exact ⟨rfl, rfl, rfl, hon _ hstate⟩
    · exact ⟨rfl, rfl, rfl, hstate⟩
  · exact ⟨rfl, rfl, rfl, domState_setDom_same _ (by omega) _⟩

/-- An image that fails counts, with its code; the next source follows. -/
theorem attemptFails_eq (s : State) (code : Nat) :
    ∃ x, attemptFails s code = nextSource x ∧ x.hearth.tries = s.hearth.tries + 1 ∧ x.hearth.lastFail = code ∧ x.hearth.src = s.hearth.src := by
  obtain ⟨events, hevent⟩ := hearth_hearthEvent s code 0
  rw [attemptFails, hevent]
  exact ⟨_, rfl, rfl, rfl, rfl⟩

theorem nextSource_of_slotA {s : State} (h : s.hearth.src = 0) : nextSource s = s.modHearth (fun h => { h with stage := 1, src := 1, candidate := none }) := by
  rw [nextSource, h]
  rfl

theorem nextSource_of_slotB {s : State} (h : s.hearth.src = 1) :
    nextSource s = askImage (s.modHearth (fun h => { h with stage := 1, src := 2, candidate := none, sideband := true, gotPut := false })) := by
  rw [nextSource, h]
  rfl

theorem nextSource_of_sideband {s : State} (h : s.hearth.src = 2) : nextSource s = s.modHearth (fun h => { h with stage := 2, candidate := none, sideband := false }) := by
  rw [nextSource, h]
  rfl

/-- The next source is chosen with the counts of the attempts as they are. -/
theorem nextSource_keeps (s : State) : (nextSource s).hearth.tries = s.hearth.tries ∧ (nextSource s).hearth.lastFail = s.hearth.lastFail := by
  unfold nextSource
  split <;> exact ⟨rfl, rfl⟩

/-- A start that fails switches the main logic off and counts no further attempt. -/
theorem startFails_resets (s : State) (code : Nat) : MainIsReset (startFails s code) ∧ (startFails s code).hearth.tries = s.hearth.tries := by
  have hoff : (mainOff s false).hearth = s.hearth := rfl
  have hreset := mainIsReset_of_hearthOnly (mainIsReset_mainOff s false) (touch_hearthEvent_refl _ code 0)
  unfold startFails
  generalize mainOff s false = x at hoff hreset ⊢
  obtain ⟨events, hevent⟩ := hearth_hearthEvent x code 0
  rw [hevent] at hreset ⊢
  refine ⟨mainIsReset_of_hearthOnly (mainIsReset_modHearth _ hreset _) (touch_nextSource _ (.refl _ _) rfl), (nextSource_keeps _).1.trans ?_⟩
  exact (congrArg Hearth.tries hoff : x.hearth.tries = s.hearth.tries)

/-- The firmware runs: the secret is locked, the host port enabled, and the fabric as the policy allows. -/
theorem firmwareStarts_runs (s : State) :
    (firmwareStarts s).hearth.stage = 6 ∧ (firmwareStarts s).host.enabled = true ∧ (firmwareStarts s).hearth.secretLocked = true ∧ (firmwareStarts s).staon.enabled = !s.hearth.fabHeld := by
  have hparts : ∃ x, firmwareStarts s = hearthEvent (writeMgtEn (adjustPorts x)) HC.bootDone 0 ∧ x.hearth.stage = 6 ∧ x.hearth.secretLocked = true ∧ x.host.enabled = true ∧
      x.staon.enabled = !s.hearth.fabHeld := by
    unfold firmwareStarts
    exact ⟨_, rfl, rfl, rfl, rfl, rfl⟩
  obtain ⟨x, heq, hstage, hlocked, hhost, hstaon⟩ := hparts
  have hports : Touch portParts x (adjustPorts x) := by apply touch_adjustPorts _ (.refl _ x) <;> rfl
  have hfabric := (loses_adjustPorts x).enabled
  have hstored := touch_mgtEnStored (adjustPorts x)
  obtain ⟨retry, hwritten⟩ := hearth_writeMgtEn (adjustPorts x)
  rw [hports.hearth rfl] at hwritten
  obtain ⟨events, hevent⟩ := hearth_hearthEvent (writeMgtEn (adjustPorts x)) HC.bootDone 0
  have hhostKept : (writeMgtEn (adjustPorts x)).host = x.host := by
    rw [writeMgtEn_eq]
    exact (hstored.host rfl).trans (hports.host rfl)
  have hstaonKept : (writeMgtEn (adjustPorts x)).staon.enabled = x.staon.enabled := by
    rw [writeMgtEn_eq]
    exact (congrArg Staon.enabled (hstored.staon rfl)).trans hfabric
  rw [heq, hevent]
  generalize writeMgtEn (adjustPorts x) = w at hwritten hhostKept hstaonKept ⊢
  exact ⟨(congrArg Hearth.stage hwritten).trans hstage, (congrArg (fun h => h.enabled) hhostKept).trans hhost, (congrArg Hearth.secretLocked hwritten).trans hlocked, hstaonKept.trans hstaon⟩

theorem exec_boot {s : State} (hrun : s.hearth.running = true) (env : BootEnv) : exec (.boot env) s = .next (bootStep s env) := (hearthWhen_of hrun rfl _ : execBoot env s = _)

theorem bootStep_of_images {s : State} (env : BootEnv) (hstage : s.hearth.stage = 1) (hside : s.hearth.sideband = false) :
    bootStep s env = attemptSlot s s.hearth.src s.hearth.src := by
  rw [bootStep, hstage]
  exact if_neg (by simp [hside])

/-- The part of O48 about BOOT. -/
theorem bootRunsItsSteps : BootRunsItsSteps := by
  intro s env hrun
  refine ⟨fun hstage hok => ?step1, fun hstage hside hcode => ?passes, fun hstage hside hcode => ?fails, fun hstage hok hlock hon => ?powered, fun hstage hok => ?trained, fun hstage hok => ?firmware,
    fun hstage hfail => ?start⟩
  case step1 =>
    have hstep : bootStep s env = startImages (logCalLost (sampleStep1 s env)) := by rw [bootStep, hstage]; exact if_pos hok
    have hmodhw : (startImages (logCalLost (sampleStep1 s env))).modhw = (logCalLost (sampleStep1 s env)).modhw := rfl
    refine ⟨_, exec_boot hrun env, ?_⟩
    rw [hstep, hmodhw, modhw_logCalLost]
    exact ⟨rfl, rfl, rfl, rfl⟩
  case passes =>
    have hslot := bootStep_of_images env hstage hside
    have hstep : ∃ x, bootStep s env = imagePasses x s.hearth.src s.hearth.src ∧ x.hearth.tries = s.hearth.tries := by
      rw [hslot, attemptSlot, if_pos hcode]
      refine ⟨_, rfl, ?_⟩
      split <;> rfl
    obtain ⟨x, hstep, htries⟩ := hstep
    refine ⟨_, exec_boot hrun env, ?_⟩
    rw [hstep, ← htries]
    exact imagePasses_starts x _ _
  case fails =>
    have hslot := bootStep_of_images env hstage hside
    have hstep : ∃ x, bootStep s env = attemptFails x (slotCode s s.hearth.src) ∧ x.hearth.tries = s.hearth.tries ∧ x.hearth.src = s.hearth.src := by
      rw [hslot, attemptSlot, if_neg hcode]
      refine ⟨_, rfl, ?_⟩
      split <;> exact ⟨rfl, rfl⟩
    obtain ⟨x, hstep, htries, hsrc⟩ := hstep
    generalize slotCode s s.hearth.src = code at hcode hstep ⊢
    obtain ⟨y, hfails, hcounted, hlast, hkept⟩ := attemptFails_eq x code
    obtain ⟨hsameTries, hsameLast⟩ := nextSource_keeps y
    refine ⟨_, exec_boot hrun env, ?_⟩
    rw [hstep, hfails]
    refine ⟨by rw [hsameTries, hcounted, htries], hsameLast.trans hlast, fun hA => ?_, fun hB => ?_⟩
    · rw [nextSource_of_slotA (hkept.trans (hsrc.trans hA))]
      exact ⟨rfl, rfl⟩
    · rw [nextSource_of_slotB (hkept.trans (hsrc.trans hB))]
      exact ⟨rfl, rfl⟩
  case powered =>
    have hstep : bootStep s env = s.modHearth (fun h => { h with stage := 4 }) := by
      rw [bootStep, hstage]
      simp [hok, hlock, hon]
    refine ⟨_, exec_boot hrun env, ?_⟩
    rw [hstep]
    exact ⟨rfl, rfl⟩
  case trained =>
    have hstep : bootStep s env = (s.setTrained true).modHearth (fun h => { h with stage := 5 }) := by
      rw [bootStep, hstage]
      simp [hok]
    refine ⟨_, exec_boot hrun env, ?_⟩
    rw [hstep]
    exact ⟨rfl, rfl⟩
  case firmware =>
    have hstep : bootStep s env = firmwareStarts s := by
      rw [bootStep, hstage]
      simp [hok]
    refine ⟨_, exec_boot hrun env, ?_⟩
    rw [hstep]
    exact firmwareStarts_runs s
  case start =>
    have hstep : ∃ code, bootStep s env = startFails s code := by
      rw [bootStep]
      simp only [List.mem_cons, List.not_mem_nil, or_false] at hstage
      obtain h | h | h := hstage <;> rw [h] <;> exact ⟨_, if_pos (by rw [hfail]; rfl)⟩
    obtain ⟨code, hstep⟩ := hstep
    refine ⟨_, exec_boot hrun env, ?_⟩
    rw [hstep]
    exact startFails_resets s code

/-- The part of O48 about the Hearth's timers. -/
theorem hearthTimersAct : HearthTimersAct := by
  refine ⟨fun s hrun hstage => ?backoff, fun s hrun hside hput => ?resend, fun s hrun hside hsrc => ?timeout, fun s => ⟨_, rfl, rfl, rfl, rfl⟩, fun s hrun hatt => ?report, fun s hrun hretry => ?retry⟩
  case backoff =>
    exact ⟨_, (hearthWhen_of hrun (by simp [hstage]) _ : execBootBackoffExpire s = _), rfl, rfl, rfl⟩
  case resend =>
    exact ⟨_, (hearthWhen_of hrun (by simp [hside, hput]) _ : execImageRequestResend s = _), rfl⟩
  case timeout =>
    obtain ⟨events, hlog⟩ := hearth_hearthLog s HC.sidebandTimeout 0
    refine ⟨_, (hearthWhen_of hrun hside _ : execSidebandTimeout s = _), ?_⟩
    have hnext := nextSource_of_sideband (s := (hearthLog s HC.sidebandTimeout 0).modHearth (fun h => { h with tries := h.tries + 1, lastFail := HC.sidebandTimeout })) (by rw [hlog]; exact hsrc)
    rw [hnext, hlog]
    exact ⟨rfl, rfl, rfl, rfl⟩
  case report =>
    exact ⟨_, (hearthWhen_of hrun hatt _ : execAttestReportDone s = _), rfl, rfl⟩
  case retry =>
    refine ⟨_, (hearthWhen_of hrun hretry _ : execStnMgtWrEnRetry s = _), ?_⟩
    rw [writeMgtEn_eq]
    refine ⟨fun hno => ?_, fun hidle => ?_⟩
    · have hsame : ((mgtEnStored s).fld Csr.stnCfg 2 2 != wantedMgtEn s) = false := hno
      exact (bne_eq_false_iff_eq.mp hsame : (mgtEnStored s).fld Csr.stnCfg 2 2 = wantedMgtEn s)
    · have hstored := fld_mgtEnStored hidle
      exact (by simp [hstored] : ((mgtEnStored s).fld Csr.stnCfg 2 2 != wantedMgtEn s) = false)

/-- Settles O48: the steps of the boot one by one, and the Hearth's timers. (That an attempt counts as its image passes, so that a failure of steps 3 to 5 adds none, and that a BOOT is one step
are the model's reading, log entry 36.) -/
theorem bootAndHearthTimersAct : Obligations.BootAndHearthTimersAct := by
  unfold Obligations.BootAndHearthTimersAct
  exact ⟨bootRunsItsSteps, hearthTimersAct⟩

/-! ### Every queue stops (R558) -/

/-- The stop bit of a queue. -/
def Stopped (s : State) (q : Nat) : Prop := s.fld (Csr.hqState q) 23 23 = 1

theorem stopped_stopQueue_same (s : State) (q : Nat) : Stopped (stopQueue s q) q := fld_setFld_same s _ 1 (by omega) (by omega)

theorem stopped_stopQueue {s : State} {q : Nat} (h : Stopped s q) (p : Nat) : Stopped (stopQueue s p) q := by
  by_cases hpq : p = q
  · rw [hpq]
    exact stopped_stopQueue_same s q
  · have hoff : Csr.hqState p ≠ Csr.hqState q := by
      unfold Csr.hqState
      omega
    exact (fld_setFld_other s _ _ _ _ _ hoff).trans h

theorem stopped_foldl_kept {q : Nat} (l : List Nat) : ∀ {s : State}, Stopped s q → Stopped (l.foldl stopQueue s) q := by
  induction l with
  | nil => exact fun h => h
  | cons p l ih => exact fun h => ih (stopped_stopQueue h p)

theorem stopped_foldl {q : Nat} (l : List Nat) : ∀ (s : State), q ∈ l → Stopped (l.foldl stopQueue s) q := by
  induction l with
  | nil => exact fun _ h => absurd h List.not_mem_nil
  | cons p l ih =>
    intro s h
    obtain rfl | h := List.mem_cons.mp h
    · exact stopped_foldl_kept l (stopped_stopQueue_same s q)
    · exact ih _ h

theorem touch_foldl_stopQueue (l : List Nat) (s : State) : Touch { regs := true } s (l.foldl stopQueue s) :=
  touch_foldl (fun x _ hx => touch_stopQueue x _ hx rfl) l (.refl _ s)

/-! ### Every task ends (R86, R558) -/

theorem tray_endTask_other (s : State) {t u : Nat} (h : t ≠ u) (code index pass rowBlk aux addr : Nat) : (endTask s t code index pass rowBlk aux addr).tray u = s.tray u := by
  have hdrop : ∀ x : State, (dropEnds x t).tray u = x.tray u := by
    intro x
    unfold dropEnds
    dsimp only
    split
    · rfl
    · exact State.tray_modTray_other _ _ h
  unfold endTask endTaskLog
  dsimp only
  split
  · rfl
  · rw [tray_logError, tray_count, tray_stopQueue, hdrop, tray_discardTray]
    exact State.tray_modTray_other _ _ h

theorem endTask_of_idle {s : State} {t : Nat} (h : (s.tray t).live = false) (code index pass rowBlk aux addr : Nat) : endTask s t code index pass rowBlk aux addr = s := by
  rw [endTask, endTaskLog, h]
  rfl

theorem live_endTask {s : State} {t : Nat} (ht : t < 32) (code index pass rowBlk aux addr : Nat) : ((endTask s t code index pass rowBlk aux addr).tray t).live = false := by
  cases hlive : (s.tray t).live with
  | false => rw [endTask_of_idle hlive, hlive]
  | true => rw [endTask, Tray.live, state_endTaskLog ht hlive]; rfl

/-- A tray's task ends because the module is removed. -/
def endForRemoval (s : State) (t : Nat) : State := endTask s t FC.taskAborted (s.tray t).tryInstr 0 0xFFFFFFFF 0 0

theorem live_foldl_kept {t : Nat} (ht : t < 32) (l : List Nat) : ∀ {s : State}, (s.tray t).live = false → ((l.foldl endForRemoval s).tray t).live = false := by
  induction l with
  | nil => exact fun h => h
  | cons u l ih =>
    intro s h
    refine ih ?_
    by_cases hut : u = t
    · rw [hut]
      exact live_endTask ht _ _ _ _ _ _
    · rw [endForRemoval, tray_endTask_other s hut]
      exact h

theorem live_foldl {t : Nat} (ht : t < 32) (l : List Nat) : ∀ (s : State), t ∈ l → ((l.foldl endForRemoval s).tray t).live = false := by
  induction l with
  | nil => exact fun _ h => absurd h List.not_mem_nil
  | cons u l ih =>
    intro s h
    obtain rfl | h := List.mem_cons.mp h
    · exact live_foldl_kept ht l (live_endTask ht _ _ _ _ _ _)
    · exact ih _ h

/-- With no task there is none to end. -/
theorem foldl_endForRemoval_of_idle (l : List Nat) {s : State} (h : ∀ t ∈ l, (s.tray t).live = false) : l.foldl endForRemoval s = s := by
  induction l with
  | nil => rfl
  | cons u l ih => rw [List.foldl_cons, endForRemoval, endTask_of_idle (h u (List.mem_cons_self ..)), ih (fun t ht => h t (List.mem_cons_of_mem _ ht))]

theorem touch_endForRemoval {s x : State} (t : Nat) (h : Touch portParts s x) : Touch portParts s (endForRemoval x t) := by
  apply touch_endTask _ _ _ _ _ _ _ _ h <;> rfl

theorem touch_foldl_endForRemoval (l : List Nat) (s : State) : Touch portParts s (l.foldl endForRemoval s) :=
  touch_foldl (fun _ t hx => touch_endForRemoval t hx) l (.refl _ s)

theorem loses_foldl_endForRemoval (l : List Nat) (s : State) : Loses (fun _ => False) LossReg s (l.foldl endForRemoval s) :=
  loses_foldl (fun x t => loses_endTask x t _ _ _ _ _ _) l s

theorem live_of_not_anyTask {s : State} (h : anyTask s = false) {t : Nat} (ht : t < 32) : (s.tray t).live = false := by
  have hmem : s.tray t ∈ s.trays.toList := by
    rw [State.tray, Vec.get, dif_pos ht]
    exact Vector.mem_toList_iff.mpr (Vector.getElem_mem _)
  have hidle := List.any_eq_false.mp h _ hmem
  have hstate : (s.tray t).state = .idle := by simpa using hidle
  rw [Tray.live, hstate]
  rfl

/-- The state with every task ended. -/
@[irreducible] def tasksEnded (s : State) : State := (List.range 32).foldl endForRemoval s

theorem touch_tasksEnded (s : State) : Touch portParts s (tasksEnded s) := by
  unfold tasksEnded
  exact touch_foldl_endForRemoval (List.range 32) s

theorem left_tasksEnded (s : State) : (tasksEnded s).staon.left = s.staon.left := by
  unfold tasksEnded
  exact (loses_foldl_endForRemoval (List.range 32) s).left

theorem live_tasksEnded (s : State) {t : Nat} (ht : t < 32) : ((tasksEnded s).tray t).live = false := by
  unfold tasksEnded
  exact live_foldl ht _ s (List.mem_range.mpr ht)

theorem tasksEnded_of_idle {s : State} (h : anyTask s = false) : tasksEnded s = s := by
  unfold tasksEnded
  exact foldl_endForRemoval_of_idle _ (fun t ht => live_of_not_anyTask h (List.mem_range.mp ht))

/-! ### The end of the drain (R558) -/

theorem startLeave_cases (s : State) : startLeave s = s ∨ ∃ l, startLeave s = outs (s.modStaon (fun b => { b with leaving := true })) l := by
  by_cases h : s.staon.leaving = true ∨ s.staon.left = true
  · exact .inl (if_pos h)
  · rw [not_or, Bool.not_eq_true, Bool.not_eq_true] at h
    exact .inr ⟨_, startLeave_eq h.1 h.2⟩

theorem left_startLeave (s : State) : (startLeave s).staon.left = s.staon.left := by
  obtain h | ⟨l, h⟩ := startLeave_cases s <;> rw [h]
  rfl

theorem leaving_startLeave_of_present {s : State} (hleft : s.staon.left = false) : (startLeave s).staon.leaving = true := by
  cases hl : s.staon.leaving with
  | false => exact leaving_startLeave hl hleft
  | true => rw [startLeave, if_pos (.inl hl), hl]

/-- A removal's leaving begins, with every task ended. -/
def removalLeaves (s : State) : State := startLeave (((tasksEnded s).modHearth (fun h => { h with removal := .leaving })).setFld Csr.stnCfg 0 0 1)

theorem hearth_removalLeaves (s : State) : (removalLeaves s).hearth = { s.hearth with removal := .leaving } := by
  have hleave := (touch_startLeave (F := { staon := true }) (((tasksEnded s).modHearth (fun h => { h with removal := .leaving })).setFld Csr.stnCfg 0 0 1) (.refl _ _) rfl).hearth rfl
  exact hleave.trans (congrArg (fun h : Hearth => { h with removal := .leaving }) ((touch_tasksEnded s).hearth rfl))

theorem trays_removalLeaves (s : State) : (removalLeaves s).trays = (tasksEnded s).trays :=
  (touch_startLeave (F := { staon := true }) (((tasksEnded s).modHearth (fun h => { h with removal := .leaving })).setFld Csr.stnCfg 0 0 1) (.refl _ _) rfl).trays rfl

theorem modhw_removalLeaves (s : State) : (removalLeaves s).modhw = s.modhw :=
  ((touch_startLeave (F := { staon := true }) (((tasksEnded s).modHearth (fun h => { h with removal := .leaving })).setFld Csr.stnCfg 0 0 1) (.refl _ _) rfl).modhw rfl).trans
    ((touch_tasksEnded s).modhw rfl)

theorem reg_removalLeaves (s : State) {off : Nat} (h : off ≠ Csr.stnCfg) : (removalLeaves s).reg off = (tasksEnded s).reg off := by
  have hleave := (touch_startLeave (F := { staon := true }) (((tasksEnded s).modHearth (fun h => { h with removal := .leaving })).setFld Csr.stnCfg 0 0 1) (.refl _ _) rfl).regs rfl
  rw [State.reg, removalLeaves, hleave]
  exact State.reg_setFld_other _ _ _ _ h.symm

theorem left_removalLeaves (s : State) : (removalLeaves s).staon.left = s.staon.left := (left_startLeave _).trans (left_tasksEnded s)

theorem leaving_removalLeaves {s : State} (h : s.staon.left = false) : (removalLeaves s).staon.leaving = true :=
  leaving_startLeave_of_present ((left_tasksEnded s).trans h)

/-- The main logic switched off behind the leaving. -/
def removalOff (s : State) : State := (mainOff (removalLeaves s) false).modHearth (fun h => { h with removal := .off, fabHeld := true })

theorem endDrain_eq (s : State) : endDrain s = if s.staon.left then removalOff s else removalLeaves s := by
  have hremoval : (removalLeaves s).hearth.removal = .leaving := congrArg Hearth.removal (hearth_removalLeaves s)
  have hunfold : endDrain s = if (removalLeaves s).staon.left then afterLeft (removalLeaves s) else removalLeaves s := by
    have hend : (fun s' t => endTask s' t FC.taskAborted (s'.tray t).tryInstr 0 0xFFFFFFFF 0 0) = endForRemoval := rfl
    unfold endDrain removalLeaves tasksEnded
    rw [hend]
  rw [hunfold, left_removalLeaves]
  refine if_congr Iff.rfl ?_ rfl
  exact if_pos (by rw [hremoval]; rfl)

theorem hearth_removalOff (s : State) : (removalOff s).hearth = { s.hearth with removal := .off, fabHeld := true } :=
  congrArg (fun h : Hearth => { h with removal := .off, fabHeld := true }) (hearth_removalLeaves s)

theorem modhw_removalOff (s : State) : (removalOff s).modhw = s.modhw := modhw_removalLeaves s

theorem mainIsReset_removalOff (s : State) : MainIsReset (removalOff s) := mainIsReset_modHearth _ (mainIsReset_mainOff _ _) _

/-! ### The start of a removal (R558) -/

/-- The state with every queue's dispatch stopped for a removal. -/
@[irreducible] def dispatchStopped (s : State) : State := (List.range 64).foldl stopQueue (s.modHearth (fun h => { h with removal := .draining, stage := 7 }))

theorem touch_dispatchStopped (s : State) : Touch { regs := true, hearth := true } s (dispatchStopped s) := by
  unfold dispatchStopped
  exact touch_foldl (fun x _ hx => touch_stopQueue x _ hx rfl) (List.range 64) (touch_State_modHearth _ _ (.refl _ s) rfl)

theorem hearth_dispatchStopped (s : State) : (dispatchStopped s).hearth = { s.hearth with removal := .draining, stage := 7 } := by
  unfold dispatchStopped
  exact (touch_foldl_stopQueue (List.range 64) (s.modHearth (fun h => { h with removal := .draining, stage := 7 }))).hearth rfl

theorem startRemoval_eq (s : State) : startRemoval s = if anyTask s then dispatchStopped s else if s.staon.left then removalOff (dispatchStopped s) else removalLeaves (dispatchStopped s) := by
  have hunfold : startRemoval s = if anyTask (dispatchStopped s) then dispatchStopped s else endDrain (dispatchStopped s) := by
    unfold dispatchStopped
    rfl
  have htask : anyTask (dispatchStopped s) = anyTask s := by rw [anyTask, (touch_dispatchStopped s).trays rfl, anyTask]
  rw [hunfold, htask, endDrain_eq, (touch_dispatchStopped s).staon rfl]

/-- What the start of a removal leaves of the Hearth. -/
theorem hearth_startRemoval (s : State) :
    ∃ held, (startRemoval s).hearth = { s.hearth with stage := 7, removal := if anyTask s then .draining else if s.staon.left then .off else .leaving, fabHeld := held } := by
  rw [startRemoval_eq]
  split
  · exact ⟨s.hearth.fabHeld, hearth_dispatchStopped s⟩
  · split
    · rw [hearth_removalOff, hearth_dispatchStopped]
      exact ⟨true, rfl⟩
    · rw [hearth_removalLeaves, hearth_dispatchStopped]
      exact ⟨s.hearth.fabHeld, rfl⟩

theorem modhw_startRemoval (s : State) : (startRemoval s).modhw = s.modhw := by
  have hstop := (touch_dispatchStopped s).modhw rfl
  rw [startRemoval_eq]
  split
  · exact hstop
  · split
    · exact (modhw_removalOff _).trans hstop
    · exact (modhw_removalLeaves _).trans hstop

/-- Unless the main logic is switched off at once, every queue is stopped. -/
theorem stopped_startRemoval {s : State} (h : anyTask s = true ∨ s.staon.left = false) {q : Nat} (hq : q < 64) : Stopped (startRemoval s) q := by
  have hstop : Stopped (dispatchStopped s) q := by
    unfold dispatchStopped
    exact stopped_foldl _ _ (List.mem_range.mpr hq)
  rw [startRemoval_eq]
  split
  · exact hstop
  · next hnone =>
    have hleft : s.staon.left = false := h.resolve_left hnone
    have htasks : anyTask (dispatchStopped s) = false := by rw [anyTask, (touch_dispatchStopped s).trays rfl]; exact Bool.eq_false_iff.mpr hnone
    have hended : tasksEnded (dispatchStopped s) = dispatchStopped s := tasksEnded_of_idle htasks
    have hne : Csr.hqState q ≠ Csr.stnCfg := by
      simp only [Csr.hqState, Csr.stnCfg]
      omega
    rw [if_neg (by rw [hleft]; exact Bool.false_ne_true), Stopped, State.fld, reg_removalLeaves _ hne, hended]
    exact hstop

/-! ### An authentic request is answered (R553) -/

/-- The state from which an accepted request acts: its peer, its counter and its answer are kept, and the answer is sent. -/
def requestAnswered (s : State) (op : Nat) (r : HmpReq) (out : List Byte) : State :=
  hmpReply (s.modHearth (fun h => { h with peer := some r.peer, hmpCtr := r.ctr, lastTag := r.tag, lastReply := some (.response r.peer op HmpStatus.ok r.reqId out) })) op r HmpStatus.ok out

theorem hmpAuth_of_authentic {s : State} {op : Nat} {r : HmpReq} (h : Authentic s op r) {chk : Nat} (hchk : chk = 0) (out : List Byte) (eff : State → State) :
    hmpAuth op r chk out eff s = eff (requestAnswered s op r out) := by
  obtain ⟨⟨hrun, hflags, hhead⟩, htag, hctr⟩ := h
  unfold hmpAuth
  rw [if_neg (by simp [hrun, hflags]), if_neg (by simp [hhead]), if_neg (by simp [htag]), if_neg (by omega)]
  dsimp only
  rw [if_neg (by simp [hchk])]
  rfl

/-- What keeps an answer sent and remembered: later messages of the Hearth, with the same counter and peer. -/
def KeepsAnswer (h h' : Hearth) : Prop := h.side <+: h'.side ∧ h'.hmpCtr = h.hmpCtr ∧ h'.peer = h.peer

theorem keepsAnswer_of_eq {h h' : Hearth} (hside : h'.side = h.side) (hctr : h'.hmpCtr = h.hmpCtr) (hpeer : h'.peer = h.peer) : KeepsAnswer h h' :=
  ⟨by rw [hside], hctr, hpeer⟩

theorem answered_of_keeps {s s' : State} {op : Nat} {r : HmpReq} {out : List Byte} (h : KeepsAnswer (requestAnswered s op r out).hearth s'.hearth) : Answered s s' op r out := h

theorem answered_of_eq {s s' : State} {op : Nat} {r : HmpReq} {out : List Byte} (hside : s'.hearth.side = (requestAnswered s op r out).hearth.side)
    (hctr : s'.hearth.hmpCtr = (requestAnswered s op r out).hearth.hmpCtr) (hpeer : s'.hearth.peer = (requestAnswered s op r out).hearth.peer) : Answered s s' op r out :=
  answered_of_keeps (keepsAnswer_of_eq hside hctr hpeer)

/-- A MODULE reset keeps what was answered. -/
theorem keepsAnswer_moduleReset (s : State) (cause : Nat) : KeepsAnswer s.hearth (moduleReset s cause).hearth := by
  obtain ⟨events, lost, hlog⟩ := hearth_logCalLost (hearthClear (mainOff s true) cause)
  have hstart : ∀ x : State, (startImages x).hearth.side = x.hearth.side ∧ (startImages x).hearth.hmpCtr = x.hearth.hmpCtr ∧ (startImages x).hearth.peer = x.hearth.peer := fun _ => ⟨rfl, rfl, rfl⟩
  have hclear : (hearthClear (mainOff s true) cause).hearth = (hearthClear s cause).hearth := rfl
  obtain ⟨hside, hctr, hpeer⟩ := hstart (logCalLost (hearthClear (mainOff s true) cause))
  rw [hlog, hclear] at hside hctr hpeer
  exact keepsAnswer_of_eq hside hctr hpeer

/-! ### The flash (R542) -/

/-- The flash after bytes are programmed one by one, from the `n`-th on. -/
theorem get_foldl_flash (base a : Nat) (bs : List Byte) : ∀ (f : Tab Byte) (n : Nat),
    Tab.get 0xFF ((bs.zipIdx n).foldl (fun f p => Tab.put 0xFF f (base + p.2) p.1) f) a =
      if base + n ≤ a ∧ a < base + n + bs.length then bs.getD (a - (base + n)) 0xFF else Tab.get 0xFF f a := by
  induction bs with
  | nil => exact fun f n => (if_neg (by simp only [List.length_nil]; omega)).symm
  | cons b bs ih =>
    intro f n
    rw [List.zipIdx_cons, List.foldl_cons, ih, List.length_cons]
    by_cases hlater : base + (n + 1) ≤ a ∧ a < base + (n + 1) + bs.length
    · rw [if_pos hlater, if_pos (by omega), show a - (base + n) = a - (base + (n + 1)) + 1 by omega, List.getD_cons_succ]
    · rw [if_neg hlater]
      by_cases hfirst : a = base + n
      · rw [if_pos (by omega), hfirst, Tab.get_put_same, Nat.sub_self, List.getD_cons_zero]
      · rw [if_neg (by omega), Tab.get_put_other _ _ _ _ (Ne.symm hfirst)]

theorem get_flashWrite (s : State) (base : Nat) (bs : List Byte) (a : Nat) :
    Tab.get 0xFF (flashWrite s base bs).hearth.flash a = if base ≤ a ∧ a < base + bs.length then bs.getD (a - base) 0xFF else Tab.get 0xFF s.hearth.flash a :=
  get_foldl_flash base a bs s.hearth.flash 0

theorem flashBytes_flashWrite (s : State) (base : Nat) (bs : List Byte) : flashBytes (flashWrite s base bs) base bs.length = bs := by
  refine List.ext_getElem (by simp [flashBytes]) (fun i _ hi => ?_)
  simp only [flashBytes, List.getElem_map, List.getElem_range]
  rw [get_flashWrite, if_pos (by omega), Nat.add_sub_cancel_left, List.getD_eq_getElem _ _ hi]

/-! ### Arguments -/

theorem arg_of_single {r : HmpReq} {k : Nat} (h : r.payload = [BitVec.ofNat 8 k]) (hk : k < 256) : arg r 0 1 = k := by
  simp only [arg, h, List.drop_zero, List.take_succ_cons, List.take_zero, leNat, BitVec.toNat_ofNat]
  omega

theorem hmpChk_of_ok {ok : Bool} {state : Nat} (hok : ok = true) (hstate : state = 0) : hmpChk ok state = 0 := by
  rw [hmpChk, hok, hstate]
  rfl

/-! ### The requests one by one -/

section
variable {s : State} {r : HmpReq}

theorem hmpReset_acts {k : Nat} (h : Authentic s 0x10 r) (hstate : resetState s = 0) (hpay : r.payload = [BitVec.ofNat 8 k]) (hk : k ∈ [1, 2]) :
    ∃ s', exec (.hmpReset r) s = .next s' ∧ Answered s s' 0x10 r [] ∧ MainIsReset s' ∧ s'.hearth.stage = 2 - k ∧ s'.hearth.cause = (if k = 1 then 3 else 1) := by
  have harg : arg r 0 1 = k := arg_of_single hpay (by simp only [List.mem_cons, List.not_mem_nil, or_false] at hk; omega)
  have hok : (r.payload.length == 1 && (arg r 0 1 == 1 || arg r 0 1 == 2)) = true := by
    simp only [List.mem_cons, List.not_mem_nil, or_false] at hk
    simp [hpay, harg, hk]
  refine ⟨_, (congrArg Host.Outcome.next (hmpAuth_of_authentic h (hmpChk_of_ok hok hstate) _ _) : execHmpReset r s = _), ?_⟩
  simp only [List.mem_cons, List.not_mem_nil, or_false] at hk
  obtain rfl | rfl := hk
  · rw [if_pos harg]
    have hreset := restarted_moduleReset (requestAnswered s 0x10 r []) 3
    exact ⟨answered_of_keeps (keepsAnswer_moduleReset _ _), mainIsReset_moduleReset _ _, hreset.stage, hreset.cause⟩
  · rw [if_neg (by omega)]
    exact ⟨answered_of_eq rfl rfl rfl, mainIsReset_romStart _ _, rfl, rfl⟩

theorem hmpPower_acts {k : Nat} (h : Authentic s 0x11 r) (hstate : resetState s = 0) (hremoval : s.hearth.removal = .none) (hpay : r.payload = [BitVec.ofNat 8 k]) (hk : k ≤ 1) :
    ∃ s', exec (.hmpPower r) s = .next s' ∧ Answered s s' 0x11 r [] ∧ MainIsReset s' ∧ s'.hearth.stage = (if k = 1 then 1 else 9) := by
  have harg : arg r 0 1 = k := arg_of_single hpay (by omega)
  have hok : (r.payload.length == 1 && decide (arg r 0 1 ≤ 1)) = true := by simp [hpay, harg, hk]
  have hfree : (if arg r 0 1 = 1 then resetState s else if (s.hearth.removal != .none && s.hearth.removal != .ready) = true then HmpStatus.wrongState else 0) = 0 := by
    rw [hstate, hremoval]
    split <;> rfl
  refine ⟨_, (congrArg Host.Outcome.next (hmpAuth_of_authentic h (hmpChk_of_ok hok hfree) _ _) : execHmpPower r s = _), ?_⟩
  by_cases hone : k = 1
  · rw [if_pos (harg.trans hone), if_pos hone]
    exact ⟨answered_of_keeps (keepsAnswer_moduleReset _ _), mainIsReset_moduleReset _ _, (restarted_moduleReset _ 3).stage⟩
  · have hready : ¬ ((requestAnswered s 0x11 r []).hearth.removal == .ready) = true := by
      have hsame : (requestAnswered s 0x11 r []).hearth.removal = .none := hremoval
      rw [hsame]
      decide
    rw [if_neg (fun h => hone (harg.symm.trans h)), if_neg hready, if_neg hone]
    exact ⟨answered_of_eq rfl rfl rfl, mainIsReset_modHearth _ (mainIsReset_mainOff _ _) _, rfl⟩

theorem imagePut_acts (h : Authentic s 0x12 r) (hlen : 5 ≤ r.payload.length) (hslot : arg r 0 1 ≤ 1) (hmax : r.payload.length ≤ 1029) (hfit : arg r 1 4 + (r.payload.length - 5) ≤ slotSize) :
    let at' := slotBase (arg r 0 1) + arg r 1 4
    ∃ s', exec (.imagePut r) s = .next s' ∧ Answered s s' 0x12 r [] ∧ flashBytes s' at' (r.payload.length - 5) = r.payload.drop 5 ∧
      (∀ a, a < at' ∨ at' + (r.payload.length - 5) ≤ a → Tab.get 0xFF s'.hearth.flash a = Tab.get 0xFF s.hearth.flash a) := by
  intro at'
  have hbytes : (r.payload.drop 5).length = r.payload.length - 5 := List.length_drop
  have hok : (decide (5 ≤ r.payload.length) && decide (arg r 0 1 ≤ 1) && decide ((r.payload.drop 5).length ≤ 1024) && decide (arg r 1 4 + (r.payload.drop 5).length ≤ slotSize)) = true := by
    rw [hbytes]
    simp [hlen, hslot, hfit]
    omega
  have hkept : ∀ x : State, (x.modHearth (fun h => { h with gotPut := h.gotPut || (h.sideband && arg r 0 1 == 1) })).hearth.flash = x.hearth.flash := fun _ => rfl
  refine ⟨_, (congrArg Host.Outcome.next (hmpAuth_of_authentic h (hmpChk_of_ok hok rfl) _ _) : execImagePut r s = _), answered_of_eq rfl rfl rfl, ?_, fun a ha => ?_⟩
  · rw [flashBytes, hkept, ← hbytes]
    exact flashBytes_flashWrite _ at' _
  · rw [hkept]
    refine (get_flashWrite _ at' _ a).trans (if_neg ?_)
    rw [hbytes]
    omega

theorem policySet_acts {p : Nat} (h : Authentic s 0x16 r) (hpay : r.payload = [BitVec.ofNat 8 p]) (hp : p < 16) :
    ∃ s', exec (.policySet r) s = .next s' ∧ Answered s s' 0x16 r [] ∧ s'.hearth.policy = p := by
  have harg : arg r 0 1 = p := arg_of_single hpay (by omega)
  have hok : (r.payload.length == 1 && decide (arg r 0 1 < 16)) = true := by simp [hpay, harg, hp]
  have hexec : exec (.policySet r) s = .next (if ((requestAnswered s 0x16 r []).modHearth (fun h => { h with policy := arg r 0 1 })).host.enabled then
      writeMgtEn ((requestAnswered s 0x16 r []).modHearth (fun h => { h with policy := arg r 0 1 })) else (requestAnswered s 0x16 r []).modHearth (fun h => { h with policy := arg r 0 1 })) :=
    (congrArg Host.Outcome.next (hmpAuth_of_authentic h (hmpChk_of_ok hok rfl) _ _) : execPolicySet r s = _)
  rw [harg] at hexec
  refine ⟨_, hexec, ?_⟩
  split
  · obtain ⟨retry, hwritten⟩ := hearth_writeMgtEn ((requestAnswered s 0x16 r []).modHearth (fun h => { h with policy := p }))
    exact ⟨answered_of_keeps (by rw [hwritten]; exact keepsAnswer_of_eq rfl rfl rfl), congrArg Hearth.policy hwritten⟩
  · exact ⟨answered_of_eq rfl rfl rfl, rfl⟩

theorem removePrep_acts (h : Authentic s 0x17 r) (hpay : r.payload = []) (hremoval : s.hearth.removal = .none) (hstage : s.hearth.stage = 6) :
    ∃ s', exec (.removePrep r) s = .next s' ∧ Answered s s' 0x17 r [] ∧ s'.hearth.stage = 7 ∧ s'.hearth.removal = (if anyTask s then .draining else if s.staon.left then .off else .leaving) ∧
      (anyTask s = true ∨ s.staon.left = false → ∀ q < 64, s'.fld (Csr.hqState q) 23 23 = 1) := by
  have hchk : hmpChk r.payload.isEmpty (if (s.hearth.removal != .none) = true then HmpStatus.busy else if s.hearth.stage = 6 then 0 else HmpStatus.wrongState) = 0 := by
    rw [hpay, hremoval, hstage]
    rfl
  obtain ⟨held, hstart⟩ := hearth_startRemoval (requestAnswered s 0x17 r [])
  exact ⟨_, (congrArg Host.Outcome.next (hmpAuth_of_authentic h hchk _ _) : execRemovePrep r s = _),
    answered_of_keeps (by rw [hstart]; exact keepsAnswer_of_eq rfl rfl rfl), congrArg Hearth.stage hstart, congrArg Hearth.removal hstart,
    fun hcase q hq => stopped_startRemoval (s := requestAnswered s 0x17 r []) hcase hq⟩

theorem imageDone_acts (h : Authentic s 0x13 r) (hlen : r.payload.length = 5) (hslot : arg r 0 1 ≤ 1) (htotal : arg r 1 4 ≤ slotSize) (hside : s.hearth.sideband = false) :
    ∃ s', exec (.imageDone r) s = .next s' ∧ Answered s s' 0x13 r (leBytes 2 (announcedCode s (arg r 0 1) (arg r 1 4))) ∧ s'.hearth.stage = s.hearth.stage := by
  have hok : (r.payload.length == 5 && decide (arg r 0 1 ≤ 1) && decide (arg r 1 4 ≤ slotSize)) = true := by simp [hlen, hslot, htotal]
  refine ⟨_, (congrArg Host.Outcome.next (hmpAuth_of_authentic h (hmpChk_of_ok hok rfl) _ _) : execImageDone r s = _), ?_⟩
  generalize leBytes 2 (announcedCode s (arg r 0 1) (arg r 1 4)) = out
  have hnot : ¬ ((requestAnswered s 0x13 r out).hearth.sideband && arg r 0 1 == 1) = true := by
    have hsame : (requestAnswered s 0x13 r out).hearth.sideband = false := hside
    rw [hsame]
    exact Bool.false_ne_true
  rw [if_neg hnot]
  exact ⟨answered_of_eq rfl rfl rfl, rfl⟩

/-- A request with a wrong tag is answered AUTH_FAIL, and logged. -/
theorem hmpAuth_of_wrong_tag {op : Nat} (h : Requests s r) (htag : tagOk s op r = false) (chk : Nat) (out : List Byte) (eff : State → State) :
    hmpAuth op r chk out eff s = hmpReply (hearthLog s HC.hmpAuthFail 0) op r HmpStatus.authFail [] := by
  obtain ⟨hrun, hflags, hhead⟩ := h
  unfold hmpAuth
  rw [if_neg (by simp [hrun, hflags]), if_neg (by simp [hhead]), if_pos (by simp [htag])]

end

/-- Settles O50: each authenticated request is answered, and has its effect. (The places of the arguments of IMAGE_PUT, IMAGE_DONE and NET_SET, the states that SVN_COMMIT and REMOVE_PREP need and
the open KEY_SET are the model's choice, log entry 34.) -/
theorem authenticRequestsAct : Obligations.AuthenticRequestsAct := by
  unfold Obligations.AuthenticRequestsAct
  refine ⟨fun s r k => hmpReset_acts, fun s r k => hmpPower_acts, fun s r => imagePut_acts, fun s r => imageDone_acts, fun s r h hlen => ?time, fun s r h hpay hstage => ?svn, fun s r p => policySet_acts,
    fun s r => removePrep_acts, fun s r h hkey hopen hlen => ?openKey, fun s r h hkey hlen => ?key, fun s r h hlen => ?net, fun s r h htag => ?wrong⟩
  case time =>
    have harg : arg r 0 6 = leNat r.payload := by rw [arg, List.drop_zero, List.take_of_length_le (by omega)]
    exact ⟨_, (congrArg Host.Outcome.next (hmpAuth_of_authentic h (hmpChk_of_ok (by simp [hlen]) rfl) _ _) : execTimeSet r s = _), answered_of_eq rfl rfl rfl, harg, rfl⟩
  case svn =>
    have hstate : (if s.hearth.stage = 6 ∨ s.hearth.stage = 7 then 0 else HmpStatus.wrongState) = 0 := if_pos (by simpa using hstage)
    exact ⟨_, (congrArg Host.Outcome.next (hmpAuth_of_authentic h (hmpChk_of_ok (by simp [hpay]) hstate) _ _) : execSvnCommit r s = _), answered_of_eq rfl rfl rfl, rfl⟩
  case openKey =>
    have hcond : (s.hearth.hmpKey.isNone && !r.flags.testBit 1) = true := by simp [hkey, hopen]
    have hexec : exec (.keySet r) s = .next ((hmpReply s 0x18 r 0 []).modHearth (fun h => { h with hmpKey := some r.payload })) :=
      congrArg Host.Outcome.next ((if_pos hcond).trans (hmpOpen_of_requests h (hmpChk_of_ok (by simp [hlen]) rfl)))
    exact ⟨_, hexec, rfl, rfl⟩
  case key =>
    have hcond : ¬ (s.hearth.hmpKey.isNone && !r.flags.testBit 1) = true := by simp [hkey]
    have hexec : exec (.keySet r) s = .next ((requestAnswered s 0x18 r []).modHearth (fun h => { h with hmpKey := some r.payload })) :=
      congrArg Host.Outcome.next ((if_neg hcond).trans (hmpAuth_of_authentic h (hmpChk_of_ok (by simp [hlen]) rfl) _ _))
    exact ⟨_, hexec, answered_of_eq rfl rfl rfl, rfl⟩
  case net =>
    exact ⟨_, (congrArg Host.Outcome.next (hmpAuth_of_authentic h (hmpChk_of_ok (by simp [hlen]) rfl) _ _) : execNetSet r s = _), answered_of_eq rfl rfl rfl, rfl, rfl⟩
  case wrong =>
    obtain ⟨events, hlog⟩ := hearth_hearthLog s HC.hmpAuthFail 0
    have hexec : exec (.timeSet r) s = .next (hmpReply (hearthLog s HC.hmpAuthFail 0) 0x14 r HmpStatus.authFail []) :=
      (congrArg Host.Outcome.next (hmpAuth_of_wrong_tag h htag _ _ _) : execTimeSet r s = _)
    rw [hlog] at hexec
    exact ⟨_, hexec, rfl, rfl, rfl⟩

/-! ### Removal and the input (R558, R588 to R592) -/

theorem hscCode_mem (causes : List HscCause) : hscCode causes ∈ [1, 2, 3, 4] := by
  unfold hscCode
  split
  · decide
  · split
    · decide
    · split <;> decide

/-- The part of O52 about removal and the input. -/
theorem removalAndInputRunTheirCourse : RemovalAndInputRunTheirCourse := by
  refine ⟨fun s hrun hpol hstage hrem => ?hold, fun s hrun hrem => ?drain, fun s hrun hrem => ?ready, fun s hadm => ?mated, fun s v hadm hlow hhigh => ?input, fun s causes hadm hcauses => ?trip⟩
  case hold =>
    have hexec : exec .attnRemoveHold s = .next (startRemoval (s.setModhw { s.modhw with attn := true })) := by
      refine ((hearthWhen_of hrun rfl _ : execAttnRemoveHold s = _)).trans (congrArg Host.Outcome.next (if_pos ?_))
      rw [hpol, hstage, hrem]
      rfl
    obtain ⟨held, hstart⟩ := hearth_startRemoval (s.setModhw { s.modhw with attn := true })
    refine ⟨_, hexec, ?_, congrArg Hearth.stage hstart, congrArg Hearth.removal hstart⟩
    rw [modhw_startRemoval]
    rfl
  case drain =>
    refine ⟨_, (hearthWhen_of hrun (by rw [hrem]; rfl) _ : execDrainTimeExpire s = _), ?_⟩
    rw [endDrain_eq]
    cases hleft : s.staon.left with
    | false =>
      rw [if_neg Bool.false_ne_true]
      refine ⟨fun t ht => ?_, fun _ => ⟨congrArg Hearth.removal (hearth_removalLeaves s), leaving_removalLeaves hleft⟩, fun h => by cases h⟩
      rw [State.tray, trays_removalLeaves]
      exact live_tasksEnded s ht
    | true =>
      rw [if_pos rfl]
      have hreset := mainIsReset_removalOff s
      refine ⟨fun t ht => ?_, fun h => by (cases h), fun _ => ⟨congrArg Hearth.removal (hearth_removalOff s), hreset⟩⟩
      rw [Tray.live, hreset.1 t ht]
      rfl
  case ready =>
    obtain ⟨events, hevent⟩ := hearth_hearthEvent s HC.removeReady 0
    have hexec : exec .removeReady s = _ := (hearthWhen_of hrun (by rw [hrem]; rfl) _ : execRemoveReady s = _)
    rw [hevent] at hexec
    exact ⟨_, hexec, rfl, rfl, rfl⟩
  case mated =>
    have hexec : exec .matedNOpen s = .next (inputOpens (s.setModhw { s.modhw with mated := false }) 1) := congrArg Host.Outcome.next (if_pos hadm)
    exact ⟨_, hexec, rfl, rfl, rfl, rfl, mainIsReset_inputOpens _ _, keeps_romStart (s.setModhw { s.modhw with mated := false }) s.hearth.cause⟩
  case input =>
    exact ⟨_, congrArg Host.Outcome.next (if_pos (by simp [hadm, hlow, hhigh])), rfl, rfl, rfl⟩
  case trip =>
    have hexec : exec (.hotSwapTrip causes) s = .next (inputOpens s (hscCode causes)) := congrArg Host.Outcome.next (if_pos (by simp [hadm, hcauses]))
    exact ⟨_, hexec, rfl, hscCode_mem causes, rfl, mainIsReset_inputOpens _ _, keeps_romStart s s.hearth.cause⟩

/-! ### The references (R595) -/

/-- A port in use goes down with its reference. -/
def portLosesRef (s : State) (p : Nat) : State := if (sport s p).state = 0 ∨ (sport s p).state = 6 then s else portDown s p

theorem state_portLosesRef_other (s : State) {p q : Nat} (h : p ≠ q) : (sport (portLosesRef s p) q).state = (sport s q).state := by
  unfold portLosesRef
  split
  · rfl
  · exact (loses_portDown (A := (· = p)) s rfl).portState h.symm

theorem state_portLosesRef_same (s : State) {p : Nat} (hp : p < 12) : (sport (portLosesRef s p) p).state = if (sport s p).state = 0 then 0 else 6 := by
  unfold portLosesRef
  by_cases h0 : (sport s p).state = 0
  · rw [if_pos (.inl h0), if_pos h0, h0]
  · rw [if_neg h0]
    by_cases h6 : (sport s p).state = 6
    · rw [if_pos (.inr h6), h6]
    · rw [if_neg (not_or.mpr ⟨h0, h6⟩)]
      exact state_portDown s hp

/-- A port out of use or down stays as it is. -/
theorem state_foldl_portLosesRef_kept {p : Nat} (l : List Nat) : ∀ {s : State}, ((sport s p).state = 0 ∨ (sport s p).state = 6) →
    (sport (l.foldl portLosesRef s) p).state = (sport s p).state := by
  induction l with
  | nil => exact fun _ => rfl
  | cons q l ih =>
    intro s h
    have hstep : (sport (portLosesRef s q) p).state = (sport s p).state := by
      by_cases hq : q = p
      · rw [hq, portLosesRef, if_pos h]
      · exact state_portLosesRef_other s hq
    rw [List.foldl_cons, ih (by rw [hstep]; exact h), hstep]

theorem state_foldl_portLosesRef {p : Nat} (hp : p < 12) (l : List Nat) : ∀ (s : State), p ∈ l → (sport (l.foldl portLosesRef s) p).state = if (sport s p).state = 0 then 0 else 6 := by
  induction l with
  | nil => exact fun _ h => absurd h List.not_mem_nil
  | cons q l ih =>
    intro s h
    rw [List.foldl_cons]
    by_cases hq : q = p
    · have hstep := state_portLosesRef_same s hp
      rw [hq, state_foldl_portLosesRef_kept l (by rw [hstep]; split <;> simp), hstep]
    · rw [ih _ ((List.mem_cons.mp h).resolve_left (Ne.symm hq)), state_portLosesRef_other s hq]

/-- The state with every port's reference lost. -/
@[irreducible] def refLost (s : State) : State := (List.range 12).foldl portLosesRef s

theorem state_refLost (s : State) {p : Nat} (hp : p < 12) : (sport (refLost s) p).state = if (sport s p).state = 0 then 0 else 6 := by
  unfold refLost
  exact state_foldl_portLosesRef hp _ s (List.mem_range.mpr hp)

theorem exec_ref156sLoss (s : State) : exec .ref156sLoss s = .next ((refLost s).modStaon (fun b => { b with ref := false })) := by
  have hstep : (fun s' p => if (sport s' p).state = 0 ∨ (sport s' p).state = 6 then s' else portDown s' p) = portLosesRef := rfl
  change execRef156sLoss s = _
  unfold execRef156sLoss refLost
  rw [hstep]

/-- A port is brought into line with what allows it. -/
def portAdjusted (s : State) (p : Nat) : State :=
  if portAllowed s p then (if (sport s p).state = 0 then modSport s p (fun x => { x with state := 1 }) else s)
  else if (sport s p).state = 0 then s else portDisable s p

/-- Ports that are out of use, or train because they may. -/
def PortsFresh (s : State) : Prop := ∀ p < 12, (sport s p).state = 0 ∨ ((sport s p).state = 1 ∧ portAllowed s p = true)

theorem portAdjusted_of_fresh {s : State} (h : PortsFresh s) {p : Nat} (hp : p < 12) :
    portAdjusted s p = s ∧ (portAllowed s p = true → (sport s p).state = 1) ∨ portAllowed s p = true ∧ portAdjusted s p = modSport s p (fun x => { x with state := 1 }) := by
  unfold portAdjusted
  obtain h0 | ⟨h1, hallowed⟩ := h p hp
  · by_cases hallowed : portAllowed s p = true
    · exact .inr ⟨hallowed, by rw [if_pos hallowed, if_pos h0]⟩
    · exact .inl ⟨by rw [if_neg hallowed, if_pos h0], fun h => absurd h hallowed⟩
  · exact .inl ⟨by rw [if_pos hallowed, if_neg (by omega)], fun _ => h1⟩

theorem state_foldl_portAdjusted (l : List Nat) : ∀ {s : State}, PortsFresh s → (∀ q ∈ l, q < 12) → ∀ p < 12,
    (sport (l.foldl portAdjusted s) p).state = if p ∈ l ∧ portAllowed s p = true then 1 else (sport s p).state := by
  induction l with
  | nil => exact fun _ _ p _ => (if_neg (by simp)).symm
  | cons q l ih =>
    intro s hs hl p hp
    have hrest : ∀ x ∈ l, x < 12 := fun x hx => hl x (List.mem_cons_of_mem _ hx)
    have hq : q < 12 := hl q (List.mem_cons_self ..)
    rw [List.foldl_cons]
    obtain ⟨hsame, htrains⟩ | ⟨hallowed, htrain⟩ := portAdjusted_of_fresh hs hq
    · rw [hsame, ih hs hrest p hp]
      by_cases hpq : p = q
      · rw [hpq]
        by_cases hallowed : portAllowed s q = true
        · simp [hallowed, htrains hallowed]
        · simp [hallowed]
      · simp [hpq]
    · have hfresh : PortsFresh (modSport s q (fun x => { x with state := 1 })) := by
        intro x hx
        by_cases hxq : x = q
        · refine .inr ⟨?_, hxq ▸ hallowed⟩
          rw [hxq, sport_modSport_same s hq]
        · rw [sport_modSport_other s (Ne.symm hxq)]
          exact hs x hx
      have hkept : portAllowed (modSport s q (fun x => { x with state := 1 })) p = portAllowed s p := rfl
      rw [htrain, ih hfresh hrest p hp, hkept]
      by_cases hpq : p = q
      · rw [hpq, sport_modSport_same s hq]
        simp [hallowed]
      · rw [sport_modSport_other s (Ne.symm hpq)]
        simp [hpq]

/-- Ports all out of use train where they may. -/
theorem state_adjustPorts {s : State} (h : ∀ q < 12, (sport s q).state = 0) {p : Nat} (hp : p < 12) : (sport (adjustPorts s) p).state = if portAllowed s p = true then 1 else 0 := by
  have hstep : (fun s' p => if portAllowed s' p then (if (sport s' p).state = 0 then modSport s' p (fun x => { x with state := 1 }) else s')
    else if (sport s' p).state = 0 then s' else portDisable s' p) = portAdjusted := rfl
  have hfold := state_foldl_portAdjusted (List.range 12) (fun q hq => .inl (h q hq)) (fun q hq => List.mem_range.mp hq) p hp
  unfold adjustPorts
  rw [hstep, hfold, h p hp]
  exact if_congr (and_iff_right (List.mem_range.mpr hp)) rfl rfl

/-- The part of O52 about the references. -/
theorem referencesHoldTheirClocks : ReferencesHoldTheirClocks := by
  refine ⟨fun s href hadm => ?loss, fun s href hadm => ?back, fun s => ?hostLoss, fun s => ⟨_, rfl, rfl, rfl⟩, fun s => ?fabricLoss, fun s hen hleft hports => ?fabricBack⟩
  case loss =>
    have hexec : exec .ref100Loss s = .next ((holdAll s).setModhw { (holdAll s).modhw with ref100 := false, refLoss := s.modhw.admitted || s.modhw.refLoss }) := congrArg Host.Outcome.next (if_pos href)
    exact ⟨_, hexec, rfl, by (change (s.modhw.admitted || s.modhw.refLoss) = true; rw [hadm]; rfl), rfl, mainIsReset_holdAll s, keeps_romStart s s.hearth.cause⟩
  case back =>
    obtain ⟨cause, hcause⟩ : ∃ cause, (if s.modhw.refLoss then 6 else 0) = cause := ⟨_, rfl⟩
    have hexec : exec .ref100Return s = .next ((powerOnReset (s.setModhw { s.modhw with ref100 := true }) cause).setModhw
        { (powerOnReset (s.setModhw { s.modhw with ref100 := true }) cause).modhw with refLoss := false }) := by
      rw [← hcause]
      exact congrArg Host.Outcome.next ((if_neg (by rw [href]; exact Bool.false_ne_true)).trans (if_pos hadm))
    exact ⟨_, hexec, rfl, rfl, rfl, rfl, keeps_romStart (s.setModhw { s.modhw with ref100 := true }) cause, fun h => hcause.symm.trans (if_pos h)⟩
  case hostLoss =>
    refine ⟨_, rfl, rfl, fun p hp => ?_, rfl⟩
    have hup : ((hostDown (hostDown s 0) 1).setHost { (hostDown (hostDown s 0) 1).host with ref := false }).host.up = Vec.put (Vec.put s.host.up 0 false) 1 false := rfl
    rw [hup]
    by_cases h1 : p = 1
    · rw [h1]
      exact Vec.get_put_same _ _ _ (by omega)
    · rw [Vec.get_put_other _ _ _ (Ne.symm h1), show p = 0 by omega]
      exact Vec.get_put_same _ _ _ (by omega)
  case fabricLoss =>
    exact ⟨_, exec_ref156sLoss s, rfl, fun p hp => state_refLost s hp⟩
  case fabricBack =>
    have href : ∀ x : State, (adjustPorts x).staon.ref = x.staon.ref := fun x => of_besidesMessages Staon.ref (fun _ => rfl) (loses_adjustPorts x).rest
    refine ⟨_, rfl, href _, fun p hp => ?_⟩
    refine (state_adjustPorts (s := s.modStaon (fun b => { b with ref := true })) hports hp).trans (if_congr ?_ rfl rfl)
    have hallowed : portAllowed (s.modStaon (fun b => { b with ref := true })) p = (s.staon.enabled && true && domOn s (100 + p) && !s.staon.left && bit (s.reg Csr.stnCfg) (32 + p)) := rfl
    rw [hallowed, hen, hleft]
    simp

/-- Settles O52: the course of a removal and of the input, and what the references hold. (That a removal with no task ends its drain at once, that an admission closes MATED_N and that REF100's loss
is kept only while the input is admitted are the model's reading, log entry 38; that the main logic is then reset is that of log entry 37.) -/
theorem removalInputAndReferences : Obligations.RemovalInputAndReferences := by
  unfold Obligations.RemovalInputAndReferences
  exact ⟨removalAndInputRunTheirCourse, referencesHoldTheirClocks⟩

end Sys2Proof.Machine
end

section
/-! PROOFS. Records and their rings (R451 to R454): the registers that a translation leaves, the barriers that another task's end breaks, and the task boundary. -/

namespace Sys2Proof.Machine

open Sys2Proof.Claims

/-! ### Registers that a translation leaves (R375 to R379) -/

/-- Counters of the Larder and of the walks, and the register of an injection: what a translation and the accesses of its walk may change. -/
@[reducible] def WalkReg (off : Nat) : Prop := off ∈ [Csr.larHits, Csr.larMisses, Csr.larWritebacks, Csr.mmuWalks, Csr.mmuMisses, Csr.errInj, Csr.errEccCe 10]

section
variable {off : Nat} (h : ¬ WalkReg off)
include h

theorem reg_count_of_walk (s : State) {c : Nat} (hc : WalkReg c) (n : Nat) : (s.count c n).reg off = s.reg off :=
  State.reg_count_other _ _ (fun heq => h (heq ▸ hc))

theorem reg_lineLeaves (s : State) (slice line : Nat) (dirty : Bool) : (lineLeaves s slice line dirty).reg off = s.reg off := by
  unfold lineLeaves
  dsimp only
  split
  · exact reg_count_of_walk h _ (by decide) 1
  · split <;> rfl

theorem reg_larderServe (s : State) (x : ArbReq) : (larderServe s x).reg off = s.reg off := by
  have hmiss : (lineUsed (s.count Csr.larMisses 1) x.line (larderRoom s x.line) ⟨true, larTag x.line, x.write⟩).reg off = s.reg off := reg_count_of_walk h s (by decide) 1
  unfold larderServe
  dsimp only
  split
  · exact reg_count_of_walk h s (by decide) 1
  · split
    · rw [reg_lineLeaves h]
      split <;> exact hmiss
    · split <;> exact hmiss

theorem reg_larderTouch (s : State) (walker pa n : Nat) (write : Bool) : (larderTouch s walker pa n write).reg off = s.reg off := by
  unfold larderTouch
  split
  · exact foldl_keeps (π := fun s => s.reg off) (fun s l => reg_larderServe h s _) _ s
  · exact foldl_keeps (π := fun s => s.reg off) (fun s l => (rfl : (pushArb s _ _ _).reg off = s.reg off)) _ s
  · rfl

theorem reg_walkTouch (s : State) (walker space va : Nat) : (walkTouch s walker space va).reg off = s.reg off := by
  unfold walkTouch
  dsimp only
  split
  · exact foldl_keeps (π := fun s => s.reg off) (fun s a => reg_larderTouch h s _ _ _ _) _ s
  · rfl

omit h in
theorem reg_setTCache (s : State) (walker : Nat) (c : TCache) : (setTCache s walker c).reg off = s.reg off := by
  unfold setTCache
  split <;> rfl

theorem reg_plantEntry (s : State) (walker i : Nat) : (plantEntry s walker i).reg off = s.reg off := by
  unfold plantEntry
  dsimp only
  split
  · exact State.reg_setFld_other _ _ _ _ (fun heq => h (by rw [← heq]; decide))
  · rfl

theorem reg_dropEntry (s : State) (walker i : Nat) : (dropEntry s walker i).reg off = s.reg off :=
  (reg_setTCache _ _ _).trans (reg_count_of_walk h s (by decide) 1)

theorem reg_walkAndFill (s : State) (walker space va : Nat) (write : Bool) : (walkAndFill s walker space va write).1.reg off = s.reg off := by
  have hwalks : ((walkTouch s walker space va).count Csr.mmuWalks 1).reg off = s.reg off := (reg_count_of_walk h _ (by decide) 1).trans (reg_walkTouch h s walker space va)
  unfold walkAndFill
  dsimp only
  split
  · split
    · exact (reg_count_of_walk h _ (by decide) 1).trans hwalks
    · exact hwalks
  · split
    · rw [reg_plantEntry h, reg_setTCache, hwalks]
    · exact hwalks

theorem reg_translate (s : State) (walker space : Nat) (va : Int) (write : Bool) : (translate s walker space va write).1.reg off = s.reg off := by
  unfold translate
  dsimp only
  split
  · rfl
  · split
    · split
      · rw [reg_walkAndFill h, reg_dropEntry h]
      · split <;> exact reg_setTCache _ _ _
    · exact reg_walkAndFill h _ _ _ _ _

end

theorem not_walkReg_hqIndex {q : Nat} (hq : q < 64) : ¬ WalkReg (Csr.hqIndex q) := by
  simp only [WalkReg, Csr.hqIndex, Csr.larHits, Csr.larMisses, Csr.larWritebacks, Csr.mmuWalks, Csr.mmuMisses, Csr.errInj, Csr.errEccCe, List.mem_cons, List.not_mem_nil, or_false]
  omega

/-! ### Barriers broken by another tray's end (R120, R121) -/

/-- No barrier has an arrival of a tray waiting. -/
def NoneWaits (s : State) (t : Nat) : Prop := ∀ b < 16, ∀ p ∈ (s.barrier b).waiters, p.1 ≠ t

theorem noneWaits_setBarrier {s : State} {t b : Nat} (h : NoneWaits s t) {x : Barrier} (hx : ∀ p ∈ x.waiters, p.1 ≠ t) : NoneWaits (s.setBarrier b x) t := by
  intro c hc p hp
  by_cases hbc : b = c
  · rw [hbc, State.barrier, State.setBarrier, State.setBarriers_barriers, Vec.get_put_same _ _ _ hc] at hp
    exact hx p hp
  · rw [State.barrier, State.setBarrier, State.setBarriers_barriers, Vec.get_put_other _ _ _ hbc] at hp
    exact h c hc p hp

theorem tray_faultInst_other (s : State) {t u : Nat} (h : t ≠ u) (k code aux addr : Nat) : (faultInst s t k code aux addr).tray u = s.tray u := by
  unfold faultInst faultInstLog
  split
  · next i _ =>
    have hend := tray_endTask_other s h code i.index i.passIndex i.rowBlock aux addr
    dsimp only
    split
    · exact (State.tray_modTray_other _ _ h).trans hend
    · exact hend
  · rfl

/-- The faults of other trays' arrivals leave a tray as it is. -/
theorem tray_foldl_faultInst {t : Nat} (l : List (Nat × Nat)) : ∀ (s : State), (∀ p ∈ l, p.1 ≠ t) → (l.foldl (fun s' p => faultInst s' p.1 p.2 FC.syncBarBroken 0 0) s).tray t = s.tray t := by
  induction l with
  | nil => exact fun _ _ => rfl
  | cons p l ih =>
    intro s h
    rw [List.foldl_cons, ih _ (fun x hx => h x (List.mem_cons_of_mem _ hx)), tray_faultInst_other s (h p (List.mem_cons_self ..))]

theorem barriers_foldl_faultInst (l : List (Nat × Nat)) (s : State) : (l.foldl (fun s' p => faultInst s' p.1 p.2 FC.syncBarBroken 0 0) s).barriers = s.barriers := by
  refine foldl_keeps (π := State.barriers) (fun x p => ?_) l s
  have h : Touch portParts x (faultInst x p.1 p.2 FC.syncBarBroken 0 0) := by apply touch_faultInst _ _ _ _ _ _ (.refl _ x) <;> rfl
  exact h.barriers rfl

theorem breakBarrier_spares {s : State} {t b : Nat} (h : NoneWaits s t) (hb : b < 16) : (breakBarrier s b).tray t = s.tray t ∧ NoneWaits (breakBarrier s b) t := by
  have hfree : NoneWaits (s.setBarrier b .free) t := noneWaits_setBarrier h (fun p hp => by cases hp)
  refine ⟨tray_foldl_faultInst _ _ (h b hb), fun c hc p hp => hfree c hc p ?_⟩
  rw [State.barrier, breakBarrier, barriers_foldl_faultInst] at hp
  exact hp

/-- What the end of a task does at one barrier (R120). -/
def endBarrier (t : Nat) (s : State) (b : Nat) : State :=
  match (s.barrier b).mask with
  | some m => if m.testBit t && !(s.barrier b).arrived.testBit t then breakBarrier s b else s.setBarrier b { s.barrier b with waiters := (s.barrier b).waiters.filter (fun p => p.1 != t) }
  | none => s

theorem endBarrier_spares {s : State} {t b : Nat} (h : NoneWaits s t) (hb : b < 16) : (endBarrier t s b).tray t = s.tray t ∧ NoneWaits (endBarrier t s b) t := by
  unfold endBarrier
  split
  · split
    · exact breakBarrier_spares h hb
    · exact ⟨rfl, noneWaits_setBarrier h (fun p hp => h b hb p (List.mem_filter.mp hp).1)⟩
  · exact ⟨rfl, h⟩

theorem tray_foldl_endBarrier {t : Nat} (l : List Nat) : ∀ {s : State}, NoneWaits s t → (∀ b ∈ l, b < 16) → (l.foldl (endBarrier t) s).tray t = s.tray t := by
  induction l with
  | nil => exact fun _ _ => rfl
  | cons b l ih =>
    intro s h hl
    obtain ⟨htray, hnone⟩ := endBarrier_spares h (hl b (List.mem_cons_self ..))
    rw [List.foldl_cons, ih hnone (fun c hc => hl c (List.mem_cons_of_mem _ hc)), htray]

theorem endBarriers_eq (s : State) (t : Nat) : endBarriers s t = (List.range 16).foldl (endBarrier t) s := by
  have hstep : (fun s' b =>
      let x := State.barrier s' b
      match x.mask with
      | some m => if m.testBit t && !x.arrived.testBit t then breakBarrier s' b else s'.setBarrier b { x with waiters := x.waiters.filter (fun p => p.1 != t) }
      | none => s') = endBarrier t := rfl
  rw [← hstep]
  rfl

theorem tray_endBarriers {s : State} {t : Nat} (h : NoneWaits s t) : (endBarriers s t).tray t = s.tray t := by
  rw [endBarriers_eq]
  exact tray_foldl_endBarrier (List.range 16) h (fun b hb => List.mem_range.mp hb)

/-- The registers that the broken barriers of a task's end leave. -/
theorem reg_endBarriers {off : Nat} (ho : ¬ LossReg off) (s : State) (t : Nat) : (endBarriers s t).reg off = s.reg off := by
  have hbreak : ∀ (x : State) (b : Nat), (breakBarrier x b).reg off = x.reg off := fun x b =>
    foldl_keeps (π := fun s => s.reg off) (fun (y : State) (p : Nat × Nat) => (loses_faultInst (A := fun _ => True) y p.1 p.2 FC.syncBarBroken 0 0).reg off ho)
      (x.barrier b).waiters (x.setBarrier b .free)
  rw [endBarriers_eq]
  refine foldl_keeps (π := fun s => s.reg off) (fun x b => ?_) (List.range 16) s
  unfold endBarrier
  split
  · split
    · exact hbreak x b
    · rfl
  · rfl

/-! ### The task boundary (R84) -/

theorem taskBoundary_idle (s : State) {t : Nat} (ht : t < 32) : ((taskBoundary s t).tray t).state = .idle ∧ ((taskBoundary s t).tray t).insts = [] := by
  rw [taskBoundary]
  rw [State.tray_modTray_same _ _ ht]
  exact ⟨rfl, rfl⟩

theorem tokens_taskBoundary {s : State} {t : Nat} (ht : t < 32) (h : NoneWaits s t) : ((taskBoundary s t).tray t).tokens = (bumpTokens (Vector.replicate 8 0) (s.tray t).endSig).1 := by
  have htray := tray_endBarriers (s := dropMaps s t) h
  have hsame : ∀ (x : State) (f : Core → Core), (x.modCore (coreOf t) f).tray t = x.tray t := fun _ _ => rfl
  rw [taskBoundary]
  rw [State.tray_modTray_same _ _ ht, hsame, htray]
  rfl

theorem reg_taskBoundary {off : Nat} (ho : ¬ LossReg off) (s : State) (t : Nat) : (taskBoundary s t).reg off = s.reg off := by
  have hsame : ∀ (x : State) (f : Core → Core) (g : Tray → Tray), ((x.modCore (coreOf t) f).modTray t g).reg off = x.reg off := fun _ _ _ => rfl
  rw [taskBoundary, hsame, reg_endBarriers ho]
  rfl

theorem mem_taskBoundary (s : State) (t : Nat) : (taskBoundary s t).mem = s.mem := by
  have h : Touch { portParts with barriers := true } s (taskBoundary s t) := by apply touch_taskBoundary _ _ (.refl _ s) <;> rfl
  exact h.mem rfl

theorem not_lossReg_hqIndex {q : Nat} (hq : q < 64) : ¬ LossReg (Csr.hqIndex q) := by
  rintro ((h | ⟨c, h⟩) | h | ⟨p, h⟩)
  · simp only [Csr.hqIndex, Csr.stnFlitsTx, Csr.stnMcastLost, Csr.stnDrops, List.mem_cons, List.not_mem_nil, or_false] at h
    omega
  · simp only [Csr.hqIndex, Csr.prfBytesRmt] at h
    omega
  · simp only [Csr.hqIndex, Csr.stnLinkDowns, Csr.stnMcastDetach, Csr.errLogNext, Csr.errTasksEnded, List.mem_cons, List.not_mem_nil, or_false] at h
    omega
  · simp only [Csr.hqIndex, Csr.hqState] at h
    omega

/-! ### A record and its ring (R451, R452) -/

theorem length_recBytes (r : Rec) (phase : Bool) : (recBytes r phase).length = 32 := by
  simp [recBytes, length_leBytes]

/-- Whether the page of an address may be written, as the module's cache holds it (R378). -/
def pageWritable (s : State) (space va : Nat) : Bool :=
  match tFind (tBits 4) s.mmu.cache space va with
  | some (_, e) => e.wr
  | none => false

/-- A record's bytes land where its translation points, if that may be accessed. -/
def recLands (s : State) (pa : Nat) (bs : List Byte) : State × Option Nat :=
  match physCheck s pa bs.length true with
  | some (code, _) => (s, some code)
  | none => (hostWriteOut ((larderTouch s 4 pa bs.length true).write pa bs) pa bs, none)

theorem ringWrite_of_ok {s s1 : State} {space va pa : Nat} {bs : List Byte} (h : translate s 4 space va false = (s1, .ok pa)) :
    ringWrite s space va bs = if !pageWritable s1 space va then (s1, some FC.memPerm) else recLands s1 pa bs := by
  unfold ringWrite
  rw [h]
  rfl

theorem ringWrite_of_bad {s s1 : State} {space va code : Nat} {bs : List Byte} (h : translate s 4 space va false = (s1, .bad code)) : ringWrite s space va bs = (s1, some code) := by
  unfold ringWrite
  rw [h]

theorem recLands_cases (s : State) (pa : Nat) (bs : List Byte) :
    (∃ code, recLands s pa bs = (s, some code)) ∨ recLands s pa bs = (hostWriteOut ((larderTouch s 4 pa bs.length true).write pa bs) pa bs, none) := by
  unfold recLands
  split
  · exact .inl ⟨_, rfl⟩
  · exact .inr rfl

/-- A translated record is written whole, or leaves only what its translation did. -/
theorem ringWrite_cases {s s1 : State} {space va pa : Nat} (bs : List Byte) (h : translate s 4 space va false = (s1, .ok pa)) :
    (∃ code, ringWrite s space va bs = (s1, some code)) ∨ ringWrite s space va bs = (hostWriteOut ((larderTouch s1 4 pa bs.length true).write pa bs) pa bs, none) := by
  rw [ringWrite_of_ok h]
  split
  · exact .inl ⟨_, rfl⟩
  · exact recLands_cases s1 pa bs

theorem ringWrite_of_written {s s1 : State} {space va pa : Nat} {bs : List Byte} (h : translate s 4 space va false = (s1, .ok pa)) (hwritten : (ringWrite s space va bs).2 = none) :
    ringWrite s space va bs = (hostWriteOut ((larderTouch s1 4 pa bs.length true).write pa bs) pa bs, none) := by
  obtain ⟨code, hfailed⟩ | hdone := ringWrite_cases bs h
  · rw [hfailed] at hwritten
    cases hwritten
  · exact hdone

/-- A record that cannot be written leaves only what its translation did. -/
theorem ringWrite_of_failed {s s1 : State} {space va code : Nat} {bs : List Byte} (h : ringWrite s space va bs = (s1, some code)) : s1 = (translate s 4 space va false).1 := by
  obtain ⟨s0, result, htranslate⟩ : ∃ s0 result, translate s 4 space va false = (s0, result) := ⟨_, _, rfl⟩
  rw [htranslate]
  cases result with
  | bad _ => exact (Prod.mk.inj ((ringWrite_of_bad htranslate).symm.trans h)).1.symm
  | ok pa =>
    obtain ⟨_, hfailed⟩ | hdone := ringWrite_cases bs htranslate
    · exact (Prod.mk.inj (hfailed.symm.trans h)).1.symm
    · exact absurd (Prod.mk.inj (hdone.symm.trans h)).2 (Option.some_ne_none code).symm

/-- What the write of a record may change beside memory. -/
def ringParts : Parts :=
  { mem := true, poison := true, benchPoison := true, regs := true, cores := true, mmu := true, larder := true, arbs := true, planted := true, host := true, hostTx := true }

theorem touch_ringWrite_refl (s : State) (space va : Nat) (bs : List Byte) : Touch ringParts s (ringWrite s space va bs).1 := by
  apply touch_ringWrite _ _ _ _ (.refl _ s) <;> rfl

section
variable {s : State} {q : Nat} {r : Rec} {rest : List Rec}

/-- The queue without its oldest record. -/
def recTaken (s : State) (q : Nat) (rest : List Rec) : State := s.modHq q (fun x => { x with recs := rest })

/-- Whether the ring of a queue has no room. -/
def RingFull (s : State) (q : Nat) : Prop := (s.fld (Csr.hqIndex q) 31 0 + 2 ^ 32 - s.fld (Csr.hqIndex q) 63 32) % 2 ^ 32 = ringSize s q

/-- The write of a queue's oldest record to its slot. -/
def recWrite (s : State) (q : Nat) (r : Rec) (rest : List Rec) : State × Option Nat :=
  ringWrite (recTaken s q rest) (s.fld (Csr.hqCfg q) 55 50) (s.fld (Csr.hqRing q) 47 5 * 32 + 32 * (s.fld (Csr.hqIndex q) 31 0 % ringSize s q))
    (recBytes r (decide (s.fld (Csr.hqIndex q) 31 0 / ringSize s q % 2 = 0)))

theorem touch_recWrite : Touch ringParts (recTaken s q rest) (recWrite s q r rest).1 := touch_ringWrite_refl _ _ _ _

theorem writeRecord_of_full (hrecs : (s.hq q).recs = r :: rest) (h : RingFull s q) : writeRecord q s = s.setFld (Csr.hqState q) 0 0 1 := by
  unfold writeRecord
  rw [hrecs]
  exact if_pos h

theorem writeRecord_of_written (hrecs : (s.hq q).recs = r :: rest) (h : ¬ RingFull s q) {s1 : State} (hw : recWrite s q r rest = (s1, none)) :
    writeRecord q s = recDone (notifyRecord (s1.setFld (Csr.hqIndex q) 31 0 (s.fld (Csr.hqIndex q) 31 0 + 1)) q r.kind) r := by
  unfold writeRecord
  rw [hrecs]
  refine (if_neg h).trans ?_
  rw [recWrite, recTaken] at hw
  dsimp only
  rw [hw]

theorem writeRecord_of_failed (hrecs : (s.hq q).recs = r :: rest) (h : ¬ RingFull s q) {s1 : State} {code : Nat} (hw : recWrite s q r rest = (s1, some code)) :
    writeRecord q s = recDone (ringFailed s1 q r code) r := by
  unfold writeRecord
  rw [hrecs]
  refine (if_neg h).trans ?_
  rw [recWrite, recTaken] at hw
  dsimp only
  rw [hw]

theorem touch_ringFailed_refl (x : State) (code : Nat) : Touch { regs := true, errLog := true } x (ringFailed x q r code) := by
  apply touch_ringFailed _ _ _ _ (.refl _ x) <;> rfl

/-- Beside the error log's counter a dropped record writes its queue's state. -/
theorem reg_ringFailed (x : State) (code : Nat) {off : Nat} (ho : off ≠ Csr.errLogNext) :
    (ringFailed x q r code).reg off = ((x.setFld (Csr.hqState q) 1 1 1).setFld (Csr.hqState q) 23 23 1).reg off := by
  have hlog : ∀ (y : State) (scope queue tray index aux addr : Nat), (logError y code scope queue tray index aux addr).reg off = y.reg off :=
    fun y _ _ _ _ _ _ => State.reg_setFld_other y _ _ _ ho.symm
  rw [ringFailed, hlog, stopQueue]

/-- Written or dropped, the record goes to its task's boundary with the trays and the barriers as they were. -/
theorem writeRecord_done (hrecs : (s.hq q).recs = r :: rest) (h : ¬ RingFull s q) : ∃ x, writeRecord q s = recDone x r ∧ x.trays = s.trays ∧ x.barriers = s.barriers := by
  obtain ⟨s1, result, hw⟩ : ∃ s1 result, recWrite s q r rest = (s1, result) := ⟨_, _, rfl⟩
  have hring : Touch ringParts (recTaken s q rest) s1 := by
    have hall := touch_recWrite (s := s) (q := q) (r := r) (rest := rest)
    rwa [hw] at hall
  have htrays : s1.trays = s.trays := hring.trays rfl
  have hbarriers : s1.barriers = s.barriers := hring.barriers rfl
  cases result with
  | none =>
    have hnotify : Touch { queues := true, host := true, hostTx := true, regs := true } s1 (notifyRecord (s1.setFld (Csr.hqIndex q) 31 0 (s.fld (Csr.hqIndex q) 31 0 + 1)) q r.kind) :=
      touch_notifyRecord _ _ _ (touch_State_setFld _ _ _ _ _ (.refl _ s1) rfl) rfl rfl rfl
    exact ⟨_, writeRecord_of_written hrecs h hw, (hnotify.trays rfl).trans htrays, (hnotify.barriers rfl).trans hbarriers⟩
  | some code => exact ⟨_, writeRecord_of_failed hrecs h hw, ((touch_ringFailed_refl s1 code).trays rfl).trans htrays, ((touch_ringFailed_refl s1 code).barriers rfl).trans hbarriers⟩

theorem mem_recDone (x : State) : (recDone x r).mem = x.mem := by
  unfold recDone
  split
  · exact mem_taskBoundary _ _
  · rfl

theorem reg_recDone {off : Nat} (ho : ¬ LossReg off) (x : State) : (recDone x r).reg off = x.reg off := by
  unfold recDone
  split
  · exact reg_taskBoundary ho _ _
  · rfl

/-- With its last record a task's tray enters IDLE (R84, R452). -/
theorem writeRecord_ends (hrecs : (s.hq q).recs = r :: rest) (h : ¬ RingFull s q) (hlast : r.last = true) (ht : r.tray < 32) :
    ((writeRecord q s).tray r.tray).state = .idle ∧ ((writeRecord q s).tray r.tray).insts = [] ∧
      (NoneWaits s r.tray → ((writeRecord q s).tray r.tray).tokens = (bumpTokens (Vector.replicate 8 0) (s.tray r.tray).endSig).1) := by
  obtain ⟨x, hx, htrays, hbarriers⟩ := writeRecord_done hrecs h
  have hboundary : recDone x r = taskBoundary x r.tray := if_pos hlast
  rw [hx, hboundary]
  obtain ⟨hidle, hinsts⟩ := taskBoundary_idle x ht
  refine ⟨hidle, hinsts, fun hnone => ?_⟩
  have hwaits : NoneWaits x r.tray := fun b hb p hp => hnone b hb p (by rwa [State.barrier, ← hbarriers])
  rw [tokens_taskBoundary ht hwaits, State.tray, htrays, State.tray]

/-- A record written stands in its slot, and HQ_PI advances (R451). -/
theorem writeRecord_writes (hq : q < 64) (hrecs : (s.hq q).recs = r :: rest) (h : ¬ RingFull s q) {s1 : State} {pa : Nat}
    (htranslate : translate (recTaken s q rest) 4 (s.fld (Csr.hqCfg q) 55 50)
      ((s.fld (Csr.hqRing q) 47 5 * 32 + 32 * (s.fld (Csr.hqIndex q) 31 0 % ringSize s q) : Nat) : Int) false = (s1, .ok pa))
    (hwritten : (recWrite s q r rest).2 = none) :
    (writeRecord q s).fld (Csr.hqIndex q) 31 0 = (s.fld (Csr.hqIndex q) 31 0 + 1) % 2 ^ 32 ∧
      (writeRecord q s).mem = putBytes s.mem pa (recBytes r (decide (s.fld (Csr.hqIndex q) 31 0 / ringSize s q % 2 = 0))) := by
  have hw := ringWrite_of_written htranslate hwritten
  obtain ⟨x, hx, hmem⟩ : ∃ x, recWrite s q r rest = (x, none) ∧ x.mem = putBytes s.mem pa (recBytes r (decide (s.fld (Csr.hqIndex q) 31 0 / ringSize s q % 2 = 0))) := by
    refine ⟨_, hw, ?_⟩
    have hs1 : s1.mem = s.mem := by
      have htr := mem_translate (recTaken s q rest) 4 (s.fld (Csr.hqCfg q) 55 50)
        ((s.fld (Csr.hqRing q) 47 5 * 32 + 32 * (s.fld (Csr.hqIndex q) 31 0 % ringSize s q) : Nat) : Int) false
      rw [htranslate] at htr
      exact htr
    rw [(touch_hostWriteOut (F := { host := true, hostTx := true }) _ pa _ (.refl _ _) rfl rfl).mem rfl, mem_write, mem_larderTouch, hs1]
  have hnotify : Touch { queues := true, host := true, hostTx := true } (x.setFld (Csr.hqIndex q) 31 0 (s.fld (Csr.hqIndex q) 31 0 + 1))
      (notifyRecord (x.setFld (Csr.hqIndex q) 31 0 (s.fld (Csr.hqIndex q) 31 0 + 1)) q r.kind) := touch_notifyRecord _ _ _ (.refl _ _) rfl rfl rfl
  rw [writeRecord_of_written hrecs h hx]
  refine ⟨?_, ?_⟩
  · rw [State.fld, reg_recDone (not_lossReg_hqIndex hq), State.reg, hnotify.regs rfl]
    exact fld_setFld_same x (Csr.hqIndex q) _ (by omega) (by omega)
  · rw [mem_recDone, hnotify.mem rfl]
    exact hmem

/-- A record that cannot be written is dropped, and its queue stops (R451). -/
theorem writeRecord_drops (hq : q < 64) (hrecs : (s.hq q).recs = r :: rest) (h : ¬ RingFull s q) (hlast : r.last = false) {s1 : State} {code : Nat}
    (hw : recWrite s q r rest = (s1, some code)) :
    ((writeRecord q s).hq q).recs = rest ∧ (writeRecord q s).fld (Csr.hqIndex q) 31 0 = s.fld (Csr.hqIndex q) 31 0 ∧ (writeRecord q s).fld (Csr.hqState q) 1 1 = 1 ∧
      (writeRecord q s).fld (Csr.hqState q) 23 23 = 1 := by
  have hdone : writeRecord q s = ringFailed s1 q r code := by
    rw [writeRecord_of_failed hrecs h hw, recDone, hlast]
    rfl
  have htranslated := ringWrite_of_failed hw
  have hqueues : s1.queues = (recTaken s q rest).queues := by
    rw [htranslated]
    have htouch : Touch ringParts (recTaken s q rest) (translate (recTaken s q rest) 4 (s.fld (Csr.hqCfg q) 55 50)
        ((s.fld (Csr.hqRing q) 47 5 * 32 + 32 * (s.fld (Csr.hqIndex q) 31 0 % ringSize s q) : Nat) : Int) false).1 := by
      apply touch_translate _ _ _ _ _ (.refl _ _) <;> rfl
    exact htouch.queues rfl
  have hindex : s1.reg (Csr.hqIndex q) = s.reg (Csr.hqIndex q) := by
    rw [htranslated]
    exact reg_translate (not_walkReg_hqIndex hq) _ _ _ _ _
  have hstate : Csr.hqState q ≠ Csr.hqIndex q := by
    simp only [Csr.hqState, Csr.hqIndex]
    omega
  have hlogIndex : Csr.errLogNext ≠ Csr.hqIndex q := fun heq => not_lossReg_hqIndex hq (heq ▸ .inr (.inl (by decide)))
  have hlogState : Csr.errLogNext ≠ Csr.hqState q := by
    simp only [Csr.errLogNext, Csr.hqState]
    omega
  have hfld : ∀ hi lo, (ringFailed s1 q r code).fld (Csr.hqState q) hi lo = ((s1.setFld (Csr.hqState q) 1 1 1).setFld (Csr.hqState q) 23 23 1).fld (Csr.hqState q) hi lo :=
    fun hi lo => by rw [State.fld, reg_ringFailed _ _ hlogState.symm, State.fld]
  rw [hdone]
  refine ⟨?_, ?_, ?_, ?_⟩
  · have hsame := (touch_ringFailed_refl (q := q) (r := r) s1 code).queues rfl
    rw [State.hq, hsame, hqueues, ← State.hq, recTaken, State.hq_modHq_same _ _ hq]
  · have hkept : (ringFailed s1 q r code).fld (Csr.hqIndex q) 31 0 = ((s1.setFld (Csr.hqState q) 1 1 1).setFld (Csr.hqState q) 23 23 1).fld (Csr.hqIndex q) 31 0 := by
      rw [State.fld, reg_ringFailed _ _ hlogIndex.symm, State.fld]
    rw [hkept, fld_setFld_other _ _ _ _ _ _ hstate, fld_setFld_other _ _ _ _ _ _ hstate, State.fld, hindex, State.fld]
  · rw [hfld, fld_setFld_apart _ _ _ (by omega) (by omega) (by omega)]
    exact fld_setFld_same _ _ _ (by omega) (by omega)
  · rw [hfld]
    exact fld_setFld_same _ _ _ (by omega) (by omega)

end

/-- The part of O15 about RECORD_WRITE. -/
theorem oldestRecordGoesToItsRing : OldestRecordGoesToItsRing := by
  intro s q r rest hq hrecs ht pi full at' s0 bytes
  refine ⟨writeRecord q s, (if_pos hq : execRecordWrite q s = _), fun hfull => ?full, fun hroom hlast => ?last, fun hroom s1 pa htranslate hwritten => ?written, fun hroom hlast s1 code hfailed => ?failed⟩
  case full => exact writeRecord_of_full hrecs hfull
  case last => exact writeRecord_ends hrecs hroom hlast ht
  case written =>
    obtain ⟨hindex, hmem⟩ := writeRecord_writes hq hrecs hroom htranslate hwritten
    have hlength := length_recBytes r (decide (s.fld (Csr.hqIndex q) 31 0 / ringSize s q % 2 = 0))
    refine ⟨hindex, fun j hj => ?_, fun a ha => ?_⟩
    · rw [hmem, putBytes_get_inside (hlength.symm ▸ hj)]
      exact (List.getD_eq_getElem _ _ (hlength.symm ▸ hj)).symm
    · rw [hmem]
      exact putBytes_get_outside (hlength.symm ▸ ha)
  case failed => exact writeRecord_drops hq hrecs hroom hlast hfailed

/-- The part of O15 about NOTIFY_TIMER_EXPIRE. -/
theorem notifyTimerSendsProducerIndex : NotifyTimerSendsProducerIndex := by
  intro s q hq hon hcount hup hpaused
  have hsent : ∀ (prio : Nat) (m : HostTx), sendOn s (s.fld (Csr.hqCfg q) 48 48, prio) m = s.sendHost m := by
    intro prio m
    rw [sendOn, hup, hpaused]
    rfl
  have hexpire : notifyExpire q s = notify s q := if_pos (by simp [hon, hcount])
  refine ⟨notify s q, (if_pos hq : execNotifyTimerExpire q s = _).trans (congrArg Host.Outcome.next hexpire), ?_⟩
  rw [notify, hsent, State.hq_modHq_same _ _ hq]
  exact ⟨rfl, rfl, rfl, rfl⟩

/-- Settles O15: the oldest record of a queue at its ring, and the notification of the producer index. (That a task whose last record could not be written still reaches its boundary is the model's
reading, log entry 30.) -/
theorem recordsGoToTheirRings : Obligations.RecordsGoToTheirRings := by
  unfold Obligations.RecordsGoToTheirRings
  exact ⟨oldestRecordGoesToItsRing, notifyTimerSendsProducerIndex⟩

end Sys2Proof.Machine
end
